-- ==== Sys2Proof/Syntax.lean ====
section
/-! DEFINITION. The commands of the block: one constructor of Instr per row of spec/opcode_table.json, with the
operands the row needs. What the surroundings report (data read, a measurement, a level) is an operand. -/

namespace Sys2Proof

/-- The opcodes of R108 and chapters 04, 10 and 16. -/
inductive Op where
  | nop | read | write | flush | flushMedia | writeZeroes | deallocate | verify
  | createRing | deleteRing | setRingWeight | abort | identify | getFeature | setFeature | setPowerState
  | functionReinit
  | createPool | destroyPool | addMember | retireMember | replaceMember | createVolume | deleteVolume
  | resizeVolume | reshapePlan | reshapeStart | reshapeControl | rebuildControl | scrubControl | poolStatus
  | memberStatus | lostBlockList
  | createTenant | deleteTenant | bind | loadKey | eraseKey | setTenantQos | meterConfig | meterRead
  | reflectWrite | reflectRead | reflectAdd | reflectCas | registerRegion | revokeRegion | endpointStatus
  | firmwareDownload | firmwareActivate | logFreeze | logThaw | logRead | logClearChallenge | logClear
  | healthReport | selfTest | engineSwap | dieRetire | timeAnchor | partnerControl | tickBudgetReport
  deriving DecidableEq, Repr

/-- A work-ring entry (R82) but for its opcode, which the row names; tail is bytes 44 to 63, little-endian. -/
structure Entry where
  own : Bool := true
  ind : Bool := false
  push : Bool := false
  ctrlRsv : BitVec 5 := 0
  tag : W16 := 0
  vol : W16 := 0
  fua : Bool := false
  nocache : Bool := false
  consread : Bool := false
  flagsRsv : BitVec 5 := 0
  pic : BitVec 8 := 0
  lba : W64 := 0
  nblk : W32 := 0
  apptag : W16 := 0
  appmask : W16 := 0
  reftag : W64 := 0
  dptr : W64 := 0
  dlen : W32 := 0
  tail : BitVec 160 := 0
  deriving DecidableEq, Repr, Inhabited

/-- The dispatch of the entry at the head of ring `ring` of die `die` (R92), with the bytes its input buffer holds, or that
the host memory read of a control command's buffer fails (R96). -/
structure Post where
  die : Nat
  ring : Nat
  entry : Entry
  buf : Bytes := []
  bufErr : Bool := false
  deriving DecidableEq, Repr

/-- A command in flight, named by the entry it came from (R152). -/
structure CmdRef where
  die : Nat
  ring : Nat
  index : Nat
  deriving DecidableEq, Repr

/-- One fragment of a fragment table (R95). -/
structure Frag where
  addr : W64
  len : W32
  last : Bool
  rsv : BitVec 31 := 0
  deriving DecidableEq, Repr

/-- A ring window of a function's BAR0 (R77, R505). -/
structure Win where
  port : Nat
  fn : Nat
  window : Nat
  deriving DecidableEq, Repr

/-- A register write (R507): its width in bits, whether it is a 32-bit write to bits 63:32, and its value. -/
structure Acc where
  width : Nat := 64
  upper : Bool := false
  value : W64
  deriving DecidableEq, Repr

/-- A write of XCH_REQ in one 64-bit write (R519). -/
structure XchReq where
  port : Nat
  fn : Nat
  window : Nat
  seq : BitVec 8
  sel : W16
  arg : W32
  deriving DecidableEq, Repr

/-- An entry that intake found with an opcode byte the opcode list does not assign (R108 cause 02h). -/
structure BadFetch where
  die : Nat
  ring : Nat
  opc : Byte
  entry : Entry
  deriving DecidableEq, Repr

/-- A stage overrun as the safety core finds it (R63): the core, its stage and the cycles used past the allotment. -/
structure Overrun where
  die : Nat
  core : Nat
  stage : Nat
  cycles : Nat
  deriving DecidableEq, Repr

/-- What a work item serves (R51, R56, R258): a command of a ring, a destage (R168) by its number, or the rebuild, reshape,
copy-back or scrub of a pool. -/
inductive Work where
  | command (c : CmdRef) | destage (id : Nat) | rebuild (pool : Nat) | reshape (pool : Nat) | copyBack (pool : Nat)
  | scrub (pool : Nat)
  deriving DecidableEq, Repr

/-- A work item that arrives at a stage or resource (R51 to R56): what it serves and what it needs; at a core class, the
kind (1 to 12) whose budget it needs (R69). -/
structure Item where
  die : Nat
  res : Nat
  work : Work
  need : Nat
  stage : Nat := 0
  kind : Nat := 0
  byteItem : Bool := true
  deriving DecidableEq, Repr

/-- What a checker guards (R396); a drive port is named by its number on the die (R530). -/
inductive Checked where
  | core (i : Nat) | gf (i : Nat) | aes (i : Nat) | mover (i : Nat) | hostCrc | driveCrc (port : Nat) | sramEcc | ddrEcc (channel : Nat)
  | nvVerify | fabric (i : Nat) | reflectLane (i : Nat)
  deriving DecidableEq, Repr

/-- Where a block on the datapath came from (R392): a volume's host data, a member, or a reflect segment. -/
inductive Origin where
  | host (vol : W16) (lba : W64)
  | member (uid : W64) (stripe pos off : Nat)
  | reflect (src dst key : W16) (gen : BitVec 8) (offset : W64)
  deriving DecidableEq, Repr

/-- A block as a consuming unit finds it (R392): where it should have come from, its bytes, the internal CRC it carries. -/
structure Xfer where
  origin : Origin
  data : Bytes
  crc : Nat
  deriving DecidableEq, Repr

/-- One beat of a pass of a GF engine (R393): its inputs, its outputs, and the coefficients that each output applied. -/
structure GfBeat where
  ins : List Bytes
  outs : List Bytes
  coefs : List (List Byte)
  deriving DecidableEq, Repr

/-- A block that an AES-XTS engine produced (R395): key and tweak, the direction, the block it gave, and the input's internal
CRC with its prefix. -/
structure AesRun where
  key : Bytes
  vol : W16
  lba : W64
  enc : Bool
  output : Bytes
  crc : Nat
  deriving DecidableEq, Repr

/-- A pass of a GF engine and its repetition on the other engine (R24, R391, R393). -/
structure GfRun where
  pass : List GfBeat
  again : List GfBeat
  deriving DecidableEq, Repr

/-- A block of an AES-XTS engine and its repetition on another engine (R391, R395). -/
structure AesTry where
  block : AesRun
  again : AesRun
  deriving DecidableEq, Repr

/-- A transfer and its repetition from the source (R391, R392), with the root port when the consuming unit is a port's CRC unit. -/
structure XferTry where
  port : Nat
  block : Xfer
  again : Xfer
  deriving DecidableEq, Repr

/-- Which check found a bad memory word (R390): an access, a patrol, or a block's seal. -/
inductive Found where
  | access | patrol | blockSeal
  deriving DecidableEq, Repr

/-- What the surroundings and the measuring circuits show in one tick (R48). -/
structure TickIn where
  fetched : List BadFetch := []
  items : List Item := []
  slowReads : List CmdRef := []
  overruns : List Overrun := []
  silent : List Nat := []
  holdIn : Bool := false
  partnerP3 : Bool := false
  temps : List (BitVec 8) := []
  power : Nat := 0
  l0p : List Nat := []
  tsOffset : Option Int := none
  lbistFail : List (Nat × Nat) := []
  checkFail : List (Nat × Checked) := []
  corrected : List (Nat × Nat) := []
  ddr : List (Nat × Nat × Nat) := []
  recFail : List (Nat × Nat × Nat) := []
  costs : List (CmdRef × Nat) := []
  deriving DecidableEq, Repr

/-- Where an uncorrectable SRAM error lies (R397). -/
inductive SramLoc where
  | coreMem (core : Nat) | gather (pool stripe : Nat) | layout | ringEntry (ring index : Nat)
  | reflectBuf (src : W16) (msgno : W32) (segno : Nat) | shared | faultArea (slot : Nat)
  deriving DecidableEq, Repr

/-- Where an uncorrectable DDR error lies (R398), with what the device finds when it looks for another copy. -/
inductive DdrLoc where
  | protectedUnit (vol lba : Nat) (mirrorGood : Bool)
  | mirror (vol lba : Nat)
  | directory (rebuilt : Bool)
  | readCache (vol lba : Nat)
  | window (reader writer : W16)
  | region (key : Nat)
  deriving DecidableEq, Repr

/-- An uncorrectable SRAM word (R397): whether the patrol or an access found it, and where it lies. -/
structure SramHit where
  patrol : Bool
  loc : SramLoc
  deriving DecidableEq, Repr

/-- An uncorrectable DDR word (R398): its channel, and which check found it. -/
structure DdrHit where
  channel : Nat
  how : Found
  deriving DecidableEq, Repr

/-- One measurement of a lane's eye (R474): whether it lies below the limit, and whether the lane's link can use L0p (R385). -/
structure EyeSeen where
  below : Bool
  l0p : Bool
  deriving DecidableEq, Repr

/-- A flit as a die receives it: the die, and the flit's bytes (R325). -/
structure FlitIn where
  die : Nat
  raw : Bytes
  deriving DecidableEq, Repr

/-- A member sector as the device reads or writes it: data bytes and 64 metadata bytes (R212). -/
structure Sector where
  data : Bytes
  md : Bytes
  deriving DecidableEq, Repr

/-- How a member command can fail (R227, R228, R367). -/
inductive MemErr where
  | unrecovered | e2e | reservation | invalidNs | writeProtected | other
  /-- R226 an attempt that the device had aborted -/
  | aborted
  deriving DecidableEq, Repr

/-- A member command's completion (R222). -/
inductive MemResult where
  | readOk (s : List Sector)
  | done
  | err (e : MemErr)
  deriving DecidableEq, Repr

/-- What the controller of a path reports (R222): I/O queue pairs that it grants, MQES, and SGL support. -/
structure Ctrl where
  path : Nat
  granted : Nat
  mqes : Nat
  sgl : Bool
  deriving DecidableEq, Repr

/-- A namespace as the device finds it on a path (R217, R219, R480): its size in blocks of its current format, data and
metadata bytes of that format, data sizes it offers with 64 bytes of metadata, whether its current format has end-to-end
protection as R216 asks for and whether it offers that, the two copies of its label as they read, the paths that reach it,
those of them whose controller grants no I/O queue or cannot transfer 64 bytes of metadata, and what the other controllers
report (R222). A path is written as its die index + 8 × the order of its controller ID on that die (R223). -/
structure NsInfo where
  nguid : BitVec 128
  eui : W64 := 0
  capacity : Nat
  cur : Nat
  md : Nat := 64
  offers : List Nat
  e2e : Bool := false
  offersE2e : Bool := false
  labels : List Bytes := []
  dies : List Nat
  unusable : List Nat := []
  ctrls : List Ctrl := []
  deriving DecidableEq, Repr

/-- One offset of a stripe that rebuild found with positions unreadable (R236, R239). -/
structure BadOff where
  stripe : Nat
  off : Nat
  bad : List Nat
  deriving DecidableEq, Repr

/-- What scrub found at one offset of one stripe (R257). -/
inductive Finding where
  | sealFail (bad : List Nat) | inconsistent (single : Option Nat) | copiesDiffer (bad : List Nat)
  deriving DecidableEq, Repr

/-- A finding with its place. -/
structure ScrubOff where
  stripe : Nat
  off : Nat
  what : Finding
  deriving DecidableEq, Repr

/-- A reflect segment: header of R322 and payload. -/
structure Seg where
  op : Byte := 1
  flagged : Bool := true
  resp : Bool := false
  notify : Bool := false
  noretx : Bool := false
  src : W16
  dst : W16
  segno : Nat := 0
  msgno : W32 := 0
  nseg : Nat := 1
  key : W16 := 0
  gen : BitVec 8 := 1
  offset : W64 := 0
  aux : W32 := 0
  payload : Bytes := []
  deriving DecidableEq, Repr

/-- What the header of a payload or idle flit says, and whether its CRC passes after FEC (R325 to R327). -/
structure Flit where
  idle : Bool
  fseq : BitVec 12
  ackseq : BitVec 12
  nak : Bool
  cred : BitVec 5
  crcOk : Bool
  deriving DecidableEq, Repr

/-- The payload fields of a control flit (R331). -/
structure Ctl where
  lane : BitVec 8
  pkgid : Nat
  die : Nat
  width : Nat
  version : BitVec 8
  credits : W16
  deriving DecidableEq, Repr

/-- Which peer's heartbeat is lost (R359, R363). -/
inductive HbPeer where
  | die (d : Nat) | partner | partnerDie (d : Nat)
  deriving DecidableEq, Repr

/-- A DIMM as its SPD shows it (R29). -/
structure Dimm where
  mrdimm : Bool
  rate : Nat
  gib : Nat
  deriving DecidableEq, Repr

/-- What a die finds of its held contents at phase 4 (R186). -/
inductive Restore where
  | held | image | mirror | nothing
  deriving DecidableEq, Repr

/-- What the surroundings and the self-tests show while a start-up phase runs (R462). -/
structure PhaseIn where
  slotsOk : List Bool := [true, true]
  sfdpOk : Bool := true
  pkgid : Nat := 0
  board : List Bytes := []
  failedDies : List Nat := []
  failedUnits : List (Nat × Checked) := []
  recorderOk : List Nat := []
  dimms : List (List (Option Dimm)) := []
  failedChannels : List (Nat × Nat) := []
  restore : List Restore := []
  calib : List (List Nat) := []
  rates : List (Nat × List Nat) := []
  badCopies : List (Nat × Nat × Nat) := []
  invalid : List (Nat × Nat) := []
  lostKeys : List Nat := []
  partner : Bool := false
  partnerSn : Bytes := []
  partnerProt : List Nat := []
  holdIn : Bool := false
  deriving DecidableEq, Repr

/-- A management-sideband message as it arrives (R542 to R544): whether PEC and MCTP header pass. -/
structure Mctp where
  good : Bool := true
  deriving DecidableEq, Repr

/-- The commands: one constructor per row of spec/opcode_table.json, in the table's order. -/
inductive Instr where
  | nop (p : Post) | read (p : Post) | write (p : Post) | flush (p : Post) | flushMedia (p : Post)
  | writeZeroes (p : Post) | deallocate (p : Post) | verify (p : Post)
  | fragmentTableRead (c : CmdRef) (frags : List Frag) (buf : Bytes)
  | hostTransferError (c : CmdRef)
  | createRing (p : Post) | deleteRing (p : Post) | setRingWeight (p : Post) | abort (p : Post)
  | identify (p : Post) | getFeature (p : Post) | setFeature (p : Post) | setPowerState (p : Post)
  | functionReinit (p : Post)
  | createPool (p : Post) | destroyPool (p : Post) | addMember (p : Post) | retireMember (p : Post)
  | replaceMember (p : Post) | createVolume (p : Post) | deleteVolume (p : Post) | resizeVolume (p : Post)
  | reshapePlan (p : Post) | reshapeStart (p : Post) | reshapeControl (p : Post) | rebuildControl (p : Post)
  | scrubControl (p : Post) | poolStatus (p : Post) | memberStatus (p : Post) | lostBlockList (p : Post)
  | createTenant (p : Post) | deleteTenant (p : Post) | bind (p : Post) | loadKey (p : Post)
  | eraseKey (p : Post) | eraseMarksApply (tenant : Nat)
  | setTenantQos (p : Post) | meterConfig (p : Post) | meterRead (p : Post)
  | reflectWrite (p : Post) | reflectRead (p : Post) | reflectAdd (p : Post) | reflectCas (p : Post)
  | registerRegion (p : Post) | revokeRegion (p : Post) | revokeComplete (die key : Nat)
  | endpointStatus (p : Post)
  | firmwareDownload (p : Post) | firmwareProgrammed (readbackOk : Bool) | firmwareActivate (p : Post)
  | firmwareLoadDone | firmwareClassFlip (answerOk : Bool)
  | logFreeze (p : Post) | logThaw (p : Post) | freezeExpired | logRead (p : Post)
  | logClearChallenge (p : Post) | challengeExpired | logClear (p : Post)
  | healthReport (p : Post) | selfTest (p : Post) | engineSwap (p : Post) | dieRetire (p : Post)
  | dieRetireMigrated (pool : Nat) | timeAnchor (p : Post) | partnerControl (p : Post)
  | tickBudgetReport (p : Post)
  | doorbell (w : Win) (a : Acc) | notificationDoorbell (w : Win) (a : Acc) | clearOvf (w : Win) (a : Acc)
  | invalidate (w : Win) (a : Acc) | setupRingEnable (w : Win) (a : Acc) | setupRingDisable (w : Win) (a : Acc)
  | gctlReset (port : Nat) (a : Acc) | ladderAck (port : Nat) (a : Acc)
  | evtPendClear (die k : Nat) (a : Acc) | meterHeadWrite (die : Nat) (a : Acc)
  | xchIdentify (x : XchReq) | xchPoolStatus (x : XchReq) | xchMemberStatus (x : XchReq)
  | xchHealthReport (x : XchReq) | xchLogRead (x : XchReq) | xchMeterRead (x : XchReq)
  | msixVectorUnmask (die fn vec : Nat) | registerWrite (port fn off : Nat) (a : Acc)
  | tick (t : TickIn)
  | frameOverrun (die : Nat) | frameRecovered (die : Nat) | frameNotRecovered (die : Nat)
  | budgetWindow (die : Nat) (percentiles : List Nat)
  | ticksyncAlign (cycles : Nat) | ticksyncLost
  | powerUp | startupPhaseDone (i : PhaseIn) | resetN | perstN (port : Nat) | flr (port fn : Nat)
  | pfail | backupEnRaise | vaultDone (die : Nat) | pfailDeassert | powerReturned
  | thermalWarning (die : Nat) (temp : BitVec 8) | thermalCapStep | thermalCapLifted | thermalTrip (die : Nat)
  | powerStateChangeDone | powerStateTimeout | powerStateRaised
  | lockstepMismatch (die : Nat) (cores : List Nat)
  | gfResidueFault (die unit : Nat) (run : GfRun) | aesCheckFault (die unit : Nat) (run : AesTry)
  | datapathCrcError (die unit : Nat) (move : XferTry) | sramUncorrectable (die : Nat) (hit : SramHit)
  | ddrUncorrectable (die : Nat) (hit : DdrHit) (loc : DdrLoc)
  | nvUnitRetired (die : Nat)
  | sramPatrol (die corrected : Nat) | nvVerifyPass (die : Nat) (bad : List Nat) | ddrPatrol (die : Nat) (corrected : List Nat)
  | ddrZqCalibration (die channel : Nat) | ddrRetrained (die channel : Nat) (ok : Bool)
  | ddrChannelSpared (die channel : Nat)
  | eyeMeasure (die lane : Nat) (eye : EyeSeen)
  | fabricLinkDown (die module : Nat) | dieSelfRetire (die : Nat) | dieHoldDrop (die : Nat) | leadDieMove
  | indexRebuilt
  | heartbeatLost (peer : HbPeer) | shadowTakeover (die : Nat) | takeoverDecision (holdIn : Bool)
  | witnessAcquire | witnessAcquireDone (conflict : Bool) | holdWireCleared | pairRejoin | rejoinTick
  | partnerAbsentTimeout | dryTakeover (die holder : Nat) (ok : Bool) | witnessMeasure (latency : Nat)
  | healthReportWrite
  | unitProtected (c : CmdRef) | stripeAgeLimit (pool stripe : Nat) | destageStart (pool stripe : Nat)
  | zeroFill (vol unit : Nat) | anchor (die : Nat) | journalSpill (die : Nat) | journalFullCleared (die : Nat)
  | spillCopyReplaced (pool member : Nat) | configFold (die : Nat) | vaultRateMeasure (die v vr : Nat)
  | memberCompletion (id : Nat) (r : MemResult) | sectorRepaired (id : Nat) | memberCommandRetried (id : Nat)
  | memberTimeout (id : Nat) | memberRemoved (nsid : Nat) | controllerFatal (nsid : Nat)
  | asyncEvent (nsid : Nat) (warn : BitVec 8) | smartPoll (nsid : Nat) (warn : BitVec 8)
  | pathLost (nsid path : Nat) | pathRestored (nsid path : Nat)
  | rebuildStarted (pool : Nat) | rebuildTileDone (pool tile : Nat) (new : Bool) (bad : List BadOff)
  | rebuildResorted (pool : Nat) | lostListWrite (pool : Nat) | copyBackTile (pool member tile : Nat) (new : Bool)
  | scrubPassStart (pool : Nat) | scrubTile (pool tile : Nat) (found : List ScrubOff)
  | mitreStep (pool : Nat) | veneerBuild (pool : Nat) | veneerSwitch (pool : Nat) | reshapeCancelled (pool : Nat)
  | segWrite (die : Nat) (g : Seg) | segReadRequest (die : Nat) (g : Seg) (host : Bytes) | segReadData (die : Nat) (g : Seg)
  | segAdd (die : Nat) (g : Seg) | segCas (die : Nat) (g : Seg) | segAtomicResult (die : Nat) (g : Seg)
  | segAck (die : Nat) (g : Seg) | segRefuse (die : Nat) (g : Seg)
  | segmentRetransmit (die : Nat) (msgno : W32) (segno : Nat) | reflectUnreachable (die : Nat) (msgno : W32)
  | flaggedSegmentExpired (die : Nat) | filterEntryExpired (die : Nat)
  | payloadFlit (die : Nat) (raw : Bytes) | alignFlit (die : Nat) (raw : Bytes) | configFlit (die : Nat) (raw : Bytes)
  | configAckFlit (die : Nat) (raw : Bytes) | recoverFlit (got : FlitIn) | linkRecover (die : Nat)
  | linkDetect (die : Nat) | linkStateTimeout (die : Nat)
  | meterSnapshot (late : Bool) | capRedivide | rateWindow (die : Nat) | optimeSave (die : Nat)
  | setEndpointId (m : Mctp) (eid : BitVec 8) | getEndpointId (m : Mctp) | getMctpVersionSupport (m : Mctp)
  | getMessageTypeSupport (m : Mctp) | getEndpointUuid (m : Mctp) | alertResponse
  | getStatus (m : Mctp) | getHealth (m : Mctp) (off : Nat) | getPending (m : Mctp) (die : Nat)
  | clearPending (m : Mctp) (die source : Nat) | getRecords (m : Mctp) (pos : Nat)
  | ringFetchError (die ring : Nat) | powerLoss | perstNDeasserted (port : Nat)
  | memberAppearsOnPath (n : NsInfo) | formatNvmTimeout (id : Nat)
  | equalisationLock (die : Nat) (lanes : List Nat) | smbusBusHeldLow
  deriving DecidableEq, Repr

end Sys2Proof
end

