-- ==== Sys2Proof/Config.lean ====
section
/-! DEFINITION. What the spec leaves open (free values, opaque) and the algorithms it takes from outside
standards without stating them (uninterpreted functions). Assumption 3 and assumption 4 log them. -/

namespace Sys2Proof.Config

/-- R192, R264: a fresh 64-bit identifier; the spec gives no rule for its value beyond never 0 and unique. -/
opaque freeId : Nat → W64

/-- R424: the 16 bytes of a random challenge. -/
opaque freeChallenge : Nat → BitVec 128

/-- R263: the device's estimate STEPTICKS, from rates it last measured; no formula is stated. -/
opaque freeStepTicks : Nat → Nat

/-- R542: the endpoint UUID and version answers of DSP0236, whose values the spec does not state. -/
opaque freeSideband : Nat → Bytes

/-- R528: Zelryn's PCI Vendor ID, whose number the spec does not state. -/
opaque vendorId : W16

/-- R160, R372: the sizes of the partner's protected regions, in GiB by die index, as the pair forms again. -/
opaque peerProt : Nat → List Nat

/-- R475: any byte the spec leaves without a stated value in an answer. -/
opaque freeNat : Nat → Nat

/-- R503: the outcome of an engine's known-answer test, which no rule determines. -/
opaque freeBool : Nat → Bool

/-- What a member's block holds is the member's: its data, by namespace, block and a counter of the model, where a row of background
work does not list what was read. -/
opaque memberData : Nat → Nat → Nat → Bytes

/-- The metadata of such a block. -/
opaque memberMd : Nat → Nat → Nat → Bytes

/-- SHA-256 (FIPS 180-4), R367. -/
opaque sha256 : Bytes → Bytes

/-- SHA-384 (FIPS 180-4), R469. -/
opaque sha384 : Bytes → Bytes

/-- HMAC-SHA-256 (FIPS 198-1): key, message, R424, R445, R486. -/
opaque hmac : Bytes → Bytes → Bytes

/-- AES key unwrap (RFC 3394): key-encryption key, wrapped bytes; none when the integrity check fails, R446. -/
opaque unwrap : Bytes → Bytes → Option Bytes

/-- AES key wrap (RFC 3394), R445. -/
opaque wrap : Bytes → Bytes → Bytes

/-- ECDSA P-384 verification (FIPS 186-5): public key, digest, signature, R469. -/
opaque ecdsaOk : Bytes → Bytes → Bytes → Bool

/-- R469: the digest of the signing key held in the one-time-programmable fuses. -/
opaque fuseDigest : Bytes

/-- AES-256-XTS (IEEE 1619) as a pair of inverse functions: key, tweak LBA, tweak VOL, data (R444). -/
structure Xts where
  enc : Bytes → W64 → W16 → Bytes → Bytes
  dec : Bytes → W64 → W16 → Bytes → Bytes
  dec_enc : ∀ k a v d, dec k a v (enc k a v d) = d

/-- The identity pair: shows that such a pair exists, so that the cipher below can be left open. -/
def xtsIdentity : Xts := ⟨fun _ _ _ d => d, fun _ _ _ d => d, fun _ _ _ _ => rfl⟩

/-- The cipher the engines run (R25, R444): nothing is known of it but that dec undoes enc. -/
opaque xts : Option Xts

/-- Encryption under the open cipher. -/
def encrypt (k : Bytes) (lba : W64) (vol : W16) (d : Bytes) : Bytes := (xts.getD xtsIdentity).enc k lba vol d

/-- Decryption under the open cipher. -/
def decrypt (k : Bytes) (lba : W64) (vol : W16) (d : Bytes) : Bytes := (xts.getD xtsIdentity).dec k lba vol d

/-- R444: decryption undoes encryption under the same key and tweak. -/
theorem decrypt_encrypt (k : Bytes) (lba : W64) (vol : W16) (d : Bytes) :
    decrypt k lba vol (encrypt k lba vol d) = d := (xts.getD xtsIdentity).dec_enc k lba vol d

end Sys2Proof.Config
end

