-- ==== Sys2Proof/Machine/State.lean ====
section
/-! DEFINITION. The state of the package as plain data, and its value right after reset. Each field's comment reads
"rule; width or range; reset value"; a reset value in capitals is the model's own choice, with its assumption. -/

namespace Sys2Proof.Machine

/-- R2: the three parts of the family. -/
inductive Part where
  | zle4820 | zle4840 | zle4880
  deriving DecidableEq, Repr

/-- R2: dies of a part. -/
def Part.dies : Part → Nat
  | .zle4820 => 2
  | .zle4840 => 4
  | .zle4880 => 8

/-- Identity, straps and board data. -/
structure IdentSt where
  /-- R2, R510 IDENT_ID.PART; 3 parts; DESIGN CHOICE zle4820 (1) -/
  part : Part
  /-- R6, R537 PKGID strap; 1 bit; DESIGN CHOICE 0 (1) -/
  pkgid : Nat
  /-- R287, R365 whether the package is in a pair; 1 bit; DESIGN CHOICE false (1) -/
  inPair : Bool
  /-- R510 IDENT_SERIAL; 20 bytes; DESIGN CHOICE 20 spaces (1) -/
  serial : Bytes
  /-- R510 IDENT_FW.RUNVER; 32 bits; DESIGN CHOICE 0 (1) -/
  runVer : W32
  /-- R36, R510 IDENT_ID.LEAD; 3 bits; 0 (die 0 is the lowest-indexed healthy die) -/
  lead : Nat
  /-- R541 SUBVID; 16 bits; 0000h (R541, no valid record) -/
  subvid : W16
  /-- R541 SUBDID; 16 bits; 0000h (R541, no valid record) -/
  subdid : W16
  /-- R541 HOSTMODE; one byte a die; 0, x16 (R541) -/
  hostMode : List Nat
  /-- R541 DRIVEMODE; one byte a die; 0, six x4 (R541) -/
  driveMode : List Nat
  deriving DecidableEq, Repr

/-- The tick, operating time and partner alignment. -/
structure ClockSt where
  /-- R47, R516 TICK_NOW.INDEX; 64 bits; 0 -/
  tick : Nat
  /-- R426, R428 TICK_OPTIME; 48 bits; 0 (R428, first power-up) -/
  optime : Nat
  /-- R428 power-cycle count; 32 bits; DESIGN CHOICE 0 (1) -/
  powerCycles : Nat
  /-- R516 TICK_SYNC.OFFSET; 16 bits; 0 -/
  syncOffset : BitVec 16
  /-- R516 TICK_SYNC.REALIGNS; 16 bits; 0 -/
  realigns : Nat
  /-- R75, R516 TICK_SYNC.LOST; 1 bit; 0 -/
  syncLost : Bool
  /-- R516 TICK_SYNC.ALIGNED; 1 bit; 0 -/
  aligned : Bool
  /-- R75 consecutive ticks without a leader pulse; count; 0 -/
  noPulse : Nat
  /-- R75 consecutive ticks with an offset above 500 ns; count; 0 -/
  farPulse : Nat
  /-- R74 the follower has aligned with the leader's pulses; 1 bit; false -/
  seen : Bool
  /-- R47, R73, R74 core cycles of the current tick; 6,399 to 12,799; 6,400 -/
  tickLen : Nat
  deriving DecidableEq, Repr

/-- One measured budget (R68 to R72, R504). -/
structure Budget where
  /-- R504 KIND; 8 bits; 01h to 0Ch -/
  kind : Nat
  /-- R504 CLASS; 3 bits; by kind -/
  cls : Nat
  /-- R504 STAGE; 3 bits; by kind -/
  stage : Nat
  /-- R68 calibration budget; 32 bits; DESIGN CHOICE 0 until phase 5 (1) -/
  calib : Nat
  /-- R69 current budget; 32 bits; DESIGN CHOICE 0 until phase 5 (1) -/
  current : Nat
  /-- R69 latest percentile; 32 bits; DESIGN CHOICE 0 until phase 5 (1) -/
  p999 : Nat
  /-- R70 urgent items per tick; 16 bits; DESIGN CHOICE 0 until phase 5 (1) -/
  urg : Nat
  /-- R70, R71 urgent items per tick before drift lowered them; 16 bits; DESIGN CHOICE 0 until phase 5 (1) -/
  urgBase : Nat
  /-- R72 tick of the latest change; 48 bits; 0 -/
  changed : Nat
  /-- R71 consecutive windows below 90 %; count; 0 -/
  low : Nat
  deriving DecidableEq, Repr

/-- R55, R100: a place in a class's round: the ring (its ID) of the latest visit, its pass, the entries or items served in it. -/
structure Turn where
  /-- R100 ID of the ring of the latest visit; die × 512 + index; 0 -/
  ring : Nat := 0
  /-- R100 pass of the round, 0 where none has begun; 0 to 255; 0 -/
  pass : Nat := 0
  /-- R100 entries or items served in that visit; 0 to 64; 0 -/
  visit : Nat := 0
  deriving DecidableEq, Repr

/-- R53, R55, R100: a die's places in the rounds of its classes. -/
structure ArbSt where
  /-- R55, R100 place in the round of each class at each place where its rings are served: ((resource, stage, class), place);
  a place not listed has had no round yet; list; empty -/
  turns : List ((Nat × Nat × Nat) × Turn) := []
  /-- R55, R100 place in the rounds of classes 1 to 3 at dispatch: class and entries of its visit; 2 and 8 bits; 1 and 0 -/
  clsTurn : Nat × Nat := (1, 0)
  /-- R53, R100 entries that intake has dispatched in this tick: urgent, and others; counts; 0 and 0 -/
  taken : Nat × Nat := (0, 0)
  /-- R63, R64 entries that intake has fetched after their deadline in this tick: entry, tag, volume, external; list; empty -/
  late : List (CmdRef × Nat × Nat × Bool) := []
  deriving DecidableEq, Repr

/-- A die's tick frame accounting. -/
structure FrameSt where
  /-- R66, R516 ticks of the internal misses in the window; list; empty -/
  intMiss : List Nat
  /-- R516 ticks of the external misses in the window; list; empty -/
  extMiss : List Nat
  /-- R516 TICK_MISSINT; 64 bits; 0 -/
  intTotal : Nat
  /-- R516 TICK_MISSEXT; 64 bits; 0 -/
  extTotal : Nat
  /-- R66, R516 TICK_SHED.SHED; 1 bit; 0 -/
  shed : Bool
  /-- R516 TICK_SHED.SHEDTICK; 48 bits; 0 -/
  shedTick : Nat
  /-- R54, R516 TICK_OVR; 64 bits; 0 -/
  overruns : Nat
  /-- R68 to R72 budgets, one a kind; list; the 12 kinds -/
  budgets : List Budget
  /-- R69 65,536-tick windows already evaluated; count; 0 -/
  window : Nat
  /-- R51, R54 items that a stage has not admitted, or not wholly, in the order of their arrival; list; empty -/
  waiting : List Item
  /-- R67 shedding ends at the next tick boundary; 1 bit; false -/
  recovering : Bool := false
  deriving DecidableEq, Repr

/-- R170, R171, R278: the body of a journal entry. -/
inductive JBody where
  | intent (stripe : Nat) (newGeom : Bool) (oldGen newGen dmask : W32) (pmask : BitVec 4) (method first count cdir : Nat)
      (absent : BitVec 36)
  | parityGen (stripe : Nat) (newGeom : Bool) (gen : W32) (ijsn : Nat)
  | unitCommit (vol unit ulba ucount units cdir : Nat) (ring : Nat) (tag : W16) (prev : Nat)
  | checkpoint (op state tile plan : Nat) (detail : List Nat)
  | lostBlocks (vol lba count action : Nat)
  | tileState (vol tile state : Nat)
  | mapSwitch (plan kind method : Nat) (newUid oldUid : W64)
  | spillSegment (seg first last : Nat) (copies : List Nat)
  | anchor (tail live segs intents : Nat)
  | powerHold (mode epoch dirty : Nat) (dircrc : W32) (optime : Nat)
  | vaultDone (bytes : Nat) (imgcrc : W32)
  deriving DecidableEq, Repr

/-- A live journal entry (R169): its JSN, home die and pool. -/
structure JEntry where
  jsn : Nat
  home : Nat
  pool : Option Nat
  body : JBody
  deriving DecidableEq, Repr

/-- A spill segment in use (R175). -/
structure Segment where
  pool : Nat
  seg : Nat
  first : Nat
  last : Nat
  copies : List Nat
  /-- R174, R176 the segment slot of each copy on its member -/
  slots : List Nat := []
  entries : List JEntry
  deriving DecidableEq, Repr

/-- A die's stripe journal. -/
structure JournalSt where
  /-- R169, R170 live entries, oldest first; 393,216 slots of 64 bytes; empty -/
  entries : List JEntry
  /-- R169 JSN of the next entry; 64 bits; DESIGN CHOICE 1 (1) -/
  next : Nat
  /-- R172 tail at the last ANCHOR; 64 bits; DESIGN CHOICE 1 (1) -/
  anchorTail : Nat
  /-- R172 tick of the last ANCHOR; 64 bits; 0 -/
  anchorTick : Nat
  /-- R174 to R178 spill segments in use; at most 64; empty -/
  segs : List Segment
  /-- R178 write admission stopped; 1 bit; false -/
  full : Bool
  /-- R171 DDR epoch, raised at each start-up; 64 bits; 0 -/
  epoch : Nat
  /-- R173, R390 journal entries found invalid by a verify pass since power-up; count; 0 -/
  invalid : Nat
  /-- R162 the pressure rule destages until less than 5/8 is dirty; 1 bit; false -/
  pressing : Bool := false
  /-- R169 entries programmed in a tick: (tick, count); 64 and 9 bits; 0 and 0 -/
  batch : Nat × Nat := (0, 0)
  /-- R27, R169 JSNs of the entries that wait for a place in a tick's batch or for a free slot, oldest first; list; empty -/
  waiting : List Nat := []
  /-- R173 entries programmed in this tick, to be sent to the partner at its end; list; empty -/
  fresh : List JEntry := []
  /-- R158, R173 JSN up to which the entries have been sent to the partner; 64 bits; 1 -/
  sent : Nat := 1
  /-- R158, R173 journal messages to the partner: (MSGNO, first JSN), oldest first; list; empty -/
  sentIn : List (W32 × Nat) := []
  /-- R381 JSN below which the partner's copy is being written anew, UNIT COMMITs too; 64 bits; 0 -/
  anew : Nat := 0
  deriving DecidableEq, Repr

/-- The fields a raising rule names (R414): FFFFh where unused, 0 for unused values. -/
structure Detail where
  unit : Nat := 0xFF
  pool : Nat := 0xFFFF
  vol : Nat := 0xFFFF
  ring : Nat := 0xFFFF
  item : Nat := 0xFFFF
  cause : Nat := 0xFFFF
  arg0 : Nat := 0
  arg1 : Nat := 0
  arg2 : Nat := 0
  deriving DecidableEq, Repr

/-- A recorder record (R413). -/
structure Rec where
  code : Nat
  sev : Nat
  die : Nat
  det : Detail
  held : Bool
  faultArea : Bool
  optime : Nat
  pcycles : Nat
  rseq : Nat
  deriving DecidableEq, Repr

/-- Rate-limit counts of one code in the current window (R418). -/
structure RateCnt where
  code : Nat
  seen : Nat
  counted : Nat
  first : Nat
  last : Nat
  deriving DecidableEq, Repr

/-- A die's event recorder. -/
structure RecorderSt where
  /-- R416 valid records, slot 0 first; 16,384 slots; empty (new package) -/
  slots : List Rec
  /-- R417 pre-write buffer; 256 records; empty -/
  prewrite : List Rec
  /-- R421 holding queue; 64 records; empty -/
  holding : List Rec
  /-- R433 LOG_DROP.DROPPED; 32 bits; 0 (new package) -/
  dropped : Nat
  /-- R433 LOG_DROP.HOLDOVF; 32 bits; 0 (new package) -/
  holdOvf : Nat
  /-- R433 DROPPED as last saved; 32 bits; 0 (new package) -/
  savedDropped : Nat
  /-- R433 HOLDOVF as last saved; 32 bits; 0 (new package) -/
  savedHoldOvf : Nat
  /-- R421 records lost in this freeze; count; 0 -/
  freezeOvf : Nat
  /-- R415 LOG_RSEQ.NEXT; 32 bits; 1 -/
  rseq : Nat
  /-- R431 LOG_STATUS.FAILED; 1 bit; 0 -/
  failed : Bool
  /-- R432 recorder-fault area; 16 records; empty -/
  faultArea : List Rec
  /-- R432 LOG_FAULT.FDROP; 8 bits; 0 -/
  fdrop : Nat
  /-- R418 rate-limit counts of the current window; list by code; empty -/
  rates : List RateCnt
  /-- R418 index of the current rate-limit window; count; 0 -/
  window : Nat
  /-- R425 CLEAR PENDING mark with its tick; optional; none -/
  clearPending : Option Nat
  deriving DecidableEq, Repr

/-- One event source's routing register (R409). -/
structure Route where
  src : Nat
  count : Nat := 0
  msien : Bool := false
  alerten : Bool := false
  fn : Nat := 0
  vector : Nat := 0
  deriving DecidableEq, Repr

/-- A die's EVT block. -/
structure EvtSt where
  /-- R409 EVT_ROUTE, COUNT included; 256 registers, those not listed hold 0; all 0 -/
  routes : List Route
  /-- R409 EVT_PEND; sources with a pending bit; empty -/
  pend : List Nat
  /-- R409 EVT_REMAP in force; 112 codes, those not listed hold 0000h; all 0000h -/
  remap : List (Nat × Nat)
  /-- R408 EVT_REMAP as written, in force from the next tick; 112 codes; all 0000h -/
  remapNext : List (Nat × Nat)
  deriving DecidableEq, Repr

/-- R330: reflect link states. -/
inductive LinkState where
  | detect | equalise | align | config | active | recover | down
  deriving DecidableEq, Repr

/-- A die's reflect link. -/
structure LinkSt where
  /-- R330 state; 7 states; DETECT (R330, start of training) -/
  state : LinkState
  /-- R330 tick of entry into the state; 64 bits; 0 -/
  since : Nat
  /-- R330 returns from ALIGN to EQUALISE; at most 3; 0 -/
  alignTries : Nat
  /-- R332 width; 0, 4, 8 or 16; 0 (no link yet) -/
  width : Nat
  /-- R330 lanes locked or healthy; 0 to 16; 16 -/
  lanes : Nat
  /-- R330 lanes mapped by ALIGN flits; list; empty -/
  aligned : List Nat
  /-- R330 a matching CONFIG was received; 1 bit; false -/
  gotConfig : Bool
  /-- R326, R328 next FSEQ expected; 12 bits; DESIGN CHOICE 0 (1) -/
  rxNext : BitVec 12
  /-- R326, R328 next FSEQ to send; 12 bits; DESIGN CHOICE 0 (1) -/
  txNext : BitVec 12
  /-- R328 payloads of the unacknowledged payload flits, oldest first; at most 2,048; empty -/
  kept : List Bytes
  /-- R328, R331 payload-flit credits left; count; 0 -/
  credits : Nat
  /-- R326, R328 payload flits received whose credits have not gone back; count; 0 -/
  owed : Nat := 0
  /-- R328 discarding until replay; 1 bit; false -/
  discarding : Bool
  /-- R326 NAK to send in the next flit; 1 bit; false -/
  nakDue : Bool
  /-- R331 flits sent with NAK in this tick; count; 0 -/
  naks : Nat
  /-- R328, R348 segments that wait for a credit, for room among the kept flits or for the link to be ACTIVE: (priority, payloads of the flits
  left); list; empty -/
  queue : List (Nat × List Bytes) := []
  /-- R329 flits sent since the link became ACTIVE; count; 0 -/
  count : Nat := 0
  /-- R332 width at which the link was last ACTIVE; 4, 8 or 16; 16 -/
  trained : Nat := 16
  /-- R330 lanes that have locked in EQUALISE; list; empty -/
  locked : List Nat := []
  /-- R326, R328 sequence number from which a NAK received in RECOVER asks for the replay; 12 bits, optional; none -/
  replayFrom : Option (BitVec 12) := none
  deriving DecidableEq, Repr

/-- One slot of the heartbeat region (R358). -/
structure HbSlot where
  /-- R358 HBWORD; 64 bits; DESIGN CHOICE 0 (1) -/
  word : W64
  /-- R358 HBAUX; 32 bits; DESIGN CHOICE 0 (1) -/
  aux : W32
  /-- R359 HBWORD at the previous sample; 64 bits; DESIGN CHOICE 0 (1) -/
  sample : W64
  /-- R359 consecutive missed ticks; count; 0 -/
  missed : Nat
  deriving DecidableEq, Repr

/-- A yield or rejoin record in a heartbeat region (R358). -/
structure YRec where
  scope : Nat
  ydie : Nat
  cause : Nat
  ytime : Nat
  rdelay : Nat
  deriving DecidableEq, Repr

/-- A die's units. -/
structure HwSt where
  /-- R18, R384 job of each core; 24 codes of R384; as R18 -/
  cores : List Nat
  /-- R23 GF engines in service; 2 flags; true -/
  gf : List Bool
  /-- R23 AES-XTS engines in service; 4 flags; true -/
  aes : List Bool
  /-- R23, R518 movers in service; 16 flags; true -/
  movers : List Bool
  /-- R30, R384 DDR channels in use; 4 flags; true -/
  ddr : List Bool
  /-- R29 DDR data rate in MT/s; 6,400 or 8,800 at most; DESIGN CHOICE 6,400 until phase 3 (1) -/
  ddrRate : Nat
  /-- R29 GiB used on each channel; 16 to 128; DESIGN CHOICE 64 until phase 3 (1) -/
  ddrGib : Nat
  /-- R384 HOSTW; 0, 4, 8 or 16; 0 until the link trains (R463) -/
  hostWidth : Nat
  /-- R548 rate G of the host port in GT/s; 8 bits; DESIGN CHOICE 64 until the port trains (9) -/
  hostRate : Nat
  /-- R548 rate G in GT/s of the root port of each drive-side lane, 0 for a lane that is out; 24 rates; DESIGN CHOICE 64 each until the ports train (9) -/
  driveRates : List Nat
  /-- R459 halvings of host and drive links under the power cap; 0 to 2; 0 -/
  narrow : Nat
  /-- R384 DRIVEL; 0 to 24; 24 -/
  driveLanes : Nat
  /-- R474 retired lanes, 0-15 host, 16-39 drive, 40-55 reflect; list; empty -/
  lanesRetired : List Nat
  /-- R474 consecutive measurements below margin, by lane; list; empty -/
  eye : List (Nat × Nat)
  /-- R32, R384 fabric modules up; 3 flags; true -/
  fabric : List Bool
  /-- R384 junction temperature; 8 bits two's complement; DESIGN CHOICE 25 degrees until measured (1) -/
  temp : BitVec 8
  /-- R27, R28 spare nonvolatile units left; count; DESIGN CHOICE 1024 (1) -/
  nvSpare : Nat
  /-- R28 a unit failed with no spare unit left (0110h raised); 1 bit; false -/
  nvNone : Bool
  /-- R384 NVSPARE, spare units consumed; 32 bits; 0 -/
  nvUsed : Nat
  /-- R384 SRAMCE; 32 bits; 0 -/
  sramCe : Nat
  /-- R384 DDRCE; 32 bits; 0 -/
  ddrCe : Nat
  /-- R518 SAFE_LBIST; 48 bits; 0 -/
  lbistDone : Nat
  /-- R384 LBISTFAIL; 32 bits; 0 -/
  lbistFail : Nat
  /-- R518 SAFE_CHKDONE; 48 bits; 0 -/
  chkDone : Nat
  /-- R384 DRYDONE; 48 bits; 0 -/
  dryDone : Nat
  /-- R384 DRYMISMATCH; 32 bits; 0 -/
  dryMismatch : Nat
  /-- R381 consecutive failed dry takeovers, by holder; list; empty -/
  dryFails : List (Nat × Nat)
  /-- R518 SAFE_DCOUNT; 17 counters of 32 bits; 0 -/
  dcount : List Nat
  /-- R473 tick of the last ZQ calibration of each channel; 4 ticks; 0 -/
  zq : List Nat
  /-- R473 retrainings that failed in a row, by channel; 4 counts; 0 -/
  retrainFails : List Nat
  /-- R26 tick of the last whole SRAM patrol; 64 bits; 0 -/
  sramPatrol : Nat
  /-- R390 tick of the last NV verify pass; 64 bits; 0 -/
  nvVerify : Nat
  /-- R390 tick of the last DDR patrol; 64 bits; 0 -/
  ddrPatrol : Nat
  /-- R398 corrected errors of the last 2^22 ticks: (channel, tick, count); list; empty -/
  ddrErrs : List (Nat × Nat × Nat) := []
  /-- R35 ticks in a row without a fabric path to the lead die; count; 0 -/
  cut : Nat
  deriving DecidableEq, Repr

/-- An entry of the duplicate filter (R335). -/
structure FEntry where
  src : W16
  msgno : W32
  segno : Nat
  resp : Bool
  outcome : Nat
  value : W64
  at_ : Nat
  deriving DecidableEq, Repr

/-- A final segment in the reorder buffer (R338). -/
structure Held where
  seg : Seg
  at_ : Nat
  deriving DecidableEq, Repr

/-- An outstanding reflect message of an endpoint, or a response to one (R321, R333, R334). -/
structure Msg where
  die : Nat
  msgno : W32
  /-- the command it carries out; none for a response and for the system endpoint's messages -/
  cmd : Option CmdRef
  isResp : Bool
  op : Nat
  src : W16
  dst : W16
  segs : List Seg
  acked : List Nat
  /-- R334 tick of the first transmission, and retransmissions so far by segment -/
  first : Nat
  again : List (Nat × Nat)
  /-- R340 response bytes received so far, by segment -/
  resp : List (Nat × Bytes)
  respN : Nat
  /-- R333 the response needed has been applied -/
  answered : Bool
  result : W64
  deriving DecidableEq, Repr

/-- A block of a unit that the partner has mirrored here (R150, R159). -/
structure PeerBlk where
  /-- R159 volume; 16 bits; by arrival -/
  vol : Nat
  /-- R159 LBA; 48 bits; by arrival -/
  lba : Nat
  /-- R159 its data; 512 or 4,096 bytes; by arrival -/
  data : Bytes
  /-- R159 its protection information; 0, 8 or 16 bytes; by arrival -/
  pi : Bytes
  /-- R159 JSN of its UNIT COMMIT; 64 bits; by arrival -/
  jsn : Nat
  deriving DecidableEq, Repr

/-- A die's reflect endpoint engine. -/
structure DieRfl where
  /-- R321 message counter; 32 bits; DESIGN CHOICE 0 (1) -/
  msgno : W32
  /-- R335 duplicate filter; 131,072 entries; empty -/
  filter : List FEntry
  /-- R338 reorder buffer; 240 final segments; empty -/
  held : List Held
  /-- R323 protocol errors counted; count; 0 -/
  protoErr : Nat
  /-- R336 segments discarded with the filter full; count; 0 -/
  filterFull : Nat
  /-- R358 yield or rejoin record last written here; optional; none -/
  yrec : Option YRec
  /-- R358 heartbeat words, one a die index; 8 slots; DESIGN CHOICE zeros (1) -/
  hb : List HbSlot
  /-- R348 counters at key FFFCh; canonical bytes; DESIGN CHOICE zeros (5) -/
  counters : List Host.Cell
  /-- R159, R173, R348 mirror regions at key FFFDh; canonical bytes; DESIGN CHOICE zeros (5) -/
  mirror : List Host.Cell
  /-- R333 groups of segments applied in this tick, whose ACKs go out at its end, each by one of its segments; list; empty -/
  ackDue : List Seg := []
  /-- R159 segments of mirror messages that are not whole yet; list; empty -/
  parts : List Seg := []
  /-- R158, R173 live entries of the partner's die of the same index, as received; JSN order; empty -/
  peerLog : List JEntry := []
  /-- R150, R159 blocks of the partner's units whose UNIT COMMIT has been received; list; empty -/
  peerBlks : List PeerBlk := []
  /-- R317, R372 JSNs of the partner's entries received since the rejoin record; list; empty -/
  confirmed : List Nat := []
  /-- R321, R334, R348 outstanding messages of the system endpoint; list; empty -/
  sys : List Msg := []
  /-- R321 messages of the system endpoint that wait for the limits, oldest first; list; empty -/
  sysWait : List Msg := []
  /-- R158, R173 mirror copies of the journals of the dies whose pools this die shadows: (die, live entries); list; empty -/
  copies : List (Nat × List JEntry) := []
  deriving DecidableEq, Repr

/-- One die. -/
structure DieSt where
  /-- R36, R510 healthy; 1 bit; true -/
  healthy : Bool
  /-- R36, R386, R510 retired; 1 bit; false -/
  retired : Bool
  /-- R386 retired by DIE RETIRE, kept across resets; 1 bit; false -/
  keepRetired : Bool
  /-- R386 restore takes effect at the next reset; 1 bit; false -/
  restore : Bool
  /-- R384 ROLE bit 1, retirement in progress; 1 bit; false -/
  retiring : Bool
  /-- R357 cause of this die's yield; optional; none -/
  yielded : Option Nat
  /-- R354 die hold; 1 bit; low until start-up phase 7 (R536) -/
  hold : Bool
  /-- R354 consecutive ticks without a refresh; count; 0 -/
  unrefreshed : Nat
  /-- R160 the protected region's size was set by SET FEATURE; 1 bit; false (new package) -/
  protSet : Bool
  /-- R427 saved operating time, two units; optional multiples of 15,000,000; none (new package) -/
  saved : List (Option Nat)
  /-- R160 protected region in GiB; 1 GiB to 3/8 of the DDR; 1/4 of the die's DDR -/
  protGib : Nat
  /-- R179, R485 vault mode selected; 1 bit; false, hold mode -/
  vault : Bool
  /-- R183 vault namespaces; 0 to 4; empty -/
  vaultNs : List Nat
  /-- R183 hold-up time H in ticks; 32 bits; 0 -/
  holdUp : Nat
  /-- R184 measured write rate V, bytes a tick; count; 0 -/
  rateV : Nat
  /-- R190 measured read rate Vr, bytes a tick; count; 0 -/
  rateVr : Nat
  /-- R463 the port's link is up; 1 bit; false -/
  linkUp : Bool
  /-- R463, R467 the port's PERST_N level; 1 bit; low until deasserted -/
  perst : Bool
  hw : HwSt
  frame : FrameSt
  jr : JournalSt
  recd : RecorderSt
  evt : EvtSt
  link : LinkSt
  rfl : DieRfl
  deriving DecidableEq, Repr

/-- R92: ring states. -/
inductive RingState where
  | disabled | enabled | error | deleting | halted
  deriving DecidableEq, Repr

/-- The INVALIDATE register (R97). -/
structure InvReg where
  /-- R97 DISPATCHED; 32 bits; 0 -/
  dispatched : W32 := 0
  /-- R97 SEQ; 8 bits; 0 -/
  seq : BitVec 8 := 0
  /-- R97 VALID; 1 bit; 0 -/
  valid : Bool := false
  /-- R97 ERR; 1 bit; 0 -/
  err : Bool := false
  /-- R97 COUNT; 6 bits; 0 -/
  count : BitVec 6 := 0
  /-- R97 START; 16 bits; 0 -/
  start : W16 := 0
  deriving DecidableEq, Repr

/-- One MSI-X table entry that differs from its reset value (R524). -/
structure Msix where
  vec : Nat
  addr : W64
  data : W32
  masked : Bool
  deriving DecidableEq, Repr

/-- One XCH result window (R519). -/
structure XWin where
  window : Nat
  arg : W32 := 0
  seq : BitVec 8 := 0
  sel : W16 := 0
  query : Byte := 0
  status : W16 := 0
  valid : Bool := false
  data : Bytes := []
  deriving DecidableEq, Repr

/-- One function of a host port. -/
structure FnSt where
  /-- R505, R506 port (die) and function number; 3 and 6 bits; the physical functions -/
  die : Nat
  fn : Nat
  /-- R436 tenant the function is bound to; optional; none -/
  tenant : Option Nat := none
  /-- R78 SETUP_BASE.BASE; 64 bits; 0 -/
  setupBase : W64 := 0
  /-- R78 SETUP_CFG.SIZE; 4 bits; 0 -/
  setupSize : Nat := 0
  /-- R78 SETUP_CFG.VECTOR; 11 bits; 0 -/
  setupVector : Nat := 0
  /-- R78 SETUP_CFG.EN; 1 bit; 0 -/
  setupEn : Bool := false
  /-- R78 SETUP_CFG.ERR; 1 bit; 0 -/
  setupErr : Bool := false
  /-- R524 MSI-X table; entries not listed are at their reset value; PRESUMED masked, zero (PCIe, 6) -/
  msix : List Msix := []
  /-- R524 PBA; pending vectors; empty -/
  pba : List Nat := []
  /-- R519 XCH windows; 4 or 2 windows, those not listed hold 0; all 0 -/
  xch : List XWin := []
  deriving DecidableEq, Repr

/-- Where a command in flight stands. -/
inductive Stage where
  | table | planned | stalled | working | durable | waiting
  deriving DecidableEq, Repr

/-- The gathering of one block of a stripe from its members (R128, R131, R210). -/
structure Fetch where
  key : Nat
  lba : Nat
  stripe : Nat
  newGeom : Bool
  pos : Nat
  off : Nat
  cons : Bool
  good : List (Nat × Sector)
  bad : List Nat
  /-- R226 positions whose read is past 25 ms -/
  slow : List Nat := []
  deriving DecidableEq, Repr

/-- A configuration change that the partner is told of (R366, R478). -/
structure Told where
  /-- R478 RESULT that its command completes with; 64 bits; by the command -/
  result : W64
  /-- R478 the rest of what it completes with; up to 16 bytes; by the command -/
  extra : Bytes
  /-- R366 MSGNO of the message to the partner; optional; none until the tick ends -/
  msg : Option W32
  deriving DecidableEq, Repr

/-- A command in flight (R44, R92): the entry, what it was allowed, and how far it has come. -/
structure Cmd where
  /-- R152 die, ring and index of the entry; 3, 9 and 16 bits; by dispatch -/
  ref : CmdRef
  /-- R108 opcode; 62 opcodes; by dispatch -/
  op : Op
  /-- R82 the entry as dispatched; 64 bytes; by dispatch -/
  entry : Entry
  /-- R95 input bytes of the buffer; bytes; by dispatch -/
  buf : Bytes
  /-- R96 the host read of its buffer fails; 1 bit; by dispatch -/
  bufErr : Bool := false
  /-- R95 fragment table once judged; list; empty -/
  frags : List Frag := []
  /-- R76 function of the ring; 6 bits; by dispatch -/
  fn : Nat
  /-- R439 binding under which the command passed its checks; optional; by dispatch -/
  tenant : Option Nat
  /-- R51 class the command runs at; 2 bits; by dispatch -/
  cls : Nat
  /-- R57 doorbell tick; 64 bits; by dispatch -/
  bell : Nat
  /-- R138 tick of dispatch; 64 bits; by dispatch -/
  at_ : Nat
  /-- R142 to R156 how far the command has come; 6 stages; by dispatch -/
  stage : Stage
  /-- R141 admission sequence number; count; by admission -/
  seq : Nat := 0
  /-- R143 still in the clamp table; 1 bit; false -/
  clamp : Bool := false
  /-- R61 lent class 0; 1 bit; false -/
  lent : Bool := false
  /-- R64 a deadline was missed or the command was held in a kerf; 1 bit; false -/
  late : Bool := false
  /-- R152 past the point of no return; 1 bit; false -/
  past : Bool := false
  /-- R146 atomic units already protected; count; 0 -/
  units : Nat := 0
  /-- R128 blocks ready for the host: (LBA, data, protection information); list; empty -/
  ready : List (Nat × Bytes × Bytes) := []
  /-- R128, R131 blocks still being fetched; list; empty -/
  fetches : List Fetch := []
  /-- R136 blocks that needed reconstruction; count; 0 -/
  recon : Nat := 0
  /-- R130 data error found at lowest LBA: (LBA, status); optional; none -/
  err : Option (Nat × W16) := none
  /-- R129, R138, R139 blocks whose destage the command waits for: (volume, LBA, JSN of the content); list; empty -/
  wait : List (Nat × Nat × Nat) := []
  /-- R140 first offline volume in a FLUSH's scope; optional; none -/
  offline : Option Nat := none
  /-- R488, R251 member commands the command waits for; list of ids; empty -/
  mwait : List Nat := []
  /-- What a waiting control command does when its wait ends (RESULT or a number it names); count; 0 -/
  aux : Nat := 0
  /-- R33, R41 dies its forwarded entry passes, from the ring's die to the home die; list; empty -/
  route : List Nat := []
  /-- R48 tick in which it was sent over the fabric to its home die; optional; none -/
  sent : Option Nat := none
  /-- R48, R222 tick in which the latest of its member reads completed; optional; none -/
  memAt : Option Nat := none
  /-- R63 tick of its admission at the clamp stage; optional; none -/
  adm : Option Nat := none
  /-- R58 on the member path; 1 bit; false -/
  mem : Bool := false
  /-- R58, R63 tick in which the latest of its member commands was handed to its member; optional; none -/
  handed : Option Nat := none
  /-- R58, R63 tick in which the latest of its member commands completed; optional; none -/
  lastMem : Option Nat := none
  /-- R59, R60, R62 ticks by which its bounds are longer; count; 0 -/
  ext : Nat := 0
  /-- R65 a slow host read, a kerf or a power-state change touched it; 1 bit; false -/
  outside : Bool := false
  /-- R63 rows of the deadline table already missed; list; empty -/
  missed : List Nat := []
  /-- R61 tenant whose urgent command caused the lending; optional; none -/
  lentBy : Option Nat := none
  /-- R62 blocking bound of the chain that it stalled behind, in ticks; count; 0 -/
  block : Nat := 0
  /-- R58 earliest tick in which the destages of its stripes that were in progress at its admission can have committed; optional;
  none -/
  base : Option Nat := none
  /-- R58 destages of its stripes in progress at its admission; list of ids; empty -/
  earlier : List Nat := []
  /-- R131, R132 stripes of its range that failed their check: (geometry, stripe); list; empty -/
  failed : List (Bool × Nat) := []
  /-- R156 mirroring of its next unit: JSN of the UNIT COMMIT, message to the partner, tick sent; optional; none -/
  unitOut : Option (Nat × Option W32 × Nat) := none
  /-- R366, R478 the configuration change it has made, which the partner has not acknowledged; optional; none -/
  told : Option Told := none
  /-- R295 JSN of the last TILE STATE entry that a DEALLOCATE waits for; optional; none -/
  tileJsn : Option Nat := none
  deriving DecidableEq, Repr

/-- What a completion says beside its status (R85). -/
structure Res where
  result : W64 := 0
  ndone : Nat := 0
  part : Bool := false
  retry : Bool := false
  extra : Bytes := []
  deriving DecidableEq, Repr

/-- R48: the completion of a forwarded command as it crosses the fabric. -/
structure Back where
  /-- R85 the command as its home die ended it; by completion -/
  cmd : Cmd
  /-- R85 STATUS; 16 bits; by completion -/
  status : W16
  /-- R85 what the record says beside it; by completion -/
  res : Res
  /-- R48 tick in which it was sent; 64 bits; by completion -/
  at_ : Nat
  deriving DecidableEq, Repr

/-- A work or notification ring (R76 to R107). -/
structure Ring where
  /-- R76 die and local index; 3 and 9 bits; by creation -/
  die : Nat
  idx : Nat
  /-- R92 OWNER; 6 bits; by creation -/
  fn : Nat
  /-- R77 window of the owning function; 0 to 511; by creation -/
  window : Nat
  /-- R92 TYPE; 1 bit; by creation -/
  notif : Bool
  /-- R78 setup ring; 1 bit; by creation -/
  setup : Bool
  /-- R51, R92 CLASS; 2 bits; by creation -/
  cls : Nat
  /-- R80 weight; 1 to 255; by creation -/
  weight : Nat
  /-- R80 burst; 1 to 64; by creation -/
  burst : Nat
  /-- R76 entries S; 16 to 65,536; by creation -/
  size : Nat
  /-- R76 base address; 64 bits; by creation -/
  base : W64
  /-- R80 MSI-X vector; 11 bits; by creation -/
  vector : Nat
  /-- R436 tenant the ring is bound to; optional; by creation -/
  tenant : Option Nat
  /-- R92 STATE; 5 states; by creation -/
  state : RingState
  /-- R91 head as l * S + x; below 2S; 0 -/
  head : Nat := 0
  /-- R91 tail as l * S + x; below 2S; 0 -/
  tail : Nat := 0
  /-- R98 entries dispatched since creation; count; 0 -/
  served : Nat := 0
  /-- R92 doorbell ticks of the posted, undispatched entries, head first; list; empty -/
  bells : List Nat := []
  /-- R98 INVHOLD and the lowest evicted position; optional; none -/
  hold : Option Nat := none
  /-- R98 the INVALIDATE register; 64 bits; 0 -/
  inv : InvReg := {}
  /-- R93 push window, 4 slots of 64 bytes as byte offsets and values; all 0 -/
  slots : List (Nat × Byte) := []
  /-- R93, R94 captured pushed copies by index: 64 bytes each; at most 32 with the prefetched ones; empty -/
  pushed : List (Nat × Bytes) := []
  /-- R97 indices with a prefetched copy; at most 32 with the pushed ones; empty -/
  fetched : List Nat := []
  /-- R98 INVALIDATE writes not processed yet, in arrival order: START, COUNT, SEQ; list; empty -/
  invs : List (Nat × Nat × Nat) := []
  /-- R92 OVF; 1 bit; 0 -/
  ovf : Bool := false
  /-- R102 notes written and not consumed; up to S; 0 -/
  notes : Nat := 0
  /-- R81 command waiting for the deletion to end; list; empty -/
  deleters : List CmdRef := []
  /-- R100 weight and burst in force from the class's next round; optional; none -/
  nextWeight : Option (Nat × Nat) := none
  /-- R60, R63 ticks by which a kerf of the whole package or a power-state change has made the bounds of each posted, undispatched
  entry longer, head first; list; empty -/
  exts : List Nat := []
  /-- R100, R441 bytes cost of posted entries as intake has read them: (index, bytes); list; empty -/
  costs : List (Nat × Nat) := []
  /-- R48 completions of forwarded commands on their way back from the home die; list; empty -/
  backs : List Back := []
  deriving DecidableEq, Repr

/-- One cached block (R128, R156 to R167), as ciphertext on an encrypted volume. -/
structure CBlk where
  /-- R128 volume and LBA; 12 and 64 bits; by insertion -/
  vol : Nat
  lba : Nat
  /-- R156 the block's data, ciphertext on an encrypted volume; B bytes; by insertion -/
  data : Bytes
  /-- R127 the block's protection information; P bytes; by insertion -/
  pi : Bytes
  /-- R128 dirty or clean; 1 bit; by insertion -/
  dirty : Bool
  /-- R157 a mirror copy exists; 1 bit; by insertion -/
  mirrored : Bool
  /-- R311, R363 the mirror copy is on the shadow die; 1 bit; by insertion -/
  onShadow : Bool := false
  /-- R363 partner die whose mirror region alone holds it since a shadow takeover; optional; none -/
  remote : Option Nat := none
  /-- R363 MSGNO of the READ that was sent for it; optional; none -/
  asked : Option W32 := none
  /-- R170 JSN of its UNIT COMMIT; 64 bits; 0 for a clean block -/
  jsn : Nat
  /-- R163 tick in which it became protected; 64 bits; by insertion -/
  since : Nat
  /-- R160 tick of its last use; 64 bits; by insertion -/
  used : Nat
  /-- R138 the command that wrote it; optional; none for a read copy -/
  writer : Option CmdRef := none
  /-- R138 tick of the earliest completion record of a write of the block that FLUSH may cover; optional; none -/
  acked : Option Nat := none
  /-- R139 acknowledged contents that the members do not hold yet: (tick of the record, JSN), oldest first; list; empty -/
  acks : List (Nat × Nat) := []
  /-- R167, R188 contents that destages in progress have snapshotted: (JSN of the intent, JSN, data, protection
  information); list; empty -/
  staged : List (Nat × Nat × Bytes × Bytes) := []
  /-- R276 the layout (new or not) that already holds its data, in a veneer; optional; none -/
  half : Option Bool := none
  /-- R129 drop the clean copy after destage; 1 bit; false -/
  drop : Bool := false
  /-- R271 pinned by a mitre step; 1 bit; false -/
  pinned : Bool := false
  /-- R157, R372 MSGNO of the message that mirrors it anew to the partner; optional; none -/
  copyMsg : Option W32 := none
  /-- R317 the partner keeps the copy that it had before the separation; 1 bit; false -/
  kept : Bool := false
  /-- R386 an extra mirror copy is on the shadow die of the pool, whose home die retires; 1 bit; false -/
  extra : Bool := false
  deriving DecidableEq, Repr

/-- What a member command serves. -/
inductive Purpose where
  | fetch (c : CmdRef) (key : Nat) (pos : Nat)
  | destage (id : Nat) (pos off : Nat)
  | repair (new : Bool) (stripe pos off : Nat)
  /-- Format NVM to a data size, with or without end-to-end protection (R216, R217) -/
  | format (c : CmdRef) (b : Nat) (prot : Bool)
  /-- Dataset Management with its ranges: first block and count (R134) -/
  | dealloc (ranges : List (Nat × Nat))
  /-- Reservation Acquire with Preempt and Abort of one key (R367) -/
  | preempt (key : W64)
  /-- a write of background work to a stripe: rebuild, copy-back, scrub, a reshape (R226, R236) -/
  | work (new : Bool) (stripe : Nat)
  /-- a copy of a spill segment (R174, R226) -/
  | spill
  /-- a read whose command needs it no longer, or a write of which one attempt has succeeded (R226: every attempt is still
  watched) -/
  | spent
  deriving DecidableEq, Repr

/-- An outstanding member command (R220, R226). -/
structure MCmd where
  /-- R226 number of the command; count; by submission -/
  id : Nat
  /-- R220 namespace it goes to; count; by submission -/
  ns : Nat
  /-- R229 pool and member index, when it goes to a member; optional; by submission -/
  pool : Option Nat
  member : Nat
  /-- R223 path that carries it, its die index + 8 × the order of its controller on the die; count; by submission -/
  path : Nat
  /-- R220 write or read; 1 bit; by submission -/
  isWrite : Bool
  /-- R201 member LBA; 64 bits; by submission -/
  lba : Nat
  /-- R212 sectors written; list; by submission -/
  data : List Sector
  /-- What the command serves; 9 purposes; by submission -/
  purpose : Purpose
  /-- R226 tick of first submission; 64 bits; by submission -/
  at_ : Nat
  /-- R226 attempts so far; count; 1 -/
  tries : Nat := 1
  /-- R166, R220 the NVMe FUA bit, set on every write; 1 bit; by submission -/
  fua : Bool := isWrite
  /-- R228 cause 04h: paths on which the write failed; count; 0 -/
  fails : Nat := 0
  /-- R226 attempts that have neither completed nor been confirmed aborted; count; 1 -/
  left : Nat := 1
  /-- R226 held back until the attempts of an earlier write to the same blocks are over; 1 bit; false -/
  waits : Bool := false
  /-- R48, R226 tick of the completion that made its next attempt, which goes out in a later tick; optional; none -/
  redo : Option Nat := none
  /-- R222 its data is described with SGLs, not with PRPs; 1 bit; by its path -/
  sgl : Bool := false
  deriving DecidableEq, Repr

/-- A destage in progress (R163 to R168). -/
structure Destage where
  /-- model's number of the destage; count; by start -/
  id : Nat
  /-- R166 pool, geometry and stripe; 8, 1 and 48 bits; by start -/
  pool : Nat
  newGeom : Bool
  stripe : Nat
  /-- R166 JSN of its STRIPE INTENT and the new generation; 64 and 32 bits; by start -/
  jsn : Nat
  gen : W32
  /-- R164, R170 METHOD; 0 to 4; by start -/
  method : Nat
  /-- R165 reconstruct-write over every surviving strip; 1 bit; false -/
  recon : Bool
  /-- R187, R188 the repair of an open intent; 1 bit; false -/
  repair : Bool
  /-- R164 extent: first offset and count; by start -/
  first : Nat
  count : Nat
  /-- R167 the blocks snapshotted, with data index and offset; list; by start -/
  snap : List (CBlk × Nat × Nat)
  /-- R165 positions not written; list; by start -/
  absent : List Nat
  /-- R166 step 2 still runs; 1 bit; by start -/
  reading : Bool
  /-- R164 sectors read: (position, offset, sector); list; empty -/
  got : List (Nat × Nat × Sector)
  /-- R165 sectors that cannot be read: (position, offset); list; empty -/
  bad : List (Nat × Nat)
  /-- R164 sectors asked for: (position, offset); list; empty -/
  asked : List (Nat × Nat)
  /-- R168 class; 2 bits; 1 -/
  cls : Nat
  /-- R58, R63 tick in which the latest of its reads completed; optional; none -/
  readEnd : Option Nat := none
  /-- R226, R227 sectors that are slow, not faulty: (position, offset); list; empty -/
  slow : List (Nat × Nat) := []
  deriving DecidableEq, Repr

/-- Layout parameters of one geometry (R192, R193). -/
structure Geom where
  n : Nat
  k : Nat
  m : Nat
  s : Nat
  /-- log2 of the strip size in bytes -/
  strip : Nat
  /-- member block of 4,096 data bytes rather than 512 -/
  big : Bool
  seed : W64
  uid : W64
  z : Nat
  deriving DecidableEq, Repr

/-- R230, R261: member states. -/
inductive MState where
  | online | suspect | draining | failed | replacing
  deriving DecidableEq, Repr

/-- One member index of a pool. -/
structure Member where
  /-- R230 state; 5 states; ONLINE at creation -/
  state : MState
  /-- R480 its namespace; count; by creation -/
  ns : Nat
  /-- R228 failure cause; 8 bits; 0 -/
  cause : Nat := 0
  /-- R203 spare slot; optional; none -/
  slot : Option Nat := none
  /-- R203, R229 tick in which it failed, until the guard period gives out its slot; optional; none -/
  failTick : Option Nat := none
  /-- R497 RETRIES; 32 bits; 0 -/
  retries : Nat := 0
  /-- R497 REPAIRS; 32 bits; 0 -/
  repairs : Nat := 0
  deriving DecidableEq, Repr

/-- A range of the lost block list (R247). -/
structure Lost where
  vol : Nat
  lba : Nat
  count : Nat
  deriving DecidableEq, Repr

/-- A reshape plan (R262, R263). -/
structure Plan where
  num : Nat
  geom : Geom
  remove : List Nat
  mitre : Bool
  down : Bool
  ot : Nat
  nt : Nat
  oldCap : Nat
  newCap : Nat
  highest : Nat
  steps : Nat
  need : Nat
  avail : Nat
  copyBytes : Nat
  copyLimit : Nat
  stepTicks : Nat
  moveBytes : Nat
  deriving DecidableEq, Repr

/-- A reshape in progress (R264 to R284). -/
structure Reshape where
  plan : Plan
  /-- R264 geometry UID -/
  uid : W64
  /-- R269 namespaces of the new member list, in new index order -/
  newNs : List Nat
  /-- R269, R270 mitre line and end; R269 direction at start; R281 current direction and target -/
  beta : Nat
  endAt : Nat
  startBeta : Nat
  startDown : Bool
  down : Bool
  undo : Bool
  skipped : Nat
  /-- R278 pause reasons in force, 0 to 3 -/
  reasons : List Nat
  /-- R274 new extent tables: (volume, tiles) -/
  tables : List (Nat × List Nat)
  /-- R275 new tiles built -/
  built : List Nat
  /-- R281 a cancel has taken effect; 1 bit; false -/
  cancelling : Bool
  /-- R281 the commands that complete at its end; list; empty -/
  cancellers : List CmdRef
  /-- R280 a pause asked for during a step, which takes effect at its end; 1 bit; false -/
  pauseAsked : Bool := false
  /-- R281 a cancel asked for during a step, which takes effect at its end; optional; none -/
  cancelAsked : Option CmdRef := none
  /-- R275 the new tile whose build has its writes out; optional; none -/
  building : Option Nat := none
  deriving DecidableEq, Repr

/-- The lock of a mitre step (R271, R272). -/
structure StepLock where
  /-- R271 the step's range of pool data blocks: first, and the one after the last -/
  lo : Nat
  hi : Nat
  /-- R271 the tick of its lock, and once it has committed that of its commit -/
  since : Nat
  /-- R272 class of its member writes; 2 bits -/
  cls : Nat
  /-- R271 target tile; 44 bits; by the step -/
  tile : Nat
  /-- R271 the target is in the new geometry; 1 bit; by the step -/
  new : Bool
  /-- R271 JSN of its STRIPE INTENT; 64 bits; by the step -/
  jsn : Nat
  /-- R271 its member writes have gone out; 1 bit; false -/
  written : Bool := false
  /-- R271 it has committed; 1 bit; false -/
  done : Bool := false
  /-- R309 ticks by which firmware activation lengthens it; count; 0 -/
  hold : Nat := 0
  deriving DecidableEq, Repr

/-- A pool's scrub (R256, R257). -/
structure ScrubSt where
  /-- R256 scrub on; 1 bit; true at creation -/
  on : Bool
  /-- R256 period in ticks; 64 bits; 151,200,000,000 at creation -/
  period : Nat
  /-- R496 a pass is running; 1 bit; false -/
  running : Bool
  /-- R256 start of the latest pass; tick; creation tick -/
  started : Nat
  /-- R257 PASS; 64 bits; 0 -/
  pass : Nat
  /-- R257 next tile of the pass; count; 0 -/
  tile : Nat
  /-- R257 MISMATCH; 64 bits; 0 -/
  mismatch : Nat
  /-- R257 REPAIRED; 64 bits; 0 -/
  repaired : Nat
  /-- R496 PASSEND; 48 bits; 0 -/
  ended : Nat
  /-- R256 the period has elapsed during the pass (3122h raised); 1 bit; false -/
  behind : Bool
  deriving DecidableEq, Repr

/-- R242: a sweep record. -/
structure Sweep where
  /-- R242 the set of work at its start: (new geometry, member index, tile); list; by start -/
  work : List (Bool × Nat × Nat)
  /-- R242 the holder assignments: (new geometry, member index, spare slot); list; by start -/
  holders : List (Bool × Nat × Nat)
  /-- R242 class of its stop point; 8 bits; by start -/
  cls : Nat
  /-- R242 tile of its stop point; 64 bits; by start -/
  stop : Nat
  /-- R242, R308 its sweep number; 16 bits; by start -/
  num : Nat := 0
  deriving DecidableEq, Repr

/-- A tile of a pool's rebuild or copy-back whose writes are out (R236, R252). -/
structure TileJob where
  /-- R231 new geometry; 1 bit; by the tile -/
  new : Bool
  /-- R231 tile; 44 bits; by the tile -/
  tile : Nat
  /-- R252 member index that a copy-back writes to; none for a rebuild; optional; by the tile -/
  copy : Option Nat
  /-- R231 the members whose work a rebuild does: (index, onto the member itself); list; by the tile -/
  work : List (Nat × Bool)
  /-- R238 those of them of whose strips a holder has failed since; list; empty -/
  again : List Nat := []
  deriving DecidableEq, Repr

/-- A pool's rebuild (R233 to R244). -/
structure RebuildSt where
  /-- R496 REBUILD running; 1 bit; false -/
  running : Bool := false
  /-- R243 paused; 1 bit; false -/
  paused : Bool := false
  /-- R242 sweep number; 16 bits; 0 -/
  sweep : Nat := 0
  /-- R242 sweep records since the pool last had no work, the running sweep's last; at most 64; empty -/
  records : List Sweep := []
  /-- R234 class being visited; 8 bits; 0 -/
  cls : Nat := 0
  /-- R235 stop tile; 64 bits; 0 -/
  stop : Nat := 0
  /-- R238 a member failed during the sweep; 1 bit; false -/
  resort : Bool := false
  /-- R231 work done: (new geometry, member index, tile); list; empty -/
  done : List (Bool × Nat × Nat) := []
  /-- R252, R233 tiles on a replacement: (new geometry, member index, tile); list; empty -/
  copied : List (Bool × Nat × Nat) := []
  /-- R238 work that was done and is to be done again where its holder has changed; list; empty -/
  redo : List (Bool × Nat × Nat) := []
  /-- R235, R238 tiles in flight: (new geometry, tile); list; empty -/
  flight : List (Bool × Nat) := []
  /-- R236, R252 tiles whose writes are out; list; empty -/
  jobs : List TileJob := []
  /-- R235 tiles finished beyond the stop point: (class, new geometry, tile); list; empty -/
  beyond : List (Nat × Bool × Nat) := []
  /-- R244 a broken or umbra stripe with work is left; 1 bit; false -/
  umbra : Bool := false
  deriving DecidableEq, Repr

/-- A pool (R6, R192). -/
structure Pool where
  /-- R488 number; 8 bits; by creation -/
  num : Nat
  /-- R6 home die; 3 bits; by creation -/
  home : Nat
  /-- R6, R364 shadow die; optional; by creation -/
  shadow : Option Nat
  /-- R192 geometry; by creation -/
  geom : Geom
  /-- R163 age limit; 16 bits; by creation -/
  age : Nat
  /-- R250 offline cause; optional; none -/
  offline : Option Nat := none
  /-- R378, R379 held by the partner; 1 bit; false -/
  away : Bool := false
  /-- R383 taken over from the partner; 1 bit; false -/
  taken : Bool := false
  /-- R192 members by index; n entries; by creation -/
  members : List Member
  /-- R261 pending members, in order of attachment; list; empty -/
  pending : List Member := []
  /-- R218 LABELGEN; 32 bits; 1 -/
  labelGen : Nat := 1
  /-- R247 lost block list, sorted; at most 65,536 ranges; empty -/
  lost : List Lost := []
  /-- R247 LISTGEN of the last copy written; 64 bits; 0 -/
  listGen : Nat := 0
  /-- R247 a change is not yet written to the members; 1 bit; false -/
  listDirty : Bool := false
  /-- R166 write generations that are not 0: (new geometry, stripe, generation); list; empty -/
  gens : List (Bool × Nat × W32) := []
  /-- R163 stripes queued for destage; list; empty -/
  queued : List Nat := []
  rebuild : RebuildSt := {}
  scrub : ScrubSt
  /-- R262 plan not yet started; optional; none -/
  plan : Option Plan := none
  /-- R264 reshape in progress; optional; none -/
  reshape : Option Reshape := none
  /-- R271, R272 lock of the mitre step that has committed last; optional; none -/
  lock : Option StepLock := none
  /-- R386 migration to the shadow complete; 1 bit; false -/
  migrated : Bool := false
  deriving DecidableEq, Repr

/-- A volume (R9, R483, R491). -/
structure Vol where
  /-- R491 number; 12 bits; by creation -/
  num : Nat
  /-- R9 pool; 8 bits; by creation -/
  pool : Nat
  /-- R435 owner; optional; by creation -/
  tenant : Option Nat
  /-- R491 ENC; 1 bit; by creation -/
  enc : Bool
  /-- R491 DZ; 1 bit; by creation -/
  dz : Bool
  /-- R292, R491 WT; 1 bit; by creation -/
  wt : Bool
  /-- R491 PIF; 2 bits; by creation -/
  pif : Nat
  /-- R491 PITYPE; 2 bits; by creation -/
  pitype : Nat
  /-- R491 BSIZE 4,096 bytes; 1 bit; by creation -/
  big : Bool
  /-- R9 exposed blocks; 64 bits; by creation -/
  blocks : Nat
  /-- R265 extent unit; 64 bits; by creation -/
  x : Nat
  /-- R200, R265 extent table, first pool data block of each unit divided by X; list; by creation -/
  extents : List Nat
  /-- R135 units that read as zeros: never written or marked deallocated; list of indexes; all at creation -/
  zero : List Nat
  /-- R135 units whose zero-fill has started and not ended; list of indexes; empty -/
  filling : List Nat := []
  /-- R134, R147 blocks of units that a DEALLOCATE has protected in tiles it has not marked yet, and that read as zeros:
  (LBA, count); list; empty -/
  cleared : List (Nat × Nat) := []
  /-- R138 blocks that write-kind commands with a completion record have written: (LBA, count); list; empty -/
  written : List (Nat × Nat) := []
  /-- R492 the DELETE VOLUME in progress; optional; none -/
  deleting : Option CmdRef := none
  deriving DecidableEq, Repr

/-- A namespace the device has found (R217, R480, R483). -/
structure Ns where
  /-- model's number of the namespace; count; by appearance -/
  id : Nat
  /-- R217, R480 what it reports; by appearance -/
  info : NsInfo
  /-- R223 up paths, each its die index + 8 × the order of its controller on the die; list; by appearance -/
  up : List Nat
  /-- R224 reservation registered and held; 1 bit; false -/
  reserved : Bool := false
  /-- R225 latest critical warning byte; 8 bits; 0 -/
  warn : BitVec 8 := 0
  deriving DecidableEq, Repr

/-- The metering counters of R449. -/
structure Meters where
  bytesR : Nat := 0
  bytesW : Nat := 0
  cmds : List Nat := [0, 0, 0, 0]
  urgTicks : Nat := 0
  urgOvr : Nat := 0
  blockMin : Nat := 0
  late : Nat := 0
  deriving DecidableEq, Repr

/-- The values of SET TENANT QOS (R440). -/
structure Qos where
  maxClass : Nat := 2
  opsRate : Nat := 0
  opsBurst : Nat := 64
  byteRate : Nat := 0
  byteBurst : Nat := 1024
  crDefault : Bool := false
  deriving DecidableEq, Repr

/-- A tenant (R434). -/
structure Tenant where
  /-- R434 number; 10 bits; by creation -/
  num : Nat
  /-- R440 class and caps in force; R440 reset values -/
  qos : Qos := {}
  /-- R440 values in force from the next tick boundary; optional; none -/
  qosNext : Option Qos := none
  /-- R447 key loaded in the slots; optional 64 bytes; none -/
  key : Option Bytes := none
  /-- R446 stored wrapped key; optional 72 bytes; none -/
  wrapped : Option Bytes := none
  /-- R448 erasure marks still to be applied; 1 bit; false -/
  erasing : Bool := false
  /-- R449 counters; 64 bits each; 0 -/
  meters : Meters := {}
  deriving DecidableEq, Repr

/-- A tenant's token buckets on a die (R441, R442). -/
structure Bucket where
  die : Nat
  tenant : Nat
  /-- R441 operations in units of 1/1,024 command; signed; full -/
  ops : Int
  /-- R441 bytes; signed; full -/
  bytes : Int
  /-- R442 this die's share of the rates and bursts -/
  opsRate : Nat
  byteRate : Nat
  opsBurst : Nat
  byteBurst : Nat
  /-- R442 cost dispatched and waited for in the current 256 ticks -/
  cost : Nat
  deriving DecidableEq, Repr

/-- An open host endpoint (R319). -/
structure Ep where
  die : Nat
  ep : Nat
  fn : Nat
  tenant : Option Nat
  vector : Nat
  /-- R501 ENDPOINT STATUS is closing it; 1 bit; false -/
  closing : Bool := false
  deriving DecidableEq, Repr

/-- A queue pair (R320, R347). -/
structure Qp where
  die : Nat
  loc : W16
  rem : W16
  error : Bool
  deriving DecidableEq, Repr

/-- A registered region (R344). -/
structure Region where
  die : Nat
  ep : Nat
  key : Nat
  gen : Nat
  /-- host address, or none for device DDR -/
  host : Option W64
  len : Nat
  canRead : Bool
  canWrite : Bool
  canAtomic : Bool
  revoking : Bool
  /-- R346 tick in which the revocation was dispatched: the region is REVOKING from the next one on; 64 bits; 0 -/
  revokedAt : Nat := 0
  /-- R346 the count of segments that passed had reached zero by the end of a tick; 1 bit; false -/
  drained : Bool := false
  /-- R346 commands that wait for the revocation -/
  waiters : List CmdRef
  /-- DDR contents, canonical (assumption 5) -/
  mem : List Host.Cell
  /-- R398 an uncorrectable DDR error lies in the region; 1 bit; false -/
  bad : Bool := false
  deriving DecidableEq, Repr

/-- An exchange window (R350). -/
structure Exch where
  die : Nat
  reader : W16
  writer : W16
  /-- R350 ARRIVALS -/
  arrivals : W64
  /-- DDR contents, canonical (assumption 5) -/
  mem : List Host.Cell
  /-- R398 an uncorrectable DDR error lies in the window; 1 bit; false -/
  bad : Bool := false
  deriving DecidableEq, Repr

/-- Reflect endpoints, pairs, regions and messages. -/
structure ReflSt where
  /-- R319 open host endpoints; 63 a die; empty -/
  eps : List Ep
  /-- R320 queue pairs of host endpoints; 256 a die; empty -/
  qps : List Qp
  /-- R344 regions; 1,024 a die; empty -/
  regions : List Region
  /-- R344 generation and time freed of key numbers used before: (die, key, generation, order); list; empty -/
  keys : List (Nat × Nat × Nat × Nat)
  /-- R350 exchange windows; 256 a die; empty -/
  wins : List Exch
  /-- R321 outstanding messages; 4,096 a die; empty -/
  msgs : List Msg
  deriving DecidableEq, Repr

/-- R365: pair states. -/
inductive PairState where
  | paired | separated | survivor | halted
  deriving DecidableEq, Repr

/-- The pair, the hold wires and the witness. -/
structure PairSt where
  /-- R287, R365 pair state; 4 states; survivor (R287, not in a pair) -/
  state : PairState
  /-- R356, R354 the package has yielded; 1 bit; false -/
  yielded : Bool
  /-- R354, R536 HOLD_OUT may rise (start-up phase 7 reached); 1 bit; false -/
  armed : Bool
  /-- R369, R536 HOLD_IN as sampled; 1 bit; low (R536, pull-down) -/
  holdIn : Bool
  /-- R359 partner heartbeat OK; 1 bit; false -/
  hbOk : Bool
  /-- R369 tick in which the partner heartbeat became lost; optional; none -/
  lostAt : Option Nat
  /-- R361 dies of the own package whose heartbeat is lost; list; empty -/
  lostOwn : List Nat
  /-- R359 a package-scope yield record arrived; 1 bit; false -/
  yieldSeen : Bool
  /-- R363 partner dies whose heartbeat is lost; list; empty -/
  lostDies : List Nat
  /-- R370 ticks in a row in which HOLD_IN differs from AUX.HOLD; count; 0 -/
  wireDiff : Nat
  /-- R370 ticks in a row in which they agree; count; 0 -/
  wireAgree : Nat
  /-- R370 hold-wire fault; 1 bit; 0 -/
  wireFault : Bool
  /-- R377 witness namespace; optional; none -/
  witness : Option Nat
  /-- R375 witness reservation held; 1 bit; 0 -/
  witnessHeld : Bool
  /-- R377 witness slow; 1 bit; 0 -/
  witnessSlow : Bool
  /-- R383 WITNESSLAT; 32 bits; 0 -/
  witnessLat : Nat
  /-- R375 a witness contest is under way since this fault tick; optional; none -/
  contest : Option Nat
  /-- R375 the acquire has been issued; 1 bit; false -/
  acquiring : Bool
  /-- R377 a takeover awaits the host; 1 bit; false -/
  awaiting : Bool
  /-- R373 segments of the partner's endpoints are refused; 1 bit; false -/
  shut : Bool
  /-- R380 separation forced by PARTNER CONTROL; 1 bit; false -/
  forced : Bool
  /-- R352, R380 the PARTNER CONTROL that hands pools back; optional; none -/
  handing : Option CmdRef := none
  /-- R380 the PARTNER CONTROL that hands the package's pools over; optional; none -/
  leaving : Option CmdRef := none
  /-- R372 consecutive ticks with the heartbeat OK; count; 0 -/
  okTicks : Nat
  /-- R372 own rejoin tick; optional; none -/
  rejoinAt : Option Nat
  /-- R372 MSGNO of the rejoin record not yet acknowledged; optional; none -/
  rejoinMsg : Option W32
  /-- R383 PAIRSINCE; 48 bits; 0 -/
  since : Nat
  /-- R383 LASTHB; 48 bits; 0 -/
  lastHb : Nat
  /-- R383 HBMISS; 32 bits; 0 -/
  hbMiss : Nat
  /-- R383 REJOINS; 32 bits; 0 -/
  rejoins : Nat
  /-- R383 TAKEOVERS; 32 bits; 0 -/
  takeovers : Nat
  /-- R352, R518 SAFE_KERF.KERFS; 32 bits; 0 -/
  kerfs : Nat
  /-- R518 LASTKERF; 32 bits; 0 -/
  lastKerf : Nat
  /-- R518 LONGKERF; 32 bits; 0 -/
  longKerf : Nat
  /-- R352 kerf in progress: fault tick; optional; none -/
  kerf : Option Nat
  /-- R352 bounds of the faults of the kerf in progress, added up, in ticks; count; 0 -/
  kerfMax : Nat
  /-- R60, R352 pools that the kerf in progress affects; list; empty -/
  kerfPools : List Nat
  /-- R60, R63 kerfs that have ended for some pools since the oldest posted entry's doorbell: pools, tick of the end, ticks; list;
  empty -/
  kerfLog : List (List Nat × Nat × Nat)
  /-- R383 PARTNERSN; 20 bytes; zeros (R383, not named is 0) -/
  partnerSn : Bytes
  /-- R160, R161 sizes of the partner's protected regions in GiB, by die index; list; empty (not in a pair) -/
  partnerProt : List Nat := []
  /-- R311 the partner is in P3; 1 bit; false -/
  partnerP3 : Bool := false
  deriving DecidableEq, Repr

/-- A power-state change asked for or in progress (R456, R457). -/
structure PChange where
  target : Nat
  cap : Nat
  asked : Nat
  started : Option Nat
  cmd : Option CmdRef
  deriving DecidableEq, Repr

/-- Power states, cap and thermal state. -/
structure PowerSt where
  /-- R455, R512 PSTATE; 2 bits; 0 (P0) -/
  pstate : Nat
  /-- R455, R512 OPSTATE; 1 bit; 0 (P0) -/
  opstate : Nat
  /-- R459, R512 host cap in watts; 16 bits; 0 -/
  cap : Nat
  /-- R455 cap of the operational state; 16 bits; 0 -/
  opCap : Nat
  /-- R460, R512 ICAP; 16 bits; 0 -/
  icap : Nat
  /-- R460 tick of the latest step of the internal cap; 64 bits; 0 -/
  icapAt : Nat
  /-- R456, R512 PCHG; change asked for or in progress; none -/
  chg : Option PChange
  /-- R459 package power of the last 2,500 ticks, 0.1 W; list; empty -/
  samples : List Nat
  /-- R459 classes of the shared remainder shrunk, from class 3 on; 0 to 3; 0 -/
  restrict : Nat
  /-- R459 tick of the latest halving; 64 bits; 0 -/
  narrowAt : Nat
  /-- R460 consecutive ticks with every die below 95 degrees; count; 0 -/
  cool : Nat
  /-- R461 thermal trip under way; 1 bit; false -/
  trip : Bool
  deriving DecidableEq, Repr

/-- The instructions of the JTAG port (R545). -/
inductive TapIns where
  | bypass | idcode | sample | extest | clamp | highz | extestPulse | extestTrain
  deriving DecidableEq, Repr

/-- Start-up, resets, power failure and the pins. -/
structure RunSt where
  /-- R462, R539 rails in regulation; 1 bit; true -/
  powered : Bool
  /-- R462 start-up phase, 1 to 7, 8 when ready; 4 bits; 1 -/
  phase : Nat
  /-- R379, R463 tick in which the package became ready; 64 bits; 0 -/
  readyAt : Nat
  /-- R428 the start-up follows a power-up rather than a device reset; 1 bit; true -/
  fromPower : Bool
  /-- R110, R356 HALTED; 1 bit; 0 -/
  halted : Bool
  /-- R179 tick t of a power-fail sequence in progress; optional; none -/
  pfail : Option Nat
  /-- R182 the package was ready when PFAIL_N asserted; 1 bit; false -/
  pfReady : Bool
  /-- R182 PFAIL_N has deasserted since, at this tick; optional; none -/
  pfOff : Option Nat
  /-- R180, R185, R182 tick in which the sequence ended; optional; none -/
  pfEnd : Option Nat
  /-- R185 dies whose vault image is done; list; empty -/
  vaulted : List Nat
  /-- R180 DDR in self-refresh; 1 bit; false -/
  selfRefresh : Bool
  /-- R537 BACKUP_EN; 1 bit; low -/
  backupEn : Bool
  /-- R110, R431, R464, R36 reasons that hold FAULT_N: 0 halted, 1 recorder, 2 firmware, 3 no lead die; list; empty -/
  faultN : List Nat
  /-- R461 THERMTRIP_N asserted; 1 bit; false -/
  thermtrip : Bool
  /-- R533 DRAM_RESET_N driven by the device; 1 bit; false -/
  dramReset : Bool
  /-- R545 instruction in the instruction register of the JTAG port; 8 instructions; PRESUMED IDCODE (44) -/
  tap : TapIns := .idcode
  /-- R465, R545 tick in which RESET_N was last sampled low; optional; none -/
  resetNAt : Option Nat := none
  /-- R179, R219 namespaces that have appeared while power fails, and that are looked at once service goes on; list; empty -/
  appeared : List NsInfo := []
  deriving DecidableEq, Repr

/-- A staged or pending firmware image (R468 to R470). -/
structure Image where
  version : W32
  compat : W32
  svn : W32
  deriving DecidableEq, Repr

/-- Firmware. -/
structure FwSt where
  /-- R470 staged chunks: (offset, bytes); list; empty -/
  staged : List (Nat × Bytes)
  /-- R470 the download that waits for programming; optional; none -/
  loader : Option CmdRef
  /-- R464 image in slot A; none when the slot holds no valid one; DESIGN CHOICE version 0 (1) -/
  imgA : Option Image
  /-- R464 image in slot B; DESIGN CHOICE none (1) -/
  imgB : Option Image
  /-- R470, R511 FWPEND; the slot whose image is pending, true for B; DESIGN CHOICE none (1) -/
  pend : Option Bool
  /-- R464 slot pointer: slot B; 1 bit; DESIGN CHOICE A (1) -/
  slotB : Bool
  /-- R469 minimum SVN; 32 bits; DESIGN CHOICE 0 (1) -/
  minSvn : W32
  /-- R471, R511 FWACT; activation in progress; 1 bit; 0 -/
  active : Bool
  /-- R471 loading of the sections has ended; 1 bit; false -/
  loaded : Bool
  /-- R471 classes already flipped, in the order of R471; 0 to 10; 0 -/
  flipped : Nat
  /-- R471 first tick after loading; 64 bits; 0 -/
  flipBase : Nat
  /-- R471 the FIRMWARE ACTIVATE that waits; optional; none -/
  cmd : Option CmdRef
  /-- R464 slot that failed verification at this start-up, its 7004h not yet raised; optional; none -/
  fell : Option Nat
  /-- R313, R471 tick of the last flip; 64 bits; 0 -/
  flipAt : Nat := 0
  /-- R472 a class whose check failed, and the classes that have still to flip back; optional; none -/
  back : Option (Nat × Nat) := none
  deriving DecidableEq, Repr

/-- R464: the image of a slot. -/
def FwSt.slot (f : FwSt) (b : Bool) : Option Image := if b then f.imgB else f.imgA

/-- R470: the pending image. -/
def FwSt.pendImg (f : FwSt) : Option Image := f.pend.bind f.slot

/-- A live log-clear challenge (R424). -/
structure Challenge where
  c : BitVec 128
  ot : Nat
  pc : Nat
  at_ : Nat
  deriving DecidableEq, Repr

/-- Package-wide recorder control. -/
structure LogSt where
  /-- R420 frozen; 1 bit; 0 -/
  frozen : Bool
  /-- R422 tick in which LOG FREEZE completed; 64 bits; 0 -/
  frozenAt : Nat
  /-- R424 live challenge; optional; none -/
  challenge : Option Challenge
  /-- R424 consecutive failures with 0304h; count; 0 -/
  failures : Nat
  /-- R424 LOG CLEAR CHALLENGE is busy until this tick; 64 bits; 0 -/
  busyUntil : Nat
  /-- R486 owner secret; optional 32 bytes; none (new package) -/
  secret : Option Bytes
  /-- R423 the combined index is being rebuilt; 1 bit; false -/
  indexing : Bool
  deriving DecidableEq, Repr

/-- Metering ring (R450 to R454). -/
structure MeterSt where
  /-- R451 ring: base address and records; optional; none -/
  ring : Option (W64 × Nat)
  /-- R451 vector; 11 bits; 0 -/
  vector : Nat
  /-- R454 DHEAD and DLAP as l * S + x; 17 bits; 0 -/
  dhead : Nat
  /-- R454 METER_HEAD as written; 17 bits; 0 -/
  head : BitVec 17
  /-- R452 SKIPPED; 32 bits; 0 -/
  skipped : Nat
  /-- R450 PHASE; 0 to 14,999,999; 0 -/
  phase : Nat
  /-- R450 the minute's length changed; 1 bit; false -/
  changed : Bool
  /-- R451 the lead role moved during delivery; 1 bit; false -/
  moved : Bool
  /-- R450 operating time of the latest snapshot; optional; none -/
  last : Option Nat
  /-- R38 a snapshot that no lead die has delivered yet: its operating time and each tenant's counters; optional; none -/
  held : Option (Nat × List (Nat × Meters))
  deriving DecidableEq, Repr

/-- Feature values (R52 to R56, R485). -/
structure Feats where
  /-- R52, R517 urgent reservations; 13 percentages; 10 each -/
  resv : List Nat
  /-- R55 weights of classes 1, 2 and 3; 1 to 255; 8, 4, 1 -/
  weights : List Nat
  /-- R56 bulk share; 0 to 100; 50 -/
  share : Nat
  /-- R56 rebuild floor; 1 to 25; 5 -/
  floor : Nat
  deriving DecidableEq, Repr

/-- R484: a completed SET FEATURE whose value takes effect at the next tick boundary. -/
inductive Later where
  /-- 05h with mode 0: die, H in ticks -/
  | hold (die ticks : Nat)
  /-- 06h: the health report address -/
  | health (addr : W64)
  /-- 07h with no namespace -/
  | noWitness
  /-- 09h: volume, write-through -/
  | policy (vol : Nat) (wt : Bool)
  /-- 0Ah: pool, age limit in ticks -/
  | age (pool ticks : Nat)
  /-- 0Bh: the owner secret -/
  | secret (b : Bytes)
  deriving DecidableEq, Repr

/-- Features of the package. -/
structure FeatSt where
  /-- R517 admission settings in force -/
  now : Feats
  /-- R52, R484 admission settings in force from the next tick boundary; optional; none -/
  next : Option Feats
  /-- R484 other values in force from the next tick boundary, oldest first; list; empty -/
  later : List Later := []
  /-- R382 health-report address; 64 bits; 0 -/
  healthAddr : W64
  /-- R418 rate limits L that differ from 8: (code, L); list; empty (8 each) -/
  limits : List (Nat × Nat)
  /-- R418 rate limits in force from the next window: (code, L); list; empty -/
  limitsNext : List (Nat × Nat)
  /-- R418 the window in which a limit was last set; count; 0 -/
  limitsAt : Nat := 0
  /-- R445 device key; optional 32 bytes; none (new package) -/
  devKey : Option Bytes
  /-- R485 commands waiting for feature 04h, 05h or 07h: (command, feature, selector); list; empty -/
  waiters : List (CmdRef × Nat × Nat)
  /-- R160 protected-region sizes waiting to fit: (die, GiB); list; empty -/
  protNext : List (Nat × Nat)
  /-- R382 SEQ of the health report; 32 bits; 0 -/
  healthSeq : W32
  deriving DecidableEq, Repr

/-- The ladder, halt and yield registers. -/
structure RegSt where
  /-- R514 STEP; 3 bits; 0 -/
  step : Nat
  /-- R514 CODE; 16 bits; 0000h -/
  code : Nat
  /-- R514 DIE; 3 bits; 0 -/
  die : Nat
  /-- R514 GCTL_LADTIME.OPTIME; 48 bits; 0 -/
  time : Nat
  /-- R514 an ACK is processed at the next tick; 1 bit; false -/
  ack : Bool
  /-- R515 MCAUSE; 8 bits; 0 -/
  mcause : Nat
  /-- R515 YCAUSE; 8 bits; 0 -/
  ycause : Nat
  /-- R515 OWNER; 6 bits; 0 -/
  owner : Nat
  /-- R515 RINGID; 12 bits; 0 -/
  ringId : Nat
  /-- R515 INDEX; 16 bits; 0 -/
  index : Nat
  /-- R515 GCTL_HALT1; 64 bits; 0 -/
  halt1 : W64
  /-- R515 GCTL_HALT2; 64 bits; 0 -/
  halt2 : W64
  /-- R515 GCTL_HALTTIME; 48 bits; 0 -/
  haltTime : Nat
  /-- R518 SAFE_YIELD.SCOPE; 2 bits; 0 -/
  yscope : Nat
  /-- R518 SAFE_YIELD.DIE; 3 bits; 0 -/
  ydie : Nat
  /-- R518 SAFE_YIELD.CAUSE; 16 bits; 0 -/
  yc : Nat
  /-- R518 SAFE_YTIME; 48 bits; 0 -/
  ytime : Nat
  deriving DecidableEq, Repr

/-- A completion record (R85); extra holds its bytes from 32 on, byte 31 and the rest being 0. -/
structure Completion where
  status : W16
  head : Nat
  result : W64
  ndone : W32
  lat : W32
  tstamp : Nat
  part : Bool
  retry : Bool
  late : Bool
  extra : Bytes
  deriving DecidableEq, Repr

/-- R220: the admin and reservation commands with which the device runs a member's controller: Identify (CNS), Create I/O
Completion Queue and Submission Queue (number, entries), Get Log Page (log), Set Features (feature, value), Asynchronous Event
Request, Reservation Report. -/
inductive Admin where
  | identify (cns : Nat) | createCq (q entries : Nat) | createSq (q entries : Nat) | deleteCq (q : Nat) | deleteSq (q : Nat)
  | getLog (lid : Nat) | getFeature (fid : Nat) | setFeature (fid value : Nat) | asyncEvent | reservationReport
  deriving DecidableEq, Repr

/-- What the device puts out towards its surroundings, in order. -/
inductive Out where
  | completion (c : CmdRef) (r : Completion)
  /-- R86 the later write of byte 0, without the Relaxed Ordering attribute -/
  | own (c : CmdRef) (ctrl : Byte)
  | note (die idx slot : Nat) (phase : Bool) (ring index : Nat) (tag status : W16) (cflags : Byte)
  | msix (die fn vec : Nat)
  | buffer (c : CmdRef) (off : Nat) (data : Bytes)
  | host (addr : W64) (data : Bytes)
  | meter (index : Nat) (data : Bytes)
  | segment (die : Nat) (g : Seg)
  | mctp (data : Bytes)
  | readiness (port : Nat)
  /-- R185 the vault writes of a die, with FUA: its dirty data and the copy of its live journal entries -/
  | vault (die : Nat) (data journal : Bytes)
  /-- R325, R329 a flit on a die's link, as the scrambled bytes of each lane -/
  | flit (die : Nat) (lanes : List Bytes)
  | aer (die : Nat)
  /-- R224, R367 Reservation Register (0), Acquire of type Write Exclusive (1), Release (2), Acquire with Preempt and Abort (3) -/
  | reserve (ns die action : Nat) (key : W64)
  /-- R226 an NVMe Abort of an attempt of a member command, on a die's path -/
  | memberAbort (id die : Nat)
  /-- R220 an NVMe admin or reservation command other than the above, on a path of a namespace -/
  | admin (ns path : Nat) (c : Admin)
  /-- R220, R236, R252, R257, R271, R275 an NVMe Write, with FUA set, of one sector, on a path of a namespace -/
  | write (ns path lba : Nat) (x : Sector)
  /-- R175, R185, R218, R247, R266 an NVMe Write, with FUA set, of bytes outside the stripes: labels, plan blocks, lists, spill
  segments, vault images -/
  | header (ns off : Nat) (data : Bytes)
  | ticksync
  deriving DecidableEq, Repr

/-- A self-test pass that a command waits for (R503): the test, the die, the holders a dry takeover still has to visit. -/
structure Test where
  test : Nat
  die : Nat
  cmd : CmdRef
  left : List Nat
  deriving DecidableEq, Repr

/-- R366: a change of the partner's configuration that the partner tells of: a record, new or changed, or one that is gone. -/
inductive PeerRec where
  | pool (p : Pool)
  | volume (v : Vol)
  | tenant (t : Tenant)
  | noPool (num : Nat)
  | noVolume (num : Nat)
  | noTenant (num : Nat)
  deriving DecidableEq, Repr

end Sys2Proof.Machine

namespace Sys2Proof.Config

/-- R366: what the bytes of a message tell of the partner's configuration, whose layout the spec does not give: a free value
(assumption 12). -/
opaque peerRec : Bytes → Option Machine.PeerRec

end Sys2Proof.Config

namespace Sys2Proof.Machine

/-- The package and its queue of waiting commands. -/
structure State where
  id : IdentSt
  clk : ClockSt
  /-- R16 dies by index; R2 count; as reset below -/
  dies : List DieSt
  /-- R76 rings that exist; 512 indices a die; empty -/
  rings : List Ring
  /-- R505, R506 functions; the physical function of each port first -/
  fns : List FnSt
  /-- R44 commands in flight; 16,384 a die; empty -/
  cmds : List Cmd
  /-- R141 next admission sequence number; count; 0 -/
  seq : Nat
  /-- R156 to R167 cached blocks; list; empty -/
  cache : List CBlk
  /-- R226 outstanding member commands; list; empty -/
  mcmds : List MCmd
  /-- R163 destages in progress; 16,384 a die; empty -/
  destages : List Destage
  /-- Model's own: next number for member commands, destages, fetches and namespaces; count; 0 -/
  uniq : Nat
  /-- R192 pools; 16 a die; empty (new package) -/
  pools : List Pool
  /-- R9 volumes; 4,096; empty (new package) -/
  vols : List Vol
  /-- R434 tenants; 1,024; empty (new package) -/
  tenants : List Tenant
  /-- R441 token buckets; one a die and capped tenant; empty -/
  buckets : List Bucket
  /-- R219 namespaces found; list; empty -/
  nss : List Ns
  refl : ReflSt
  pair : PairSt
  pw : PowerSt
  run : RunSt
  fw : FwSt
  log : LogSt
  meter : MeterSt
  feat : FeatSt
  reg : RegSt
  /-- R262 next plan number; 32 bits; DESIGN CHOICE 1 (1) -/
  nextPlan : Nat
  /-- R192 identifiers the device has given out; list; empty (new package) -/
  uids : List W64
  /-- R542 MCTP endpoint ID; 8 bits; 0, the null endpoint ID -/
  eid : BitVec 8
  /-- R105 vectors to signal at the end of this tick: (die, function, vector), in order; list; empty -/
  msixSent : List (Nat × Nat × Nat)
  /-- R53, R55, R100 places in the rounds of the classes, by die index; R2 count; none begun -/
  arb : List ArbSt
  /-- R53 to R56 what each waiting item was granted in this tick; list; empty -/
  grants : List (Item × Nat)
  /-- R503 self-test passes asked for; list; empty -/
  tests : List Test
  /-- Model's own: everything put out so far, oldest last; list; empty (2) -/
  out : List Out
  /-- Model's own: number of free values taken so far; count; DESIGN CHOICE 0 (4) -/
  free : Nat
  /-- Model's own: commands waiting, first in first out; list; empty -/
  pending : List Instr
  deriving DecidableEq, Repr

/-- Why the block would stop with a fault. No command of the table raises one: the spec gives every row an effect.
The one constructor is named for a machine without dies, which the spec does not have. -/
inductive Fault where
  /-- Raised by no command. Safe. -/
  | noDevice
  deriving DecidableEq, Repr

/-- Why a command has no meaning. -/
inductive Refusal where
  /-- Raised by exec for a row that has no meaning yet. Safe: the block stops where the hardware goes on. -/
  | notModelled (mnemonic : String)
  deriving DecidableEq, Repr

/-- R18: jobs of the 24 cores in the codes of R384. -/
def coreJobs : List Nat :=
  [0, 0, 0, 0, 1, 1, 2, 2, 2, 3, 3, 3, 3, 4, 4, 5, 5, 6, 6, 7, 8, 9, 9, 9]

/-- R504: kind, class and stage of the 12 budgets. At which class and stage each kind runs is a DESIGN CHOICE (assumption 43):
R504 gives the kinds and the codes, not the pairing. -/
def budgetKinds : List Budget :=
  [(1, 0, 1), (2, 0, 1), (3, 1, 2), (4, 2, 3), (5, 2, 3), (6, 3, 4), (7, 3, 5), (8, 0, 5), (9, 5, 4), (10, 6, 4),
   (11, 6, 5), (12, 4, 4)].map fun (k, c, s) => ⟨k, c, s, 0, 0, 0, 0, 0, 0, 0⟩

/-- The units of a die at power-up. -/
def HwSt.reset : HwSt where
  cores := coreJobs
  gf := [true, true]
  aes := [true, true, true, true]
  movers := List.replicate 16 true
  ddr := [true, true, true, true]
  ddrRate := 6400
  ddrGib := 64
  hostWidth := 0
  hostRate := 64
  driveRates := List.replicate 24 64
  narrow := 0
  driveLanes := 24
  lanesRetired := []
  eye := []
  fabric := [true, true, true]
  temp := 25
  nvSpare := 1024
  nvNone := false
  nvUsed := 0
  sramCe := 0
  ddrCe := 0
  lbistDone := 0
  lbistFail := 0
  chkDone := 0
  dryDone := 0
  dryMismatch := 0
  dryFails := []
  dcount := List.replicate 17 0
  zq := [0, 0, 0, 0]
  retrainFails := [0, 0, 0, 0]
  sramPatrol := 0
  nvVerify := 0
  ddrPatrol := 0
  cut := 0

/-- A die's frame accounting at power-up (R516). -/
def FrameSt.reset : FrameSt := ⟨[], [], 0, 0, false, 0, 0, budgetKinds, 0, [], false⟩

/-- The journal of a new package. -/
def JournalSt.reset : JournalSt := ⟨[], 1, 1, 0, [], false, 0, 0, false, (0, 0), [], [], 1, [], 0⟩

/-- The recorder of a new package (R415, R433). -/
def RecorderSt.reset : RecorderSt := ⟨[], [], [], 0, 0, 0, 0, 0, 1, false, [], 0, [], 0, none⟩

/-- The EVT block at reset (R409). -/
def EvtSt.reset : EvtSt := ⟨[], [], [], []⟩

/-- A reflect link before it trains (R330). -/
def LinkSt.reset : LinkSt := ⟨.detect, 0, 0, 0, 16, [], false, 0, 0, [], 0, 0, false, false, 0, [], 0, 16, [], none⟩

/-- The reflect engine of a die at reset. -/
def DieRfl.reset : DieRfl := ⟨0, [], [], 0, 0, none, List.replicate 8 ⟨0, 0, 0, 0⟩, [], [], [], [], [], [], [], [], [], []⟩

/-- A die right after power-up. -/
def DieSt.reset : DieSt where
  healthy := true
  retired := false
  keepRetired := false
  restore := false
  retiring := false
  yielded := none
  hold := false
  unrefreshed := 0
  saved := [none, none]
  protGib := 64
  protSet := false
  vault := false
  vaultNs := []
  holdUp := 0
  rateV := 0
  rateVr := 0
  linkUp := false
  perst := false
  hw := HwSt.reset
  frame := FrameSt.reset
  jr := JournalSt.reset
  recd := RecorderSt.reset
  evt := EvtSt.reset
  link := LinkSt.reset
  rfl := DieRfl.reset

/-- The pair state of a package that is not in a pair (R287). -/
def PairSt.reset : PairSt where
  state := .survivor
  yielded := false
  armed := false
  holdIn := false
  hbOk := false
  lostAt := none
  lostOwn := []
  yieldSeen := false
  lostDies := []
  wireDiff := 0
  wireAgree := 0
  wireFault := false
  witness := none
  witnessHeld := false
  witnessSlow := false
  witnessLat := 0
  contest := none
  acquiring := false
  awaiting := false
  shut := false
  forced := false
  okTicks := 0
  rejoinAt := none
  rejoinMsg := none
  since := 0
  lastHb := 0
  hbMiss := 0
  rejoins := 0
  takeovers := 0
  kerfs := 0
  lastKerf := 0
  longKerf := 0
  kerf := none
  kerfMax := 0
  kerfPools := []
  kerfLog := []
  partnerSn := List.replicate 20 0

/-- Power state at reset: P0 (R455, R512). -/
def PowerSt.reset : PowerSt := ⟨0, 0, 0, 0, 0, 0, none, [], 0, 0, 0, false⟩

/-- Phase 1 of start-up after power-up (R462), pins as R537. -/
def RunSt.reset : RunSt where
  powered := true
  phase := 1
  readyAt := 0
  fromPower := true
  halted := false
  pfail := none
  pfReady := false
  pfOff := none
  pfEnd := none
  vaulted := []
  selfRefresh := false
  backupEn := false
  faultN := []
  thermtrip := false
  dramReset := false

/-- Reset values of R52, R55 and R56. -/
def Feats.reset : Feats := ⟨List.replicate 13 10, [8, 4, 1], 50, 5⟩

/-- The package right after the release of the package reset at its first power-up (R462, R539). -/
def State.reset : State where
  id := ⟨.zle4820, 0, false, List.replicate 20 0x20, 0, 0, 0, 0, List.replicate 8 0, List.replicate 8 0⟩
  clk := ⟨0, 0, 0, 0, 0, false, false, 0, 0, false, 6400⟩
  dies := [DieSt.reset, DieSt.reset]
  rings := []
  fns := [{ die := 0, fn := 0 }, { die := 1, fn := 0 }]
  cmds := []
  seq := 0
  cache := []
  mcmds := []
  destages := []
  uniq := 0
  pools := []
  vols := []
  tenants := []
  buckets := []
  nss := []
  refl := ⟨[], [], [], [], [], []⟩
  pair := PairSt.reset
  pw := PowerSt.reset
  run := RunSt.reset
  fw := ⟨[], none, some ⟨0, 0, 0⟩, none, none, false, 0, false, false, 0, 0, none, none, 0, none⟩
  log := ⟨false, 0, none, 0, 0, none, false⟩
  meter := ⟨none, 0, 0, 0, 0, 0, false, false, none, none⟩
  feat := ⟨Feats.reset, none, [], 0, [], [], 0, none, [], [], 0⟩
  reg := ⟨0, 0, 0, 0, false, 0, 0, 0, 0, 0, 0, 0, 0, 0, 0, 0, 0⟩
  nextPlan := 1
  uids := []
  eid := 0
  msixSent := []
  arb := [{}, {}]
  grants := []
  tests := []
  out := []
  free := 0
  pending := []

end Sys2Proof.Machine
end

