-- ==== Sys2Proof/Machine/Ops.lean ====
section
/-! DEFINITION. The named operations over the package: looking things up and changing them, raising an event,
recording it, signalling, writing a completion. -/

namespace Sys2Proof.Machine

/-- The answer of every meaning. -/
abbrev Answer := Host.Outcome State Fault Refusal

/-- The records that satisfy a test, changed; the others kept, in place. -/
def updIf {α : Type} (p : α → Bool) (f : α → α) (l : List α) : List α := l.map fun x => if p x then f x else x

/-- Ascending insertion without a repeat. -/
def insNat (n : Nat) : List Nat → List Nat
  | [] => [n]
  | x :: xs => if n < x then n :: x :: xs else if n = x then x :: xs else x :: insNat n xs

/-- Saturating addition at a field's largest value. -/
def satAdd (top a b : Nat) : Nat := min top (a + b)

/-- FFFFh. -/
def top16 : Nat := 0xFFFF

/-- FFFFFFFFh. -/
def top32 : Nat := 0xFFFFFFFF

/-- R426: FFFFFFFFFFFFh. -/
def top48 : Nat := 0xFFFFFFFFFFFF

/-! ### Looking up and changing -/

/-- Die d. -/
def State.die? (s : State) (d : Nat) : Option DieSt := s.dies[d]?

/-- A change of die d. -/
def State.updDie (s : State) (d : Nat) (f : DieSt → DieSt) : State := { s with dies := s.dies.modify d f }

/-- A change of the units of die d. -/
def State.updHw (s : State) (d : Nat) (f : HwSt → HwSt) : State := s.updDie d fun x => { x with hw := f x.hw }

/-- A change of the journal of die d. -/
def State.updJr (s : State) (d : Nat) (f : JournalSt → JournalSt) : State := s.updDie d fun x => { x with jr := f x.jr }

/-- A change of the recorder of die d. -/
def State.updRec (s : State) (d : Nat) (f : RecorderSt → RecorderSt) : State := s.updDie d fun x => { x with recd := f x.recd }

/-- A change of the recorders of all dies. -/
def State.updRecs (s : State) (f : RecorderSt → RecorderSt) : State :=
  { s with dies := s.dies.map fun x => { x with recd := f x.recd } }

/-- A change of the EVT block of die d. -/
def State.updEvt (s : State) (d : Nat) (f : EvtSt → EvtSt) : State := s.updDie d fun x => { x with evt := f x.evt }

/-- A change of the reflect link of die d. -/
def State.updLink (s : State) (d : Nat) (f : LinkSt → LinkSt) : State := s.updDie d fun x => { x with link := f x.link }

/-- A change of the reflect engine of die d. -/
def State.updRfl (s : State) (d : Nat) (f : DieRfl → DieRfl) : State := s.updDie d fun x => { x with rfl := f x.rfl }

/-- A change of the frame accounting of die d. -/
def State.updFrame (s : State) (d : Nat) (f : FrameSt → FrameSt) : State := s.updDie d fun x => { x with frame := f x.frame }

/-- R36: a die in service. -/
def DieSt.alive (x : DieSt) : Bool := x.healthy && !x.retired

/-- Whether die d is in service. -/
def State.alive (s : State) (d : Nat) : Bool := (s.die? d).any DieSt.alive

/-- R353, R361: a die does the work of its pools: it is in service and its heartbeat has not been lost. -/
def State.serves (s : State) (d : Nat) : Bool := s.alive d && !s.pair.lostOwn.contains d

/-- R358: the slot of die e in the heartbeat region of die d. -/
def hbSlot (s : State) (d e : Nat) : Option HbSlot := (s.die? d).bind fun x => x.rfl.hb[e]?

/-- R223: the die of a path. -/
def pathOn (p : Nat) : Nat := p % 8

/-- R223: a namespace has an up path from a die. -/
def Ns.reaches (n : Ns) (d : Nat) : Bool := n.up.any fun p => pathOn p == d

/-- The indices of the dies. -/
def State.dieIdx (s : State) : List Nat := List.range s.dies.length

/-- The indices of the dies in service. -/
def State.aliveDies (s : State) : List Nat := s.dieIdx.filter s.alive

/-- R353, R359: another die of the package has missed the latest heartbeat of die d: the gap of a kerf may have begun. -/
def unheard (s : State) (d : Nat) : Bool := s.aliveDies.any fun e => e != d && (hbSlot s e d).any fun h => decide (1 ≤ h.missed)

/-- The ring of a die at a local index (R76). -/
def State.ring? (s : State) (d i : Nat) : Option Ring := s.rings.find? fun r => r.die == d && r.idx == i

/-- A change of one ring. -/
def State.updRing (s : State) (d i : Nat) (f : Ring → Ring) : State :=
  { s with rings := updIf (fun r => r.die == d && r.idx == i) f s.rings }

/-- R92, R40: the ring ID. -/
def Ring.id (r : Ring) : Nat := r.die * 512 + r.idx

/-- The function of a port. -/
def State.fn? (s : State) (d f : Nat) : Option FnSt := s.fns.find? fun x => x.die == d && x.fn == f

/-- A change of one function. A virtual function is added when it is first reached through its BAR0, which shows
that the port's SR-IOV capability enables it (assumption 7). -/
def State.updFn (s : State) (d f : Nat) (g : FnSt → FnSt) : State :=
  match s.fn? d f with
  | some _ => { s with fns := updIf (fun x => x.die == d && x.fn == f) g s.fns }
  | none => { s with fns := s.fns ++ [g { die := d, fn := f }] }

/-- A command in flight. -/
def State.cmd? (s : State) (c : CmdRef) : Option Cmd := s.cmds.find? fun x => x.ref == c

/-- A change of one command in flight. -/
def State.updCmd (s : State) (c : CmdRef) (f : Cmd → Cmd) : State := { s with cmds := updIf (fun x => x.ref == c) f s.cmds }

/-- R61: the class at which a command is served. -/
def Cmd.served (c : Cmd) : Nat := if c.lent then 0 else c.cls

/-- A pool. -/
def State.pool? (s : State) (p : Nat) : Option Pool := s.pools.find? fun x => x.num == p

/-- A change of one pool. -/
def State.updPool (s : State) (p : Nat) (f : Pool → Pool) : State := { s with pools := updIf (fun x => x.num == p) f s.pools }

/-- A volume. -/
def State.vol? (s : State) (v : Nat) : Option Vol := s.vols.find? fun x => x.num == v

/-- A change of one volume. -/
def State.updVol (s : State) (v : Nat) (f : Vol → Vol) : State := { s with vols := updIf (fun x => x.num == v) f s.vols }

/-- A tenant. -/
def State.tenant? (s : State) (t : Nat) : Option Tenant := s.tenants.find? fun x => x.num == t

/-- A change of one tenant. -/
def State.updTenant (s : State) (t : Nat) (f : Tenant → Tenant) : State :=
  { s with tenants := updIf (fun x => x.num == t) f s.tenants }

/-- A change of a tenant's counters (R449). -/
def State.updMeters (s : State) (t : Nat) (f : Meters → Meters) : State :=
  s.updTenant t fun x => { x with meters := f x.meters }

/-- A namespace. -/
def State.ns? (s : State) (n : Nat) : Option Ns := s.nss.find? fun x => x.id == n

/-- A change of one namespace. -/
def State.updNs (s : State) (n : Nat) (f : Ns → Ns) : State := { s with nss := updIf (fun x => x.id == n) f s.nss }

/-- R484: a feature's new value takes effect. -/
def State.takeLater (s : State) (f : Later) : State :=
  match f with
  | .hold d h => s.updDie d fun x => { x with vault := false, vaultNs := [], holdUp := h, rateV := 0, rateVr := 0 }
  | .health a => { s with feat := { s.feat with healthAddr := a } }
  | .noWitness => { s with pair := { s.pair with witness := none, witnessSlow := false, witnessLat := 0 } }
  | .policy v w => s.updVol v fun v => { v with wt := w }
  | .age p n => s.updPool p fun p => { p with age := n }
  | .secret b => { s with log := { s.log with secret := some b, challenge := none } }

/-- R484: every value that waits for a tick boundary takes effect. -/
def State.takeFeats (s : State) : State :=
  let s1 := { s with feat := { s.feat with later := [] } }
  s.feat.later.foldl State.takeLater s1

/-- Puts an output out. -/
def State.emit (s : State) (o : Out) : State := { s with out := s.out ++ [o] }

/-- Takes the next free value of one kind (assumption 4). -/
def State.fresh (s : State) : Nat × State := (s.free, { s with free := s.free + 1 })

/-- R462: the package is ready. -/
def State.ready (s : State) : Bool := s.run.powered && s.run.phase == 8

/-- R111, R179: the package is ready and neither HALTED nor in a power-fail sequence. -/
def State.running (s : State) : Bool := s.ready && !s.run.halted && s.run.pfail.isNone

/-- R187, R222: the drive side is worked: replay and later, neither HALTED nor in a power-fail sequence. -/
def State.drives (s : State) : Bool := s.run.powered && decide (6 ≤ s.run.phase) && !s.run.halted && s.run.pfail.isNone

/-- R461, R539: power is up and the package is not in the powered-off end of a power-fail sequence. -/
def State.on (s : State) : Bool := s.run.powered && s.run.pfEnd.isNone

/-- R435, R436: the tenant a ring of a function acts for; the binding of a virtual function goes before its rings'. -/
def State.ringTenant (s : State) (r : Ring) : Option Nat :=
  match (s.fn? r.die r.fn).bind (·.tenant) with
  | some t => some t
  | none => r.tenant

/-- R529: the die's host port is in x8+x8 mode. -/
def State.split (s : State) (d : Nat) : Bool := s.id.hostMode[d]? == some 1

/-- R505, R529: a physical function: 0, and 32 for link B of a split port. -/
def State.isPf (s : State) (d fn : Nat) : Bool := fn == 0 || (fn == 32 && s.split d)

/-- R524, R529: MSI-X vectors of a function. -/
def vectorsOf (s : State) (d fn : Nat) : Nat := if s.isPf d fn then (if s.split d then 512 else 1024) else 16

/-- R77, R529: the first local index that a physical function's window 0 shows. -/
def pfBase (fn : Nat) : Nat := if fn = 32 then 256 else 0

/-! ### Signals -/

/-- R105, R524: a vector is due a message at the end of the tick, once. Nothing is due in HALTED (R111), through a port whose
link is down, or for a vector beyond the table (R410). -/
def sendMsix (d fn vec : Nat) (s : State) : State :=
  match s.fn? d fn, s.die? d with
  | some _, some x =>
    if s.run.halted || !x.linkUp || vectorsOf s d fn ≤ vec || s.msixSent.contains (d, fn, vec) then s
    else { s with msixSent := s.msixSent ++ [(d, fn, vec)] }
  | _, _ => s

/-- R105, R524: the message of one vector, after every record and note of the tick; a masked vector sets its pending bit. -/
def messageOf (x : Nat × Nat × Nat) (s : State) : State :=
  match s.fn? x.1 x.2.1, s.die? x.1 with
  | some f, some y =>
    if !y.linkUp then s
    else if (f.msix.find? fun m => m.vec == x.2.2).any fun m => !m.masked then s.emit (.msix x.1 x.2.1 x.2.2)
    else s.updFn x.1 x.2.1 fun f => { f with pba := insNat x.2.2 f.pba }
  | _, _ => s

/-- R105: the messages due in a tick. -/
def sendMessages (s : State) : State := s.msixSent.foldl (fun s x => messageOf x s) { s with msixSent := [] }

/-- R411: ALERT_N is asserted while a pending source has ALERTEN. -/
def alertN (s : State) : Bool :=
  s.dies.any fun x => x.evt.pend.any fun p => x.evt.routes.any fun r => r.src == p && r.alerten

/-! ### Events -/

/-- R412: the codes of severity 3. -/
def sev3 : List Nat := [0x2101, 0x3110, 0x3112, 0x3130, 0x5046, 0x4001, 0x6003, 0x6015, 0x8001]

/-- R412: the codes of severity 2. -/
def sev2 : List Nat :=
  [0x0042, 0x0043, 0x3107, 0x5001, 0x5005, 0x5040, 0x5041, 0x5042, 0x5044, 0x5049, 0x504B, 0x0032, 0x0035, 0x0036,
   0x0050, 0x0100, 0x0102, 0x0110, 0x0120, 0x1001, 0x1002, 0x1004, 0x1202, 0x2110, 0x3124, 0x4004, 0x6002, 0x6022,
   0x7002, 0x7004, 0x8006]

/-- R412: the codes of severity 1. -/
def sev1 : List Nat :=
  [0x0040, 0x0041, 0x0044, 0x0045, 0x0046, 0x2102, 0x2104, 0x2120, 0x2130, 0x3101, 0x3120, 0x3121, 0x3122, 0x3145,
   0x5003, 0x5010, 0x5011, 0x5012, 0x5020, 0x5030, 0x5045, 0x5047, 0x5048, 0x0030, 0x0031, 0x0034, 0x0111, 0x1003,
   0x1200, 0x1201, 0x1203, 0x4002, 0x4003, 0x6001, 0x6011, 0x6013, 0x6014, 0x6020, 0x7011, 0x7020, 0x7021, 0x7030,
   0x7040, 0x8002, 0x8004, 0x8005, 0x8007]

/-- R412: the severity of a code. -/
def sevOf (c : Nat) : Nat := if sev3.contains c then 3 else if sev2.contains c then 2 else if sev1.contains c then 1 else 0

/-- R408: the source of a code on a die. -/
def srcOf (e : EvtSt) (c : Nat) : Nat :=
  match e.remap.filterMap (fun (i, x) => if x == c && c != 0 then some i else none) with
  | [] => 16 * (c / 0x1000) + (c / 16) % 16
  | i :: is => 144 + is.foldl min i

/-- R409: the routing register of a source. -/
def routeOf (e : EvtSt) (src : Nat) : Route := (e.routes.find? fun r => r.src == src).getD { src := src }

/-- R409: a change of the routing register of a source. -/
def setRoute (e : EvtSt) (r : Route) : EvtSt :=
  { e with routes := if e.routes.any (fun x => x.src == r.src) then updIf (fun x => x.src == r.src) (fun _ => r) e.routes
                     else r :: e.routes }

/-- R405 steps 1 to 3: pending bit, COUNT, message. -/
def signalEvent (d code : Nat) (s : State) : State :=
  match s.die? d with
  | none => s
  | some x =>
    let src := srcOf x.evt code
    let r := routeOf x.evt src
    let s := s.updEvt d fun e => setRoute { e with pend := insNat src e.pend } { r with count := satAdd top16 r.count 1 }
    if r.msien then sendMsix d r.fn r.vector s else s

/-- R418: codes whose limit is always 255. -/
def unlimited (code : Nat) : Bool := sevOf code == 3 || code / 0x1000 == 8

/-- R418: the window an operating time falls in. -/
def windowAt (t : Nat) : Nat := t / 2 ^ 22

/-- R418: the limits in force: those set in an earlier window stand over the older ones. -/
def limitsNow (s : State) : List (Nat × Nat) :=
  if windowAt s.clk.optime ≤ s.feat.limitsAt then s.feat.limits
  else s.feat.limitsNext ++ s.feat.limits.filter fun p => !s.feat.limitsNext.any fun q => q.1 == p.1

/-- R418: the limit L of a code. -/
def limitOf (s : State) (code : Nat) : Nat :=
  if unlimited code then 255 else (((limitsNow s).find? fun p => p.1 == code).map (·.2)).getD 8

/-- A record stamped now (R413). -/
def mkRec (s : State) (d code : Nat) (det : Detail) : Rec :=
  { code := code, sev := sevOf code, die := d, det := det, held := false, faultArea := false,
    optime := s.clk.optime, pcycles := s.clk.powerCycles, rseq := 0 }

/-- R415: RSEQ counts modulo 2^32. -/
def nextRseq (n : Nat) : Nat := (n + 1) % 0x100000000

/-- R432: a record into the fault area. -/
def toFaultArea (r : Rec) (x : RecorderSt) : RecorderSt :=
  if x.faultArea.length < 16 then
    { x with faultArea := x.faultArea ++ [{ r with faultArea := true, rseq := x.rseq }], rseq := nextRseq x.rseq }
  else { x with fdrop := satAdd 0xFF x.fdrop 1 }

/-- R415: a record into the next slot, with the die's next RSEQ. -/
def pushSlot (r : Rec) (q : RecorderSt) : RecorderSt :=
  { q with slots := q.slots ++ [{ r with rseq := q.rseq }], rseq := nextRseq q.rseq }

/-- R416, R417: counts a record that is not written. -/
def dropRec (q : RecorderSt) : RecorderSt := { q with dropped := satAdd top32 q.dropped 1 }

/-- R416: programs one record at the fill point of a die; the last slot takes 8002h in place of the due record. -/
def programRec (d : Nat) (r : Rec) (s : State) : State :=
  match s.die? d with
  | none => s
  | some x =>
    if x.recd.failed then s.updRec d (toFaultArea r)
    else if x.recd.slots.length < 16383 then s.updRec d (pushSlot r)
    else if x.recd.slots.length = 16383 then
      signalEvent d 0x8002 (s.updRec d fun q => dropRec (pushSlot (mkRec s d 0x8002 {}) q))
    else s.updRec d dropRec

/-- R417, R421: a record into the holding queue of a die. -/
def holdRec (r : Rec) (q : RecorderSt) : RecorderSt :=
  if q.holding.length < 64 then { q with holding := q.holding ++ [{ r with held := true }] }
  else { q with holdOvf := satAdd top32 q.holdOvf 1, freezeOvf := q.freezeOvf + 1 }

/-- R417: a record into the pre-write buffer of a die. -/
def bufferRec (r : Rec) (q : RecorderSt) : RecorderSt :=
  if q.prewrite.length < 256 then { q with prewrite := q.prewrite ++ [r] } else dropRec q

/-- R407, R417, R421, R431: where a record that passed the rate limit goes; in a power failure it is programmed as it is raised. -/
def placeRec (d : Nat) (r : Rec) (s : State) : State :=
  if s.log.frozen || (s.die? d).any (·.recd.clearPending.isSome) then s.updRec d (holdRec r)
  else if s.run.pfail.isSome then programRec d r s
  else s.updRec d (bufferRec r)

/-- R418: one more event of a code in the current window: whether it is recorded, and the counts after it. -/
def countRate (lim code now : Nat) (l : List RateCnt) : Bool × List RateCnt :=
  let c := (l.find? fun x => x.code == code).getD ⟨code, 0, 0, 0, 0⟩
  let rest := l.filter fun x => x.code != code
  if lim = 255 ∨ c.seen < lim then (true, { c with seen := c.seen + 1 } :: rest)
  else (false, { c with counted := c.counted + 1, first := if c.counted = 0 then now else c.first, last := now } :: rest)

/-- Ascending insertion of a rate count by its code. -/
def insRate (x : RateCnt) : List RateCnt → List RateCnt
  | [] => [x]
  | y :: ys => if x.code ≤ y.code then x :: y :: ys else y :: insRate x ys

/-- R419: the summary of a code that had events counted without recording. -/
def summary (d : Nat) (s : State) (r : RateCnt) : State :=
  let s := signalEvent d 0x8003 s
  placeRec d (mkRec s d 0x8003 { item := r.code, arg0 := r.counted, arg1 := r.first, arg2 := r.last }) s

/-- R418, R419: at the first tick of a window, ahead of its other records, a die writes a summary for each code that had events counted
without recording, in ascending code order; its counts start anew. -/
def rollWindow (d : Nat) (s : State) : State :=
  match s.die? d with
  | none => s
  | some x =>
    if windowAt s.clk.optime ≤ x.recd.window then s
    else
      let due := (x.recd.rates.filter fun r => 0 < r.counted).foldl (fun l r => insRate r l) []
      due.foldl (summary d) (s.updRec d fun q => { q with rates := [], window := windowAt s.clk.optime })

/-- R405 step 4 with R418: passes an event to the recorder of its die. -/
def recordEvent (d code : Nat) (det : Detail) (s0 : State) : State :=
  let s := rollWindow d s0
  match s.die? d with
  | none => s
  | some x =>
    let (rec?, rates) := countRate (limitOf s code) code s.clk.optime x.recd.rates
    let s := s.updRec d fun q => { q with rates := rates }
    if rec? then placeRec d (mkRec s d code det) s else s

/-- R407: the recorder takes events up to the end of tick t + 2 of a power failure. -/
def recording (s : State) : Bool :=
  match s.run.pfail with
  | some t => decide (s.clk.tick ≤ t + 2)
  | none => s.run.powered

/-- R405: raises an event on a die. -/
def raise (d code : Nat) (det : Detail) (s : State) : State :=
  let s := signalEvent d code s
  if recording s then recordEvent d code det s else s

/-- R406: raises an event of the package on the lead die. -/
def raisePkg (code : Nat) (det : Detail) (s : State) : State := raise s.id.lead code det s

/-- R514: records a reaction that requires a step of the ladder; a record of the same or a higher step stays. -/
def ladder (step code d : Nat) (s : State) : State :=
  if s.reg.step < step then
    { s with reg := { s.reg with step := step, code := code, die := d, time := s.clk.optime } }
  else s

/-- R110, R431, R432, R464: one more reason holds FAULT_N. -/
def holdFault (why : Nat) (s : State) : State := { s with run := { s.run with faultN := insNat why s.run.faultN } }

/-- Programs up to n records of the pre-write buffer of a die (R417). -/
def programSome : Nat → Nat → State → State
  | 0, _, s => s
  | n + 1, d, s =>
    match s.die? d with
    | some x =>
      match x.recd.prewrite with
      | [] => s
      | r :: rs => programSome n d (programRec d r (s.updRec d fun q => { q with prewrite := rs }))
    | none => s

/-- Programs the whole pre-write buffer of a die. -/
def programAll (d : Nat) (s : State) : State := programSome (((s.die? d).map (·.recd.prewrite.length)).getD 0) d s

/-- Programs the pre-write buffers of all dies. -/
def programEvery (s : State) : State := s.dieIdx.foldl (fun s d => programAll d s) s

/-- R421: programs one die's holding queue, its records with HELD set. -/
def writeHolding (d : Nat) (s : State) : State :=
  match s.die? d with
  | none => s
  | some x => x.recd.holding.foldl (fun s r => programRec d r s) (s.updRec d fun q => { q with holding := [] })

/-- R421: a thaw: holding queues written, then 8007h on each die whose queue overflowed, normal recording again. -/
def thaw (s : State) : State :=
  let lost := s.dies.map (·.recd.freezeOvf)
  let s := s.dieIdx.foldl (fun s d => writeHolding d s) s
  let s := { s with log := { s.log with frozen := false } }
  let s := s.updRecs fun q => { q with freezeOvf := 0 }
  lost.zipIdx.foldl (fun s (n, d) => if 0 < n then raise d 0x8007 { arg0 := n } s else s) s

/-- R314: raises an event whose record is written directly, outside the holding queue. -/
def raiseDirect (d code : Nat) (det : Detail) (s : State) : State :=
  if s.log.frozen then programRec d (mkRec s d code det) (signalEvent d code s) else raise d code det s

/-! ### Completions -/

/-- R85: the index of a position, without the lap bit. -/
def Ring.index (r : Ring) (v : Nat) : Nat := v % r.size

/-- The notification ring bound to a vector of a function (R101). -/
def State.notif? (s : State) (d fn vec : Nat) : Option Ring :=
  s.rings.find? fun r => r.notif && r.die == d && r.fn == fn && r.vector == vec && r.state == .enabled

/-- R85: CFLAGS. -/
def cflags (part retry late : Bool) : Byte :=
  BitVec.ofNat 8 ((if part then 4 else 0) + (if retry then 2 else 0) + (if late then 1 else 0))

/-- R102, R103: one note for a completion, when the vector has a notification ring. -/
def writeNote (r : Ring) (c : Cmd) (status : W16) (fl : Byte) (s : State) : State :=
  match s.notif? r.die r.fn r.vector with
  | none => s
  | some n =>
    if n.ovf then s
    else if n.notes < n.size then
      (s.updRing n.die n.idx fun x => { x with notes := x.notes + 1, head := (x.head + 1) % (2 * x.size) }).emit
        (.note n.die n.idx (n.index n.head) (decide (n.head < n.size)) r.id c.ref.index c.entry.tag status fl)
    else raise n.die 0x4003 { ring := n.id } (s.updRing n.die n.idx fun x => { x with ovf := true })

/-- R449: a completion counted for the tenant of a bound ring. -/
def meterCompletion (c : Cmd) (s : State) : State :=
  match c.tenant with
  | none => s
  | some t => s.updMeters t fun m =>
      { m with cmds := m.cmds.modify c.cls (· + 1), late := m.late + if c.late then 1 else 0 }

/-- R226: a read of a fetch that is over still awaits its member. -/
def spend (over_ : CmdRef → Nat → Bool) (m : MCmd) : MCmd :=
  match m.purpose with
  | .fetch c key _ => if over_ c key then { m with purpose := .spent } else m
  | _ => m

/-- A command leaves the commands in flight. -/
def State.endCmd (s : State) (ref : CmdRef) : State :=
  { s with cmds := s.cmds.filter fun x => x.ref != ref, mcmds := s.mcmds.map (spend fun c _ => c == ref) }

/-- R84, R86: byte 0 as a completion writes it: OWN = 0, IND and PUSH as the device found them. -/
def ctrlOf (e : Entry) : Byte := BitVec.ofNat 8 ((if e.ind then 0x40 else 0) + if e.push then 0x20 else 0)

/-- R85, R86: writes the completion of a command: record, byte 0, note, message. -/
def writeRecord (r : Ring) (c : Cmd) (status : W16) (v : Res) (s : State) : State :=
  let s1 := (s.emit (.completion c.ref
    { status := status, head := r.index r.head, result := v.result, ndone := BitVec.ofNat 32 v.ndone,
      lat := BitVec.ofNat 32 (min top32 (s.clk.tick - c.bell)), tstamp := s.clk.optime, part := v.part,
      retry := v.retry, late := c.late, extra := v.extra })).emit (.own c.ref (ctrlOf c.entry))
  sendMsix r.die r.fn r.vector (meterCompletion c (writeNote r c status (cflags v.part v.retry c.late) s1))

/-- R111, R179: completion records are written: not in HALTED, and not after tick t + 2 of a power failure. -/
def State.records (s : State) : Bool := !s.run.halted && s.run.pfail.all fun t => decide (s.clk.tick ≤ t + 2)

/-- R41, R48: the home die that carries a command out is not its ring's: what it completes crosses the fabric. -/
def Cmd.away (c : Cmd) : Bool := c.sent.isSome && !c.route.isEmpty

/-- R48, R85, R86: a command in flight ends: its completion is written, or sets out for the ring's die. In HALTED and over a port without
a link nothing is written (R111, R466). -/
def complete (ref : CmdRef) (status : W16) (v : Res) (s : State) : State :=
  match s.cmd? ref, s.ring? ref.die ref.ring with
  | some c, some r =>
    let s1 := s.endCmd ref
    if s.run.halted || !((s.die? ref.die).any (·.linkUp)) then s1
    else if c.away then s1.updRing r.die r.idx fun x => { x with backs := x.backs ++ [⟨c, status, v, s.clk.tick⟩] }
    else writeRecord r c status v s1
  | _, _ => s.endCmd ref

/-- R48: a completion that crossed the fabric is written. -/
def arriveBack (d i : Nat) (b : Back) (s : State) : State :=
  match s.ring? d i with
  | none => s
  | some r =>
    let s1 := s.updRing d i fun x => { x with backs := x.backs.filter fun y => y.cmd.ref != b.cmd.ref }
    if s.run.halted || !((s.die? d).any (·.linkUp)) then s1 else writeRecord r b.cmd b.status b.res s1

/-- R48: the completions that crossed the fabric in an earlier tick are written. -/
def arriveBacks (s : State) : State :=
  s.rings.foldl (fun s r => (r.backs.filter fun b => decide (b.at_ < s.clk.tick)).foldl (fun s b => arriveBack r.die r.idx b s) s) s

/-- Completes with a status and nothing else. -/
def fail (ref : CmdRef) (status : W16) (s : State) : State := complete ref status {} s

/-- Completes with 0000h and a RESULT. -/
def ok (ref : CmdRef) (result : Nat) (s : State) : State := complete ref 0 { result := BitVec.ofNat 64 result } s

/-- R366, R478: a configuration command has made its change: it completes, in a pair once the partner has acknowledged the change. -/
def conclude (ref : CmdRef) (result : W64) (extra : Bytes) (s : State) : State :=
  if s.pair.state = .paired then s.updCmd ref fun c => { c with stage := .waiting, told := some ⟨result, extra, none⟩ }
  else complete ref 0 { result := result, extra := extra } s

/-- A configuration command that completes with a RESULT alone. -/
def changed (ref : CmdRef) (result : Nat) (s : State) : State := conclude ref (BitVec.ofNat 64 result) [] s

/-- R117: completes with 0402h BUSY and RETRY-SAFE. -/
def busy (ref : CmdRef) (s : State) : State := complete ref 0x0402 { retry := true } s

end Sys2Proof.Machine
end

