-- ==== Sys2Proof/Machine/Operands.lean ====
section
/-! DEFINITION. Operand forms: little-endian fields (R10), the entry's bytes and parameter bytes (R82), the
opcode list, register writes (R507). -/

namespace Sys2Proof.Machine

/-- R10: a number as n little-endian bytes. -/
def le : Nat → Nat → Bytes
  | 0, _ => []
  | n + 1, v => BitVec.ofNat 8 v :: le n (v / 256)

/-- R10: the number that little-endian bytes hold. -/
def leNat : Bytes → Nat
  | [] => 0
  | b :: bs => b.toNat + 256 * leNat bs

/-- n zero bytes. -/
def zeros (n : Nat) : Bytes := List.replicate n 0

/-- n bytes of b from an offset, zero beyond its end. -/
def slice (b : Bytes) (off n : Nat) : Bytes :=
  let x := (b.drop off).take n
  x ++ zeros (n - x.length)

/-- The little-endian field of n bytes at an offset. -/
def fieldAt (b : Bytes) (off n : Nat) : Nat := leNat (slice b off n)

/-- Lays a run of bytes over another at an offset. -/
def overlay (b : Bytes) (off : Nat) (x : Bytes) : Bytes := b.take off ++ x ++ b.drop (off + x.length)

/-- A structure of n bytes with fields at their offsets, every other byte 0. -/
def layout (n : Nat) (fields : List (Nat × Bytes)) : Bytes := fields.foldl (fun b f => overlay b f.1 f.2) (zeros n)

/-- A run of bytes of exactly n bytes: cut, or padded with zeros. -/
def padTo (n : Nat) (b : Bytes) : Bytes := slice b 0 n

/-- The bits hi down to lo of a number. -/
def bits (v hi lo : Nat) : Nat := (v / 2 ^ lo) % 2 ^ (hi + 1 - lo)

/-- Bit i of a number. -/
def bitAt (v i : Nat) : Bool := v.testBit i

/-- A flag as a bit. -/
def bit (b : Bool) : Nat := if b then 1 else 0

/-- ceil(a / b). -/
def ceilDiv (a b : Nat) : Nat := (a + b - 1) / b

/-- The ASCII bytes of a text. -/
def ascii (t : String) : Bytes := t.toList.map fun c => BitVec.ofNat 8 c.toNat

end Sys2Proof.Machine

namespace Sys2Proof

open Machine

/-! ### The entry -/

/-- Bytes 44 to 63 of an entry as a number. -/
def Entry.params (e : Entry) : Nat := e.tail.toNat

/-- The parameter of n bytes at byte b of the entry (44 to 63). -/
def Entry.param (e : Entry) (b n : Nat) : Nat := (e.params / 256 ^ (b - 44)) % 256 ^ n

/-- R82 byte 0. -/
def Entry.ctrl (e : Entry) : Nat := bit e.own * 128 + bit e.ind * 64 + bit e.push * 32 + e.ctrlRsv.toNat

/-- R82 byte 6. -/
def Entry.flags (e : Entry) : Nat := bit e.fua * 128 + bit e.nocache * 64 + bit e.consread * 32 + e.flagsRsv.toNat

/-- R515: bytes 0 to 7 of an entry with its opcode byte. -/
def Entry.low (e : Entry) (opc : Nat) : W64 :=
  BitVec.ofNat 64 (leNat ([BitVec.ofNat 8 e.ctrl, BitVec.ofNat 8 opc] ++ le 2 e.tag.toNat ++ le 2 e.vol.toNat ++
    [BitVec.ofNat 8 e.flags, e.pic]))

/-- The opcode list: the byte of each command. -/
def Op.code : Op → Nat
  | .nop => 0x00 | .read => 0x01 | .write => 0x02 | .flush => 0x03 | .flushMedia => 0x04 | .writeZeroes => 0x05
  | .deallocate => 0x06 | .verify => 0x07
  | .createRing => 0x10 | .deleteRing => 0x11 | .setRingWeight => 0x12 | .abort => 0x13 | .identify => 0x14
  | .getFeature => 0x15 | .setFeature => 0x16 | .setPowerState => 0x17 | .functionReinit => 0x18
  | .createPool => 0x20 | .destroyPool => 0x21 | .addMember => 0x22 | .retireMember => 0x23 | .replaceMember => 0x24
  | .createVolume => 0x25 | .deleteVolume => 0x26 | .resizeVolume => 0x27 | .reshapePlan => 0x28
  | .reshapeStart => 0x29 | .reshapeControl => 0x2A | .rebuildControl => 0x2B | .scrubControl => 0x2C
  | .poolStatus => 0x2D | .memberStatus => 0x2E | .lostBlockList => 0x2F
  | .createTenant => 0x30 | .deleteTenant => 0x31 | .bind => 0x32 | .loadKey => 0x33 | .eraseKey => 0x34
  | .setTenantQos => 0x35 | .meterConfig => 0x36 | .meterRead => 0x37
  | .reflectWrite => 0x40 | .reflectRead => 0x41 | .reflectAdd => 0x42 | .reflectCas => 0x43
  | .registerRegion => 0x44 | .revokeRegion => 0x45 | .endpointStatus => 0x46
  | .firmwareDownload => 0x50 | .firmwareActivate => 0x51 | .logFreeze => 0x52 | .logThaw => 0x53 | .logRead => 0x54
  | .logClearChallenge => 0x55 | .logClear => 0x56 | .healthReport => 0x57 | .selfTest => 0x58 | .engineSwap => 0x59
  | .dieRetire => 0x5A | .timeAnchor => 0x5B | .partnerControl => 0x5C | .tickBudgetReport => 0x5D

/-! ### Register writes -/

/-- R507: the value a 64-bit register holds after a write; narrower writes than 32 bits change nothing. -/
def Acc.merge (a : Acc) (old : W64) : W64 :=
  if a.width = 64 then a.value
  else if a.width = 32 then
    if a.upper then (a.value.extractLsb' 0 32) ++ (old.extractLsb' 0 32)
    else (old.extractLsb' 32 32) ++ (a.value.extractLsb' 0 32)
  else old

/-- R507: a write that is whole for a register whose writable fields lie in bits 31:0. -/
def Acc.whole (a : Acc) : Bool := a.width == 64 || (a.width == 32 && !a.upper)

/-- R507: whether the write reaches bits 31:0. -/
def Acc.low (a : Acc) : Bool := a.whole

/-- R507: whether the write reaches bits 63:32. -/
def Acc.high (a : Acc) : Bool := a.width == 64 || (a.width == 32 && a.upper)

/-- The bits hi down to lo of the value a write carries into a register that reads 0 elsewhere. -/
def Acc.field (a : Acc) (hi lo : Nat) : Nat := bits (a.merge 0).toNat hi lo

end Sys2Proof
end

