-- ==== Sys2Proof/Machine/Codes.lean ====
section
/-! DEFINITION. The codes the device computes: the field GF(2^8) and the parity code (R207 to R211), the checksums of
R121, R169 and R213, the block seal (R212 to R216), host protection information (R121 to R127). -/

namespace Sys2Proof.Machine

/-! ### GF(2^8) with the polynomial 11Dh (R207) -/

/-- R207: multiplication by the element 02h. -/
def gfDouble (a : Byte) : Byte := (a <<< 1) ^^^ (if a.getLsbD 7 then 0x1D#8 else 0#8)

/-- R207: the product of two elements, one bit of the second factor at a time. -/
def gfMulN : Nat → Byte → Byte → Byte
  | 0, _, _ => 0
  | n + 1, a, b => (if b.getLsbD 0 then a else 0#8) ^^^ gfMulN n (gfDouble a) (b >>> 1)

/-- R207: the product of two elements. -/
def gfMul (a b : Byte) : Byte := gfMulN 8 a b

/-- A power of an element. -/
def gfPow (a : Byte) : Nat → Byte
  | 0 => 1
  | n + 1 => gfMul a (gfPow a n)

/-- R207: the inverse of a nonzero element, its power 254. -/
def gfInv (a : Byte) : Byte := gfPow a 254

/-- R208, R210: the coefficient of parity row i and data index j. -/
def coef (i j : Nat) : Byte := if i = 0 then 1 else gfInv (BitVec.ofNat 8 (i ^^^ (j + 4)))

/-- R210: the generator row of position p. -/
def generatorRow (p k : Nat) : List Byte :=
  (List.range k).map fun j => if p < k then (if j = p then 1 else 0) else coef (p - k) j

/-- Scales a run of bytes. -/
def gfScale (c : Byte) (x : Bytes) : Bytes := x.map (gfMul c)

/-- Adds two runs of bytes; the longer one's end is kept. -/
def gfAdd : Bytes → Bytes → Bytes
  | [], y => y
  | x, [] => x
  | a :: x, b :: y => (a ^^^ b) :: gfAdd x y

/-- The sum of scaled runs. -/
def gfSum (l : List (Byte × Bytes)) : Bytes := l.foldl (fun acc (c, x) => gfAdd acc (gfScale c x)) []

/-- Puts row j in place of row i and the other way round. -/
def swapRows {α : Type} (l : List α) (i j : Nat) : List α :=
  match l[i]?, l[j]? with
  | some a, some b => (l.set i b).set j a
  | _, _ => l

/-- One column of Gauss-Jordan elimination. -/
def gfEliminate (c : Nat) (m : List (List Byte)) : List (List Byte) :=
  match (List.range m.length).find? fun r => decide (c ≤ r) && ((m[r]?).bind (·[c]?)).any (· != 0) with
  | none => m
  | some r =>
    let m := swapRows m c r
    match m[c]? with
    | none => m
    | some row =>
      let piv := gfScale (gfInv ((row[c]?).getD 1)) row
      m.zipIdx.map fun (x, i) => if i = c then piv else gfAdd x (gfScale ((x[c]?).getD 0) piv)

/-- R210: the inverse of a square matrix. -/
def gfInverse (m : List (List Byte)) : List (List Byte) :=
  let n := m.length
  let aug := m.zipIdx.map fun (row, i) => row ++ (List.range n).map fun j => if i = j then (1 : Byte) else 0
  ((List.range n).foldl (fun a c => gfEliminate c a) aug).map (·.drop n)

/-- R208, R211: parity row i over the coded regions of the data positions: the code output, or a copy when k = 1. -/
def parityRow (k i : Nat) (data : List Bytes) : Bytes :=
  if k = 1 then data.headD [] else gfSum (data.zipIdx.map fun (d, j) => (coef i j, d))

/-- Ascending insertion of a survivor by its position. -/
def insPos {α : Type} (x : Nat × α) : List (Nat × α) → List (Nat × α)
  | [] => [x]
  | y :: ys => if x.1 ≤ y.1 then x :: y :: ys else y :: insPos x ys

/-- The survivors in ascending position. -/
def sortPos {α : Type} (l : List (Nat × α)) : List (Nat × α) := l.foldr insPos []

/-- R210, R211: every position of a stripe from k surviving positions and their coded regions; none below k. -/
def reconstruct (k m : Nat) (survivors : List (Nat × Bytes)) : Option (List Bytes) :=
  let chosen := (sortPos survivors).take k
  if chosen.length < k then none
  else
    let data :=
      if k = 1 then [(chosen.head?.map (·.2)).getD []]
      else (gfInverse (chosen.map fun c => generatorRow c.1 k)).map fun row => gfSum (row.zip (chosen.map (·.2)))
    some (data ++ (List.range m).map fun i => parityRow k i data)

/-! ### Checksums -/

/-- One bit of a reflected checksum. -/
def crcStepR (poly c : Nat) : Nat := if c % 2 = 1 then (c / 2) ^^^ poly else c / 2

/-- n bits of a reflected checksum. -/
def crcBitsR (poly : Nat) : Nat → Nat → Nat
  | 0, c => c
  | n + 1, c => crcBitsR poly n (crcStepR poly c)

/-- A reflected checksum over bytes. -/
def crcR (poly init : Nat) (b : Bytes) : Nat := b.foldl (fun c x => crcBitsR poly 8 (c ^^^ x.toNat)) init

/-- R169: CRC-32C (Castagnoli, RFC 3720). -/
def crc32c (b : Bytes) : Nat := crcR 0x82F63B78 0xFFFFFFFF b ^^^ 0xFFFFFFFF

/-- R121, R213: the CRC-64 with polynomial AD93D23594C93659h, reflected. -/
def crc64 (b : Bytes) : Nat := crcR 0x9A6C9329AC4BC9B5 0xFFFFFFFFFFFFFFFF b ^^^ 0xFFFFFFFFFFFFFFFF

/-- One bit of a checksum of 16 bits that is not reflected. -/
def crcStep16 (c : Nat) : Nat := if c.testBit 15 then ((2 * c) % 65536) ^^^ 0x8BB7 else (2 * c) % 65536

/-- n bits of that checksum. -/
def crcBits16 : Nat → Nat → Nat
  | 0, c => c
  | n + 1, c => crcBits16 n (crcStep16 c)

/-- R121: the CRC-16 with polynomial 8BB7h. -/
def crc16 (b : Bytes) : Nat := b.foldl (fun c x => crcBits16 8 (c ^^^ (x.toNat * 256))) 0

/-- R121: a number as n bytes, most significant first. -/
def be (n v : Nat) : Bytes := (le n v).reverse

/-- R121: the number that bytes hold, most significant first. -/
def beNat (b : Bytes) : Nat := leNat b.reverse

/-! ### The block seal (R212 to R216) -/

end Sys2Proof.Machine

namespace Sys2Proof

open Machine

/-- R209: the coded region: the data bytes and metadata bytes 16 to 35. -/
def Sector.coded (s : Sector) : Bytes := s.data ++ slice s.md 16 20

/-- R212: WGEN. -/
def Sector.wgen (s : Sector) : Nat := fieldAt s.md 12 4

/-- R212: CGEN of a data block. -/
def Sector.cgen (s : Sector) : Nat := fieldAt s.md 32 4

/-- R212: HOSTPI of a data block. -/
def Sector.hostpi (s : Sector) : Bytes := slice s.md 16 16

end Sys2Proof

namespace Sys2Proof.Machine

/-- R214: the 20-byte record of a pool block's place. -/
def ptagRecord (uid : W64) (stripe pos off : Nat) : Bytes := le 8 uid.toNat ++ le 6 stripe ++ le 1 pos ++ [0] ++ le 4 off

/-- R214: the pool block tag. -/
def ptag (uid : W64) (stripe pos off : Nat) : Nat := crc32c (ptagRecord uid stripe pos off)

/-- R216: member-level protection information: guard, application tag 0000h (assumption 10), reference tag. -/
def mpi (e2e : Bool) (lba : Nat) (b : Bytes) : Bytes := if e2e then be 2 (crc16 b) ++ [0, 0] ++ be 4 lba else zeros 8

/-- R212, R213: a member block with its seal, from its coded region of b + 20 bytes. -/
def sealed (b : Nat) (uid : W64) (stripe pos off gen : Nat) (e2e : Bool) (lba : Nat) (coded : Bytes) : Sector :=
  let data := slice coded 0 b
  let mid := le 4 (ptag uid stripe pos off) ++ le 4 gen ++ slice coded b 20 ++ zeros 20
  let md := le 8 (crc64 (data ++ mid)) ++ mid
  { data := data, md := md ++ mpi e2e lba (data ++ md) }

/-- R215: the seal passes for the stripe, position and offset the block was read for. -/
def sealOk (uid : W64) (stripe pos off : Nat) (s : Sector) : Bool :=
  fieldAt s.md 0 8 == crc64 (s.data ++ slice s.md 8 48) && fieldAt s.md 8 4 == ptag uid stripe pos off

/-- R209, R212: the coded region of a data block. -/
def codedOf (data pi : Bytes) (gen : Nat) : Bytes := data ++ padTo 16 pi ++ le 4 gen

/-! ### Host protection information (R121 to R127) -/

/-- R491 PIF, R121: protection information bytes of a volume. -/
def piBytes (pif : Nat) : Nat := if pif = 1 then 8 else if pif = 2 then 16 else 0

/-- R121: bits of the reference tag. -/
def refBits (pif : Nat) : Nat := if pif = 1 then 32 else 48

/-- R121: the guard of a block. -/
def guardOf (pif : Nat) (data : Bytes) : Nat := if pif = 1 then crc16 data else crc64 data

/-- R121: the protection information with given tags. -/
def mkPi (pif app ref : Nat) (data : Bytes) : Bytes :=
  if pif = 1 then be 2 (guardOf pif data) ++ be 2 app ++ be 4 ref
  else if pif = 2 then be 8 (guardOf pif data) ++ be 2 app ++ be 6 ref else []

/-- R121: the guard field. -/
def piGuard (pif : Nat) (pi : Bytes) : Nat := beNat (slice pi 0 (if pif = 1 then 2 else 8))

/-- R121: the application tag field. -/
def piApp (pif : Nat) (pi : Bytes) : Nat := beNat (slice pi (if pif = 1 then 2 else 8) 2)

/-- R121: the reference tag field. -/
def piRef (pif : Nat) (pi : Bytes) : Nat := beNat (if pif = 1 then slice pi 4 4 else slice pi 10 6)

/-- R135: the protection information of a block that reads as zeros. -/
def zeroPi (pif : Nat) (data : Bytes) : Bytes := mkPi pif 0xFFFF (2 ^ refBits pif - 1) data

/-- R124: the reference tag of block i of a command. -/
def refTag (pitype pif lba ref i : Nat) : Nat :=
  (if pitype = 1 then lba + i else if pitype = 2 then ref + i else ref) % 2 ^ refBits pif

/-- R125: every check of the block is skipped. -/
def piSkipped (pitype pif : Nat) (pi : Bytes) : Bool :=
  piApp pif pi == 0xFFFF && (pitype != 3 || piRef pif pi == 2 ^ refBits pif - 1)

/-- R123 to R126, R130: the status of a block's protection checks, guard first, then application and reference tags. -/
def piCheck (pitype pif : Nat) (chkG chkA chkR : Bool) (app mask ref : Nat) (data pi : Bytes) : Option W16 :=
  if pif = 0 || piSkipped pitype pif pi then none
  else if chkG && piGuard pif pi != guardOf pif data then some 0x0202
  else if chkA && (piApp pif pi &&& mask) != (app &&& mask) then some 0x0203
  else if chkR && piRef pif pi != ref then some 0x0203
  else none

end Sys2Proof.Machine
end

