-- ==== Sys2Proof/Machine/Paths.lean ====
section
/-! DEFINITION. The Vaesh fabric: the links of each part, which of them are up, shortest paths (R31 to R34). -/

namespace Sys2Proof.Machine

/-- R32: the die and module at the other end of module m of die d; none for a module that is powered down. Which module
serves which link of the ring is the model's choice (assumption 42): 0 the next die, 1 the one before, 2 the chord. -/
def fabricPeer (p : Part) (d m : Nat) : Option (Nat × Nat) :=
  match p, m with
  | .zle4820, 0 | .zle4820, 1 | .zle4820, 2 => some (1 - d, m)
  | .zle4840, 0 => some ((d + 1) % 4, 1)
  | .zle4840, 1 => some ((d + 3) % 4, 0)
  | .zle4880, 0 => some ((d + 1) % 8, 1)
  | .zle4880, 1 => some ((d + 7) % 8, 0)
  | .zle4880, 2 => some ((d + 4) % 8, 2)
  | _, _ => none

/-- R34: the module's own link is marked up. -/
def moduleUp (s : State) (d m : Nat) : Bool := (s.die? d).any fun x => x.hw.fabric[m]? == some true

/-- R32, R34: the die that module m of die d reaches over a link that is up at both ends. -/
def fabricReach (s : State) (d m : Nat) : Option Nat :=
  match fabricPeer s.id.part d m with
  | some (e, n) => if moduleUp s d m && moduleUp s e n then some e else none
  | none => none

/-- The dies one hop from die d, in ascending order. -/
def fabricNext (s : State) (d : Nat) : List Nat := ((List.range 3).filterMap (fabricReach s d)).foldl (fun l e => insNat e l) []

/-- The dies within n hops of die d. -/
def fabricBall (s : State) (d : Nat) : Nat → List Nat
  | 0 => [d]
  | n + 1 => let l := fabricBall s d n; l.foldl (fun l e => (fabricNext s e).foldl (fun l f => insNat f l) l) l

/-- R33: the hop count between two dies over the links that are up; none when there is no path. -/
def fabricHops (s : State) (d e : Nat) : Option Nat := (List.range 8).find? fun n => (fabricBall s d n).contains e

/-- R33: the shortest path of n hops from die d to die e, its first hop to the lowest die index. -/
def fabricPathOf (s : State) : Nat → Nat → Nat → List Nat
  | 0, d, _ => [d]
  | n + 1, d, e =>
    match (fabricNext s d).find? fun f => fabricHops s f e == some n with
    | some f => d :: fabricPathOf s n f e
    | none => [d]

/-- R33: the dies that a packet from die d to die e passes, both ends included; empty when there is no path. -/
def fabricPath (s : State) (d e : Nat) : List Nat :=
  match fabricHops s d e with
  | some n => fabricPathOf s n d e
  | none => []

/-- R32: the modules of a die that its part uses. -/
def usedModules (p : Part) (d : Nat) : List Nat := (List.range 3).filter fun m => (fabricPeer p d m).isSome

/-- R33: a packet of die d reaches die e: its own, or one that a path leads to. -/
def joined (s : State) (d e : Nat) : Bool := d == e || (fabricHops s d e).isSome

end Sys2Proof.Machine
end

