-- ==== Sys2Proof/Machine/Fabric.lean ====
section
/-! DEFINITION. The Vaesh fabric: entries on their way, dies without a path (R33 to R36, R41, R357). -/

namespace Sys2Proof.Machine

/-- R34, R41: the forwarded entries that have not completed take the shortest paths that are left. -/
def reroute (s : State) : State :=
  let one (c : Cmd) : Cmd := match c.route.head?, c.route.getLast? with
    | some d, some e => { c with route := fabricPath s d e }
    | _, _ => c
  { s with cmds := s.cmds.map one }

/-- R35, R357 cause 04h: at the end of a tick, how many ticks in a row each die has had no path to a lead die in service. -/
def countCut (s : State) : State :=
  let one (x : DieSt × Nat) : DieSt :=
    let cut := x.1.alive && s.alive s.id.lead && (fabricHops s x.2 s.id.lead).isNone
    { x.1 with hw := { x.1.hw with cut := if cut then x.1.hw.cut + 1 else 0 } }
  { s with dies := s.dies.zipIdx.map one }

end Sys2Proof.Machine
end

