-- ==== Sys2Proof/Machine/Checks.lean ====
section
/-! DEFINITION. What the datapath checks compute: the internal CRC of a block, the residue lane of a GF engine, the inverse check of
an AES-XTS engine (R392 to R395). -/

namespace Sys2Proof.Machine

/-- R392: the bytes before a block's own that its internal CRC covers. -/
def originBytes : Origin → Bytes
  | .host vol lba => le 2 vol.toNat ++ zeros 2 ++ le 8 lba.toNat
  | .member uid stripe pos off => ptagRecord uid stripe pos off
  | .reflect src dst key gen offset => le 2 src.toNat ++ le 2 dst.toNat ++ le 2 key.toNat ++ le 1 gen.toNat ++ zeros 1 ++ le 8 offset.toNat

/-- R392: the internal CRC of a block. -/
def internalCrc (o : Origin) (data : Bytes) : Nat := crc32c (originBytes o ++ data)

/-- R392: a block passes the check of a consuming unit. -/
def xferOk (x : Xfer) : Bool := internalCrc x.origin x.data == x.crc

/-- R393: the fingerprint of a beat, the sum of α^j × X[j]. -/
def fingerprint (x : Bytes) : Byte := x.foldr (fun b f => b ^^^ gfDouble f) 0

/-- R393: the fingerprint that an output should have. -/
def expected (coefs : List Byte) (ins : List Bytes) : Byte :=
  (coefs.zip ins).foldl (fun f (c, x) => f ^^^ gfMul c (fingerprint x)) 0

/-- R393: every output of a beat has the fingerprint that its coefficients give. -/
def beatOk (b : GfBeat) : Bool := (b.outs.zip b.coefs).all fun (o, c) => fingerprint o == expected c b.ins

/-- R393: no beat of a pass fails. -/
def passOk (l : List GfBeat) : Bool := l.all beatOk

/-- R395: a block of an AES-XTS engine, run back through the inverse cipher with the same key and tweak, has the internal CRC of the
engine's input. -/
def aesRunOk (x : AesRun) : Bool :=
  let back := if x.enc then Config.decrypt x.key x.lba x.vol x.output else Config.encrypt x.key x.lba x.vol x.output
  internalCrc (.host x.vol x.lba) back == x.crc

end Sys2Proof.Machine
end

