-- ==== Sys2Proof/Machine/Flits.lean ====
section
/-! DEFINITION. The flits of the reflect link as bytes: their layout, checksum and forward error correction (R322, R325 to
R327, R329, R331). -/

namespace Sys2Proof.Machine

/-! ### The Reed-Solomon code (R327) -/

/-- R327: a polynomial times (x + r), coefficients from the highest power down. -/
def polyTimes (r : Byte) (p : Bytes) : Bytes := gfAdd (p ++ [0]) (0 :: gfScale r p)

/-- R327: the generator polynomial below its leading coefficient 1. -/
def rsGen : Bytes := ((List.range 4).foldl (fun p i => polyTimes (gfPow 2 i) p) [1]).drop 1

/-- R327: one byte of the message enters the division by the generator polynomial. -/
def rsStep (rem : Bytes) (m : Byte) : Bytes := gfAdd (rem.drop 1 ++ [0]) (gfScale (m ^^^ rem.headD 0) rsGen)

/-- R327: the four parity bytes of a message, highest power first. -/
def rsParity (msg : Bytes) : Bytes := msg.foldl rsStep (zeros 4)

/-- R327: a codeword, its first byte the highest power, evaluated at a point. -/
def polyAt (x : Byte) (w : Bytes) : Byte := w.foldl (fun a b => gfMul x a ^^^ b) 0

/-- R327: the values of a received word at the roots of the generator polynomial. -/
def syndromes (w : Bytes) : Bytes := (List.range 4).map fun i => polyAt (gfPow 2 i) w

/-- R327: the locator of byte i of a word: the power of x that it is the coefficient of, at α. -/
def locator (w : Bytes) (i : Nat) : Byte := gfPow 2 (w.length - 1 - i)

/-- R327: a byte of a word with an error taken out. -/
def mendByte (i : Nat) (e : Byte) (w : Bytes) : Bytes := w.modify i (· ^^^ e)

/-- R327: the single error that explains four syndromes: its place and value. -/
def oneError (w : Bytes) (a b c d : Byte) : Option (Nat × Byte) :=
  (List.range w.length).findSome? fun i =>
    let x := locator w i
    if a != 0 && gfMul a x == b && gfMul b x == c && gfMul c x == d then some (i, a) else none

/-- R327: the two places whose locators solve the quadratic of the syndromes, and the first one's value. -/
def twoErrors (w : Bytes) (a b c d : Byte) : Option (Nat × Nat × Byte) :=
  let det := gfMul a c ^^^ gfMul b b
  let sum := gfMul (gfMul a d ^^^ gfMul b c) (gfInv det)
  let prod := gfMul (gfMul b d ^^^ gfMul c c) (gfInv det)
  if det = 0 then none
  else match (List.range w.length).filter fun i => let x := locator w i; gfMul x x ^^^ gfMul sum x ^^^ prod == 0 with
    | [i, j] => some (i, j, gfMul (b ^^^ gfMul a (locator w j)) (gfInv (locator w i ^^^ locator w j)))
    | _ => none

/-- R327: a received codeword with up to two byte errors corrected; one with more stays as it is. -/
def rsCorrect (w : Bytes) : Bytes :=
  match syndromes w with
  | [a, b, c, d] =>
    if a = 0 ∧ b = 0 ∧ c = 0 ∧ d = 0 then w
    else match oneError w a b c d, twoErrors w a b c d with
      | some e, _ => mendByte e.1 e.2 w
      | none, some e => mendByte e.1 e.2.2 (mendByte e.2.1 (a ^^^ e.2.2) w)
      | none, none => w
  | _ => w

/-- R327: the bytes at even places, from the first. -/
def evens : Bytes → Bytes
  | [] => []
  | [a] => [a]
  | a :: _ :: r => a :: evens r

/-- R327: two codewords, byte by byte in turn. -/
def weave : Bytes → Bytes → Bytes
  | a :: x, b :: y => a :: b :: weave x y
  | x, [] => x
  | [], y => y

/-! ### Flits (R325, R326) -/

/-- R325, R327: a flit from its header and payload: CRC over bytes 0 to 243, FEC over bytes 0 to 247. -/
def flitOf (hdr : Nat) (payload : Bytes) : Bytes :=
  let body := le 4 hdr ++ padTo 240 payload
  let msg := body ++ le 4 (crc32c body)
  msg ++ weave (rsParity (evens msg)) (rsParity (evens (msg.drop 1)))

/-- R326: HDR; FSEQ is 0 in a flit that is no payload flit. -/
def flitHdr (type : Nat) (f : Flit) : Nat :=
  type * 2 ^ 30 + (if type = 1 then f.fseq.toNat else 0) * 2 ^ 18 + f.ackseq.toNat * 2 ^ 6 + bit f.nak * 32 + f.cred.toNat

/-- R327: the bytes of a received flit after correction. -/
def flitFixed (raw : Bytes) : Bytes := weave (rsCorrect (evens raw)) (rsCorrect (evens (raw.drop 1)))

/-- R325 to R327: a received flit: corrected, its CRC checked, its header read. -/
def readFlit (raw : Bytes) : Flit :=
  let b := flitFixed raw
  let h := fieldAt b 0 4
  { idle := bits h 31 30 != 1, fseq := BitVec.ofNat 12 (bits h 29 18), ackseq := BitVec.ofNat 12 (bits h 17 6), nak := bitAt h 5,
    cred := BitVec.ofNat 5 (bits h 4 0), crcOk := fieldAt b 244 4 == crc32c (slice b 0 244) }

/-! ### What the flits carry -/

/-- R322: a segment as bytes. -/
def segBytes (g : Seg) : Bytes :=
  [g.op, BitVec.ofNat 8 (bit g.flagged * 128 + bit g.resp * 64 + bit g.notify * 32 + bit g.noretx * 16)] ++
    le 2 g.src.toNat ++ le 2 g.dst.toNat ++ le 2 g.segno ++ le 4 g.msgno.toNat ++ le 2 g.nseg ++ le 2 g.key.toNat ++
    le 1 g.gen.toNat ++ [0] ++ le 2 g.payload.length ++ le 8 g.offset.toNat ++ le 4 g.aux.toNat ++ g.payload

/-- R326, R328: the header of the next flit of a link; credits go back 8 payload flits at a time. -/
def LinkSt.header (k : LinkSt) (idle : Bool) : Flit :=
  { idle := idle, fseq := k.txNext, ackseq := k.rxNext - 1, nak := k.nakDue, cred := BitVec.ofNat 5 (min 31 (k.owed / 8)), crcOk := true }

/-- R328, R331: a link after the header of its next flit has gone out. -/
def LinkSt.sentHeader (k : LinkSt) : LinkSt :=
  { k with nakDue := false, owed := k.owed - 8 * min 31 (k.owed / 8), naks := k.naks + bit k.nakDue, count := k.count + 1 }

/-- R326, R328, R331: the header of a control flit: what has been received in order, and neither a NAK nor credits, which every lane
of a training link would repeat: DESIGN CHOICE (assumption 43). -/
def LinkSt.ctlHeader (k : LinkSt) : Flit := { k.header true with nak := false, cred := 0 }

/-- R329: a link after a control flit has gone out. -/
def LinkSt.sentCtl (k : LinkSt) : LinkSt := { k with count := k.count + 1 }

/-! ### Lanes (R329) -/

/-- R329: the bytes of a flit that travel on lane l of w. -/
def laneBytes (w l : Nat) (raw : Bytes) : Bytes := (raw.zipIdx.filter fun x => x.2 % w == l).map (·.1)

/-- R329: one step of a lane's LFSR, x^23 + x^21 + x^16 + x^8 + x^5 + x^2 + 1. That it is the Galois form, whose top bit leaves first, is
a DESIGN CHOICE: R329 gives the polynomial alone (assumption 43). -/
def lfsrStep (x : BitVec 23) : BitVec 23 := (x <<< 1) ^^^ (if x.getLsbD 22 then 0x210125 else 0)

/-- R329: the LFSR after n steps. -/
def lfsrAfter : Nat → BitVec 23 → BitVec 23
  | 0, x => x
  | n + 1, x => lfsrAfter n (lfsrStep x)

/-- R329: the next eight bits of the LFSR as a byte, the first as its least significant bit (DESIGN CHOICE, assumption 43). -/
def lfsrByte (x : BitVec 23) : Byte :=
  BitVec.ofNat 8 (((List.range 8).map fun i => bit ((lfsrAfter i x).getLsbD 22) * 2 ^ i).sum)

/-- R329: bytes with the LFSR added. -/
def scramble : BitVec 23 → Bytes → Bytes
  | _, [] => []
  | x, b :: bs => (b ^^^ lfsrByte x) :: scramble (lfsrAfter 8 x) bs

/-- R329: the seed of lane l. -/
def lfsrSeed (l : Nat) : BitVec 23 := BitVec.ofNat 23 ((l + 1) * 0x2A5A5)

/-- R329: a striped flit on the lanes of a link of width w, the n-th since ACTIVE; while the link trains its lanes are not scrambled:
DESIGN CHOICE, R329 counts from ACTIVE on (assumption 43). -/
def onLanes (k : LinkSt) (w : Nat) (raw : Bytes) : List Bytes :=
  (List.range w).map fun l =>
    let b := laneBytes w l raw
    if k.state = .active then scramble (lfsrAfter (8 * (k.count % 64 * (256 / w))) (lfsrSeed l)) b else b

/-! ### Sending (R328, R329) -/

/-- R329: payload flits of a segment. -/
def flitsFor (g : Seg) : Nat := (32 + g.payload.length + 239) / 240

/-- R326, R329: one flit leaves over a die's link. -/
def putFlit (d : Nat) (raw : LinkSt → Bytes) (s : State) : State :=
  match s.die? d with
  | none => s
  | some x => (s.updLink d LinkSt.sentHeader).emit (.flit d (onLanes x.link x.link.width (raw x.link)))

/-- R328: a link may send a new payload flit: it is ACTIVE, fewer than 2,048 flits are kept, and there is a credit. -/
def LinkSt.clear (k : LinkSt) : Bool := k.state == .active && decide (k.kept.length < 2048) && decide (0 < k.credits)

/-- R180, R348: after PFAIL_N has asserted a link sends to the end of tick t + 2, priorities 1 to 4 alone. -/
def mayPump (s : State) (p : Nat) : Bool := s.run.pfail.all fun t => decide (s.clk.tick ≤ t + 2) && decide (p < 5)

/-- R328, R348: up to n of the flits that wait go out, and are kept. A segment of which a flit has gone is not interrupted. -/
def pumpLink (d : Nat) : Nat → State → State
  | 0, s => s
  | n + 1, s =>
    match s.die? d with
    | none => s
    | some x =>
      match x.link.queue with
      | (p, b :: bs) :: q =>
        if !x.link.clear || !mayPump s p then s
        else pumpLink d n ((putFlit d (fun k => flitOf (flitHdr 1 (k.header false)) b) s).updLink d fun k =>
          { k with queue := if bs.isEmpty then q else (0, bs) :: q, txNext := k.txNext + 1, kept := k.kept ++ [b], credits := k.credits - 1 })
      | _ => s

/-- R328: what waits goes out as far as the link allows. -/
def drainLink (d : Nat) (s : State) : State :=
  match s.die? d with
  | some x => pumpLink d ((x.link.queue.map (·.2.length)).sum) s
  | none => s

/-- R348: a segment joins those that wait, behind every one of its priority. -/
def joinQueue (p : Nat) (l : List Bytes) : List (Nat × List Bytes) → List (Nat × List Bytes)
  | [] => [(p, l)]
  | y :: ys => if y.1 ≤ p then y :: joinQueue p l ys else (p, l) :: y :: ys

/-- R326, R328, R329, R348: a link sends a run of bytes in n payload flits, the last one filled with zeros, with a priority. -/
def sendFlits (d p : Nat) (b : Bytes) (n : Nat) (s : State) : State :=
  drainLink d (s.updLink d fun k => { k with queue := joinQueue p ((List.range n).map fun i => padTo 240 (slice b (240 * i) 240)) k.queue })

/-- R328: the kept flits from a sequence number on are sent again. -/
def replay (d : Nat) (bs : List Bytes) (seq : BitVec 12) (s : State) : State :=
  (bs.zipIdx).foldl (fun s x => putFlit d (fun k => flitOf (flitHdr 1 { k.header false with fseq := seq + BitVec.ofNat 12 x.2 }) x.1) s) s

/-- R328, R329: an idle flit, which carries what the header says and nothing else. -/
def sendIdle (d : Nat) (s : State) : State := putFlit d (fun k => flitOf (flitHdr 0 (k.header true)) []) s

/-- R331: a control flit from the fields of its payload; every other byte of the payload is 0. -/
def ctlFlit (sub : Nat) (c : Ctl) (hdr : Flit) : Bytes :=
  flitOf (flitHdr 2 hdr) ([BitVec.ofNat 8 sub, c.lane] ++ le 1 c.pkgid ++ le 1 c.die ++ le 1 c.width ++ [c.version] ++ le 2 c.credits.toNat)

/-- R331: a received control flit of a SUB whose CRC passes. -/
def ctlOf (sub : Nat) (raw : Bytes) : Option Ctl :=
  let b := flitFixed raw
  if (readFlit raw).crcOk && bits (fieldAt b 0 4) 31 30 == 2 && fieldAt b 4 1 == sub then
    some { lane := BitVec.ofNat 8 (fieldAt b 5 1), pkgid := fieldAt b 6 1, die := fieldAt b 7 1, width := fieldAt b 8 1,
           version := BitVec.ofNat 8 (fieldAt b 9 1), credits := BitVec.ofNat 16 (fieldAt b 10 2) }
  else none

/-- R331: the fields of a control flit that this end sends. -/
def ctlHere (s : State) (d : Nat) (lane : BitVec 8) (w : Nat) : Ctl :=
  { lane := lane, pkgid := s.id.pkgid, die := d, width := Nat.log2 w, version := 1, credits := 512 }

/-- R330, R331: this end sends a control flit, striped over w lanes. -/
def sendCtl (d sub w : Nat) (s : State) : State :=
  match s.die? d with
  | none => s
  | some x =>
    (s.updLink d LinkSt.sentCtl).emit (.flit d (onLanes x.link w (ctlFlit sub (ctlHere s d 0xFF w) x.link.ctlHeader)))

/-- R330, R331: each healthy lane sends its own ALIGN flit, whole and not striped. -/
def sendAlign (d w : Nat) (s : State) : State :=
  match s.die? d with
  | none => s
  | some x =>
    let one (l : Nat) : Bytes :=
      if x.hw.lanesRetired.contains (40 + l) then [] else ctlFlit 1 (ctlHere s d (BitVec.ofNat 8 l) w) x.link.ctlHeader
    (s.updLink d LinkSt.sentCtl).emit (.flit d ((List.range 16).map one))

end Sys2Proof.Machine
end

