-- ==== Sys2Proof/Machine/Yield.lean ====
section
/-! DEFINITION. Giving up control: the yield of a die and of the package, HALTED, the swap of a core, engines
leaving service (R18 to R24, R35 to R37, R110, R356, R391, R514, R515). -/

namespace Sys2Proof.Machine

/-! ### Reflect addresses and the device's own segments -/

/-- R319: an endpoint address. -/
def epAddr (pkg die ep : Nat) : W16 := BitVec.ofNat 16 (pkg * 32768 + die * 4096 + ep)

/-- R319: die of an endpoint address. -/
def epDie (a : W16) : Nat := bits a.toNat 14 12

/-- R319: endpoint number of an endpoint address. -/
def epNum (a : W16) : Nat := bits a.toNat 5 0

/-- R319: package of an endpoint address. -/
def epPkg (a : W16) : Nat := bits a.toNat 15 15

/-- R6: the other package of a pair. -/
def State.partner (s : State) : Nat := 1 - s.id.pkgid

/-- R321: the next message number of a die. -/
def nextMsg (d : Nat) (s : State) : W32 × State :=
  match s.die? d with
  | some x => (x.rfl.msgno, s.updRfl d fun q => { q with msgno := q.msgno + 1 })
  | none => (0, s)

/-- R33, R324: the link that a segment of die d for the partner leaves over: that of the destination's die index, or the lowest-indexed
link that is up, of the dies that the fabric leads to. -/
def linkFor (d : Nat) (dst : W16) (s : State) : Option Nat :=
  let isUp (e : Nat) : Bool := joined s d e && (s.die? e).any fun x => x.alive && (x.link.state == .active || x.link.state == .recover)
  if isUp (epDie dst) then some (epDie dst) else (List.range s.dies.length).find? isUp

/-- R348: the priority of a segment that die d sends: heartbeats and yields, answers, retransmissions, what is mirrored, then other work
by its class; a segment that serves no command of this package goes with class 2. That, and that a unit's data goes with its UNIT COMMIT,
one message, are DESIGN CHOICES (assumption 43). -/
def segPriority (s : State) (d : Nat) (again : Bool) (g : Seg) : Nat :=
  let cmd := (s.refl.msgs.find? fun m => m.die == d && m.msgno == g.msgno && m.isResp == g.resp && m.src == g.src).bind (·.cmd)
  if epNum g.src = 0 ∧ g.key = 0xFFFE then 1
  else if g.op = 8 ∨ g.op = 9 then 2
  else if again then 3
  else if epNum g.src = 0 ∧ g.key = 0xFFFD then 4
  else 5 + (((cmd.bind s.cmd?).map (·.cls)).getD 2)

/-- R33, R323, R324, R328, R332, R348: die d sends a segment, for the first time or again: one for the partner as flits of a link that is
up, one for its own package over the fabric, after PFAIL_N of priority 1 to 4 alone; without a link or a path it is not sent. One for
its own package leaves in its step: DESIGN CHOICE, the order of R348 within a tick is that of the rows that take it (assumption 43). -/
def sendSegAs (again : Bool) (d : Nat) (g : Seg) (s : State) : State :=
  let p := segPriority s d again g
  if epPkg g.dst = s.id.pkgid then (if joined s d (epDie g.dst) && mayPump s p then s.emit (.segment d g) else s)
  else match linkFor d g.dst s with
    | none => s
    | some k => (sendFlits k p (segBytes g) (flitsFor g) s).emit (.segment d g)

/-- R323: die d sends a segment for the first time. -/
def sendSeg (d : Nat) (g : Seg) (s : State) : State := sendSegAs false d g s

/-- R321: outstanding messages of a die, of one pair of endpoints or of all, those of its system endpoint among them. -/
def outstanding (s : State) (d : Nat) (pair : Option (W16 × W16)) : Nat :=
  let of (m : Msg) : Bool := !m.isResp && pair.all fun p => m.src == p.1 && m.dst == p.2
  (s.refl.msgs.filter fun m => m.die == d && of m).length + ((s.die? d).map fun x => (x.rfl.sys.filter of).length).getD 0

/-- R321: one more message of a pair of endpoints would exceed a limit. -/
def msgsFull (s : State) (d : Nat) (src dst : W16) : Bool :=
  decide (64 ≤ outstanding s d (some (src, dst))) || decide (4096 ≤ outstanding s d none)

/-- R333: a message of the system endpoint goes out, and is outstanding from now on. -/
def sendSys (d : Nat) (x : Msg) (s : State) : State :=
  x.segs.foldl (fun s g => sendSeg d g s) (s.updRfl d fun q => { q with sys := q.sys ++ [{ x with first := s.clk.tick }] })

/-- R321, R333, R334, R348: a message of the system endpoint, outstanding until it is acknowledged; one that would exceed a limit
waits, behind those to the same die that wait already. Yield and rejoin records do not wait, which R321 does not say: DESIGN CHOICE
(assumption 43). -/
def postSystem (d : Nat) (m : W32) (segs : List Seg) (s : State) : State :=
  let dst := (segs.head?.map (·.dst)).getD 0
  let x : Msg := { die := d, msgno := m, cmd := none, isResp := false, op := 1, src := epAddr s.id.pkgid d 0, dst := dst, segs := segs,
                   acked := [], first := s.clk.tick, again := [], resp := [], respN := 0, answered := true, result := 0 }
  let urgent := segs.any fun g => g.key == 0xFFFE
  if !urgent && (msgsFull s d x.src dst || (s.die? d).any fun y => y.rfl.sysWait.any (·.dst == dst)) then
    s.updRfl d fun q => { q with sysWait := q.sysWait ++ [x] }
  else sendSys d x s

/-- R321, R333: a message of a die's system endpoint is not over: it is outstanding, or waits for the limits. -/
def openSys (s : State) (d : Nat) (n : W32) : Bool :=
  (s.die? d).any fun x => x.rfl.sys.any (fun q => q.msgno == n) || x.rfl.sysWait.any fun q => q.msgno == n

/-- R321: the messages of a die's system endpoint that waited go out as far as the limits allow, in order. -/
def pumpSystem (d : Nat) (s : State) : State :=
  let l := ((s.die? d).map (·.rfl.sysWait)).getD []
  l.foldl (fun s x =>
    if msgsFull s d x.src x.dst || (s.die? d).any fun y => y.rfl.sysWait.any (·.dst == x.dst) then
      s.updRfl d fun q => { q with sysWait := q.sysWait ++ [x] }
    else sendSys d x s) (s.updRfl d fun q => { q with sysWait := [] })

/-- R348: one single-segment system-endpoint message from die d to die e of package p; one with NORETX is not acknowledged. -/
def sendSystem (d p e op key off : Nat) (aux : W32) (noretx : Bool) (data : Bytes) (s : State) : State :=
  let (m, s) := nextMsg d s
  let g : Seg := { op := BitVec.ofNat 8 op, flagged := true, noretx := noretx, src := epAddr s.id.pkgid d 0,
                       dst := epAddr p e 0, msgno := m, key := BitVec.ofNat 16 key, gen := 1,
                       offset := BitVec.ofNat 64 off, aux := aux, payload := data }
  if noretx then sendSeg d g s else postSystem d m [g] s

/-- R358: bytes 128 to 147 of the heartbeat region. -/
def yieldBytes (scope die cause time rdelay : Nat) : Bytes :=
  le 1 scope ++ le 1 die ++ le 2 cause ++ le 4 0 ++ le 8 time ++ le 4 rdelay

/-- R356: the yield record to the partner's die with the same index. -/
def sendYield (scope d die cause : Nat) (s : State) : State :=
  if s.id.inPair then sendSystem d s.partner d 1 0xFFFE 128 0 false (yieldBytes scope die cause s.clk.optime 0) s else s

/-- R33, R321, R356: the yield record in the heartbeat regions of the other dies of the package that a path leads to, each under a
message number of its own. -/
def noteYield (scope d cause : Nat) (s : State) : State :=
  let hears (x : DieSt) (e : Nat) : Bool := e != d && x.alive && (fabricHops s d e).isSome
  let n := (s.dies.zipIdx.filter fun x => hears x.1 x.2).length
  { s with dies := s.dies.zipIdx.map fun (x, e) =>
      if e = d then { x with rfl := { x.rfl with msgno := x.rfl.msgno + BitVec.ofNat 32 n } }
      else if hears x e then { x with rfl := { x.rfl with yrec := some ⟨scope, d, cause, s.clk.optime, 0⟩ } } else x }

/-- R518: the latest yield seen by the package. -/
def setYieldReg (scope d cause : Nat) (s : State) : State :=
  { s with reg := { s.reg with yscope := scope, ydie := d, yc := cause, ytime := s.clk.optime } }

/-! ### HALTED -/

/-- What GCTL_HALT0 to GCTL_HALT2 say of an entry into HALTED (R515). -/
structure HaltInfo where
  mcause : Nat := 0
  owner : Nat := 0
  ringId : Nat := 0
  index : Nat := 0
  halt1 : W64 := 0
  halt2 : W64 := 0
  deriving DecidableEq, Repr

/-- R110: RSTATUS.STATE in HALTED, from tick t + 1 on. -/
def haltRing (r : Ring) : Ring := { r with state := .halted }

/-- R110, R111, R356, R515: the entry into HALTED: holds and drive side down, halt registers, FAULT_N; the messages of the
tick are sent. The rings read HALTED from the next tick on. -/
def enterHalt (i : HaltInfo) (d cause : Nat) (s0 : State) : State :=
  let s := sendMessages s0
  { s with
    dies := s.dies.map fun x => { x with hold := false }
    run := { s.run with halted := true, faultN := insNat 0 s.run.faultN }
    pair := { s.pair with yielded := true, state := .halted, since := s.clk.tick % (top48 + 1), contest := none, acquiring := false, awaiting := false,
                          rejoinAt := none, handing := none, leaving := none, kerf := none, kerfMax := 0, kerfPools := [] }
    reg := { s.reg with mcause := i.mcause, ycause := cause, owner := i.owner, ringId := i.ringId, index := i.index,
                        halt1 := i.halt1, halt2 := i.halt2, haltTime := s.clk.optime, yscope := 2, ydie := d,
                        yc := cause, ytime := s.clk.optime } }

/-- R356, R314: the yield of the package, decided by die d; it ends a freeze of the recorder. -/
def packageYield (d cause : Nat) (i : HaltInfo) (s : State) : State :=
  if s.run.halted then s
  else
    let s := raisePkg 0x0043 { item := d, cause := cause } s
    let s := ladder 3 0x0043 s.id.lead s
    let s := s.aliveDies.foldl (fun s e => sendYield 2 e e cause s) s
    let s := if s.log.frozen then thaw s else s
    enterHalt i d cause (noteYield 2 d cause s)

/-- R110: a malformed entry found by die d halts the package. -/
def malformed (d : Nat) (i : HaltInfo) (s : State) : State :=
  if s.run.halted then s
  else
    let det : Detail := { ring := i.ringId, item := i.index, cause := i.mcause, arg0 := i.halt1.toNat, arg1 := i.halt2.toNat, arg2 := i.owner }
    let s := raiseDirect d 0x4001 det s
    packageYield d 0x08 i (ladder 3 0x4001 d s)

/-! ### The yield of a die -/

/-- R364: an up path from a die to every member of a pool that has not failed. -/
def pathsToAll (s : State) (p : Pool) (d : Nat) : Bool :=
  p.members.all fun m => m.state == .failed || (s.ns? m.ns).any fun n => n.reaches d

/-- R357 cause 0Ah, R364: a pool has a die that can stand in for its home die: its shadow die, or another one with a path to every
member; the figures of R364 are looked at when the pool passes to it. -/
def standIn (s : State) (p : Pool) : Bool := p.shadow.any s.alive || s.aliveDies.any fun d => d != p.home && pathsToAll s p d

/-- R355: the drive-side transmitters of a die are idle: it has no path to a member any more. -/
def fence (d : Nat) (s : State) : State := { s with nss := s.nss.map fun n => { n with up := n.up.filter fun p => pathOn p != d } }

/-- R352: a kerf of some pools runs from its fault tick; the bounds of overlapping faults add. -/
def startKerf (fault bound : Nat) (pools : List Nat) (s : State) : State :=
  { s with pair := { s.pair with kerf := s.pair.kerf.orElse fun _ => some fault, kerfMax := s.pair.kerfMax + bound,
                                 kerfPools := pools.foldl (fun l n => insNat n l) s.pair.kerfPools } }

/-- R352: the kerf of the pools of a die that is gone begins, unless it runs already; a die without pools leaves no gap. -/
def openKerf (fault bound : Nat) (pools : List Nat) (s : State) : State :=
  if (pools.filter fun n => !(s.pair.kerf.isSome && s.pair.kerfPools.contains n)).isEmpty then s else startKerf fault bound pools s

/-- Pools that a die homes and the package serves. -/
def poolsOn (s : State) (d : Nat) : List Nat := (s.pools.filter fun p => p.home == d && !p.away).map (·.num)

/-- R355, R356: the yield of die d; the package yields when no die is left (cause 09h) or a pool has no stand-in (0Ah). -/
def dieYield (d cause : Nat) (s : State) : State :=
  if !s.alive d || s.run.halted then s
  else
    let s := raise d 0x0043 { cause := cause } s
    let s := noteYield 1 d cause (sendYield 1 d d cause s)
    let s := setYieldReg 1 d cause s
    let s := fence d (s.updDie d fun x =>
      { x with healthy := false, retired := true, retiring := false, yielded := some cause, hold := false, linkUp := false })
    let s := { s with cmds := s.cmds.filter fun c => c.ref.die != d }
    let s := openKerf s.clk.tick 5 (poolsOn s d) s
    if s.aliveDies.isEmpty then packageYield d 0x09 {} s
    else if s.pools.any fun p => p.home == d && !p.away && !standIn s p then packageYield d 0x0A {} s
    else s

/-! ### Cores and engines -/

/-- R352, R518: a kerf of n ticks counted. -/
def countKerf (n : Nat) (s : State) : State :=
  { s with pair := { s.pair with kerfs := satAdd top32 s.pair.kerfs 1, lastKerf := min top32 n,
                                 longKerf := max s.pair.longKerf (min top32 n) } }

/-- R352: a kerf within a step: its length, up to its bound, is not stated (assumption 4). -/
def kerfBrief (bound : Nat) (s : State) : State := countKerf (Config.freeNat s.free % (bound + 1)) s.fresh.2

/-- R60: the ticks of the brief kerf that a state is about to count. -/
def briefLength (bound : Nat) (s : State) : Nat := Config.freeNat s.free % (bound + 1)

/-- R19, R352, R353: the kerf of a core swap; which commands' pools had work on the core is not stated, so each command's
LATE is free (assumption 4). -/
def kerfSwap (s : State) : State :=
  let n := briefLength 1 { s with free := s.free + s.cmds.length }
  let late (x : Cmd × Nat) : Cmd :=
    if Config.freeBool (s.free + x.2) then { x.1 with late := true, outside := true, ext := x.1.ext + n } else x.1
  kerfBrief 1 { s with cmds := s.cmds.zipIdx.map late, free := s.free + s.cmds.length }

/-- R384: healthy spare cores of a die. -/
def HwSt.spares (h : HwSt) : List Nat := (List.range h.cores.length).filter fun i => h.cores[i]? == some 9

/-- R19, R21, R360: core i of die d failed: the lowest-indexed healthy spare takes its job, or the die yields. -/
def coreFail (d i : Nat) (s : State) : State :=
  match s.die? d with
  | none => s
  | some x =>
    match x.hw.cores[i]? with
    | none => s
    | some job =>
      if job = 0x0F || !x.alive then s
      else
        let s := s.updHw d fun h => { h with cores := h.cores.set i 0x0F }
        if job = 9 then
          let s := raise d 0x0041 { unit := i } (s.updHw d fun h => { h with lbistFail := satAdd top32 h.lbistFail 1 })
          if x.hw.spares.length ≤ 1 then raise d 0x0042 {} s else s
        else
          match x.hw.spares with
          | j :: _ => raise d 0x0040 { unit := i, arg0 := j } (kerfSwap (s.updHw d fun h => { h with cores := h.cores.set j job }))
          | [] => dieYield d 0x01 s

/-- R20: several cores of one die failed in one tick, the lowest index first. -/
def coresFail (d : Nat) (is : List Nat) (s : State) : State :=
  (is.foldl (fun l i => insNat i l) []).foldl (fun s i => coreFail d i s) s

/-- R24, R391: GF engine u of die d out of service; with none left the die yields with cause 02h. -/
def gfOut (d u : Nat) (s : State) : State :=
  let s := s.updHw d fun h => { h with gf := h.gf.set u false }
  if (s.die? d).any fun x => !(x.hw.gf.any id) then dieYield d 0x02 s else s

/-- R391, R395: AES-XTS engine u of die d out of service; with none left the die yields with cause 06h. -/
def aesOut (d u : Nat) (s : State) : State :=
  let s := s.updHw d fun h => { h with aes := h.aes.set u false }
  if (s.die? d).any fun x => !(x.hw.aes.any id) then dieYield d 0x06 s else s

/-- R391: mover u of die d out of service; with none left the die yields with cause 06h. -/
def moverOut (d u : Nat) (s : State) : State :=
  let s := s.updHw d fun h => { h with movers := h.movers.set u false }
  if (s.die? d).any fun x => !(x.hw.movers.any id) then dieYield d 0x06 s else s

/-- R518 SAFE_DCOUNT: n more faults found by mechanism Di on a die. -/
def countFaults (d i n : Nat) (s : State) : State :=
  s.updHw d fun h => { h with dcount := h.dcount.modify (i - 1) fun k => satAdd top32 k n }

/-- R518: one more fault found by mechanism Di on a die. -/
def countFault (d i : Nat) (s : State) : State := countFaults d i 1 s

/-! ### Kerfs -/

/-- R60, R353: the commands that a gap of the whole package held carry LATE, and their bounds are longer by n ticks, as are those of the
entries that the rings still hold. -/
def markLate (n : Nat) (p : Cmd → Bool) (s : State) : State :=
  { s with cmds := updIf p (fun c => { c with late := true, outside := true, ext := c.ext + n }) s.cmds,
           rings := s.rings.map fun r => { r with exts := r.exts.map (· + n) } }

/-- Commands for the volumes of a pool. -/
def forPool (s : State) (num : Nat) (c : Cmd) : Bool := decide (c.op.code < 8) && (s.vol? c.entry.vol.toNat).any fun v => v.pool == num

/-- R138: a FLUSH or FLUSH MEDIA with VOL FFFFh, whose scope holds a volume of a pool. -/
def flushesAll (s : State) (num : Nat) (c : Cmd) : Bool :=
  (c.op == .flush || c.op == .flushMedia) && c.entry.vol == 0xFFFF &&
    s.vols.any fun v => v.pool == num && v.deleting.isNone && (c.tenant.isNone || v.tenant == c.tenant)

/-- R353: a command that a gap in the service of a pool affects. -/
def touchesPool (s : State) (num : Nat) (c : Cmd) : Bool := forPool s num c || flushesAll s num c

/-- R60: the kerf in progress affects a pool of a command. -/
def inKerf (s : State) (c : Cmd) : Bool := s.pair.kerf.isSome && s.pair.kerfPools.any fun n => touchesPool s n c

/-- R60, R352: the ticks by which the kerf in progress makes each bound longer so far, up to its own bound. -/
def kerfSoFar (s : State) : Nat := (s.pair.kerf.map fun f => min s.pair.kerfMax (s.clk.tick - f)).getD 0

/-- R60: the oldest doorbell of the entries that rings hold. -/
def oldestBell (s : State) : Option Nat := (s.rings.flatMap (·.bells)).min?

/-- R60, R353: a gap of n ticks is over for some pools: the commands held for them carry LATE and their bounds are longer by it, as those
of the entries for them will be that rings still hold. -/
def gapOver (nums : List Nat) (n : Nat) (s : State) : State :=
  let held (c : Cmd) : Bool := nums.any fun k => touchesPool s k c
  let log := (nums, s.clk.tick, n) :: s.pair.kerfLog
  { s with cmds := updIf held (fun c => { c with late := true, outside := true, ext := c.ext + n }) s.cmds,
           pair := { s.pair with kerfLog := log.filter fun e => (oldestBell s).any fun b => decide (b ≤ e.2.1) } }

/-- R352, R353: the kerf in progress ends; the commands held for the pools are marked LATE. -/
def kerfEnd (nums : List Nat) (s : State) : State :=
  match s.pair.kerf with
  | none => { s with pair := { s.pair with kerfPools := [] } }
  | some f => gapOver nums (kerfSoFar s) (countKerf (s.clk.tick - f) { s with pair := { s.pair with kerf := none, kerfMax := 0, kerfPools := [] } })

/-- R352, R353: the kerf is over for some pools. While another fault keeps other pools, it goes on for those. -/
def kerfOver (nums : List Nat) (s : State) : State :=
  let left := s.pair.kerfPools.filter fun n => !nums.contains n && (s.pool? n).isSome
  if left.isEmpty then kerfEnd nums s
  else gapOver nums (kerfSoFar s) { s with pair := { s.pair with kerfPools := left } }

/-! ### Self-tests asked for (R503) -/

/-- R179, R503: a pass of a test on a die is done, for a holder where the test has holders: the SELF TEST that has no pass left
completes with the faults found. While power fails no such record is written, and the command waits for another pass. -/
def finishTest (test d : Nat) (holder : Option Nat) (faults : Nat) (s : State) : State :=
  if !s.records then s else
  let hit (x : Test) : Bool := x.test == test && x.die == d
  let step (x : Test) : Test := if hit x then { x with left := x.left.filter fun h => some h != holder } else x
  let full (x : Test) : Bool := hit x && x.left.isEmpty
  let tests := s.tests.map step
  let ended := (tests.filter full).map (·.cmd)
  let left := tests.filter fun x => !full x
  let s1 := { s with tests := left }
  let add (c : Cmd) : Cmd := { c with aux := c.aux + faults }
  let s2 := ((s.tests.filter hit).map (·.cmd)).eraseDups.foldl (fun s c => s.updCmd c add) s1
  ended.eraseDups.foldl (fun s c => if left.any (fun x => x.cmd == c) then s else ok c (((s.cmd? c).map (·.aux)).getD 0) s) s2

end Sys2Proof.Machine
end

