-- ==== Sys2Proof/Machine/Rings.lean ====
section
/-! DEFINITION. The ring windows and the other registers a host writes: doorbells, INVALIDATE, the setup ring,
MSI-X, EVT, GCTL (R76 to R107, R409, R411, R507 to R514, R524). -/

namespace Sys2Proof.Machine

/-! ### Which writes the device acts on (R508) -/

/-- The port's BAR0 is reachable: package ready, die in service, link up. -/
def reachable (s : State) (port : Nat) : Bool :=
  s.ready && s.alive port && (s.die? port).any (·.linkUp)

/-- Writes to every register are acted on. -/
def actsAll (s : State) (port : Nat) : Bool := reachable s port && s.running

/-- Writes to EVT, METER_HEAD, XCH_REQ and GCTL_LADDER.ACK are acted on, also in HALTED. -/
def actsSome (s : State) (port : Nat) : Bool := reachable s port && s.run.pfail.isNone

/-- R513: writes to GCTL_RESET are acted on. -/
def actsReset (s : State) (port : Nat) : Bool := actsSome s port

/-! ### Rings -/

/-- R91: the distance from one position to another in a ring of S entries. -/
def distance (size a b : Nat) : Nat := (b + 2 * size - a) % (2 * size)

/-- R92: commands dispatched from a ring and not completed, those with them whose completion is on its way over the fabric. -/
def inflight (s : State) (r : Ring) : Nat := (s.cmds.filter fun c => c.ref.die == r.die && c.ref.ring == r.idx).length + r.backs.length

/-- R77: the ring behind a window of a function. -/
def winRing (s : State) (w : Win) : Option Ring :=
  s.rings.find? fun r => r.die == w.port && r.fn == w.fn && r.window == w.window

/-- R92: the ring can dispatch. -/
def canDispatch (s : State) (r : Ring) : Bool :=
  r.state == .enabled && !r.notif && (!r.setup || (s.fn? r.die r.fn).any (·.setupEn))

/-- R456: ticks that a transition takes. -/
def changeTicks (cur target : Nat) : Nat :=
  if 2 ≤ target then (if cur = 3 then 250 else if target = 2 then 25 else 50)
  else if cur = 3 then 500 else if cur = 2 then 25 else 250

/-- R311, R456: the exit time: the ticks of the transition out of P2 or P3 to the operational state. -/
def exitTicks (s : State) : Nat := if 2 ≤ s.pw.pstate then changeTicks s.pw.pstate s.pw.opstate else 0

/-- R458: starts the transition back to the operational state, in the next tick. -/
def wake (s : State) : State :=
  if s.pw.pstate ≥ 2 && s.pw.chg.all (fun c => c.started.isNone) then
    { s with pw := { s.pw with chg := some ⟨s.pw.opstate, s.pw.opCap, s.clk.tick, some (s.clk.tick + 1), none⟩ } }
  else s

/-- R91: whether a work-ring doorbell is accepted. -/
def doorbellOk (r : Ring) (clrovf : Bool) (pcnt lap tail : Nat) : Bool :=
  let t := lap * r.size + tail
  decide (tail < r.size) && decide (distance r.size r.head t ≤ r.size) &&
  decide (distance r.size r.head r.tail ≤ distance r.size r.head t) && decide (pcnt ≤ 4) &&
  decide (pcnt ≤ distance r.size r.tail t) && !clrovf

/-- R99: what a valid doorbell makes of a figure of each posted entry: entries held by INVALIDATE count from it. -/
def rebell (r : Ring) (now : Nat) (l : List Nat) : List Nat :=
  match r.hold with
  | none => l
  | some h => l.zipIdx.map fun (b, i) => if distance r.size r.head h ≤ i then now else b

/-- R93: the 64 bytes of a slot of the push window. -/
def slotBytes (r : Ring) (j : Nat) : Bytes := (List.range 64).map fun i => ((r.slots.find? (·.1 == 64 * j + i)).map (·.2)).getD 0

/-- R91 to R94: an accepted doorbell posts entries, captures the slots that it names while the entry cache has room for 32
entries, and ends an INVALIDATE hold. -/
def acceptDoorbell (now pcnt t : Nat) (r : Ring) : Ring :=
  { r with tail := t, bells := rebell r now r.bells ++ List.replicate (distance r.size r.tail t) now, hold := none,
           exts := rebell r 0 r.exts ++ List.replicate (distance r.size r.tail t) 0,
           pushed := r.pushed ++ ((List.range pcnt).filter fun j => r.pushed.length + r.fetched.length + j < 32).map
             fun j => ((r.tail + j) % r.size, slotBytes r j) }

/-- DOORBELL (R91): a work-ring doorbell is checked and advances the tail. -/
def execDoorbell (w : Win) (a : Acc) (s : State) : Answer :=
  match winRing s w with
  | some r =>
    if !actsAll s w.port || !a.whole || r.notif || r.state != .enabled then .next s
    else
      let lap := a.field 16 16
      let tail := a.field 15 0
      let t := lap * r.size + tail
      if doorbellOk r (a.field 31 31 == 1) (a.field 19 17) lap tail then
        let s1 := s.updRing r.die r.idx (acceptDoorbell s.clk.tick (a.field 19 17) t)
        .next (if distance r.size r.tail t = 0 then s1 else wake s1)
      else .next (raise r.die 0x4002 { ring := r.id, arg0 := (a.merge 0).toNat } s)
  | none => .next s

/-- R102, R103: a notification-ring doorbell: notes consumed, overflow cleared with CLROVF, or rejected with 4002h. Notes
are written again from the doorbell on, in its own tick too: DESIGN CHOICE, R103 promises them for later ticks (assumption 43). -/
def notifWrite (r : Ring) (a : Acc) (s : State) : State :=
  let t := a.field 16 16 * r.size + a.field 15 0
  let used := distance r.size ((r.head + 2 * r.size - r.notes) % (2 * r.size)) t
  if r.size ≤ a.field 15 0 ∨ a.field 19 17 ≠ 0 ∨ r.notes < used then
    raise r.die 0x4002 { ring := r.id, arg0 := (a.merge 0).toNat } s
  else
    s.updRing r.die r.idx fun x => { x with notes := x.notes - used, ovf := if a.field 31 31 = 1 then false else x.ovf }

/-- NOTIFICATION DOORBELL (R102). -/
def execNotificationDoorbell (w : Win) (a : Acc) (s : State) : Answer :=
  match winRing s w with
  | some r => .next (if actsAll s w.port && a.whole && r.notif && r.state == .enabled then notifWrite r a s else s)
  | none => .next s

/-- CLEAR OVF (R103): a notification-ring doorbell with CLROVF = 1. -/
def execClearOvf (w : Win) (a : Acc) (s : State) : Answer :=
  match winRing s w with
  | some r =>
    .next (if actsAll s w.port && a.whole && r.notif && r.state == .enabled && a.field 31 31 == 1 then notifWrite r a s else s)
  | none => .next s

/-- R98: the offset from the head of the undispatched posting of index x, if it is posted. -/
def postedOff (r : Ring) (x : Nat) : Option Nat :=
  let o := (x + r.size - r.head % r.size) % r.size
  if o < distance r.size r.head r.tail then some o else none

/-- R98: index x was dispatched since it was last posted. -/
def dispatchedIdx (r : Ring) (x : Nat) : Bool :=
  (postedOff r x).isNone && decide ((r.head % r.size + r.size - 1 - x) % r.size < r.served)

/-- R98: an INVALIDATE processed. -/
def invalidateRing (start count : Nat) (seq : Nat) (r : Ring) : Ring :=
  let base : InvReg := { seq := BitVec.ofNat 8 seq, valid := true, count := BitVec.ofNat 6 count, start := BitVec.ofNat 16 start }
  if count = 0 ∨ 32 < count ∨ r.size ≤ start then { r with inv := { base with err := true } }
  else
    let idx := (List.range count).map fun i => (start + i) % r.size
    let offs := idx.filterMap (postedOff r)
    let disp := ((List.range count).filter fun i => dispatchedIdx r ((start + i) % r.size)).foldl (fun m i => m + 2 ^ i) 0
    let hold := match offs with
      | [] => r.hold
      | o :: os =>
        let low := os.foldl min o
        match r.hold with
        | some h => some ((r.head + min low (distance r.size r.head h)) % (2 * r.size))
        | none => some ((r.head + low) % (2 * r.size))
    { r with inv := { base with dispatched := BitVec.ofNat 32 disp }, hold := hold,
             pushed := r.pushed.filter fun x => !(idx.contains x.1 && (postedOff r x.1).isSome),
             fetched := r.fetched.filter fun x => !(idx.contains x && (postedOff r x).isSome) }

/-- R97, R98: an INVALIDATE as written: VALID is 0 until the next tick's intake processes it. -/
def writeInv (start count seq : Nat) (r : Ring) : Ring :=
  { r with inv := { r.inv with seq := BitVec.ofNat 8 seq, valid := false, count := BitVec.ofNat 6 count, start := BitVec.ofNat 16 start },
           invs := r.invs ++ [(start, count, seq)] }

/-- R98, R99: the INVALIDATE writes of a ring, in arrival order, at the start of the intake stage. -/
def processInvs (r : Ring) : Ring := r.invs.foldl (fun r x => invalidateRing x.1 x.2.1 x.2.2 r) { r with invs := [] }

/-- R97: the device prefetches up to 32 undispatched entries of the posted span from the head on, pushed copies counted; none
that INVALIDATE holds. -/
def prefetch (r : Ring) : Ring :=
  if r.notif || r.state != .enabled then r
  else
    let span := match r.hold with
      | some h => distance r.size r.head h
      | none => distance r.size r.head r.tail
    let idx := (List.range (min 32 span)).map fun i => (r.head + i) % r.size
    { r with fetched := (idx.filter fun x => !r.pushed.any (·.1 == x)).take (32 - r.pushed.length) }

/-- R97, R441: what the entries that intake has read of a ring cost. -/
def Ring.known (costs : List (CmdRef × Nat)) (r : Ring) : Ring :=
  { r with costs := (costs.filter fun x => x.1.die == r.die && x.1.ring == r.idx).map fun x => (x.1.index, x.2) }

/-- R97, R98: what the intake stages of a tick do before they dispatch. -/
def intakeRings (costs : List (CmdRef × Nat)) (s : State) : State :=
  if s.running then { s with rings := s.rings.map fun r => if s.alive r.die then (prefetch (processInvs r)).known costs else r } else s

/-- INVALIDATE (R98). A write to the window of a notification ring is ignored: DESIGN CHOICE, the rule speaks of work rings
(assumption 43). -/
def execInvalidate (w : Win) (a : Acc) (s : State) : Answer :=
  match winRing s w with
  | some r =>
    .next (if actsAll s w.port && a.whole && !r.notif then
      s.updRing r.die r.idx (writeInv (a.field 15 0) (a.field 21 16) (a.field 31 24)) else s)
  | none => .next s

/-! ### The setup ring -/

/-- R78: SETUP_CFG as read. -/
def setupCfg (f : FnSt) : W64 :=
  BitVec.ofNat 64 (f.setupVector * 65536 + bit f.setupErr * 256 + bit f.setupEn * 16 + f.setupSize)

/-- R78: the setup ring of a function, if it is not DISABLED. -/
def setupRing (s : State) (d f : Nat) : Option Ring := s.rings.find? fun r => r.die == d && r.fn == f && r.setup

/-- R78, R80, R529: the lowest free local index of a die for a function; index 0, and 256 on a split port, stay with the
setup ring of a physical function; link B's physical function shows indices from 256 on only. -/
def freeIndex (s : State) (d fn : Nat) : Option Nat :=
  (List.range 512).find? fun i => i != 0 && !(s.split d && i == 256) && (s.ring? d i).isNone && decide (pfBase fn ≤ i)

/-- R78, R79: SIZE and VECTOR as written, which the device takes only while STATE is DISABLED. -/
def takeSetup (s : State) (w : Win) (a : Acc) : State :=
  match s.fn? w.port w.fn with
  | none => s
  | some f =>
    if (setupRing s w.port w.fn).isSome then s
    else
      let v := (a.merge (setupCfg f)).toNat
      s.updFn w.port w.fn fun f => { f with setupSize := bits v 3 0, setupVector := bits v 26 16 }

/-- R79: a setup ring enabled again while its commands still drain starts anew; what was posted before the disable is never
carried out. Its configuration has passed the check, and cannot have changed (assumption 43). -/
def renewRing (r : Ring) : Ring :=
  { r with state := .enabled, head := 0, tail := 0, served := 0, bells := [], exts := [], hold := none, inv := {}, pushed := [],
           fetched := [], invs := [], costs := [] }

/-- R79: the check of the configuration and the enabling of the setup ring. -/
def enableSetup (d fn : Nat) (s : State) : State :=
  match s.fn? d fn with
  | none => s
  | some f =>
    match setupRing s d fn with
    | some r => (s.updFn d fn fun f => { f with setupEn := true, setupErr := false }).updRing r.die r.idx renewRing
    | none =>
      let idx := if s.isPf d fn then some (pfBase fn) else freeIndex s d fn
      match idx with
      | some i =>
        if f.setupSize > 12 || vectorsOf s d fn ≤ f.setupVector then s.updFn d fn fun f => { f with setupEn := true, setupErr := true }
        else
          let r : Ring := { die := d, idx := i, fn := fn, window := 0, notif := false, setup := true, cls := 1, weight := 1,
                            burst := 1, size := 2 ^ (f.setupSize + 4), base := f.setupBase, vector := f.setupVector,
                            tenant := none, state := .enabled }
          let s := s.updFn d fn fun f => { f with setupEn := true, setupErr := false }
          { s with rings := s.rings ++ [r] }
      | none => s.updFn d fn fun f => { f with setupEn := true, setupErr := true }

/-- SETUP RING ENABLE (R79): SETUP_CFG.EN changes from 0 to 1. -/
def execSetupRingEnable (w : Win) (a : Acc) (s : State) : Answer :=
  if !actsAll s w.port || w.window != 0 || !a.low then .next s
  else
    let s0 := s.updFn w.port w.fn id
    match s0.fn? w.port w.fn with
    | some f =>
      if f.setupEn || !((a.merge (setupCfg f)).getLsbD 4) then .next s0
      else .next (enableSetup w.port w.fn (takeSetup s0 w a))
    | none => .next s

/-- R79: the setup ring of a function reads DISABLED once nothing is in flight. -/
def dropSetup (d fn : Nat) (s : State) : State :=
  match setupRing s d fn with
  | some r => if inflight s r = 0 then { s with rings := s.rings.filter fun x => !(x.die == d && x.idx == r.idx) } else s
  | none => s

/-- SETUP RING DISABLE (R79): SETUP_CFG.EN changes from 1 to 0. -/
def execSetupRingDisable (w : Win) (a : Acc) (s : State) : Answer :=
  match s.fn? w.port w.fn with
  | some f =>
    if !actsAll s w.port || w.window != 0 || !a.low || !f.setupEn || (a.merge (setupCfg f)).getLsbD 4 then .next s
    else .next (dropSetup w.port w.fn ((takeSetup s w a).updFn w.port w.fn fun f => { f with setupEn := false }))
  | none => .next s

/-! ### Other registers -/

/-- LADDER ACK (R514): processed at the start of the next tick. -/
def execLadderAck (port : Nat) (a : Acc) (s : State) : Answer :=
  if actsSome s port && a.high && a.field 63 63 == 1 then .next { s with reg := { s.reg with ack := true } } else .next s

/-- EVT PEND CLEAR (R411): W1C bits of EVT_PEND[i]. -/
def execEvtPendClear (die i : Nat) (a : Acc) (s : State) : Answer :=
  if actsSome s die then
    .next (s.updEvt die fun e => { e with pend := e.pend.filter fun p => !(p / 64 == i && (a.merge 0).getLsbD (p % 64)) })
  else .next s

/-- R524: the table entry of a vector, masked and zero when never written (assumption 6). -/
def msixOf (f : FnSt) (vec : Nat) : Msix := (f.msix.find? fun m => m.vec == vec).getD ⟨vec, 0, 0, true⟩

/-- R524: a changed table entry. -/
def setMsix (f : FnSt) (m : Msix) : FnSt := { f with msix := m :: f.msix.filter fun x => x.vec != m.vec }

/-- R105: a vector is unmasked: its pending message is sent. -/
def unmask (d fn vec : Nat) (s : State) : State :=
  match s.fn? d fn with
  | none => s
  | some f =>
    let s1 := s.updFn d fn fun f => setMsix f { msixOf f vec with masked := false }
    if f.pba.contains vec then sendMsix d fn vec (s1.updFn d fn fun f => { f with pba := f.pba.filter (· != vec) }) else s1

/-- MSIX VECTOR UNMASK (R105). -/
def execMsixVectorUnmask (die fn vec : Nat) (s : State) : Answer :=
  if actsAll s die && decide (vec < vectorsOf s die fn) then .next (unmask die fn vec (s.updFn die fn id)) else .next s

/-- R409: the RW fields of EVT_ROUTE as written. -/
def writeRoute (src : Nat) (a : Acc) (e : EvtSt) : EvtSt :=
  let r := routeOf e src
  let old := BitVec.ofNat 64 (bit r.msien * 2 ^ 31 + bit r.alerten * 2 ^ 30 + r.fn * 65536 + r.vector)
  let v := (a.merge old).toNat
  setRoute e { r with msien := bitAt v 31, alerten := bitAt v 30, fn := bits v 21 16, vector := bits v 10 0 }

/-- R408, R409: one EVT_REMAP entry as written, in force from the next tick boundary. -/
def writeRemap (i code : Nat) (e : EvtSt) : EvtSt :=
  { e with remapNext := if code = 0 then e.remapNext.filter (·.1 != i) else (i, code) :: e.remapNext.filter (·.1 != i) }

/-- R409: a write into the EVT block at an offset within it. -/
def writeEvt (off : Nat) (a : Acc) (e : EvtSt) : EvtSt :=
  if off < 0x800 then writeRoute (off / 8) a e
  else if 0x900 ≤ off ∧ off < 0xAC0 then
    let i := (off - 0x900) / 8 * 2
    let e := if a.low then writeRemap i (a.field 15 0) e else e
    if a.high then writeRemap (i + 1) (a.field 47 32) e else e
  else e

/-- R524: a write into a vector's table entry: message address, or data and vector control. -/
def writeMsix (d fn vec half : Nat) (a : Acc) (s : State) : State :=
  if half = 0 then s.updFn d fn fun f => setMsix f { msixOf f vec with addr := a.merge (msixOf f vec).addr }
  else
    let s := if a.low then s.updFn d fn fun f => setMsix f { msixOf f vec with data := BitVec.ofNat 32 (a.field 31 0) } else s
    if a.high then
      if a.field 32 32 = 1 then s.updFn d fn fun f => setMsix f { msixOf f vec with masked := true } else unmask d fn vec s
    else s

/-- R93: bytes written into the push window. -/
def writePush (off : Nat) (a : Acc) (r : Ring) : Ring :=
  let v := (a.merge 0).toNat
  let n := if a.width = 64 then (List.range 8) else if a.upper then [4, 5, 6, 7] else [0, 1, 2, 3]
  { r with slots := n.foldl (fun l i => (off + i, BitVec.ofNat 8 (v / 256 ^ i)) :: l.filter (·.1 != off + i)) r.slots }

/-- R78, R93, R523: a write into a ring window at an offset of a register without behaviour of its own. -/
def writeWindow (w : Win) (off : Nat) (a : Acc) (s : State) : State :=
  if w.window = 0 ∧ off = 0x20 then
    if (setupRing s w.port w.fn).isSome then s
    else s.updFn w.port w.fn fun f =>
      { f with setupBase := BitVec.ofNat 64 ((a.merge f.setupBase).toNat / 4096 * 4096) }
  else if w.window = 0 ∧ off = 0x28 then
    match s.fn? w.port w.fn with
    | some f => if (a.merge (setupCfg f)).getLsbD 4 == f.setupEn then takeSetup s w a else s
    | none => s
  else if 0x100 ≤ off ∧ off < 0x200 then
    match winRing s w with
    | some r => if r.notif then s else s.updRing r.die r.idx (writePush (off - 0x100) a)
    | none => s
  else s

/-- R505, R506: the window and offset a BAR0 offset falls in. -/
def windowOf (s : State) (port fn off : Nat) : Option (Win × Nat) :=
  if s.isPf port fn then
    if 0x20000 ≤ off ∧ off < 0xA0000 then some (⟨port, fn, (off - 0x20000) / 1024⟩, (off - 0x20000) % 1024) else none
  else if 0x8000 ≤ off ∧ off < 0x10000 then some (⟨port, fn, (off - 0x8000) / 1024⟩, (off - 0x8000) % 1024) else none

/-- R505, R506: the vector and half of its table entry that a BAR0 offset falls in. -/
def vectorAt (s : State) (port fn off : Nat) : Option (Nat × Nat) :=
  if s.isPf port fn then if 0x10000 ≤ off ∧ off < 0x14000 then some ((off - 0x10000) / 16, (off - 0x10000) % 16 / 8) else none
  else if 0x2000 ≤ off ∧ off < 0x2100 then some ((off - 0x2000) / 16, (off - 0x2000) % 16 / 8) else none

/-- R11, R507, R508, R524: a write at an 8-byte aligned BAR0 offset to a register without behaviour of its own sets its
RW fields; reserved ranges, read-only registers, narrow writes and vectors past the table change nothing. -/
def plainWrite (port fn off : Nat) (a : Acc) (s : State) : State :=
  if !(a.low || a.high) || off % 8 != 0 then s
  else if s.isPf port fn ∧ 0x3000 ≤ off ∧ off < 0x4000 then
    if actsSome s port then s.updEvt port (writeEvt (off - 0x3000) a) else s
  else if !actsAll s port then s
  else
    match vectorAt s port fn off, windowOf s port fn off with
    | some (v, h), _ => if v < vectorsOf s port fn then writeMsix port fn v h a (s.updFn port fn id) else s
    | none, some (w, o) => writeWindow w o a (s.updFn port fn id)
    | none, none => s

/-- RING FETCH ERROR (R107): the second failed read of an entry puts the ring in ERROR. -/
def execRingFetchError (die ring : Nat) (s : State) : Answer :=
  match s.ring? die ring with
  | some r =>
    if s.running && s.alive die && canDispatch s r then
      let s := s.updRing die ring fun x => { x with state := .error }
      .next (ladder 2 0x4004 die (raise die 0x4004 { ring := r.id } (s.emit (.aer die))))
    else .next s
  | none => .next s

end Sys2Proof.Machine
end

