-- ==== Sys2Proof/Machine/Hardware.lean ====
section
/-! DEFINITION. Faults and upkeep of a die's units: cores, engines, memories, DDR channels, lanes, fabric, holds, the
lead die (R18 to R37, R354, R384, R390 to R398, R473, R474). -/

namespace Sys2Proof.Machine

/-- A die in service of a powered package past its self-test: its checks run (R390, R462). -/
def checksRun (s : State) (d : Nat) : Bool := s.on && decide (2 < s.run.phase) && s.alive d

/-- R180, R185, R455: the DDR of a die is in self-refresh: a die in vault mode keeps it active until its VAULT DONE. -/
def refreshed (s : State) (d : Nat) : Bool :=
  if s.run.pfail.isSome && (s.die? d).any (·.vault) then s.run.vaulted.contains d else s.run.selfRefresh

/-- LOCKSTEP MISMATCH (R19, R20, R21): the failed cores leave service and spares take their jobs. -/
def execLockstepMismatch (die : Nat) (cores : List Nat) (s : State) : Answer :=
  if checksRun s die then .next (coresFail die cores (cores.foldl (fun s _ => countFault die 1 s) s)) else .next s

/-- R24: the lowest-indexed GF engine of a die in service. -/
def gfOther (s : State) (d : Nat) : Option Nat :=
  (s.die? d).bind fun x => (List.range 2).find? fun i => x.hw.gf[i]? == some true

/-- R395: the lowest-indexed AES-XTS engine of a die in service. -/
def aesOther (s : State) (d : Nat) : Option Nat :=
  (s.die? d).bind fun x => (List.range 4).find? fun i => x.hw.aes[i]? == some true

/-- R24, R390 D2: a pass of GF engine u fails its residue lane: 1001h, and the engine leaves service. -/
def gfFault (d u : Nat) (s : State) : State := gfOut d u (raise d 0x1001 { unit := 0x20 + u } (countFault d 2 s))

/-- R390 D3, R395: a block of AES-XTS engine u fails its inverse check: 1002h, and the engine leaves service. -/
def aesFault (d u : Nat) (s : State) : State := aesOut d u (raise d 0x1002 { unit := 0x28 + u } (countFault d 3 s))

/-- GF RESIDUE FAULT (R24, R391, R393): a pass in which a beat of some output does not match is repeated on the other engine; the
faulty engine leaves service, and so does the other when the repetition fails. -/
def execGfResidueFault (die unit : Nat) (run : GfRun) (s : State) : Answer :=
  if checksRun s die && (s.die? die).any (fun x => x.hw.gf[unit]? == some true) && !passOk run.pass then
    let s := gfFault die unit s
    .next (if passOk run.again then s else match gfOther s die with
      | some u => if s.alive die then gfFault die u s else s
      | none => s)
  else .next s

/-- AES CHECK FAULT (R391, R395): a block whose way back does not give the input's internal CRC is retried on another engine; the
faulty engine leaves service. -/
def execAesCheckFault (die unit : Nat) (run : AesTry) (s : State) : Answer :=
  if checksRun s die && (s.die? die).any (fun x => x.hw.aes[unit]? == some true) && !aesRunOk run.block then
    let s := aesFault die unit s
    .next (if aesRunOk run.again then s else match aesOther s die with
      | some u => if s.alive die then aesFault die u s else s
      | none => s)
  else .next s

/-- R34: the link of fabric module m of a die is down at both its ends: its traffic takes the next shortest path. -/
def fabricDown (d m : Nat) (s : State) : State :=
  match fabricPeer s.id.part d m with
  | some (e, n) =>
    if moduleUp s d m then
      let down (n : Nat) (h : HwSt) : HwSt := { h with fabric := h.fabric.set n false }
      raise d 0x0050 { unit := 0x48 + m } (reroute ((s.updHw d (down m)).updHw e (down n)))
    else s
  | none => s

/-- R530, R541: the root port of a drive-side lane in an arrangement of DRIVEMODE: six x4, three x8, or x16 and x8. -/
def portOfLane (mode l : Nat) : Nat := if mode = 1 then l / 8 else if mode = 2 then l / 16 else l / 4

/-- The lanes of a root port that are in use. -/
def portLanes (mode port : Nat) (h : HwSt) : List Nat :=
  (List.range 24).filter fun l => portOfLane mode l == port && (h.driveRates[l]?).any (0 < ·) && !h.lanesRetired.contains (16 + l)

/-- R391, R530: the lanes of a root port go out of use with its CRC unit (assumption 8). -/
def portOut (mode port : Nat) (h : HwSt) : HwSt :=
  let lanes := portLanes mode port h
  { h with driveLanes := h.driveLanes - lanes.length, driveRates := lanes.foldl (fun l i => l.set i 0) h.driveRates }

/-- R530: how the root ports of a die are arranged. -/
def State.portMode (s : State) (d : Nat) : Nat := (s.id.driveMode[d]?).getD 0

/-- R391, R396: the CRC unit of a root port leaves service; with the last one the die yields with cause 06h. -/
def driveOut (d port : Nat) (s : State) : State :=
  let s := s.updHw d (portOut (s.portMode d) port)
  if (s.die? d).any fun x => x.hw.driveLanes == 0 then dieYield d 0x06 s else s

/-- R391: a fabric module leaves service; with the last one the die yields with cause 06h. -/
def moduleOut (d m : Nat) (s : State) : State :=
  let s1 := fabricDown d m s
  if (usedModules s1.id.part d).any (moduleUp s1 d) then s1 else dieYield d 0x06 s1

/-- R392, R413: the consuming unit, by its UNIT number and for a drive port the port's number, is in service. -/
def unitServes (s : State) (d unit port : Nat) : Bool :=
  match s.die? d with
  | none => false
  | some x =>
    if unit < 0x22 then x.hw.gf[unit - 0x20]? == some true && decide (0x20 ≤ unit)
    else if unit < 0x2C then x.hw.aes[unit - 0x28]? == some true && decide (0x28 ≤ unit)
    else if unit < 0x40 then x.hw.movers[unit - 0x30]? == some true && decide (0x30 ≤ unit)
    else if unit = 0x40 then true
    else if unit = 0x41 then !(portLanes (s.portMode d) port x.hw).isEmpty
    else decide (0x48 ≤ unit) && moduleUp s d (unit - 0x48)

/-- R391: the unit of a failed repetition leaves service; the last of its kind makes the die yield. -/
def unitOut (d unit port : Nat) (s : State) : State :=
  if unit < 0x22 then gfOut d (unit - 0x20) s
  else if unit < 0x2C then aesOut d (unit - 0x28) s
  else if unit < 0x40 then moverOut d (unit - 0x30) s
  else if unit = 0x40 then dieYield d 0x06 s
  else if unit = 0x41 then driveOut d port s
  else moduleOut d (unit - 0x48) s

/-- DATAPATH CRC ERROR (R391, R392): a block that fails its internal CRC at a consuming unit is moved again from its source; a unit
at which it fails again leaves service. -/
def execDatapathCrcError (die unit : Nat) (move : XferTry) (s : State) : Answer :=
  if checksRun s die && unitServes s die unit move.port && !xferOk move.block then
    let s := raise die 0x1003 { unit := unit } (countFault die 4 s)
    .next (if xferOk move.again then s else unitOut die unit move.port s)
  else .next s

/-- NV UNIT RETIRED (R27, R28): a failing unit goes into a spare unit; with none left 0110h is raised once, and the
next failing unit makes the die yield with cause 03h. -/
def execNvUnitRetired (die : Nat) (s : State) : Answer :=
  match s.die? die with
  | some x =>
    if !checksRun s die then .next s
    else
      let s := countFault die 9 s
      if 0 < x.hw.nvSpare then
        .next (raise die 0x0111 { unit := 0x60 } (s.updHw die fun h => { h with nvSpare := h.nvSpare - 1, nvUsed := satAdd top32 h.nvUsed 1 }))
      else if x.hw.nvNone then .next (dieYield die 0x03 s)
      else .next (raise die 0x0110 { unit := 0x60 } (s.updHw die fun h => { h with nvNone := true }))
  | none => .next s

/-- R26, R390 D7, R398: single-bit SRAM errors that a tick's accesses met and corrected, by die. -/
def sramCorrected (l : List (Nat × Nat)) (s : State) : State :=
  let count (n : Nat) (h : HwSt) : HwSt := { h with sramCe := satAdd top32 h.sramCe n }
  l.foldl (fun s x => if checksRun s x.1 then countFaults x.1 7 x.2 (s.updHw x.1 (count x.2)) else s) s

/-- SRAM PATROL (R26, R390 D8, R503): a whole patrol is done; corrected words are counted. -/
def execSramPatrol (die corrected : Nat) (s : State) : Answer :=
  if checksRun s die then
    let count (h : HwSt) : HwSt :=
      { h with sramCe := satAdd top32 h.sramCe corrected, sramPatrol := s.clk.tick, dcount := h.dcount.modify 7 fun n => satAdd top32 n corrected }
    .next (finishTest 4 die none corrected (s.updHw die count))
  else .next s

/-- DDR ZQ CALIBRATION (R473) of a channel in use. -/
def execDdrZqCalibration (die channel : Nat) (s : State) : Answer :=
  if checksRun s die && !refreshed s die && (s.die? die).any (fun x => x.hw.ddr[channel]? == some true) then
    .next (s.updHw die fun h => { h with zq := h.zq.set channel s.clk.tick })
  else .next s

/-! ### The DDR of a die (R29, R30, R160) -/

/-- R9, R6: the home die of a volume's pool. -/
def homeOf (s : State) (vol : Nat) : Option Nat := ((s.vol? vol).bind fun v => s.pool? v.pool).map (·.home)

/-- R29, R30: GiB of DDR a die uses. -/
def ddrGib (x : DieSt) : Nat := x.hw.ddrGib * (x.hw.ddr.filter id).length

/-- Removes cached blocks. -/
def State.dropBlocks (s : State) (p : CBlk → Bool) : State := { s with cache := s.cache.filter fun b => !p b }

/-- R160, R344, R350: bytes of a die's DDR outside the cache directory, host regions and exchange windows. -/
def ddrRoom (s : State) (d : Nat) : Nat :=
  match s.die? d with
  | none => 0
  | some x =>
    let ddr := ddrGib x * 2 ^ 30
    ddr - ddr / 256 - ((s.refl.regions.filter fun r => r.die == d && r.host.isNone).map (·.len)).sum -
      2 ^ 18 * (s.refl.wins.filter fun w => w.die == d).length

/-- R30, R160: bytes of a die's protected region: its size, or half of what the DDR in use has room for. -/
def protBytes (s : State) (d : Nat) : Nat := ((s.die? d).map fun x => min (x.protGib * 2 ^ 30) (ddrRoom s d / 2)).getD 0

/-- R160: bytes of a die's DDR left for the read cache beside the protected and the mirror region. -/
def readCacheBytes (s : State) (d : Nat) : Nat := ddrRoom s d - 2 * protBytes s d

/-- R160: clean bytes of a die. -/
def cleanBytes (s : State) (d : Nat) : Nat :=
  ((s.cache.filter fun b => !b.dirty && homeOf s b.vol == some d).map (·.data.length)).sum

/-- R160: evicts the least recently used clean block of a die. -/
def evictOne (d : Nat) (s : State) : State :=
  let mine (b : CBlk) : Bool := !b.dirty && !b.pinned && homeOf s b.vol == some d
  match ((s.cache.filter mine).map (·.used)).min? with
  | none => s
  | some u =>
    match s.cache.find? fun b => mine b && b.used == u with
    | some b => s.dropBlocks fun x => x.vol == b.vol && x.lba == b.lba
    | none => s

/-- R160: evicts clean blocks of a die until n more bytes fit, at most k of them. -/
def evict : Nat → Nat → Nat → State → State
  | 0, _, _, s => s
  | k + 1, d, n, s => if cleanBytes s d + n ≤ readCacheBytes s d then s else evict k d n (evictOne d s)

/-- R30: a channel's contents move to the remaining channels and it is no longer used; the read cache shrinks first. -/
def spareChannel (d ch : Nat) (s : State) : State :=
  raise d 0x6022 { unit := 0x50 + ch } (evict s.cache.length d 0 (s.updHw d fun h => { h with ddr := h.ddr.set ch false }))

/-- R398: the errors that a channel reported and corrected within the last 2^22 ticks. -/
def channelErrs (h : HwSt) (ch : Nat) : Nat := ((h.ddrErrs.filter fun e => e.1 == ch).map (·.2.2)).sum

/-- R398: a channel in use corrected n errors now: they are counted, and the channel is spared once more than 64 lie within 2^22
ticks. -/
def ddrError (d ch n : Nat) (s : State) : State :=
  let note (h : HwSt) : HwSt :=
    { h with ddrCe := satAdd top32 h.ddrCe n
             ddrErrs := (ch, s.clk.tick, n) :: h.ddrErrs.filter fun e => decide (s.clk.tick < e.2.1 + 2 ^ 22) }
  let s1 := s.updHw d note
  if (s1.die? d).any fun x => x.hw.ddr[ch]? == some true && decide (64 < channelErrs x.hw ch) then spareChannel d ch s1 else s1

/-- R390 D11, R398: DDR errors that a tick's reads met and corrected, by die and channel. -/
def ddrCorrected (l : List (Nat × Nat × Nat)) (s : State) : State :=
  l.foldl (fun s x =>
    if checksRun s x.1 && !refreshed s x.1 then ddrError x.1 x.2.1 x.2.2 (countFaults x.1 11 x.2.2 s) else s) s

/-- DDR PATROL (R390 D12, R398): a patrol of all DDR, out of self-refresh, is done; the words that it corrected are counted by channel. -/
def execDdrPatrol (die : Nat) (corrected : List Nat) (s : State) : Answer :=
  if checksRun s die && !refreshed s die then
    .next (corrected.zipIdx.foldl (fun s x => if 0 < x.1 then ddrError die x.2 x.1 (countFaults die 12 x.1 s) else s)
      (s.updHw die fun h => { h with ddrPatrol := s.clk.tick }))
  else .next s

/-- DDR CHANNEL SPARED (R30, R398). -/
def execDdrChannelSpared (die channel : Nat) (s : State) : Answer :=
  if checksRun s die && (s.die? die).any (fun x => x.hw.ddr[channel]? == some true) then .next (spareChannel die channel s)
  else .next s

/-- DDR RETRAINED (R473): a retraining that fails twice spares the channel. -/
def execDdrRetrained (die channel : Nat) (ok : Bool) (s : State) : Answer :=
  match s.die? die with
  | some x =>
    if !checksRun s die || refreshed s die || x.hw.ddr[channel]? != some true then .next s
    else if ok then
      .next (raise die 0x6021 { unit := 0x50 + channel } (s.updHw die fun h => { h with retrainFails := h.retrainFails.set channel 0 }))
    else if x.hw.retrainFails[channel]? == some 0 then
      .next (s.updHw die fun h => { h with retrainFails := h.retrainFails.set channel 1 })
    else .next (spareChannel die channel (s.updHw die fun h => { h with retrainFails := h.retrainFails.set channel 2 }))
  | none => .next s

/-- R332, R384: the widest width that n healthy lanes allow. -/
def widthOf (n : Nat) : Nat := if 16 ≤ n then 16 else if 8 ≤ n then 8 else if 4 ≤ n then 4 else 0

/-- R413: the UNIT of a lane: host port, drive side or reflect link. -/
def laneUnit (l : Nat) : Nat := if l < 16 then 0x40 else if l < 40 then 0x41 else 0x42

/-- R332: a reflect link with fewer than 4 healthy lanes, or whose training failed, is DOWN. -/
def linkDown (d : Nat) (s : State) : State :=
  raise d 0x5001 { unit := 0x42 } (s.updLink d fun k => { k with state := .down, since := s.clk.tick, width := 0, queue := [] })

/-- R330: the width that this end proposes: what its healthy lanes allow, in RECOVER no more than the current width. -/
def LinkSt.proposal (k : LinkSt) : Nat := if k.state = .recover then min k.width (widthOf k.lanes) else widthOf k.lanes

/-- R330 to R332: an ACTIVE link enters RECOVER and sends ALIGN again; any link goes DOWN with fewer than 4 healthy lanes. -/
def linkToRecover (d : Nat) (s : State) : State :=
  match s.die? d with
  | none => s
  | some x =>
    if x.link.lanes < 4 then (if x.link.state = .down then s else linkDown d s)
    else if x.link.state != .active then s
    else sendAlign d (min x.link.width (widthOf x.link.lanes))
      (s.updLink d fun k => { k with state := .recover, since := s.clk.tick, aligned := [], gotConfig := false })

/-- R332: one reflect lane less, and RECOVER. -/
def loseReflectLane (d : Nat) (s : State) : State :=
  linkToRecover d (s.updLink d fun k => { k with lanes := k.lanes - 1 })

/-- R385, R474: the link of a retired host or drive-side lane gets narrower. -/
def narrowLink (l : Nat) (h : HwSt) : HwSt :=
  if l < 16 then { h with hostWidth := min h.hostWidth (widthOf (16 - (h.lanesRetired.filter (· < 16)).length)) }
  else { h with driveRates := h.driveRates.set (l - 16) 0 }

/-- R332, R385, R474: a lane is retired; its host or drive-side link gets narrower at once where the link partner supports L0p, else at
its next training (trainPort, linkRates); a reflect lane sends the link through RECOVER. -/
def retireLane (d l : Nat) (l0p : Bool) (s : State) : State :=
  let s := s.updHw d fun h => { h with lanesRetired := insNat l h.lanesRetired,
                                       driveLanes := if 16 ≤ l ∧ l < 40 then h.driveLanes - 1 else h.driveLanes }
  let s := raise d 0x6020 { unit := laneUnit l, item := l } s
  if 40 ≤ l then loseReflectLane d s else if l0p then s.updHw d (narrowLink l) else s

/-- EYE MEASURE (R474): a lane below margin at four consecutive measurements is retired. -/
def execEyeMeasure (die lane : Nat) (eye : EyeSeen) (s : State) : Answer :=
  match s.die? die with
  | some x =>
    if !checksRun s die || x.hw.lanesRetired.contains lane then .next s
    else
      let n := ((x.hw.eye.find? (·.1 == lane)).map (·.2)).getD 0
      let rest := x.hw.eye.filter (·.1 != lane)
      if !eye.below then .next (s.updHw die fun h => { h with eye := rest })
      else if n + 1 < 4 then .next (s.updHw die fun h => { h with eye := (lane, n + 1) :: rest })
      else .next (retireLane die lane eye.l0p (s.updHw die fun h => { h with eye := rest }))
  | none => .next s

/-- FABRIC LINK DOWN (R34). -/
def execFabricLinkDown (die module : Nat) (s : State) : Answer :=
  if checksRun s die then .next (fabricDown die module (countFault die 13 s)) else .next s

/-- DIE SELF RETIRE (R35): no fabric path to the lead die for two ticks: the die yields with cause 04h. -/
def execDieSelfRetire (die : Nat) (s : State) : Answer :=
  if s.on && decide (2 < s.run.phase) && (s.die? die).any (fun x => decide (2 ≤ x.hw.cut)) then .next (dieYield die 0x04 s)
  else .next s

/-- DIE HOLD DROP (R354): the watchdog drops an unrefreshed hold after two ticks; a die that senses its own hold low
while it refreshes it yields with cause 0Dh. -/
def execDieHoldDrop (die : Nat) (s : State) : Answer :=
  match s.die? die with
  | some x =>
    if !x.hold || !s.on then .next s
    else
      let s1 := s.updDie die fun x => { x with hold := false }
      if 2 ≤ x.unrefreshed then .next s1 else .next (dieYield die 0x0D s1)
  | none => .next s

/-- INDEX REBUILT (R423). -/
def execIndexRebuilt (s : State) : Answer := .next { s with log := { s.log with indexing := false } }

/-! ### Power, cap and temperature -/

/-- R459: dies that count for the cap. -/
def healthyCount (s : State) : Nat := s.aliveDies.length

/-- R459: the lowest cap, 20 W per healthy die. -/
def capMin (s : State) : Nat := 20 * healthyCount s

/-- R32, R46: the used fabric modules of a die whose link is down. -/
def modulesDown (s : State) (d : Nat) : Nat := ((usedModules s.id.part d).filter fun m => !moduleUp s d m).length

/-- R46: the P0 maximum of a die in 24ths of a watt: 34 W less 0.25 W for each retired lane, 6.5 W over the four DDR channels
and 2 W over the fabric modules that the part uses for those that are out. A channel that carries no DIMM counts like a spared one: DESIGN
CHOICE, R46 names only spared ones (assumption 43). -/
def dieMax (s : State) (d : Nat) : Nat :=
  match s.die? d with
  | some x => 816 - 6 * x.hw.lanesRetired.length - 39 * (x.hw.ddr.filter (!·)).length -
      48 / (usedModules s.id.part d).length * modulesDown s d
  | none => 0

/-- R46, R459: the highest cap of the healthy dies, in 24ths of a watt. -/
def capMax (s : State) : Nat := (s.aliveDies.map (dieMax s)).sum

/-- R512 PAVG: package power averaged over the kept samples, in 0.1 W. -/
def powerAvg (s : State) : Nat := if s.pw.samples.isEmpty then 0 else s.pw.samples.sum / s.pw.samples.length

/-- R460: the cap that governs, in watts: the internal one when it is lower; 0 when there is none. -/
def capNow (s : State) : Nat :=
  let h := if s.pw.opstate = 1 && s.pw.pstate < 2 then s.pw.cap else 0
  if s.pw.icap = 0 then h else if h = 0 then s.pw.icap else min h s.pw.icap

/-- R512: a temperature byte as a number of degrees. -/
def degrees (t : BitVec 8) : Int := t.toInt

/-- THERMAL WARNING (R460): a die at 100 degrees or above starts the internal cap at the current average power. -/
def execThermalWarning (die : Nat) (temp : BitVec 8) (s : State) : Answer :=
  if checksRun s die && !s.run.halted && decide (100 ≤ degrees temp) then
    let s := raise die 0x6002 { arg0 := temp.toNat } (s.updHw die fun h => { h with temp := temp })
    .next (if s.pw.icap = 0 then
      { s with pw := { s.pw with icap := max (capMin s) (powerAvg s / 10), icapAt := s.clk.tick, cool := 0 } }
    else { s with pw := { s.pw with cool := 0 } })
  else .next s

/-- THERMAL CAP STEP (R460): 2,500 ticks on, the internal cap falls by 5 % of the P0 maximum, not below the minimum. -/
def execThermalCapStep (s : State) : Answer :=
  if s.on && s.pw.icap != 0 && decide (s.pw.icapAt + 2500 ≤ s.clk.tick) then
    .next { s with pw := { s.pw with icap := max (capMin s) (s.pw.icap - capMax s * 5 / 2400), icapAt := s.clk.tick } }
  else .next s

/-- THERMAL CAP LIFTED (R460): every die below 95 degrees for 2,500 ticks. -/
def execThermalCapLifted (s : State) : Answer :=
  if s.on && s.pw.icap != 0 && decide (2500 ≤ s.pw.cool) then .next { s with pw := { s.pw with icap := 0 } } else .next s

end Sys2Proof.Machine
end

