-- ==== Sys2Proof/Machine/JournalBytes.lean ====
section
/-! DEFINITION. Journal entries as the 64 bytes that are programmed, mirrored and spilled, and which of them are valid
(R159, R169 to R171, R175). -/

namespace Sys2Proof.Machine

/-- R170: TYPE of an entry. -/
def JBody.type : JBody → Nat
  | .intent .. => 1
  | .parityGen .. => 2
  | .unitCommit .. => 3
  | .checkpoint .. => 4
  | .lostBlocks .. => 5
  | .tileState .. => 6
  | .mapSwitch .. => 7
  | .spillSegment .. => 8
  | .anchor .. => 9
  | .powerHold .. => 10
  | .vaultDone .. => 11

/-- R268: STRIPE with bit 47 for the new geometry. -/
def stripeField (stripe : Nat) (new : Bool) : Nat := stripe + if new then 2 ^ 47 else 0

/-- R176, R171: five member indices, FFFFh where unused. -/
def copiesField (l : List Nat) : Bytes := ((l ++ List.replicate 5 0xFFFF).take 5).flatMap (le 2)

/-- R242, R252, R257, R278: DETAIL, bytes 32 to 63 of a CHECKPOINT, by OP. -/
def detailField (op : Nat) (l : List Nat) : Bytes :=
  match op, l with
  | 1, sweep :: cls :: n :: ms => le 2 sweep ++ le 1 cls ++ le 1 n ++ ((ms ++ List.replicate 14 0xFFFF).take 14).flatMap (le 2)
  | 2, [dir, target, reason, beta, end_, skipped] =>
    le 1 dir ++ le 1 target ++ le 1 reason ++ le 1 0 ++ le 8 beta ++ le 8 end_ ++ le 8 skipped
  | 3, [reason, need, built] => le 2 0 ++ le 1 reason ++ le 1 0 ++ le 8 need ++ le 8 built
  | 5, [member] => le 2 member
  | _, l => l.flatMap (le 8)

/-- R170, R171: bytes 16 to 63; what is left out at the end is 0. -/
def JBody.bytes : JBody → Bytes
  | .intent st new old gen dmask pmask method first count cdir absent =>
    le 8 (stripeField st new) ++ le 4 old.toNat ++ le 4 gen.toNat ++ le 4 dmask.toNat ++ le 1 pmask.toNat ++ le 1 method ++ le 2 0 ++
      le 4 first ++ le 4 count ++ le 8 cdir ++ le 8 absent.toNat
  | .parityGen st new gen ijsn => le 8 (stripeField st new) ++ le 4 gen.toNat ++ le 8 ijsn
  | .unitCommit vol unit ulba ucount units cdir ring tag prev =>
    le 2 vol ++ le 2 0 ++ le 4 unit ++ le 8 ulba ++ le 4 ucount ++ le 4 units ++ le 8 cdir ++ le 2 ring ++ le 2 tag.toNat ++ le 4 0 ++ le 8 prev
  | .checkpoint op state tile plan detail => le 1 op ++ le 1 state ++ le 2 0 ++ le 8 tile ++ le 4 plan ++ detailField op detail
  | .lostBlocks vol lba count action => le 2 vol ++ le 6 0 ++ le 8 lba ++ le 4 count ++ le 1 action
  | .tileState vol tile state => le 2 vol ++ le 2 0 ++ le 8 tile ++ le 1 state
  | .mapSwitch plan kind method newUid oldUid =>
    le 4 plan ++ le 1 kind ++ le 1 method ++ le 2 0 ++ le 8 newUid.toNat ++ le 8 oldUid.toNat
  | .spillSegment seg first last copies => le 8 seg ++ le 8 first ++ le 8 last ++ copiesField copies
  | .anchor tail live segs intents => le 8 tail ++ le 4 live ++ le 4 segs ++ le 4 intents
  | .powerHold mode epoch dirty dircrc optime =>
    le 1 mode ++ le 7 0 ++ le 8 epoch ++ le 8 dirty ++ le 4 dircrc.toNat ++ le 4 0 ++ le 8 optime
  | .vaultDone bytes imgcrc => le 8 bytes ++ le 4 imgcrc.toNat

/-- R169: bytes 0 to 3: TYPE, HOMEDIE, POOL. -/
def JEntry.head (e : JEntry) : Bytes := le 1 e.body.type ++ le 1 e.home ++ le 2 (e.pool.getD 0xFFFF)

/-- R169: bytes 8 to 63: JSN and the fields of the type. -/
def JEntry.rest (e : JEntry) : Bytes := le 8 e.jsn ++ padTo 48 e.body.bytes

/-- R169: the 64 bytes of an entry; the CRC covers bytes 0 to 3 and 8 to 63. -/
def JEntry.bytes (e : JEntry) : Bytes := e.head ++ le 4 (crc32c (e.head ++ e.rest)) ++ e.rest

/-- R170: 64 bytes are a valid entry: a listed TYPE and a CRC that holds. -/
def entryValid (b : Bytes) : Bool :=
  decide (b.length = 64) && decide (1 ≤ leNat (slice b 0 1)) && decide (leNat (slice b 0 1) ≤ 11) &&
    leNat (slice b 4 4) == crc32c (slice b 0 4 ++ slice b 8 56)

/-- R175: a segment's 4,096 entry slots, unused ones with TYPE 00h. -/
def segmentBytes (es : List JEntry) : Bytes := padTo 262144 (es.flatMap JEntry.bytes)

end Sys2Proof.Machine
end

