-- ==== Sys2Proof/Machine/Journal.lean ====
section
/-! DEFINITION. The stripe journal of each die: programming, what stays live, anchors, folding into the configuration
database (R169 to R173, R178), and the vault's dirty budget (R184). -/

namespace Sys2Proof.Machine

/-- R171: whether an entry of the same kind replaces an older one (R170's "live until"). -/
def JBody.supersedes (new old : JBody) : Bool :=
  match new, old with
  | .anchor .., .anchor .. => true
  | .checkpoint op .., .checkpoint op' .. => op == op'
  | _, _ => false

/-- R170: an older entry that a new one ends: the same pool's earlier CHECKPOINT or ANCHOR, or the intent that a PARITY
GENERATION closes. -/
def endedBy (pool : Option Nat) (b : JBody) (e : JEntry) : Bool :=
  match b with
  | .parityGen _ _ _ ijsn => e.jsn == ijsn
  | _ => e.pool == pool && b.supersedes e.body

/-- R170: a PARITY GENERATION is live only while its intent is, which it has just ended. -/
def staysLive : JBody → Bool
  | .parityGen .. => false
  | _ => true

/-- R170: a journal without some entries, spilled ones included. -/
def JournalSt.ended (over_ : JEntry → Bool) (j : JournalSt) : JournalSt :=
  { j with segs := j.segs.map fun g => { g with entries := g.entries.filter fun e => !over_ e }
           entries := j.entries.filter fun e => !over_ e }

/-- R170: the SPILL SEGMENT entries of some segments. -/
def namesOne (gone : List (Nat × Nat)) (e : JEntry) : Bool :=
  match e.body with
  | .spillSegment seg .. => gone.contains (e.pool.getD 0xFFFF, seg)
  | _ => false

/-- R170: a segment that holds no live entry is free, and every SPILL SEGMENT that names it ends, a spilled one too. -/
def JournalSt.freeSegs : Nat → JournalSt → JournalSt
  | 0, j => j
  | n + 1, j =>
    let gone := (j.segs.filter (·.entries.isEmpty)).map fun g => (g.pool, g.seg)
    if gone.isEmpty then j
    else JournalSt.freeSegs n ({ j with segs := j.segs.filter fun g => !g.entries.isEmpty }.ended (namesOne gone))

/-- R170: a journal without entries that are no longer live. -/
def JournalSt.without (over_ : JEntry → Bool) (j : JournalSt) : JournalSt := (j.ended over_).freeSegs (j.segs.length + 1)

/-- R169: entries programmed in a tick, one more counted. -/
def oneMore (tick : Nat) (b : Nat × Nat) : Nat × Nat := if b.1 = tick then (tick, b.2 + 1) else (tick, 1)

/-- R169: the tail: the oldest live entry, or the head when none is live. -/
def JournalSt.tail (j : JournalSt) : Nat := (j.entries.head?.map (·.jsn)).getD j.next

/-- R27, R169: a journal can take one more entry: none waits, a slot of its 393,216 is free, and one of the tick's 256 programs. -/
def JournalSt.room (tick : Nat) (j : JournalSt) : Bool :=
  j.waiting.isEmpty && decide (j.next - j.tail < 393216) && (j.batch.1 != tick || decide (j.batch.2 < 256))

/-- Ascending insertion of journal entries by JSN. -/
def insEntry (e : JEntry) : List JEntry → List JEntry
  | [] => [e]
  | x :: xs => if e.jsn ≤ x.jsn then e :: x :: xs else x :: insEntry e xs

/-- R169, R170: a journal with one entry of a JSN more; without room it waits for the batch of a later tick. -/
def JournalSt.put (tick : Nat) (e : JEntry) (j0 : JournalSt) : JournalSt :=
  let j := j0.without (endedBy e.pool e.body)
  { j with entries := if staysLive e.body then insEntry e j.entries else j.entries,
           fresh := j.fresh ++ [e],
           batch := if j.room tick then oneMore tick j.batch else j.batch,
           waiting := if j.room tick then j.waiting else j.waiting ++ [e.jsn] }

/-- R169, R170: one entry programmed at the head of a die's journal. -/
def programJ (d : Nat) (pool : Option Nat) (b : JBody) (s : State) : State :=
  s.updJr d fun j => { j.put s.clk.tick ⟨j.next, d, pool, b⟩ with next := j.next + 1 }

/-- R159, R169: an entry programmed under the JSN that it was mirrored with. -/
def programAs (d jsn : Nat) (pool : Option Nat) (b : JBody) (s : State) : State :=
  s.updJr d (JournalSt.put s.clk.tick ⟨jsn, d, pool, b⟩)

/-- The new JSN of an old one; content whose entry is no longer live waits for nothing more. -/
def remap (l : List (Nat × Nat)) (j : Nat) : Nat := ((l.find? fun x => x.1 == j).map (·.2)).getD 0

/-- A journal body with the JSNs it names remapped. -/
def JBody.remap (l : List (Nat × Nat)) (b : JBody) : JBody :=
  match b with
  | .unitCommit v u a c n cd r t prev => .unitCommit v u a c n cd r t (Machine.remap l prev)
  | .parityGen st new g i => .parityGen st new g (Machine.remap l i)
  | _ => b

/-- R187: the commit that a link of a chain must name: unit j - 1 of the same command. -/
def linksTo (vol unit ring : Nat) (tag : W16) (e : JEntry) : Bool :=
  match e.body with
  | .unitCommit v u _ _ _ _ r t _ => v == vol && u + 1 == unit && r == ring && t == tag
  | _ => false

/-- R148, R187: the UNIT COMMITs, of some entries in JSN order, that resolve as old: the invalid ones, and those whose PREVJSN chain does
not reach unit 0. A PREVJSN below the tail is good; whether one that names no entry here is depends on whether entries that have ended
were kept. -/
def brokenUnits (kept : Bool) (bad : List Nat) (tail : Nat) (es : List JEntry) : List Nat :=
  es.foldl (fun l e => match e.body with
    | .unitCommit vol unit _ _ _ _ ring tag prev =>
      let link := decide (unit = 0) || decide (prev < tail) || (!l.contains prev && !bad.contains prev &&
        match es.find? (·.jsn == prev) with
        | some x => linksTo vol unit ring tag x
        | none => !kept)
      if bad.contains e.jsn || !link then l ++ [e.jsn] else l
    | _ => l) []

/-- R169: a JSN is given to an entry that is mirrored before it is programmed. -/
def takeJsn (d : Nat) (s : State) : State := s.updJr d fun j => { j with next := j.next + 1 }

/-- R169: the JSN that the next entry of a die will carry. -/
def nextJsn (s : State) (d : Nat) : Nat := ((s.die? d).map (·.jr.next)).getD 0

/-- R27, R169: the tick's batch of a die: of the entries that wait as many as its 256 programs and the free slots allow. -/
def JournalSt.batchOf (tick : Nat) (j : JournalSt) : JournalSt :=
  let n := min (min 256 j.waiting.length) (393216 - (j.next - j.waiting.length - j.tail))
  if j.waiting.isEmpty then j else { j with waiting := j.waiting.drop n, batch := (tick, n) }

/-- R179: entries that had not been programmed when power was lost are not there. -/
def JournalSt.unprogrammed (j : JournalSt) : JournalSt :=
  { j with entries := j.entries.filter fun e => !j.waiting.contains e.jsn, waiting := [] }

/-- R171 ANCHOR: open stripe intents of a die, spilled ones included. -/
def openIntents (j : JournalSt) : Nat :=
  ((j.entries ++ j.segs.flatMap (·.entries)).filter fun e => match e.body with
    | .intent .. => true
    | _ => false).length

/-- R169: the journal of a die can take one more entry. -/
def journalRoom (s : State) (d : Nat) : Bool := (s.die? d).all fun x => x.jr.room s.clk.tick

/-- R190: live entries of a die's on-die journal. -/
def liveEntries (j : JournalSt) : Nat := j.entries.length

/-- R170: removes entries that are no longer live from the journal of a die. -/
def dropEntries (d : Nat) (p : JEntry → Bool) (s : State) : State := s.updJr d (JournalSt.without p)

/-- R170: UNIT COMMIT entries none of whose blocks is dirty any more, nor in a destage in progress, are not live. -/
def retireCommits (s : State) : State :=
  s.dieIdx.foldl (fun s d => dropEntries d (fun e => match e.body with
    | .unitCommit .. => !s.cache.any fun b => b.dirty && (b.jsn == e.jsn || b.staged.any fun x => x.2.1 == e.jsn) &&
        (s.vol? b.vol).any fun v => e.pool == some v.pool
    | _ => false) s) s

/-! ### The dirty data of a die (R160 to R162, R184) -/

/-- R171 DIRTY: dirty bytes in a die's protected region. -/
def dirtyBytes (s : State) (d : Nat) : Nat :=
  ((s.cache.filter fun b => b.dirty && homeOf s b.vol == some d).map (·.data.length)).sum

/-- R184: the dirty budget of a die in vault mode. -/
def dirtyBudget (x : DieSt) : Nat := 9 * (x.holdUp - 64) * x.rateV / 10

/-- R160: bytes of the protected region of a die as new writes find it: a smaller size binds them as soon as it is asked
for. -/
def newProtBytes (s : State) (d : Nat) : Nat :=
  match s.feat.protNext.find? fun e => e.1 == d with
  | some e => min (protBytes s d) (e.2 * 2 ^ 30)
  | none => protBytes s d

/-- R160, R161: in a pair, bytes of the protected region, and so of the mirror region, of the partner's die of the same index; else no
limit. -/
def partnerBytes (s : State) (d : Nat) : Nat :=
  match s.pair.state, s.pair.partnerProt[d]? with
  | .paired, some g => g * 2 ^ 30
  | _, _ => newProtBytes s d

/-- R160, R162, R184: the bytes of a die's own protected region, or of its dirty budget where that is less. -/
def ownLimit (s : State) (d : Nat) : Nat := ((s.die? d).map fun x =>
  if x.vault then min (newProtBytes s d) (dirtyBudget x) else newProtBytes s d).getD 0

/-- R160, R161, R184: the bytes of dirty data that a die may hold. -/
def limitOfDie (s : State) (d : Nat) : Nat := min (ownLimit s d) (partnerBytes s d)

/-- R178: no further write-kind command is admitted to a die's pools. -/
def journalFull (s : State) (d : Nat) : Bool := (s.die? d).any (·.jr.full)

/-! ### Rows -/

/-- R172: an ANCHOR programmed on a die. -/
def programAnchor (d : Nat) (s : State) : State :=
  match s.die? d with
  | none => s
  | some x =>
    let others := x.jr.entries.filter fun e => match e.body with
      | .anchor .. => false
      | _ => true
    let tail := (others.head?.map (·.jsn)).getD x.jr.next
    let s := programJ d none (.anchor tail (others.length + 1) x.jr.segs.length (openIntents x.jr)) s
    s.updJr d fun j => { j with anchorTail := tail, anchorTick := s.clk.tick }

/-- ANCHOR (R172): due 2,500 ticks after the last one, or when the tail has advanced by 4,096 entries since. -/
def execAnchor (die : Nat) (s : State) : Answer :=
  match s.die? die with
  | some x =>
    if s.running && s.alive die && journalRoom s die &&
        (decide (x.jr.anchorTick + 2500 ≤ s.clk.tick) || decide (x.jr.anchorTail + 4096 ≤ x.jr.tail)) then
      .next (programAnchor die s)
    else .next s
  | none => .next s

/-- CONFIG FOLD (R170): LOST BLOCKS, TILE STATE and MAP SWITCH changes are in the configuration database. -/
def execConfigFold (die : Nat) (s : State) : Answer :=
  if s.running && s.alive die then
    .next (dropEntries die (fun e => match e.body with
      | .lostBlocks .. | .tileState .. | .mapSwitch .. => true
      | _ => false) s)
  else .next s

/-- NV VERIFY PASS (R173, R390 D10, R503): each invalid journal entry is rewritten from a mirror's copy. -/
def execNvVerifyPass (die : Nat) (bad : List Nat) (s : State) : Answer :=
  match s.die? die with
  | some x =>
    if !checksRun s die then .next s
    else
      let hit := bad.filter fun j => x.jr.entries.any fun e => e.jsn == j
      let s := s.updHw die fun h => { h with nvVerify := s.clk.tick }
      .next (finishTest 5 die none hit.length (hit.foldl (fun s j => raise die 0x1203 { arg0 := j }
        (countFault die 10 (s.updJr die fun q => { q with invalid := q.invalid + 1 }))) s))
  | none => .next s

end Sys2Proof.Machine
end

