-- ==== Sys2Proof/Machine/Recorder.lean ====
section
/-! DEFINITION. The event recorder's own rows: rate windows, saves of operating time, freeze and thaw, the combined
index (R415 to R433). -/

namespace Sys2Proof.Machine

/-- RATE WINDOW (R418, R419): the first tick of a window on a die, unless an event of that tick has begun the window there. -/
def execRateWindow (die : Nat) (s : State) : Answer := if s.on then .next (rollWindow die s) else .next s

/-- R427: the next multiple of 15,000,000 above an operating time. -/
def nextSave (t : Nat) : Nat := (t / 15000000 + 1) * 15000000

/-- R427: the unit that does not hold the governing value takes the new one. -/
def saveUnits (l : List (Option Nat)) (v : Nat) : List (Option Nat) :=
  match l with
  | [some a, some b] => if a ≤ b then [some v, some b] else [some a, some v]
  | [none, b] => [some v, b]
  | [a, none] => [a, some v]
  | _ => [some v, none]

/-- R427: the governing saved value of a die. -/
def savedOf (x : DieSt) : Option Nat := (x.saved.filterMap id).max?

/-- OPTIME SAVE (R427, R433): from 2,500 ticks before the next multiple b of 15,000,000 a die saves S = b, and its
dropped-record counts with it. -/
def execOptimeSave (die : Nat) (s : State) : Answer :=
  let b := nextSave s.clk.optime
  match s.die? die with
  | some x =>
    if s.on && decide (2 < s.run.phase) && decide (b ≤ s.clk.optime + 2500) && !((savedOf x).any fun v => decide (b ≤ v)) then
      .next ((s.updDie die fun x => { x with saved := saveUnits x.saved b }).updRec die fun q =>
        { q with savedDropped := q.dropped, savedHoldOvf := q.holdOvf })
    else .next s
  | none => .next s

/-- FREEZE EXPIRED (R422): one minute after LOG FREEZE completed the freeze ends as by LOG THAW and 8004h is raised. -/
def execFreezeExpired (s : State) : Answer :=
  if s.on && s.log.frozen && decide (s.log.frozenAt + 15000000 ≤ s.clk.tick) then .next (raisePkg 0x8004 {} (thaw s))
  else .next s

/-- CHALLENGE EXPIRED (R424): a challenge is live for 15,000,000 ticks. -/
def execChallengeExpired (s : State) : Answer :=
  match s.log.challenge with
  | some c =>
    if s.on && decide (c.at_ + 15000000 ≤ s.clk.tick) then .next { s with log := { s.log with challenge := none } } else .next s
  | none => .next s

/-- R423: the order of the combined index: OPTIME, an 8005h record first, die index, RSEQ. -/
def indexBefore (a b : Rec) : Bool :=
  if a.optime != b.optime then decide (a.optime < b.optime)
  else if (a.code == 0x8005) != (b.code == 0x8005) then a.code == 0x8005
  else if a.die != b.die then decide (a.die < b.die)
  else decide (a.rseq ≤ b.rseq)

/-- Insertion by the order of the combined index. -/
def insRec (r : Rec) : List Rec → List Rec
  | [] => [r]
  | x :: xs => if indexBefore r x then r :: x :: xs else x :: insRec r xs

/-- R423: the records of the dies that the lead die can read: those in service, and retired ones over a live fabric. -/
def readableDie (s : State) (d : Nat) : Bool := s.alive d || (fabricHops s s.id.lead d).isSome

/-- R423: the combined index. -/
def combined (s : State) : List Rec :=
  ((s.dieIdx.filter (readableDie s)).flatMap fun d => ((s.die? d).map (·.recd.slots)).getD []).foldl (fun l r => insRec r l) []

/-- R414: DETAIL, bytes 16 to 55. -/
def detailBytes (r : Rec) : Bytes :=
  le 2 r.det.pool ++ le 2 r.det.vol ++ le 2 r.det.ring ++ le 2 r.det.item ++ le 2 r.det.cause ++ le 2 0 ++ le 8 r.det.arg0 ++
    le 8 r.det.arg1 ++ (if r.code = 0x4001 then le 2 r.det.arg2 ++ zeros 6 else le 8 r.det.arg2) ++ zeros 4

/-- R431, R432: the recorder memory of a die has failed: 8001h is the first record of the fault area, FAULT_N. -/
def recorderFailed (d cause slot : Nat) (s : State) : State :=
  if (s.die? d).any (fun x => x.recd.failed) then s
  else
    let det : Detail := { cause := cause, arg0 := slot }
    let s := signalEvent d 0x8001 s
    let r := mkRec s d 0x8001 det
    holdFault 1 (s.updRec d fun q => toFaultArea r { q with failed := true })

end Sys2Proof.Machine
end

