-- ==== Sys2Proof/Machine/Frame.lean ====
section
/-! DEFINITION. The tick frame: capacities, admission by class, budgets, misses and shedding, tick alignment, the power
cap (R47 to R75, R459, R548). -/

namespace Sys2Proof.Machine

/-! ### Capacities (R49, R548) -/

/-- R49: the stage allotments of the core classes in row order, stages 1 to 5. -/
def allotments : List (List Nat) :=
  [[3200, 0, 0, 0, 2560], [0, 5760, 0, 0, 0], [0, 0, 5760, 0, 0], [0, 0, 0, 3200, 2560], [0, 0, 2560, 3200, 0],
   [0, 0, 1920, 1920, 1920], [0, 0, 0, 2880, 2880]]

/-- R49: the allotment of a class at a stage (1 to 5). -/
def allotment (cls stage : Nat) : Nat := ((allotments[cls]?).bind (·[stage - 1]?)).getD 0

/-- R384: cores of a die that do a job. -/
def coresOf (x : DieSt) (job : Nat) : Nat := (x.hw.cores.filter (· == job)).length

/-- R485: the core class, in the row order of R49, of resources 0 to 5; 13 stands for the rebuild class, which has no
reservation (the model's own number). -/
def classOfRes : Nat → Nat
  | 4 => 5
  | 5 => 6
  | 13 => 4
  | r => r

/-- R384, R459: the host link width after L0p narrowing, 0, 4, 8 or 16; a port whose link is down has none. -/
def hostWidthNow (x : DieSt) : Nat :=
  if x.linkUp then widthOf (max (min 4 x.hw.hostWidth) (x.hw.hostWidth / 2 ^ x.hw.narrow)) else 0

/-- R548: capacity per tick of a resource of a die (0 to 12 in the order of R485, 13 the rebuild class), at a stage for a
core class. -/
def capacity (x : DieSt) (res stage : Nat) : Nat :=
  match res with
  | 6 => 819200 * (x.hw.gf.filter id).length
  | 7 => 204800 * (x.hw.aes.filter id).length
  | 8 => (x.hw.movers.filter id).length
  | 9 => 484000 * hostWidthNow x * x.hw.hostRate / 1024
  | 10 => 28500 * x.hw.driveRates.sum / (64 * 2 ^ x.hw.narrow)
  | 11 => 455111 * x.link.width / 16
  | 12 => 32 * x.hw.ddrRate * (x.hw.ddr.filter id).length
  | r => allotment (classOfRes r) (stage + 1) * coresOf x (classOfRes r)

/-- R52, R548: an urgent reservation; a nonzero percentage of the movers reserves at least one. -/
def reservation (s : State) (x : DieSt) (res stage : Nat) : Nat :=
  let p := (s.feat.now.resv[res]?).getD 0
  let v := capacity x res stage * p / 100
  if res = 8 ∧ 0 < p then max 1 v else v

/-! ### Work items (R51, R56, R61, R69, R100, R168) -/

/-- R51, R61, R139, R168, R272: the class at which an item is served: its command's, lent class 0 included, its destage's, that of a
mitre step's lock, or bulk. -/
def classOfWork (s : State) : Work → Nat
  | .command c => ((s.cmd? c).map Cmd.served).getD 3
  | .destage i => ((s.destages.find? (·.id == i)).map (·.cls)).getD 3
  | .reshape p => (((s.pool? p).bind (·.lock)).map (·.cls)).getD 3
  | .rebuild _ | .copyBack _ | .scrub _ => 3

/-- R54, R61, R449: the tenant that an item counts for: of a lent command, the one whose urgent command caused the lending. -/
def tenantOfWork (s : State) : Work → Option Nat
  | .command c => (s.cmd? c).bind fun c => if c.lent then c.lentBy else c.tenant
  | _ => none

/-- R56, R258: the place of internal background work in the order rebuild, reshape, copy-back, scrub; none for other work. A
destage that has gone to background (R154) is none of the four, and draws on the bulk rings' part: DESIGN CHOICE, R154 calls it
background work and R56 does not (assumption 43). -/
def backRank : Work → Option Nat
  | .rebuild _ => some 0
  | .reshape _ => some 1
  | .copyBack _ => some 2
  | .scrub _ => some 3
  | _ => none

/-- R56: internal background work. -/
def isBack (w : Work) : Bool := (backRank w).isSome

/-- R56: the rebuild floor is for rebuild and reshape. -/
def hasFloor (w : Work) : Bool := (backRank w).any fun n => decide (n < 2)

/-- An item still has something to serve. -/
def liveWork (s : State) : Work → Bool
  | .command c => (s.cmd? c).isSome
  | .destage i => s.destages.any (·.id == i)
  | .rebuild p | .reshape p | .copyBack p | .scrub p => (s.pool? p).isSome

/-- R69: the budget of an item's kind on a die. -/
def budgetOf (x : DieSt) (i : Item) : Option Budget := x.frame.budgets.find? fun b => b.kind == i.kind && b.cls == classOfRes i.res && b.stage == i.stage + 1

/-- R69: an item of a core class needs the budget of its kind. -/
def sized (x : DieSt) (i : Item) : Item :=
  match budgetOf x i with
  | some b => { i with need := b.current, byteItem := false }
  | none => i

/-- R55, R100: the next turn in a class's round among the rings that have something to serve, each with its ID, weight and burst:
the place that it takes, and whether it begins a round. A place whose ring has run out of its visit or of things to serve passes
to the next ring of the pass, then to the next pass. A visit that ran out of ready entries while every ring of the class was idle
goes on with its count when its ring has entries again before another ring is served: DESIGN CHOICE, R100 does not say whether
such a visit, or its round, has ended (assumption 43). -/
def nextTurn (t : Turn) (l : List (Nat × Nat × Nat)) : Turn × Bool :=
  let low (p lo : Nat) : Option Nat := ((l.filter fun q => decide (p ≤ q.2.1) && decide (lo ≤ q.1)).map (·.1)).min?
  let first : Turn × Bool := (⟨((l.map (·.1)).min?).getD 0, 1, 1⟩, true)
  if t.pass = 0 then first
  else if l.any fun q => q.1 == t.ring && decide (t.visit < q.2.2) then ({ t with visit := t.visit + 1 }, false)
  else match low t.pass (t.ring + 1) with
    | some i => (⟨i, t.pass, 1⟩, false)
    | none => match low (t.pass + 1) 0 with
      | some i => (⟨i, t.pass + 1, 1⟩, false)
      | none => first

/-- R55, R100: a die's places in the rounds. -/
def State.arbOf (s : State) (d : Nat) : ArbSt := (s.arb[d]?).getD {}

/-- R55, R100: the place in the round of a class at a place of a die. -/
def ArbSt.turn (f : ArbSt) (k : Nat × Nat × Nat) : Turn := ((f.turns.find? fun e => e.1 == k).map (·.2)).getD {}

/-- R55, R100: the place in the round of a class at a place of a die, kept. -/
def ArbSt.setTurn (k : Nat × Nat × Nat) (t : Turn) (f : ArbSt) : ArbSt :=
  { f with turns := (k, t) :: f.turns.filter fun e => e.1 != k }

/-- R55: the ring that an item counts for in its class's round: ID, weight and burst; other items count as a ring 0 of weight 1. -/
def ringOfItem (s : State) (i : Item) : Nat × Nat × Nat :=
  match i.work with
  | .command c => match s.ring? c.die c.ring with
    | some r => (r.id, r.weight, r.burst)
    | none => (c.die * 512 + c.ring, 1, 1)
  | _ => (0, 1, 1)

/-- R55, R100: the items of one class in the order of their rings' rounds from a place on, each with the place that serves it. -/
def ringOrder (s : State) : Nat → Turn → List (Nat × Item) → List ((Nat × Item) × Turn)
  | 0, _, _ => []
  | n + 1, t, l =>
    let t1 := (nextTurn t (l.map fun i => ringOfItem s i.2)).1
    match l.find? fun i => (ringOfItem s i.2).1 == t1.ring with
    | some i => (i, t1) :: ringOrder s n t1 (l.filter fun j => j.1 != i.1)
    | none => []

/-! ### Admission (R53 to R56) -/

/-- What an item, by its place in the order of arrival, has been granted so far. -/
def got (g : List (Nat × Nat)) (j : Nat) : Nat := ((g.filter (·.1 == j)).map (·.2)).sum

/-- What a list of grants takes. -/
def taken (g : List (Nat × Nat)) : Nat := (g.map (·.2)).sum

/-- R54: items in order against what is left of a capacity: a byte item takes a part, another one all it needs or nothing. A
later item that fits passes one that does not: DESIGN CHOICE, "as many as fit" does not say which (assumption 43). -/
def give (g : List (Nat × Nat)) : Nat → List (Nat × Item) → List (Nat × Nat)
  | _, [] => []
  | left, (j, i) :: l =>
    let need := i.need - got g j
    let n := if i.byteItem then min need left else if need ≤ left then need else 0
    (j, n) :: give g (left - n) l

/-- R55: a capacity divided among parties in proportion to their weights; what one does not need goes to the others. -/
def divide (w need : Nat → Nat) : Nat → List Nat → Nat → List (Nat × Nat)
  | 0, _, _ => []
  | n + 1, ps, left =>
    let total := (ps.map w).sum
    if total = 0 then (ps.take 1).map fun p => (p, left)
    else
      let fits := ps.filter fun p => decide (need p * total ≤ left * w p)
      if fits.isEmpty then ps.map fun p => (p, left * w p / total)
      else fits.map (fun p => (p, need p)) ++ divide w need n (ps.filter fun p => !fits.contains p) (left - (fits.map need).sum)

/-- R70: half of a stage's allotment over the class's cores, in cycles. -/
def halfStage (x : DieSt) (b : Budget) : Nat := allotment b.cls b.stage * coresOf x b.cls / 2

/-- R53, R70: what the urgent items at a place may take: the reservation, or what the urgent count of a kind that waits needs
at its current budget, up to half of the allotment. -/
def urgentRoom (s : State) (x : DieSt) (res stage : Nat) (l : List (Nat × Item)) : Nat :=
  (l.filterMap fun i => budgetOf x i.2).foldl (fun n b => max n (min (halfStage x b) (b.urg * b.current))) (reservation s x res stage)

/-- R66, R459: a class of the shared remainder is served: the power cap has not shrunk it, and bulk is not shed. -/
def classOpen (s : State) (x : DieSt) (c : Nat) : Bool := decide (s.pw.restrict + c < 4) && !(x.frame.shed && c == 3)

/-- R53, R66, R69: items whose budget exceeds the whole allotment: at most one on each core, at the start of the stage. Urgent
ones come first, then the cores that the other urgent items do not need are left for those of the classes that are served. -/
def bigItems (s : State) (x : DieSt) (res stage : Nat) (l : List (Nat × Item)) : List (Nat × Item) :=
  let all := allotment (classOfRes res) (stage + 1)
  let big (i : Nat × Item) : Bool := (budgetOf x i.2).isSome && decide (all < i.2.need)
  let urgent (i : Nat × Item) : Bool := classOfWork s i.2.work == 0
  let first := (l.filter fun i => big i && urgent i).take (coresOf x (classOfRes res))
  let small := min (urgentRoom s x res stage l) (((l.filter fun i => !big i && urgent i).map (·.2.need)).sum)
  let free := coresOf x (classOfRes res) - first.length - ceilDiv small (max 1 all)
  first ++ (l.filter fun i => big i && !urgent i && classOpen s x (classOfWork s i.2.work)).take free

/-- R258: the background items in the order rebuild, reshape, copy-back, scrub. -/
def backOrder (l : List (Nat × Item)) : List (Nat × Item) :=
  (List.range 4).flatMap fun k => l.filter fun i => backRank i.2.work == some k

/-- R55, R100: the items of a class that rings count for, in the order of their rounds at a place of a die. -/
def inRounds (s : State) (d res stage c : Nat) (l : List (Nat × Item)) : List (Nat × Item) :=
  (ringOrder s l.length ((s.arbOf d).turn (res, stage, c)) l).map (·.1)

/-- R55, R56, R258: one class's share of what is left, by the rounds of its rings. Of bulk, the work of commands never takes what the share
of background work reserves where such work waits; background work takes its share and what the rings leave (DESIGN CHOICE, R56 does
not say who gets a part that its own side leaves; assumption 43). -/
def grantClass (s : State) (d res stage : Nat) (g : List (Nat × Nat)) (c left : Nat) (l : List (Nat × Item)) :
    List (Nat × Nat) :=
  if c ≠ 3 then give g left (inRounds s d res stage c l)
  else
    let back := backOrder l
    let own := if back.any fun i => got g i.1 < i.2.need then left * (100 - s.feat.now.share) / 100 else left
    let mine := give g own (inRounds s d res stage c (l.filter fun i => !isBack i.2.work))
    mine ++ give g (left - taken mine) back

/-- R24, R53 to R56, R66, R69, R70, R459: what the items waiting at one resource of one die, in the order of their arrival, are
granted in a tick, when `late` of its capacity has gone to stage overruns. Classes whose share the power cap has shrunk get
nothing of the shared remainder; a die that sheds gives bulk only the rebuild floor. On one GF engine bulk parity work, the rebuild floor
with it, gets only what classes 1 and 2 leave: DESIGN CHOICE, R56 would grant the floor before them (assumption 43). -/
def admitAt (s : State) (x : DieSt) (d res stage late : Nat) (l : List (Nat × Item)) : List (Nat × Nat) :=
  let f := s.feat.now
  let cap := capacity x res stage - late
  let big := bigItems s x res stage l
  let rest := l.filter fun i => !big.any (·.1 == i.1)
  let cap1 := cap - big.length * allotment (classOfRes res) (stage + 1)
  let room := min cap1 (urgentRoom s x res stage rest)
  let urgent := rest.filter fun i => classOfWork s i.2.work == 0
  let g1 := give [] room urgent
  let left1 := cap1 - if urgent.any (fun i => got g1 i.1 < i.2.need) then room else taken g1
  let last := res == 6 && (x.hw.gf.filter id).length == 1
  let floor (g : List (Nat × Nat)) (left : Nat) (l : List (Nat × Item)) : List (Nat × Nat) :=
    give g (min (capacity x res stage * f.floor / 100) left) (backOrder (l.filter fun i => hasFloor i.2.work))
  let g2 := if last then [] else floor [] left1 rest
  let left2 := left1 - taken g2
  let mine (c : Nat) : List (Nat × Item) := if classOpen s x c then rest.filter fun i => classOfWork s i.2.work == c else []
  let need (c : Nat) : Nat := ((mine c).map fun i => i.2.need - got g2 i.1).sum
  let shares := divide (fun c => (f.weights[c - 1]?).getD 0) need 3 ((if last then [1, 2] else [1, 2, 3]).filter fun c => 0 < need c) left2
  let g3 := shares.flatMap fun (c, n) => grantClass s d res stage g2 c n (mine c)
  let left3 := left2 - taken g3
  let g4 := if last then floor [] left3 (rest.filter fun i => classOfWork s i.2.work == 3) else []
  big.map (fun i => (i.1, i.2.need)) ++ g1 ++ g2 ++ g3 ++ g4 ++ if last then grantClass s d res stage g4 3 (left3 - taken g4) (mine 3) else []

/-- The stage after one in a core class's frame (R49), both counted from 0. -/
def nextStage (cls stage : Nat) : Option Nat := (List.range 5).find? fun n => decide (stage < n) && decide (0 < allotment cls (n + 1))

/-- R63: the cycles that stage overruns of a tick take from a stage of a class on a die. -/
def lateCycles (x : DieSt) (d : Nat) (os : List Overrun) (res stage : Nat) : Nat :=
  if 6 ≤ res ∧ res ≠ 13 then 0
  else
    let hits (o : Overrun) : Bool := o.die == d && x.hw.cores[o.core]? == some (classOfRes res) && nextStage (classOfRes res) (o.stage - 1) == some stage
    ((os.filter hits).map (·.cycles)).sum

/-- R51, R54, R69: the items of a die in the order of their arrival: those still held at their stages, then the new ones. -/
def itemsOf (s : State) (x : DieSt) (d : Nat) (is : List Item) : List (Nat × Item) :=
  (((x.frame.waiting.filter fun i => liveWork s i.work) ++ is.filter (·.die == d)).map (sized x)).zipIdx.map fun (i, j) => (j, i)

/-- The places where items wait: (resource, stage). -/
def itemPlaces (l : List (Nat × Item)) : List (Nat × Nat) := (l.map fun i => (i.2.res, i.2.stage)).eraseDups

/-- R69: the stage overruns that items bigger than their stage make on a die: the cycles beyond the allotment. -/
def bigOverruns (s : State) (x : DieSt) (d : Nat) (l : List (Nat × Item)) : List Overrun :=
  (itemPlaces l).flatMap fun (r, st) =>
    let cores := (List.range 24).filter fun i => x.hw.cores[i]? == some (classOfRes r)
    ((bigItems s x r st (l.filter fun i => i.2.res == r && i.2.stage == st)).zip cores).map fun (i, c) =>
      { die := d, core := c, stage := st + 1, cycles := i.2.need - allotment (classOfRes r) (st + 1) }

/-- R63, R69: the stage overruns of a tick: those found, and those that items bigger than their stage make. -/
def overrunsOf (s : State) (os : List Overrun) (is : List Item) : List Overrun :=
  os ++ s.dies.zipIdx.flatMap fun (x, d) => bigOverruns s x d (itemsOf s x d is)

/-- R53 to R56: what each item of a die is granted in a tick. -/
def admitDie (s : State) (os : List Overrun) (is : List Item) (x : DieSt) (d : Nat) : List (Item × Nat) :=
  let l := itemsOf s x d is
  let g := (itemPlaces l).flatMap fun (r, st) =>
    admitAt s x d r st (lateCycles x d os r st) (l.filter fun i => i.2.res == r && i.2.stage == st)
  l.map fun i => (i.2, got g i.1)

/-- R55, R100: the places in the rounds of a die after a tick's grants: at each place, for each class, the place of the last item
that was served, in whole or in part. -/
def turnsAfter (s : State) (l : List (Nat × Item)) (g : List (Item × Nat)) (f : ArbSt) : ArbSt :=
  let served (j : Nat) : Bool := (g[j]?).any fun e => decide (0 < e.2)
  let mine (k : Nat × Nat × Nat) : List (Nat × Item) :=
    l.filter fun i => i.2.res == k.1 && i.2.stage == k.2.1 && classOfWork s i.2.work == k.2.2 && !isBack i.2.work
  let last (k : Nat × Nat × Nat) : Option Turn :=
    (((ringOrder s (mine k).length (f.turn k) (mine k)).filter fun e => served e.1.1).getLast?).map (·.2)
  ((itemPlaces l).flatMap fun p => [1, 2, 3].map fun c => (p.1, p.2, c)).foldl (fun f k => match last k with
    | some t => f.setTurn k t
    | none => f) f

/-- R51, R54: the items that keep their place for the next tick, with what they still need. -/
def stillWaiting (g : List (Item × Nat)) : List Item :=
  (g.filter fun (i, n) => n < i.need).map fun (i, n) => { i with need := i.need - n }

/-- R51: an item of some work waits at a stage that has not admitted it, or not wholly: the work does not go on. -/
def heldWork (s : State) (w : Work) : Bool := s.dies.any fun x => x.frame.waiting.any fun i => i.work == w

/-- R54: the urgent items held in a tick: those that received nothing. -/
def heldUrgent (s : State) (g : List (Item × Nat)) : List Item :=
  (g.filter fun (i, n) => classOfWork s i.work == 0 && n == 0 && 0 < i.need).map (·.1)

/-- R54, R449: the urgent overrun ticks of a tick, one for each tenant and each die concerned, with event 0030h. -/
def countOverruns (tenants dies : List Nat) (s : State) : State :=
  let s := tenants.foldl (fun s t => s.updMeters t fun m => { m with urgOvr := m.urgOvr + 1 }) s
  dies.foldl (fun s d => raise d 0x0030 {} (s.updFrame d fun f => { f with overruns := f.overruns + 1 })) s

/-- R54, R449: the tenants that some held items count for. -/
def tenantsOf (s : State) (held : List Item) : List Nat := (held.filterMap fun i => tenantOfWork s i.work).eraseDups

/-- R54: the dies of some held items. -/
def diesOf (held : List Item) : List Nat := (held.map (·.die)).eraseDups

/-- R61, R449: the die-ticks in which a tenant had an item admitted against the urgent reservation. -/
def countUrgent (g : List (Item × Nat)) (s : State) : State :=
  let hits := ((g.filter fun (i, n) => classOfWork s i.work == 0 && 0 < n).filterMap fun (i, _) =>
    (tenantOfWork s i.work).map fun t => (t, i.die)).eraseDups
  hits.foldl (fun s (t, _) => s.updMeters t fun m => { m with urgTicks := m.urgTicks + 1 }) s

/-- R53 to R56 in one tick: what the items that wait are granted. -/
def admission (os : List Overrun) (is : List Item) (s : State) : State :=
  let by_ := s.dies.zipIdx.map fun (x, d) => admitDie s os is x d
  let g := by_.flatten
  let keep (x : DieSt × Nat) : DieSt := { x.1 with frame := { x.1.frame with waiting := stillWaiting ((by_[x.2]?).getD []) } }
  let arb := s.dies.zipIdx.map fun (x, d) => turnsAfter s (itemsOf s x d is) ((by_[d]?).getD []) { s.arbOf d with taken := (0, 0) }
  countUrgent g (countOverruns (tenantsOf s (heldUrgent s g)) (diesOf (heldUrgent s g)) { s with grants := g, dies := s.dies.zipIdx.map keep, arb := arb })

/-! ### Budgets (R68 to R71) -/

/-- R485: the resource whose reservation a core class has; the rebuild class has none. -/
def resOfClass : Nat → Option Nat
  | 4 => none
  | 5 => some 4
  | 6 => some 5
  | c => some c

/-- R70: the urgent items per tick that a reservation converts into. -/
def urgFrom (s : State) (x : DieSt) (b : Budget) : Nat :=
  match resOfClass b.cls with
  | none => 0
  | some r => min top16 (if b.current = 0 then 0 else reservation s x r (b.stage - 1) / b.current)

/-- R70: the urgent count that fits in half of the allotment at the current budget. -/
def urgFit (x : DieSt) (b : Budget) : Nat := if b.current = 0 then b.urgBase else min b.urgBase (halfStage x b / b.current)

/-- R69 to R71: a budget after a window with percentile p; one tick stamps whichever figure changes (R72). -/
def budgetStep (now p : Nat) (b : Budget) : Budget :=
  let n : Budget :=
    if b.current * 110 < p * 100 then { b with current := p, p999 := p, low := 0 }
    else if p * 100 < b.current * 90 then
      if b.low + 1 < 4 then { b with p999 := p, low := b.low + 1 }
      else { b with current := max b.calib p, p999 := p, low := 0 }
    else { b with p999 := p, low := 0 }
  { n with changed := if n.current = b.current ∧ n.p999 = b.p999 then b.changed else now }

/-- R69, R70, R71: one budget of a die at the end of a window, with its events. -/
def evalBudget (d p : Nat) (b : Budget) (s : State) : State :=
  match s.die? d with
  | none => s
  | some x =>
    let b1 := budgetStep s.clk.tick p b
    let b2 := { b1 with urg := if b1.current = b.current then b.urg else urgFit x b1 }
    let s := s.updFrame d fun f => { f with budgets := updIf (·.kind == b.kind) (fun _ => b2) f.budgets }
    let s := if b.current < b1.current then
        raise d 0x0034 { item := b.kind, cause := b.stage, arg0 := b.cls, arg1 := b.current, arg2 := b1.current } s else s
    if b2.urg < b.urg then raise d 0x0035 { item := b.kind, cause := b.stage, arg0 := b.cls, arg1 := b.urg, arg2 := b2.urg } s else s

/-- BUDGET WINDOW (R69 to R71): at the boundary after each window of 65,536 ticks, once, a die's budgets follow the
percentiles measured, one for each of the twelve kinds. -/
def execBudgetWindow (die : Nat) (percentiles : List Nat) (s : State) : Answer :=
  match s.die? die with
  | some x =>
    if s.running && s.alive die && decide (x.frame.window < s.clk.tick / 65536) then
      .next ((x.frame.budgets.zip percentiles).foldl (fun s (b, p) => evalBudget die p b s)
        (s.updFrame die fun f => { f with window := s.clk.tick / 65536 }))
    else .next s
  | none => .next s

/-- R70: counts recomputed from the reservations in force and the current budgets. -/
def recount (s : State) : State :=
  { s with dies := s.dies.map fun x => { x with frame := { x.frame with budgets := x.frame.budgets.map fun b =>
      let n := urgFrom s x b
      { b with urg := n, urgBase := n, changed := if n = b.urg then b.changed else s.clk.tick } } } }

/-! ### Misses and shedding (R63 to R67) -/

/-- R66: misses of the sliding window that ends at the current tick. -/
def inWindow (now span : Nat) (l : List Nat) : List Nat := l.filter fun t => decide (now < t + span)

/-- R64, R65: one miss counted on a die, with event 0031h. -/
def countMiss (d : Nat) (external : Bool) (det : Detail) (s : State) : State :=
  raise d 0x0031 { det with arg0 := bit external } (countFault d 14 (s.updFrame d fun f =>
    if external then { f with extMiss := s.clk.tick :: f.extMiss, extTotal := f.extTotal + 1 }
    else { f with intMiss := s.clk.tick :: f.intMiss, intTotal := f.intTotal + 1 }))

/-- R63, R65, R414: a stage overrun is an internal miss of row 7. -/
def missStage (o : Overrun) (s : State) : State := countMiss o.die false { cause := 7, arg1 := o.stage + 256 * o.core } s

/-- R64, R414: a missed deadline of a command, of a row of the table of R63: counted on the die that serves it, LATE. -/
def missRow (d row : Nat) (ref : CmdRef) (s : State) : State :=
  match s.cmd? ref with
  | none => s
  | some c =>
    let s1 := countMiss d c.outside { ring := c.ref.die * 512 + c.ref.ring, item := c.entry.tag.toNat, vol := c.entry.vol.toNat,
                                      cause := row } s
    s1.updCmd ref fun c => { c with late := true, missed := row :: c.missed }

/-- FRAME OVERRUN (R66): more than 64 internal misses in the window: bulk admission is shed. -/
def execFrameOverrun (die : Nat) (s : State) : Answer :=
  match s.die? die with
  | some x =>
    if s.running && s.alive die && !x.frame.shed && decide (64 < (inWindow s.clk.tick 250000 x.frame.intMiss).length) then
      .next (raise die 0x0032 {} (s.updFrame die fun f => { f with shed := true, shedTick := s.clk.tick }))
    else .next s
  | none => .next s

/-- FRAME RECOVERED (R67): no more than 16 internal misses in the window and none in 2,500 ticks: bulk admission is restored at
the next tick boundary. -/
def execFrameRecovered (die : Nat) (s : State) : Answer :=
  match s.die? die with
  | some x =>
    if s.running && s.alive die && x.frame.shed && !x.frame.recovering && decide ((inWindow s.clk.tick 250000 x.frame.intMiss).length ≤ 16) &&
        (inWindow s.clk.tick 2500 x.frame.intMiss).isEmpty then
      .next (raise die 0x0033 {} (s.updFrame die fun f => { f with recovering := true }))
    else .next s
  | none => .next s

/-- FRAME NOT RECOVERED (R67): still more than 64 misses 250,000 ticks after shedding began: yield with cause 05h. -/
def execFrameNotRecovered (die : Nat) (s : State) : Answer :=
  match s.die? die with
  | some x =>
    if s.running && x.frame.shed && !x.frame.recovering && decide (x.frame.shedTick + 250000 ≤ s.clk.tick) &&
        decide (64 < (inWindow s.clk.tick 250000 x.frame.intMiss).length) then
      .next (dieYield die 0x05 s)
    else .next s
  | none => .next s

/-- R67: at a tick boundary bulk admission is restored where shedding has ended. -/
def endShedding (s : State) : State :=
  let one (f : FrameSt) : FrameSt := if f.recovering then { f with shed := false, recovering := false, shedTick := s.clk.tick } else f
  { s with dies := s.dies.map fun x => { x with frame := one x.frame } }

/-! ### Tick alignment (R73 to R75) -/

/-- R73, R516 ROLE: the package follows. -/
def follower (s : State) : Bool := s.id.inPair && s.id.pkgid == 1

/-- R73, R75: the follower's view of the leader's pulse in one tick, in ns; none when no pulse came. Beyond 50 ns the tick is
lengthened or shortened by one cycle, unless the follower runs free. -/
def ticksync (o : Option Int) (s : State) : State :=
  if !follower s then s
  else
    match o with
    | none => { s with clk := { s.clk with noPulse := s.clk.noPulse + 1, farPulse := 0 } }
    | some v =>
      let far := decide (v.natAbs > 500)
      let lost := s.clk.syncLost && far
      { s with clk := { s.clk with
          noPulse := 0
          farPulse := if far then s.clk.farPulse + 1 else 0
          syncOffset := BitVec.ofInt 16 v
          syncLost := lost
          tickLen := if lost || !s.clk.seen || v.natAbs ≤ 50 then s.clk.tickLen else if 0 < v then 6401 else 6399
          aligned := decide (v.natAbs ≤ 50) } }

/-- R74: the follower has to align with one long tick: at its first sight of the pulses, or when they return beyond 500 ns. -/
def mustAlign (s : State) : Bool := !s.clk.seen || (s.clk.syncLost && decide (s.clk.noPulse = 0) && decide (500 < s.clk.syncOffset.toInt.natAbs))

/-- TICKSYNC ALIGN (R74): the follower aligns with one tick longer by the leader's offset, below one tick. -/
def execTicksyncAlign (cycles : Nat) (s : State) : Answer :=
  if follower s && s.on && mustAlign s && decide (cycles < 6400) then
    .next { s with clk := { s.clk with realigns := satAdd top16 s.clk.realigns 1, syncLost := false, aligned := true, seen := true,
                                       tickLen := 6400 + cycles, syncOffset := 0, noPulse := 0, farPulse := 0 } }
  else .next s

/-- TICKSYNC LOST (R75): four ticks without a pulse, or sixteen with an offset above 500 ns. -/
def execTicksyncLost (s : State) : Answer :=
  if follower s && s.on && !s.clk.syncLost && (decide (4 ≤ s.clk.noPulse) || decide (16 ≤ s.clk.farPulse)) then
    .next (raisePkg 0x0036 {} { s with clk := { s.clk with syncLost := true, aligned := false } })
  else .next s

/-! ### The power cap (R459) -/

/-- R459: a change of the halvings of one die's links. -/
def setNarrow (p : Nat → Bool) (f : Nat → Nat) (s : State) : State :=
  { s with dies := s.dies.zipIdx.map fun (x, d) =>
           if p d then { x with hw := { x.hw with narrow := f x.hw.narrow } } else x }

/-- R459: one step of enforcement at a tick boundary, or one step back. Steps: class 3, class 2, class 1, then a halving
of the links of the dies whose link partner supports L0p, one every 250 ticks. -/
def enforceCap (l0p : List Nat) (s : State) : State :=
  let cap := capNow s
  let avg := powerAvg s
  if cap = 0 then setNarrow (fun _ => true) (fun _ => 0) { s with pw := { s.pw with restrict := 0 } }
  else if (if s.pw.restrict = 0 then cap * 10 < avg else cap * 97 ≤ avg * 10) then
    if s.pw.restrict < 3 then
      let s1 := { s with pw := { s.pw with restrict := s.pw.restrict + 1 } }
      if s.pw.restrict = 2 then raisePkg 0x6011 { arg0 := cap } s1 else s1
    else if s.pw.narrowAt + 250 ≤ s.clk.tick then
      setNarrow l0p.contains (fun n => min 2 (n + 1)) { s with pw := { s.pw with narrowAt := s.clk.tick } }
    else s
  else if avg * 10 < cap * 90 then
    if s.dies.any (fun x => decide (0 < x.hw.narrow)) then setNarrow (fun _ => true) (· - 1) s
    else { s with pw := { s.pw with restrict := s.pw.restrict - 1 } }
  else s

/-- R459, R512: a tick's power sample, kept for 2,500 ticks. -/
def samplePower (w : Nat) (s : State) : State := { s with pw := { s.pw with samples := (w :: s.pw.samples).take 2500 } }

/-- R460, R512: a tick's junction temperatures, and the count of ticks with every die below 95 degrees. -/
def sampleTemps (ts : List (BitVec 8)) (s : State) : State :=
  let s := ts.zipIdx.foldl (fun s (t, d) => s.updHw d fun h => { h with temp := t }) s
  let cool := s.dies.all fun x => !x.alive || decide (degrees x.hw.temp < 95)
  { s with pw := { s.pw with cool := if cool then s.pw.cool + 1 else 0 } }

end Sys2Proof.Machine
end

