-- ==== Sys2Proof/Machine/Entries.lean ====
section
/-! DEFINITION. Dispatch of ring entries: what makes an entry malformed, which fields each opcode uses, token buckets,
the command that dispatch creates (R82 to R100, R108 to R110, R114, R441, R475, R476). -/

namespace Sys2Proof.Machine

/-! ### Fields an opcode uses (R114, R341, R475) -/

/-- R114: opcodes that take a volume. -/
def usesVol : Op → Bool
  | .read | .write | .flush | .flushMedia | .writeZeroes | .deallocate | .verify => true
  | _ => false

/-- R114: opcodes that take a block range. -/
def usesRange : Op → Bool
  | .read | .write | .writeZeroes | .deallocate | .verify => true
  | _ => false

/-- R114, R341, R475: opcodes that take a buffer: IND, DPTR and DLEN. GET and SET FEATURE take them for every feature, one
without a buffer too: DESIGN CHOICE, R83 does not divide an opcode's fields by feature (assumption 43). REFLECT ADD and REFLECT
CAS do not take them: R341 takes CTRL as R82 gives it, IND with it, but reserves DPTR and DLEN for them; IND = 1 there is taken
as a reserved bit, cause 01h (DESIGN CHOICE, assumption 43). ENDPOINT STATUS takes them, with REP and VECTOR, for every ACTION, though
R501 gives REP and VECTOR for one ACTION each and names no buffer for some: DESIGN CHOICE (assumption 43). -/
def usesBuf : Op → Bool
  | .read | .write | .reflectWrite | .reflectRead => true
  | .identify | .getFeature | .setFeature | .createPool | .addMember | .replaceMember | .reshapePlan | .poolStatus
  | .memberStatus | .lostBlockList | .loadKey | .meterRead | .endpointStatus | .firmwareDownload | .logRead | .logClear
  | .healthReport | .tickBudgetReport => true
  | _ => false

/-- R114: bits of FLAGS that an opcode uses. -/
def flagMask : Op → Nat
  | .read => 0xE0
  | .write => 0xC0
  | .writeZeroes => 0x80
  | .verify => 0x20
  | _ => 0

/-- R114: bits of PIC that an opcode uses. -/
def picMask : Op → Nat
  | .read | .write => 0xF0
  | .verify => 0x70
  | _ => 0

/-- R114, R341: opcodes that use bytes 24 to 31. -/
def usesRef : Op → Bool
  | .read | .write | .writeZeroes | .verify | .reflectCas => true
  | _ => false

/-- R114: opcodes that use APPTAG. -/
def usesApp : Op → Bool
  | .read | .write | .writeZeroes | .verify => true
  | _ => false

/-- R114: opcodes that use APPMASK. -/
def usesMask : Op → Bool
  | .read | .write | .verify => true
  | _ => false

/-- R114, R341: opcodes that use bytes 8 to 15. -/
def usesLba : Op → Bool
  | .reflectAdd | .reflectCas => true
  | op => usesRange op

/-- Bits hi to lo of the field at byte b, as a mask over bytes 44 to 63. -/
def fm (b hi lo : Nat) : Nat := (2 ^ (hi + 1) - 2 ^ lo) * 256 ^ (b - 44)

/-- R151, R341, R481 to R504: the bits of bytes 44 to 63 that an opcode assigns. -/
def tailMask (op : Op) (e : Entry) : Nat :=
  match op with
  | .abort => fm 44 11 0 + fm 46 15 0
  | .createRing => fm 44 3 0 + fm 45 2 0 + fm 46 7 0 + fm 47 7 0 + fm 48 10 0 + fm 50 15 0 + fm 52 63 0
  | .deleteRing => fm 44 11 0
  | .setRingWeight => fm 44 11 0 + fm 46 7 0 + fm 47 7 0 + fm 48 7 7 + fm 48 1 0
  | .identify => fm 44 7 0 + fm 46 15 0 + (if e.param 44 1 = 1 ∨ e.param 44 1 = 4 then fm 48 31 0 else 0)
  | .getFeature => fm 44 7 0 + fm 46 15 0
  | .setFeature => fm 44 7 0 + fm 46 15 0 + fm 48 127 0
  | .setPowerState => fm 44 7 0 + fm 48 31 0
  | .functionReinit => fm 44 2 0 + fm 45 7 0
  | .destroyPool => fm 44 15 0 + fm 46 0 0
  | .addMember => fm 44 15 0 + fm 46 1 0
  | .retireMember => fm 44 15 0 + fm 46 15 0 + fm 48 0 0
  | .replaceMember => fm 44 15 0 + fm 46 15 0 + fm 48 1 0
  | .createVolume => fm 44 15 0 + fm 46 15 0 + fm 48 15 0 + fm 50 2 0 + fm 51 5 4 + fm 51 1 0 + fm 52 0 0 + fm 56 63 0
  | .resizeVolume => fm 44 15 0 + fm 56 63 0
  | .reshapeStart | .lostBlockList => fm 44 15 0 + fm 48 31 0
  | .reshapeControl | .rebuildControl => fm 44 15 0 + fm 46 7 0
  | .scrubControl => fm 44 15 0 + fm 46 7 0 + fm 56 63 0
  | .memberStatus => fm 44 15 0 + fm 46 15 0
  | .createPool | .deleteVolume | .reshapePlan | .poolStatus | .createTenant | .deleteTenant | .eraseKey | .meterRead =>
    fm 44 15 0
  | .bind => fm 44 15 0 + fm 46 1 0 + fm 48 15 0
  | .loadKey => fm 44 15 0 + fm 46 0 0
  | .setTenantQos => fm 44 15 0 + fm 48 1 0 + fm 49 0 0 + fm 50 15 0 + fm 52 15 0 + fm 56 31 0 + fm 60 31 0
  | .meterConfig => fm 44 1 0 + fm 45 2 0 + fm 46 10 0 + fm 48 63 0 + fm 56 31 0
  | .reflectWrite => fm 44 15 0 + fm 46 15 0 + fm 48 15 0 + fm 50 7 0 + fm 51 0 0 + fm 52 63 0
  | .reflectRead | .reflectAdd | .reflectCas => fm 44 15 0 + fm 46 15 0 + fm 48 15 0 + fm 50 7 0 + fm 52 63 0
  | .registerRegion => fm 44 15 0 + fm 46 3 0 + (if bitAt (e.param 46 1) 3 then 0 else fm 48 63 0) + fm 56 31 0
  | .revokeRegion => fm 44 15 0 + fm 46 15 0
  | .endpointStatus => fm 44 15 0 + fm 46 1 0 + fm 48 15 0 + fm 50 10 0
  | .firmwareDownload | .logRead => fm 48 31 0
  | .firmwareActivate => fm 44 0 0
  | .selfTest => fm 44 2 0 + fm 46 7 0
  | .engineSwap => fm 44 2 0 + fm 45 7 0 + fm 46 0 0
  | .dieRetire => fm 44 2 0 + fm 45 0 0
  | .timeAnchor => fm 44 0 0 + fm 48 63 0
  | .partnerControl | .tickBudgetReport => fm 44 2 0
  | _ => 0

/-- R83, R114, R475: a reserved bit of the entry is 1. -/
def reservedSet (op : Op) (e : Entry) : Bool :=
  e.ctrlRsv != 0 || e.flagsRsv != 0 || (!usesVol op && e.vol != 0) || (e.flags &&& (0xE0 - flagMask op)) != 0 ||
  (e.pic.toNat &&& (0xFF - picMask op)) != 0 || (!usesLba op && e.lba != 0) || (!usesRange op && e.nblk != 0) ||
  (!usesApp op && e.apptag != 0) || (!usesMask op && e.appmask != 0) || (!usesRef op && e.reftag != 0) ||
  (!usesBuf op && (e.ind || e.dptr != 0 || e.dlen != 0)) || (e.params &&& tailMask op e) != e.params

/-- R108: the cause of the first malformed condition met at dispatch, in the order 07h, 01h, 03h, 04h, 05h (02h concerns
an opcode byte that names no command). -/
def malformedCause (op : Op) (e : Entry) : Option Nat :=
  if !e.own then some 7
  else if reservedSet op e then some 1
  else if usesRange op && e.nblk == 0 then some 3
  else if usesBuf op && e.ind && (e.dlen == 0 || decide (4096 < e.dlen.toNat)) then some 4
  else if usesBuf op && !e.ind && (e.dptr.toNat % 4 != 0 || e.dlen.toNat % 4 != 0) then some 5
  else none

/-- R108: the cause of the first malformed fragment. -/
def badFrag : List Frag → Option Nat
  | [] => none
  | f :: fs =>
    if f.rsv != 0 then some 1
    else if f.addr.toNat % 4 != 0 || f.len.toNat % 4 != 0 || f.len == 0 then some 5
    else if f.last != fs.isEmpty then some 6
    else badFrag fs

/-- R108: the cause found when the fragment table is read. -/
def tableCause (e : Entry) (fs : List Frag) : Option Nat := if e.dptr.toNat % 16 != 0 then some 5 else badFrag fs

/-- R110, R515: what the halt registers say of an entry. -/
def entryHalt (cause : Nat) (r : Ring) (index opc : Nat) (e : Entry) : HaltInfo :=
  { mcause := cause, owner := r.fn, ringId := r.id, index := index, halt1 := e.low opc, halt2 := e.lba }

/-! ### Token buckets (R441) -/

/-- R437: owner opcodes. -/
def ownerOp (op : Op) : Bool :=
  (0x20 ≤ op.code && op.code ≤ 0x2F) || (0x50 ≤ op.code && op.code ≤ 0x5D) ||
  [Op.bind, .createTenant, .deleteTenant, .loadKey, .eraseKey, .setTenantQos, .meterConfig].contains op

/-- R441: the cost of an entry, in 1/1,024 commands and bytes; a fragment table's bytes are charged once it is read. -/
def costOf (s : State) (op : Op) (e : Entry) : Int × Int :=
  if ownerOp op then (0, 0)
  else
    let b : Nat := ((s.vol? e.vol.toNat).map fun v => if v.big then 4096 else 512).getD 0
    match op with
    | .read | .write => (1024, e.nblk.toNat * b)
    | .reflectWrite | .reflectRead => (1024, if e.ind then 0 else e.dlen.toNat)
    | _ => (1024, 0)

/-- R442: dies that hold a ring bound to a tenant. -/
def boundDies (s : State) (t : Nat) : List Nat :=
  s.dieIdx.filter fun d => s.rings.any fun r => r.die == d && !r.notif && s.ringTenant r == some t

/-- R441, R442: the bucket of a tenant on a die: full, with an equal share, when none has been charged (assumption 11). -/
def bucketOf (s : State) (d t : Nat) : Bucket :=
  match s.buckets.find? fun b => b.die == d && b.tenant == t with
  | some b => b
  | none =>
    let q := ((s.tenant? t).map (·.qos)).getD {}
    let n := max 1 (boundDies s t).length
    { die := d, tenant := t, ops := q.opsBurst * 1024 / n, bytes := q.byteBurst * 1024 / n, opsRate := q.opsRate / n,
      byteRate := q.byteRate / n, opsBurst := q.opsBurst * 1024 / n, byteBurst := q.byteBurst * 1024 / n, cost := 0 }

/-- Puts a bucket in its place. -/
def setBucket (b : Bucket) (s : State) : State :=
  { s with buckets := b :: s.buckets.filter fun x => !(x.die == b.die && x.tenant == b.tenant) }

/-- R441: the entry is ready as far as its tenant's caps go. -/
def tokensReady (s : State) (r : Ring) (op : Op) (e : Entry) : Bool :=
  match (s.ringTenant r).bind s.tenant? with
  | none => true
  | some t =>
    let b := bucketOf s r.die t.num
    let (_, c) := costOf s op e
    (t.qos.opsRate == 0 || decide (1024 ≤ b.ops)) && (t.qos.byteRate == 0 || decide (min c b.byteBurst ≤ b.bytes))

/-- R441: the cost of a dispatched entry charged to its tenant's buckets. -/
def charge (r : Ring) (op : Op) (e : Entry) (s : State) : State :=
  match (s.ringTenant r).bind s.tenant? with
  | none => s
  | some t =>
    if t.qos.opsRate = 0 ∧ t.qos.byteRate = 0 then s
    else
      let b := bucketOf s r.die t.num
      let (o, c) := costOf s op e
      setBucket { b with ops := b.ops - o, bytes := b.bytes - c, cost := b.cost + (o + c).toNat } s

/-! ### Dispatch -/

/-- R92, R179, R454 to R457: entries are dispatched: running, in P0 or P1, no power-state change under way. -/
def dispatching (s : State) : Bool := s.running && decide (s.pw.pstate < 2) && !(s.pw.chg.any fun c => c.started.isSome && decide (2 ≤ c.target))

/-- The name of the command that a ring's head entry becomes. -/
def Ring.ref (r : Ring) : CmdRef := ⟨r.die, r.idx, r.head % r.size⟩

/-- R440: the class that a ring's commands run at. -/
def classOfRing (s : State) (r : Ring) : Nat :=
  match (s.ringTenant r).bind s.tenant? with
  | some t => max r.cls t.qos.maxClass
  | none => r.cls

/-- R66: a die that sheds bulk admission gives bulk rings nothing. -/
def shedding (s : State) (r : Ring) : Bool := classOfRing s r == 3 && (s.die? r.die).any (·.frame.shed)

/-- R44, R48, R66, R90, R91: a work ring has posted entries at its head that a die could dispatch in this tick. -/
def hasHead (s : State) (r : Ring) : Bool :=
  canDispatch s r && r.head != r.tail && decide (r.bells.headD 0 < s.clk.tick) && !shedding s r && r.hold != some r.head &&
  (s.cmd? r.ref).isNone && !r.backs.any fun b => b.cmd.ref == r.ref

/-- R100, R441: a ring is ready as far as intake knows: its tenant's buckets hold what its head entry costs, or, of an entry that it has not
read yet, what any entry needs. -/
def surelyReady (s : State) (r : Ring) : Bool :=
  hasHead s r && match (s.ringTenant r).bind s.tenant? with
    | none => true
    | some t =>
      let b := bucketOf s r.die t.num
      let c : Int := ((r.costs.find? fun x => x.1 == r.head % r.size).map fun x => (x.2 : Int)).getD b.byteBurst
      (t.qos.opsRate == 0 || decide (1024 ≤ b.ops)) && (t.qos.byteRate == 0 || decide (min c b.byteBurst ≤ b.bytes))

/-- R100: a ring as its class's next round finds it: with the weight and burst set for it. -/
def newRound (r : Ring) : Ring :=
  { r with weight := (r.nextWeight.getD (r.weight, r.burst)).1, burst := (r.nextWeight.getD (r.weight, r.burst)).2, nextWeight := none }

/-- The place of a class's rounds at dispatch among the places of a die: the intake cores, their first stage. -/
def atIntake (c : Nat) : Nat × Nat × Nat := (0, 0, c)

/-- R100: the turn that falls among the rings of r's class on its die, r itself being ready: the place in the round, and whether
a new round begins. -/
def classTurn (s : State) (r : Ring) : Turn × Bool :=
  let all := s.rings.filter fun q => q.die == r.die && !q.notif && classOfRing s q == classOfRing s r
  nextTurn ((s.arbOf r.die).turn (atIntake (classOfRing s r)))
    ((all.filter fun q => q.idx == r.idx || surelyReady s q).map fun q => (q.id, q.weight, q.burst))

/-- R100: it is the ring's turn in its class. A ring whose readiness hangs on a byte cap and an entry that intake has not read yet does
not hold others back. -/
def inTurn (s : State) (r : Ring) : Bool := (classTurn s r).1.ring == r.id

/-- R53, R100: a class has a ring on a die that is ready whatever its head entry asks for. -/
def classReady (s : State) (d c : Nat) : Bool := s.rings.any fun q => q.die == d && classOfRing s q == c && surelyReady s q

/-- R69, R504: the budget of an entry decode at a die's intake stage. -/
def decodeBudget (x : DieSt) : Option Budget := x.frame.budgets.find? fun b => b.kind == 1 && b.current != 0

/-- R49, R69: the entries that a die's intake stage takes in a tick; without a measured budget none is refused. -/
def intakeMax (x : DieSt) : Option Nat := (decodeBudget x).map fun b =>
  if allotment 0 1 < b.current then coresOf x 0 else capacity x 0 0 / b.current

/-- R54, R70: the urgent entries that a die's intake stage takes in a tick. -/
def urgentMax (x : DieSt) : Option Nat := (decodeBudget x).map fun b => if allotment 0 1 < b.current then coresOf x 0 else b.urg

/-- R53: urgent entries wait that the reservation of this tick still has room for. -/
def urgentFirst (s : State) (x : DieSt) (d : Nat) : Bool :=
  classReady s d 0 && (urgentMax x).all fun n => decide ((s.arbOf d).taken.1 < n)

/-- R54: what of the intake stage stays with the urgent entries that it holds for the next tick. -/
def urgentKept (s : State) (x : DieSt) (d : Nat) : Nat :=
  if classReady s d 0 then (urgentMax x).getD 0 - (s.arbOf d).taken.1 else 0

/-- R55: the turn among classes 1 to 3 at dispatch: from the class whose turn it is, with its entries so far, to the next one that
has work once the class has had its weight. -/
def nextClass (w : Nat → Nat) (t : Nat × Nat) (ready : Nat → Bool) : Nat × Nat :=
  if ready t.1 && decide (t.2 < w t.1) then (t.1, t.2 + 1)
  else match ((List.range 3).map fun i => (t.1 + i) % 3 + 1).find? ready with
    | some c => (c, 1)
    | none => t

/-- R55: the turn of a class on a die in which a ring of class c is ready. -/
def turnOfClass (s : State) (x : DieSt) (d c : Nat) : Nat × Nat :=
  nextClass (fun c => (s.feat.now.weights[c - 1]?).getD 1) (s.arbOf d).clsTurn fun k => k == c || (classOpen s x k && classReady s d k)

/-- R53 to R55, R66, R100, R459: the intake stage of a die serves class c now: urgent entries first, within their reservation,
then the other classes by their weights, as far as the stage's allotment goes. -/
def classServed (s : State) (d c : Nat) : Bool :=
  match s.die? d with
  | none => false
  | some x =>
    let t := (s.arbOf d).taken
    if c = 0 then ((urgentMax x).all fun n => decide (t.1 < n)) && (intakeMax x).all fun n => decide (t.1 + t.2 < n)
    else
      classOpen s x c && !urgentFirst s x d && ((turnOfClass s x d c).1 == c) &&
        (intakeMax x).all fun n => decide (t.1 + t.2 + urgentKept s x d < n)

/-- R44, R48, R53, R55, R66, R90, R92, R99, R100, R441: the ring has an entry at its head that the die can dispatch; its doorbell
came before this tick. -/
def takes (s : State) (r : Ring) (op : Op) (e : Entry) : Bool :=
  dispatching s && s.alive r.die && (s.die? r.die).any (·.linkUp) && hasHead s r && inTurn s r &&
  classServed s r.die (classOfRing s r) &&
  decide ((s.cmds.filter fun c => c.ref.die == r.die).length < 16384) && tokensReady s r op e

/-- R152: opcodes that are past their point of no return at dispatch. -/
def pastAtDispatch : Op → Bool
  | .read | .write | .writeZeroes | .deallocate | .verify | .flush | .flushMedia => false
  | _ => true

/-- R33, R41: the dies that a data command's forwarded entry passes, from the receiving die to the home die. -/
def routeTo (s : State) (d : Nat) (op : Op) (e : Entry) : List Nat :=
  match if usesVol op then homeOf s e.vol.toNat else none with
  | some h => if h = d then [] else fabricPath s d h
  | none => []

/-- R119: data bytes of a volume's block. -/
def Vol.b (v : Vol) : Nat := if v.big then 4096 else 512

/-- R59, R62: data bytes that an operation moves; WRITE ZEROES and DEALLOCATE move none. -/
def movedBytes (s : State) (op : Op) (e : Entry) : Nat :=
  if op == .read || op == .write || op == .verify then e.nblk.toNat * ((s.vol? e.vol.toNat).map Vol.b).getD 0 else 0

/-- R59: the ticks by which each bound of an operation dispatched on a die is longer for data above 64 KiB; none when the host
port has no urgent reservation. -/
def longer (s : State) (d : Nat) (op : Op) (e : Entry) : Option Nat :=
  let b := ((s.die? d).map fun x => reservation s x 9 0).getD 0
  let n := movedBytes s op e - 65536
  if n = 0 then some 0 else if b = 0 then none else some (ceilDiv n b)

/-- R60: the pool that an I/O entry names. -/
def poolOfEntry (s : State) (op : Op) (e : Entry) : Option Nat := if usesVol op then (s.vol? e.vol.toNat).map (·.pool) else none

/-- R60, R63: the ticks by which gaps that are over have made the bounds of the entry at a ring's head longer: kerfs of its pool since its
doorbell, and those of the whole package. -/
def headPast (s : State) (r : Ring) (op : Op) (e : Entry) : Nat :=
  let mine (k : List Nat × Nat × Nat) : Bool := decide (r.bells.headD s.clk.tick ≤ k.2.1) && (poolOfEntry s op e).any k.1.contains
  r.exts.headD 0 + ((s.pair.kerfLog.filter mine).map (·.2.2)).sum

/-- R60, R63: the ticks by which gaps so far have made the bounds of the entry at a ring's head longer, a kerf of its pool in progress
included. -/
def headExt (s : State) (r : Ring) (op : Op) (e : Entry) : Nat :=
  headPast s r op e + if s.pair.kerf.isSome && (poolOfEntry s op e).any s.pair.kerfPools.contains then kerfSoFar s else 0

/-- R59, R60, R63, R64: the deadline of an urgent READ or WRITE to be fetched and decoded, one tick after its doorbell, has
passed. -/
def fetchedLate (s : State) (r : Ring) (op : Op) (e : Entry) : Bool :=
  classOfRing s r == 0 && (op == .read || op == .write) &&
  (longer s r.die op e).any fun n => decide (r.bells.headD s.clk.tick + 1 + n + headExt s r op e < s.clk.tick)

/-- R92: the command in flight that a dispatched entry becomes. -/
def newCmd (s : State) (r : Ring) (op : Op) (p : Post) : Cmd :=
  { ref := r.ref, op := op, entry := p.entry, buf := p.buf, fn := r.fn, tenant := s.ringTenant r, cls := classOfRing s r,
    bell := r.bells.headD s.clk.tick, at_ := s.clk.tick, stage := if p.entry.ind then .table else .planned,
    ext := headPast s r op p.entry, outside := decide (0 < headExt s r op p.entry), late := fetchedLate s r op p.entry,
    missed := if fetchedLate s r op p.entry then [1] else [], past := pastAtDispatch op, route := routeTo s r.die op p.entry, bufErr := p.bufErr }

/-- R92, R98, R100: the ring after its head entry is dispatched, with the weight and burst of a new round when one begins. -/
def advance (s : State) (r : Ring) : Ring :=
  let q := if (classTurn s r).2 then newRound r else r
  { q with head := (r.head + 1) % (2 * r.size), served := r.served + 1, bells := r.bells.tail, exts := r.exts.tail,
           pushed := r.pushed.filter (·.1 != r.head % r.size), fetched := r.fetched.filter (· != r.head % r.size),
           costs := r.costs.filter (·.1 != r.head % r.size) }

/-- R55, R63, R100: the places in the rounds of a die after ring r has dispatched an entry, which may have come late. -/
def advanceArb (s : State) (r : Ring) (op : Op) (e : Entry) (a : ArbSt) : ArbSt :=
  let c := classOfRing s r
  let late := if fetchedLate s r op e then [(r.ref, e.tag.toNat, e.vol.toNat, decide (0 < headExt s r op e))] else []
  let a1 := { a.setTurn (atIntake c) (classTurn s r).1 with late := a.late ++ late }
  if c = 0 then { a1 with taken := (a.taken.1 + 1, a.taken.2) }
  else { a1 with taken := (a.taken.1, a.taken.2 + 1),
                 clsTurn := ((s.die? r.die).map fun x => turnOfClass s x r.die c).getD a.clsTurn }

/-- R92, R100: the rings after ring r's head entry is dispatched: a new round of its class begins for the others too. -/
def advanceRings (r : Ring) (op : Op) (e : Entry) (s : State) : State :=
  let fresh (q : Ring) : Bool := (classTurn s r).2 && q.die == r.die && classOfRing s q == classOfRing s r
  { s with
    rings := s.rings.map fun q => if q.die == r.die && q.idx == r.idx then advance s r else if fresh q then newRound q else q
    arb := s.dieIdx.map fun d => if d = r.die then advanceArb s r op e (s.arbOf d) else s.arbOf d }

/-- R92, R441: the state once the ring's head entry is dispatched. -/
def dispatched (r : Ring) (op : Op) (p : Post) (s : State) : State :=
  let s1 := charge r op p.entry (advanceRings r op p.entry s)
  { s1 with cmds := s1.cmds ++ [newCmd s r op p] }

/-- R94: the head entry's pushed copy, which the device uses, has OWN = 0. -/
def pushedFree (r : Ring) : Bool := r.pushed.any fun x => x.1 == r.head % r.size && !((x.2.headD 0).getLsbD 7)

/-- R94, R108: the cause of the first malformed condition at dispatch, OWN judged in the pushed copy when there is one. In
everything else the two copies are equal where the outcome is defined. -/
def headCause (r : Ring) (op : Op) (e : Entry) : Option Nat := if pushedFree r then some 7 else malformedCause op e

/-- R92, R96, R108 to R110: the dispatch of the entry at the head of a ring: nothing when the ring has none to give;
HALTED when it is malformed; else its command starts, once its fragment table is read when it has one. -/
def dispatchEntry (op : Op) (p : Post) (start : CmdRef → State → State) (s : State) : State :=
  match s.ring? p.die p.ring with
  | none => s
  | some r =>
    if !takes s r op p.entry then s
    else match headCause r op p.entry with
      | some c => malformed p.die (entryHalt c r (r.head % r.size) op.code p.entry) s
      | none => if p.entry.ind then dispatched r op p s else start r.ref (dispatched r op p s)

/-- R108: the opcodes that the opcode list assigns. -/
def assigned (opc : Nat) : Bool :=
  opc < 8 || (0x10 ≤ opc && opc ≤ 0x18) || (0x20 ≤ opc && opc ≤ 0x37) || (0x40 ≤ opc && opc ≤ 0x46) || (0x50 ≤ opc && opc ≤ 0x5D)

/-- R108 cause 07h before 02h: an entry at the head whose opcode byte names no command halts the package. -/
def badFetch (b : BadFetch) (s : State) : State :=
  match s.ring? b.die b.ring with
  | none => s
  | some r =>
    if assigned b.opc.toNat || !takes s r .nop b.entry then s
    else malformed b.die (entryHalt (if b.entry.own && !pushedFree r then 2 else 7) r (r.head % r.size) b.opc.toNat b.entry) s

/-- R96, R119: the bytes of the buffer or fragments that a command names. -/
def Cmd.dataLen (c : Cmd) : Nat := if c.entry.ind then (c.frags.map (·.len.toNat)).sum else c.entry.dlen.toNat

/-- R476: opcodes that a virtual function may issue. -/
def vfMay (op : Op) : Bool :=
  op.code < 0x10 || (0x10 ≤ op.code && op.code ≤ 0x15) || op.code == 0x37 || (0x40 ≤ op.code && op.code ≤ 0x46)

/-- R476: the checks before any field of a control command: the function, then the binding. -/
def permission (s : State) (c : Cmd) : Option W16 :=
  if !s.isPf c.ref.die c.fn && !vfMay c.op then some 0x0101
  else if c.tenant.isSome && ownerOp c.op then some 0x0302
  else none

/-- R478: the pools (0), volumes (1) and tenants (2) that a control command names. -/
def objectsOf (c : Cmd) : List (Nat × Nat) :=
  let a := c.entry.param 44 2
  match c.op with
  | .createPool | .destroyPool | .addMember | .retireMember | .replaceMember | .reshapePlan | .reshapeStart
  | .reshapeControl | .rebuildControl | .scrubControl | .poolStatus | .memberStatus | .lostBlockList => [(0, a)]
  | .createVolume => [(1, a), (0, c.entry.param 46 2)]
  | .deleteVolume | .resizeVolume => [(1, a)]
  | .createTenant | .deleteTenant | .bind | .loadKey | .eraseKey | .setTenantQos | .meterRead => [(2, a)]
  | .identify => if c.entry.param 44 1 = 2 then [(1, c.entry.param 46 2)] else []
  | .getFeature | .setFeature =>
    if c.entry.param 44 1 = 9 then [(1, c.entry.param 46 2)] else if c.entry.param 44 1 = 10 then [(0, c.entry.param 46 2)] else []
  | _ => []

/-- R478: an uncompleted control command that names the same object holds a later one back, one too that waits for the partner; a reshape
cancel does not. -/
def heldBack (s : State) (c : Cmd) : Bool :=
  s.cmds.any fun d => d.ref != c.ref && d.stage == .waiting &&
    (d.told.isSome || match d.op with
      | .createPool | .addMember | .replaceMember | .deleteVolume | .destroyPool => true
      | _ => false) && (objectsOf d).any fun o => (objectsOf c).contains o

/-- R96, R445, R446, R475, R485: the length of the buffer that a control command reads from host memory is the one stated for it; none for a
command that reads none. CREATE POOL's length hangs on a count in the buffer: a header and whole descriptors. -/
def inputFits (s : State) (c : Cmd) : Option Bool :=
  let n := c.dataLen
  match c.op with
  | .setFeature => match c.entry.param 44 1 with
    | 5 => some (n == 128)
    | 7 => some (n == 32)
    | 11 => some (n == 64)
    | _ => none
  | .createPool => some (decide (64 ≤ n) && n % 32 == 0)
  | .addMember | .replaceMember | .logClear => some (n == 32)
  | .reshapePlan => some (n == 512)
  | .loadKey => some (n == if c.entry.param 46 2 % 2 = 0 then 72 else if s.feat.devKey.isNone then 64 else 40)
  | .firmwareDownload => some (decide (4 ≤ n) && decide (n ≤ 1048576))
  | _ => none

/-- R96, R476, R478: starts a control command whose function and binding permit it, once no other one holds it back. A read of
its buffer that fails completes it with 0206h, once the length is right: before the other checks of its table, which may need
the buffer (DESIGN CHOICE, R96 orders it after the checks of R116 alone; assumption 43). -/
def control (body : Cmd → State → State) (ref : CmdRef) (s : State) : State :=
  match s.cmd? ref with
  | none => s
  | some c =>
    match permission s c with
    | some st => fail ref st s
    | none =>
      if heldBack s c then s.updCmd ref fun c => { c with stage := .stalled }
      else if c.bufErr && inputFits s c == some true then complete ref 0x0206 { retry := false } (s.emit (.aer ref.die))
      else body c s

/-- R475: completes with an output buffer that the device writes. -/
def okBuffer (c : Cmd) (data : Bytes) (result ndone : Nat) (s : State) : State :=
  complete c.ref 0 { result := BitVec.ofNat 64 result, ndone := ndone } (s.emit (.buffer c.ref 0 data))

end Sys2Proof.Machine
end

