-- ==== Sys2Proof/Machine/Layout.lean ====
section
/-! DEFINITION. Declustered layout: geometry, the row permutation, where a block and its parity lie, who holds a strip,
redundancy and rebuild work (R192 to R206, R231, R232, R265 to R269, R273 to R276). -/

namespace Sys2Proof.Machine

/-! ### Derived quantities (R193) -/

/-- R192: data bytes of a member block. -/
def Geom.b (g : Geom) : Nat := if g.big then 4096 else 512

/-- R193: stripe width. -/
def Geom.w (g : Geom) : Nat := g.k + g.m

/-- R193: member blocks per strip. -/
def Geom.sb (g : Geom) : Nat := 2 ^ g.strip / g.b

/-- R193: stripe slots per row. -/
def Geom.slots (g : Geom) : Nat := (g.n - g.s) / g.w

/-- R193: header blocks. -/
def Geom.base (g : Geom) : Nat := 1048576 / g.b

/-- R193: spill reserve blocks. -/
def Geom.spill (g : Geom) : Nat := 67108864 / g.b

/-- R193: rows. -/
def Geom.nrows (g : Geom) : Nat :=
  if g.base + g.spill < g.z then 64 * ((g.z - g.base - g.spill) / g.sb / 64) else 0

/-- R193: tiles. -/
def Geom.tiles (g : Geom) : Nat := g.nrows / 64

/-- R193: data blocks per tile. -/
def Geom.tb (g : Geom) : Nat := 64 * g.slots * g.k * g.sb

/-- R193: pool data capacity in member blocks. -/
def Geom.cap (g : Geom) : Nat := g.tiles * g.tb

/-- R6: the limits on a geometry's parameters. -/
def Geom.legal (g : Geom) : Bool :=
  decide (4 ≤ g.n) && decide (g.n ≤ 256) && decide (1 ≤ g.k) && decide (g.k ≤ 32) && decide (g.m ≤ 4) &&
  (g.k != 1 || (decide (1 ≤ g.m) && decide (g.m ≤ 3))) && decide (g.w + g.s ≤ g.n) && decide (14 ≤ g.strip) &&
  decide (g.strip ≤ 20)

/-! ### The row permutation (R196) -/

/-- R196: the finaliser. -/
def fin (z : W64) : W64 :=
  let z := (z ^^^ (z >>> 30)) * 0xBF58476D1CE4E5B9#64
  let z := (z ^^^ (z >>> 27)) * 0x94D049BB133111EB#64
  z ^^^ (z >>> 31)

/-- R196: the mixed seed of a row. -/
def mixRow (seed : W64) (u : Nat) : W64 := seed ^^^ (BitVec.ofNat 64 u * 0xD1B54A32D192ED03#64)

/-- R196: the draws for positions i down to 1. -/
def shuffle : Nat → W64 → W64 → Nat → List Nat → List Nat
  | 0, _, _, _, perm => perm
  | i + 1, state, word, used, perm =>
    let r := i + 2
    let fresh := used = 0 ∨ 2 ^ 32 < used * r
    let state := if fresh then state + 0x9E3779B97F4A7C15#64 else state
    let word := if fresh then fin state else word
    let t := word.toNat * r
    shuffle i state (BitVec.ofNat 64 t) ((if fresh then 1 else used) * r) (swapRows perm (i + 1) (t / 2 ^ 64))

/-- R196: the permutation of row u: the member index at each position. -/
def rowPermutation (seed : W64) (u n : Nat) : List Nat := shuffle (n - 1) (mixRow seed u) 0 0 (List.range n)

/-! ### Geometries of a pool -/

/-- R264: the new geometry of a reshape, under its own UID. -/
def Reshape.geom (r : Reshape) : Geom := { r.plan.geom with uid := r.uid }

/-- The old (current) or the new geometry of a pool. -/
def Pool.geomOf (p : Pool) (new : Bool) : Geom :=
  match p.reshape with
  | some r => if new then r.geom else p.geom
  | none => p.geom

/-- R269: whether a pool data block is mapped by the new geometry. -/
def Pool.isNew (p : Pool) (pb : Nat) : Bool :=
  match p.reshape with
  | some r => r.plan.mitre && (if pb < r.beta then !r.startDown else r.startDown)
  | none => false

/-- R201, R269: stripe, data index and offset of a pool data block. -/
def Geom.locate (g : Geom) (pb : Nat) : Nat × Nat × Nat :=
  (pb / (g.k * g.sb), pb % (g.k * g.sb) / g.sb, pb % (g.k * g.sb) % g.sb)

/-- R201: row of a stripe. -/
def Geom.rowOf (g : Geom) (stripe : Nat) : Nat := stripe / g.slots

/-- R197: row position of position q of a stripe. -/
def Geom.rowPos (g : Geom) (stripe q : Nat) : Nat := stripe % g.slots * g.w + q

/-- R201: the member LBA of an offset of a stripe. -/
def Geom.memberLba (g : Geom) (stripe off : Nat) : Nat := g.base + g.rowOf stripe * g.sb + off

/-! ### Extents (R200, R265) -/

/-- R200, R265: the pool data block of a volume block. -/
def Vol.pb (v : Vol) (lba : Nat) : Nat := ((v.extents[lba / v.x]?).getD 0) * v.x + lba % v.x

/-- R202: the volume block of a pool data block, if the volume owns it. -/
def Vol.lbaOf (v : Vol) (pb : Nat) : Option Nat :=
  (v.extents.findIdx? (· == pb / v.x)).map fun i => i * v.x + pb % v.x

/-- R202: the volume and block that own a pool data block; beyond a volume's exposed blocks there is no block. -/
def ownerOf (s : State) (pool pb : Nat) : Option (Nat × Nat) :=
  s.vols.findSome? fun v => if v.pool == pool then ((v.lbaOf pb).filter (· < v.blocks)).map fun l => (v.num, l) else none

/-- R202: what a sector of a member is. -/
inductive Meaning where
  | outsideRows
  | spare (row slot : Nat)
  | slack (row : Nat)
  | parity (stripe i off : Nat)
  | freeTile (stripe q off : Nat)
  | data (stripe q off vol lba : Nat)
  deriving DecidableEq, Repr

/-- R202: the meaning of a sector at a place of a stripe. -/
def meaningAt (s : State) (num : Nat) (g : Geom) (stripe q off : Nat) : Meaning :=
  if g.k ≤ q then .parity stripe (q - g.k) off
  else
    let pb := stripe * (g.k * g.sb) + q * g.sb + off
    match s.vols.findSome? fun v => if v.pool = num then (v.lbaOf pb).map fun l => (v.num, l) else none with
    | some (v, l) => .data stripe q off v l
    | none => .freeTile stripe q off

/-- R202: the meaning of block lba of member x. -/
def identifySector (s : State) (p : Pool) (x lba : Nat) : Meaning :=
  let g := p.geom
  if lba < g.base ∨ g.base + g.nrows * g.sb ≤ lba then .outsideRows
  else
    let row := (lba - g.base) / g.sb
    let pos := ((rowPermutation g.seed row g.n).findIdx? (· == x)).getD g.n
    if g.n - g.s ≤ pos then .spare row (pos - (g.n - g.s))
    else if g.slots * g.w ≤ pos then .slack row
    else meaningAt s p.num g (row * g.slots + pos / g.w) (pos % g.w) ((lba - g.base) % g.sb)

/-- R135, R147, R493: whether a block lies in a unit that reads as zeros, in what a DEALLOCATE has protected, or beyond the
units that the volume still has. -/
def Vol.isZero (v : Vol) (lba : Nat) : Bool :=
  v.zero.contains (lba / v.x) || decide (v.extents.length ≤ lba / v.x) ||
    v.cleared.any fun r => decide (r.1 ≤ lba) && decide (lba < r.1 + r.2)

/-- Runs of blocks without the n blocks from an LBA. -/
def cutRuns (lba n : Nat) (l : List (Nat × Nat)) : List (Nat × Nat) :=
  l.flatMap fun r => ([(r.1, min (r.1 + r.2) lba - r.1), (max r.1 (lba + n), r.1 + r.2 - max r.1 (lba + n))]).filter fun x =>
    decide (0 < x.2)

/-- R274: the new place of a volume block in a veneer, as a pool data block of the new geometry. -/
def Reshape.newPb (r : Reshape) (vol lba : Nat) : Option (Nat × Nat) :=
  ((r.tables.find? fun t => t.1 == vol).bind fun t => t.2[lba / r.plan.nt]?).map fun tile =>
    (tile, tile * r.plan.nt + lba % r.plan.nt)

/-- A place of a block: geometry, stripe, data index, offset. -/
structure Place where
  new : Bool
  stripe : Nat
  q : Nat
  off : Nat
  deriving DecidableEq, Repr

/-- R201, R269: the place that serves a volume block. -/
def placeOf (p : Pool) (v : Vol) (lba : Nat) : Place :=
  let new := p.isNew (v.pb lba)
  let (st, q, off) := (p.geomOf new).locate (v.pb lba)
  ⟨new, st, q, off⟩

/-- R276: the places a dirty block is destaged to: also the new layout once its tile of a veneer is built. -/
def placesOf (p : Pool) (v : Vol) (lba : Nat) : List Place :=
  placeOf p v lba :: match p.reshape with
    | some r =>
      if r.plan.mitre || r.undo || r.cancelling then []
      else match r.newPb v.num lba with
        | some (tile, pb) =>
          if r.built.contains tile then
            let (st, q, off) := r.geom.locate pb
            [⟨true, st, q, off⟩]
          else []
        | none => []
    | none => []

/-- R268: the stripe number of a journal entry and of a destage command: bit 47 marks the new geometry. -/
def Place.number (x : Place) : Nat := x.stripe + if x.new then 2 ^ 47 else 0

/-! ### Members and holders (R203 to R206, R230, R269) -/

/-- The member at an index of a geometry. -/
def Pool.memberAt (p : Pool) (new : Bool) (i : Nat) : Option Member :=
  match new, p.reshape with
  | true, some r => (r.newNs[i]?).bind fun n => (p.members ++ p.pending).find? fun m => m.ns == n
  | _, _ => p.members[i]?

/-- R230: the state of a member. -/
def Pool.stateAt (p : Pool) (new : Bool) (i : Nat) : Option MState := (p.memberAt new i).map fun m => m.state

/-- R204: failed and not replaced. -/
def Pool.failedAt (p : Pool) (new : Bool) (i : Nat) : Bool := (p.memberAt new i).all fun m => m.state == .failed

/-- R203, R269: the spare slot of a member within a geometry. -/
def Pool.slotAt (p : Pool) (new : Bool) (i : Nat) : Option Nat :=
  ((p.memberAt new i).bind (·.slot)).filter fun t => decide (t < (p.geomOf new).s)

/-- The member at a row position. -/
def Pool.permAt (p : Pool) (new : Bool) (row pos : Nat) : Option Nat :=
  (rowPermutation (p.geomOf new).seed row (p.geomOf new).n)[pos]?

/-- R204: the row's spare position that carries a member's slot number. -/
def Pool.viaSlot (p : Pool) (new : Bool) (row x : Nat) : Option Nat :=
  (p.slotAt new x).bind fun t => p.permAt new row ((p.geomOf new).n - (p.geomOf new).s + t)

/-- R204: the spare holder of the strip of member x in a row. -/
def Pool.spareOf (p : Pool) (new : Bool) (row x : Nat) : Option Nat :=
  match p.viaSlot new row x with
  | none => none
  | some y =>
    if !p.failedAt new y then some y
    else (p.viaSlot new row y).filter fun z => !p.failedAt new z

/-- R204: the holder of a position of a row. -/
def Pool.holder (p : Pool) (new : Bool) (row pos : Nat) : Option Nat :=
  (p.permAt new row pos).bind fun x => if !p.failedAt new x then some x else p.spareOf new row x

/-- R231: the work of a member in a tile is done. -/
def Pool.isDone (p : Pool) (new : Bool) (x tile : Nat) : Bool := p.rebuild.done.contains (new, x, tile)

/-- R252: the tile is on the replacement of a member. -/
def Pool.isCopied (p : Pool) (new : Bool) (x tile : Nat) : Bool := p.rebuild.copied.contains (new, x, tile)

/-- R204, R206, R252: a spare holder has the strips of other members that its slot places bring it: one that replaces another has them
once its tile is copied. -/
def Pool.ready (p : Pool) (new : Bool) (tile y : Nat) : Bool :=
  !p.failedAt new y && (p.stateAt new y != some .replacing || p.isCopied new y tile)

/-- R204: the two spare positions of a row that may take the strip of member x. -/
def Pool.spares (p : Pool) (new : Bool) (row x : Nat) : List Nat :=
  match p.viaSlot new row x with
  | none => []
  | some y => y :: (p.viaSlot new row y).toList

/-- R204, R206: the spare holder that keeps the strip of member x in a row: while the first one's replacement has not been copied to,
the strip stays with the second. -/
def Pool.keeps (p : Pool) (new : Bool) (row x : Nat) : Option Nat := (p.spares new row x).find? (p.ready new (row / 64))

/-- R206: the replacements to which the strip of member x in a row moves, once their tile is copied. -/
def Pool.moving (p : Pool) (new : Bool) (row x : Nat) : List Nat :=
  ((p.spares new row x).takeWhile fun y => !p.ready new (row / 64) y).filter fun y => p.stateAt new y == some .replacing

/-- R205, R231, R252, R255: the member from which the strip at a position of a row can be read; none when it is missing. -/
def Pool.readAt (p : Pool) (new : Bool) (row pos : Nat) : Option Nat :=
  (p.permAt new row pos).bind fun x =>
    match p.stateAt new x with
    | none => none
    | some .online | some .suspect => some x
    | some .draining => if p.isDone new x (row / 64) then p.keeps new row x else some x
    | some .failed => if p.isDone new x (row / 64) then p.keeps new row x else none
    | some .replacing =>
      if p.isCopied new x (row / 64) then some x
      else if p.isDone new x (row / 64) then p.keeps new row x else none

/-- R165, R206, R241, R252: the members to which a destage writes the strip at a position of a row. -/
def Pool.writeAt (p : Pool) (new : Bool) (row pos : Nat) : List Nat :=
  match p.permAt new row pos with
  | none => []
  | some x =>
    match p.stateAt new x with
    | none => []
    | some .online | some .suspect => [x]
    | some .draining => if p.isDone new x (row / 64) then (p.keeps new row x).toList else [x]
    | some .failed => if p.isDone new x (row / 64) then (p.keeps new row x).toList else []
    | some .replacing =>
      if p.isCopied new x (row / 64) then [x]
      else if p.isDone new x (row / 64) then (p.keeps new row x).toList ++ [x] else []

/-- The member that serves position q of a stripe, if it is not missing. -/
def Pool.readPos (p : Pool) (new : Bool) (stripe q : Nat) : Option Nat :=
  p.readAt new ((p.geomOf new).rowOf stripe) ((p.geomOf new).rowPos stripe q)

/-- The members that take position q of a stripe. -/
def Pool.writePos (p : Pool) (new : Bool) (stripe q : Nat) : List Nat :=
  p.writeAt new ((p.geomOf new).rowOf stripe) ((p.geomOf new).rowPos stripe q)

/-- R231: the positions of a stripe that are not missing. -/
def Pool.present (p : Pool) (new : Bool) (stripe : Nat) : List Nat :=
  (List.range (p.geomOf new).w).filter fun q => (p.readPos new stripe q).isSome

/-- R231: the number of missing positions of a stripe. -/
def Pool.lack (p : Pool) (new : Bool) (stripe : Nat) : Nat := (p.geomOf new).w - (p.present new stripe).length

/-- R165 ABSENT: the positions of a stripe that a write cannot reach. -/
def Pool.absent (p : Pool) (new : Bool) (stripe : Nat) : List Nat :=
  (List.range (p.geomOf new).w).filter fun q => (p.writePos new stripe q).isEmpty

/-! ### Rebuild work (R231, R232, R240, R282) -/

/-- R282: the pool data blocks that a geometry holds: from, and below when there is a limit. -/
def Pool.region (p : Pool) (new : Bool) : Option (Nat × Option Nat) :=
  match p.reshape with
  | none => if new then none else some (0, none)
  | some r =>
    if r.plan.mitre then if new = r.startDown then some (r.beta, none) else some (0, some r.beta)
    else if new then none else some (0, none)

/-- The tiles that a run of pool data blocks touches. -/
def tilesOf (tb lo hi : Nat) : List Nat :=
  if lo < hi ∧ 0 < tb then (List.range ((hi - 1) / tb + 1 - lo / tb)).map (· + lo / tb) else []

/-- The tiles of a geometry, ascending, that hold a block of a unit that counts, of some volume of the pool. -/
def tilesWith (s : State) (p : Pool) (new : Bool) (counts : Vol → Nat → Bool) : List Nat :=
  let inRegion : List Nat := match p.region new with
    | none => []
    | some (lo, hi) =>
      let units := s.vols.flatMap fun v => if v.pool == p.num then
        (v.extents.zipIdx.filter fun (_, i) => counts v i).map fun (e, _) => (e * v.x, e * v.x + v.x) else []
      (units.flatMap fun (a, b) => tilesOf (p.geomOf new).tb (max a lo) (match hi with
        | some h => min b h
        | none => b)).foldl (fun l t => insNat t l) []
  match p.reshape, new with
  | some r, true => if r.plan.mitre then inRegion else r.built
  | _, _ => inRegion

/-- R240: the tiles of a geometry that hold data of volumes and are not marked deallocated. -/
def workTiles (s : State) (p : Pool) (new : Bool) : List Nat := tilesWith s p new fun v i => !v.zero.contains i

/-- R296: the tiles of a geometry that hold a block that a volume owns. -/
def ownedTiles (s : State) (p : Pool) (new : Bool) : List Nat := tilesWith s p new fun _ _ => true

/-- R231, R252: member x has work in a tile that is not done. -/
def Pool.owes (p : Pool) (new : Bool) (x tile : Nat) : Bool :=
  match p.stateAt new x with
  | some .failed => !p.isDone new x tile && (p.slotAt new x).isSome
  | some .draining => !p.isDone new x tile
  | some .replacing => !p.isCopied new x tile && !(p.isDone new x tile && (p.slotAt new x).isSome)
  | _ => false

/-- R252: a tile of a replaced member still to be copied back. -/
def Pool.owesCopy (p : Pool) (new : Bool) (x tile : Nat) : Bool :=
  match p.stateAt new x with
  | some .replacing => p.isDone new x tile && !p.isCopied new x tile && (p.slotAt new x).isSome
  | _ => false

/-- R236, R252: the writes of a tile's rebuild or copy-back are out. -/
def Pool.inJob (p : Pool) (new : Bool) (tile : Nat) : Bool := p.rebuild.jobs.any fun j => j.new == new && j.tile == tile

/-- The geometries of a pool that hold data. -/
def Pool.geoms (p : Pool) : List Bool := if p.reshape.isSome then [false, true] else [false]

/-- R231: rebuild work left in a geometry: (geometry, member, tile). -/
def workIn (s : State) (p : Pool) (new : Bool) : List (Bool × Nat × Nat) :=
  (workTiles s p new).flatMap fun t =>
    ((List.range (p.geomOf new).n).filter fun x => p.owes new x t).map fun x => (new, x, t)

/-- R231: rebuild work left in a pool. -/
def workLeft (s : State) (p : Pool) : List (Bool × Nat × Nat) := p.geoms.flatMap (workIn s p)

/-- R252: copy-back work left in a pool. -/
def copyLeft (s : State) (p : Pool) : List (Bool × Nat × Nat) :=
  p.geoms.flatMap fun new => (workTiles s p new).flatMap fun t =>
    ((List.range (p.geomOf new).n).filter fun x => p.owesCopy new x t).map fun x => (new, x, t)

/-- The stripes of a tile. -/
def Geom.stripesOf (g : Geom) (tile : Nat) : List Nat := (List.range (64 * g.slots)).map (· + 64 * g.slots * tile)

/-- R232: the class of a stripe with l missing positions. -/
def classOf (m l : Nat) : Nat := if l = 0 then 5 else if m < l then 0 else m - l + 1

/-- R234, R242: the set of work of the sweep in progress. -/
def sweepWork (p : Pool) : List (Bool × Nat × Nat) := ((p.rebuild.records.getLast?).map (·.work)).getD []

/-- R234: member x has work of the sweep in progress in a tile that is not done. -/
def Pool.sweeps (p : Pool) (new : Bool) (x tile : Nat) : Bool := p.owes new x tile && (sweepWork p).contains (new, x, tile)

/-- R231: a stripe has work: a member on one of its positions has it in its tile. -/
def Pool.stripeOwes (p : Pool) (own : Nat → Nat → Bool) (new : Bool) (stripe : Nat) : Bool :=
  let g := p.geomOf new
  let row := g.rowOf stripe
  (List.range g.w).any fun q => (p.permAt new row (g.rowPos stripe q)).any fun x => own x (row / 64)

/-- R232: the class of a tile with work of some kind: the lowest among its stripes that have it. -/
def classFor (p : Pool) (own : Nat → Nat → Bool) (new : Bool) (tile : Nat) : Nat :=
  (((p.geomOf new).stripesOf tile).filter (p.stripeOwes own new)).foldl (fun c st => min c (classOf (p.geomOf new).m (p.lack new st))) 5

/-- R232: the class of a tile with work. A stripe whose only work is for a DRAINING member, but
that has a missing position as well, has the class of its redundancy, not 05h: DESIGN CHOICE, both rows of R232 fit (assumption 43). -/
def tileClass (p : Pool) (new : Bool) (tile : Nat) : Nat := classFor p (p.owes new) new tile

/-- R232, R234: the class of a tile in the sweep in progress. -/
def sweepClass (p : Pool) (new : Bool) (tile : Nat) : Nat := classFor p (p.sweeps new) new tile

/-- R232, R307: the lowest class of the work left in a pool. -/
def lowestClass (s : State) (p : Pool) : Option Nat :=
  ((workLeft s p).map fun w => tileClass p w.1 w.2.2).min?

/-- R157, R311: the mirror peer of a pool for new writes: none, the partner's die (false) or the shadow die (true). -/
def mirrorPeer (s : State) (p : Pool) : Option Bool :=
  match s.pair.state with
  | .paired =>
    if s.pair.lostDies.contains p.home || s.pair.partnerP3 then if p.shadow.any s.alive then some true else none
    else some false
  | .survivor => if p.shadow.any s.alive then some true else none
  | _ => none

/-- R158, R328: a reflect link to the partner carries segments. -/
def partnerLink (s : State) : Bool := s.dies.any fun x => x.alive && (x.link.state == .active || x.link.state == .recover)

/-- R33, R156, R158, R173: every journal mirror of a die, and the mirror peers of its pools with them, acknowledges what it is
sent: the shadow die of each pool the die homes, over a path of the fabric, and in a pair the partner's die of the same index. -/
def mirrorsAnswer (s : State) (d : Nat) : Bool :=
  (s.pools.all fun p => p.home != d || p.away || p.shadow.all fun h => s.alive h && (fabricHops s d h).isSome) &&
    (s.pair.state != .paired || s.pair.lostDies.contains d || s.pair.partnerP3 || partnerLink s)

/-- R161: bytes of mirror copies in the mirror region of a die of the package. -/
def mirrorBytes (s : State) (d : Nat) : Nat :=
  ((s.cache.filter fun b => b.dirty && b.mirrored && b.onShadow && (s.vol? b.vol).any fun v =>
    (s.pool? v.pool).any fun p => p.shadow == some d).map (·.data.length)).sum

/-- R30: the dirty data of a die no longer fits what is left of its DDR. -/
def overRoom (s : State) (d : Nat) : Bool :=
  (s.die? d).any fun x => decide (protBytes s d < x.protGib * 2 ^ 30) && decide (protBytes s d < dirtyBytes s d)

/-- R30, R157, R292: a write to the volume is written through. -/
def writeThrough (s : State) (p : Pool) (v : Vol) : Bool := v.wt || (mirrorPeer s p).isNone || overRoom s p.home

/-- The stripes of a unit of a volume, in the geometry that serves each. -/
def unitStripes (p : Pool) (v : Vol) (i : Nat) : List (Bool × Nat) :=
  let e := ((v.extents[i]?).getD 0) * v.x
  p.geoms.flatMap fun new =>
    match p.region new with
    | none => []
    | some (lo, hi) =>
      let g := p.geomOf new
      let w := g.k * g.sb
      let a := max e lo
      let b := (hi.map (min (e + v.x))).getD (e + v.x)
      if a < b then (List.range (ceilDiv b w - a / w)).map fun k => (new, a / w + k) else []

/-- R263: the members with their indices; pending members count from 8000h. -/
def Pool.indexed (p : Pool) : List (Member × Nat) :=
  p.members.zipIdx ++ p.pending.zipIdx.map fun x => (x.1, 0x8000 + x.2)

/-- R134: the strips of some stripes on the member that is one namespace, as ranges of its blocks: (first, count). -/
def stripsOn (p : Pool) (sts : List (Bool × Nat)) (ns : Nat) : List (Nat × Nat) :=
  sts.flatMap fun (new, st) =>
    let g := p.geomOf new
    let mine (q : Nat) : Bool := (p.writePos new st q).any fun x => (p.memberAt new x).any fun m => m.ns == ns
    ((List.range g.w).filter mine).map fun _ => (g.memberLba st 0, g.sb)

end Sys2Proof.Machine
end

