-- ==== Sys2Proof/Machine/Cache.lean ====
section
/-! DEFINITION. The protected cache and the read cache, the lost block list, offline pools, durability
(R128, R129, R138, R139, R156 to R163, R245 to R250). -/

namespace Sys2Proof.Machine

/-- The cached copy of a block. -/
def State.cached? (s : State) (vol lba : Nat) : Option CBlk := s.cache.find? fun b => b.vol == vol && b.lba == lba

/-- Whether a block is dirty in the protected cache. -/
def State.dirtyAt (s : State) (vol lba : Nat) : Bool := (s.cached? vol lba).any (·.dirty)

/-- A change of one cached block. -/
def State.updBlk (s : State) (vol lba : Nat) (f : CBlk → CBlk) : State :=
  { s with cache := updIf (fun b => b.vol == vol && b.lba == lba) f s.cache }

/-- R444, R447: the key of a volume's owner, when loaded. -/
def keyOf (s : State) (v : Vol) : Option Bytes := (v.tenant.bind s.tenant?).bind (·.key)

/-- R133, R135: the zeros of a block as they are stored: encrypted on an encrypted volume. -/
def zeroData (s : State) (v : Vol) (lba : Nat) : Bytes :=
  if v.enc then Config.encrypt ((keyOf s v).getD []) (BitVec.ofNat 64 lba) (BitVec.ofNat 16 v.num) (zeros v.b) else zeros v.b

/-! ### The read cache (R160) -/

/-- R160: a clean copy enters the read cache when it fits after eviction. -/
def insertClean (b : CBlk) (s : State) : State :=
  match homeOf s b.vol with
  | none => s
  | some d =>
    let n := b.data.length
    let s := evict s.cache.length d n (s.dropBlocks fun x => x.vol == b.vol && x.lba == b.lba)
    if cleanBytes s d + n ≤ readCacheBytes s d then { s with cache := s.cache ++ [b] } else s

/-- R160: a block is used when a command is served from it. -/
def touch (vol lba : Nat) (s : State) : State := s.updBlk vol lba fun b => { b with used := s.clk.tick }

/-! ### The lost block list (R245 to R248) -/

/-- R246: whether a block is listed. -/
def Pool.isLost (p : Pool) (vol lba : Nat) : Bool :=
  p.lost.any fun r => r.vol == vol && decide (r.lba ≤ lba) && decide (lba < r.lba + r.count)

/-- Sorted insertion of a range. -/
def insLost (r : Lost) : List Lost → List Lost
  | [] => [r]
  | x :: xs => if r.vol < x.vol ∨ (r.vol = x.vol ∧ r.lba ≤ x.lba) then r :: x :: xs else x :: insLost r xs

/-- R247: the list with a range added, overlapping and adjacent ranges merged. -/
def lostAdd (r : Lost) (l : List Lost) : List Lost :=
  let joins (x : Lost) : Bool := x.vol == r.vol && decide (x.lba ≤ r.lba + r.count) && decide (r.lba ≤ x.lba + x.count)
  let near := l.filter joins
  let lo := near.foldl (fun a x => min a x.lba) r.lba
  let hi := near.foldl (fun a x => max a (x.lba + x.count)) (r.lba + r.count)
  insLost ⟨r.vol, lo, hi - lo⟩ (l.filter fun x => !joins x)

/-- R246, R249: the list without the blocks of a range. -/
def lostCut (vol lba count : Nat) (l : List Lost) : List Lost :=
  l.flatMap fun x =>
    if x.vol != vol then [x]
    else
      let a := if x.lba < lba then [⟨vol, x.lba, min (x.lba + x.count) lba - x.lba⟩] else []
      let b := if lba + count < x.lba + x.count then
        [⟨vol, max x.lba (lba + count), x.lba + x.count - max x.lba (lba + count)⟩] else []
      a ++ b

/-- R140: a FLUSH or FLUSH MEDIA waits no longer for the volumes of a pool that goes offline, and remembers the first. One of that volume
alone ends as R140 says of one for all volumes: DESIGN CHOICE, R140 speaks of VOL FFFFh (assumption 43). -/
def flushOffline (s : State) (num : Nat) (c : Cmd) : Cmd :=
  let gone := ((s.vols.filter fun v => v.pool == num && (c.tenant.isNone || v.tenant == c.tenant) &&
    (c.entry.vol == 0xFFFF || v.num == c.entry.vol.toNat)).map (·.num))
  if c.stage != .waiting || (c.op != .flush && c.op != .flushMedia) || gone.isEmpty then c
  else { c with wait := c.wait.filter (fun w => !gone.contains w.1), offline := (gone ++ c.offline.toList).min? }

/-- R250: the commands of write kind that wait for a destage complete when their pool goes offline. -/
def writeNdone (v : Vol) (c : Cmd) : Nat := min c.entry.nblk.toNat (c.units * (1048576 / v.b))

/-- R250: takes a pool offline. -/
def offlinePool (num cause : Nat) (s : State) : State :=
  match s.pool? num with
  | none => s
  | some p =>
    if p.offline.isSome then s
    else
      let s := raise p.home 0x3130 { pool := num, cause := cause }
        (s.updPool num fun p => { p with offline := some cause, queued := [] })
      let s := { s with destages := s.destages.filter (·.pool != num), cmds := s.cmds.map (flushOffline s num),
                         vols := updIf (·.pool == num) (fun v => { v with filling := [] }) s.vols }
      let held := s.cmds.filter fun c => c.stage == .durable && (s.vol? c.entry.vol.toNat).any (·.pool == num)
      held.foldl (fun s c =>
        let n := ((s.vol? c.entry.vol.toNat).map fun v => writeNdone v c).getD 0
        complete c.ref 0x0601 { ndone := n, part := decide (0 < n) } s) s

/-- R245, R248: enters blocks into a pool's lost block list; blocks that it holds already are no new entry; an overflow
takes the pool offline. -/
def loseBlocks (num vol lba count : Nat) (s : State) : State :=
  match s.pool? num with
  | none => s
  | some p =>
    let l := lostAdd ⟨vol, lba, count⟩ p.lost
    let others := ((s.pools.filter fun q => q.home == p.home && q.num != num).map (·.lost.length)).sum
    if l = p.lost then s
    else if 65536 < l.length ∨ 131072 < others + l.length then
      offlinePool num 2 (raise p.home 0x3112 { pool := num } s)
    else
      raise p.home 0x3110 { pool := num, vol := vol, arg0 := lba, arg1 := count }
        (programJ p.home (some num) (.lostBlocks vol lba count 0)
          (s.updPool num fun p => { p with lost := l, listDirty := true }))

/-- R247: one more block of a volume at the end of a list of ranges. -/
def joinRun (l : List Lost) (x : Nat × Nat) : List Lost :=
  match l.getLast? with
  | some r => if r.vol = x.1 ∧ r.lba + r.count = x.2 then l.dropLast ++ [{ r with count := r.count + 1 }] else l ++ [⟨x.1, x.2, 1⟩]
  | none => [⟨x.1, x.2, 1⟩]

/-- Insertion by volume and LBA. -/
def insPlace (x : Nat × Nat) : List (Nat × Nat) → List (Nat × Nat)
  | [] => [x]
  | y :: ys => if x.1 < y.1 ∨ (x.1 = y.1 ∧ x.2 ≤ y.2) then x :: y :: ys else y :: insPlace x ys

/-- R186, R245: enters blocks of a pool, given as volume and LBA, as the ranges they make. -/
def loseMany (num : Nat) (l : List (Nat × Nat)) (s : State) : State :=
  ((l.foldr insPlace []).foldl joinRun []).foldl (fun s r => loseBlocks num r.vol r.lba r.count s) s

/-- R246: a protected write-kind command reinstates the listed blocks that it covers. -/
def reinstate (num vol lba count : Nat) (s : State) : State :=
  match s.pool? num with
  | none => s
  | some p =>
    let l := lostCut vol lba count p.lost
    if l = p.lost then s
    else
      raise p.home 0x3111 { pool := num, vol := vol, arg0 := lba, arg1 := count }
        (programJ p.home (some num) (.lostBlocks vol lba count 1)
          (s.updPool num fun p => { p with lost := l, listDirty := true }))

/-! ### Dirty blocks -/

/-- R163: queues stripes for destage. -/
def queueStripes (num : Nat) (ns : List Nat) (s : State) : State :=
  s.updPool num fun p => { p with queued := ns.foldl (fun l n => insNat n l) p.queued }

/-- R163: queues the stripes that hold some blocks of a volume. -/
def queueBlocks (bs : List (Nat × Nat)) (s : State) : State :=
  bs.foldl (fun s (vol, lba) =>
    match s.vol? vol with
    | none => s
    | some v =>
      match s.pool? v.pool with
      | none => s
      | some p => queueStripes p.num ((placesOf p v lba).map Place.number) s) s

/-- R161: bytes of dirty data that a command of a class may bring a die to. -/
def roomFor (s : State) (d cls : Nat) : Nat := let l := limitOfDie s d; if cls = 0 then l else l - l / 16

/-- Insertion of a dirty block by the tick in which it became protected. -/
def insSince (b : CBlk) : List CBlk → List CBlk
  | [] => [b]
  | x :: xs => if b.since ≤ x.since then b :: x :: xs else x :: insSince b xs

/-- The oldest blocks of a list that hold at least n bytes together. -/
def oldest : Nat → List CBlk → List CBlk
  | _, [] => []
  | n, b :: bs => if n = 0 then [] else b :: oldest (n - b.data.length) bs

/-- R160, R162: the stripes of the oldest n bytes of a die's dirty data are queued. -/
def queueOldest (d n : Nat) (s : State) : State :=
  let mine := (s.cache.filter fun b => b.dirty && homeOf s b.vol == some d).foldr insSince []
  queueBlocks ((oldest n mine).map fun b => (b.vol, b.lba)) s

/-- R162: with more than 3/4 of its protected region, or dirty budget, dirty, and from then on until less than 5/8 is, the oldest stripes are
queued until less than 5/8 would be left. -/
def pressure (d : Nat) (s : State) : State :=
  let lim := ownLimit s d
  let have_ := dirtyBytes s d
  let on := decide (3 * lim < 4 * have_) || ((s.die? d).any (·.jr.pressing) && decide (5 * lim ≤ 8 * have_))
  let s1 := s.updJr d fun j => { j with pressing := on }
  if on then queueOldest d (have_ - 5 * lim / 8 + 1) s1 else s1

/-- R138: the tick from which FLUSH may wait for a block that is written: dirty content hands it on; a block that a write-kind command
with a completion record has written, or marked deallocated, was covered in some earlier tick. -/
def ackedBefore (s : State) (vol lba : Nat) : Option Nat :=
  ((s.cached? vol lba).filter (·.dirty)).bind (·.acked) |>.orElse fun _ =>
    if (s.vol? vol).any fun v => v.written.any fun r => decide (r.1 ≤ lba) && decide (lba < r.1 + r.2) then some 0 else none

/-- A block written into the protected region; dirty content that it replaces hands on its place in FLUSH and in the
destages that have snapshotted it (R167). -/
def writeBlock (b : CBlk) (s : State) : State :=
  let old := (s.cached? b.vol b.lba).filter (·.dirty)
  let n := { b with acked := ackedBefore s b.vol b.lba, acks := (old.map (·.acks)).getD [],
                    staged := (old.map (·.staged)).getD [], pinned := old.any (·.pinned) }
  { s with cache := s.cache.filter (fun x => !(x.vol == b.vol && x.lba == b.lba)) ++ [n] }

/-- R138, R139: a completed write-kind command's blocks count from its completion record on for FLUSH, with what a later command has put
in their place; its own content counts for FLUSH MEDIA. -/
def ackBlocks (c : Cmd) (s : State) : State :=
  let t := s.clk.tick + bit c.away
  let mine (b : CBlk) : Bool := b.dirty && b.vol == c.entry.vol.toNat && decide (c.entry.lba.toNat ≤ b.lba) &&
    decide (b.lba < c.entry.lba.toNat + c.entry.nblk.toNat)
  let mark (b : CBlk) : CBlk :=
    { b with acked := b.acked.orElse fun _ => some t, acks := if b.writer = some c.ref then b.acks ++ [(t, b.jsn)] else b.acks }
  { s with cache := updIf mine mark s.cache }

/-- R138: a block is durable against a single failure, or FLUSH no longer waits for it. -/
def durableNow (s : State) (vol lba : Nat) : Bool := (s.cached? vol lba).all fun b => !b.dirty || b.mirrored

end Sys2Proof.Machine
end

