-- ==== Sys2Proof/Machine/Mirroring.lean ====
section
/-! DEFINITION. What a die sends to the mirror region of the partner's die of its index: units with their UNIT COMMIT, journal entries, READs of what
only the partner holds, configuration changes (R156, R158, R159, R173, R363, R366, R372). -/

namespace Sys2Proof.Machine

/-- R158, R311: the partner's die is a journal mirror of die d. -/
def partnerMirrors (s : State) (d : Nat) : Bool :=
  s.pair.state == .paired && !s.pair.lostDies.contains d && !s.pair.partnerP3

/-- R381: the whole live journal goes to the partner again. -/
def JournalSt.sendAnew (j : JournalSt) : JournalSt := { j with sent := 0, anew := j.next }

/-- R173, R372, R381: the entries of a die that its next message to the partner carries: each that belongs to a pool and has not been sent.
A UNIT COMMIT has gone with its unit (R159), but goes again at a rejoin and where the partner's copy is written anew. -/
def unsent (s : State) (j : JournalSt) : List JEntry :=
  let old := (j.segs.flatMap (·.entries) ++ j.entries).filter fun e => decide (j.sent ≤ e.jsn) && !j.fresh.contains e
  ((old ++ j.fresh).foldl (fun l e => insEntry e l) []).filter fun e => e.pool.isSome && !j.waiting.contains e.jsn && match e.body with
    | .unitCommit .. => s.pair.rejoinAt.isSome || decide (e.jsn < j.anew)
    | _ => true

/-- R159, R173: the segments of a message to the mirror region of the partner's die of the same index. Where its copies lie is the
partner's: the offsets are free values (assumption 12). -/
def mirrorSegs (s : State) (d : Nat) (m : W32) (at_ : Nat) (parts : List Bytes) : List Seg :=
  parts.zipIdx.map fun (b, i) =>
    { op := 1, flagged := i + 1 == parts.length, src := epAddr s.id.pkgid d 0, dst := epAddr s.partner d 0, msgno := m, segno := i,
      nseg := parts.length, key := 0xFFFD, gen := 1, offset := BitVec.ofNat 64 (Config.freeNat (at_ + i)), payload := b }

/-- Bytes cut into payloads of a segment. -/
def payloads (b : Bytes) : List Bytes := (List.range (ceilDiv b.length 4096)).map fun i => slice b (i * 4096) (min 4096 (b.length - i * 4096))

/-- R173, R372: at the end of a tick a die sends the partner the entries that it has programmed. -/
def mirrorJournal (d : Nat) (s : State) : State :=
  match s.die? d with
  | none => s
  | some x =>
    let es := unsent s x.jr
    if !(partnerMirrors s d || s.pair.rejoinAt.isSome) || es.isEmpty then s
    else
      let (m, s1) := nextMsg d s
      let upto := (x.jr.waiting.head?).getD x.jr.next
      let note (j : JournalSt) : JournalSt :=
        { j with sent := upto, anew := 0, sentIn := (j.sentIn.filter fun y => openSys s d y.1) ++ [(m, (es.head?.map (·.jsn)).getD 0)] }
      postSystem d m (mirrorSegs s d m x.jr.next (payloads (es.flatMap JEntry.bytes))) (s1.updJr d note)

/-- R158, R173: the live entries of a die that its journal mirror on die h holds: those of the pools that h shadows. -/
def shadowEntries (s : State) (d h : Nat) : List JEntry :=
  let mine (n : Nat) : Bool := (s.pool? n).any fun p => p.home == d && p.shadow == some h && !p.away
  match s.die? d with
  | none => []
  | some x => ((x.jr.segs.flatMap (·.entries) ++ x.jr.entries).filter fun e => e.pool.any mine).foldl (fun l e => insEntry e l) []

/-- R33, R158, R173: at the end of a tick the shadow dies of a die's pools hold its live entries, where a path leads to them. -/
def mirrorShadows (d : Nat) (s : State) : State :=
  let put (x : DieSt) (h : Nat) : DieSt :=
    if h = d || !x.alive || !joined s d h then x
    else
      let es := shadowEntries s d h
      let rest := x.rfl.copies.filter fun c => c.1 != d
      { x with rfl := { x.rfl with copies := if es.isEmpty then rest else (d, es) :: rest } }
  { s with dies := s.dies.zipIdx.map fun (x, h) => put x h }

/-- R173: the mirror copy that die h holds of die d's journal. -/
def copyOf (s : State) (d h : Nat) : Option (List JEntry) := ((s.die? h).bind fun x => x.rfl.copies.find? fun c => c.1 == d).map (·.2)

/-- The home die of the pool that a cached block belongs to. -/
def homeOfBlk (s : State) (b : CBlk) : Option Nat := ((s.vol? b.vol).bind fun v => s.pool? v.pool).map (·.home)

/-- R363: the home die asks the partner's die for a block with REFLECT READ at key FFFDh, once; where the block lies there is a free
value (assumption 12). -/
def askBlock (s : State) (b : CBlk) : State :=
  match b.remote, homeOfBlk s b with
  | some e, some h =>
    if b.asked.isSome || s.pair.state != .paired || !s.serves h || s.pair.lostDies.contains e then s
    else
      let (m, _) := nextMsg h s
      let ask (x : CBlk) : CBlk := if x = b then { x with asked := some m } else x
      sendSystem h s.partner e 2 0xFFFD (Config.freeNat s.free) (BitVec.ofNat 32 (b.data.length + b.pi.length)) false []
        { s with free := s.free + 1, cache := s.cache.map ask }
  | _, _ => s

/-- R157: a block of write-back single data that is to be mirrored to the partner's die again, by its home die d. -/
def copyDue (s : State) (d : Nat) (b : CBlk) : Bool :=
  b.dirty && !b.mirrored && b.remote.isNone && b.copyMsg.isNone &&
    ((s.vol? b.vol).bind fun v => s.pool? v.pool).any fun p => p.home == d && !p.away && s.serves d && mirrorPeer s p == some false

/-- R157, R159, R271: the UNIT COMMIT that goes with a block that is mirrored again: that of its unit, for the one block; one without, JSN 0,
for a block that a mitre step has staged (assumption 12). -/
def copyEntry (s : State) (d : Nat) (b : CBlk) : JEntry :=
  let es : List JEntry := ((s.die? d).map fun x => x.jr.segs.flatMap (·.entries) ++ x.jr.entries).getD []
  let pool := (s.vol? b.vol).map (·.pool)
  match (es.find? fun e => e.jsn == b.jsn).map JEntry.body with
  | some (.unitCommit vol unit _ _ units cdir ring tag prev) => ⟨b.jsn, d, pool, .unitCommit vol unit b.lba 1 units cdir ring tag prev⟩
  | _ => ⟨b.jsn, d, pool, .unitCommit b.vol 0 b.lba 1 1 (Config.freeNat b.jsn) 0 0 0⟩

/-- R157, R159, R348: a block goes to the partner's die again, in a message of its own. -/
def sendCopy (d : Nat) (s : State) (b : CBlk) : State :=
  let (m, s1) := nextMsg d s
  let sent (x : CBlk) : CBlk := { x with copyMsg := some m }
  postSystem d m (mirrorSegs s d m b.jsn (payloads (b.data ++ b.pi) ++ [(copyEntry s d b).bytes]))
    { s1 with cache := updIf (fun x => x.vol == b.vol && x.lba == b.lba) sent s1.cache }

/-- R157, R372 step 3, R380: at the end of a tick write-back single data goes to the mirror peer that is there again. -/
def sendCopies (s : State) : State :=
  s.aliveDies.foldl (fun s d => (s.cache.filter (copyDue s d)).foldl (sendCopy d) s) s

/-- R157: a block whose message the partner has acknowledged is mirrored. -/
def takeCopies (s : State) : State :=
  let over_ (b : CBlk) : Bool := b.copyMsg.any fun m => (homeOfBlk s b).all fun d => !openSys s d m
  let got (b : CBlk) : CBlk := { b with copyMsg := none, mirrored := b.dirty && s.pair.state == .paired, onShadow := false }
  { s with cache := updIf over_ got s.cache }

/-- R157, R398: at the end of a tick write-back single data of a pool whose mirror peer is its shadow die is there again, over the
fabric. -/
def shadowCopies (s : State) : State :=
  let due (b : CBlk) : Bool := b.dirty && !b.mirrored && b.remote.isNone && b.copyMsg.isNone &&
    ((s.vol? b.vol).bind fun v => s.pool? v.pool).any fun p =>
      !p.away && s.serves p.home && mirrorPeer s p == some true && p.shadow.any fun h => joined s p.home h
  { s with cache := updIf due (fun b => { b with mirrored := true, onShadow := true }) s.cache }

/-- R386 steps 1 and 2: the shadow die of each pool of a retiring die holds its dirty data as an extra mirror, over the fabric. -/
def copyRetiring (s : State) : State :=
  let on (p : Pool) : Bool :=
    !p.away && (s.die? p.home).any (fun x => x.alive && x.retiring) && p.shadow.any fun h => s.alive h && joined s p.home h
  let due (b : CBlk) : Bool := b.dirty && ((s.vol? b.vol).bind fun v => s.pool? v.pool).any on
  { s with cache := updIf due (fun b => { b with extra := true }) s.cache }

/-- R366, R372: the records of this package as messages to the partner, one each, when the pair forms again: what has changed while it
was parted is among them. -/
def exchange (s : State) : State :=
  let n := (s.pools.filter fun p => !p.away).length + (s.vols.filter fun v => (s.pool? v.pool).any fun p => !p.away).length + s.tenants.length
  let d := s.id.lead
  (List.range n).foldl (fun s _ =>
    sendSystem d s.partner d 1 0xFFFD (Config.freeNat s.free) 0 false (le 8 (Config.freeNat (s.free + 1))) { s with free := s.free + 2 }) s

/-- R366, R478: the message that tells the partner of the change that a configuration command has made. The spec gives the records no
layout, and no key: they go to the mirror region, with free values (assumption 12). -/
def tellOf (s : State) (c : Cmd) : State :=
  let d := c.ref.die
  let (m, _) := nextMsg d s
  let sent (c : Cmd) : Cmd := { c with told := c.told.map fun w => { w with msg := some m } }
  sendSystem d s.partner d 1 0xFFFD (Config.freeNat s.free) 0 false (le 8 (Config.freeNat (s.free + 1))) ({ s.updCmd c.ref sent with free := s.free + 2 })

/-- R366, R478: at the end of a tick the partner is told of the changes it has not been told of. -/
def tellPartner (s : State) : State :=
  if s.pair.state = .paired then (s.cmds.filter fun c => c.told.any (·.msg.isNone)).foldl tellOf s else s

/-- R158, R166: an entry of a die has reached every journal mirror: the shadow dies in the tick that programmed it, the partner with its
acknowledgement. -/
def mirroredAt (s : State) (d jsn : Nat) : Bool :=
  mirrorsAnswer s d && (s.die? d).all fun x => !x.jr.waiting.contains jsn && (!partnerMirrors s d ||
    (decide (jsn < x.jr.sent) && !x.jr.sentIn.any fun y => decide (y.2 ≤ jsn) && openSys s d y.1))

end Sys2Proof.Machine
end

