-- ==== Sys2Proof/Machine/Members.lean ====
section
/-! DEFINITION. The device as NVMe host: member commands, sector repair, member failure and spare slots, destage
(R163 to R168, R203, R212, R220 to R230, R238). -/

namespace Sys2Proof.Machine

/-! ### Member commands -/

/-- Ascending numbers. -/
def sortNat (l : List Nat) : List Nat := l.foldl (fun a n => insNat n a) []

/-- R223: paths in ascending order of die index, then of controller. -/
def pathOrder (l : List Nat) : List Nat :=
  (List.range 8).flatMap fun d => sortNat (l.filter fun p => pathOn p == d)

/-- R223: the path that carries a member command for a die: the lowest-numbered up path of the die, else of any other die. -/
def pathFrom (d : Nat) (n : Ns) : Nat :=
  let up := pathOrder n.up
  ((up.find? fun p => pathOn p == d).orElse fun _ => up.head?).getD d

/-- R223: the path to a namespace for a die. -/
def pathTo (s : State) (d ns : Nat) : Nat := ((s.ns? ns).map (pathFrom d)).getD d

/-- R367: a member command is a preemption. -/
def MCmd.preempts (m : MCmd) : Bool := match m.purpose with
  | .preempt _ => true
  | _ => false

/-- R367, R375: a member takes no write yet: it has still to lose the keys of a die that failed, or the witness is contested. -/
def barred (s : State) (m : MCmd) : Bool :=
  m.isWrite && !m.preempts && m.pool.isSome && (s.pair.contest.isSome || s.mcmds.any fun x => x.preempts && x.ns == m.ns)

/-- R222: the controller on a path describes data with SGLs. -/
def sglOn (s : State) (ns path : Nat) : Bool := (s.ns? ns).any fun n => n.info.ctrls.any fun c => c.path == path && c.sgl

/-- R222, R226: submits a member command; a write that its member takes later is held back. -/
def submit (m : MCmd) (s : State) : State :=
  { s with mcmds := s.mcmds ++ [{ m with id := s.uniq, at_ := s.clk.tick, waits := m.waits || barred s m, sgl := sglOn s m.ns m.path }],
           uniq := s.uniq + 1 }

/-- R216: member-level protection is in use on a namespace. -/
def nsE2e (s : State) (n : Nat) : Bool := (s.ns? n).any (·.info.e2e)

/-- Reads one sector of a position of a stripe from the member that serves it. -/
def readSector (p : Pool) (new : Bool) (stripe pos off : Nat) (why : Purpose) (s : State) : State :=
  match (p.readPos new stripe pos).bind fun x => (p.memberAt new x).map fun m => (x, m.ns) with
  | none => s
  | some (x, n) =>
    submit { id := 0, ns := n, pool := some p.num, member := x, path := pathTo s p.home n,
             isWrite := false, lba := (p.geomOf new).memberLba stripe off, data := [], purpose := why, at_ := 0 } s

/-- R212, R267: the sector that carries a coded region at a place. -/
def sectorFor (s : State) (p : Pool) (new : Bool) (stripe pos off gen n : Nat) (coded : Bytes) : Sector :=
  let g := p.geomOf new
  sealed g.b g.uid stripe pos off gen (nsE2e s n) (g.memberLba stripe off) coded

/-- Writes one sector of a position of a stripe to one member. -/
def writeSectorTo (p : Pool) (new : Bool) (stripe pos off gen : Nat) (coded : Bytes) (why : Purpose) (x : Nat) (s : State) :
    State :=
  match (p.memberAt new x).map (·.ns) with
  | none => s
  | some n =>
    submit { id := 0, ns := n, pool := some p.num, member := x, path := pathTo s p.home n,
             isWrite := true, lba := (p.geomOf new).memberLba stripe off,
             data := [sectorFor s p new stripe pos off gen n coded], purpose := why, at_ := 0 } s

/-- R252: writes one sector of a position to every member that takes it. -/
def writeSector (p : Pool) (new : Bool) (stripe pos off gen : Nat) (coded : Bytes) (why : Purpose) (s : State) : State :=
  (p.writePos new stripe pos).foldl (fun s x => writeSectorTo p new stripe pos off gen coded why x s) s

/-- R215, R216: a sector read for a place is good. -/
def sectorOk (s : State) (p : Pool) (new : Bool) (stripe pos off n : Nat) (x : Sector) : Bool :=
  let g := p.geomOf new
  sealOk g.uid stripe pos off x &&
    (!nsE2e s n || slice x.md 56 8 == mpi true (g.memberLba stripe off) (x.data ++ slice x.md 0 56))

/-! ### Write generations (R166) -/

/-- R166: a stripe's write generation. -/
def Pool.gen (p : Pool) (new : Bool) (stripe : Nat) : W32 :=
  ((p.gens.find? fun g => g.1 == new && g.2.1 == stripe).map (·.2.2)).getD 0

/-- R166: sets a stripe's write generation. -/
def setGen (num : Nat) (new : Bool) (stripe : Nat) (v : W32) (s : State) : State :=
  s.updPool num fun p => { p with gens := (new, stripe, v) :: p.gens.filter fun g => !(g.1 == new && g.2.1 == stripe) }

/-! ### Sector repair (R227, R237) -/

/-- R237: WGEN of a block that repair or rebuild writes: the reconstructed CGEN for data; for parity, that of the
lowest-numbered surviving parity position, else CGEN of the lowest-numbered surviving data position. -/
def repairGen (k pos : Nat) (good : List (Nat × Sector)) (coded : Bytes) : Nat :=
  if pos < k then leNat (coded.drop (coded.length - 4))
  else match (sortPos good).find? fun x => decide (k ≤ x.1) with
    | some x => x.2.wgen
    | none => ((sortPos good).head?.map fun x => x.2.cgen).getD 0

/-- R226: a write to a block of a member has timed out and its attempts are not over. -/
def lateWriteTo (p : Pool) (new : Bool) (stripe off x : Nat) (s : State) : Bool :=
  s.mcmds.any fun m => m.isWrite && decide (1 < m.tries) && (p.memberAt new x).any (fun y => y.ns == m.ns) &&
    m.lba == (p.geomOf new).memberLba stripe off

/-- R226: the member command submitted last is held back. -/
def holdLast (s : State) : State :=
  let i := s.uniq - 1
  { s with mcmds := updIf (fun m => m.id == i) (fun m => { m with waits := true }) s.mcmds }

/-- R227, R236: a destage of a stripe is in progress. -/
def stripeBusy (s : State) (num : Nat) (new : Bool) (stripe : Nat) : Bool :=
  s.destages.any fun d => d.pool == num && d.newGeom == new && d.stripe == stripe

/-- R48, R226, R227: the rewrite of one position, under the stripe's lock: it goes out in a later tick, and not while a destage of the
stripe is in progress or a write to the same block has attempts open. -/
def repairAt (p : Pool) (new : Bool) (stripe pos off gen : Nat) (coded : Bytes) (s : State) : State :=
  match p.readPos new stripe pos with
  | none => s
  | some x =>
    holdLast (writeSectorTo p new stripe pos off gen coded (.repair new stripe pos off) x s)

/-- R227: a rewrite that a destage of its stripe holds off. -/
def lockedOut (s : State) (m : MCmd) : Bool :=
  match m.purpose with
  | .repair new st _ _ => m.pool.any fun n => stripeBusy s n new st
  | _ => false

/-- R48, R226, R227, R367, R375: what is held back goes out at the start of a tick, once no destage of its stripe is in progress, no write to the same block has
attempts open and its member takes writes. -/
def releaseWrites (s : State) : State :=
  let late (m : MCmd) : Bool :=
    lockedOut s m || barred s m || s.mcmds.any fun x => x.isWrite && !x.waits && decide (1 < x.tries) && x.ns == m.ns && x.lba == m.lba
  { s with mcmds := updIf (fun m => m.waits && !late m) (fun m => { m with waits := false, at_ := s.clk.tick }) s.mcmds }

/-- R227: queues the rewrite of the positions that failed, from the coded regions of the whole stripe. -/
def queueRepairs (p : Pool) (new : Bool) (stripe off : Nat) (good : List (Nat × Sector)) (bad : List Nat)
    (all : List Bytes) (s : State) : State :=
  bad.foldl (fun s pos =>
    match all[pos]? with
    | some coded => repairAt p new stripe pos off (repairGen (p.geomOf new).k pos good coded) coded s
    | none => s) s

/-- R227, R497: a rewritten sector: event 2120h, REPAIRS. What ITEM and ARG0 hold the spec does not say: the member index and
the member LBA (DESIGN CHOICE, assumption 43). -/
def repaired (m : MCmd) (s : State) : State :=
  match m.pool.bind s.pool? with
  | none => s
  | some p =>
    raise p.home 0x2120 { pool := p.num, item := m.member, arg0 := m.lba }
      (s.updPool p.num fun p => { p with members := updIf (·.ns == m.ns) (fun x => { x with repairs := x.repairs + 1 }) p.members })

/-! ### Member failure (R228, R229) -/

/-- R203: the lowest spare slot that no member holds. -/
def freeSlot (s : Nat) (ms : List Member) : Option Nat :=
  (List.range s).find? fun t => !ms.any fun m => m.slot == some t

/-- The namespace at an index of a geometry. -/
def Pool.nsAt (p : Pool) (new : Bool) (i : Nat) : Option Nat := (p.memberAt new i).map (·.ns)

/-- R238: work of other members whose holder in a tile was the namespace that fails is no longer done. -/
def undone (p : Pool) (ns : Nat) (e : Bool × Nat × Nat) : Bool :=
  p.nsAt e.1 e.2.1 != some ns &&
  (List.range 64).any fun r => ((p.keeps e.1 (64 * e.2.2 + r) e.2.1).bind (p.nsAt e.1)) == some ns

/-- R254: the tiles already copied back to a replacement that fails become work again. -/
def Pool.forget (p : Pool) (ns : Nat) : RebuildSt :=
  let back := p.rebuild.copied.filter fun e => p.nsAt e.1 e.2.1 == some ns
  { p.rebuild with done := p.rebuild.done.filter fun e => !undone p ns e && !back.contains e,
                   redo := (p.rebuild.done.filter (undone p ns)) ++ p.rebuild.redo.filter fun e => !undone p ns e && !back.contains e,
                   copied := p.rebuild.copied.filter fun e => p.nsAt e.1 e.2.1 != some ns,
                   jobs := p.rebuild.jobs.map fun j =>
                     { j with again := (j.work.map (·.1)).filter fun x => j.again.contains x || undone p ns (j.new, x, j.tile) },
                   resort := p.rebuild.resort || p.rebuild.running }

/-- R480: how the device reports a namespace: NID and NIDT. -/
def reportNs (i : NsInfo) : BitVec 128 × Nat := if i.nguid != 0 then (i.nguid, 2) else (i.eui.setWidth 128, 1)

/-- R250: some tile of a pool belongs to a volume. -/
def poolUsed (s : State) (num : Nat) : Bool := s.vols.any fun v => v.pool == num && !v.extents.isEmpty

/-- R267, R269, R296: the volume block that owns a pool data block and that a geometry holds: in a mitre the geometry on whose side
of the line it lies, in a veneer the old layout, and the new one once the block's tile is built. -/
def ownerAt (s : State) (p : Pool) (new : Bool) (pb : Nat) : Option (Nat × Nat) :=
  match p.reshape with
  | none => ownerOf s p.num pb
  | some r =>
    if r.plan.mitre then (if p.isNew pb == new then ownerOf s p.num pb else none)
    else if !new then ownerOf s p.num pb
    else s.vols.findSome? fun v => if v.pool != p.num then none
      else (List.range v.blocks).find? (fun l => (r.newPb v.num l).any fun x => x.2 == pb && r.built.contains x.1) |>.map fun l => (v.num, l)

/-- R296: an owned block that a geometry holds lies on the member at an index. -/
def liesOn (s : State) (p : Pool) (new : Bool) (i : Nat) : Bool :=
  let g := p.geomOf new
  (ownedTiles s p new).any fun t => (g.stripesOf t).any fun st =>
    (List.range g.k).any fun q => p.permAt new (g.rowOf st) (g.rowPos st q) == some i &&
      (List.range g.sb).any fun o => (ownerAt s p new (st * (g.k * g.sb) + q * g.sb + o)).isSome

/-- R250, R296: the failure of a namespace loses data of an m = 0 geometry. -/
def losesData (s : State) (p : Pool) (ns : Nat) : Bool :=
  if p.reshape.isNone then poolUsed s p.num && p.geom.m == 0
  else p.geoms.any fun new => (p.geomOf new).m == 0 &&
    (List.range (p.geomOf new).n).any fun i => p.nsAt new i == some ns && liesOn s p new i

/-- R245, R250: the blocks of volumes that lie on missing positions of the m = 0 geometries of a pool. -/
def unrecoverable (s : State) (p : Pool) : List (Nat × Nat) :=
  p.geoms.flatMap fun new =>
    let g := p.geomOf new
    if g.m ≠ 0 then []
    else ((workTiles s p new).flatMap g.stripesOf).flatMap fun st =>
      ((List.range g.k).filter fun q => (p.readPos new st q).isNone).flatMap fun q =>
        (List.range g.sb).filterMap fun o => ownerAt s p new (st * (g.k * g.sb) + q * g.sb + o)

/-- R250 cause 01h: a pool without parity has lost a member. -/
def loseMember (num : Nat) (s : State) : State :=
  let s1 := offlinePool num 1 s
  match s1.pool? num with
  | none => s1
  | some p => loseMany num (unrecoverable s1 p) s1

/-- R228, R229: fails the member that a namespace is: FAILED, no further command to it. Its slot and its events wait for
the guard period. -/
def failMember (ns cause : Nat) (s : State) : State :=
  let s1 := { s with mcmds := s.mcmds.filter fun m => m.ns != ns || m.pool.isNone }
  let mark (m : Member) : Member := { m with state := .failed, cause := cause, failTick := some s.clk.tick }
  match s.pools.find? fun p => (p.members ++ p.pending).any fun m => m.ns == ns && m.state != .failed with
  | none => s
  | some p =>
    let s2 := match p.members.findIdx? fun m => m.ns == ns with
      | some x => s1.updPool p.num fun q => { q with members := q.members.modify x mark, rebuild := p.forget ns }
      | none => s1.updPool p.num fun q => { q with pending := updIf (·.ns == ns) mark q.pending, rebuild := p.forget ns }
    if losesData s p ns then loseMember p.num s2 else s2

/-- R229, R414: events 2101h and 3107h of a failed member. -/
def failEvents (p : Pool) (item cause ns : Nat) (slot : Option Nat) (s : State) : State :=
  let (nid, nidt) := ((s.ns? ns).map fun n => reportNs n.info).getD (0, 0)
  raise p.home 0x3107 { pool := p.num, item := item, cause := cause, arg0 := slot.getD 0xFFFF }
    (raise p.home 0x2101 { pool := p.num, item := item, cause := cause, arg0 := nid.toNat % 2 ^ 64,
                           arg1 := nid.toNat / 2 ^ 64, arg2 := nidt } s)

/-- R203: a slot for the member at an index: the one it has, or the lowest free one. -/
def slotFor (p : Pool) (x : Nat) : Option Nat := ((p.members[x]?).bind (·.slot)).orElse fun _ => freeSlot p.geom.s (p.members ++ p.pending)

/-- R203, R283: the slot of a pending member that fails: the lowest free one of the new geometry during a reshape, else none. -/
def slotPending (p : Pool) : Option Nat := p.reshape.bind fun r => freeSlot r.plan.geom.s (p.members ++ p.pending)

/-- R203, R229: in the guard period the member at an index that failed in this tick is given its slot; 2101h and 3107h. -/
def settleFailure (num : Nat) (s : State) (x : Nat) : State :=
  match s.pool? num with
  | none => s
  | some p =>
    match p.members[x]? with
    | none => s
    | some m =>
      if m.failTick.isNone then s
      else
        let t := slotFor p x
        failEvents p x m.cause m.ns t
          (s.updPool num fun p => { p with members := p.members.modify x fun m => { m with slot := t, failTick := none } })

/-- R229, R283: in the guard period a pending member that failed in this tick is given its slot; 2101h and 3107h. -/
def settlePending (num : Nat) (s : State) (i : Nat) : State :=
  match s.pool? num with
  | none => s
  | some p =>
    match p.pending[i]? with
    | none => s
    | some m =>
      if m.failTick.isNone then s
      else
        let t := m.slot.orElse fun _ => slotPending p
        failEvents p (0x8000 + i) m.cause m.ns t
          (s.updPool num fun p => { p with pending := p.pending.modify i fun m => { m with slot := t, failTick := none } })

/-- R203, R229: the member failures of a tick, pool by pool in ascending member index. -/
def settleFailures (s : State) : State :=
  s.pools.foldl (fun s p =>
    (List.range p.pending.length).foldl (settlePending p.num) ((List.range p.members.length).foldl (settleFailure p.num) s)) s

/-- R203: a member failure of this tick has not been given its slot yet. -/
def Pool.unsettled (p : Pool) : Bool := (p.members ++ p.pending).any fun m => m.failTick.isSome

/-! ### What strips read as -/

/-- R212, R222: the sector that a position of a stripe reads as at an offset, from the member that serves it. -/
def stripRead (s : State) (p : Pool) (new : Bool) (st q o : Nat) : Sector :=
  match (p.readPos new st q).bind (p.nsAt new) with
  | some n => { data := Config.memberData n ((p.geomOf new).memberLba st o) s.uniq, md := Config.memberMd n ((p.geomOf new).memberLba st o) s.uniq }
  | none => { data := [], md := [] }

/-- R236 step 2: the positions of a stripe that can be had at an offset, those found bad left out. -/
def stripHave (p : Pool) (new : Bool) (st : Nat) (bad : List Nat) : List Nat := (p.present new st).filter fun q => !bad.contains q

/-- R210, R236 step 3: what the readable positions of a stripe hold at an offset. -/
def stripGood (s : State) (p : Pool) (new : Bool) (st o : Nat) (bad : List Nat) : List (Nat × Sector) :=
  (stripHave p new st bad).map fun q => (q, stripRead s p new st q o)

/-- R210, R236 step 3: the coded regions of a whole stripe at an offset; none where fewer than k positions can be had. -/
def stripAll (s : State) (p : Pool) (new : Bool) (st o : Nat) (bad : List Nat) : Option (List Bytes) :=
  reconstruct (p.geomOf new).k (p.geomOf new).m ((stripGood s p new st o bad).map fun x => (x.1, x.2.coded))

/-! ### Destage (R163 to R168) -/

/-- R163: the dirty blocks of a stripe, with data index and offset. -/
def stripeDirty (s : State) (p : Pool) (new : Bool) (stripe : Nat) : List (CBlk × Nat × Nat) :=
  s.cache.filterMap fun b =>
    if !b.dirty || b.half == some new then none
    else (s.vol? b.vol).bind fun v =>
      if v.pool != p.num then none
      else ((placesOf p v b.lba).find? fun x => x.new == new && x.stripe == stripe).map fun x => (b, x.q, x.off)

/-- R164: METHOD of a destage of dd dirty blocks over an extent of e offsets. Where a wholly dirty stripe has m = 0 or k = 1 the
table of R170 fits twice; the model writes 4 or 3, not 0 (DESIGN CHOICE, assumption 43). -/
def methodOf (g : Geom) (dd e : Nat) : Nat :=
  if g.m = 0 then 4 else if g.k = 1 then 3 else if dd = g.k * g.sb then 0
  else if dd + g.m * e < g.k * e - dd then 1 else 2

/-- A mask with the bits of a list. -/
def maskOf (l : List Nat) : Nat := l.eraseDups.foldl (fun m i => m + 2 ^ i) 0

/-- R168: open stripe intents of a die. -/
def intentsOf (s : State) (d : Nat) : Nat := ((s.die? d).map fun x => openIntents x.jr).getD 0

/-- R167: the blocks that a destage snapshots keep the content it stages until its commit. -/
def stageBlocks (ijsn : Nat) (snap : List (CBlk × Nat × Nat)) (s : State) : State :=
  let hit (b : CBlk) : Bool := snap.any fun x => x.1.vol == b.vol && x.1.lba == b.lba
  { s with cache := updIf hit (fun b => { b with staged := (ijsn, b.jsn, b.data, b.pi) :: b.staged }) s.cache }

/-- R166: the content that a destage has staged is no longer kept apart. -/
def unstageBlocks (ijsn : Nat) (s : State) : State :=
  { s with cache := updIf (fun b => b.staged.any fun x => x.1 == ijsn) (fun b => { b with staged := b.staged.filter fun x => x.1 != ijsn }) s.cache }

/-- R188 step 1: the blocks of a stripe as the destage under an open intent had staged them. -/
def stagedBlocks (s : State) (p : Pool) (new : Bool) (stripe ijsn : Nat) : List (CBlk × Nat × Nat) :=
  s.cache.filterMap fun b =>
    match b.staged.find? fun x => x.1 == ijsn with
    | none => none
    | some x => (s.vol? b.vol).bind fun v =>
        ((placesOf p v b.lba).find? fun y => y.new == new && y.stripe == stripe).map fun y =>
          ({ b with jsn := x.2.1, data := x.2.2.1, pi := x.2.2.2 }, y.q, y.off)

/-- R166 step 1: starts the destage of a stripe with its snapshot of dirty blocks. -/
def openDestage (p : Pool) (new : Bool) (stripe cls : Nat) (snap : List (CBlk × Nat × Nat)) (s : State) : State :=
  let g := p.geomOf new
  let offs := snap.map (·.2.2)
  let first := (offs.min?).getD 0
  let count := (offs.max?).getD 0 + 1 - first
  let m := methodOf g snap.length count
  let old := p.gen new stripe
  let absent := p.absent new stripe
  let body : JBody := .intent stripe new old (old + 1) (BitVec.ofNat 32 (maskOf (snap.map (·.2.1))))
    (BitVec.ofNat 4 (2 ^ g.m - 1)) m first count (Config.freeNat s.uniq) (BitVec.ofNat 36 (maskOf absent))
  let d : Destage := { id := s.uniq, pool := p.num, newGeom := new, stripe := stripe, jsn := nextJsn s p.home, gen := old + 1, method := m,
                       recon := false, repair := false, first := first, count := count, snap := snap, absent := absent,
                       reading := true, got := [], bad := [], asked := [], cls := cls }
  let s1 := stageBlocks d.jsn snap (programJ p.home (some p.num) body s)
  let s2 := s1.updPool p.num fun q => { q with queued := q.queued.filter (· != stripe + if new then 2 ^ 47 else 0) }
  { s2 with destages := s2.destages ++ [d], uniq := s2.uniq + 1 }

/-- R187, R188: takes up an open intent of a pool: a destage of what it had staged, without an intent of its own. -/
def openRepair (p : Pool) (jsn stripe : Nat) (new : Bool) (gen : W32) (method first count : Nat) (s : State) : State :=
  let snap := stagedBlocks s p new stripe jsn
  let m := if method = 3 ∨ method = 4 then method else 2
  let d : Destage := { id := s.uniq, pool := p.num, newGeom := new, stripe := stripe, jsn := jsn, gen := gen, method := m,
                       recon := m == 2, repair := true, first := first, count := count, snap := snap,
                       absent := p.absent new stripe, reading := true, got := [], bad := [], asked := [], cls := 1 }
  { s with destages := s.destages ++ [d], uniq := s.uniq + 1 }

/-- R164, R165: what a destage must read. -/
def needs (p : Pool) (d : Destage) : List (Nat × Nat) :=
  let g := p.geomOf d.newGeom
  let ext := (List.range d.count).map (· + d.first)
  if d.recon then (p.present d.newGeom d.stripe).flatMap fun q => ext.map fun o => (q, o)
  else if d.method = 1 then
    d.snap.map (·.2) ++ (List.range g.m).flatMap fun i => ext.map fun o => (g.k + i, o)
  else if d.method = 2 then
    ((List.range g.k).flatMap fun q => ext.map fun o => (q, o)).filter fun x => !d.snap.any fun b => b.2 == x
  else []

/-- R165: a method whose reads can all succeed so far. -/
def usable (p : Pool) (d : Destage) : Bool :=
  (needs p d).all fun x => (p.readPos d.newGeom d.stripe x.1).isSome && !d.bad.contains x && !d.slow.contains x

/-- R165: the method as it stands: the other one when the chosen one is unusable, then reconstruction. -/
def chooseMethod (p : Pool) (d : Destage) : Destage :=
  if d.recon || usable p d then d
  else
    let o := { d with method := 3 - d.method }
    if usable p o then o else { d with method := 2, recon := true }

/-- The sector that a destage read at a position and offset. -/
def Destage.read? (d : Destage) (pos off : Nat) : Option Sector :=
  (d.got.find? fun x => x.1 == pos && x.2.1 == off).map (·.2.2)

/-- The coded region of a dirty block in a destage. -/
def Destage.new? (d : Destage) (pos off : Nat) : Option Bytes :=
  (d.snap.find? fun x => x.2.1 == pos && x.2.2 == off).map fun x => codedOf x.1.data x.1.pi d.gen.toNat

/-- R188: the consistent set that gives the clean strips of a repaired stripe at an offset: the new data and the new parity
blocks, or the old blocks of the dirty positions and the old parity blocks, with the readable clean strips in either. -/
def repairSet (g : Geom) (d : Destage) (off : Nat) : Option (List Bytes) :=
  let read := (List.range g.w).filterMap fun q => (d.read? q off).map fun x => (q, x)
  let dirty (q : Nat) : Bool := (d.new? q off).isSome
  let clean := (read.filter fun x => decide (x.1 < g.k) && !dirty x.1).map fun x => (x.1, x.2.coded)
  let newData := (List.range g.k).filterMap fun q => (d.new? q off).map fun x => (q, x)
  let isNew (x : Sector) : Bool := x.wgen == d.gen.toNat
  let newPar := (read.filter fun x => decide (g.k ≤ x.1) && isNew x.2).map fun x => (x.1, x.2.coded)
  let old := (read.filter fun x => (decide (g.k ≤ x.1) || dirty x.1) && !isNew x.2).map fun x => (x.1, x.2.coded)
  match reconstruct g.k g.m (clean ++ newData ++ newPar) with
  | some x => some x
  | none => reconstruct g.k g.m (clean ++ old)

/-- R166 step 3, R165: the coded regions of every data position at an offset as they will stand, and the data positions
whose clean content could not be had. -/
def dataAt (g : Geom) (d : Destage) (off : Nat) : List Bytes × List Nat :=
  let surv := (List.range g.w).filterMap fun q => (d.read? q off).map fun x => (q, x.coded)
  let old := if d.repair then repairSet g d off else if d.recon then reconstruct g.k g.m surv else none
  let one (q : Nat) : Bytes × Bool :=
    match d.new? q off, d.read? q off, old.bind (·[q]?) with
    | some x, _, _ => (x, true)
    | none, some x, _ => (x.coded, true)
    | none, none, some x => (x, true)
    | none, none, none => (codedOf (zeros g.b) [] d.gen.toNat, false)
  ((List.range g.k).map fun q => (one q).1, (List.range g.k).filter fun q => !(one q).2)

/-- R164: the parity regions at an offset by read-modify-write. -/
def parityRmw (g : Geom) (d : Destage) (off : Nat) : List Bytes :=
  (List.range g.m).map fun i =>
    d.snap.foldl (fun acc (_, q, o) =>
      if o != off then acc
      else
        let delta := gfAdd (((d.read? q off).map Sector.coded).getD []) ((d.new? q off).getD [])
        gfAdd acc (gfScale (coef i q) delta)) (((d.read? (g.k + i) off).map Sector.coded).getD [])

/-- R227: the clean data positions at an offset that a destage could not read and has reconstructed: they are rewritten. -/
def destageRepairs (p : Pool) (d : Destage) (lost : List Nat) (off : Nat) : List Nat :=
  (List.range (p.geomOf d.newGeom).k).filter fun q =>
    d.bad.contains (q, off) && !lost.contains q && (p.readPos d.newGeom d.stripe q).isSome && (d.new? q off).isNone

/-- R166 steps 3 and 4: the member writes of a destage, with the lost blocks of R239. -/
def issueWrites (p : Pool) (d : Destage) (s : State) : State :=
  let g := p.geomOf d.newGeom
  let why (pos off : Nat) : Purpose := .destage d.id pos off
  let put (pos off : Nat) (coded : Bytes) (s : State) : State :=
    writeSector p d.newGeom d.stripe pos off d.gen.toNat coded (why pos off) s
  let s := d.snap.foldl (fun s (_, q, o) => put q o ((d.new? q o).getD []) s) s
  if d.method = 4 then s
  else if d.method = 3 then
    d.snap.foldl (fun s (_, _, o) =>
      (List.range g.m).foldl (fun s i => put (1 + i) o ((d.new? 0 o).getD []) s) s) s
  else
    ((List.range d.count).map (· + d.first)).foldl (fun s o =>
      if d.method = 1 then
        (parityRmw g d o).zipIdx.foldl (fun s (x, i) => put (g.k + i) o x s) s
      else
        let (data, lost) := dataAt g d o
        let s := (destageRepairs p d lost o).foldl (fun s q =>
          repairAt p d.newGeom d.stripe q o (repairGen g.k q [] ((data[q]?).getD [])) ((data[q]?).getD []) s) s
        let s := lost.foldl (fun s q =>
          let s := put q o ((data[q]?).getD []) s
          match ownerAt s p d.newGeom (d.stripe * (g.k * g.sb) + q * g.sb + o) with
          | some (v, l) => loseBlocks p.num v l 1 s
          | none => s) s
        (List.range g.m).foldl (fun s i => put (g.k + i) o (parityRow g.k i data) s) s) s

/-- A change of one destage. -/
def State.updDestage (s : State) (i : Nat) (f : Destage → Destage) : State :=
  { s with destages := updIf (fun d => d.id == i) f s.destages }

/-- R129, R139: the commands that waited for content up to a JSN of a block wait for it no longer. -/
def satisfied (vol lba jsn : Nat) (s : State) : State :=
  let drop (c : Cmd) : Cmd := { c with wait := c.wait.filter fun w => !(w.1 == vol && w.2.1 == lba && decide (w.2.2 ≤ jsn)) }
  { s with cmds := updIf (fun c => c.op != .flush) drop s.cmds }

/-- R139: the acknowledged contents that the members do not hold once content up to a JSN is there. -/
def mediaAfter (jsn : Nat) (c : CBlk) : List (Nat × Nat) := c.acks.filter fun x => decide (jsn < x.2)

/-- R128, R129, R166: a dirty block's content is on the members: it becomes clean, or leaves the cache. -/
def cleanBlock (c : CBlk) (s : State) : State :=
  let clean := { c with dirty := false, jsn := 0, mirrored := false, acked := none, acks := [], staged := [], writer := none,
                        half := none, pinned := false }
  let s1 := s.dropBlocks fun x => x.vol == c.vol && x.lba == c.lba
  satisfied c.vol c.lba c.jsn (if c.drop then s1 else insertClean clean s1)

/-- R166, R276: a destaged block after its commit: clean, dropped, or still waiting for the other layout. -/
def settleBlock (p : Pool) (new : Bool) (b : CBlk) (s : State) : State :=
  match s.cached? b.vol b.lba, s.vol? b.vol with
  | some c, some v =>
    let half := if c.jsn = b.jsn then c.half else b.half
    let whole := (placesOf p v b.lba).all fun x => x.new == new || half == some x.new
    if !c.dirty then s
    else if !whole then (if c.jsn = b.jsn then s.updBlk b.vol b.lba fun x => { x with half := some new } else s)
    else if c.jsn != b.jsn then
      satisfied b.vol b.lba b.jsn (s.updBlk b.vol b.lba fun x => { x with acks := mediaAfter b.jsn x })
    else cleanBlock c s
  | _, _ => s

/-- R227: a queued rewrite of a block that a destage has written is skipped. -/
def overwritten (p : Pool) (d : Destage) (m : MCmd) : Bool :=
  match m.purpose with
  | .repair new st pos off =>
    m.pool == some p.num && new == d.newGeom && st == d.stripe && decide (d.first ≤ off) && decide (off < d.first + d.count) &&
      (decide ((p.geomOf new).k ≤ pos) || d.snap.any fun x => x.2 == (pos, off))
  | _ => false

/-- R227: the clean data blocks that a destage found faulty before it took the other method (R165) are reconstructed from the stripe
as it now stands, and rewritten. -/
def repairFaults (p : Pool) (d : Destage) (s : State) : State :=
  let g := p.geomOf d.newGeom
  let due := d.bad.filter fun x => decide (x.1 < g.k) && (p.readPos d.newGeom d.stripe x.1).isSome && !d.snap.any fun b => b.2 == x
  if d.method ≠ 1 then s
  else due.foldl (fun s x =>
    let bad := (d.bad.filter fun y => y.2 == x.2).map (·.1)
    match (stripAll s p d.newGeom d.stripe x.2 bad).bind (·[x.1]?) with
    | some c => repairAt p d.newGeom d.stripe x.1 x.2 (repairGen g.k x.1 [] c) c s
    | none => s) s

/-- R166 step 5: PARITY GENERATION closes the intent, and the destaged blocks become clean. -/
def commitDestage (d : Destage) (s : State) : State :=
  let s1 := { s with destages := s.destages.filter (·.id != d.id) }
  match s.pool? d.pool with
  | none => s1
  | some p =>
    let s2 := setGen p.num d.newGeom d.stripe d.gen
      (programJ p.home (some p.num) (.parityGen d.stripe d.newGeom d.gen d.jsn) s1)
    let s3 := unstageBlocks d.jsn { s2 with mcmds := s2.mcmds.filter fun m => !overwritten p d m }
    repairFaults p d (retireCommits (d.snap.foldl (fun s x => settleBlock p d.newGeom x.1 s) s3))

/-- The member writes of a destage. -/
def writesOf (i : Nat) (m : MCmd) : Bool :=
  m.isWrite && match m.purpose with
    | .destage j _ _ => i == j
    | _ => false

/-- The member commands of a destage. -/
def destageOf (i : Nat) (m : MCmd) : Bool :=
  match m.purpose with
  | .destage j _ _ => i == j
  | _ => false

/-- R226, R397: a write to blocks that a destage is to write has timed out, or is left of an earlier start of it, and its attempts are
not over. -/
def lateWrite (p : Pool) (d : Destage) (s : State) : Bool :=
  s.mcmds.any fun m => m.isWrite && (decide (1 < m.tries) || m.purpose == .spent) && m.pool == some p.num &&
    (List.range d.count).any fun o => m.lba == (p.geomOf d.newGeom).memberLba d.stripe (d.first + o)

/-- R227, R236: a rewrite of blocks of the destage's stripe has been sent to a member: it holds the stripe's lock. -/
def repairing (s : State) (p : Pool) (d : Destage) : Bool :=
  s.mcmds.any fun m => m.pool == some p.num && !m.waits && match m.purpose with
    | .repair new st _ _ | .work new st => new == d.newGeom && st == d.stripe
    | _ => false

/-- R164, R165, R226: a sector that a destage needs has been read, or is not needed any more: where every surviving strip is read,
the bad ones count for nothing, and the slow ones once enough others are there. -/
def readDone (p : Pool) (d : Destage) (x : Nat × Nat) : Bool :=
  (d.read? x.1 x.2).isSome ||
    (d.recon && (d.bad.contains x || (d.slow.contains x &&
      decide ((p.geomOf d.newGeom).k ≤ (d.got.filter fun y => y.2.1 == x.2).length))))

/-- One destage brought forward as far as what has been read and written allows; before its first read its STRIPE INTENT is
mirrored (R166 step 1); what follows from a completion starts in a later tick (R48, R222), and nothing does that a stage holds
(R51) or that a rewrite in the stripe holds off (R227); with its home die gone it stands still (R353). -/
def pumpDestage (d0 : Destage) (s : State) : State :=
  match s.pool? d0.pool with
  | none => { s with destages := s.destages.filter (·.id != d0.id) }
  | some p =>
    if !s.serves p.home || heldWork s (.destage d0.id) || repairing s p d0 then s
    else if d0.reading && (!mirroredAt s p.home d0.jsn || d0.readEnd.any fun t => decide (s.clk.tick ≤ t)) then s
    else if d0.reading then
      let d := chooseMethod p d0
      let want := (needs p d).filter fun x => !d.asked.contains x && !d.bad.contains x
      let s1 := want.foldl (fun s x => readSector p d.newGeom d.stripe x.1 x.2 (.destage d.id x.1 x.2) s) s
      let d1 := { d with asked := d.asked ++ want }
      if (needs p d1).all (readDone p d1) then
        if lateWrite p d1 s1 then s1.updDestage d.id fun _ => d1
        else
          let s2 := issueWrites p d1 (s1.updDestage d.id fun _ => { d1 with reading := false })
          if s2.mcmds.any (writesOf d.id) || !journalRoom s2 p.home then s2 else commitDestage { d1 with reading := false } s2
      else s1.updDestage d.id fun _ => d1
    else if s.mcmds.any (writesOf d0.id) || !journalRoom s p.home then s
    else commitDestage d0 s

/-- Every destage in progress brought forward. -/
def pumpDestages (s : State) : State := s.destages.foldl (fun s d =>
  match s.destages.find? (·.id == d.id) with
  | some d => pumpDestage d s
  | none => s) s

end Sys2Proof.Machine
end

