-- ==== Sys2Proof/Machine/Strips.lean ====
section
/-! DEFINITION. The member transfers of background work: what the strips of a stripe read as, which blocks repair, rebuild,
copy-back, scrub and zero-fill write, and the writes that go out for them (R135, R210, R212, R227, R235 to R241, R252, R257,
R267). The rows of this work name what a device finds; what the members' blocks hold is the members', and comes from open
constants of Config (assumption 2). -/

namespace Sys2Proof.Machine

/-! ### What is written -/

/-- R235, R236: the members that the work of a tile touches: those that serve its positions and those that take them. -/
def tileNs (p : Pool) (new : Bool) (tile : Nat) : List Nat :=
  let g := p.geomOf new
  (((g.stripesOf tile).flatMap fun st => (List.range g.w).flatMap fun q => (p.readPos new st q).toList ++ p.writePos new st q).eraseDups).filterMap
    (p.nsAt new)

/-- R235: the dies that can carry the work of a tile: in service, with an up path to every member that it touches. -/
def carriers (s : State) (p : Pool) (new : Bool) (tile : Nat) : List Nat :=
  s.aliveDies.filter fun d => (tileNs p new tile).all fun n => (s.ns? n).any (·.reaches d)

/-- R235: the die that carries a tile's work. Which of those that can the spec leaves to the home die: a free value. -/
def carrier (s : State) (p : Pool) (new : Bool) (tile : Nat) : Nat :=
  let l := carriers s p new tile
  (l[Config.freeNat s.uniq % max 1 l.length]?).getD p.home

/-- R220, R223, R226, R236: one sector written, FUA set, to the member at an index, on a path of die d. -/
def putSector (d : Nat) (p : Pool) (new : Bool) (st o y : Nat) (x : Nat → Sector) (s : State) : State :=
  match p.nsAt new y with
  | some n => submit { id := 0, ns := n, pool := some p.num, member := y, path := pathTo s d n, isWrite := true,
                       lba := (p.geomOf new).memberLba st o, data := [x n], purpose := .work new st, at_ := 0 } s
  | none => s

/-- R212, R237, R267: a coded region sealed for its place and written to the members at some indices. -/
def putCoded (d : Nat) (p : Pool) (new : Bool) (st q o gen : Nat) (coded : Bytes) (ys : List Nat) (s : State) : State :=
  ys.foldl (fun s y => putSector d p new st o y (fun n => sectorFor s p new st q o gen n coded) s) s

/-- R204, R206, R231, R234, R238: where a tile's work writes the strip of member x in a row: for x's own work in the sweep its spare
holder, or x itself when it is a replacement; and the replacements in the sweep to which a strip in spare moves. Where work that was
done is done again, only the strips whose holder has changed are written. -/
def workTarget (p : Pool) (new : Bool) (row x : Nat) : List Nat :=
  let t := row / 64
  let own :=
    if !p.sweeps new x t then []
    else match p.stateAt new x with
      | some .replacing => [x]
      | _ => if p.rebuild.redo.contains (new, x, t) && (p.viaSlot new row x).all (p.ready new t) then [] else (p.keeps new row x).toList
  own ++ (p.moving new row x).filter fun y => p.sweeps new y t

/-- R236 step 4: the members to which a position of a stripe is written: that of the tile's work, in a rebuild, and its own where
its block was found bad. -/
def mendTargets (p : Pool) (work new : Bool) (st : Nat) (bad : List Nat) (q : Nat) : List Nat :=
  let row := (p.geomOf new).rowOf st
  (if work then ((p.permAt new row ((p.geomOf new).rowPos st q)).map (workTarget p new row)).getD [] else []) ++
    if bad.contains q then (p.readPos new st q).toList else []

/-- R239: the data positions that are lost at one offset of a stripe, when fewer than k positions can be had. -/
def lostAt (p : Pool) (new : Bool) (stripe : Nat) (bad : List Nat) : List Nat :=
  let g := p.geomOf new
  let have_ := stripHave p new stripe bad
  if have_.length < g.k then (List.range g.k).filter fun q => !have_.contains q else []

/-- R239: the members to which a lost data position, or a parity position that is computed anew, is written: those that take it, and
its holder. -/
def lossTargets (p : Pool) (new : Bool) (st q : Nat) : List Nat :=
  p.writePos new st q ++ (p.holder new ((p.geomOf new).rowOf st) ((p.geomOf new).rowPos st q)).toList

/-- R239: the data of a stripe at an offset as it stands once what cannot be had reads as zeros with zero HOSTPI. Its generation is
the stripe's own: DESIGN CHOICE, R239 names none (assumption 43). -/
def zeroedData (s : State) (p : Pool) (new : Bool) (st o : Nat) (bad : List Nat) : List Bytes :=
  let g := p.geomOf new
  (List.range g.k).map fun q =>
    if (stripHave p new st bad).contains q then (stripRead s p new st q o).coded else codedOf (zeros g.b) [] (p.gen new st).toNat

/-- R237: the WGEN of the parity that R239 computes: where not even one position survives, the stripe's own generation. -/
def lossGen (s : State) (p : Pool) (new : Bool) (st q : Nat) (good : List (Nat × Sector)) (x : Bytes) : Nat :=
  if good.isEmpty then (p.gen new st).toNat else repairGen (p.geomOf new).k q good x

/-- R236, R237, R239: what a stripe holds at an offset after its mending: for each position its coded region and WGEN; and whether
blocks were lost, so that parity is written too. -/
def mended (s : State) (p : Pool) (new : Bool) (st o : Nat) (bad : List Nat) : List (Nat × Nat × Bytes) × Bool :=
  let g := p.geomOf new
  let good := stripGood s p new st o bad
  match stripAll s p new st o bad with
  | some all => (all.zipIdx.map fun (x, q) => (q, ((good.find? (·.1 == q)).map (·.2.wgen)).getD (repairGen g.k q good x), x), false)
  | none =>
    let data := zeroedData s p new st o bad
    ((data ++ (List.range g.m).map fun i => parityRow g.k i data).zipIdx.map fun (x, q) => (q, lossGen s p new st q good x, x), true)

/-- R236 steps 2 to 4, R239: what mending writes at one offset of a stripe: positions, with their WGEN, coded region and the members
that take them: the tile's work to its holders, what was found bad to its own, what is lost, and then all parity, to the holders. -/
def mendWrites (p : Pool) (work new : Bool) (st o : Nat) (bad : List Nat) (s : State) : List (Nat × Nat × Bytes × List Nat) :=
  let (l, lossy) := mended s p new st o bad
  let lost := lostAt p new st bad
  l.map fun (q, gen, x) =>
    (q, gen, x, (mendTargets p work new st bad q ++
      if lossy && (decide ((p.geomOf new).k ≤ q) || lost.contains q) then lossTargets p new st q else []).eraseDups)

/-- R236, R239: one offset of a stripe is mended. -/
def mendOffset (d : Nat) (p : Pool) (work new : Bool) (st o : Nat) (bad : List Nat) (s : State) : State :=
  (mendWrites p work new st o bad s).foldl (fun s x => putCoded d p new st x.1 o x.2.1 x.2.2.1 x.2.2.2 s) s

/-- R227, R497: REPAIRS of the member that serves a position. -/
def countRepair (p : Pool) (new : Bool) (stripe q : Nat) (s : State) : State :=
  match (p.readPos new stripe q).bind (p.memberAt new) with
  | none => s
  | some m => s.updPool p.num fun p => { p with members := updIf (·.ns == m.ns) (fun x => { x with repairs := x.repairs + 1 }) p.members }

/-- R227 step 4: a block found bad is rewritten: 2120h, with the member's index and LBA as for a repair by itself. -/
def foundBad (p : Pool) (new : Bool) (st o q : Nat) (s : State) : State :=
  match p.readPos new st q with
  | none => s
  | some x => raise p.home 0x2120 { pool := p.num, item := x, arg0 := (p.geomOf new).memberLba st o } (countRepair p new st q s)

/-- R227, R236 step 4: the blocks that a stripe is found to have bad at an offset are rewritten; none is where they are lost (R239). -/
def foundAll (p : Pool) (new : Bool) (st o : Nat) (bad : List Nat) (s : State) : State :=
  if (lostAt p new st bad).isEmpty then bad.foldl (fun s q => foundBad p new st o q s) s else s

/-- The positions of a stripe that a tile's findings name at an offset. -/
def badAt (bad : List BadOff) (st o : Nat) : List Nat := ((bad.find? fun b => b.stripe == st && b.off == o).map (·.bad)).getD []

/-- R236: the stripes of a tile are mended one by one. -/
def mendTile (p : Pool) (new : Bool) (tile : Nat) (bad : List BadOff) (s : State) : State :=
  let g := p.geomOf new
  let d := carrier s p new tile
  (g.stripesOf tile).foldl (fun s st => (List.range g.sb).foldl (fun s o =>
    foundAll p new st o (badAt bad st o) (mendOffset d p true new st o (badAt bad st o) s)) s) s

/-- R206, R252: the positions of a stripe that a copy-back of member x writes: its own, and those that a spare keeps for it. -/
def copyPos (p : Pool) (new : Bool) (x st : Nat) : List Nat :=
  let g := p.geomOf new
  (List.range g.w).filter fun q => (p.permAt new (g.rowOf st) (g.rowPos st q)).any fun y => y == x || (p.moving new (g.rowOf st) y).contains x

/-- R210, R239, R252: one block of a strip is copied to a replacement; one whose seal fails, or that is missing, is reconstructed, and
where that is impossible the offset loses what R239 says. -/
def copyBlock (d : Nat) (p : Pool) (new : Bool) (x st q o : Nat) (s : State) : State :=
  let y := stripRead s p new st q o
  let good := ((p.readPos new st q).bind (p.nsAt new)).any fun n => sectorOk s p new st q o n y
  if good then putSector d p new st o x (fun _ => y) s
  else
    let lost := lostAt p new st [q]
    let s1 := if lost.isEmpty then s else mendOffset d p false new st o [q] s
    let s2 := match (mended s p new st o [q]).1.find? (·.1 == q) with
      | some e => putCoded d p new st q o e.2.1 e.2.2 [x] s1
      | none => s1
    loseMany p.num (lost.filterMap fun q => ownerAt s p new (st * ((p.geomOf new).k * (p.geomOf new).sb) + q * (p.geomOf new).sb + o)) s2

/-- R206, R237, R252: the strips that go to member x in a tile are copied, byte for byte, from their spare holders to the replacement. -/
def copyTile (p : Pool) (new : Bool) (x tile : Nat) (s : State) : State :=
  let g := p.geomOf new
  let d := carrier s p new tile
  (g.stripesOf tile).foldl (fun s st => (copyPos p new x st).foldl (fun s q =>
    (List.range g.sb).foldl (fun s o => copyBlock d p new x st q o s) s) s) s

/-! ### What a reshape reads (R210, R271, R275) -/

/-- R210, R215: what a position of a stripe holds at an offset: its own block where it can be read and its seal passes, else what the
others give. -/
def stripBest (s : State) (p : Pool) (new : Bool) (st q o : Nat) : Option Bytes :=
  let sound (x : Nat) : Bool := ((p.readPos new st x).bind (p.nsAt new)).any fun n => sectorOk s p new st x o n (stripRead s p new st x o)
  let bad := (p.present new st).filter fun x => !sound x
  if (stripHave p new st bad).contains q then some (stripRead s p new st q o).coded else (stripAll s p new st o bad).bind (·[q]?)

/-! ### What scrub writes (R257) -/

/-- R257: the blocks at an offset that scrub rewrites: those whose seals fail, or that one position is found wrong at. -/
def scrubMend (p : Pool) (st o : Nat) (bad : List Nat) (s : State) : State :=
  mendOffset (carrier s p false ((p.geomOf false).rowOf st / 64)) p false false st o bad s

/-- R257: how many blocks a mending at an offset rewrites. -/
def mendCount (p : Pool) (st o : Nat) (bad : List Nat) (s : State) : Nat :=
  ((mendWrites p false false st o bad s).filter fun x => !x.2.2.2.isEmpty).length

/-- R257: the positions from the first that scrub can write. -/
def writable (p : Pool) (st first : Nat) : List Nat :=
  (List.range (p.geomOf false).w).filter fun q => decide (first ≤ q) && !(p.writePos false st q).isEmpty

/-- R237, R257: the data positions stand, and every parity position is rewritten from them. -/
def scrubParity (p : Pool) (st o : Nat) (s : State) : State :=
  let g := p.geomOf false
  let good := stripGood s p false st o []
  let data := (List.range g.k).map fun q => (stripRead s p false st q o).coded
  let d := carrier s p false (g.rowOf st / 64)
  (writable p st g.k).foldl (fun s q =>
    let x := parityRow g.k (q - g.k) data
    putCoded d p false st q o (repairGen g.k q good x) x (p.writePos false st q) s) s

/-- R257, k = 1: every copy is rewritten from the value that most copies hold, that of position 0 on a tie; `bad` are the copies
that differ from it. -/
def scrubCopies (p : Pool) (st o : Nat) (bad : List Nat) (s : State) : State :=
  let g := p.geomOf false
  let d := carrier s p false (g.rowOf st / 64)
  match (stripHave p false st bad).head? with
  | none => s
  | some q0 =>
    let x := stripRead s p false st q0 o
    (writable p st 0).foldl (fun s q => putCoded d p false st q o x.wgen x.coded (p.writePos false st q) s) s

/-! ### What holds a tile -/

/-- R226: a write to blocks of a tile has timed out and its attempts are not over. -/
def lateInTile (s : State) (p : Pool) (new : Bool) (tile : Nat) : Bool :=
  let g := p.geomOf new
  s.mcmds.any fun m => m.isWrite && decide (1 < m.tries) && m.pool == some p.num &&
    (g.stripesOf tile).any fun st => decide (g.memberLba st 0 ≤ m.lba) && decide (m.lba < g.memberLba st 0 + g.sb)

/-- R236, R252: a write of background work to a tile has not completed. -/
def workOpen (s : State) (p : Pool) (new : Bool) (tile : Nat) : Bool :=
  s.mcmds.any fun m => m.pool == some p.num && match m.purpose with
    | .work n st => n == new && (p.geomOf new).rowOf st / 64 == tile
    | _ => false

/-- R226, R235, R236: its writes are out already, a destage holds a stripe of the tile, a late write to its blocks is open, or no die reaches every member
that its work touches. -/
def tileHeld (s : State) (p : Pool) (new : Bool) (tile : Nat) : Bool :=
  p.inJob new tile || (s.destages.any fun d => d.pool == p.num && d.newGeom == new && (p.geomOf new).rowOf d.stripe / 64 == tile) ||
    lateInTile s p new tile || (carriers s p new tile).isEmpty

end Sys2Proof.Machine
end

