-- ==== Sys2Proof/Machine/Io.lean ====
section
/-! DEFINITION. I/O commands: checks, the clamp table, reading and verifying, protecting units, flushing, aborting
(R114 to R155). -/

namespace Sys2Proof.Machine

/-! ### Checks (R115, R116, R123) -/

/-- R115, R492: the volume that a command names. -/
def volOf (s : State) (c : Cmd) : Option Vol := (s.vol? c.entry.vol.toNat).filter fun v => v.deleting.isNone

/-- R438: the binding permits the volume. -/
def permits (c : Cmd) (v : Vol) : Bool := c.tenant.isNone || v.tenant == c.tenant

/-- R122: PRACT. -/
def Cmd.pract (c : Cmd) : Bool := c.entry.pic.getLsbD 7

/-- R122: CHKGUARD. -/
def Cmd.chkG (c : Cmd) : Bool := c.entry.pic.getLsbD 6

/-- R122: CHKAPP. -/
def Cmd.chkA (c : Cmd) : Bool := c.entry.pic.getLsbD 5

/-- R122: CHKREF. -/
def Cmd.chkR (c : Cmd) : Bool := c.entry.pic.getLsbD 4

/-- First block of the command. -/
def Cmd.lba (c : Cmd) : Nat := c.entry.lba.toNat

/-- Blocks of the command. -/
def Cmd.nblk (c : Cmd) : Nat := c.entry.nblk.toNat

/-- R123: the protection-information fields are invalid for the volume. -/
def piControlBad (c : Cmd) (v : Vol) : Bool :=
  let tags := c.chkR || (c.pract && c.op == .write) || c.op == .writeZeroes
  if !usesApp c.op then false
  else if v.pif = 0 then c.entry.pic != 0
  else (c.pract && c.op == .write && (c.chkG || c.chkA || c.chkR)) || (v.pitype == 3 && c.chkR) ||
    decide (2 ^ refBits v.pif ≤ c.entry.reftag.toNat) ||
    (v.pitype == 1 && tags && c.entry.reftag.toNat != c.lba % 2 ^ refBits v.pif)

/-- R119: bytes per block in the host buffer. -/
def hostBlock (c : Cmd) (v : Vol) : Nat := v.b + if v.pif != 0 && !c.pract then piBytes v.pif else 0

/-- R116 check 8: the command needs the tenant key. -/
def needsKey (op : Op) (v : Vol) : Bool :=
  v.enc && match op with
    | .read | .write | .writeZeroes | .verify => true
    | .deallocate => v.dz
    | _ => false

/-- R116 check 9, R250, R378: the status of a pool that cannot serve. -/
def poolCheck (p : Option Pool) : Option W16 :=
  match p with
  | none => some 0x0601
  | some p => if p.offline.isSome then some 0x0601 else if p.away then some 0x0602 else none

/-- R116: checks 4 to 9 of a data command on its volume. -/
def ioCheck (s : State) (c : Cmd) (v : Vol) : Option W16 :=
  if piControlBad c v then some 0x0104
  else if (c.op == .read || c.op == .write) && decide (33554432 < c.nblk * v.b) then some 0x0105
  else if usesRange c.op && (decide (v.blocks < c.lba) || decide (v.blocks - c.lba < c.nblk)) then some 0x0102
  else if (c.op == .read || c.op == .write) && c.dataLen != c.nblk * hostBlock c v then some 0x0140
  else if needsKey c.op v && (keyOf s v).isNone then some 0x0303
  else poolCheck (s.pool? v.pool)

/-- R117: completes an I/O command with the status of a failed check. -/
def failIo (ref : CmdRef) (st : W16) (s : State) : State :=
  complete ref st { retry := st == 0x0601 || st == 0x0602 } s

/-! ### The clamp table (R141 to R145) -/

/-- R141: commands of write kind. -/
def writeKind : Op → Bool
  | .write | .writeZeroes | .deallocate => true
  | _ => false

/-- R142: an earlier admitted, unfinished command conflicts. -/
def conflicts (c d : Cmd) : Bool :=
  d.clamp && decide (d.seq < c.seq) && c.entry.vol == d.entry.vol && (writeKind c.op || writeKind d.op) &&
  decide (d.lba < c.lba + c.nblk) && decide (c.lba < d.lba + d.nblk)

/-- R271: blocks of a command on a volume map into a range of pool data blocks. -/
def inRange (v : Vol) (c : Cmd) (lo hi : Nat) : Bool :=
  v.extents.zipIdx.any fun e =>
    let a := max c.lba (e.2 * v.x)
    let z := min (c.lba + c.nblk) ((e.2 + 1) * v.x)
    decide (a < z) && decide (e.1 * v.x + (a - e.2 * v.x) < hi) && decide (lo < e.1 * v.x + (z - e.2 * v.x))

/-- R131, R440: the command runs as a consistency read. -/
def isCons (s : State) (c : Cmd) (v : Vol) : Bool :=
  c.entry.consread || (v.tenant.bind s.tenant?).any fun t => t.qos.crDefault

/-- R271, R272, R304: a mitre step's lock stalls a command at the clamp stage: a write-kind one, or a consistency read. -/
def stepStalls (s : State) (c : Cmd) : Bool :=
  (s.vol? c.entry.vol.toNat).any fun v => (writeKind c.op || ((c.op == .read || c.op == .verify) && isCons s c v)) &&
    (s.pool? v.pool).any fun p => p.lock.any fun k => inRange v c k.lo k.hi

/-- R353, R380: a pool's commands are held: its home die has yielded or fallen silent, from the first tick without its heartbeat on,
and no stand-in has it yet, or it is being handed back to the partner. -/
def poolHeld (s : State) (p : Pool) : Bool := !p.away && (!s.serves p.home || unheard s p.home || (p.taken && s.pair.handing.isSome))

/-- R353: a command for a pool whose commands are held, or a FLUSH over all volumes with such a pool in its scope. -/
def gapHolds (s : State) (c : Cmd) : Bool :=
  ((s.vol? c.entry.vol.toNat).any fun v => (s.pool? v.pool).any (poolHeld s)) || s.pools.any fun p => poolHeld s p && flushesAll s p.num c

/-- R363: a READ or VERIFY needs a block that only the partner's mirror region holds. -/
def needsAway (c : Cmd) (b : CBlk) : Bool :=
  (c.op == .read || c.op == .verify) && b.dirty && b.remote.isSome && b.vol == c.entry.vol.toNat && decide (c.lba ≤ b.lba) &&
    decide (b.lba < c.lba + c.nblk)

/-- R363: a command needs blocks that are still at the partner. -/
def unitsAway (s : State) (c : Cmd) : Bool := s.cache.any (needsAway c)

/-- R363: the blocks that stalled READs and VERIFYs need are asked for. -/
def askHeld (s : State) : State :=
  let held := s.cmds.filter fun c => c.stage == .stalled && c.clamp && unitsAway s c
  (s.cache.filter fun b => held.any fun c => needsAway c b).foldl askBlock s

/-- R142, R271, R353, R363: the command may start work on its blocks. -/
def mayStart (s : State) (c : Cmd) : Bool := !s.cmds.any (conflicts c) && !stepStalls s c && !gapHolds s c && !unitsAway s c

/-- R178: the journal of the home die is full, and the clamp stage admits no further write-kind command. -/
def shutOut (s : State) (c : Cmd) : Bool := writeKind c.op && (homeOf s c.entry.vol.toNat).any (journalFull s)

/-! ### Priority lending (R61, R155) -/

/-- R61: one more link of the lending chains: the earlier commands that those of a list wait for. -/
def chainStep (s : State) (l : List Cmd) : List Cmd := s.cmds.filter fun d => l.any fun c => conflicts c d

/-- R61: the commands that the chains of stalled urgent commands reach. -/
def chains (s : State) : Nat → List Cmd → List Cmd
  | 0, _ => []
  | n + 1, l => if l.isEmpty then [] else let m := chainStep s l; m ++ chains s n m

/-- R61: the chain of one command. -/
def chainOf (s : State) (c : Cmd) : List Cmd := chains s s.cmds.length [c]

/-- R61: a command of the urgent class that stalls at the clamp stage. -/
def stalledUrgent (c : Cmd) : Bool := c.cls == 0 && c.clamp && c.stage == .stalled

/-- R61, R155: class 0 lent to the commands that the chains reach, for as long as they do; a command that the clamp table
has let go keeps it. Of several urgent commands whose chains reach it the earliest is the one that caused the lending. -/
def lend (s : State) : State :=
  let urgent := (s.cmds.filter stalledUrgent).map fun u => (u, (chainOf s u).map (·.ref))
  let one (c : Cmd) : Cmd :=
    if !c.clamp then c
    else match urgent.find? fun u => u.2.contains c.ref && c.cls != 0 with
      | some u => { c with lent := true, lentBy := u.1.tenant }
      | none => { c with lent := false, lentBy := none }
  { s with cmds := s.cmds.map one }

/-! ### Reading (R128 to R132, R135, R136) -/

/-- R25, R444: a coded region as the host sees it: block data in the clear, and protection information. -/
def plain (s : State) (v : Vol) (lba : Nat) (data pi : Bytes) : Nat × Bytes × Bytes :=
  (lba, if v.enc then Config.decrypt ((keyOf s v).getD []) (BitVec.ofNat 64 lba) (BitVec.ofNat 16 v.num) data else data, pi)

/-- R135: a block that reads as zeros. -/
def zeroBlock (v : Vol) (lba : Nat) : Nat × Bytes × Bytes := (lba, zeros v.b, zeroPi v.pif (zeros v.b))

/-- R130, R302: of two errors the one that the command reports: that at the lower LBA; on the same LBA a failing stripe of a
consistency read. -/
def lowerErr (a : Option (Nat × W16)) (b : Nat × W16) : Option (Nat × W16) :=
  match a with
  | none => some b
  | some x => if x.1 < b.1 ∨ (x.1 = b.1 ∧ (x.2 = 0x0205 ∨ b.2 ≠ 0x0205)) then some x else some b

/-- R128, R131, R135, R136, R246, R298, R301: how one block of a READ or VERIFY is served: at once, with an error, or by a fetch. A
consistency read gives a dirty block once its stripe has been checked. What a mitre step has staged of a lost block, or of one that reads
as zeros, is not its content. -/
def planBlock (s : State) (p : Pool) (v : Vol) (cons : Bool) (c : Cmd) (lba : Nat) : Cmd :=
  let fetch (c : Cmd) : Cmd :=
    let pl := placeOf p v lba
    { c with fetches := c.fetches ++ [⟨lba - c.lba, lba, pl.stripe, pl.new, pl.q, pl.off, false, [], [], []⟩] }
  let hit (b : CBlk) : Cmd := { c with ready := c.ready ++ [plain s v lba b.data b.pi] }
  let staged := (s.cached? v.num lba).any fun b => b.pinned && b.jsn == 0
  if p.isLost v.num lba && (!s.dirtyAt v.num lba || staged) then { c with err := lowerErr c.err (lba, 0x0204) }
  else match s.cached? v.num lba with
    | some b =>
      if staged && v.isZero lba then (if cons then c else { c with ready := c.ready ++ [zeroBlock v lba] })
      else if b.dirty then (if cons && !v.isZero lba then c else hit b)
      else if b.pinned && !cons then hit b
      else if v.isZero lba then { c with ready := c.ready ++ [zeroBlock v lba] }
      else if cons then c
      else if c.entry.fua || c.op == .verify then fetch c
      else hit b
    | none =>
      if v.isZero lba then { c with ready := c.ready ++ [zeroBlock v lba] }
      else if cons then c else fetch c

/-- R131: the stripes that a range touches, with the first LBA of the range in each: (new, stripe, LBA). -/
def stripesOfRange (p : Pool) (v : Vol) (c : Cmd) : List (Bool × Nat × Nat) :=
  (List.range c.nblk).foldl (fun l i =>
    let pl := placeOf p v (c.lba + i)
    if v.isZero (c.lba + i) || l.any (fun x => x.1 == pl.new && x.2.1 == pl.stripe) then l
    else l ++ [(pl.new, pl.stripe, c.lba + i)]) []

/-- R131: the fetches of a consistency read: every position at every offset of every stripe. -/
def consFetches (p : Pool) (v : Vol) (c : Cmd) : List Fetch :=
  (stripesOfRange p v c).zipIdx.flatMap fun ((new, st, lba), i) =>
    (List.range (p.geomOf new).sb).map fun o => ⟨2 ^ 40 + i * 2 ^ 20 + o, lba, st, new, 0, o, true, [], [], []⟩

/-- R128, R131: plans every block of a READ or VERIFY. -/
def planReads (s : State) (p : Pool) (v : Vol) (c : Cmd) : Cmd :=
  let cons := isCons s c v
  let c1 := (List.range c.nblk).foldl (fun x i => planBlock s p v cons x (c.lba + i)) c
  if cons then { c1 with fetches := c1.fetches ++ consFetches p v c } else c1

/-- The positions of a stripe that have not failed for a fetch. -/
def fetchable (p : Pool) (f : Fetch) : List Nat := (p.present f.newGeom f.stripe).filter fun q => !f.bad.contains q

/-- R210, R226, R227: the positions that a fetch reads; none when the block cannot be had. -/
def fetchSet (p : Pool) (f : Fetch) : Option (List Nat) :=
  let live := fetchable p f
  if f.cons then some live
  else if live.contains f.pos && !f.slow.contains f.pos then some [f.pos]
  else
    let k := (p.geomOf f.newGeom).k
    let ch := (live.filter (· != f.pos)).take k
    if ch.length < k then (if live.contains f.pos then some [f.pos] else none)
    else some (if live.contains f.pos then ch ++ [f.pos] else ch)

/-- The sector a fetch holds for a position. -/
def Fetch.has (f : Fetch) (pos : Nat) : Option Sector := (f.good.find? fun x => x.1 == pos).map (·.2)

/-- A fetch that can be resolved: a consistency read holds every position; another fetch its own block, or enough others. -/
def fetchDone (p : Pool) (f : Fetch) : Bool :=
  match fetchSet p f with
  | none => true
  | some l =>
    if f.cons then l.all fun q => (f.has q).isSome
    else
      let others := l.filter (· != f.pos)
      (f.has f.pos).isSome || (!others.isEmpty && others.all fun q => (f.has q).isSome)

/-- R210: the coded regions of a whole stripe at an offset from what a fetch holds. -/
def fetchAll (p : Pool) (f : Fetch) : Option (List Bytes) :=
  reconstruct (p.geomOf f.newGeom).k (p.geomOf f.newGeom).m (f.good.map fun x => (x.1, x.2.coded))

/-- R131, R305: the stripe check of a consistency read fails at this offset. -/
def inconsistent (p : Pool) (f : Fetch) : Bool :=
  decide ((p.geomOf f.newGeom).k < f.good.length) &&
  match fetchAll p f with
  | some all => f.good.any fun x => all[x.1]? != some x.2.coded
  | none => false

/-- A served block of a fetch as ciphertext and protection information. -/
def splitCoded (v : Vol) (coded : Bytes) : Bytes × Bytes := (slice coded 0 v.b, slice coded v.b (piBytes v.pif))

/-- R128: a block brought from the members enters the read cache unless NOCACHE or VERIFY. A consistency read, of which
the table says only "From members", inserts its blocks as the flags beside CONSREAD say (DESIGN CHOICE, assumption 43). -/
def cacheRead (c : Cmd) (v : Vol) (lba : Nat) (data pi : Bytes) (s : State) : State :=
  if c.op = .read ∧ ¬ c.entry.nocache then
    match s.cached? v.num lba with
    | some b => if b.dirty then s else touch v.num lba s
    | none => insertClean { vol := v.num, lba := lba, data := data, pi := pi, dirty := false, mirrored := false, jsn := 0,
                            since := s.clk.tick, used := s.clk.tick } s
  else s

/-- One block that a fetch gives to its command. -/
def giveBlock (ref : CmdRef) (v : Vol) (lba : Nat) (coded : Bytes) (s : State) : State :=
  match s.cmd? ref with
  | none => s
  | some c =>
    let (data, pi) := splitCoded v coded
    if c.ready.any (·.1 == lba) then s
    else cacheRead c v lba data pi (s.updCmd ref fun c => { c with ready := c.ready ++ [plain s v lba data pi] })

/-- R131: a block that is dirty in the protected cache, given to a consistency read that has checked its stripe. -/
def giveDirty (ref : CmdRef) (v : Vol) (lba : Nat) (s : State) : State :=
  match s.cached? v.num lba with
  | some b => s.updCmd ref fun c => if c.ready.any (·.1 == lba) then c else { c with ready := c.ready ++ [plain s v lba b.data b.pi] }
  | none => s

/-- R130: an error that a fetch finds. -/
def giveErr (ref : CmdRef) (lba : Nat) (st : W16) (s : State) : State :=
  s.updCmd ref fun c => { c with err := lowerErr c.err (lba, st) }

/-- R132: a stripe of a consistency read has failed its check: one event names it. -/
def failStripe (p : Pool) (v : Vol) (c : Cmd) (f : Fetch) (s : State) : State :=
  if (s.cmd? c.ref).any fun c => c.failed.contains (f.newGeom, f.stripe) then s
  else giveErr c.ref f.lba 0x0205 (raise p.home 0x3124 { pool := p.num, vol := v.num, arg0 := f.stripe }
    (s.updCmd c.ref fun c => { c with failed := (f.newGeom, f.stripe) :: c.failed }))

/-- R131, R132, R245, R296, R304: a resolved fetch of a consistency read: blocks outside its range that cannot be had are lost too; blocks that the
other geometry holds are not this stripe's. -/
def resolveCons (p : Pool) (v : Vol) (c : Cmd) (f : Fetch) (s : State) : State :=
  let g := p.geomOf f.newGeom
  if inconsistent p f then failStripe p v c f s
  else
    let all := fetchAll p f
    let s := match all with
      | some a => queueRepairs p f.newGeom f.stripe f.off f.good f.bad a s
      | none => s
    (List.range g.k).foldl (fun s q =>
      let pb := f.stripe * (g.k * g.sb) + q * g.sb + f.off
      match if p.isNew pb == f.newGeom then v.lbaOf pb else none with
      | none => s
      | some l =>
        let mine := decide (c.lba ≤ l) && decide (l < c.lba + c.nblk)
        if v.isZero l ∨ (p.isLost v.num l ∧ ¬ s.dirtyAt v.num l) then s
        else if s.dirtyAt v.num l then (if mine then giveDirty c.ref v l s else s)
        else if !mine then (if (f.has q).isNone && all.isNone then loseBlocks p.num v.num l 1 s else s)
        else match (f.has q).map Sector.coded, all.bind (·[q]?) with
          | some x, _ => giveBlock c.ref v l x s
          | none, some x => giveBlock c.ref v l x (s.updCmd c.ref fun c => { c with recon := c.recon + 1 })
          | none, none => loseBlocks p.num v.num l 1 (giveErr c.ref l 0x0201 s)) s

/-- R128, R227: a resolved fetch of one block. -/
def resolveFetch (p : Pool) (v : Vol) (c : Cmd) (f : Fetch) (s : State) : State :=
  let s := s.updCmd c.ref fun c => { c with fetches := c.fetches.filter (·.key != f.key) }
  let s := { s with mcmds := s.mcmds.map (spend fun r k => r == c.ref && k == f.key) }
  if f.cons then resolveCons p v c f s
  else match f.has f.pos with
    | some x =>
      let s1 := giveBlock c.ref v f.lba x.coded s
      match if f.bad.isEmpty then none else fetchAll p f with
      | some all => queueRepairs p f.newGeom f.stripe f.off f.good f.bad all s1
      | none => s1
    | none =>
      match fetchAll p f with
      | some all =>
        let s := giveBlock c.ref v f.lba ((all[f.pos]?).getD []) (s.updCmd c.ref fun c => { c with recon := c.recon + 1 })
        queueRepairs p f.newGeom f.stripe f.off f.good f.bad all s
      | none => loseBlocks p.num v.num f.lba 1 (giveErr c.ref f.lba 0x0201 s)

/-- R131: a destage of the stripe of a fetch is in progress. -/
def destaging (s : State) (p : Pool) (f : Fetch) : Bool :=
  s.destages.any fun d => d.pool == p.num && d.newGeom == f.newGeom && d.stripe == f.stripe

/-- R131: a consistency read of a stripe that is being destaged waits for the commit: what it has read of the stripe counts
for nothing, and it reads the stripe again. -/
def holdCons (c : CmdRef) (f : Fetch) (s : State) : State :=
  let again (x : Fetch) : Fetch := if x.key = f.key then { x with good := [], bad := [] } else x
  { s.updCmd c fun c => { c with fetches := c.fetches.map again } with
    mcmds := s.mcmds.map (spend fun r k => r == c && k == f.key) }

/-- R222: reads that a fetch still wants are submitted; in the contest of the witness a pool of the partner is not reconstructed
(R375). -/
def wantFetch (p : Pool) (c : CmdRef) (f : Fetch) (s : State) : State :=
  if s.pair.contest.isSome && p.taken && !f.cons && fetchSet p f != some [f.pos] then s
  else ((fetchSet p f).getD []).foldl (fun s q =>
    if (f.has q).isSome || s.mcmds.any (fun m => m.purpose == .fetch c f.key q) then s
    else readSector p f.newGeom f.stripe q f.off (.fetch c f.key q) s) s

/-- Insertion of a served block by its LBA. -/
def insReady (x : Nat × Bytes × Bytes) : List (Nat × Bytes × Bytes) → List (Nat × Bytes × Bytes)
  | [] => [x]
  | y :: ys => if x.1 ≤ y.1 then x :: y :: ys else y :: insReady x ys

/-- R126, R130: the first protection error of the served blocks. -/
def firstPiErr (c : Cmd) (v : Vol) (l : List (Nat × Bytes × Bytes)) : Option (Nat × W16) :=
  l.findSome? fun (lba, data, pi) =>
    (piCheck v.pitype v.pif c.chkG c.chkA c.chkR c.entry.apptag.toNat c.entry.appmask.toNat
      (refTag v.pitype v.pif c.lba c.entry.reftag.toNat (lba - c.lba)) data pi).map fun st => (lba, st)

/-- R119, R127: the bytes that a block puts into the host buffer. -/
def hostBytes (c : Cmd) (v : Vol) (x : Nat × Bytes × Bytes) : Bytes := x.2.1 ++ if v.pif != 0 && !c.pract then x.2.2 else []

/-- R449: bytes read counted for the tenant of a bound ring. -/
def meterRead (c : Cmd) (n : Nat) (s : State) : State :=
  match c.tenant with
  | some t => s.updMeters t fun m => { m with bytesR := m.bytesR + n }
  | none => s

/-- R128, R130, R132, R136, R302: a READ or VERIFY that holds all its blocks ends. -/
def finishRead (v : Vol) (c : Cmd) (s : State) : State :=
  let blocks := c.ready.foldr insReady []
  let err := match firstPiErr c v blocks, c.err with
    | some x, e => lowerErr e x
    | none, e => e
  let stripe := !c.failed.isEmpty
  let n := match err with
    | none => c.nblk
    | some e => if stripe then 0 else e.1 - c.lba
  let isRead := c.op == .read
  let data := (blocks.filter fun x => decide (x.1 < c.lba + n)).flatMap (hostBytes c v)
  let s := if isRead && 0 < n then meterRead c (n * v.b) (s.emit (.buffer c.ref 0 data)) else s
  match err with
  | none => complete c.ref 0 { result := if isRead then 0 else BitVec.ofNat 64 c.recon, ndone := n } s
  | some (lba, st) => complete c.ref st { result := BitVec.ofNat 64 lba, ndone := n, part := isRead && decide (0 < n) } s

/-- R48: one READ or VERIFY brought forward as far as its fetches allow; what it reads in consequence of a completion it dispatches
in a later tick. -/
def pumpRead (ref : CmdRef) (s : State) : State :=
  match s.cmd? ref with
  | none => s
  | some c0 =>
    match s.vol? c0.entry.vol.toNat with
    | none => s
    | some v =>
      match s.pool? v.pool with
      | none => s
      | some p =>
        let s1 := c0.fetches.foldl (fun s f =>
          if f.cons && destaging s p f then holdCons ref f s
          else if fetchDone p f then resolveFetch p v c0 f s
          else if c0.memAt.all fun t => decide (t < s.clk.tick) then wantFetch p ref f s else s) s
        match s1.cmd? ref with
        | none => s1
        | some c => if c.stage = .working ∧ c.fetches.isEmpty then finishRead v c s1 else s1

/-! ### Starting work -/

/-- R134: the clean copies of a range are dropped. -/
def dropClean (v : Vol) (lba n : Nat) (s : State) : State :=
  s.dropBlocks fun b => b.vol == v.num && !b.dirty && decide (lba ≤ b.lba) && decide (b.lba < lba + n)

/-- R128: blocks of a range count as used. -/
def touchRange (v : Vol) (lba n : Nat) (s : State) : State :=
  let mark (b : CBlk) : CBlk := { b with used := s.clk.tick }
  { s with cache := updIf (fun b => b.vol == v.num && decide (lba ≤ b.lba) && decide (b.lba < lba + n)) mark s.cache }

/-- R142: a command that nothing holds back starts work on its blocks. -/
def startWork (ref : CmdRef) (s : State) : State :=
  match s.cmd? ref with
  | none => s
  | some c =>
    match s.vol? c.entry.vol.toNat with
    | none => s
    | some v =>
      match s.pool? v.pool with
      | none => s
      | some p =>
        if writeKind c.op then
          if c.op = .deallocate ∧ ¬ v.dz then complete ref 0 { ndone := c.nblk } (dropClean v c.lba c.nblk s)
          else s.updCmd ref fun c => { c with stage := .working }
        else
          pumpRead ref (touchRange v c.lba c.nblk (s.updCmd ref fun _ => { planReads s p v c with stage := .working }))

/-- R58: the destages in progress of the stripes that a write-kind command's blocks lie in. -/
def underWay (s : State) (c : Cmd) : List Nat :=
  match (s.vol? c.entry.vol.toNat).bind fun v => (s.pool? v.pool).map fun p => (v, p) with
  | none => []
  | some (v, p) =>
    let here := s.destages.filter fun d => d.pool == p.num
    if !writeKind c.op || here.isEmpty then []
    else (here.filter fun d => (List.range c.nblk).any fun i =>
      (placesOf p v (c.lba + i)).any fun pl => pl.new == d.newGeom && pl.stripe == d.stripe).map (·.id)

/-- R141, R142: a command that passed its checks is admitted to the clamp table. -/
def admitCmd (ref : CmdRef) (s : State) : State :=
  let enter (c : Cmd) : Cmd :=
    let l := underWay s c
    { c with seq := s.seq, clamp := true, stage := .stalled, adm := some s.clk.tick, earlier := l,
             base := if l.isEmpty then none else some s.clk.tick }
  let s := { s.updCmd ref enter with seq := s.seq + 1 }
  match s.cmd? ref with
  | some c => if mayStart s c then startWork ref s else lend s
  | none => s

/-- R33, R42: an earlier entry of the same ring for the same home die still waits for its fragment table: the later one does not reach
the clamp stage before it. -/
def ringBehind (s : State) (c : Cmd) : Bool :=
  (s.cmds.takeWhile fun d => d.ref != c.ref).any fun d =>
    d.ref.die == c.ref.die && d.ref.ring == c.ref.ring && d.stage == .table && usesVol d.op && homeOf s d.entry.vol.toNat == homeOf s c.entry.vol.toNat

/-- R33, R48: a forwarded command has reached its home die: it was sent over the fabric in an earlier tick. -/
def arrived (s : State) (c : Cmd) : Bool :=
  (homeOf s c.entry.vol.toNat).all fun h => h == c.ref.die || c.sent.any fun t => decide (t < s.clk.tick)

/-- R33, R41, R48: a command sent over the fabric to its home die, on the shortest path, once there is one; until it has arrived it
waits. -/
def sendOver (ref : CmdRef) (s : State) : State :=
  s.updCmd ref fun c =>
    let path := ((homeOf s c.entry.vol.toNat).map (fabricPath s ref.die)).getD []
    { c with stage := .stalled, route := path, sent := c.sent.orElse fun _ => if path.isEmpty then none else some s.clk.tick }

/-- R66: the home die of a bulk command sheds bulk admission. -/
def homeSheds (s : State) (c : Cmd) : Bool :=
  c.cls == 3 && ((homeOf s c.entry.vol.toNat).bind s.die?).any (·.frame.shed)

/-- R126: the first block of a WRITE whose protection check fails. The skip of R125 for a stored application tag of FFFFh covers
the tags that arrive with a WRITE too: DESIGN CHOICE, R126 orders the checks of a WRITE by R125 and R125 speaks of a stored tag
(assumption 43). -/
def writeCheck (c : Cmd) (v : Vol) : Option (Nat × W16) :=
  if v.pif = 0 ∨ c.pract then none
  else
    let n := hostBlock c v
    firstPiErr c v ((List.range c.nblk).map fun i => (c.lba + i, slice c.buf (i * n) v.b, slice c.buf (i * n + v.b) (piBytes v.pif)))

/-- R66, R178, R353: a command that is not admitted yet. -/
def holdIo (ref : CmdRef) (s : State) : State := s.updCmd ref fun c => { c with stage := .stalled }

/-- R116, R126: the start of READ, WRITE, WRITE ZEROES, DEALLOCATE and VERIFY. -/
def startIo (ref : CmdRef) (s : State) : State :=
  match s.cmd? ref with
  | none => s
  | some c =>
    match volOf s c with
    | none => fail ref 0x0301 s
    | some v =>
      if !permits c v then fail ref 0x0302 s
      else match ioCheck s c v with
        | some st => failIo ref st s
        | none =>
          match (if c.op = .write then writeCheck c v else none) with
          | some (lba, st) => complete ref st { result := BitVec.ofNat 64 lba } s
          | none =>
            if ringBehind s c then holdIo ref s
            else if !arrived s c then sendOver ref s
            else if shutOut s c || homeSheds s c || gapHolds s c then holdIo ref s
            else admitCmd ref s

/-! ### Protecting units (R146 to R150, R156 to R159) -/

/-- R146: blocks of an atomic unit. -/
def unitLen (v : Vol) : Nat := 1048576 / v.b

/-- R146: atomic units of a command. -/
def unitsOf (v : Vol) (c : Cmd) : Nat := ceilDiv c.nblk (unitLen v)

/-- R134, R276: the units of the volume that a DEALLOCATE covers entirely and marks. -/
def wholeUnits (p : Pool) (v : Vol) (c : Cmd) : List Nat :=
  if c.op != .deallocate || p.reshape.any (fun r => !r.plan.mitre) then []
  else (List.range v.extents.length).filter fun i => decide (c.lba ≤ i * v.x) && decide (i * v.x + v.x ≤ c.lba + c.nblk)

/-- R124, R129, R133, R134: the data and protection information that a write-kind command gives a block. -/
def newContent (v : Vol) (c : Cmd) (lba : Nat) : Bytes × Bytes :=
  let i := lba - c.lba
  let ref := refTag v.pitype v.pif c.lba c.entry.reftag.toNat i
  match c.op with
  | .write =>
    let data := slice c.buf (i * hostBlock c v) v.b
    (data, if v.pif = 0 then [] else if c.pract then mkPi v.pif c.entry.apptag.toNat ref data
      else slice c.buf (i * hostBlock c v + v.b) (piBytes v.pif))
  | .writeZeroes => (zeros v.b, mkPi v.pif c.entry.apptag.toNat ref (zeros v.b))
  | _ => (zeros v.b, zeroPi v.pif (zeros v.b))

/-- R156: a block of a unit as it enters the protected region. -/
def protectedBlock (s : State) (p : Pool) (v : Vol) (c : Cmd) (jsn lba : Nat) : CBlk :=
  let (data, pi) := newContent v c lba
  let enc := if v.enc then Config.encrypt ((keyOf s v).getD []) (BitVec.ofNat 64 lba) (BitVec.ofNat 16 v.num) data else data
  { vol := v.num, lba := lba, data := enc, pi := pi, dirty := true, mirrored := (mirrorPeer s p).isSome,
    onShadow := mirrorPeer s p == some true, jsn := jsn, since := s.clk.tick, used := s.clk.tick, writer := some c.ref,
    drop := c.entry.nocache }

/-- The blocks of unit j that are written, not marked with a whole tile; a block that RESIZE VOLUME has cut off since the
command's admission is nowhere kept (R493). -/
def unitBlocks (p : Pool) (v : Vol) (c : Cmd) (j : Nat) : List Nat :=
  let whole := wholeUnits p v c
  ((List.range (min (unitLen v) (c.nblk - j * unitLen v))).map (· + (c.lba + j * unitLen v))).filter fun l =>
    !whole.contains (l / v.x) && decide (l < v.blocks)

/-- R134, R147: the runs of blocks of unit j that lie in tiles which the command marks. -/
def clearedRuns (p : Pool) (v : Vol) (c : Cmd) (j : Nat) : List (Nat × Nat) :=
  let lo := c.lba + j * unitLen v
  let hi := min (c.lba + c.nblk) (lo + unitLen v)
  ((wholeUnits p v c).map fun i => (max lo (i * v.x), min hi (i * v.x + v.x) - max lo (i * v.x))).filter fun r => decide (0 < r.2)

/-- R134, R135, R147: unit j of a command is protected: its blocks in tiles to be marked read as zeros from now on and have
no cached copy left; its other blocks read as what was written. -/
def clearUnit (p : Pool) (v : Vol) (c : Cmd) (j : Nat) (s : State) : State :=
  let rs := clearedRuns p v c j
  let s1 := s.updVol v.num fun v => { v with cleared := rs ++ cutRuns (c.lba + j * unitLen v) (min (unitLen v) (c.nblk - j * unitLen v)) v.cleared }
  if rs.isEmpty then s1
  else s1.dropBlocks fun b => b.vol == v.num && rs.any fun r => decide (r.1 ≤ b.lba) && decide (b.lba < r.1 + r.2)

/-- R163: stripes that are wholly dirty among those of some blocks are queued. -/
def queueFull (p : Pool) (v : Vol) (bs : List Nat) (s : State) : State :=
  let st := (bs.flatMap (placesOf p v)).foldl (fun l x =>
    if l.any (fun y => y.1 == x.new && y.2 == x.stripe) then l else (x.new, x.stripe) :: l) []
  st.foldl (fun s (new, n) =>
    let g := p.geomOf new
    if (stripeDirty s p new n).length = g.k * g.sb then queueStripes p.num [n + if new then 2 ^ 47 else 0] s else s) s

/-- R241: a block of a broken stripe that rebuild has not processed. -/
def brokenHere (p : Pool) (v : Vol) (lba : Nat) : Bool :=
  let pl := placeOf p v lba
  let g := p.geomOf pl.new
  !v.isZero lba && decide (g.m < p.lack pl.new pl.stripe) &&
    (List.range g.n).any fun x => p.owes pl.new x (g.rowOf pl.stripe / 64)

/-- R134, R170: a tile marked deallocated: TILE STATE, its cached data discarded, deallocation sent to the members. -/
def markTile (p : Pool) (v : Vol) (i : Nat) (s : State) : State :=
  let s := programJ p.home (some p.num) (.tileState v.num i 1) s
  let s := (s.updVol v.num fun v => { v with zero := insNat i v.zero, cleared := cutRuns (i * v.x) v.x v.cleared }).dropBlocks fun b => b.vol == v.num && b.lba / v.x == i
  let sts := unitStripes p v i
  p.indexed.foldl (fun s x =>
    match stripsOn p sts x.1.ns with
    | [] => s
    | (a, n) :: rs => submit { id := 0, ns := x.1.ns, pool := some p.num, member := x.2, isWrite := true, lba := a, data := [],
                               path := pathTo s p.home x.1.ns,
                               purpose := .dealloc ((a, n) :: rs), at_ := 0 } s) s

/-- R449: bytes protected counted for the tenant of a bound ring, with the completion record. -/
def meterWrite (c : Cmd) (n : Nat) (s : State) : State :=
  match c.tenant, c.op with
  | some t, .write => s.updMeters t fun m => { m with bytesW := m.bytesW + n }
  | _, _ => s

/-- R129, R138: a write-kind command whose condition for completion is met. -/
def finishWrite (v : Vol) (c : Cmd) (s : State) : State :=
  let noted (v : Vol) : Vol := { v with written := (c.lba, c.nblk) :: cutRuns c.lba c.nblk v.written }
  complete c.ref 0 { ndone := c.nblk } ((ackBlocks c (meterWrite c (c.nblk * v.b) s)).updVol v.num noted)

/-- R134, R295: the tiles that a DEALLOCATE covers are marked; it waits for the last of their entries. -/
def markTiles (p : Pool) (v : Vol) (c : Cmd) (s : State) : State :=
  let l := wholeUnits p v c
  let s1 := l.foldl (fun s i => markTile p v i s) s
  if l.isEmpty then s1 else s1.updCmd c.ref fun c => { c with tileJsn := some (nextJsn s1 p.home - 1) }

/-- R295: the TILE STATE entries of a command are mirrored. -/
def marksMirrored (s : State) (p : Pool) (ref : CmdRef) : Bool :=
  (s.cmd? ref).all fun c => c.tileJsn.all fun j => mirroredAt s p.home j

/-- R129, R134, R143, R246, R250, R295, R375: the last unit of a command is protected; its TILE STATE entries have to be mirrored; where it would have to wait for a destage in an offline
pool it ends with 0601h. While the witness is contested no write is acknowledged. -/
def allProtected (p : Pool) (v : Vol) (c : Cmd) (s : State) : State :=
  let s := markTiles p v c s
  let s := reinstate p.num v.num c.lba c.nblk s
  if c.entry.fua || c.entry.nocache || writeThrough s p v || s.pair.contest.isSome || !marksMirrored s p c.ref then
    let w := if !(c.entry.fua || c.entry.nocache || writeThrough s p v) then [] else (List.range (unitsOf v c)).flatMap (unitBlocks p v c)
    let items := w.filterMap fun l => (s.cached? v.num l).bind fun b => if b.dirty then some (v.num, l, b.jsn) else none
    let s := queueBlocks (items.map fun x => (x.1, x.2.1)) (s.updCmd c.ref fun c =>
      { c with clamp := false, stage := .durable, wait := items })
    if items.isEmpty then (if s.pair.contest.isSome || !marksMirrored s p c.ref then s else finishWrite v c s)
    else if p.offline.isSome then complete c.ref 0x0601 { ndone := c.nblk, part := true } (meterWrite c (c.nblk * v.b) s)
    else s
  else finishWrite v c s

/-- R159: the data of a unit as it is mirrored: of each block of it the data, then the protection information; blocks of tiles to be
marked read as zeros. -/
def unitData (s : State) (p : Pool) (v : Vol) (c : Cmd) (j : Nat) : Bytes :=
  (List.range (min (unitLen v) (c.nblk - j * unitLen v))).flatMap fun i =>
    let b := protectedBlock s p v c 0 (c.lba + j * unitLen v + i)
    b.data ++ b.pi

/-- R170: the UNIT COMMIT of unit j of a command. -/
def commitOf (v : Vol) (c : Cmd) (j jsn : Nat) : JBody :=
  .unitCommit v.num j (c.lba + j * unitLen v) (min (unitLen v) (c.nblk - j * unitLen v)) (unitsOf v c) (Config.freeNat jsn)
    (c.ref.die * 512 + c.ref.ring) c.entry.tag c.aux

/-- R156, R169: the JSN of the next unit's UNIT COMMIT: the one it was mirrored with, else the die's next. -/
def unitJsn (s : State) (p : Pool) (c : Cmd) : Nat := (c.unitOut.map (·.1)).getD (nextJsn s p.home)

/-- R156, R159: the next unit of a command goes to the partner's die of the same index: its data in the non-final segments of one message,
its UNIT COMMIT as the FLAGGED final one. Its JSN is taken as it is sent (DESIGN CHOICE, assumption 43). -/
def mirrorUnit (p : Pool) (v : Vol) (c : Cmd) (s : State) : State :=
  let jsn := unitJsn s p c
  let s1 := if c.unitOut.isNone then takeJsn p.home s else s
  let (m, s2) := nextMsg p.home s1
  let entry : JEntry := ⟨jsn, p.home, some p.num, commitOf v c c.units jsn⟩
  let s3 := s2.updCmd c.ref fun c => { c with unitOut := some (jsn, some m, s.clk.tick) }
  postSystem p.home m (mirrorSegs s p.home m jsn (payloads (unitData s p v c c.units) ++ [entry.bytes])) s3

/-- R156 items 2 and 3: the partner, where it is the mirror peer, has acknowledged the next unit with its UNIT COMMIT. -/
def unitAcked (s : State) (p : Pool) (c : Cmd) : Bool :=
  mirrorPeer s p != some false || match c.unitOut with
    | some (_, some m, _) => !openSys s p.home m
    | _ => false

/-- R156, R159, R170: unit j of a command is protected: its blocks, mirrored, and its UNIT COMMIT. -/
def protectUnit (p : Pool) (v : Vol) (c : Cmd) (s : State) : State :=
  let j := c.units
  let jsn := unitJsn s p c
  let bs := unitBlocks p v c j
  let s := clearUnit p v c j (bs.foldl (fun s l => writeBlock (protectedBlock s p v c jsn l) s) s)
  let s := if c.unitOut.isSome then programAs p.home jsn (some p.num) (commitOf v c j jsn) s
    else programJ p.home (some p.num) (commitOf v c j jsn) s
  let s := s.updCmd c.ref fun c => { c with units := j + 1, aux := jsn, past := true, unitOut := none }
  let s := queueFull p v bs s
  let s := if (mirrorPeer s p).isNone then queueBlocks (bs.map fun l => (v.num, l)) s else s
  let s := if bs.isEmpty then retireCommits s else s
  if j + 1 = unitsOf v c then allProtected p v { c with units := j + 1, aux := jsn } s else s

/-- R30, R161: the next unit of a command fits beside the share kept for urgent writes, on the home die and, when its mirror peer
is the shadow die, in the mirror region of that die, which is as large as its protected region (R160). While
the dirty data of a die with DDR spared exceeds its region, what it writes through needs room in the DDR that is left less the mirror
copies of pools that the die shadows: DESIGN CHOICE, R30 does not say how much it may use (assumption 43). -/
def unitFits (s : State) (p : Pool) (v : Vol) (c : Cmd) : Bool :=
  let n := (unitBlocks p v c c.units).length * v.b
  decide (dirtyBytes s p.home + n ≤ if overRoom s p.home then ddrRoom s p.home - mirrorBytes s p.home else roomFor s p.home c.served) &&
    (mirrorPeer s p != some true || p.shadow.all fun h =>
      decide (mirrorBytes s h + n ≤ protBytes s h - if c.served = 0 then 0 else protBytes s h / 16))

/-- R161: an earlier admitted write of the die waits for room, and this one may not pass it. -/
def behind (s : State) (p : Pool) (c : Cmd) : Bool :=
  s.cmds.any fun d => decide (d.seq < c.seq) && d.clamp && d.stage == .working && writeKind d.op && (c.served != 0 || d.served == 0) &&
    (s.vol? d.entry.vol.toNat).any fun v => (s.pool? v.pool).any fun q => q.home == p.home && !unitFits s q v d

/-- R180: in ticks t to t + 2 of a power failure a unit that is on its way to the partner is still taken. -/
def inFlight (s : State) (c : Cmd) : Bool :=
  s.ready && !s.run.halted && (s.run.pfail.any fun t => decide (s.clk.tick ≤ t + 2)) && c.unitOut.isSome

/-- R156, R161, R169, R173, R180, R241, R353: the next unit of a command has its room, its turn and the mirrors it needs; a command with
units protected goes on while its pool is handed back. -/
def mayStage (s : State) (p : Pool) (v : Vol) (c : Cmd) : Bool :=
  (s.running || inFlight s c) && s.serves p.home && (c.past || !poolHeld s p) && c.stage == .working && writeKind c.op &&
  mirrorsAnswer s p.home && journalRoom s p.home && unitFits s p v c && !behind s p c && !stepStalls s c && !heldWork s (.command c.ref) &&
  !(unitBlocks p v c c.units).any (brokenHere p v)

/-- R156: the next unit of a command can be protected. -/
def mayProtect (s : State) (p : Pool) (v : Vol) (c : Cmd) : Bool := mayStage s p v c && unitAcked s p c

/-- R156, R159: at the end of a tick the next unit of each command that has its room goes to the partner. -/
def sendUnits (s : State) : State :=
  s.cmds.foldl (fun s x => match s.cmd? x.ref with
    | none => s
    | some c => match (s.vol? c.entry.vol.toNat).bind fun v => (s.pool? v.pool).map fun p => (v, p) with
      | none => s
      | some (v, p) =>
        if mirrorPeer s p == some false && mayStage s p v c && (c.unitOut.all fun u => u.2.1.isNone) then mirrorUnit p v c s else s) s

/-! ### FLUSH and ABORT (R138 to R140, R151 to R155) -/

/-- R115, R138, R438: the volumes in the scope of a FLUSH. -/
def flushScope (s : State) (c : Cmd) : List Vol :=
  s.vols.filter fun v => v.deleting.isNone && permits c v && (c.entry.vol == 0xFFFF || v.num == c.entry.vol.toNat)

/-- R138, R139: what a FLUSH or FLUSH MEDIA waits for among the dirty blocks of its scope: what has its completion record from a tick
before its dispatch. -/
def flushWaits (s : State) (c : Cmd) (vs : List Vol) : List (Nat × Nat × Nat) :=
  s.cache.filterMap fun b =>
    if !b.dirty || !(vs.any fun v => v.num == b.vol) then none
    else if c.op = .flush then
      if (b.acked.any fun t => decide (t < c.at_)) && !b.mirrored then some (b.vol, b.lba, b.jsn) else none
    else (((b.acks.filter fun m => decide (m.1 < c.at_)).map (·.2)).max?).map fun j => (b.vol, b.lba, j)

/-- R140: FLUSH and FLUSH MEDIA end; of one volume whose pool has gone offline with 0601h, RETRY-SAFE and RESULT 0 (DESIGN CHOICE,
assumption 43). -/
def finishFlush (c : Cmd) (s : State) : State :=
  match c.offline with
  | some v => complete c.ref 0x0601 { result := if c.entry.vol = 0xFFFF then BitVec.ofNat 64 v else 0, retry := true } s
  | none => complete c.ref 0 {} s

/-- R138 to R140: FLUSH and FLUSH MEDIA with their scope. With VOL FFFFh the volumes of pools that the partner holds are left out: DESIGN
CHOICE, R140 speaks of offline pools only (assumption 43). -/
def flushOver (c : Cmd) (s : State) : State :=
  let vs := flushScope s c
  let off := (vs.filter fun v => (s.pool? v.pool).any fun p => p.offline.isSome).map (·.num)
  let w := flushWaits s c (vs.filter fun v => !off.contains v.num)
  let c1 := { c with stage := .waiting, wait := w, offline := off.min? }
  let s1 := s.updCmd c.ref fun _ => c1
  if w.isEmpty then finishFlush c1 s1 else queueBlocks (w.map fun x => (x.1, x.2.1)) s1

/-- R116, R138 to R140: the start of FLUSH and FLUSH MEDIA. -/
def startFlush (ref : CmdRef) (s : State) : State :=
  match s.cmd? ref with
  | none => s
  | some c =>
    if c.entry.vol = 0xFFFF then (if gapHolds s c then holdIo ref s else flushOver c s)
    else match volOf s c with
      | none => fail ref 0x0301 s
      | some v =>
        if !permits c v then fail ref 0x0302 s
        else match poolCheck (s.pool? v.pool) with
          | some st => failIo ref st s
          | none => if !arrived s c then sendOver ref s else if gapHolds s c then holdIo ref s else flushOver c s

/-- R154: a destage that only an aborted FLUSH MEDIA waited for goes on as background work: each open one that holds a block the
target waits for, however it began, and whether or not a FLUSH waits for it: only durable writes and other FLUSH MEDIAs keep it
out of the background. DESIGN CHOICE, R154 does not say which (assumption 43). -/
def background (t : Cmd) (s : State) : State :=
  let on (c : Cmd) (d : Destage) : Bool := c.wait.any fun w => d.snap.any fun x => x.1.vol == w.1 && x.1.lba == w.2.1
  let back (d : Destage) : Destage :=
    { d with cls := (((s.cmds.filter fun c => (c.stage == .durable || c.op == .flushMedia) && on c d).map Cmd.served).min?).getD 3 }
  if t.op = .flushMedia then { s with destages := updIf (on t) back s.destages } else s

/-- R154: the unit of a target that is on its way to the partner is sent no more. What of it the partner has taken it keeps, and the JSN
taken for its UNIT COMMIT stays unused: DESIGN CHOICE, the spec gives no message that takes a unit back (assumption 43). -/
def dropUnit (t : Cmd) (s : State) : State :=
  match t.unitOut, homeOf s t.entry.vol.toNat with
  | some (_, some m, _), some h => s.updRfl h fun q =>
      { q with sys := q.sys.filter fun x => x.msgno != m, sysWait := q.sysWait.filter fun x => x.msgno != m }
  | _, _ => s

/-- R154: an aborted target completes with 0501h BY HOST. Stripes that an aborted FLUSH MEDIA had queued and whose destage has not
started stay queued, and start in class 1 when nobody waits for them: DESIGN CHOICE, R154 speaks of work already started
(assumption 43). -/
def abortTarget (t : Cmd) (s : State) : State := background t (complete t.ref 0x0501 { retry := true } (dropUnit t s))

/-- R151 to R155: ABORT. The earliest command of the ring with the tag is the target, ABORT itself not excepted: like
every control command it is past its point of no return from its dispatch on. -/
def startAbort (ref : CmdRef) (s : State) : State :=
  match s.cmd? ref with
  | none => s
  | some c =>
    let tr := bits (c.entry.param 44 2) 11 0
    match s.ring? (tr / 512) (tr % 512) with
    | none => fail ref 0x0103 s
    | some r =>
      if r.notif || r.fn != c.fn || r.die != ref.die then fail ref 0x0103 s
      else match s.cmds.find? fun t => t.ref.die == r.die && t.ref.ring == r.idx && t.entry.tag.toNat == c.entry.param 46 2 with
        | none =>
          match r.backs.find? fun b => b.cmd.entry.tag.toNat == c.entry.param 46 2 with
          | some b => ok ref (b.cmd.ref.index * 65536 + 1) s
          | none => ok ref 2 s
        | some t =>
          if t.past then ok ref (t.ref.index * 65536 + 1) s
          else ok ref (t.ref.index * 65536) (abortTarget t s)

end Sys2Proof.Machine
end

