-- ==== Sys2Proof/Machine/Control.lean ====
section
/-! DEFINITION. Rings, identity and features: CREATE RING to SET FEATURE (R80, R81, R160, R183, R377, R418, R475 to
R486). -/

namespace Sys2Proof.Machine

/-! ### Rings (R80, R81, R481, R482) -/

/-- R77, R80: the lowest free window of a virtual function, or the local index of a physical function's ring. -/
def freeWindow (s : State) (d f idx : Nat) : Option Nat :=
  if s.isPf d f then some (idx - pfBase f)
  else (List.range 32).find? fun w => w != 0 && !s.rings.any fun r => r.die == d && r.fn == f && r.window == w

/-- R80, R437, R481: the field checks of CREATE RING. -/
def ringFieldsOk (s : State) (c : Cmd) : Bool :=
  let e := c.entry
  let notif := bitAt (e.param 45 1) 0
  let cls := bits (e.param 45 1) 2 1
  let t := e.param 50 2
  decide (e.param 44 1 ≤ 12) &&
  (if notif then e.param 46 1 == 0 && e.param 47 1 == 0
   else decide (1 ≤ e.param 46 1) && decide (1 ≤ e.param 47 1) && decide (e.param 47 1 ≤ 64)) &&
  (notif || ((c.tenant.bind s.tenant?).all fun x => decide (x.qos.maxClass ≤ cls))) &&
  decide (e.param 48 2 < vectorsOf s c.ref.die c.fn) && e.param 52 8 % 4096 == 0 &&
  (match c.tenant with
    | some own => t == 0xFFFF || t == own
    | none => t == 0xFFFF || (s.tenant? t).isSome) &&
  !(notif && (s.notif? c.ref.die c.fn (e.param 48 2)).isSome)

/-- R80, R92: the ring that CREATE RING makes. A notification ring keeps whatever CLASS the command gives, and shows it: DESIGN CHOICE, R481
gives CLASS for work rings only (assumption 43). -/
def makeRing (c : Cmd) (i w : Nat) : Ring :=
  let e := c.entry
  let t := e.param 50 2
  { die := c.ref.die, idx := i, fn := c.fn, window := w, notif := bitAt (e.param 45 1) 0, setup := false,
    cls := bits (e.param 45 1) 2 1, weight := e.param 46 1, burst := e.param 47 1, size := 2 ^ (e.param 44 1 + 4),
    base := BitVec.ofNat 64 (e.param 52 8), vector := e.param 48 2,
    tenant := c.tenant.orElse fun _ => if t = 0xFFFF then none else some t, state := .enabled }

/-- CREATE RING (R80, R481). -/
def createRing (c : Cmd) (s : State) : State :=
  if !ringFieldsOk s c then fail c.ref 0x0103 s
  else
    match freeIndex s c.ref.die c.fn with
    | none => fail c.ref 0x0401 s
    | some i =>
      match freeWindow s c.ref.die c.fn i with
      | none => fail c.ref 0x0401 s
      | some w =>
        ok c.ref (c.ref.die * 512 + i + if s.isPf c.ref.die c.fn then 0 else w * 65536) { s with rings := s.rings ++ [makeRing c i w] }

/-- R81: the deletion of a ring ends: its index is free and the commands that asked for it complete. -/
def endDeletion (r : Ring) (s : State) : State :=
  let s1 := { s with rings := s.rings.filter fun x => !(x.die == r.die && x.idx == r.idx) }
  r.deleters.foldl (fun s c => ok c (((s.cmd? c).map (·.aux)).getD 0) s) s1

/-- DELETE RING (R81, R482). -/
def deleteRing (c : Cmd) (s : State) : State :=
  let n := c.entry.param 44 2
  match s.ring? (n / 512) (n % 512) with
  | none => fail c.ref 0x0103 s
  | some r =>
    if r.fn != c.fn || r.die != c.ref.die || r.setup || r.idx == c.ref.ring then fail c.ref 0x0103 s
    else
      let cnt := if r.state = .deleting ∨ r.notif then 0 else distance r.size r.head r.tail
      let s1 := (s.updCmd c.ref fun c => { c with stage := .waiting, aux := cnt }).updRing r.die r.idx fun x =>
        { x with state := .deleting, deleters := x.deleters ++ [c.ref] }
      if inflight s1 r = 0 then endDeletion { r with deleters := r.deleters ++ [c.ref] } s1 else s1

/-- SET RING WEIGHT (R100, R440, R482). -/
def setRingWeight (c : Cmd) (s : State) : State :=
  let e := c.entry
  let n := e.param 44 2
  let cls := bits (e.param 48 1) 1 0
  let setc := bitAt (e.param 48 1) 7
  match s.ring? (n / 512) (n % 512) with
  | none => fail c.ref 0x0103 s
  | some r =>
    if r.fn != c.fn || r.die != c.ref.die || r.setup || r.notif || e.param 46 1 == 0 || e.param 47 1 == 0 ||
        decide (64 < e.param 47 1) || (setc && (c.tenant.bind s.tenant?).any fun t => decide (cls < t.qos.maxClass)) then
      fail c.ref 0x0103 s
    else
      ok c.ref 0 (s.updRing r.die r.idx fun x =>
        { x with nextWeight := some (e.param 46 1, e.param 47 1), cls := if setc then cls else x.cls })

/-! ### Namespaces (R480) -/

/-- R480: the namespace that a descriptor names. -/
def findNs (s : State) (d : Bytes) : Option Ns :=
  let nid := fieldAt d 0 16
  if fieldAt d 16 1 = 2 then s.nss.find? fun n => n.info.nguid.toNat == nid && nid != 0
  else if fieldAt d 16 1 = 1 then s.nss.find? fun n => n.info.eui.toNat == nid && nid != 0
  else none

/-- R480: the descriptor the device reports for a namespace. -/
def descriptor (i : NsInfo) : Bytes := let (nid, t) := reportNs i; le 16 nid.toNat ++ [BitVec.ofNat 8 t] ++ zeros 15

/-- R480, R483: what a namespace is used as: 0 free, 1 member, 2 pending, 3 vault, 4 witness, with pool and index. -/
def roleOf (s : State) (n : Nat) : Nat × Nat × Nat :=
  match s.pools.findSome? fun p => (p.members.findIdx? fun m => m.ns == n).map fun i => (1, p.num, i) with
  | some x => x
  | none =>
    match s.pools.findSome? fun p => (p.pending.findIdx? fun m => m.ns == n).map fun i => (2, p.num, 0x8000 + i) with
    | some x => x
    | none =>
      if s.dies.any fun x => x.vaultNs.contains n then (3, 0xFFFF, 0xFFFF)
      else if s.pair.witness = some n then (4, 0xFFFF, 0xFFFF) else (0, 0xFFFF, 0xFFFF)

/-- R218: a label copy is valid: MAGIC, VERSION and CRC check. -/
def labelValid (b : Bytes) : Bool :=
  slice b 0 8 == padTo 8 (ascii "ELOAMOS") && fieldAt b 8 2 == 1 && fieldAt b 60 4 == crc32c (b.take 60 ++ b.drop 64)

/-- R218: of the valid copies the one with the higher LABELGEN governs. -/
def governing (l : List Bytes) : Option Bytes :=
  (l.filter labelValid).foldl (fun best b => match best with
    | some x => if fieldAt x 12 4 < fieldAt b 12 4 then some b else some x
    | none => some b) none

/-- R219: the namespace carries a valid label of a pool that the device holds. The label of a reshape in progress, whose geometry UID is not
the pool's (R266), is no label of the pool yet: DESIGN CHOICE, R219 does not speak of it (assumption 43). -/
def labelled (s : State) (n : Ns) : Bool :=
  (governing n.info.labels).any fun l => s.pools.any fun p => p.geom.uid == BitVec.ofNat 64 (fieldAt l 16 8)

/-! ### IDENTIFY (R483) -/

/-- Pads a text with spaces. -/
def padText (n : Nat) (t : String) : Bytes := let b := ascii t; (b ++ List.replicate (n - b.length) 0x20#8).take n

/-- R2: the name of a part. -/
def partName : Part → String
  | .zle4820 => "ZLE-4820"
  | .zle4840 => "ZLE-4840"
  | .zle4880 => "ZLE-4880"

/-- R483 CNS 00h. -/
def identity (s : State) (port : Nat) : Bytes :=
  layout 4096 [(0, padText 16 "ZELRYN"), (16, padText 16 (partName s.id.part)), (32, padTo 20 s.id.serial),
    (52, le 4 s.id.runVer.toNat), (56, le 4 ((s.fw.pendImg.map (·.version.toNat)).getD 0)), (60, le 1 s.id.part.dies),
    (61, le 1 port), (62, le 1 s.id.pkgid), (63, le 1 s.id.lead),
    (64, le 8 (((s.die? port).map fun x => ddrGib x * 2 ^ 30).getD 0)), (72, le 2 4096), (74, le 2 1024), (76, le 2 512),
    (78, le 2 16384), (80, le 4 33554432)]

/-- R491: FLAGS byte of a volume. -/
def volFlags (v : Vol) : Nat := bit v.enc + 2 * bit v.dz + 4 * bit v.wt

/-- R483 CNS 02h. -/
def volumeBytes (v : Vol) : Bytes :=
  layout 4096 [(0, le 2 v.num), (2, le 2 v.pool), (4, le 2 (v.tenant.getD 0xFFFF)), (6, le 1 (volFlags v)),
    (7, le 1 (v.pif + 16 * v.pitype)), (8, le 1 (bit v.big)), (16, le 8 v.blocks), (24, le 8 v.x), (32, le 8 v.extents.length)]

/-- R483: a list of 16-bit numbers from byte 4, its COUNT in bytes 0 to 3. -/
def numberList (l : List Nat) : Bytes := padTo 4096 (le 4 l.length ++ l.flatMap (le 2))

/-- R483: bits of a list of dies. -/
def dieBits (l : List Nat) : Nat := maskOf l

/-- R483 CNS 04h: one entry. -/
def nsEntry (s : State) (n : Ns) : Bytes :=
  let (role, pool, idx) := roleOf s n.id
  let has (x : Nat) : Bool := (n.info.cur == x && n.info.md == 64) || n.info.offers.contains x
  layout 64 [(0, descriptor n.info), (32, le 1 role),
    (33, le 1 (bit (has 512) + 2 * bit (has 4096) + 4 * bit (n.info.md == 64 && (n.info.cur == 512 || n.info.cur == 4096)))),
    (34, le 1 (dieBits (n.up.map pathOn).eraseDups)), (35, le 1 (bit (labelled s n))), (36, le 2 pool), (38, le 2 idx), (40, le 8 n.info.capacity)]

/-- IDENTIFY (R476, R483). -/
def identify (c : Cmd) (s : State) : State :=
  let cns := c.entry.param 44 1
  let start := c.entry.param 48 4
  if 4 < cns then fail c.ref 0x0103 s
  else if !s.isPf c.ref.die c.fn ∧ 2 < cns then fail c.ref 0x0101 s
  else if c.dataLen < 4096 then fail c.ref 0x0140 s
  else
    let vols := s.vols.filter fun v => v.deleting.isNone && permits c v
    match cns with
    | 0 => okBuffer c (identity s c.ref.die) 0 0 s
    | 1 =>
      let all := sortNat (vols.map (·.num))
      okBuffer c (numberList ((all.drop start).take 2046)) all.length 0 s
    | 2 =>
      match (s.vol? (c.entry.param 46 2)).filter fun v => v.deleting.isNone with
      | none => fail c.ref 0x0301 s
      | some v => if permits c v then okBuffer c (volumeBytes v) 0 0 s else fail c.ref 0x0302 s
    | 3 => okBuffer c (numberList (sortNat (s.pools.map (·.num)))) 0 0 s
    | _ =>
      let part := (s.nss.drop start).take 63
      okBuffer c (padTo 4096 (le 4 part.length ++ zeros 60 ++ part.flatMap (nsEntry s))) s.nss.length 0 s

/-! ### GET FEATURE and SET FEATURE (R484 to R486) -/

/-- The value of a byte of VALUE. -/
def valueByte (c : Cmd) (i : Nat) : Nat := c.entry.param (48 + i) 1

/-- R485: a feature's current VALUE; none for a bad FID or selector. -/
def featureValue (s : State) (fid sel : Nat) : Option Bytes :=
  match fid with
  | 1 => (s.feat.now.resv[sel]?).map (le 1)
  | 2 => if sel = 0 then some (s.feat.now.weights.flatMap (le 1)) else none
  | 3 => if sel = 0 then some (le 1 s.feat.now.share ++ le 1 s.feat.now.floor) else none
  | 4 => (s.die? sel).map fun x => le 2 x.protGib
  | 5 => (s.die? sel).map fun x => le 1 (bit x.vault) ++ le 1 x.vaultNs.length ++ le 2 0 ++ le 4 x.holdUp
  | 6 => if sel = 0 then some (le 8 s.feat.healthAddr.toNat) else none
  | 7 => if sel = 0 then some [] else none
  | 8 => some (le 1 (limitOf s sel))
  | 9 => (s.vol? sel).map fun v => le 1 (bit v.wt)
  | 10 => (s.pool? sel).map fun p => le 2 p.age
  | 11 => if sel = 0 then some (le 1 (bit s.log.secret.isSome)) else none
  | _ => none

/-- R485: the output buffer of GET FEATURE. -/
def featureBuffer (s : State) (fid sel : Nat) : Option Bytes :=
  let desc (n : Nat) : Bytes := ((s.ns? n).map fun x => descriptor x.info).getD (zeros 32)
  match fid with
  | 5 => (s.die? sel).map fun x => padTo 128 (x.vaultNs.flatMap desc)
  | 7 => some ((s.pair.witness.map desc).getD (zeros 32))
  | _ => none

/-- GET FEATURE (R484, R485). -/
def getFeature (c : Cmd) (s : State) : State :=
  let fid := c.entry.param 44 1
  let sel := c.entry.param 46 2
  match featureValue s fid sel with
  | none => fail c.ref 0x0103 s
  | some v =>
    if fid = 9 ∧ (s.vol? sel).any (fun x => !permits c x) then fail c.ref 0x0302 s
    else match featureBuffer s fid sel with
      | none => complete c.ref 0 { extra := padTo 16 v } s
      | some b =>
        if c.dataLen < b.length then fail c.ref 0x0140 s
        else complete c.ref 0 { extra := padTo 16 v } (s.emit (.buffer c.ref 0 b))

/-- R484: changes the admission settings from the next tick boundary. -/
def setFeats (f : Feats → Feats) (s : State) : State :=
  { s with feat := { s.feat with next := some (f (s.feat.next.getD s.feat.now)) } }

/-- R418: the limits set in this window, which wait for the next. -/
def limitsDue (s : State) : List (Nat × Nat) := if windowAt s.clk.optime ≤ s.feat.limitsAt then s.feat.limitsNext else []

/-- R418: the limit of a code from the next window on. -/
def setLimit (code l : Nat) (s : State) : State :=
  { s with feat := { s.feat with
      limits := limitsNow s
      limitsNext := (code, l) :: (limitsDue s).filter fun p => p.1 != code
      limitsAt := max (windowAt s.clk.optime) s.feat.limitsAt } }

/-- R484: a value takes effect at the next tick boundary. -/
def setLater (f : Later) (s : State) : State := { s with feat := { s.feat with later := s.feat.later ++ [f] } }

/-- R484: a value that a newer one has overtaken does not take effect. -/
def dropLater (p : Later → Bool) (s : State) : State := { s with feat := { s.feat with later := s.feat.later.filter fun f => !p f } }

/-- R485: a waiting change of some dies to hold mode. -/
def holdsOf (ds : List Nat) : Later → Bool
  | .hold d _ => ds.contains d
  | _ => false

/-- R484: a selector of dies: one die, or all of them. -/
def selDies (s : State) (sel : Nat) : List Nat := if sel = 0xFFFF then s.dieIdx else [sel].filter fun d => (s.die? d).isSome

/-- R160: the dirty data of a die fits a protected region of a size in GiB. -/
def fits (s : State) (d gib : Nat) : Bool := decide (dirtyBytes s d ≤ gib * 2 ^ 30)

/-- R160: takes the waiting sizes that fit. -/
def applyProt (s : State) : State :=
  s.feat.protNext.foldl (fun s (d, g) =>
    if fits s d g then
      let s1 := s.updDie d fun x => { x with protGib := g, protSet := true }
      { s1 with feat := { s1.feat with protNext := s1.feat.protNext.filter fun e => e.1 != d } }
    else s) s

/-- R485: the command waits for a feature to take effect. -/
def waitFeature (c : Cmd) (fid sel : Nat) (s : State) : State :=
  let s1 := s.updCmd c.ref fun c => { c with stage := .waiting }
  { s1 with feat := { s1.feat with waiters := s1.feat.waiters ++ [(c.ref, fid, sel)] } }

/-- R485 feature 04h (R160). -/
def setProtected (c : Cmd) (sel : Nat) (s : State) : State :=
  let gib := c.entry.param 48 2
  let ds := selDies s sel
  if ds.isEmpty || gib == 0 || ds.any (fun d => (s.die? d).all fun x => decide (3 * ddrGib x / 8 < gib)) then fail c.ref 0x0103 s
  else
    let asked := ds.map fun d => (d, gib)
    let s1 := { s with feat := { s.feat with protNext := s.feat.protNext.filter (fun e => !ds.contains e.1) ++ asked } }
    let s2 := applyProt (ds.foldl (fun s d => queueOldest d (dirtyBytes s d - gib * 2 ^ 30) s) s1)
    if s2.feat.protNext.any fun e => ds.contains e.1 then waitFeature c 4 sel s2 else ok c.ref 0 s2

/-- R183, R377, R485: the status of a namespace named as vault or witness by die d and the shadow dies of its pools. -/
def nsUse (s : State) (ds : List Nat) (role : Nat) (n : Option Ns) : Option W16 :=
  match n with
  | none => some 0x0157
  | some n =>
    let (r, _, _) := roleOf s n.id
    if r ≠ 0 ∧ r ≠ role then some 0x0155
    else if ds.all n.reaches then none else some 0x0157

/-- R183: dies that must reach a vault namespace of die d. -/
def vaultReach (s : State) (d : Nat) : List Nat := d :: (s.pools.filter fun p => p.home == d).filterMap (·.shadow)

/-- Bytes of a namespace. -/
def nsBytes (n : Ns) : Nat := n.info.capacity * n.info.cur

/-- The first status that a check gives. -/
def firstStatus (l : List (Option W16)) : Option W16 := l.findSome? id

/-- R485 feature 05h (R183, R184). -/
def setVault (c : Cmd) (sel : Nat) (s : State) : State :=
  let mode := valueByte c 0
  let cnt := valueByte c 1
  let h := c.entry.param 52 4
  let ds := selDies s sel
  let descs := ((List.range 4).map fun i => slice c.buf (32 * i) 32).filter fun d => fieldAt d 16 1 != 0
  if ds.isEmpty || decide (1 < mode) || decide (4 < cnt) || (mode == 1 && (cnt == 0 || decide (h ≤ 64))) then fail c.ref 0x0103 s
  else if c.dataLen ≠ 128 then fail c.ref 0x0140 s
  else if descs.length ≠ cnt || descs.any (fun d => decide (2 < fieldAt d 16 1)) then fail c.ref 0x0103 s
  else
    let found := descs.map (findNs s)
    let bad := firstStatus (ds.flatMap fun d => found.map fun n =>
      (nsUse s (vaultReach s d) 3 n).orElse fun _ =>
        if n.all fun n => nsBytes n < ((s.die? d).map fun x => x.protGib * 2 ^ 30 + 2 ^ 25).getD 0 then some 0x0401 else none)
    match (if mode = 1 then bad else none) with
    | some st => fail c.ref st s
    | none =>
      let ids := (found.filterMap id).map (·.id)
      if mode = 1 then waitFeature c 5 sel (ds.foldl (fun s d => s.updDie d fun x =>
        { x with vault := true, vaultNs := ids, holdUp := h, rateV := 0, rateVr := 0 }) (dropLater (holdsOf ds) s))
      else ok c.ref 0 (ds.foldl (fun s d => setLater (.hold d h) s) s)

/-- R368, R377, R485 feature 07h: the witness, reached from at least two dies. -/
def setWitness (c : Cmd) (s : State) : State :=
  if c.dataLen ≠ 32 then fail c.ref 0x0140 s
  else if fieldAt c.buf 16 1 = 0 then ok c.ref 0 (setLater .noWitness s)
  else if 2 < fieldAt c.buf 16 1 then fail c.ref 0x0103 s
  else
    let n := findNs s c.buf
    match nsUse s [] 4 n, n with
    | some st, _ => fail c.ref st s
    | none, some n =>
      if (s.dieIdx.filter n.reaches).length < 2 then fail c.ref 0x0157 s
      else waitFeature c 7 0 (dropLater (· == .noWitness) { s with pair := { s.pair with witness := some n.id, witnessSlow := false } })
    | none, none => fail c.ref 0x0157 s

/-- R485 feature 0Bh (R486). -/
def setSecret (c : Cmd) (s : State) : State :=
  let new := slice c.buf 0 32
  let mac := slice c.buf 32 32
  if c.dataLen ≠ 64 then fail c.ref 0x0140 s
  else
    let good := match s.log.secret with
      | none => mac == zeros 32 && s.isPf c.ref.die c.fn && c.tenant.isNone
      | some old => mac == Config.hmac old new
    if good then ok c.ref 0 (setLater (.secret new) s) else fail c.ref 0x0304 s

/-- R485: the features whose value is in the entry alone: the new state, or a status. -/
def setSimple (c : Cmd) (fid sel : Nat) (s : State) : Except W16 State :=
  let b := valueByte c
  match fid with
  | 1 =>
    if (13 ≤ sel ∧ sel ≠ 0xFFFF) ∨ 25 < b 0 then .error 0x0103
    else .ok (setFeats (fun f => { f with resv := if sel = 0xFFFF then f.resv.map fun _ => b 0 else f.resv.set sel (b 0) }) s)
  | 2 =>
    if sel ≠ 0 ∨ b 0 = 0 ∨ b 1 = 0 ∨ b 2 = 0 then .error 0x0103 else .ok (setFeats (fun f => { f with weights := [b 0, b 1, b 2] }) s)
  | 3 =>
    if sel ≠ 0 ∨ 100 < b 0 ∨ b 1 = 0 ∨ 25 < b 1 then .error 0x0103
    else .ok (setFeats (fun f => { f with share := b 0, floor := b 1 }) s)
  | 6 =>
    if sel ≠ 0 ∨ c.entry.param 48 8 % 4096 ≠ 0 then .error 0x0103
    else .ok (setLater (.health (BitVec.ofNat 64 (c.entry.param 48 8))) s)
  | 8 =>
    if unlimited sel then .error 0x0103
    else .ok (setLimit sel (b 0) s)
  | 9 =>
    match s.vol? sel with
    | none => .error 0x0103
    | some v =>
      if !permits c v then .error 0x0302 else if 1 < b 0 then .error 0x0103
      else .ok (setLater (.policy sel (b 0 == 1)) s)
  | 10 =>
    match s.pool? sel with
    | none => .error 0x0103
    | some _ => if c.entry.param 48 2 = 0 then .error 0x0103 else .ok (setLater (.age sel (c.entry.param 48 2)) s)
  | _ => .error 0x0103

/-- SET FEATURE (R484 to R486); features 09h and 0Ah are configuration (R478), in force from the next tick
boundary on though only the completion waits for the partner: DESIGN CHOICE (assumption 43). -/
def setFeature (c : Cmd) (s : State) : State :=
  let fid := c.entry.param 44 1
  let sel := c.entry.param 46 2
  match fid with
  | 4 => setProtected c sel s
  | 5 => setVault c sel s
  | 7 => if sel = 0 then setWitness c s else fail c.ref 0x0103 s
  | 11 => if sel = 0 then setSecret c s else fail c.ref 0x0103 s
  | _ =>
    match setSimple c fid sel s with
    | .ok s => if fid = 9 ∨ fid = 10 then changed c.ref 0 s else ok c.ref 0 s
    | .error st => fail c.ref st s

end Sys2Proof.Machine
end

