-- ==== Sys2Proof/Machine/Pools.lean ====
section
/-! DEFINITION. Pools and members: labels, CREATE POOL, DESTROY POOL, the member opcodes, the status opcodes, REBUILD
CONTROL and SCRUB CONTROL (R6 to R8, R192, R195, R217 to R219, R243, R247, R251, R255, R261, R488 to R498). -/

namespace Sys2Proof.Machine

/-! ### Labels and plan blocks (R218, R247, R266) -/

/-- A 4,096-byte block with a CRC-32C in bytes 60 to 63 over the others. -/
def withCrc (b : Bytes) : Bytes := overlay b 60 (le 4 (crc32c (b.take 60 ++ b.drop 64)))

/-- R218, R496: n, k, m, s, strip size and block size as the label's bytes 32 to 39 give them. -/
def geomBytes (g : Geom) : Bytes := le 2 g.n ++ [BitVec.ofNat 8 g.k, BitVec.ofNat 8 g.m, BitVec.ofNat 8 g.s,
  BitVec.ofNat 8 g.strip, BitVec.ofNat 8 (bit g.big), 0]

/-- R218: a member label. -/
def labelBytes (g : Geom) (gen x : Nat) : Bytes :=
  withCrc (layout 4096 [(0, ascii "ELOAMOS"), (8, le 2 1), (10, le 2 x), (12, le 4 gen), (16, le 8 g.uid.toNat),
    (24, le 8 g.seed.toNat), (32, geomBytes g), (40, le 8 g.nrows), (48, le 8 g.z)])

/-- R218, R219: a label that the device has written is what the namespace carries from now on. -/
def noteLabel (s : State) (x : Nat × Bytes) : State :=
  s.updNs x.1 fun n => { n with info := { n.info with labels := [x.2, x.2] } }

/-- R194: the header of a new member beside its two labels is written as zeros. -/
def blankHeader (n : Nat) (s : State) : State :=
  (s.emit (.header n 4096 (zeros 520192))).emit (.header n 528384 (zeros 520192))

/-- R218: writes one block at both places of a header, copy 0 of every namespace first. -/
def writeHeaders (off : Nat) (l : List (Nat × Bytes)) (s : State) : State :=
  let s1 := (l.map fun x => Out.header x.1 off x.2).foldl State.emit s
  let s2 := (l.map fun x => Out.header x.1 (off + 524288) x.2).foldl State.emit s1
  if off = 0 then l.foldl noteLabel s2 else s2

/-- R269: the new index of a namespace, FFFFh when the plan removes it. -/
def Reshape.indexOf (r : Reshape) (ns : Nat) : Nat := (r.newNs.findIdx? (· == ns)).getD 0xFFFF

/-- R266: a plan block. -/
def planBlock' (r : Reshape) (idx : Nat) : Bytes :=
  let g := r.geom
  withCrc (layout 4096 [(0, ascii "ELOAPLAN"), (8, le 2 1), (10, le 2 idx), (12, le 4 r.plan.num), (16, le 8 r.uid.toNat),
    (24, le 8 g.seed.toNat), (32, le 2 g.n), (34, le 1 g.k), (35, le 1 g.m), (36, le 1 g.s), (37, le 1 g.strip),
    (38, le 1 (if r.plan.mitre then 1 else 2)), (39, le 1 (bit r.plan.down)), (40, le 8 g.nrows)])

/-- R218, R266: the labels of every member that is in use, at a generation, and during a reshape those of the pending members,
which carry the new geometry. -/
def labelsOf (p : Pool) : List (Nat × Bytes) :=
  ((p.members.zipIdx.filter fun x => x.1.state != .failed).map fun x => (x.1.ns, labelBytes p.geom p.labelGen x.2)) ++
    match p.reshape with
    | some r => (p.pending.filter fun m => m.state != .failed).map fun m => (m.ns, labelBytes r.geom p.labelGen (r.indexOf m.ns))
    | none => []

/-- R218: membership changed: LABELGEN goes up and every member's labels are written. -/
def relabel (num : Nat) (s : State) : State :=
  let s1 := s.updPool num fun p => { p with labelGen := p.labelGen + 1 }
  match s1.pool? num with
  | some p => writeHeaders 0 (labelsOf p) s1
  | none => s1

/-! ### Reservations (R224) -/

/-- R367: the reservation key of a die. -/
def reserveKey (s : State) (d : Nat) : W64 := BitVec.ofNat 64 (leNat ((Config.sha256 s.id.serial).take 6) * 65536 + d)

/-- R224: registers a key on every path of a namespace and acquires the reservation. -/
def reserveNs (n : Nat) (s : State) : State :=
  match s.ns? n with
  | none => s
  | some x =>
    let s1 := x.up.foldl (fun s d => ((s.emit (.reserve n d 0 (reserveKey s (pathOn d)))).emit (.reserve n d 1 (reserveKey s (pathOn d)))).emit
      (.admin n d .reservationReport)) s
    s1.updNs n fun x => { x with reserved := true }

/-- R224: releases the reservation of a namespace. -/
def releaseNs (n : Nat) (s : State) : State :=
  match s.ns? n with
  | none => s
  | some x => (x.up.foldl (fun s d => s.emit (.reserve n d 2 (reserveKey s (pathOn d)))) s).updNs n fun x => { x with reserved := false }

/-! ### Checks of namespaces (R195, R217, R219, R488) -/

/-- R217: whether a namespace must be formatted to the data size b, or the status that refuses it. -/
def formatCheck (b : Nat) (fmt : Bool) (i : NsInfo) : Except W16 Bool :=
  let other := 4608 - b
  if i.cur = b ∧ i.md = 64 ∧ (b = 512 ∨ b = 4096) then .ok false
  else if i.offers.contains b && (b == 512 || b == 4096) then (if fmt then .ok true else .error 0x0151)
  else if (i.cur = 4096 ∨ i.cur = 512) ∧ i.md = 64 ∨ i.offers.contains other ∨ i.offers.contains 512 ∨ i.offers.contains 4096 then
    .error 0x0153
  else .error 0x0150

/-- R195: the capacity of a namespace in blocks of b data bytes. For a namespace that is in another format the spec does not
say what its capacity will be; the model takes the bytes it holds now (DESIGN CHOICE, assumption 43). -/
def nsBlocks (b : Nat) (n : Ns) : Nat := nsBytes n / b

/-- Pools that the package holds. -/
def held (s : State) : List Pool := s.pools.filter fun p => !p.away

/-- R8, R217: commands that have passed the count limits and wait for a Format NVM. -/
def joining (s : State) (op : Op) : List Cmd := s.cmds.filter fun c => c.op == op && c.stage == .waiting && !c.mwait.isEmpty

/-- R8: member namespaces that a die reaches, those that wait for their format included. -/
def reaches (s : State) (d : Nat) : Nat :=
  let on (p : Pool) : Bool := p.home == d || p.shadow == some d
  (((held s).filter on).map fun p => p.members.length + p.pending.length).sum +
    (((joining s .createPool).filter fun c => fieldAt c.buf 2 1 == d || fieldAt c.buf 3 1 == d).map fun c => fieldAt c.buf 4 2).sum +
    ((joining s .addMember).filter fun c => (s.pool? (c.entry.param 44 2)).any on).length

/-- R8: pools that a die homes, those that wait for the format of a member included. -/
def homes (s : State) (d : Nat) : Nat :=
  ((held s).filter fun p => p.home == d).length + ((joining s .createPool).filter fun c => fieldAt c.buf 2 1 == d).length

/-- R488 order 5: every die reaches the namespace. The partner's paths, which the board owes (R368), are taken as there
(assumption 12). -/
def reachedBy (ds : List Nat) (n : Option Ns) : Bool := n.any fun n => ds.all n.reaches

/-- R488 order 6: the namespace is a member, pending, vault or witness, or a command in progress formats it. -/
def inUse (s : State) (n : Ns) : Bool :=
  (roleOf s n.id).1 != 0 || s.mcmds.any fun m => m.ns == n.id && match m.purpose with
    | .format .. => true
    | _ => false

/-- R217, R195, R219 for one namespace: whether it is formatted, or a status. -/
def nsFit (s : State) (b : Nat) (fmt ovw : Bool) (small : Ns → Bool) (n : Ns) : Except W16 Bool :=
  match formatCheck b fmt n.info with
  | .error e => .error e
  | .ok f => if small n then .error 0x0152 else if labelled s n && !ovw then .error 0x0154 else .ok f

/-- R192: a fresh identifier, never 0 and never given out before. -/
def freshUid (s : State) : W64 × State :=
  let v := Config.freeId s.free
  let u := (((List.range (s.uids.length + 2)).map fun i => v + BitVec.ofNat 64 i).find? fun u =>
    u != 0 && !s.uids.contains u).getD 1
  (u, { s with free := s.free + 1, uids := u :: s.uids })

/-- R216, R217: starts Format NVM of a namespace for a command, with the data size it names and the protection setting of
R216. -/
def startFormat (c : Cmd) (home : Nat) (n : Ns) (s : State) : State :=
  let id := s.uniq
  let s1 := submit { id := 0, ns := n.id, pool := none, member := 0, path := pathFrom home n, isWrite := true, lba := 0,
                     data := [], purpose := .format c.ref c.aux n.info.offersE2e, at_ := 0, fua := false } s
  s1.updCmd c.ref fun c => { c with stage := .waiting, mwait := c.mwait ++ [id] }

/-- R216, R217: a formatted namespace. -/
def formatted (b : Nat) (prot : Bool) (n : Nat) (s : State) : State :=
  s.updNs n fun x => { x with info := { x.info with cur := b, md := 64, capacity := nsBlocks b x, e2e := prot, labels := [] } }

/-! ### CREATE POOL and DESTROY POOL (R488, R489) -/

/-- R488: descriptors of CREATE POOL. -/
def poolDescs (c : Cmd) : List Bytes := (List.range (fieldAt c.buf 4 2)).map fun i => slice c.buf (64 + 32 * i) 32

/-- R488: the namespaces that CREATE POOL names. -/
def poolNs (s : State) (c : Cmd) : List Ns := (poolDescs c).filterMap (findNs s)

/-- R217: the pool's data size: that of the first namespace named. Where that is neither 512 nor 4,096 bytes the spec does not
say what b is; the model takes the size as it is, which R217 then refuses (DESIGN CHOICE, assumption 43). -/
def poolB (s : State) (c : Cmd) : Nat := ((poolNs s c).head?.map fun n => n.info.cur).getD 0

/-- R488: the geometry that CREATE POOL asks for. -/
def poolGeom (s : State) (c : Cmd) (uid : W64) : Geom :=
  let b := poolB s c
  { n := fieldAt c.buf 4 2, k := fieldAt c.buf 6 1, m := fieldAt c.buf 7 1, s := fieldAt c.buf 8 1,
    strip := fieldAt c.buf 9 1, big := b == 4096, seed := BitVec.ofNat 64 (fieldAt c.buf 16 8), uid := uid,
    z := (((poolNs s c).map (nsBlocks b)).min?).getD 0 }

/-- R8, R488: the checks of CREATE POOL in their order, up to those of R217, R195 and R219; both count limits apply to both
dies, the pools that the shadow die homes with them (R8's last sentence). -/
def poolCheckCreate (s : State) (c : Cmd) : Option W16 :=
  let pool := c.entry.param 44 2
  let home := fieldAt c.buf 2 1
  let sh := fieldAt c.buf 3 1
  let n := fieldAt c.buf 4 2
  let ds := poolDescs c
  let found := ds.map (findNs s)
  let g := poolGeom s c 0
  if pool ≥ 256 then some 0x0103
  else if c.dataLen ≠ 64 + 32 * n then some 0x0140
  else if !s.alive home || !s.alive sh || home == sh || ds.any (fun d => fieldAt d 16 1 != 1 && fieldAt d 16 1 != 2) ||
      !(ds.map fun d => d.take 17).Nodup || !((found.filterMap id).map (·.id)).Nodup then some 0x0103
  else if (s.pool? pool).isSome then some 0x0107
  else if !g.legal then some 0x0103
  else if homes s home ≥ 16 || homes s sh ≥ 16 || reaches s home + n > 256 || reaches s sh + n > 256 then some 0x0401
  else if found.any fun x => !reachedBy [home, sh] x then some 0x0157
  else if (poolNs s c).any (inUse s) then some 0x0155
  else none

/-- R192, R218, R224, R488: the pool that CREATE POOL makes, its labels and reservations, and the completion. -/
def makePool (c : Cmd) (s : State) : State :=
  let (uid, s0) := freshUid s
  let g := poolGeom s c uid
  let age := fieldAt c.buf 12 2
  let p : Pool :=
    { num := c.entry.param 44 2, home := fieldAt c.buf 2 1, shadow := some (fieldAt c.buf 3 1), geom := g,
      age := if age = 0 then 2500 else age, members := (poolNs s c).map fun n => { state := .online, ns := n.id },
      scrub := ⟨true, 151200000000, false, s.clk.tick, 0, 0, 0, 0, 0, false⟩ }
  let s1 := { s0 with pools := s0.pools ++ [p] }
  let s2 := (poolNs s c).foldl (fun s n => reserveNs n.id (blankHeader n.id s)) (writeHeaders 0 (labelsOf p) s1)
  conclude c.ref uid (le 8 g.nrows ++ le 8 g.tiles) s2

/-- CREATE POOL (R488). -/
def createPool (c : Cmd) (s : State) : State :=
  if s.pair.state = .separated then busy c.ref s
  else match poolCheckCreate s c with
    | some st => fail c.ref st s
    | none =>
      let b := poolB s c
      let opt := fieldAt c.buf 10 1
      let small (n : Ns) : Bool := { poolGeom s c 0 with z := nsBlocks b n }.nrows == 0
      let fits := (poolNs s c).map fun n => nsFit s b (bitAt opt 0) (bitAt opt 1) small n
      match fits.findSome? fun f => match f with
        | .error e => some e
        | .ok _ => none with
      | some st => fail c.ref st s
      | none =>
        let todo := ((poolNs s c).zip fits).filter fun x => match x.2 with
          | .ok f => f
          | .error _ => false
        if todo.isEmpty then makePool c s
        else todo.foldl (fun s x => startFormat { c with aux := b } (fieldAt c.buf 2 1) x.1 s) (s.updCmd c.ref fun c => { c with aux := b })

/-- R489: commands in flight on the volumes of a pool. -/
def poolBusy (s : State) (num : Nat) : Bool :=
  s.cmds.any fun d => usesVol d.op && d.stage != .table && s.vols.any fun v => v.pool == num && v.num == d.entry.vol.toNat

/-- R489: the end of DESTROY POOL. -/
def endDestroy (c : Cmd) (p : Pool) (s : State) : State :=
  let gone := (s.vols.filter fun v => v.pool == p.num).map (·.num)
  let s1 := dropEntries p.home (fun e => e.pool == some p.num) s
  let s2 := { s1.dropBlocks (fun b => gone.contains b.vol) with
    vols := s1.vols.filter fun v => v.pool != p.num
    mcmds := s1.mcmds.filter fun m => m.pool != some p.num
    destages := s1.destages.filter fun d => d.pool != p.num
    pools := s1.pools.filter fun q => q.num != p.num }
  let use := (p.members ++ p.pending).filter fun m => m.state != .failed
  let s3 := if bitAt (c.entry.param 46 1) 0 then
    let z := (use.filter fun m => (s.ns? m.ns).any fun n => !n.up.isEmpty).map fun m => (m.ns, zeros 4096)
    writeHeaders 4096 z (writeHeaders 0 z s2) else s2
  changed c.ref 0 (use.foldl (fun s m => releaseNs m.ns s) s3)

/-- R489: DESTROY POOL goes on once nothing is in flight on the pool. -/
def tryDestroy (ref : CmdRef) (s : State) : State :=
  match s.cmd? ref with
  | none => s
  | some c =>
    match s.pool? (c.entry.param 44 2) with
    | none => fail ref 0x0103 s
    | some p => if poolBusy s p.num then s else endDestroy c p s

/-- DESTROY POOL (R489). -/
def destroyPool (c : Cmd) (s : State) : State :=
  match s.pool? (c.entry.param 44 2) with
  | none => fail c.ref 0x0103 s
  | some p =>
    if p.offline.isNone && s.vols.any (fun v => v.pool == p.num) then busy c.ref s
    else
      let mark (v : Vol) : Vol := { v with deleting := some c.ref }
      let s1 := { s with vols := updIf (fun v => v.pool == p.num) mark s.vols }
      tryDestroy c.ref (s1.updCmd c.ref fun c => { c with stage := .waiting })

/-! ### Members (R251, R255, R261, R490) -/

/-- R490: ADD MEMBER attaches the namespace. -/
def attach (c : Cmd) (s : State) : State :=
  match s.pool? (c.entry.param 44 2), findNs s c.buf with
  | some p, some n =>
    changed c.ref p.pending.length (reserveNs n.id (blankHeader n.id <| s.updPool p.num fun p => { p with pending := p.pending ++ [{ state := .online, ns := n.id }] }))
  | _, _ => fail c.ref 0x0103 s

/-- The data size of a pool whose members carry b bytes. -/
def Pool.b (p : Pool) : Nat := p.geom.b

/-- R488 orders 5 to 7 for one namespace that joins a pool: whether it is formatted, or a status. -/
def joinCheck (s : State) (c : Cmd) (p : Pool) (flags : Nat) : Except W16 (Ns × Bool) :=
  match findNs s c.buf with
  | none => .error 0x0157
  | some n =>
    if !reachedBy (p.home :: p.shadow.toList) (some n) then .error 0x0157
    else if inUse s n then .error 0x0155
    else match nsFit s p.b (bitAt flags 0) (bitAt flags 1) (fun n => decide (nsBlocks p.b n < p.geom.z)) n with
      | .error e => .error e
      | .ok f => .ok (n, f)

/-- R475, R480: the status of an input buffer that should hold one descriptor. -/
def descCheck (c : Cmd) : Option W16 :=
  if c.dataLen ≠ 32 then some 0x0140
  else if fieldAt c.buf 16 1 = 1 ∨ fieldAt c.buf 16 1 = 2 then none else some 0x0103

/-- Starts the format that a joining namespace needs, or goes on at once. -/
def joinThen (c : Cmd) (p : Pool) (flags : Nat) (go : Cmd → State → State) (s : State) : State :=
  match joinCheck s c p flags with
  | .error e => fail c.ref e s
  | .ok (n, f) => if f then startFormat { c with aux := p.b } p.home n (s.updCmd c.ref fun c => { c with aux := p.b }) else go c s

/-- ADD MEMBER (R261, R284, R490). -/
def addMember (c : Cmd) (s : State) : State :=
  match s.pool? (c.entry.param 44 2) with
  | none => fail c.ref 0x0103 s
  | some p =>
    match descCheck c with
    | some st => fail c.ref st s
    | none =>
      if p.reshape.isSome then busy c.ref s
      else if (p.home :: p.shadow.toList).any fun d => decide (256 ≤ reaches s d) then fail c.ref 0x0401 s
      else joinThen c p (c.entry.param 46 1) attach s

/-- R251, R284: what an index of REPLACE MEMBER names: a member, or a pending member by its index in the new geometry. An index that is both
names the member: DESIGN CHOICE, R284 does not say (assumption 43). -/
def replaceTarget (p : Pool) (i : Nat) : Option (Bool × Nat) :=
  if i < p.geom.n then some (false, i)
  else match p.reshape with
    | some r => ((r.newNs[i]?).bind fun n => p.pending.findIdx? fun m => m.ns == n).map fun j => (true, j)
    | none => none

/-- R203, R251: a replaced member. -/
def replaced (new : Nat) (m : Member) : Member :=
  { m with state := .replacing, ns := new, cause := 0, failTick := none, retries := 0, repairs := 0 }

/-- R266: during a reshape a namespace that joins gets its plan block. -/
def planFor (num n : Nat) (s : State) : State :=
  match (s.pool? num).bind (·.reshape) with
  | some r => writeHeaders 4096 [(n, planBlock' r (r.indexOf n))] s
  | none => s

/-- R251, R266: the replacement takes the index. -/
def replaceEnd (c : Cmd) (s : State) : State :=
  match s.pool? (c.entry.param 44 2), findNs s c.buf with
  | some p, some n =>
    match replaceTarget p (c.entry.param 46 2) with
    | none => fail c.ref 0x0103 s
    | some (pend, i) =>
      let old := (((if pend then p.pending else p.members)[i]?).map (·.ns)).getD 0
      let swap (r : Reshape) : Reshape := { r with newNs := updIf (· == old) (fun _ => n.id) r.newNs }
      let s1 := s.updPool p.num fun p =>
        { p with members := if pend then p.members else p.members.modify i (replaced n.id),
                 pending := if pend then p.pending.modify i (replaced n.id) else p.pending,
                 reshape := p.reshape.map swap }
      changed c.ref 0 (reserveNs n.id (planFor p.num n.id (blankHeader n.id (relabel p.num s1))))
  | _, _ => fail c.ref 0x0103 s

/-- REPLACE MEMBER (R203, R251, R490); in a tick in which members of the pool fail it waits for the guard period to give out
their slots. -/
def replaceMember (c : Cmd) (s : State) : State :=
  match s.pool? (c.entry.param 44 2) with
  | none => fail c.ref 0x0103 s
  | some p =>
    if p.unsettled then s.updCmd c.ref fun c => { c with stage := .stalled }
    else match descCheck c, replaceTarget p (c.entry.param 46 2) with
    | some st, _ => fail c.ref st s
    | none, none => fail c.ref 0x0103 s
    | none, some (pend, i) =>
      if ((if pend then p.pending else p.members)[i]?).any fun m => m.state == .failed then
        joinThen c p (c.entry.param 48 1) replaceEnd s
      else fail c.ref 0x0155 s

/-- R217: the last Format NVM of a command is done: the command goes on. -/
def afterFormat (c : Cmd) (s : State) : State :=
  match c.op with
  | .createPool => makePool c s
  | .addMember => attach c s
  | .replaceMember => replaceEnd c s
  | _ => s

/-- R217, R488: one Format NVM of a command is done. -/
def formatDone (m : MCmd) (ref : CmdRef) (b : Nat) (prot : Bool) (s : State) : State :=
  let s1 := { s with mcmds := s.mcmds.filter fun x => x.id != m.id }
  match s1.cmd? ref with
  | none => s1
  | some c =>
    let c1 := { c with mwait := c.mwait.filter (· != m.id) }
    let s2 := formatted b prot m.ns (s1.updCmd ref fun _ => c1)
    if c1.mwait.isEmpty then afterFormat c1 s2 else s2

/-- R488: a Format NVM failed or ran out of time: the command ends and changes nothing. -/
def formatFailed (ref : CmdRef) (s : State) : State :=
  let mine (x : MCmd) : Bool := match x.purpose with
    | .format c .. => c == ref
    | _ => false
  fail ref 0x0150 { s with mcmds := s.mcmds.filter fun x => !mine x }

/-- R255, R261: RETIRE MEMBER of a pending member. -/
def retirePending (c : Cmd) (p : Pool) (i : Nat) (s : State) : State :=
  match p.pending[i]? with
  | none => fail c.ref 0x0103 s
  | some m =>
    if bitAt (c.entry.param 48 1) 0 then fail c.ref 0x0103 s
    else if p.reshape.isSome then
      (if m.state = .failed then fail c.ref 0x0155 s else changed c.ref 0 (failMember m.ns 7 s))
    else changed c.ref 0 (releaseNs m.ns (s.updPool p.num fun p => { p with pending := p.pending.eraseIdx i }))

/-- RETIRE MEMBER (R255, R261, R284). -/
def retireMember (c : Cmd) (s : State) : State :=
  match s.pool? (c.entry.param 44 2) with
  | none => fail c.ref 0x0103 s
  | some p =>
    let i := c.entry.param 46 2
    if 0x8000 ≤ i then retirePending c p (i - 0x8000) s
    else match p.members[i]? with
      | none => fail c.ref 0x0103 s
      | some m =>
        let drain := bitAt (c.entry.param 48 1) 0
        if drain && p.reshape.isSome then busy c.ref s
        else if m.state ≠ .online ∧ m.state ≠ .suspect then fail c.ref 0x0155 s
        else if !drain then changed c.ref 0 (failMember m.ns 7 s)
        else match freeSlot p.geom.s p.members with
          | none => fail c.ref 0x0401 s
          | some t => changed c.ref 0 (s.updPool p.num fun p =>
              { p with members := p.members.modify i fun m => { m with state := .draining, slot := some t } })

/-! ### Status (R496 to R498) -/

/-- Pool data blocks owned by volumes, as ranges. -/
def ownedRanges (s : State) (num : Nat) : List (Nat × Nat) :=
  s.vols.flatMap fun v => if v.pool == num then v.extents.map fun e => (e * v.x, e * v.x + v.x) else []

/-- R496 FREE: tiles that belong to no volume. -/
def freeTiles (s : State) (p : Pool) : Nat :=
  p.geom.tiles - ((ownedRanges s p.num).flatMap fun r => tilesOf p.geom.tb r.1 r.2).eraseDups.length

/-- R293, R496: a mitre waits for a mirror peer. -/
def mitreWaits (s : State) (p : Pool) : Bool := (p.reshape.any fun r => r.plan.mitre) && (mirrorPeer s p).isNone

/-- R496 WORK: tiles with work in a class. -/
def tilesInClass (s : State) (p : Pool) (cls : Nat) : Nat :=
  (((workLeft s p).map fun w => (w.1, w.2.2)).eraseDups.filter fun t => tileClass p t.1 t.2 == cls).length

/-- R496: open stripe intents of a pool. -/
def poolIntents (s : State) (p : Pool) : Nat :=
  ((s.die? p.home).map fun x => openIntents { x.jr with
    entries := x.jr.entries.filter fun e => e.pool == some p.num
    segs := x.jr.segs.filter fun g => g.pool == p.num }).getD 0

/-- R496: the pool status structure. -/
def poolStatusBytes (s : State) (p : Pool) : Bytes :=
  let g := p.geom
  let r := p.reshape
  let num (f : Reshape → Nat) : Nat := (r.map f).getD 0
  layout 512 [(0, le 2 p.num), (2, le 1 (bit p.offline.isSome)), (3, le 1 (p.offline.getD 0)), (4, le 1 p.home),
    (5, le 1 (p.shadow.getD 0xFF)), (6, le 1 (match mirrorPeer s p with
      | some false => 0
      | some true => 1
      | none => 2)),
    (7, le 1 (bit (mitreWaits s p) + 2 * bit p.rebuild.paused + 4 * bit p.scrub.on)), (8, geomBytes g),
    (16, le 8 g.uid.toNat), (24, le 8 g.seed.toNat), (32, le 8 g.nrows), (40, le 8 g.tiles), (48, le 8 (freeTiles s p)),
    (56, le 2 p.age), (64, le 8 ((s.cache.filter fun b => b.dirty && (s.vol? b.vol).any fun v => v.pool == p.num).map
      (·.data.length)).sum), (72, le 4 (poolIntents s p)),
    (80, le 1 (if !p.rebuild.running then 0 else if p.rebuild.paused then 2 else 1)), (81, le 1 p.rebuild.cls),
    (82, le 2 p.rebuild.sweep), (88, le 8 p.rebuild.stop), (96, (List.range 6).flatMap fun c => le 8 (tilesInClass s p c)),
    (144, le 1 (num fun r => if r.plan.mitre then 1 else 2)), (145, le 1 (num fun r => maskOf r.reasons)),
    (146, le 1 (num fun r => bit r.undo)), (147, le 1 (num fun r => bit r.down)),
    (148, le 4 ((r.map (·.plan)).orElse (fun _ => p.plan) |>.map (·.num) |>.getD 0)),
    (152, le 8 (num (·.beta)) ++ le 8 (num (·.endAt)) ++ le 8 (num (·.plan.need)) ++ le 8 (num (·.built.length))),
    (184, le 1 (bit p.scrub.running)), (192, le 8 p.scrub.pass), (200, le 8 p.scrub.period), (208, le 8 p.scrub.ended),
    (216, le 8 p.scrub.mismatch ++ le 8 p.scrub.repaired), (232, le 4 p.lost.length)]

/-- POOL STATUS (R496). -/
def poolStatus (c : Cmd) (s : State) : State :=
  match s.pool? (c.entry.param 44 2) with
  | none => fail c.ref 0x0103 s
  | some p => if c.dataLen < 512 then fail c.ref 0x0140 s else okBuffer c (poolStatusBytes s p) 0 0 s

/-- R230, R497: state code of a member. -/
def MState.code : MState → Nat
  | .online => 0
  | .suspect => 1
  | .draining => 2
  | .failed => 3
  | .replacing => 4

/-- R497: one entry. -/
def memberEntry (s : State) (p : Pool) (item st : Nat) (m : Member) : Bytes :=
  let n := s.ns? m.ns
  let cap := if 0x8000 ≤ item then (n.map (nsBlocks p.b)).getD 0 else p.geom.z
  let done := (if m.state = .replacing then p.rebuild.copied else p.rebuild.done).filter fun e => !e.1 && e.2.1 == item
  layout 64 [(0, le 2 item), (2, le 1 st), (3, le 1 m.cause), (4, le 1 (m.slot.getD 0xFF)),
    (5, le 1 ((n.map (·.warn.toNat)).getD 0)), (6, le 1 ((n.map fun n => dieBits (n.up.map pathOn).eraseDups).getD 0)),
    (8, (n.map fun n => descriptor n.info).getD (zeros 32)), (40, le 8 cap), (48, le 8 done.length), (56, le 4 m.retries),
    (60, le 4 m.repairs)]

/-- R497: the entries of a pool from a member index on. -/
def memberEntries (s : State) (p : Pool) (first : Nat) : List Bytes :=
  (p.members.zipIdx.drop first).map (fun x => memberEntry s p x.2 x.1.state.code x.1) ++
    p.pending.zipIdx.map fun x => memberEntry s p (0x8000 + x.2) (if x.1.state = .failed then 3 else 5) x.1

/-- MEMBER STATUS (R497). -/
def memberStatus (c : Cmd) (s : State) : State :=
  match s.pool? (c.entry.param 44 2) with
  | none => fail c.ref 0x0103 s
  | some p =>
    if c.dataLen < 64 then fail c.ref 0x0140 s
    else
      let l := (memberEntries s p (c.entry.param 46 2)).take (c.dataLen / 64)
      okBuffer c l.flatten (p.geom.n + 65536 * p.pending.length) l.length s

/-- R247: an entry of the lost block list. -/
def lostEntry (r : Lost) : Bytes := le 2 r.vol ++ le 2 0 ++ le 4 r.count ++ le 8 r.lba

/-- LOST BLOCK LIST (R249, R498). -/
def lostBlockList (c : Cmd) (s : State) : State :=
  match s.pool? (c.entry.param 44 2) with
  | none => fail c.ref 0x0103 s
  | some p =>
    if c.dataLen < 16 then fail c.ref 0x0140 s
    else
      let l := (p.lost.drop (c.entry.param 48 4)).take (c.dataLen / 16)
      okBuffer c (l.flatMap lostEntry) p.lost.length l.length s

/-! ### REBUILD CONTROL and SCRUB CONTROL (R243, R256, R495) -/

/-- R242: DETAIL of a rebuild CHECKPOINT: sweep, class, members with work at the sweep's start. -/
def sweepDetail (p : Pool) : List Nat :=
  let ms := sortNat ((sweepWork p).map (·.2.1))
  [p.rebuild.sweep, p.rebuild.cls, ms.length] ++ ms.take 14

/-- R242: programs a rebuild CHECKPOINT. -/
def sweepCheckpoint (num st : Nat) (s : State) : State :=
  match s.pool? num with
  | none => s
  | some p => programJ p.home (some num) (.checkpoint 1 st p.rebuild.stop 0 (sweepDetail p)) s

/-- REBUILD CONTROL (R243, R495). -/
def rebuildControl (c : Cmd) (s : State) : State :=
  let a := c.entry.param 46 1
  match s.pool? (c.entry.param 44 2) with
  | none => fail c.ref 0x0103 s
  | some p =>
    if 1 < a then fail c.ref 0x0103 s
    else if !p.rebuild.running then ok c.ref 0 s
    else if a = 0 then
      if p.rebuild.paused then ok c.ref 0 s
      else ok c.ref 0 (sweepCheckpoint p.num 2 (s.updPool p.num fun p => { p with rebuild := { p.rebuild with paused := true } }))
    else ok c.ref 0 (s.updPool p.num fun p => { p with rebuild := { p.rebuild with paused := false } })

/-- R257: DETAIL of a scrub CHECKPOINT. -/
def scrubDetail (x : ScrubSt) : List Nat := [x.pass, x.mismatch, x.repaired]

/-- R256: the next tile of a scrub pass. -/
def scrubNext (s : State) (p : Pool) : Option Nat := (workTiles s p false).find? fun t => decide (p.scrub.tile ≤ t)

/-- R257: a scrub pass with no tile left ends. -/
def endPass (num : Nat) (s : State) : State :=
  match s.pool? num with
  | none => s
  | some p =>
    if !p.scrub.running || (scrubNext s p).isSome then s
    else
      let s1 := programJ p.home (some num) (.checkpoint 4 3 p.scrub.tile 0 (scrubDetail p.scrub)) s
      raise p.home 0x3123 { pool := num } (s1.updPool num fun p =>
        { p with scrub := { p.scrub with running := false, ended := s.clk.tick } })

/-- R256, R257: a scrub pass starts. -/
def startPass (num : Nat) (s : State) : State :=
  let s1 := s.updPool num fun p =>
    { p with scrub := { p.scrub with running := true, started := s.clk.tick, pass := p.scrub.pass + 1, tile := 0,
                                     mismatch := 0, repaired := 0, behind := false } }
  match s1.pool? num with
  | none => s1
  | some p => endPass num (programJ p.home (some num) (.checkpoint 4 0 0 0 (scrubDetail p.scrub)) s1)

/-- SCRUB CONTROL (R256, R284, R495). -/
def scrubControl (c : Cmd) (s : State) : State :=
  let a := c.entry.param 46 1
  let per := c.entry.param 56 8
  match s.pool? (c.entry.param 44 2) with
  | none => fail c.ref 0x0103 s
  | some p =>
    if 3 < a ∨ (per ≠ 0 ∧ per < 250000) then fail c.ref 0x0103 s
    else
      let s1 := s.updPool p.num fun p =>
        { p with scrub := { p.scrub with period := if per = 0 then p.scrub.period else per,
                                         on := if a = 0 then false else if a = 3 then p.scrub.on else true } }
      ok c.ref 0 (if a = 2 ∧ ¬ p.scrub.running ∧ p.reshape.isNone ∧ p.offline.isNone then startPass p.num s1 else s1)

end Sys2Proof.Machine
end

