-- ==== Sys2Proof/Machine/Spill.lean ====
section
/-! DEFINITION. The spill area: segments of the journal on members (R174 to R178). -/

namespace Sys2Proof.Machine

/-- R174, R176: the lowest of the 192 segment slots of a member that no copy of the pool's segments takes. -/
def segSlot (j : JournalSt) (pool member : Nat) : Option Nat :=
  let used := ((j.segs.filter fun g => g.pool == pool).flatMap fun g => (g.copies.zip g.slots).filter fun x => x.1 == member).map (·.2)
  (List.range 192).find? fun t => !used.contains t

/-- R176: the member that takes copy i of segment q beside those that hold one. -/
def spillCopy (j : JournalSt) (p : Pool) (q i : Nat) (have_ : List Nat) : Option Nat :=
  let n := p.geom.n
  let start := (q + i * (n / (p.geom.m + 1))) % n
  ((List.range n).map fun k => (start + k) % n).find? fun c =>
    !have_.contains c && (p.members[c]?).any (fun m => m.state != .failed) && (segSlot j p.num c).isSome

/-- R176: the members that take the m + 1 copies of segment q. -/
def spillCopies (j : JournalSt) (p : Pool) (q : Nat) : List Nat :=
  (List.range (p.geom.m + 1)).foldl (fun have_ i => have_ ++ (spillCopy j p q i have_).toList) []

/-- R174: the first member block of a segment slot, counted from the start of the reserve. -/
def slotBlock (p : Pool) (t : Nat) : Nat := (16777216 + t * 262144) / p.b

/-- R174: the first byte of the spill reserve on a member's namespace. -/
def reserveOf (s : State) (p : Pool) (n : Nat) : Nat := (((s.ns? n).map (nsBlocks p.b)).getD 0 - p.geom.spill) * p.b

/-- R174, R175, R226: one copy of a segment is written, with FUA, into its slot on a member. -/
def writeCopy (p : Pool) (es : List JEntry) (member slot : Nat) (s : State) : State :=
  match p.members[member]? with
  | none => s
  | some m =>
    let b := segmentBytes es
    submit { id := 0, ns := m.ns, pool := some p.num, member := member, path := pathTo s p.home m.ns, isWrite := true,
             lba := reserveOf s p m.ns / p.b + slotBlock p slot,
             data := (List.range (ceilDiv b.length (max 1 p.b))).map fun i => ⟨padTo p.b (slice b (i * p.b) p.b), []⟩, purpose := .spill, at_ := 0 } s

/-- R175: the lowest segment number that a pool does not use; the spec gives no rule for it (DESIGN CHOICE, assumption 43). -/
def freeSeg (j : JournalSt) (pool : Nat) : Nat :=
  ((List.range (j.segs.length + 1)).find? fun q => !j.segs.any fun g => g.pool == pool && g.seg == q).getD 0

/-- R175: one pool's group of spilled entries becomes a segment. -/
def spillPool (d pool : Nat) (es : List JEntry) (s : State) : State :=
  match s.die? d, s.pool? pool with
  | some x, some p =>
    let q := freeSeg x.jr pool
    let copies := spillCopies x.jr p q
    let slots := copies.map fun c => (segSlot x.jr pool c).getD 0
    let first := (es.head?.map (·.jsn)).getD 0
    let last := (es.getLast?.map (·.jsn)).getD 0
    let s := (copies.zip slots).foldl (fun s x => writeCopy p es x.1 x.2 s) s
    let s := programJ d (some pool) (.spillSegment q first last copies) s
    s.updJr d fun j => { j with segs := j.segs ++ [⟨pool, q, first, last, copies, slots, es⟩],
                                entries := j.entries.filter fun e => !es.contains e }
  | _, _ => s

/-- JOURNAL SPILL (R175, R178): at 7/8 full the oldest 4,096 entries go to segments on members; when that would take
more than 64 segments, write admission stops. -/
def execJournalSpill (die : Nat) (s : State) : Answer :=
  match s.die? die with
  | some x =>
    let j := x.jr
    if !s.running || !s.alive die || decide (j.next - j.tail < 344064) then .next s
    else
      let old := j.entries.filter fun e => decide (e.jsn < j.tail + 4096)
      let pools := (old.filterMap (·.pool)).foldl (fun l p => insNat p l) []
      if 64 < j.segs.length + pools.length then
        if j.full then .next s
        else .next (raise die 0x1202 {} (s.updJr die fun j => { j with full := true }))
      else
        let s := pools.foldl (fun s p => spillPool die p (old.filter fun e => e.pool == some p) s) s
        let s := (old.filter fun e => e.pool.isNone).foldl (fun s e =>
          programJ die none e.body (s.updJr die fun j => { j with entries := j.entries.filter fun x => x.jsn != e.jsn })) s
        .next (raise die 0x1200 {} s)
  | none => .next s

/-- JOURNAL FULL CLEARED (R178): with 48 or fewer segments in use write admission resumes. -/
def execJournalFullCleared (die : Nat) (s : State) : Answer :=
  match s.die? die with
  | some x =>
    if s.running && x.jr.full && decide (x.jr.segs.length ≤ 48) then .next (s.updJr die fun j => { j with full := false })
    else .next s
  | none => .next s

/-- R177: the copies of a segment, with the one on a failed member given to another member that R176 chooses. -/
def moveCopy (j : JournalSt) (p : Pool) (member : Nat) (g : Segment) : Segment :=
  let i := (g.copies.findIdx? (· == member)).getD 0
  match spillCopy j p g.seg i g.copies with
  | some c => { g with copies := g.copies.set i c, slots := g.slots.set i ((segSlot j p.num c).getD 0) }
  | none => { g with copies := g.copies.eraseIdx i, slots := g.slots.eraseIdx i }

/-- R177: a copy that a failed member held is written to another member, and a new SPILL SEGMENT names it. -/
def replaceCopy (p : Pool) (member : Nat) (s : State) (g : Segment) : State :=
  match s.die? p.home with
  | none => s
  | some x =>
    let h := moveCopy x.jr p member g
    let s := ((h.copies.zip h.slots).filter fun c => !g.copies.contains c.1).foldl (fun s c => writeCopy p g.entries c.1 c.2 s) s
    let s := programJ p.home (some p.num) (.spillSegment g.seg g.first g.last h.copies) s
    s.updJr p.home fun j => { j with segs := updIf (fun q => q.pool == p.num && q.seg == g.seg) (fun _ => h) j.segs }

/-- SPILL COPY REPLACED (R177): the copies that a failed member held are rewritten onto other members. -/
def execSpillCopyReplaced (pool member : Nat) (s : State) : Answer :=
  match s.pool? pool with
  | some p =>
    let segs := ((s.die? p.home).map (·.jr.segs)).getD []
    let mine := segs.filter fun g => g.pool == pool && g.copies.contains member
    if !s.running || !s.serves p.home || mine.isEmpty || !((p.members[member]?).any (fun m => m.state == .failed)) then .next s
    else
      .next (raise p.home 0x1201 { pool := pool, item := member } (mine.foldl (replaceCopy p member) s))
  | none => .next s

end Sys2Proof.Machine
end

