-- ==== Sys2Proof/Machine/Volumes.lean ====
section
/-! DEFINITION. Volumes: CREATE VOLUME, DELETE VOLUME, RESIZE VOLUME (R199, R200, R265, R491 to R493). -/

namespace Sys2Proof.Machine

/-- The unit u of x blocks overlaps one of the ranges. -/
def unitTaken (rs : List (Nat × Nat)) (x u : Nat) : Bool := rs.any fun r => decide (u * x < r.2) && decide (r.1 < u * x + x)

/-- R200, R265: the lowest free units, at most `need` of them, from unit u on. -/
def freeUnits (taken : Nat → Bool) : Nat → Nat → Nat → List Nat
  | 0, _, _ => []
  | fuel + 1, u, need =>
    if need = 0 then [] else if taken u then freeUnits taken fuel (u + 1) need
    else u :: freeUnits taken fuel (u + 1) (need - 1)

/-- R200, R265: `need` units of x blocks in a pool; none when they are short. -/
def allocate (s : State) (p : Pool) (x need : Nat) : Option (List Nat) :=
  let l := freeUnits (unitTaken (ownedRanges s p.num) x) (p.geom.cap / x) 0 need
  if l.length = need then some l else none

/-- R491: the volume that CREATE VOLUME asks for, without its units. -/
def volumeOf (c : Cmd) : Vol :=
  let e := c.entry
  let f := e.param 50 1
  let t := e.param 48 2
  { num := e.param 44 2, pool := e.param 46 2, tenant := if t = 0xFFFF then none else some t, enc := bitAt f 0, dz := bitAt f 1,
    wt := bitAt f 2, pif := bits (e.param 51 1) 1 0, pitype := bits (e.param 51 1) 5 4, big := bitAt (e.param 52 1) 0,
    blocks := e.param 56 8, x := 0, extents := [], zero := [] }

/-- R491: check 1. -/
def volFieldsOk (s : State) (v : Vol) : Bool :=
  decide (v.num < 4096) && (s.pool? v.pool).isSome && v.tenant.all (fun t => (s.tenant? t).isSome) &&
  (!v.enc || v.tenant.isSome) && v.pif != 3 && (if v.pif = 0 then v.pitype == 0 else v.pitype != 0) && decide (1 ≤ v.blocks)

/-- R200: TILE STATE records of units that are allocated. -/
def newUnitRecords (p : Pool) (vol : Nat) (is : List Nat) (s : State) : State :=
  is.foldl (fun s i => programJ p.home (some p.num) (.tileState vol i 0) s) s

/-- CREATE VOLUME (R200, R265, R366, R491). -/
def createVolume (c : Cmd) (s : State) : State :=
  let v := volumeOf c
  if s.pair.state = .separated then busy c.ref s
  else if !volFieldsOk s v then fail c.ref 0x0103 s
  else if (s.vol? v.num).isSome then fail c.ref 0x0107 s
  else match s.pool? v.pool with
    | none => fail c.ref 0x0103 s
    | some p =>
      if v.big ≠ p.geom.big then fail c.ref 0x0153 s
      else if p.reshape.isSome then busy c.ref s
      else match poolCheck (some p) with
        | some st => fail c.ref st s
        | none =>
          let x := p.geom.tb
          match allocate s p x (ceilDiv v.blocks x) with
          | none => fail c.ref 0x0401 s
          | some us =>
            changed c.ref us.length (newUnitRecords p v.num (List.range us.length)
              { s with vols := s.vols ++ [{ v with x := x, extents := us, zero := List.range us.length }] })

/-- R492: TILE STATE records of units that are freed. -/
def freeUnitRecords (p : Pool) (vol : Nat) (is : List Nat) (s : State) : State :=
  is.foldl (fun s i => programJ p.home (some p.num) (.tileState vol i 1) s) s

/-- R249, R492, R493: the lost blocks of a volume from an LBA on leave the list. -/
def forgetLost (num vol lba : Nat) (s : State) : State :=
  s.updPool num fun p =>
    let l := lostCut vol lba (2 ^ 64) p.lost
    if l = p.lost then p else { p with lost := l, listDirty := true }

/-- R492, R274: the end of DELETE VOLUME: cached data discarded, units freed, lost blocks removed. -/
def endDelete (v : Vol) (s : State) : State :=
  let s1 := { s.dropBlocks (fun b => b.vol == v.num) with vols := s.vols.filter fun x => x.num != v.num }
  match s.pool? v.pool with
  | none => s1
  | some p =>
    let cut (r : Reshape) : Reshape := { r with tables := r.tables.filter fun t => t.1 != v.num }
    let s2 := forgetLost p.num v.num 0 (freeUnitRecords p v.num (List.range v.extents.length) s1)
    retireCommits (s2.updPool p.num fun p => { p with reshape := p.reshape.map cut })

/-- R492: commands for the volume that have passed check 1 and are not complete. -/
def volBusy (s : State) (v : Nat) : Bool :=
  s.cmds.any fun d => usesVol d.op && d.stage != .table && d.entry.vol.toNat == v

/-- R492: a DELETE VOLUME ends once nothing for its volume is in flight. -/
def tryDelete (ref : CmdRef) (s : State) : State :=
  match s.vols.find? fun v => v.deleting == some ref with
  | none => s
  | some v => if volBusy s v.num then s else changed ref 0 (endDelete v s)

/-- DELETE VOLUME (R492). -/
def deleteVolume (c : Cmd) (s : State) : State :=
  match s.vol? (c.entry.param 44 2) with
  | none => fail c.ref 0x0103 s
  | some v =>
    let s1 := s.updCmd c.ref fun c => { c with stage := .waiting }
    tryDelete c.ref (s1.updVol v.num fun v => { v with deleting := some c.ref })

/-- RESIZE VOLUME (R284, R493). -/
def resizeVolume (c : Cmd) (s : State) : State :=
  let n := c.entry.param 56 8
  match s.vol? (c.entry.param 44 2) with
  | none => fail c.ref 0x0103 s
  | some v =>
    match s.pool? v.pool with
    | none => fail c.ref 0x0103 s
    | some p =>
      let have_ := v.extents.length
      let want := ceilDiv n v.x
      if n = 0 then fail c.ref 0x0103 s
      else if p.reshape.isSome then busy c.ref s
      else if have_ < want then
        match allocate s p v.x (want - have_) with
        | none => fail c.ref 0x0401 s
        | some us =>
          changed c.ref want (newUnitRecords p v.num ((List.range us.length).map (· + have_)) (s.updVol v.num fun v =>
            { v with blocks := n, extents := v.extents ++ us, zero := v.zero ++ (List.range us.length).map (· + have_) }))
      else if v.blocks ≤ n then changed c.ref want (s.updVol v.num fun v => { v with blocks := n })
      else
        let s1 := s.dropBlocks fun b => b.vol == v.num && decide (n ≤ b.lba)
        let s2 := freeUnitRecords p v.num ((List.range (have_ - want)).map (· + want)) s1
        let s3 := s2.updVol v.num fun v =>
          { v with blocks := n, extents := v.extents.take want, zero := v.zero.filter fun i => decide (i < want),
                   written := cutRuns n (2 ^ 64) v.written }
        changed c.ref want (retireCommits (forgetLost p.num v.num n s3))

end Sys2Proof.Machine
end

