-- ==== Sys2Proof/Machine/Reshape.lean ====
section
/-! DEFINITION. Changing shape on line: RESHAPE PLAN, START and CONTROL, mitre steps, veneer builds and the switch,
completion and cancel (R260 to R285, R293, R296, R310, R494, R495). -/

namespace Sys2Proof.Machine

/-! ### Planning (R262, R263, R494) -/

/-- R494: the removal list. -/
def removals (c : Cmd) : List Nat := (List.range (fieldAt c.buf 16 2)).map fun i => fieldAt c.buf (64 + 2 * i) 2

/-- R260, R262: the new geometry that RESHAPE PLAN asks for. -/
def planGeom (c : Cmd) (g : Geom) : Geom :=
  { g with n := fieldAt c.buf 0 2, k := fieldAt c.buf 2 1, m := fieldAt c.buf 3 1, s := fieldAt c.buf 4 1,
           strip := fieldAt c.buf 5 1,
           seed := if bitAt (fieldAt c.buf 7 1) 0 then BitVec.ofNat 64 (fieldAt c.buf 8 8) else g.seed }

/-- R262: mitre is allowed. -/
def mitreAllowed (a b : Geom) : Bool := decide (a.n ≤ 48) && decide (b.n ≤ 48) && a.strip == b.strip

/-- R273: old tiles that hold a block of a volume. -/
def occupied (s : State) (p : Pool) : List Nat :=
  ((ownedRanges s p.num).flatMap fun r => tilesOf p.geom.tb r.1 r.2).eraseDups

/-- R273: new tiles whose footprint overlaps that of an occupied old tile on a member that both geometries share. -/
def blockedTiles (s : State) (p : Pool) (g : Geom) (remove : List Nat) : List Nat :=
  if p.geom.n ≤ remove.length then []
  else ((occupied s p).flatMap fun t =>
    tilesOf (64 * g.sb) (64 * t * p.geom.sb) (64 * (t + 1) * p.geom.sb)).eraseDups

/-- R273, R274: the eligible new tiles, the lowest first, at most `need` of them. -/
def eligible (s : State) (p : Pool) (g : Geom) (remove : List Nat) (need : Nat) : List Nat :=
  let blocked := blockedTiles s p g remove
  freeUnits blocked.contains g.tiles 0 need

/-- R263 AVAIL. -/
def availTiles (s : State) (p : Pool) (g : Geom) (remove : List Nat) : Nat :=
  g.tiles - ((blockedTiles s p g remove).filter fun t => decide (t < g.tiles)).length

/-- R263 HIGHEST. -/
def highestBlock (s : State) (num : Nat) : Nat := (ownedRanges s num).foldl (fun a r => max a r.2) 0

/-- R263 NEED: new tiles that the volumes require. -/
def needTiles (s : State) (num nt : Nat) : Nat :=
  ((s.vols.filter fun v => v.pool == num).map fun v => ceilDiv v.blocks nt).sum

/-- R263: the figures of a plan. MOVEBYTES counts the units that do not read as zeros (DEDUCED, 13). -/
def makePlan (c : Cmd) (p : Pool) (mitre : Bool) (s : State) : Plan :=
  let g := planGeom c p.geom
  let down := mitre && decide (g.slots * g.k * g.sb < p.geom.slots * p.geom.k * p.geom.sb)
  let hi := highestBlock s p.num
  let need := needTiles s p.num g.tb
  { num := s.nextPlan, geom := g, remove := removals c, mitre := mitre, down := down, ot := p.geom.tb, nt := g.tb,
    oldCap := p.geom.cap, newCap := g.cap, highest := hi,
    steps := if mitre then (if down then ceilDiv hi g.tb else ceilDiv p.geom.cap g.tb) else need,
    need := if mitre then 0 else need, avail := if mitre then 0 else availTiles s p g (removals c),
    copyBytes := if mitre then g.tb * g.b else 0,
    copyLimit := ((s.die? p.home).map fun x => x.protGib * 2 ^ 28).getD 0,
    stepTicks := if mitre then Config.freeStepTicks s.free else 0,
    moveBytes := ((s.vols.filter fun v => v.pool == p.num).map fun v => (v.extents.length - v.zero.length) * v.x * g.b).sum }

/-- R494: bytes 320 to 447 of the buffer. -/
def planFigures (x : Plan) : Bytes :=
  layout 128 [(0, le 4 x.num), (4, le 1 (if x.mitre then 1 else 2)), (5, le 1 (bit x.down)), (8, le 8 x.ot), (16, le 8 x.nt),
    (24, le 8 x.oldCap), (32, le 8 x.newCap), (40, le 8 x.highest), (48, le 8 x.steps), (56, le 8 x.need),
    (64, le 8 x.avail), (72, le 8 x.copyBytes), (80, le 8 x.copyLimit), (88, le 8 x.stepTicks), (96, le 8 x.moveBytes)]

/-- R262, R284, R494: the checks of RESHAPE PLAN: the method, or a status. A reshape in progress is answered (0402h) before the plan's
own figures are looked at (class 01h): DESIGN CHOICE, no rule orders the two (assumption 43). -/
def planCheck (c : Cmd) (p : Pool) : Except W16 Bool :=
  let r := removals c
  let g := planGeom c p.geom
  let want := fieldAt c.buf 6 1
  if c.dataLen ≠ 512 then .error 0x0140
  else if p.reshape.isSome then .error 0x0402
  else if 128 < r.length ∨ (r.any fun i => decide (p.geom.n ≤ i)) ∨ ¬ r.Nodup ∨
      g.n + r.length ≠ p.geom.n + p.pending.length ∨ ¬ g.legal ∨ 2 < want then .error 0x0103
  else if want = 1 ∧ ¬ mitreAllowed p.geom g then .error 0x0160
  else .ok (want != 2 && mitreAllowed p.geom g)

/-- RESHAPE PLAN (R260 to R263, R494). -/
def reshapePlan (c : Cmd) (s : State) : State :=
  match s.pool? (c.entry.param 44 2) with
  | none => fail c.ref 0x0103 s
  | some p =>
    match planCheck c p with
    | .error st => if st = 0x0402 then busy c.ref s else fail c.ref st s
    | .ok mitre =>
      let x := makePlan c p mitre s
      let s1 := s.updPool p.num fun p => { p with plan := some x }
      ok c.ref x.num ({ s1 with nextPlan := (s.nextPlan + 1) % 2 ^ 32, free := s.free + 1 }.emit (.buffer c.ref 320 (planFigures x)))

/-! ### Starting (R264, R266, R270, R274) -/

/-- R274: the new extent tables, volume by volume. -/
def giveTables (nt : Nat) : List Vol → List Nat → List (Nat × List Nat)
  | [], _ => []
  | v :: vs, l => let n := ceilDiv v.blocks nt; (v.num, l.take n) :: giveTables nt vs (l.drop n)

/-- Insertion of a volume by its number. -/
def insVol (v : Vol) : List Vol → List Vol
  | [] => [v]
  | x :: xs => if v.num ≤ x.num then v :: x :: xs else x :: insVol v xs

/-- R264, R270, R274: the reshape that a plan starts as. -/
def beginReshape (s : State) (p : Pool) (x : Plan) (uid : W64) : Reshape :=
  let keep := (p.members.zipIdx.filter fun m => !x.remove.contains m.2).map fun m => m.1.ns
  let vols := (s.vols.filter fun v => v.pool == p.num).foldl (fun l v => insVol v l) []
  let beta := if x.mitre && x.down then x.nt * ceilDiv x.highest x.nt else 0
  { plan := { x with need := if x.mitre then 0 else needTiles s p.num x.nt }, uid := uid, newNs := keep ++ p.pending.map (·.ns),
    beta := beta, endAt := if x.mitre && !x.down then x.oldCap else 0, startBeta := beta, startDown := x.down, down := x.down,
    undo := false, skipped := 0, reasons := [],
    tables := if x.mitre then [] else giveTables x.nt vols (eligible s p x.geom x.remove (needTiles s p.num x.nt)),
    built := [], cancelling := false, cancellers := [] }

/-- R264: a FAILED member has no spare slot in a geometry with sp spare positions. -/
def slotless (p : Pool) (sp : Nat) : Bool := p.members.any fun m => m.state == .failed && !m.slot.any fun t => decide (t < sp)

/-- R264, R293: the checks of RESHAPE START in their order. -/
def startCheck (s : State) (p : Pool) (num : Nat) : Except W16 Plan :=
  match p.plan.filter fun x => x.num == num with
  | none => .error 0x0161
  | some x =>
    if p.reshape.isSome ∨ ¬ (workLeft s p).isEmpty ∨ ¬ (copyLeft s p).isEmpty ∨ slotless p x.geom.s ∨
        (x.mitre ∧ (mirrorPeer s p).isNone) then .error 0x0402
    else if p.geom.n + p.pending.length ≠ x.geom.n + x.remove.length then .error 0x0155
    else if (x.mitre ∧ x.down ∧ x.newCap < x.highest) ∨ (x.mitre ∧ x.copyLimit < x.copyBytes) ∨
        (!x.mitre ∧ availTiles s p x.geom x.remove < needTiles s p.num x.nt) then .error 0x0401
    else .ok x

/-- The members and pending members of a pool. -/
def Pool.all (p : Pool) : List Member := p.members ++ p.pending

/-- R266: the plan blocks of every member, and the labels of the pending ones. -/
def writePlans (p : Pool) (r : Reshape) (s : State) : State :=
  let live := p.all.filter fun m => m.state != .failed
  let s1 := writeHeaders 4096 (live.map fun m => (m.ns, planBlock' r (r.indexOf m.ns))) s
  writeHeaders 0 ((p.pending.filter fun m => m.state != .failed).map fun m => (m.ns, labelBytes r.geom p.labelGen (r.indexOf m.ns))) s1

/-- R278: MAP SWITCH. -/
def mapSwitch (p : Pool) (r : Reshape) (kind : Nat) (s : State) : State :=
  programJ p.home (some p.num) (.mapSwitch r.plan.num kind (if r.plan.mitre then 1 else 2) r.uid p.geom.uid) s

/-- RESHAPE START (R264). -/
def reshapeStart (c : Cmd) (s : State) : State :=
  match s.pool? (c.entry.param 44 2) with
  | none => fail c.ref 0x0103 s
  | some p =>
    match startCheck s p (c.entry.param 48 4) with
    | .error st => if st = 0x0402 then busy c.ref s else fail c.ref st s
    | .ok x =>
      let (uid, s1) := freshUid s
      let r := beginReshape s p x uid
      let s2 := mapSwitch p r 1 (s1.updPool p.num fun p => { p with reshape := some r })
      changed c.ref 0 (raise p.home 0x3140 { pool := p.num } (writePlans p r s2))

/-! ### Pausing (R278, R280, R282) -/

/-- R278: a CHECKPOINT of the reshape of a pool. Where no target tile is left its TILE is 0: DESIGN CHOICE, R278 gives none
(assumption 43). -/
def reshapeCheckpoint (num st reason : Nat) (s : State) : State :=
  match s.pool? num with
  | none => s
  | some p =>
    match p.reshape with
    | none => s
    | some r =>
      let tb := (p.geomOf (!r.undo)).tb
      let tile := if r.plan.mitre then (if r.down then (r.beta - 1) / tb else r.beta / tb)
        else (((r.tables.flatMap (·.2)).filter fun t => !r.built.contains t).min?).getD 0
      let d := if r.plan.mitre then [bit r.down, bit r.undo, reason, r.beta, r.endAt, r.skipped]
        else [reason, r.plan.need, r.built.length]
      programJ p.home (some num) (.checkpoint (if r.plan.mitre then 2 else 3) st tile r.plan.num d) s

/-- A change of the reshape of a pool. -/
def State.updReshape (s : State) (num : Nat) (f : Reshape → Reshape) : State :=
  s.updPool num fun p => { p with reshape := p.reshape.map f }

/-- R280, R282: a pause for a reason at a step or build boundary. -/
def pauseFor (num reason : Nat) (s : State) : State :=
  let s1 := reshapeCheckpoint num 2 reason (s.updReshape num fun r => { r with reasons := insNat reason r.reasons })
  match s.pool? num with
  | some p => raise p.home 0x3141 { pool := num, cause := reason } s1
  | none => s1

/-- R280, R282: a pause with a reason is cleared: the host's with 3142h, another one with it when nothing else pauses the
reshape. -/
def resumeFrom (num reason : Nat) (s : State) : State :=
  let s1 := s.updReshape num fun r => { r with reasons := r.reasons.filter (· != reason) }
  match s1.pool? num with
  | some p => if reason = 0 ∨ p.reshape.all (·.reasons.isEmpty) then raise p.home 0x3142 { pool := num, cause := reason } s1 else s1
  | none => s1

/-- R282, R352: a kerf affects a pool's home die: pools homed on it. -/
def kerfAt (s : State) (p : Pool) : Bool :=
  s.pair.kerf.isSome && s.pools.any fun q => q.home == p.home && s.pair.kerfPools.contains q.num

/-- R282: the reasons 1 to 3 that hold now. Reason 2 holds on until the work from the replacement is done. -/
def reasonsNow (s : State) (p : Pool) (r : Reshape) : List Nat :=
  let target := !r.undo
  let slotless (x : Nat) : Bool := (p.slotAt target x).isNone
  let bare := (List.range (p.geomOf target).n).any fun x =>
    (p.stateAt target x == some .failed && slotless x) ||
    (r.reasons.contains 2 && p.stateAt target x == some .replacing && slotless x && (workLeft s p).any fun w => w.1 == target && w.2.1 == x)
  (if (workLeft s p).isEmpty && (copyLeft s p).isEmpty then [] else [1]) ++ (if bare then [2] else []) ++
    (if kerfAt s p then [3] else [])

/-- R282: the automatic pauses and resumptions at a step or build boundary. -/
def boundary (num : Nat) (s : State) : State :=
  match s.pool? num with
  | none => s
  | some p =>
    match p.reshape with
    | none => s
    | some r =>
      let now := reasonsNow s p r
      let s1 := (now.filter fun x => !r.reasons.contains x).foldl (fun s x => pauseFor num x s) s
      (r.reasons.filter fun x => x != 0 && !now.contains x).foldl (fun s x => resumeFrom num x s) s1

/-- R280, R281: a mitre step is in flight: its boundary is still to come. -/
def stepOpen (p : Pool) : Bool := p.lock.any fun k => !k.done

/-- R281: a cancel takes effect: a mitre turns round, a veneer stops. -/
def beginCancel (ref : CmdRef) (r : Reshape) : Reshape :=
  let r := { r with cancelling := true, cancellers := r.cancellers ++ [ref] }
  if r.plan.mitre then { r with undo := true, down := !r.down, endAt := r.startBeta } else r

/-- R280, R281: what was asked for during a step takes effect at its boundary. -/
def takeAsked (num : Nat) (s : State) : State :=
  match (s.pool? num).bind (·.reshape) with
  | none => s
  | some r =>
    let s1 := s.updReshape num fun r =>
      let r1 := { r with pauseAsked := false, cancelAsked := none }
      (r.cancelAsked.map fun c => beginCancel c r1).getD r1
    if r.pauseAsked && !r.reasons.contains 0 then pauseFor num 0 s1 else s1

/-- RESHAPE CONTROL (R280, R281, R495). A resume during the step after whose end a pause was to begin takes the pause back without an
event: DESIGN CHOICE, R280 does not speak of it (assumption 43). -/
def reshapeControl (c : Cmd) (s : State) : State :=
  match s.pool? (c.entry.param 44 2) with
  | none => fail c.ref 0x0103 s
  | some p =>
    match p.reshape with
    | none => fail c.ref 0x0161 s
    | some r =>
      match c.entry.param 46 1 with
      | 0 => ok c.ref 0 (if r.reasons.contains 0 then s
          else if stepOpen p then s.updReshape p.num fun r => { r with pauseAsked := true } else pauseFor p.num 0 s)
      | 1 =>
        let s1 := if r.pauseAsked then s.updReshape p.num fun r => { r with pauseAsked := false } else s
        ok c.ref 0 (if r.reasons.contains 0 then resumeFrom p.num 0 s1 else s1)
      | 2 =>
        if r.cancelling || r.cancelAsked.isSome then ok c.ref 0 s
        else
          let s1 := s.updCmd c.ref fun c => { c with stage := .waiting }
          if stepOpen p then s1.updReshape p.num fun r => { r with cancelAsked := some c.ref } else s1.updReshape p.num (beginCancel c.ref)
      | _ => fail c.ref 0x0103 s

/-! ### The end of a reshape (R279, R281) -/

/-- R267: what refers to the new geometry refers to the pool's only geometry from now on. -/
def oneGeometry (num : Nat) (s : State) : State :=
  let fixF (f : Fetch) : Fetch := { f with newGeom := false }
  let mine (c : Cmd) : Bool := (s.vol? c.entry.vol.toNat).any fun v => v.pool == num
  let fixC (c : Cmd) : Cmd := { c with fetches := c.fetches.map fixF }
  let fixM (m : MCmd) : MCmd := match m.purpose with
    | .repair _ st q o => { m with purpose := .repair false st q o }
    | _ => m
  let old (m : MCmd) : Bool := m.pool == some num && match m.purpose with
    | .repair new .. => !new
    | _ => false
  let fixD (d : Destage) : Destage := { d with newGeom := false }
  { s with cmds := updIf mine fixC s.cmds, mcmds := (s.mcmds.filter fun m => !old m).map fun m => if m.pool == some num then fixM m else m,
           destages := updIf (fun d => d.pool == num) fixD s.destages }

/-- R276: dirty blocks of a pool whose content one layout already holds, when the other layout goes. -/
def settleHalves (num : Nat) (kept : Bool) (s : State) : State :=
  let mine := s.cache.filter fun b => b.dirty && b.half.isSome && (s.vol? b.vol).any fun v => v.pool == num
  mine.foldl (fun s b =>
    if b.half = some kept then cleanBlock b s else s.updBlk b.vol b.lba fun b => { b with half := none }) s

/-- R163: the dirty blocks whose stripes are queued. -/
def queuedBlocks (s : State) (p : Pool) : List (Nat × Nat) :=
  s.cache.filterMap fun b =>
    if !b.dirty then none
    else (s.vol? b.vol).bind fun v =>
      if v.pool == p.num && (placesOf p v b.lba).any (fun x => p.queued.contains x.number) then some (b.vol, b.lba) else none

/-- R268: the part of a list of stripes or tiles that belongs to one geometry, renamed to the pool's only one. -/
def onlyOf {α : Type} (new : Bool) (l : List (Bool × α)) : List (Bool × α) :=
  (l.filter fun e => e.1 == new).map fun e => (false, e.2)

/-- R269, R279: the members of the new geometry, in its order. -/
def newMembers (p : Pool) (r : Reshape) : List Member :=
  r.newNs.filterMap fun n => (p.all.find? fun m => m.ns == n).map fun m =>
    { m with slot := m.slot.filter fun t => decide (t < r.plan.geom.s) }

/-- R279: a removed member is released. -/
def releaseMember (p : Pool) (x : Member × Nat) (s : State) : State :=
  let s1 := if x.1.state = .failed then s
    else writeHeaders 4096 [(x.1.ns, zeros 4096)] (writeHeaders 0 [(x.1.ns, zeros 4096)] s)
  raise p.home 0x3146 { pool := p.num, item := x.2 } (releaseNs x.1.ns s1)

/-- R277, R279 step 1, R310: the map of a pool is that of the new geometry. -/
def switchMap (num : Nat) (r : Reshape) (s : State) : State :=
  let again := ((s.pool? num).map (queuedBlocks s)).getD []
  let move (v : Vol) : Vol := match r.tables.find? fun t => t.1 == v.num with
    | some t => { v with extents := t.2, x := r.plan.nt, zero := [], filling := [] }
    | none => { v with filling := [] }
  let s1 := oneGeometry num s
  let s2 := { s1 with vols := if r.plan.mitre then s1.vols else updIf (fun v => v.pool == num) move s1.vols }
  let s3 := s2.updPool num fun p =>
    { p with geom := r.geom, members := newMembers p r, pending := [], reshape := none, plan := none,
             labelGen := p.labelGen + 1, gens := onlyOf true p.gens, queued := [],
             rebuild := { p.rebuild with done := onlyOf true p.rebuild.done, copied := onlyOf true p.rebuild.copied, flight := [], jobs := [], beyond := [] } }
  queueBlocks again (settleHalves num true s3)

/-- R277, R279: the switch to the new geometry, and what follows it. -/
def completeReshape (num : Nat) (s : State) : State :=
  match s.pool? num with
  | none => s
  | some p =>
    match p.reshape with
    | none => s
    | some r =>
      let s4 := switchMap num r (mapSwitch p r 2 s)
      let live := (newMembers p r).filter fun m => m.state != .failed
      let labels := match s4.pool? num with
        | some q => labelsOf q
        | none => []
      let s5 := writeHeaders 4096 (live.map fun m => (m.ns, zeros 4096)) (writeHeaders 0 labels s4)
      let gone := p.members.zipIdx.filter fun x => !r.newNs.contains x.1.ns
      raise p.home 0x3143 { pool := num } (gone.foldl (fun s x => releaseMember p x s) s5)

/-- R281: the map of a pool stays that of the old geometry. -/
def keepMap (num : Nat) (s : State) : State :=
  settleHalves num false (s.updPool num fun p =>
    { p with reshape := none, plan := none, gens := onlyOf false p.gens, pending := p.pending.map (fun m => { m with slot := none }),
             queued := p.queued.filter fun n => decide (n < 2 ^ 47),
             rebuild := { p.rebuild with done := onlyOf false p.rebuild.done, copied := onlyOf false p.rebuild.copied, flight := [], jobs := [], beyond := [] } })

/-- R281: MAP SWITCH KIND 3: the old geometry stays, and the commands that asked for the cancel complete. -/
def endCancel (num : Nat) (s : State) : State :=
  match s.pool? num with
  | none => s
  | some p =>
    match p.reshape with
    | none => s
    | some r =>
      let live := p.all.filter fun m => m.state != .failed
      let s2 := writeHeaders 4096 (live.map fun m => (m.ns, zeros 4096)) (keepMap num (mapSwitch p r 3 s))
      let s3 := writeHeaders 0 ((p.pending.filter fun m => m.state != .failed).map fun m => (m.ns, zeros 4096)) s2
      r.cancellers.foldl (fun s c => ok c 0 s) (raise p.home 0x3144 { pool := num } s3)

/-! ### Mitre steps (R269 to R272) -/

/-- R270: the target tile of the next step, and the range of pool data blocks that it moves. -/
def stepRange (p : Pool) (r : Reshape) : Nat × Nat × Nat :=
  let tb := (p.geomOf (!r.undo)).tb
  let t := if r.down then (r.beta - 1) / tb else r.beta / tb
  (t, t * tb, (t + 1) * tb)

/-- R271: a stripe of a geometry has blocks in the range, or lies in the rows of the target tile. -/
def touches (p : Pool) (new : Bool) (stripe t lo hi : Nat) : Bool :=
  let g := p.geomOf new
  let a := stripe * (g.k * g.sb)
  (decide (a < hi) && decide (lo < a + g.k * g.sb)) || g.rowOf stripe / 64 == t

/-- R271: the dirty blocks of a range of a pool. -/
def dirtyIn (s : State) (num lo hi : Nat) : List CBlk :=
  s.cache.filter fun b => b.dirty && (s.vol? b.vol).any fun v =>
    v.pool == num && decide (lo ≤ v.pb b.lba) && decide (v.pb b.lba < hi)

/-- R135, R271: a dirty block of a range lies in a unit that still reads as zeros: zero-fill goes first, and the unit is no longer marked. -/
def unfilled (s : State) (num lo hi : Nat) : Bool :=
  (dirtyIn s num lo hi).any fun b => (s.vol? b.vol).any fun v => v.zero.contains (b.lba / v.x)

/-- R135, R271, R363: the step before has not released its lock, a block of its range is still at the partner or waits for zero-fill, a destage or
the fetch of a read is in progress, or a rewrite is out, on what the step touches. -/
def stepHeld (s : State) (p : Pool) (t lo hi : Nat) : Bool :=
  p.lock.isSome || unfilled s p.num lo hi || workOpen s p true t || workOpen s p false t || (s.cache.any fun b => b.remote.isSome && (s.vol? b.vol).any fun v => v.pool == p.num && decide (lo ≤ v.pb b.lba) && decide (v.pb b.lba < hi)) ||
  (s.destages.any fun d => d.pool == p.num && touches p d.newGeom d.stripe t lo hi) ||
  s.cmds.any fun c => (s.vol? c.entry.vol.toNat).any (fun v => v.pool == p.num) &&
    c.fetches.any fun f => touches p f.newGeom f.stripe t lo hi

/-- R270: the mitre has reached its end. -/
def atEnd (r : Reshape) : Bool := if r.down then decide (r.beta ≤ r.endAt) else decide (r.endAt ≤ r.beta)

/-- R231, R271, R275, R283: a pool with the strips that members which failed earlier, and owe nothing any more, have in a tile of a
geometry that is written whole at their spare holders; one that has failed since still has work, and its positions are absent. -/
def tilePool (s : State) (p : Pool) (new : Bool) (t : Nat) : Pool :=
  let owing (x : Nat) : Bool := (workLeft s p).any fun w => p.nsAt w.1 w.2.1 == p.nsAt new x
  let fresh := ((List.range (p.geomOf new).n).filter fun x =>
    p.stateAt new x == some .failed && (p.slotAt new x).isSome && !owing x).map fun x => (new, x, t)
  { p with rebuild := { p.rebuild with done := fresh ++ p.rebuild.done.filter fun e => !fresh.contains e } }

/-- R271, R283: a tile of a geometry has been written whole: generation 1, and the strips of failed members are where
their holders are. -/
def tileWritten (num : Nat) (new : Bool) (t : Nat) (s : State) : State :=
  match s.pool? num with
  | none => s
  | some p =>
    let sts := (p.geomOf new).stripesOf t
    let r := (tilePool s p new t).rebuild
    s.updPool num fun p =>
      { p with gens := (sts.map fun st => (new, st, (1 : W32))) ++ p.gens.filter fun e => !(e.1 == new && sts.contains e.2.1), rebuild := r }

/-- R271: the line moves across the target tile. -/
def moveLine (lo hi skip : Nat) (r : Reshape) : Reshape :=
  { r with beta := if r.down then lo else hi, skipped := r.skipped + skip }

/-! ### Steps -/

/-- R271 step 1: the content of an owned block as the step stages it: its dirty or clean copy, zeros where it reads as zeros or is lost
(R246), else what the geometry of R269 holds, reconstructed where its own block cannot be read; none where that is impossible. -/
def stagedContent (s : State) (p : Pool) (v : Vol) (l : Nat) : Option (Bytes × Bytes) :=
  let zero := (zeros v.b, zeroPi v.pif (zeros v.b))
  match s.cached? v.num l with
  | some b => some (b.data, b.pi)
  | none =>
    if v.isZero l || p.isLost v.num l then some zero
    else
      let pl := placeOf p v l
      (stripBest s p pl.new pl.stripe pl.q pl.off).map (splitCoded v)

/-- R271 step 1: an owned block as the step stages it. What cannot be had is staged as zeros. Like dirty data it is mirrored: at once on
a shadow die, by a message to the partner. -/
def stagedCopy (s : State) (p : Pool) (v : Vol) (l : Nat) : CBlk :=
  let x := (stagedContent s p v l).getD (zeros v.b, zeroPi v.pif (zeros v.b))
  match (s.cached? v.num l).filter (·.dirty) with
  | some b => { b with pinned := true }
  | none =>
    { vol := v.num, lba := l, data := x.1, pi := x.2, dirty := true, mirrored := mirrorPeer s p == some true,
      onShadow := mirrorPeer s p == some true, jsn := 0, since := s.clk.tick, used := s.clk.tick, pinned := true }

/-- R271: the owned blocks of a range of pool data blocks: (volume, LBA). -/
def ownedIn (s : State) (p : Pool) (lo hi : Nat) : List (Vol × Nat) :=
  (List.range (hi - lo)).filterMap fun i => (ownerOf s p.num (lo + i)).bind fun x => (s.vol? x.1).map fun v => (v, x.2)

/-- R271 step 1: every owned block of the range is staged in the protected region, pinned. One that cannot be had is entered into the lost
block list: DESIGN CHOICE, R271 does not say (assumption 43). -/
def stageStep (p : Pool) (lo hi : Nat) (s : State) : State :=
  let l := ownedIn s p lo hi
  let none_ := l.filter fun x => (stagedContent s p x.1 x.2).isNone
  loseMany p.num (none_.map fun x => (x.1.num, x.2)) (l.foldl (fun s (v, l) =>
    let b := stagedCopy s p v l
    { s with cache := s.cache.filter (fun x => !(x.vol == v.num && x.lba == l)) ++ [b] }) { s with uniq := s.uniq + 1 })

/-- R156, R271: the staged copies of a range are mirrored, where the partner is the mirror peer. -/
def stagedMirrored (s : State) (p : Pool) (lo hi : Nat) : Bool :=
  mirrorPeer s p != some false || (dirtyIn s p.num lo hi).all (·.mirrored)


/-- R271 steps 1 to 3: a step stages its range, takes its lock, and programs its STRIPE INTENT, which is then to be mirrored. -/
def beginStep (p : Pool) (r : Reshape) (s : State) : State :=
  let (t, lo, hi) := stepRange p r
  let new := !r.undo
  let s1 := stageStep p lo hi s
  let body : JBody := .intent t new 0 1 0 0 5 0 0 (Config.freeNat s1.uniq) 0
  (programJ p.home (some p.num) body s1).updPool p.num fun p =>
    { p with lock := some { lo := lo, hi := hi, since := s.clk.tick, cls := 3, tile := t, new := new, jsn := nextJsn s1 p.home } }

/-- R267, R271 step 4, R275 step 3: the coded region of a block written in a tile, of generation 1; zeros where no volume owns it. -/
def tileCoded (g : Geom) (x : Option (Bytes × Bytes)) : Bytes :=
  match x with
  | some y => codedOf y.1 y.2 1
  | none => codedOf (zeros g.b) [] 1

/-- R271 step 4, R275 step 3: every stripe of a tile of a geometry is written, data and parity, to the holders of its positions, from
what each of its data blocks is to hold. -/
def writeTile (p : Pool) (new : Bool) (tile : Nat) (what : Nat → Option (Bytes × Bytes)) (s : State) : State :=
  let g := p.geomOf new
  let d := carrier s p new tile
  let after_ := tilePool s p new tile
  (g.stripesOf tile).foldl (fun s st => (List.range g.sb).foldl (fun s o =>
    let data := (List.range g.k).map fun q => tileCoded g (what (st * (g.k * g.sb) + q * g.sb + o))
    (data ++ (List.range g.m).map fun i => parityRow g.k i data).zipIdx.foldl (fun s (x, q) =>
      putCoded d p new st q o 1 x (after_.writePos new st q) s) s) s) s

/-- R271 step 4: what a pool data block of a step's tile is to hold: its pinned copy. -/
def pinnedAt (s : State) (p : Pool) (pb : Nat) : Option (Bytes × Bytes) :=
  (ownerOf s p.num pb).bind fun x => (s.cached? x.1 x.2).map fun b => (b.data, b.pi)

/-- R271 step 4: the target tile is written. -/
def writeStep (p : Pool) (k : StepLock) (s : State) : State :=
  (writeTile p k.new k.tile (pinnedAt s p) { s with uniq := s.uniq + 1 }).updPool p.num fun p => { p with lock := some { k with written := true } }

/-- R271 step 5: once the writes have completed PARITY GENERATION closes the intent, CHECKPOINT gives the new line; the blocks of
the copy become clean and stay, pinned until the lock is released. It is a step boundary (R280, R281). -/
def commitStep (p : Pool) (k : StepLock) (s : State) : State :=
  let blocks := dirtyIn s p.num k.lo k.hi
  let s2 := programJ p.home (some p.num) (.parityGen k.tile k.new 1 k.jsn) s
  let s3 := reshapeCheckpoint p.num 1 0 ((tileWritten p.num k.new k.tile s2).updReshape p.num (moveLine k.lo k.hi 0))
  let s4 := retireCommits (blocks.foldl (fun s b => cleanBlock b s) s3)
  takeAsked p.num (blocks.foldl (fun s b => s.updBlk b.vol b.lba fun b => { b with pinned := true })
    (s4.updPool p.num fun p => { p with lock := some { k with done := true, since := s.clk.tick } }))

/-- R271 step 5: the steps whose writes have all completed commit. -/
def endSteps (s : State) : State :=
  s.pools.foldl (fun s p => match p.lock with
    | some k => if k.written && !k.done && s.serves p.home && !p.away && journalRoom s p.home && !workOpen s p k.new k.tile then commitStep p k s else s
    | none => s) s

/-- R283, R315: the step whose METHOD 5 intent is open is redone from its pinned copy, with 3145h. -/
def redoStep (num : Nat) (s : State) : State :=
  match s.pool? num with
  | none => s
  | some p =>
    match p.reshape with
    | none => s
    | some r =>
      let (t, lo, hi) := stepRange p r
      let open_ := ((s.die? p.home).map (·.jr.entries)).getD [] |>.find? fun e => e.pool == some num && match e.body with
        | .intent _ _ _ _ _ _ 5 _ _ _ _ => true
        | _ => false
      match open_ with
      | none => s
      | some e => raise p.home 0x3145 { pool := num } (writeStep p
          { lo := lo, hi := hi, since := s.clk.tick, cls := 3, tile := t, new := !r.undo, jsn := e.jsn } s)

/-- R270, R271: what a MITRE STEP of a pool does: a range without owned blocks is skipped; else the step begins, or, once its copy and its
intent are mirrored, writes. -/
def runStep (p : Pool) (r : Reshape) (s : State) : State :=
  let (_, lo, hi) := stepRange p r
  match p.lock with
  | some k =>
    if k.written || k.done || decide (s.clk.tick ≤ k.since) || !stagedMirrored s p k.lo k.hi || !mirroredAt s p.home k.jsn then s else writeStep p k s
  | none =>
    if (ownedRanges s p.num).any fun x => decide (x.1 < hi) && decide (lo < x.2) then beginStep p r s
    else reshapeCheckpoint p.num 1 0 (s.updReshape p.num (moveLine lo hi 1))

/-- R289, R307: the pool's reshape may go on: the package runs, in P0 or P1, the home die is in service, its journal has room, the pool
serves, and no stage holds the reshape's work. -/
def reshapeRuns (s : State) (p : Pool) : Bool :=
  s.running && s.serves p.home && p.offline.isNone && !p.away && decide (s.pw.pstate < 2) && journalRoom s p.home && !heldWork s (.reshape p.num)

/-- R270, R271, R279, R282, R293, R307: a MITRE STEP of a pool: the boundary first; then a step when nothing pauses or holds it, or
the rest of the one in flight; and the switch when the line has reached its end. -/
def mitreStep (num : Nat) (s0 : State) : State :=
  let s := if (s0.pool? num).any (reshapeRuns s0) then (if (s0.pool? num).any (·.lock.isSome) then s0 else boundary num s0) else s0
  match s.pool? num with
  | none => s
  | some p =>
    match p.reshape with
    | none => s
    | some r =>
      let (t, lo, hi) := stepRange p r
      if !r.plan.mitre || !reshapeRuns s p then s
      else if p.lock.isSome then runStep p r s
      else if !r.reasons.isEmpty || (mirrorPeer s p).isNone || stepHeld s p t lo hi then s
      else if !atEnd r then runStep p r s
      else if r.undo then s
      else completeReshape num s

/-! ### Veneer (R273 to R277) -/

/-- R274, R275: the next new tile to build: tile, volume, and its first LBA. -/
def nextBuild (r : Reshape) : Option (Nat × Nat × Nat) :=
  match ((r.tables.flatMap (·.2)).filter fun t => !r.built.contains t).min? with
  | none => none
  | some t => (r.tables.find? fun x => x.2.contains t).bind fun x =>
      (x.2.findIdx? (· == t)).map fun i => (t, x.1, i * r.plan.nt)

/-- R275: a destage is in progress on an old stripe that holds blocks of a volume range. -/
def buildHeld (s : State) (p : Pool) (vol lba n : Nat) : Bool :=
  s.destages.any fun d => d.pool == p.num && !d.newGeom && d.snap.any fun x =>
    x.1.vol == vol && decide (lba ≤ x.1.lba) && decide (x.1.lba < lba + n)

/-- R275 step 2: what a pool data block of a new tile is to hold: the block's dirty copy, or what the volume's current mapping gives;
beyond the volume's last block zeros. -/
def builtAt (s : State) (p : Pool) (r : Reshape) (vol lba t pb : Nat) : Option (Bytes × Bytes) :=
  let l := lba + (pb - t * r.plan.nt)
  (s.vol? vol).bind fun v =>
    if v.blocks ≤ l then none
    else match (s.cached? vol l).filter (·.dirty) with
      | some b => some (b.data, b.pi)
      | none =>
        if v.isZero l || p.isLost vol l then some (zeros v.b, zeroPi v.pif (zeros v.b))
        else
          let pl := placeOf p v l
          (stripBest s p pl.new pl.stripe pl.q pl.off).map (splitCoded v)

/-- R275 step 2: the blocks of a new tile's volume range that cannot be had. -/
def unbuildable (s : State) (p : Pool) (r : Reshape) (vol lba t : Nat) : List (Nat × Nat) :=
  let blocks := ((s.vol? vol).map (·.blocks)).getD 0
  ((List.range r.plan.nt).filter fun i => decide (lba + i < blocks) && (builtAt s p r vol lba t (t * r.plan.nt + i)).isNone).map fun i => (vol, lba + i)

/-- R275, R282, R307: a VENEER BUILD of a pool: the boundary, then the writes of the next tile. A block that cannot be had is built as zeros
and entered into the lost block list: DESIGN CHOICE, R275 does not say (assumption 43). -/
def veneerBuild (num : Nat) (s0 : State) : State :=
  let s := if (s0.pool? num).any fun p => reshapeRuns s0 p && (p.reshape.bind (·.building)).isNone then boundary num s0 else s0
  match s.pool? num with
  | none => s
  | some p =>
    match p.reshape with
    | none => s
    | some r =>
      match nextBuild r with
      | none => s
      | some (t, vol, lba) =>
        if r.plan.mitre || !r.reasons.isEmpty || r.cancelling || r.building.isSome || !reshapeRuns s p || buildHeld s p vol lba r.plan.nt then s
        else
          let s1 := { s with uniq := s.uniq + 1 }
          loseMany num (unbuildable s1 p r vol lba t)
            ((writeTile p true t (builtAt s1 p r vol lba t) s1).updReshape num fun r => { r with building := some t })

/-- R275 step 4: a build whose writes have all completed has its checkpoint, and counts as built. -/
def endBuilds (s : State) : State :=
  s.pools.foldl (fun s p => match p.reshape.bind (·.building) with
    | some t =>
      if s.serves p.home && !p.away && journalRoom s p.home && !workOpen s p true t then
        reshapeCheckpoint p.num 1 0 (tileWritten p.num true t (s.updReshape p.num fun r => { r with built := insNat t r.built, building := none }))
      else s
    | none => s) s

/-- R277, R280, R282: a VENEER SWITCH of a pool that nothing pauses: every tile is built and no old-geometry destage, or read of the old layout, is
open. -/
def veneerSwitch (num : Nat) (s : State) : State :=
  match s.pool? num with
  | none => s
  | some p =>
    match p.reshape with
    | none => s
    | some r =>
      if r.plan.mitre || r.cancelling || !r.reasons.isEmpty || (nextBuild r).isSome || !reshapeRuns s p ||
          (s.destages.any fun d => d.pool == num && !d.newGeom) ||
          (s.cmds.any fun c => !c.fetches.isEmpty && (s.vol? c.entry.vol.toNat).any fun v => v.pool == num) then s
      else completeReshape num s

/-- R281, R307: a cancel can end: the line is back at its start, or no new-geometry destage is open. -/
def cancelReady (s : State) (p : Pool) (r : Reshape) : Bool :=
  r.cancelling && r.reasons.isEmpty && decide (s.pw.pstate < 2) && p.offline.isNone && s.running && s.serves p.home && p.lock.isNone && r.building.isNone &&
  (if r.plan.mitre then atEnd r else !s.destages.any fun d => d.pool == p.num && d.newGeom)

/-- R281: a RESHAPE CANCELLED of a pool. -/
def reshapeCancelled (num : Nat) (s : State) : State :=
  match s.pool? num with
  | none => s
  | some p =>
    match p.reshape with
    | none => s
    | some r => if cancelReady s p r then endCancel num s else s

end Sys2Proof.Machine
end

