-- ==== Sys2Proof/Machine/Rebuild.lean ====
section
/-! DEFINITION. Rebuild, copy-back, scrub and the copies of the lost block list (R231 to R257). A row of a tile is the end
of its reads: its writes go out as member commands (Strips), and the tile is done once they have ended. -/

namespace Sys2Proof.Machine

/-! ### Sweeps (R233, R234, R242, R244) -/

/-- The pool's background work can run: the package runs, the home die is in service, its journal has room (R169), the pool serves. -/
def poolRuns (s : State) (p : Pool) : Bool := s.running && s.serves p.home && journalRoom s p.home && p.offline.isNone && !p.away

/-- R233: a spill segment of the pool still has a copy on a failed member. -/
def copiesOwed (s : State) (p : Pool) : Bool :=
  (s.die? p.home).any fun x => x.jr.segs.any fun g =>
    g.pool == p.num && g.copies.any fun i => (p.members[i]?).any fun m => m.state == .failed

/-- R307: P2 lets rebuild of classes 00h and 01h run, P3 no background work. -/
def powerStops (s : State) (cls : Nat) : Bool := decide (3 ≤ s.pw.pstate) || (s.pw.pstate == 2 && decide (1 < cls))

/-- R241: a host write waits at the planning stage for a broken stripe of a tile. -/
def writeWaits (s : State) (p : Pool) (new : Bool) (tile : Nat) : Bool :=
  s.cmds.any fun c => c.stage == .working && writeKind c.op && (s.vol? c.entry.vol.toNat).any fun v => v.pool == p.num &&
    (unitBlocks p v c c.units).any fun l => brokenHere p v l && (placeOf p v l).new == new &&
      (p.geomOf new).rowOf (placeOf p v l).stripe / 64 == tile

/-- R234: the tiles that the sweep in progress has left. -/
def sweepLeft (s : State) (p : Pool) : List (Bool × Nat) :=
  (((workLeft s p).filter (sweepWork p).contains).map fun w => (w.1, w.2.2)).eraseDups

/-- R234: tiles of the sweep in progress class by class, and in each in ascending tile number. -/
def byClass (p : Pool) (l : List (Bool × Nat)) : List (Bool × Nat) :=
  (List.range 6).flatMap fun c => l.filter fun t => sweepClass p t.1 t.2 == c

/-- R234, R241: the tiles that the sweep in progress has left, in the order in which they are dispatched: those that a host write waits
for, then sweep order. -/
def sweepOrder (s : State) (p : Pool) : List (Bool × Nat) :=
  let left := sweepLeft s p
  let waited := left.filter fun t => writeWaits s p t.1 t.2
  waited ++ byClass p (left.filter fun t => !waited.contains t)

/-- R234, R235, R243, R307: the tiles that are dispatched now: in that order those that neither a pause nor the power state holds back and
that some die can carry, each die that can carry them having at most four in flight. -/
def sweepNext (s : State) (p : Pool) : List (Bool × Nat) :=
  let next := (sweepOrder s p).filter fun t => !p.rebuild.flight.contains t && !(p.rebuild.paused && decide (1 < sweepClass p t.1 t.2)) &&
    !powerStops s (sweepClass p t.1 t.2) && !(carriers s p t.1 t.2).isEmpty
  let room (x : (Bool × Nat) × Nat) : Bool :=
    let ds := carriers s p x.1.1 x.1.2
    decide (((p.rebuild.flight ++ next.take x.2).filter fun u => (carriers s p u.1 u.2).all ds.contains).length < 4 * ds.length)
  (next.zipIdx.takeWhile room).map (·.1)

/-- R235, R238, R307: tiles of a running sweep are dispatched, but none once a member has failed or while P2 or P3 is to be entered; a tile in flight that has no work left, or
that no die can carry any more, is not in flight. -/
def dispatchTiles (num : Nat) (s : State) : State :=
  match s.pool? num with
  | none => s
  | some p =>
    if !p.rebuild.running then s
    else
      let left := sweepLeft s p
      let kept := p.rebuild.flight.filter fun t => p.inJob t.1 t.2 || (left.contains t && !(carriers s p t.1 t.2).isEmpty)
      let q := { p with rebuild := { p.rebuild with flight := kept } }
      let new := if p.rebuild.resort || p.unsettled || !poolRuns s p || s.pw.chg.any (fun g => decide (2 ≤ g.target)) then [] else sweepNext s q
      if kept ++ new = p.rebuild.flight then s
      else s.updPool num fun p => { p with rebuild := { p.rebuild with flight := kept ++ new } }

/-- R235, R242: the stop point: the first tile in sweep order that is not finished, with its class. -/
def sweepStop (s : State) (p : Pool) : Nat × Nat :=
  match (byClass p (sweepLeft s p)).head? with
  | some t => (sweepClass p t.1 t.2, t.2)
  | none => (p.rebuild.cls, p.rebuild.stop)

/-- R203, R242: the holder assignments of a pool: the spare slots of its members. -/
def holdersNow (p : Pool) : List (Bool × Nat × Nat) :=
  p.geoms.flatMap fun new => (List.range (p.geomOf new).n).filterMap fun x => (p.slotAt new x).map fun t => (new, x, t)

/-- R242: the sweep records with one more; where a 65th would be needed all are discarded, and every work counts as outstanding
again: what rebuild has put into spare or onto a replacement without a slot. -/
def RebuildSt.record (r : RebuildSt) (slotless : Bool × Nat × Nat → Bool) (w : Sweep) : RebuildSt :=
  if 64 ≤ r.records.length then { r with records := [w], done := [], redo := [], copied := r.copied.filter fun e => !slotless e }
  else
    let past := match r.records.getLast? with
      | some l => r.records.dropLast ++ [{ l with cls := r.cls, stop := r.stop }]
      | none => []
    { r with records := past ++ [w] }

/-- R234, R242, R244: a sweep starts: it fixes the set of its work. -/
def startSweep (num : Nat) (s : State) : State :=
  let begun (p : Pool) (w : Sweep) : RebuildSt :=
    { p.rebuild.record (fun e => (p.slotAt e.1 e.2.1).isNone) w with
        running := true, resort := false, flight := [], beyond := [], sweep := (p.rebuild.sweep + 1) % 65536 }
  let s1 := s.updPool num fun p => { p with rebuild := begun p ⟨[], holdersNow p, 0, 0, 0⟩ }
  match s1.pool? num with
  | none => s1
  | some q =>
    let all := { q with rebuild := { q.rebuild with records := q.rebuild.records.dropLast ++ [⟨workLeft s1 q, holdersNow q, 0, 0, q.rebuild.sweep⟩] } }
    let (cls, stop) := sweepStop s1 all
    let last : Sweep := ⟨workLeft s1 q, holdersNow q, cls, stop, q.rebuild.sweep⟩
    dispatchTiles num (raise q.home 0x3100 { pool := num, item := q.rebuild.sweep } (sweepCheckpoint num 0 (s1.updPool num fun p =>
      { p with rebuild := { p.rebuild with cls := cls, stop := stop, umbra := (lowestClass s1 q).any fun c => decide (c ≤ 1),
                                           records := p.rebuild.records.dropLast ++ [last] } })))

/-- R307: in the power state some tile of the work left may be rebuilt. -/
def sweepAllowed (s : State) (p : Pool) : Bool := (workLeft s p).any fun w => !powerStops s (tileClass p w.1 w.2.2)

/-- REBUILD STARTED (R233, R307). -/
def rebuildStart (num : Nat) (s : State) : State :=
  match s.pool? num with
  | none => s
  | some p =>
    if !poolRuns s p || p.unsettled || p.rebuild.running || !sweepAllowed s p || copiesOwed s p then s else startSweep num s

/-- R238, R255: a drained member leaves, which ends no sweep; a replaced one is in use again (R253). -/
def finishMember (num : Nat) (i : Nat) (pend : Bool) (s : State) : State :=
  match s.pool? num with
  | none => s
  | some p =>
    match (if pend then p.pending else p.members)[i]? with
    | none => s
    | some m =>
      let owed := (workLeft s p ++ copyLeft s p).any fun w => ((p.memberAt w.1 w.2.1).map (·.ns)) == some m.ns
      if owed then s
      else if m.state = .draining then
        (failMember m.ns 7 s).updPool p.num fun q => { q with rebuild := { q.rebuild with resort := p.rebuild.resort } }
      else if m.state = .replacing then
        let back (m : Member) : Member := { m with state := .online, slot := none }
        let mine (e : Bool × Nat × Nat) : Bool := ((p.memberAt e.1 e.2.1).map (·.ns)) == some m.ns
        raise p.home 0x3105 { pool := num, item := if pend then 0x8000 + i else i } (s.updPool num fun p =>
          { p with members := if pend then p.members else p.members.modify i back,
                   pending := if pend then p.pending.modify i back else p.pending,
                   rebuild := { p.rebuild with done := p.rebuild.done.filter fun e => !mine e,
                                               copied := p.rebuild.copied.filter fun e => !mine e } })
      else s

/-- R253, R255: every member whose work has come to its end. -/
def finishMembers (num : Nat) (s : State) : State :=
  match s.pool? num with
  | none => s
  | some p =>
    (List.range p.pending.length).foldl (fun s i => finishMember num i true s)
      ((List.range p.members.length).foldl (fun s i => finishMember num i false s) s)

/-- R244: 3103h once the last broken or umbra stripe with work is gone. -/
def noteUmbra (num : Nat) (s : State) : State :=
  match s.pool? num with
  | none => s
  | some p =>
    let now := (lowestClass s p).any fun c => decide (c ≤ 1)
    if p.rebuild.umbra == now then s
    else
      let s1 := s.updPool num fun p => { p with rebuild := { p.rebuild with umbra := now } }
      if now then s1 else raise p.home 0x3103 { pool := num } s1

/-- R233, R234, R244: what a rebuild reports once work has gone: 3103h, and at the end of the sweep 3102h when no work is left, or
the next sweep when there is work that this one did not have (R307: in the power state's limits); else what can be dispatched is. -/
def sweepProgress (num : Nat) (s0 : State) : State :=
  let s := noteUmbra num s0
  match s.pool? num with
  | none => s
  | some p =>
    if !p.rebuild.running || p.rebuild.resort || !(sweepLeft s p).isEmpty then dispatchTiles num s
    else if (workLeft s p).isEmpty then
      raise p.home 0x3102 { pool := num } (sweepCheckpoint num 3 (s.updPool num fun p =>
        { p with rebuild := { p.rebuild with running := false, paused := false, records := [], redo := [], resort := false, flight := [], beyond := [] } }))
    else if p.unsettled || !sweepAllowed s p then s
    else startSweep num s

/-! ### Tiles (R236, R238, R239, R243) -/

/-- R239: the offsets of a stripe that lose blocks, each with its bad positions: every offset of a broken stripe, and the
offsets found with bad blocks. -/
def lossyOffsets (p : Pool) (new : Bool) (bad : List BadOff) (st : Nat) : List (Nat × List Nat) :=
  let g := p.geomOf new
  let hits := bad.filter fun b => b.stripe == st && decide (b.off < g.sb)
  if g.m < p.lack new st then (List.range g.sb).map fun o => (o, (hits.find? fun b => b.off == o).elim [] (·.bad))
  else hits.map fun b => (b.off, b.bad)

/-- R239, R245: the blocks of volumes that a stripe loses. -/
def stripeLoss (s : State) (p : Pool) (new : Bool) (bad : List BadOff) (st : Nat) : List (Nat × Nat) :=
  let g := p.geomOf new
  (lossyOffsets p new bad st).flatMap fun (o, b) =>
    (lostAt p new st b).filterMap fun q => ownerAt s p new (st * (g.k * g.sb) + q * g.sb + o)

/-- R236, R239: what a rebuilt tile loses, stripe by stripe; the blocks of one stripe are entered as the ranges they make. -/
def loseTile (p : Pool) (new : Bool) (tile : Nat) (bad : List BadOff) (s : State) : State :=
  ((p.geomOf new).stripesOf tile).foldl (fun s st => loseMany p.num (stripeLoss s p new bad st) s) s

/-- R231, R234, R238, R252: the work of a tile is done, and it is no longer in flight: strips in their holders or on a replacement; not
what has been replaced or has failed since, and what lost a holder is to be done again. -/
def workDone (num : Nat) (j : TileJob) (s : State) : State :=
  s.updPool num fun p =>
    let e (x : Nat) : Bool × Nat × Nat := (j.new, x, j.tile)
    let same (w : Nat × Bool) : Bool := (p.stateAt j.new w.1 == some .replacing) == w.2 && p.owes j.new w.1 j.tile && !j.again.contains w.1
    let xs := j.work.filter same
    let onto := (xs.filter (·.2)).map (·.1)
    let into := (xs.filter (!·.2)).map (·.1)
    let lost := j.again.filter fun x => p.owes j.new x j.tile
    { p with rebuild := { p.rebuild with
        done := into.map e ++ p.rebuild.done.filter fun w => !(onto.any fun x => w == e x)
        copied := onto.map e ++ p.rebuild.copied
        flight := p.rebuild.flight.filter (· != (j.new, j.tile))
        jobs := p.rebuild.jobs.filter (· != j)
        redo := lost.map e ++ p.rebuild.redo.filter fun w => !((xs.map (·.1) ++ lost).any fun x => w == e x) } }

/-- R234, R235: a class and tile lie behind a stop point in sweep order. -/
def afterStop (cls stop : Nat) (e : Nat × Bool × Nat) : Bool := decide (cls < e.1) || (cls == e.1 && decide (stop < e.2.2))

/-- R235: the stop point once a tile of a class is finished, and the tiles that are finished beyond it. -/
def moveStop (num cls : Nat) (new : Bool) (tile : Nat) (s : State) : State :=
  match s.pool? num with
  | none => s
  | some p =>
    let (c, stop) := sweepStop s p
    s.updPool num fun p =>
      { p with rebuild := { p.rebuild with cls := c, stop := stop, beyond := ((cls, new, tile) :: p.rebuild.beyond).filter (afterStop c stop) } }

/-- R236: a rebuild's work on a tile: the members whose work it is, and whether it goes onto them. -/
def tileJob (p : Pool) (new : Bool) (tile : Nat) : TileJob :=
  ⟨new, tile, none, ((List.range (p.geomOf new).n).filter fun x => p.sweeps new x tile).map fun x => (x, p.stateAt new x == some .replacing), []⟩

/-- A tile's writes are out. -/
def addJob (num : Nat) (j : TileJob) (s : State) : State :=
  s.updPool num fun p => { p with rebuild := { p.rebuild with jobs := p.rebuild.jobs ++ [j] } }

/-- REBUILD TILE DONE (R234 to R236, R239, R307): the strips of a tile in flight have been read and reconstructed, and its writes go
out; it is done once each of them has completed. Which of the tiles in flight comes first the spec does not fix. -/
def rebuildTile (num tile : Nat) (new : Bool) (bad : List BadOff) (s : State) : State :=
  match s.pool? num with
  | none => s
  | some p =>
    if !poolRuns s p || heldWork s (.rebuild num) || !p.rebuild.running || !p.rebuild.flight.contains (new, tile) || tileHeld s p new tile then s
    else addJob num (tileJob p new tile) (loseTile p new tile bad (mendTile p new tile bad { s with uniq := s.uniq + 1 }))

/-- R234, R235, R236, R242 to R244, R253, R255: every write of a tile's rebuild has completed. -/
def endTile (num : Nat) (j : TileJob) (s : State) : State :=
  match s.pool? num with
  | none => s
  | some p =>
    let s1 := moveStop num (sweepClass p j.new j.tile) j.new j.tile (workDone num j s)
    boundary num (sweepProgress num (finishMembers num (sweepCheckpoint num 1 s1)))

/-- REBUILD RESORTED (R238): a member failed during the sweep, the tiles in flight have finished, and a new sweep starts. -/
def rebuildResort (num : Nat) (s : State) : State :=
  match s.pool? num with
  | none => s
  | some p =>
    if !poolRuns s p || p.unsettled || !p.rebuild.running || !p.rebuild.resort || !p.rebuild.flight.isEmpty then s
    else
      let s1 := raise p.home 0x3101 { pool := num } s
      if (workLeft s p).isEmpty then
        sweepProgress num (s1.updPool num fun p => { p with rebuild := { p.rebuild with resort := false } })
      else startSweep num s1

/-! ### Copy-back (R252, R253) -/

/-- R206, R238, R252: a tile is on the replacement x: work of others that is to be done again there is done whole. -/
def copiedTo (new : Bool) (x tile : Nat) (p : Pool) : Pool :=
  let meets (e : Bool × Nat × Nat) : Bool := e.1 == new && e.2.2 == tile && (List.range 64).any fun r => (p.spares new (64 * tile + r) e.2.1).contains x
  { p with rebuild := { p.rebuild with copied := (new, x, tile) :: p.rebuild.copied, redo := p.rebuild.redo.filter fun e => !meets e } }

/-- R252: the next tile that copy-back of a member takes, in ascending order. -/
def copyNext (s : State) (p : Pool) (new : Bool) (x : Nat) : Option Nat :=
  (((copyLeft s p).filter fun w => w.1 == new && w.2.1 == x).map (·.2.2)).min?

/-- COPY BACK TILE (R252, R307): the next tile of a member in ascending order goes out to the replacement; it is there once each
of its writes has completed. -/
def copyBack (num x tile : Nat) (new : Bool) (s : State) : State :=
  match s.pool? num with
  | none => s
  | some p =>
    if !poolRuns s p || heldWork s (.copyBack num) || powerStops s 5 || copyNext s p new x != some tile || tileHeld s p new tile then s
    else addJob num ⟨new, tile, some x, [], []⟩ (copyTile p new x tile { s with uniq := s.uniq + 1 })

/-- R252, R253: every write of a tile's copy-back has completed: the tile is on the replacement, if that is still one. -/
def endCopy (num x : Nat) (j : TileJob) (s : State) : State :=
  let s1 := s.updPool num fun p => { p with rebuild := { p.rebuild with jobs := p.rebuild.jobs.filter (· != j) } }
  match s1.pool? num with
  | none => s1
  | some p =>
    if !p.owesCopy j.new x j.tile then s1
    else boundary num (finishMembers num (programJ p.home (some num) (.checkpoint 5 1 (j.tile + 1) 0 [x]) (s1.updPool num (copiedTo j.new x j.tile))))

/-- R236, R252: the tiles whose writes have all completed are done. -/
def endJobs (s : State) : State :=
  s.pools.foldl (fun s p => (p.rebuild.jobs.filter fun j => poolRuns s p && !workOpen s p j.new j.tile).foldl (fun s j => match j.copy with
    | none => endTile p.num j s
    | some x => endCopy p.num x j s) s) s

/-! ### Scrub (R256, R257) -/

/-- SCRUB PASS START (R256): the period has elapsed: a pass starts, or 3122h is raised when one is still running, the power state
has stopped scrub (R307) or a reshape holds it off (R284). -/
def scrubStart (num : Nat) (s : State) : State :=
  match s.pool? num with
  | none => s
  | some p =>
    let x := p.scrub
    if !poolRuns s p || !x.on || decide (s.clk.tick < x.started + x.period) then s
    else if p.reshape.isSome then
      raise p.home 0x3122 { pool := num } (s.updPool num fun p => { p with scrub := { p.scrub with started := p.scrub.started + p.scrub.period } })
    else if x.running || powerStops s 5 then
      if x.behind then s
      else raise p.home 0x3122 { pool := num } (s.updPool num fun p => { p with scrub := { p.scrub with behind := true } })
    else startPass num s

/-- R257, R497: blocks that scrub rewrites. -/
def scrubbed (num n : Nat) (s : State) : State :=
  s.updPool num fun p => { p with scrub := { p.scrub with repaired := p.scrub.repaired + n } }

/-- R257: an offset found inconsistent. -/
def mismatched (num : Nat) (s : State) : State :=
  s.updPool num fun p => { p with scrub := { p.scrub with mismatch := p.scrub.mismatch + 1 } }

/-- R257: what scrub does about one finding. A stripe with r = 0 through missing positions is checked for seals only. ITEM,
ARG0 and ARG1 of the events hold the stripe position, the stripe and the offset, which the spec does not say (DESIGN CHOICE,
assumption 43). -/
def scrubOne (p : Pool) (f : ScrubOff) (s : State) : State :=
  let g := p.geom
  let ev (code q : Nat) (s : State) : State := raise p.home code { pool := p.num, item := q, arg0 := f.stripe, arg1 := f.off } s
  let sealsOnly := decide (0 < p.lack false f.stripe) && decide (g.m ≤ p.lack false f.stripe)
  match f.what with
  | .sealFail bad =>
    let s := countFaults (carrier s p false (g.rowOf f.stripe / 64)) 5 bad.length s
    let lost := lostAt p false f.stripe bad
    let s1 := scrubbed p.num (mendCount p f.stripe f.off bad s) (scrubMend p f.stripe f.off bad s)
    if lost.isEmpty then bad.foldl (fun s q => ev 0x2120 q (countRepair p false f.stripe q s)) s1
    else loseMany p.num (lost.filterMap fun q => ownerAt s p false (f.stripe * (g.k * g.sb) + q * g.sb + f.off)) s1
  | .inconsistent single =>
    if sealsOnly then s
    else match single.filter fun _ => decide (2 ≤ g.m) with
      | some q => ev 0x3120 q (scrubbed p.num (mendCount p f.stripe f.off [q] s) (mismatched p.num (scrubMend p f.stripe f.off [q] s)))
      | none => ev 0x3121 0xFFFF (scrubbed p.num (writable p f.stripe g.k).length (mismatched p.num (scrubParity p f.stripe f.off s)))
  | .copiesDiffer bad =>
    if sealsOnly || g.k != 1 then s
    else ev 0x3120 0xFFFF (scrubbed p.num (writable p f.stripe 0).length (mismatched p.num (scrubCopies p f.stripe f.off bad s)))

/-- R256: a pass that has outlived its period raises 3122h, once. -/
def noteBehind (num : Nat) (s : State) : State :=
  match s.pool? num with
  | some p => if p.scrub.behind then s else raise p.home 0x3122 { pool := num } (s.updPool num fun p => { p with scrub := { p.scrub with behind := true } })
  | none => s

/-- R256, R257: a pass with no tile left ends, and the next one starts at once when its period has elapsed. -/
def nextPass (num : Nat) (s : State) : State :=
  let late (q : Pool) : Bool := q.scrub.on && !q.scrub.running && decide (q.scrub.started + q.scrub.period ≤ s.clk.tick)
  let s1 := endPass num s
  if (s.pool? num).any (·.scrub.running) && (s1.pool? num).any late then startPass num (noteBehind num s1) else s1

/-- SCRUB TILE (R256, R257, R307): the next tile of the pass is checked and repaired. -/
def scrubTile (num tile : Nat) (found : List ScrubOff) (s : State) : State :=
  match s.pool? num with
  | none => s
  | some p =>
    if !poolRuns s p || heldWork s (.scrub num) || powerStops s 5 || !p.scrub.on || !p.scrub.running || p.reshape.isSome || scrubNext s p != some tile || tileHeld s p false tile then s
    else
      let mine := found.filter fun f => (p.geom.stripesOf tile).contains f.stripe && decide (f.off < p.geom.sb)
      let s1 := mine.foldl (fun s f => scrubOne p f s) s
      let s2 := s1.updPool num fun p => { p with scrub := { p.scrub with tile := tile + 1 } }
      let s3 := match s2.pool? num with
        | some q => programJ q.home (some num) (.checkpoint 4 1 (tile + 1) 0 (scrubDetail q.scrub)) s2
        | none => s2
      nextPass num s3

/-! ### Copies of the lost block list (R247) -/

/-- R247: a copy of the list. -/
def lostListBytes (p : Pool) : Bytes :=
  let es := p.lost.flatMap lostEntry
  let h := ascii "ELOALOST" ++ le 8 p.geom.uid.toNat ++ le 8 p.listGen ++ le 4 p.lost.length ++ le 4 (crc32c es)
  padTo 4096 (h ++ le 4 (crc32c h)) ++ es

/-- R247: an entry of a copy of the list. -/
def lostEntryAt (b : Bytes) (i : Nat) : Lost :=
  ⟨fieldAt b (4096 + 16 * i) 2, fieldAt b (4096 + 16 * i + 8) 8, fieldAt b (4096 + 16 * i + 4) 4⟩

/-- R247: what a copy of the list holds, with its LISTGEN, when both of its CRCs pass. -/
def lostCopy? (b : Bytes) : Option (Nat × List Lost) :=
  let n := fieldAt b 24 4
  let sound := slice b 0 8 == ascii "ELOALOST" && fieldAt b 28 4 == leNat (le 4 (crc32c (slice b 4096 (16 * n)))) &&
    fieldAt b 32 4 == leNat (le 4 (crc32c (slice b 0 32)))
  if sound then some (fieldAt b 16 8, (List.range n).map (lostEntryAt b)) else none

/-- R247: of the copies read the valid one with the highest LISTGEN is used. -/
def lostFrom (copies : List Bytes) : Option (Nat × List Lost) :=
  (copies.filterMap lostCopy?).foldl (fun best x => match best with
    | some y => if y.1 < x.1 then some x else best
    | none => some x) none

/-- LOST LIST WRITE (R247): a change of the list goes to the spill reserve of every healthy member. -/
def lostWrite (num : Nat) (s : State) : State :=
  match s.pool? num with
  | none => s
  | some p =>
    if !poolRuns s p || !p.listDirty then s
    else
      let s1 := s.updPool num fun p => { p with listGen := p.listGen + 1, listDirty := false }
      match s1.pool? num with
      | none => s1
      | some q => (q.members.filter fun m => m.state != .failed).foldl (fun s m =>
          s.emit (.header m.ns (reserveOf s q m.ns) (lostListBytes q))) s1

end Sys2Proof.Machine
end

