-- ==== Sys2Proof/Machine/Drives.lean ====
section
/-! DEFINITION. What members answer and report: completions, retries, timeouts, removal, health, paths, labels
(R217, R219, R222 to R230, R259, R367). -/

namespace Sys2Proof.Machine

/-- A member command by its number. -/
def State.mcmd? (s : State) (i : Nat) : Option MCmd := s.mcmds.find? fun m => m.id == i

/-- A change of one member command. -/
def State.updMcmd (s : State) (i : Nat) (f : MCmd → MCmd) : State := { s with mcmds := updIf (fun m => m.id == i) f s.mcmds }

/-- A member command that is over. -/
def State.endMcmd (s : State) (i : Nat) : State := { s with mcmds := s.mcmds.filter fun m => m.id != i }

/-- R226: a write that has succeeded while other attempts of it are still open. -/
def MCmd.done (m : MCmd) : Bool := m.isWrite && m.purpose == .spent

/-- R226: one attempt of a member command is over with a result that counts: the command is over, but a write is watched until
none of its attempts is open. -/
def State.closeMcmd (s : State) (m : MCmd) : State :=
  if m.isWrite ∧ 1 < m.left then s.updMcmd m.id fun x => { x with purpose := .spent, left := m.left - 1 } else s.endMcmd m.id

/-- R226: the next up path after the current one, cycling through them; the same one when it is the only one. -/
def nextPath (n : Ns) (cur : Nat) : Nat :=
  let later (p : Nat) : Bool := decide (pathOn cur < pathOn p) || (pathOn cur == pathOn p && decide (cur < p))
  let up := pathOrder n.up
  (up.find? later).getD ((up.head?).getD cur)

/-- R226: resubmits a member command on the next path. -/
def resubmit (m : MCmd) (s : State) : State :=
  let path := ((s.ns? m.ns).map fun n => nextPath n m.path).getD m.path
  s.updMcmd m.id fun x => { x with path := path, sgl := sglOn s m.ns path }

/-- R48, R226: the attempt that a completion makes necessary: it goes out in a later tick. -/
def resubmitLater (m : MCmd) (s : State) : State := (resubmit m s).updMcmd m.id fun x => { x with redo := some s.clk.tick }

/-- R48, R226: none of a member command's attempts is at its member yet. -/
def MCmd.unsent (m : MCmd) (now : Nat) : Bool := m.waits || (m.redo.any (fun t => decide (now ≤ t)) && decide (m.left ≤ 1))

/-- A change of the member that a namespace is, in any pool. -/
def State.updMember (s : State) (ns : Nat) (f : Member → Member) : State :=
  let g (p : Pool) : Pool := { p with members := updIf (·.ns == ns) f p.members, pending := updIf (·.ns == ns) f p.pending }
  { s with pools := s.pools.map g }

/-- R226: the member returns to ONLINE when no command on it is past 6,250 ticks. -/
def recover (ns : Nat) (s : State) : State :=
  if s.mcmds.any fun m => m.ns == ns && !m.done && decide (m.at_ + 6250 ≤ s.clk.tick) then s
  else s.updMember ns fun m => if m.state = .suspect then { m with state := .online } else m

/-- The pool a member command serves. -/
def MCmd.poolOf (m : MCmd) (s : State) : Option Pool := m.pool.bind s.pool?

/-- R229: the namespace is a failed member: no command goes to it. -/
def nsFailed (s : State) (ns : Nat) : Bool :=
  s.pools.any fun p => (p.members ++ p.pending).any fun m => m.ns == ns && m.state == .failed

/-- R220, R229: an admin command on a path of a namespace that is no failed member. -/
def adminTo (ns d : Nat) (a : Admin) (s : State) : State := if nsFailed s ns then s else s.emit (.admin ns d a)

/-! ### Completions (R222, R226 to R228) -/

/-- R390 D5: a block read whose seal fails, found by the die that reads it. -/
def sealFault (m : MCmd) (x : Option Sector) (ok : Bool) (s : State) : State := if x.isSome && !ok then countFault (pathOn m.path) 5 s else s

/-- R215, R216, R227: a sector that a fetch receives, or its fault. -/
def fetchGot (ref : CmdRef) (key pos : Nat) (m : MCmd) (x : Option Sector) (s : State) : State :=
  let good (f : Fetch) : Option Sector := x.filter fun y =>
    (m.poolOf s).any fun p => sectorOk s p f.newGeom f.stripe pos f.off m.ns y
  let ok := (s.cmd? ref).all fun c => c.fetches.all fun f => f.key != key || (good f).isSome
  (sealFault m x ok s).updCmd ref fun c =>
    { c with memAt := some s.clk.tick, fetches := updIf (fun f => f.key == key) (fun f => match good f with
        | some y => { f with good := (pos, y) :: f.good.filter (·.1 != pos) }
        | none => { f with bad := insNat pos f.bad }) c.fetches }

/-- R164, R165: a sector that a destage receives, or its fault. -/
def destageGot (i pos off : Nat) (m : MCmd) (x : Option Sector) (s : State) : State :=
  let good (d : Destage) : Option Sector := x.filter fun y =>
    (m.poolOf s).any fun p => sectorOk s p d.newGeom d.stripe pos off m.ns y
  (sealFault m x (s.destages.all fun d => d.id != i || (good d).isSome) s).updDestage i fun d => match good d with
    | some y => { d with got := (pos, off, y) :: d.got, slow := d.slow.filter (· != (pos, off)), readEnd := some s.clk.tick }
    | none => { d with bad := (pos, off) :: d.bad.filter (· != (pos, off)), slow := d.slow.filter (· != (pos, off)), readEnd := some s.clk.tick }

/-- R227, R228 cause 04h: a write that failed is retried on the next path; the second failure fails the member. -/
def writeFailed (m : MCmd) (s : State) : State :=
  if 1 ≤ m.fails then failMember m.ns 4 s else resubmitLater m (s.updMcmd m.id fun x => { x with fails := x.fails + 1 })

/-- R222: a member command that completed without an error. -/
def memberOk (m : MCmd) (x : Option Sector) (s : State) : State :=
  match m.purpose with
  | .fetch c key pos => fetchGot c key pos m x (s.endMcmd m.id)
  | .destage i pos off => if m.isWrite then s.closeMcmd m else destageGot i pos off m x (s.endMcmd m.id)
  | .repair .. => repaired m (s.closeMcmd m)
  | .format c b prot => formatDone m c b prot s
  | .dealloc _ | .preempt _ | .work .. | .spill | .spent => s.closeMcmd m

/-- R227, R228: a member command that completed with an error of its own kind. -/
def memberErr (m : MCmd) (sector : Bool) (s : State) : State :=
  match m.purpose with
  | .format c .. => formatFailed c s
  | .dealloc _ => s.endMcmd m.id
  | _ => if m.done then s.closeMcmd m else if m.isWrite then writeFailed m s else if sector then memberOk m none s else resubmitLater m s

/-- R226: an attempt that the device has aborted is over without a result of its own: the others go on, and of a write that is done
one fewer is watched. -/
def attemptAborted (m : MCmd) (s : State) : State :=
  if m.done then s.closeMcmd m else s.updMcmd m.id fun x => { x with left := max 1 (x.left - 1) }

/-- MEMBER COMPLETION (R220, R222, R226 to R228, R367): a member command's completion queue entry. After an error of its own kind the Error
Information log is read, after a Reservation Conflict the Reservation Notification log: DESIGN CHOICE, R220 names the logs, not when
they are read (assumption 43). -/
def memberDone (i : Nat) (r : MemResult) (s : State) : State :=
  match s.mcmd? i with
  | none => s
  | some m =>
    if !s.drives || m.unsent s.clk.tick then s
    else match r with
      | .readOk xs => if m.isWrite then s else recover m.ns (memberOk m xs.head? s)
      | .done => if m.isWrite then recover m.ns (memberOk m none s) else s
      | .err .reservation =>
        let s1 := adminTo m.ns m.path (.getLog 0x80) s
        if m.isWrite then packageYield (pathOn m.path) 0x0B {} s1 else recover m.ns (memberErr m false s1)
      | .err .invalidNs => if m.pool.isSome then failMember m.ns 2 s else memberErr m false s
      | .err .writeProtected => if m.pool.isSome && m.isWrite then failMember m.ns 5 s else recover m.ns (memberErr m false s)
      | .err .unrecovered | .err .e2e => recover m.ns (memberErr m true (adminTo m.ns m.path (.getLog 1) s))
      | .err .aborted => attemptAborted m s
      | .err .other => recover m.ns (memberErr m false (adminTo m.ns m.path (.getLog 1) s))

/-- SECTOR REPAIRED (R227): the rewrite of a reconstructed block is done. -/
def sectorDone (i : Nat) (s : State) : State :=
  match s.mcmd? i with
  | some m =>
    match m.purpose with
    | .repair .. => if s.drives && !m.unsent s.clk.tick then recover m.ns (repaired m (s.closeMcmd m)) else s
    | _ => s
  | none => s

/-- R226: a command past 6,250 ticks starts reconstruction of what it reads. -/
def slowRead (m : MCmd) (s : State) : State :=
  match m.purpose with
  | .fetch c key pos => s.updCmd c fun c =>
      { c with fetches := updIf (fun f => f.key == key) (fun f => { f with slow := insNat pos f.slow }) c.fetches }
  | .destage i pos off => if m.isWrite then s else s.updDestage i fun d => { d with slow := (pos, off) :: d.slow.filter (· != (pos, off)) }
  | _ => s

/-- R226, R497: RETRIES and SUSPECT. -/
def suspect (m : Member) : Member :=
  { m with retries := satAdd top32 m.retries 1, state := if m.state = .online then .suspect else m.state }

/-- MEMBER COMMAND RETRIED (R226): 6,250 ticks, and each further 6,250, without completion: an Abort, and the next attempt. -/
def commandRetried (i : Nat) (s : State) : State :=
  match s.mcmd? i with
  | none => s
  | some m =>
    if !s.drives || m.pool.isNone || m.waits || m.done || decide (s.clk.tick < m.at_ + 6250 * m.tries) then s
    else
      let s0 := (s.updMcmd i fun x => { x with tries := x.tries + 1, left := x.left + 1 }).emit (.memberAbort i m.path)
      let s1 := resubmit m (slowRead m s0)
      let s2 := s1.updMember m.ns suspect
      match m.poolOf s with
      | some p => if m.tries = 1 then raise p.home 0x2104 { pool := p.num, item := m.member, arg0 := m.lba } s2 else s2
      | none => s2

/-- MEMBER TIMEOUT (R228 cause 01h): 750,000 ticks without a success. -/
def memberTimedOut (i : Nat) (s : State) : State :=
  match s.mcmd? i with
  | none => s
  | some m =>
    if s.drives && m.pool.isSome && !m.waits && !m.done && decide (m.at_ + 750000 ≤ s.clk.tick) then failMember m.ns 1 (s.endMcmd i) else s

/-- FORMAT NVM TIMEOUT (R251, R488): 15,000,000 ticks without a success. -/
def formatTimedOut (i : Nat) (s : State) : State :=
  match s.mcmd? i with
  | none => s
  | some m =>
    match m.purpose with
    | .format c .. => if s.drives && decide (m.at_ + 15000000 ≤ s.clk.tick) then formatFailed c s else s
    | _ => s

/-! ### Reports (R225, R228) -/

/-- MEMBER REMOVED (R228 cause 02h, R530): every path reports removal. -/
def memberGone (ns : Nat) (s : State) : State :=
  if s.drives then failMember ns 2 (s.updNs ns fun n => { n with up := [] }) else s

/-- CONTROLLER FATAL (R228 cause 03h). -/
def memberFatal (ns : Nat) (s : State) : State := if s.drives then failMember ns 3 s else s

/-- The member index that a namespace is, with its pool: an index, or the pending order with bit 15. -/
def memberOf (s : State) (ns : Nat) : Option (Pool × Nat) :=
  s.pools.findSome? fun p =>
    match p.members.findIdx? fun m => m.ns == ns with
    | some i => some (p, i)
    | none => (p.pending.findIdx? fun m => m.ns == ns).map fun i => (p, 0x8000 + i)

/-- R220: an admin command to a namespace, on its first path. -/
def adminFirst (ns : Nat) (a : Admin) (s : State) : State :=
  match (s.ns? ns).bind fun n => (pathOrder n.up).head? with
  | some p => adminTo ns p a s
  | none => s

/-- R225: the SMART / Health log of a member is read; its critical warning byte. -/
def healthWarn (ns : Nat) (warn : BitVec 8) (s : State) : State :=
  if !s.drives then s
  else
    let s1 := adminFirst ns (.getLog 2) (s.updNs ns fun n => { n with warn := warn })
    match memberOf s ns with
    | none => s1
    | some (p, i) =>
      let s2 := if (warn &&& 0x17) != 0 then raise p.home 0x2130 { pool := p.num, item := i, arg0 := warn.toNat } s1 else s1
      if warn.getLsbD 3 then failMember ns 5 s2 else s2

/-- R220, R225: an asynchronous event that reports a critical warning: the log is read, and a new request is left outstanding. -/
def eventWarn (ns : Nat) (warn : BitVec 8) (s : State) : State := healthWarn ns warn (if s.drives then adminFirst ns .asyncEvent s else s)

/-- R259: an event of a path of a namespace. -/
def pathEvent (code ns d : Nat) (s : State) : State :=
  match memberOf s ns with
  | some (p, i) => raise (pathOn d) code { pool := p.num, item := i, arg0 := d } s
  | none => raise (pathOn d) code { arg0 := d } s

/-- PATH LOST (R222, R259). -/
def losePath (ns d : Nat) (s : State) : State :=
  if s.drives && s.alive (pathOn d) && (s.ns? ns).any (fun n => n.up.contains d) then
    pathEvent 0x2102 ns d (s.updNs ns fun n => { n with up := n.up.filter (· != d) })
  else s

/-- R224, R229: the key of a path's die is registered on each path that a member of the device has gained. -/
def registerPaths (ns : Nat) (ds : List Nat) (s : State) : State :=
  if (s.ns? ns).any (·.reserved) && !nsFailed s ns then ds.foldl (fun s d => s.emit (.reserve ns d 0 (reserveKey s (pathOn d)))) s else s

/-- R222: the queue pairs on a path: one for each drive core, four in all, or as many as its controller grants; their entries, at
most 1,024; SGLs where the controller supports them: (path, pairs, entries, SGLs). A path that is up has them. -/
def queuesOn (i : NsInfo) (d : Nat) : Option (Nat × Nat × Nat × Bool) :=
  (i.ctrls.find? (·.path == d)).map fun c => (d, min 4 c.granted, min (c.mqes + 1) 1024, c.sgl)

/-- R220, R222, R229: what the device issues on a path that comes up: Identify of the controller and of the namespace, Number of Queues,
the queue pairs, the asynchronous event settings with one request outstanding. The order is DESIGN CHOICE (assumption 43). -/
def openPath (ns d : Nat) (s : State) : State :=
  let q := ((s.ns? ns).bind fun n => queuesOn n.info d).getD (d, 0, 0, false)
  let pairs := (List.range q.2.1).flatMap fun i => [Admin.createCq (i + 1) q.2.2.1, .createSq (i + 1) q.2.2.1]
  ([Admin.identify 1, .identify 0, .setFeature 7 4, .getFeature 7] ++ pairs ++ [Admin.setFeature 0x0B 0xFF, .setFeature 0x82 0, .asyncEvent]).foldl
    (fun s c => adminTo ns d c s) s

/-- R220, R222: the queue pairs on a path that is used no more are deleted (DESIGN CHOICE: R220 does not say when, assumption 43). -/
def closePath (ns d : Nat) (s : State) : State :=
  let n := (((s.ns? ns).bind fun n => queuesOn n.info d).map (·.2.1)).getD 0
  (List.range n).foldl (fun s i => adminTo ns d (.deleteCq (i + 1)) (adminTo ns d (.deleteSq (i + 1)) s)) s

/-- R222: the paths that reach a namespace over a controller the device can use. -/
def usableDies (i : NsInfo) : List Nat := i.dies.filter fun d => !i.unusable.contains d

/-- PATH RESTORED (R222, R259). -/
def restorePath (ns d : Nat) (s : State) : State :=
  if s.drives && s.alive (pathOn d) && (s.ns? ns).any (fun n => (usableDies n.info).contains d && !n.up.contains d) then
    pathEvent 0x2103 ns d (registerPaths ns [d] (openPath ns d (s.updNs ns fun n => { n with up := insNat d n.up })))
  else s

/-! ### A namespace appears (R217, R219, R228 causes 06h and 08h) -/

/-- R480: two reports are of the same namespace. -/
def sameNs (a b : NsInfo) : Bool := (a.nguid != 0 && a.nguid == b.nguid) || (a.eui != 0 && a.eui == b.eui)

/-- R218, R219: the governing label of a namespace names a pool, a member index and a geometry. -/
def labelNames (g : Geom) (i : Nat) (l : List Bytes) : Bool :=
  (governing l).any fun b => fieldAt b 10 2 == i && slice b 16 40 == slice (labelBytes g 0 i) 16 40

/-- R219, R228: why a member that appears is not used: its format, or its label. A pending member, by its order from 8000h, has
no label of the pool yet. -/
def unfit (p : Pool) (i : Nat) (n : NsInfo) : Option Nat :=
  if n.cur ≠ p.geom.b ∨ n.md ≠ 64 then some 8
  else if i < 0x8000 ∧ !labelNames p.geom i n.labels then some 6 else none

/-- R219, R228: the check of a member's format and label. -/
def judgeMember (ns : Nat) (s : State) : State :=
  match memberOf s ns, s.ns? ns with
  | some (p, i), some n =>
    if !((if 0x8000 ≤ i then p.pending[i - 0x8000]? else p.members[i]?).any fun m => m.state != .failed) then s
    else match unfit p i n.info with
      | some 6 => raise p.home 0x2110 { pool := p.num, item := i } (failMember ns 6 s)
      | some c => failMember ns c s
      | none => s
  | _, _ => s

/-- R222: each path over a controller that cannot be used raises 2102h. -/
def refusePaths (i : NsInfo) (n : Nat) (s : State) : State :=
  (i.dies.filter fun d => i.unusable.contains d && s.alive (pathOn d)).foldl (fun s d => pathEvent 0x2102 n d s) s

/-- R217, R219, R222: what a member's Identify and label show once its namespace is known, with the paths that can be used,
on which the keys are registered (R224); one that can be used no more is given up. Of a namespace that is known the Changed Namespace
List is read (DESIGN CHOICE: R220 does not say when, assumption 43). -/
def learnNs (i : NsInfo) (s : State) : Nat × State :=
  match s.nss.find? fun n => sameNs n.info i with
  | some n =>
    let gained := (usableDies i).filter fun d => !n.up.contains d
    let lost := n.up.filter i.unusable.contains
    let s0 := lost.foldl (fun s d => closePath n.id d s) (adminFirst n.id (.getLog 4) s)
    (n.id, registerPaths n.id gained (gained.foldl (fun s d => openPath n.id d s)
      (s0.updNs n.id fun x => { x with info := i, up := (usableDies i).foldl (fun l d => insNat d l) (x.up.filter fun d => !lost.contains d) })))
  | none =>
    let up := sortNat (usableDies i)
    let n : Ns := { id := s.uniq, info := i, up := up }
    (s.uniq, up.foldl (fun s d => openPath n.id d s) { s with nss := s.nss ++ [n], uniq := s.uniq + 1 })

/-- MEMBER APPEARS ON PATH (R179, R219): while power fails no command goes to it; it is looked at when service goes on. -/
def memberAppears (i : NsInfo) (s : State) : State :=
  if s.on && decide (3 < s.run.phase) && !s.run.halted && (i.nguid != 0 || i.eui != 0) then
    if s.run.pfail.isSome then { s with run := { s.run with appeared := s.run.appeared ++ [i] } }
    else
      let (n, s1) := learnNs i s
      judgeMember n (refusePaths i n s1)
  else s

end Sys2Proof.Machine
end

