-- ==== Sys2Proof/Machine/Memory.lean ====
section
/-! DEFINITION. Addressed DDR of regions, exchange windows, counters and mirror regions (R344, R348, R350): bytes by
address in one canonical form. A byte that nothing has written reads as 0 (assumption 5). -/

namespace Sys2Proof.Machine

/-- What an unlisted address reads as (assumption 5). -/
def blank : Byte := 0

/-- The byte at an address. -/
def readByte : List Host.Cell → Nat → Byte
  | [], _ => blank
  | (a, b) :: m, x => if x = a then b else if x < a then blank else readByte m x

/-- A byte put at an address; the byte an unlisted address reads as is not listed. -/
def writeByte (x : Nat) (v : Byte) : List Host.Cell → List Host.Cell
  | [] => if v = blank then [] else [(x, v)]
  | (a, b) :: m =>
    if x < a then (if v = blank then (a, b) :: m else (x, v) :: (a, b) :: m)
    else if x = a then (if v = blank then m else (x, v) :: m)
    else (a, b) :: writeByte x v m

/-- n bytes from an address. -/
def readBytes (m : List Host.Cell) (x : Nat) : Nat → Bytes
  | 0 => []
  | n + 1 => readByte m x :: readBytes m (x + 1) n

/-- Bytes put from an address on. -/
def writeBytes (x : Nat) : Bytes → List Host.Cell → List Host.Cell
  | [], m => m
  | v :: vs, m => writeBytes (x + 1) vs (writeByte x v m)

/-- The canonical form: addresses strictly rising from a bound, no blank listed. -/
def wfFrom : Nat → List Host.Cell → Bool
  | _, [] => true
  | lo, (a, b) :: m => decide (lo ≤ a) && b != blank && wfFrom (a + 1) m

/-- The canonical form of a memory. -/
def memWf (m : List Host.Cell) : Bool := wfFrom 0 m

end Sys2Proof.Machine
end

