-- ==== Sys2Proof/Machine/Mirror.lean ====
section
/-! DEFINITION. The journal mirror that a die keeps for the partner's die of its index: entries and units as they arrive, what stays
live, and what a takeover resolves from it (R147, R150, R159, R173, R187, R308, R317, R372, R373). -/

namespace Sys2Proof.Machine

/-! ### Entries from their bytes (R169 to R171) -/

/-- R171, R242, R252, R278: DETAIL of a CHECKPOINT read back, by OP. -/
def detailAt (op : Nat) (b : Bytes) : List Nat :=
  let f (n k : Nat) : Nat := fieldAt b n k
  match op with
  | 1 => [f 32 2, f 34 1, f 35 1] ++ (List.range (min 14 (f 35 1))).map fun i => f (36 + 2 * i) 2
  | 2 => [f 32 1, f 33 1, f 34 1, f 36 8, f 44 8, f 52 8]
  | 3 => [f 34 1, f 36 8, f 44 8]
  | 5 => [f 32 2]
  | _ => (List.range 4).map fun i => f (32 + 8 * i) 8

/-- R170, R171: the fields of an entry that belongs to a pool, read back from its 64 bytes. -/
def bodyOf (b : Bytes) : Option JBody :=
  let f (n k : Nat) : Nat := fieldAt b n k
  let stripe := f 16 8 % 2 ^ 47
  let new := bitAt (f 16 8) 47
  match f 0 1 with
  | 1 => some (.intent stripe new (BitVec.ofNat 32 (f 24 4)) (BitVec.ofNat 32 (f 28 4)) (BitVec.ofNat 32 (f 32 4)) (BitVec.ofNat 4 (f 36 1))
      (f 37 1) (f 40 4) (f 44 4) (f 48 8) (BitVec.ofNat 36 (f 56 8)))
  | 2 => some (.parityGen stripe new (BitVec.ofNat 32 (f 24 4)) (f 28 8))
  | 3 => some (.unitCommit (f 16 2) (f 20 4) (f 24 8) (f 32 4) (f 36 4) (f 40 8) (f 48 2) (BitVec.ofNat 16 (f 50 2)) (f 56 8))
  | 4 => some (.checkpoint (f 16 1) (f 17 1) (f 20 8) (f 28 4) (detailAt (f 16 1) b))
  | 5 => some (.lostBlocks (f 16 2) (f 24 8) (f 32 4) (f 36 1))
  | 6 => some (.tileState (f 16 2) (f 20 8) (f 28 1))
  | 7 => some (.mapSwitch (f 16 4) (f 20 1) (f 21 1) (BitVec.ofNat 64 (f 24 8)) (BitVec.ofNat 64 (f 32 8)))
  | 8 => some (.spillSegment (f 16 8) (f 24 8) (f 32 8) (((List.range 5).map fun i => f (40 + 2 * i) 2).filter (· != 0xFFFF)))
  | _ => none

/-- R169, R170: a valid entry that belongs to a pool, from its 64 bytes. -/
def entryOf (b : Bytes) : Option JEntry :=
  if entryValid b then (bodyOf b).map fun x => ⟨fieldAt b 8 8, bits (fieldAt b 1 1) 2 0, some (fieldAt b 2 2), x⟩ else none

/-- R159: the entries in a run of bytes, 64 at a time. -/
def entriesIn (b : Bytes) : List JEntry := (List.range (b.length / 64)).filterMap fun i => entryOf (slice b (64 * i) 64)

/-! ### Keeping the mirror folded (R150, R159, R173) -/

/-- R159: the blocks of a unit from the bytes of its data: each block's data, then its protection information. -/
def unitCopies (v : Vol) (lba n jsn : Nat) (data : Bytes) : List PeerBlk :=
  let w := v.b + piBytes v.pif
  (List.range n).map fun i => ⟨v.num, lba + i, slice data (i * w) v.b, slice data (i * w + v.b) (piBytes v.pif), jsn⟩

/-- R166, R170: a PARITY GENERATION of a stripe closes an intent: the copies that the intent covered are on the members. -/
def destaged (s : State) (pool : Nat) (new : Bool) (stripe ijsn : Nat) (x : PeerBlk) : Bool :=
  decide (x.jsn < ijsn) && (s.vol? x.vol).any fun v => v.pool == pool &&
    (s.pool? pool).any fun p => (placesOf p v x.lba).any fun y => y.new == new && y.stripe == stripe

/-- R170, R173: what is live of a mirrored journal: from the oldest entry on that no later one has ended, a UNIT COMMIT as long as one of
its blocks is kept. Later commits stay, so that every PREVJSN chain can be followed (R187). -/
def livePeer (q : DieRfl) : DieRfl :=
  let live (e : JEntry) : Bool := match e.body with
    | .unitCommit .. => q.peerBlks.any fun x => x.jsn == e.jsn
    | _ => true
  let tail := (q.peerLog.find? live).map (·.jsn)
  { q with peerLog := q.peerLog.filter fun e => live e || tail.any fun t => decide (t ≤ e.jsn) }

/-- R271: a PARITY GENERATION that closes a mitre step's intent: the copies of the blocks in the step's range are on the members. -/
def stepped (s : State) (pool : Nat) (new : Bool) (tile ijsn : Nat) (x : PeerBlk) : Bool :=
  decide (x.jsn < ijsn) && (s.vol? x.vol).any fun v => v.pool == pool && (s.pool? pool).any fun p => v.pb x.lba / (p.geomOf new).tb == tile

/-- R271: an entry is the STRIPE INTENT of a mitre step. -/
def JEntry.ofStep (e : JEntry) : Bool := match e.body with
  | .intent _ _ _ _ _ _ 5 _ _ _ _ => true
  | _ => false

/-- R173: one entry of the partner enters the mirror. -/
def peerEntry (s : State) (e : JEntry) (q : DieRfl) : DieRfl :=
  let log := q.peerLog.filter fun x => x.jsn != e.jsn && !endedBy e.pool e.body x
  let blks := match e.body with
    | .parityGen st new _ ijsn =>
      let gone := if q.peerLog.any fun x => x.jsn == ijsn && x.ofStep then stepped else destaged
      q.peerBlks.filter fun x => !gone s (e.pool.getD 0xFFFF) new st ijsn x
    | _ => q.peerBlks
  livePeer { q with peerLog := if staysLive e.body then insEntry e log else log, peerBlks := blks, confirmed := insNat e.jsn q.confirmed }

/-- R159, R271: a unit of the partner with its UNIT COMMIT; the copy that a mitre step has staged of a block comes with JSN 0 (assumption 12),
in place of an earlier one. -/
def peerUnit (s : State) (e : JEntry) (data : Bytes) (q : DieRfl) : DieRfl :=
  match e.body with
  | .unitCommit vol _ lba n .. =>
    match s.vol? vol with
    | some v =>
      let old (x : PeerBlk) : Bool := x.jsn == 0 && x.vol == vol && decide (lba ≤ x.lba) && decide (x.lba < lba + n)
      if e.jsn = 0 then { q with peerBlks := (q.peerBlks.filter fun x => !old x) ++ unitCopies v lba n 0 data }
      else peerEntry s e { q with peerBlks := q.peerBlks ++ unitCopies v lba n e.jsn data }
    | none => q
  | _ => peerEntry s e q

/-- R159: a whole mirror message: a unit's data with its UNIT COMMIT as the final segment, or journal entries alone. -/
def peerMessage (s : State) (segs : List Seg) (last : Seg) (q : DieRfl) : DieRfl :=
  let before_ := (segs.filter fun g => g.segno + 1 != g.nseg).foldl (fun l g => insSeg g l) []
  match (if last.payload.length = 64 then entryOf last.payload else none) with
  | some e =>
    match e.body, before_ with
    | .unitCommit .., _ :: _ => peerUnit s e (before_.flatMap (·.payload)) q
    | _, _ => ((before_.flatMap fun g => entriesIn g.payload) ++ [e]).foldl (fun q e => peerEntry s e q) q
  | none => ((before_ ++ [last]).flatMap fun g => entriesIn g.payload).foldl (fun q e => peerEntry s e q) q
where
  /-- insertion by segment number -/
  insSeg (g : Seg) : List Seg → List Seg
    | [] => [g]
    | x :: xs => if g.segno ≤ x.segno then g :: x :: xs else x :: insSeg g xs

/-- Segments of one message. -/
def sameMsg (g h : Seg) : Bool := g.src == h.src && g.msgno == h.msgno && g.resp == h.resp

/-- R366: the record of the partner's configuration that a whole message with no journal entry tells of. -/
def peerNews (segs : List Seg) (last : Seg) : Option PeerRec :=
  if last.payload.length = 64 ∧ (entryOf last.payload).isSome ∨ !((segs ++ [last]).flatMap fun g => entriesIn g.payload).isEmpty then none
  else Config.peerRec ((segs ++ [last]).flatMap (·.payload))

/-- R366: a volume is the partner's, by the pool that it lies in. -/
def peerVol (s : State) (v : Vol) : Bool := (s.pool? v.pool).all (·.away)

/-- R366: the copy of the partner's records after a change of them; a number of this package's own stays its own. -/
def takePeer (r : PeerRec) (s : State) : State :=
  match r with
  | .pool p => if (s.pool? p.num).any fun q => !q.away then s
      else { s with pools := (s.pools.filter (·.num != p.num)) ++ [{ p with away := true, taken := false }] }
  | .volume v => if (s.vol? v.num).any fun w => !peerVol s w then s
      else if !peerVol s v then s else { s with vols := (s.vols.filter (·.num != v.num)) ++ [v] }
  | .tenant t => { s with tenants := (s.tenants.filter (·.num != t.num)) ++ [{ t with meters := ((s.tenant? t.num).map (·.meters)).getD t.meters }] }
  | .noPool n => { s with pools := s.pools.filter fun p => !(p.num == n && p.away) }
  | .noVolume n => { s with vols := s.vols.filter fun v => !(v.num == n && peerVol s v) }
  | .noTenant n => { s with tenants := s.tenants.filter (·.num != n) }

/-- R159, R338, R366: a segment for the mirror region: the final one, applied after every other, makes its message whole. -/
def takeMirror (d : Nat) (g : Seg) (s : State) : State :=
  let parts := ((s.die? d).map (·.rfl.parts)).getD []
  let s1 := s.updRfl d fun q =>
    if g.segno + 1 = g.nseg then peerMessage s (q.parts.filter (sameMsg g)) g { q with parts := q.parts.filter fun x => !sameMsg g x }
    else { q with parts := q.parts ++ [g] }
  if g.segno + 1 = g.nseg then
    match peerNews ((parts.filter (sameMsg g)).foldl (fun l x => peerMessage.insSeg x l) []) g with
    | some r => takePeer r s1
    | none => s1
  else s1

/-- R340, R363: a segment of the answer to the READ of a block that was at the partner; the final one makes it whole. -/
def takeBlock (d : Nat) (g : Seg) (s : State) : State :=
  let wants (b : CBlk) : Bool := b.asked == some g.msgno && homeOfBlk s b == some d
  let mine (x : Seg) : Bool := x.src == g.src && x.msgno == g.msgno && x.resp
  if !s.cache.any wants then s
  else if g.segno + 1 = g.nseg then
    let got := ((((s.die? d).map (·.rfl.parts)).getD []).filter mine).foldl (fun l x => peerMessage.insSeg x l) []
    let b := got.flatMap (·.payload) ++ g.payload
    let here (x : CBlk) : CBlk := { x with data := slice b 0 x.data.length, pi := slice b x.data.length x.pi.length, remote := none, asked := none }
    let s1 := s.updRfl d fun q => { q with parts := q.parts.filter fun x => !mine x }
    { s1 with cache := updIf wants here s1.cache }
  else s.updRfl d fun q => { q with parts := q.parts ++ [g] }

/-- R372 step 2: a rejoin begins: every live entry is sent to the partner, and those of the partner are expected. -/
def beginRejoin (s : State) : State :=
  { s with dies := s.dies.map fun x => { x with jr := { x.jr with sent := 0 }, rfl := { x.rfl with confirmed := [] } } }

/-- R156: a command whose next unit has lost its copy at the partner. -/
def Cmd.unmirrored (c : Cmd) : Cmd := { c with unitOut := c.unitOut.map fun u => (u.1, none, u.2.2) }

/-- R317, R372 step 2: at the re-forming only the copies stay whose entries the other package still holds live. -/
def dropStale (q : DieRfl) : DieRfl :=
  { q with peerLog := q.peerLog.filter fun e => q.confirmed.contains e.jsn, peerBlks := q.peerBlks.filter fun x => q.confirmed.contains x.jsn,
           confirmed := [], parts := [] }

/-! ### Resolving what the mirror holds (R150, R187, R308, R373) -/

/-- R150, R167, R187: the newest version of a block that a mirror holds for a pool, as dirty data under its new JSN, with what its open
intents cover. -/
def adoptBlock (s : State) (p : Pool) (l : List (Nat × Nat)) (es : List JEntry) (all : List PeerBlk) (x : PeerBlk) : CBlk :=
  let mine := all.filter fun y => y.vol == x.vol && y.lba == x.lba
  let newest (below : Nat → Bool) : Option PeerBlk := (mine.filter fun y => below y.jsn).foldl (fun a y => match a with
    | some z => if z.jsn ≤ y.jsn then some y else some z
    | none => some y) none
  let now_ := remap l
  let staged := es.filterMap fun e => match e.body with
    | .intent st new .. =>
      if (s.vol? x.vol).any fun v => (placesOf p v x.lba).any fun y => y.new == new && y.stripe == st then
        (newest fun j => decide (j < e.jsn)).map fun y => (now_ e.jsn, now_ y.jsn, y.data, y.pi)
      else none
    | _ => none
  let y := (newest fun _ => true).getD x
  { vol := x.vol, lba := x.lba, data := y.data, pi := y.pi, dirty := true, mirrored := false, jsn := if y.jsn = 0 then 0 else now_ y.jsn, pinned := y.jsn == 0, since := s.clk.tick,
    used := s.clk.tick, acked := some 0, acks := [(0, now_ y.jsn)], staged := staged }

/-- R187, R283: what a live entry changes in the configuration, the latest MAP SWITCH which map holds, and R308: where the work of a pool goes on from its last CHECKPOINT. -/
def foldEntry (num : Nat) (s : State) (e : JEntry) : State :=
  match e.body with
  | .lostBlocks vol lba n act => s.updPool num fun p => { p with lost := if act = 0 then lostAdd ⟨vol, lba, n⟩ p.lost else lostCut vol lba n p.lost }
  | .tileState vol i st => s.updVol vol fun v => { v with zero := if st = 1 then insNat i v.zero else v.zero.filter (· != i) }
  | .checkpoint 2 _ _ _ [dir, target, _, beta, end_, skipped] =>
    s.updReshape num fun r => { r with down := dir == 1, undo := target == 1, beta := beta, endAt := end_, skipped := skipped }
  | .checkpoint 3 _ _ _ [_, _, n] => s.updReshape num fun r => { r with built := (sortNat (r.tables.flatMap (·.2))).take n }
  | .mapSwitch _ kind _ uid _ => match ((s.pool? num).bind (·.reshape)).filter (·.uid == uid) with
    | some r => if kind = 2 then switchMap num r s else if kind = 3 then keepMap num s else s
    | none => s
  | .checkpoint 4 _ tile _ _ => s.updPool num fun p => { p with scrub := { p.scrub with tile := tile } }
  | .checkpoint 5 _ tile _ [x] => s.updPool num fun p =>
      { p with rebuild := { p.rebuild with copied := ((copyLeft s p).filter fun w => w.2.1 == x && decide (w.2.2 < tile)) ++ p.rebuild.copied } }
  | .checkpoint 1 st tile _ (sweep :: cls :: _) => s.updPool num fun p =>
      if (p.rebuild.records.getLast?).all fun r => r.num != sweep then
        { p with rebuild := { p.rebuild with records := [], done := [], running := st != 3, resort := st != 3, sweep := sweep,
                                             copied := p.rebuild.copied.filter fun w => (p.slotAt w.1 w.2.1).isSome } }
      else
        let past := (sweepWork p).filter fun w => p.owes w.1 w.2.1 w.2.2 &&
          (decide (sweepClass p w.1 w.2.2 < cls) || (sweepClass p w.1 w.2.2 == cls && decide (w.2.2 < tile)))
        let onto (w : Bool × Nat × Nat) : Bool := p.stateAt w.1 w.2.1 == some .replacing
        { p with rebuild := { p.rebuild with sweep := sweep, cls := cls, stop := tile, done := (past.filter fun w => !onto w) ++ p.rebuild.done,
                                             copied := past.filter onto ++ p.rebuild.copied } }
  | _ => s

/-- R147, R150, R187, R373 step 4: what the mirror on a die holds for a pool of the partner enters the journal and the protected region of
that die; a unit without a UNIT COMMIT, or whose chain is broken, is old. -/
def adoptMirror (num d : Nat) (s : State) : State :=
  match s.die? d, s.pool? num with
  | some x, some p =>
    let es := x.rfl.peerLog.filter fun e => e.pool == some num
    let bad := brokenUnits true [] ((es.head?.map (·.jsn)).getD 0) es
    let blks := x.rfl.peerBlks.filter fun y => !bad.contains y.jsn && (s.vol? y.vol).any fun v => v.pool == num
    let live (e : JEntry) : Bool := match e.body with
      | .unitCommit .. => blks.any fun y => y.jsn == e.jsn
      | .spillSegment .. => false
      | _ => true
    let (s1, l) := (es.filter live).foldl (fun (s, l) e => (programJ d (some num) (e.body.remap l) s, (e.jsn, nextJsn s d) :: l)) (s, [])
    let s2 := es.foldl (foldEntry num) s1
    let first := blks.foldl (fun (a : List PeerBlk) y => if a.any fun z => z.vol == y.vol && z.lba == y.lba then a else a ++ [y]) []
    let s3 := { s2 with cache := s2.cache ++ first.map (adoptBlock s p l es blks) }
    s3.updRfl d fun q => { q with peerLog := q.peerLog.filter fun e => e.pool != some num,
                                  peerBlks := q.peerBlks.filter fun y => !(s.vol? y.vol).any fun v => v.pool == num }
  | _, _ => s

end Sys2Proof.Machine
end

