-- ==== Sys2Proof/Machine/Tenants.lean ====
section
/-! DEFINITION. Tenants, bindings, keys, caps and metering (R434 to R454, R499, R500). -/

namespace Sys2Proof.Machine

/-! ### Tenants and bindings (R434, R436, R499) -/

/-- CREATE TENANT (R366, R434, R499). -/
def createTenant (c : Cmd) (s : State) : State :=
  let t := c.entry.param 44 2
  if s.pair.state = .separated then busy c.ref s
  else if 1024 ≤ t then fail c.ref 0x0103 s
  else if (s.tenant? t).isSome then fail c.ref 0x0107 s
  else if 1024 ≤ s.tenants.length then fail c.ref 0x0401 s
  else changed c.ref 0 { s with tenants := s.tenants ++ [{ num := t }] }

/-- R434: what keeps a tenant from being deleted. -/
def tenantBusy (s : State) (t : Tenant) : Bool :=
  t.erasing || (s.vols.any fun v => v.tenant == some t.num) || (s.rings.any fun r => r.tenant == some t.num) ||
  (s.fns.any fun f => f.tenant == some t.num) || s.refl.eps.any fun e => e.tenant == some t.num

/-- DELETE TENANT (R434). -/
def deleteTenant (c : Cmd) (s : State) : State :=
  match s.tenant? (c.entry.param 44 2) with
  | none => fail c.ref 0x0103 s
  | some t =>
    if tenantBusy s t then busy c.ref s
    else changed c.ref 0 { s with tenants := s.tenants.filter fun x => x.num != t.num,
                                  buckets := s.buckets.filter fun b => b.tenant != t.num }

/-- R436, R499: binding of a ring. -/
def bindRing (c : Cmd) (o : Nat) (t : Option Nat) (s : State) : State :=
  match s.ring? (o / 512) (o % 512) with
  | none => fail c.ref 0x0103 s
  | some r =>
    let own := (s.fn? r.die r.fn).bind (·.tenant)
    if r.notif || (r.setup && s.isPf r.die r.fn) || (own.isSome && own != t) then fail c.ref 0x0103 s
    else ok c.ref 0 (s.updRing r.die r.idx fun x => { x with tenant := t })

/-- R436, R499: binding of a virtual function: every ring of it follows the function. -/
def bindFn (c : Cmd) (o : Nat) (t : Option Nat) (s : State) : State :=
  let d := bits o 10 8
  let f := bits o 5 0
  if o ≠ d * 256 + f ∨ f = 0 ∨ (s.die? d).isNone then fail c.ref 0x0103 s
  else
    let s1 := s.updFn d f fun x => { x with tenant := t }
    let free (r : Ring) : Ring := { r with tenant := none }
    ok c.ref 0 { s1 with rings := updIf (fun r => r.die == d && r.fn == f) free s1.rings }

/-- R436, R499: binding of an open host endpoint. -/
def bindEp (c : Cmd) (o : Nat) (t : Option Nat) (s : State) : State :=
  let a := BitVec.ofNat 16 o
  let mine (e : Ep) : Bool := e.die == epDie a && e.ep == epNum a && epPkg a == s.id.pkgid && epAddr s.id.pkgid e.die e.ep == a
  if s.refl.eps.any mine then
    let give (e : Ep) : Ep := { e with tenant := t }
    ok c.ref 0 { s with refl := { s.refl with eps := updIf mine give s.refl.eps } }
  else fail c.ref 0x0103 s

/-- BIND (R436, R439, R499). -/
def bindObject (c : Cmd) (s : State) : State :=
  let t := c.entry.param 44 2
  let o := c.entry.param 48 2
  if t ≠ 0xFFFF ∧ (s.tenant? t).isNone then fail c.ref 0x0103 s
  else
    let t? := if t = 0xFFFF then none else some t
    match bits (c.entry.param 46 1) 1 0 with
    | 0 => bindRing c o t? s
    | 1 => bindFn c o t? s
    | 2 => bindEp c o t? s
    | _ => fail c.ref 0x0103 s

/-! ### Keys (R445 to R448) -/

/-- R445: the stored tenant keys wrapped anew when the device key changes. -/
def rewrap (old new : Bytes) (t : Tenant) : Tenant :=
  { t with wrapped := t.wrapped.map fun w => match Config.unwrap old w with
      | some k => Config.wrap new k
      | none => w }

/-- LOAD KEY with target 1 (R445). -/
def loadDeviceKey (c : Cmd) (s : State) : State :=
  if c.entry.param 44 2 ≠ 0xFFFF then fail c.ref 0x0103 s
  else match s.feat.devKey with
    | none =>
      if c.dataLen ≠ 64 then fail c.ref 0x0140 s
      else
        let key := slice c.buf 0 32
        if s.log.secret.any fun k => Config.hmac k key == slice c.buf 32 32 then
          ok c.ref 0 { s with feat := { s.feat with devKey := some key } }
        else fail c.ref 0x0304 s
    | some old =>
      if c.dataLen ≠ 40 then fail c.ref 0x0140 s
      else match Config.unwrap old (padTo 40 c.buf) with
        | none => fail c.ref 0x0304 s
        | some new => ok c.ref 0 { s with tenants := s.tenants.map (rewrap old new), feat := { s.feat with devKey := some new } }

/-- LOAD KEY with target 0 (R446). -/
def loadTenantKey (c : Cmd) (s : State) : State :=
  match s.tenant? (c.entry.param 44 2) with
  | none => fail c.ref 0x0103 s
  | some t =>
    let w := padTo 72 c.buf
    if c.dataLen ≠ 72 then fail c.ref 0x0140 s
    else match s.feat.devKey.bind fun k => Config.unwrap k w with
      | none => fail c.ref 0x0304 s
      | some key =>
        if slice key 0 32 = slice key 32 32 then fail c.ref 0x0170 s
        else if t.erasing then busy c.ref s
        else if t.wrapped.any fun x => x != w then fail c.ref 0x0306 s
        else if t.key = some key ∧ t.wrapped = some w then ok c.ref 0 s
        else ok c.ref 0 (raisePkg 0x7010 {} (s.updTenant t.num fun t => { t with key := some key, wrapped := some w }))

/-- LOAD KEY (R445, R446). -/
def loadKey (c : Cmd) (s : State) : State := if bitAt (c.entry.param 46 1) 0 then loadDeviceKey c s else loadTenantKey c s

/-- R448: the command ends because its key is erased. -/
def endKeyless (s : State) (d : Cmd) : State :=
  match s.vol? d.entry.vol.toNat with
  | none => s
  | some v =>
    if d.stage = .durable then finishWrite v d s
    else
      let n := if writeKind d.op then writeNdone v d else 0
      complete d.ref 0x0303 { ndone := n, part := decide (0 < n) } s

/-- R448: the encrypted volumes of a tenant. -/
def encVols (s : State) (t : Nat) : List Vol := s.vols.filter fun v => v.enc && v.tenant == some t

/-- ERASE KEY (R448). -/
def eraseKey (c : Cmd) (s : State) : State :=
  match s.tenant? (c.entry.param 44 2) with
  | none => fail c.ref 0x0103 s
  | some t =>
    let vs := encVols s t.num
    let hit := s.cmds.filter fun d => d.stage != .table && usesRange d.op && vs.any fun v => v.num == d.entry.vol.toNat && needsKey d.op v
    let s1 := hit.foldl endKeyless s
    let s2 := s1.updTenant t.num fun t => { t with key := none, wrapped := none, erasing := true }
    let s3 := retireCommits (s2.dropBlocks fun b => vs.any fun v => v.num == b.vol)
    raisePkg 0x7011 {} (changed c.ref 0 s3)

/-- R448: the erasure marks of one volume. -/
def eraseVol (p : Pool) (v : Vol) (s : State) : State :=
  forgetLost p.num v.num 0 ((List.range v.extents.length).foldl (fun s i => markTile p v i s) s)

/-- ERASE MARKS APPLY (R448): the marks of a tenant's encrypted volumes, but for pools that carry a reshape. -/
def eraseMarks (t : Nat) (s : State) : State :=
  if !s.running || !(s.tenant? t).any (·.erasing) then s
  else
    let vs := encVols s t
    let s1 := vs.foldl (fun s v => match s.pool? v.pool with
      | some p => if p.reshape.isSome then s else eraseVol p v s
      | none => s) s
    if vs.any fun v => (s.pool? v.pool).any fun p => p.reshape.isSome then s1
    else s1.updTenant t fun t => { t with erasing := false }

/-! ### Class and caps (R440, R442) -/

/-- SET TENANT QOS (R440). -/
def setTenantQos (c : Cmd) (s : State) : State :=
  let e := c.entry
  let q : Qos :=
    { maxClass := bits (e.param 48 1) 1 0, opsRate := e.param 56 4, opsBurst := e.param 50 2, byteRate := e.param 60 4,
      byteBurst := e.param 52 2, crDefault := bitAt (e.param 49 1) 0 }
  match s.tenant? (e.param 44 2) with
  | none => fail c.ref 0x0103 s
  | some t =>
    if q.opsBurst = 0 ∨ q.byteBurst = 0 then fail c.ref 0x0103 s
    else ok c.ref 0 (s.updTenant t.num fun t => { t with qosNext := some q })

/-- R442: the least share of n dies in whole units: 1/16 of the cap rounded up, or down where the cap is too small for that
(assumption 11). -/
def leastShare (cap n : Nat) : Nat := if n * ((cap + 15) / 16) ≤ cap then (cap + 15) / 16 else cap / 16

/-- R442: the dies of the list l whose proportional share would be below the least share u, found in at most n rounds. -/
def lowDies (cap u : Nat) : Nat → List (Nat × Nat) → List Nat → List Nat
  | 0, _, low => low
  | n + 1, l, low =>
    let high := l.filter fun x => !low.contains x.1
    let total := (high.map (·.2)).sum
    let more := high.filter fun x => decide (x.2 * (cap - low.length * u) < u * total)
    if more.isEmpty then low else lowDies cap u n l (low ++ more.map (·.1))

/-- R442: a cap divided among dies with their costs: 1/16 at least, the rest in proportion, and the whole given out. -/
def divideCap (cap : Nat) (l : List (Nat × Nat)) : List (Nat × Nat) :=
  let w := if (l.map (·.2)).sum = 0 then l.map fun x => (x.1, 1) else l
  let u := leastShare cap w.length
  let low := lowDies cap u w.length w []
  let rest := cap - low.length * u
  let total := ((w.filter fun x => !low.contains x.1).map (·.2)).sum
  let part := w.map fun x => (x.1, if low.contains x.1 then u else rest * x.2 / total)
  let left := cap - (part.map (·.2)).sum
  match part.find? fun x => !low.contains x.1 with
  | some y => part.map fun x => if x.1 = y.1 then (x.1, x.2 + left) else x
  | none => part

/-- The share of a die in a division. -/
def shareOf (l : List (Nat × Nat)) (d : Nat) : Nat := ((l.find? fun x => x.1 == d).map (·.2)).getD 0

/-- R442: the buckets of one tenant after a division. -/
def redivide (t : Tenant) (s : State) : State :=
  if t.qos.opsRate = 0 ∧ t.qos.byteRate = 0 then s
  else
    let ds := boundDies s t.num
    let l := ds.map fun d => (d, (bucketOf s d t.num).cost)
    let opsR := divideCap t.qos.opsRate l
    let opsB := divideCap (t.qos.opsBurst * 1024) l
    let bR := divideCap t.qos.byteRate l
    let bB := divideCap (t.qos.byteBurst * 1024) l
    ds.foldl (fun s d =>
      let b := bucketOf s d t.num
      setBucket { b with opsRate := shareOf opsR d, opsBurst := shareOf opsB d, byteRate := shareOf bR d,
                         byteBurst := shareOf bB d, ops := min b.ops (shareOf opsB d), bytes := min b.bytes (shareOf bB d),
                         cost := 0 } s) { s with buckets := s.buckets.filter fun b => b.tenant != t.num || ds.contains b.die }

/-- CAP REDIVIDE (R442): every 256 ticks. -/
def capRedivide (s : State) : State :=
  if s.running && s.clk.tick % 256 == 0 then s.tenants.foldl (fun s t => redivide t s) s else s

/-! ### Metering (R449 to R454, R500) -/

/-- METER CONFIG (R450, R451, R500). -/
def meterConfig (c : Cmd) (s : State) : State :=
  let e := c.entry
  let setRing := bitAt (e.param 44 1) 0
  let setPhase := bitAt (e.param 44 1) 1
  let size := bits (e.param 45 1) 2 0
  let vec := bits (e.param 46 2) 10 0
  let base := e.param 48 8
  let ph := e.param 56 4
  if setRing && (decide (5 < size) || decide (1024 ≤ vec) || base % 4096 != 0) then fail c.ref 0x0103 s
  else if setPhase && (decide (14999999 < ph) || (s.pair.state == .paired && s.id.pkgid == 1)) then fail c.ref 0x0103 s
  else
    let m := s.meter
    let m1 := if setRing then
      { m with ring := if base = 0 then none else some (BitVec.ofNat 64 base, 2 ^ (size + 11)), vector := vec, dhead := 0, head := 0 }
      else m
    let m2 := if setPhase && m1.phase != ph then { m1 with phase := ph, changed := true } else m1
    ok c.ref 0 { s with meter := m2 }

/-- R451: a 128-byte record: byte 0 and bytes 1 to 123, with its CRC. -/
def meterRecord (phase : Bool) (typ pkg tenant count : Nat) (time flags skipped : Nat) (m : Meters) : Bytes :=
  let body := layout 124 [(0, le 1 (bit phase * 128 + typ)), (1, le 1 pkg), (2, le 2 tenant), (4, le 4 count), (8, le 8 time),
    (16, le 1 flags), (20, le 4 skipped), (24, le 8 m.bytesR), (32, le 8 m.bytesW), (40, m.cmds.flatMap (le 8)),
    (72, le 8 m.urgTicks), (80, le 8 m.urgOvr), (88, le 8 m.blockMin), (96, le 8 m.late)]
  body ++ le 4 (crc32c (body.drop 1))

/-- METER READ (R437, R453, R499): a bound ring may name only its own tenant. -/
def meterReadCmd (c : Cmd) (s : State) : State :=
  let n := c.entry.param 44 2
  if c.tenant.any fun own => own != n then fail c.ref 0x0302 s
  else
    match s.tenant? n with
    | none => fail c.ref 0x0103 s
    | some t =>
      if c.dataLen < 128 then fail c.ref 0x0140 s
      else okBuffer c (meterRecord false 2 s.id.pkgid t.num 0 s.clk.optime 0 0 t.meters) s.clk.optime 0 s

/-- R449 BLOCKMIN: exposed blocks of a tenant's volumes whose pools this package holds. -/
def exposedBlocks (s : State) (t : Nat) : Nat :=
  ((s.vols.filter fun v => v.tenant == some t && (s.pool? v.pool).any fun p => !p.away).map (·.blocks)).sum

/-- R449, R450: the counters of a boundary. They count where the work is done, and no ADD to key FFFCh goes out for them: DESIGN CHOICE,
R348 gives no offsets there (assumption 43). -/
def countMinute (s : State) : State :=
  { s with tenants := s.tenants.map fun t => { t with meters := { t.meters with blockMin := t.meters.blockMin + exposedBlocks s t.num } } }

/-- Tenants in ascending order of their numbers. -/
def tenantsInOrder (s : State) : List Tenant := (sortNat (s.tenants.map (·.num))).filterMap s.tenant?

/-- R454: the position of METER_HEAD in a ring of n records. -/
def meterHeadPos (n : Nat) (h : BitVec 17) : Nat := bits h.toNat 16 16 * n + bits h.toNat 15 0

/-- R38, R450: what a boundary catches: the operating time and the counters of each tenant. -/
def caught (s : State) : Nat × List (Nat × Meters) := (s.clk.optime, (tenantsInOrder s).map fun t => (t.num, t.meters))

/-- R451: the records of a snapshot. -/
def snapshot (s : State) (n : Nat) (h : Nat × List (Nat × Meters)) : List (Nat × Bytes) :=
  let m := s.meter
  let ts := h.2
  let at_ (i : Nat) : Nat := (m.dhead + i) % (2 * n)
  let ph (i : Nat) : Bool := decide (at_ i < n)
  let head := (at_ 0 % n, meterRecord (ph 0) 1 s.id.pkgid 0xFFFF ts.length h.1 (bit m.changed + 2 * bit m.moved) m.skipped
    { cmds := [0, 0, 0, 0] })
  head :: ts.zipIdx.map fun (t, i) =>
    (at_ (i + 1) % n, meterRecord (ph (i + 1)) 2 s.id.pkgid t.1 0 h.1 0 0 t.2)

/-- R451, R452: the delivery of a snapshot into the metering ring. -/
def deliver (late : Bool) (h : Nat × List (Nat × Meters)) (s : State) : State :=
  match s.meter.ring with
  | none => s
  | some (_, n) =>
    let k := h.2.length + 1
    if n - distance n (meterHeadPos n s.meter.head) s.meter.dhead < k then
      raisePkg 0x7021 {} { s with meter := { s.meter with skipped := satAdd top32 s.meter.skipped 1 } }
    else
      let s1 := (snapshot s n h).foldl (fun s x => s.emit (.meter x.1 x.2)) s
      let s2 := sendMsix s.id.lead 0 s.meter.vector
        { s1 with meter := { s1.meter with dhead := (s1.meter.dhead + k) % (2 * n), skipped := 0, changed := false, moved := false } }
      if late then raisePkg 0x7020 {} s2 else s2

/-- METER SNAPSHOT (R450 to R452): at a minute boundary. -/
def meterSnapshot (late : Bool) (s : State) : State :=
  if s.ready && !s.run.halted && (s.clk.optime + 15000000 - s.meter.phase) % 15000000 == 0 && s.meter.last != some s.clk.optime then
    let s1 := countMinute s
    let s2 := { s1 with meter := { s1.meter with last := some s.clk.optime } }
    if s.alive s.id.lead then deliver late (caught s1) s2 else { s2 with meter := { s2.meter with held := some (caught s1) } }
  else s

/-- LEAD DIE MOVE (R37, R38, R423): the lead role goes to the lowest-indexed healthy die, which rebuilds the index and
delivers the snapshot that the old lead die left. -/
def execLeadDieMove (s : State) : Answer :=
  match s.aliveDies with
  | d :: _ =>
    if s.on && !s.alive s.id.lead && decide (2 < s.run.phase) then
      let s1 := { s with id := { s.id with lead := d }, log := { s.log with indexing := true },
                         meter := { s.meter with moved := s.meter.held.isSome, held := none } }
      let s2 := raisePkg 0x0045 { arg0 := s.id.lead, arg1 := d } s1
      .next (match s.meter.held with
        | some h => deliver false h s2
        | none => s2)
    else .next s
  | [] => .next s

/-- METER HEAD WRITE (R454): the host's head, on the lead die's port; one that consumes unwritten records is ignored. -/
def meterHeadWrite (die : Nat) (a : Acc) (s : State) : State :=
  if !actsSome s die || die != s.id.lead || !a.low then s
  else
    let v := BitVec.ofNat 17 (a.field 16 0)
    let n := (s.meter.ring.map (·.2)).getD 0
    let old := meterHeadPos n s.meter.head
    let new := meterHeadPos n v
    let good := if n = 0 then v == 0 else decide (a.field 15 0 < n) && decide (distance n old new ≤ distance n old s.meter.dhead)
    if good then { s with meter := { s.meter with head := v } }
    else raise die 0x4002 { arg0 := (a.merge 0).toNat } s

/-! ### Rows without waiting commands -/

/-- CAP REDIVIDE (R442). -/
def execCapRedivide (s : State) : Answer := .next (capRedivide s)

/-- METER SNAPSHOT (R450). -/
def execMeterSnapshot (late : Bool) (s : State) : Answer := .next (meterSnapshot late s)

/-- METER HEAD WRITE (R454). -/
def execMeterHeadWrite (die : Nat) (a : Acc) (s : State) : Answer := .next (meterHeadWrite die a s)

end Sys2Proof.Machine
end

