-- ==== Sys2Proof/Machine/Reflect.lean ====
section
/-! DEFINITION. Reflect: posting operations, arriving segments, acknowledgement, regions, endpoints, queue pairs
(R319 to R323, R333 to R350, R501). A segment that a die sends is put out; a segment that reaches a die is a row. -/

namespace Sys2Proof.Machine

/-! ### Looking up and changing -/

/-- A change of the reflect tables. -/
def State.updRefl (s : State) (f : ReflSt → ReflSt) : State := { s with refl := f s.refl }

/-- R319: an open host endpoint of a die. -/
def State.ep? (s : State) (d e : Nat) : Option Ep := s.refl.eps.find? fun x => x.die == d && x.ep == e

/-- R320: a queue pair of a die. -/
def State.qp? (s : State) (d : Nat) (loc rem : W16) : Option Qp := s.refl.qps.find? fun q => q.die == d && q.loc == loc && q.rem == rem

/-- R344: a region of a die by its key. -/
def State.region? (s : State) (d key : Nat) : Option Region := s.refl.regions.find? fun r => r.die == d && r.key == key

/-- A change of one region. -/
def State.updRegion (s : State) (d key : Nat) (f : Region → Region) : State :=
  s.updRefl fun x => { x with regions := updIf (fun r => r.die == d && r.key == key) f x.regions }

/-- R350: an exchange window of a die. -/
def State.win? (s : State) (d : Nat) (reader writer : W16) : Option Exch :=
  s.refl.wins.find? fun w => w.die == d && w.reader == reader && w.writer == writer

/-- R319: a well-formed address: reserved bits 0. -/
def addrOk (a : W16) : Bool := bits a.toNat 11 6 == 0

/-- R33, R324, R334: there is a route from die d to an address. -/
def routeUp (s : State) (d : Nat) (dst : W16) : Bool :=
  if epPkg dst = s.id.pkgid then s.alive (epDie dst) && joined s d (epDie dst)
  else s.id.inPair && (linkFor d dst s).isSome

/-! ### Operations of the host (R340 to R343) -/

/-- R341: local and remote endpoint of a command. -/
def Cmd.lep (c : Cmd) : W16 := BitVec.ofNat 16 (c.entry.param 44 2)

/-- R341: the remote endpoint. -/
def Cmd.rep (c : Cmd) : W16 := BitVec.ofNat 16 (c.entry.param 46 2)

/-- R341 KEY. -/
def Cmd.key (c : Cmd) : Nat := c.entry.param 48 2

/-- R341 GEN. -/
def Cmd.gen (c : Cmd) : Nat := c.entry.param 50 1

/-- R341 ROFF. -/
def Cmd.roff (c : Cmd) : Nat := c.entry.param 52 8

/-- R340, R343: bytes that the operation transfers. -/
def Cmd.reflLen (c : Cmd) : Nat :=
  match c.op with
  | .reflectWrite | .reflectRead => c.dataLen
  | _ => 8

/-- R319, R342: the local endpoint that a command may name. -/
def localEp (s : State) (c : Cmd) (a : W16) : Option Ep :=
  (s.ep? c.ref.die (epNum a)).filter fun e =>
    a == epAddr s.id.pkgid c.ref.die e.ep && e.fn == c.fn && !e.closing

/-- R438: the binding permits the endpoint. -/
def epPermits (c : Cmd) (e : Ep) : Bool := c.tenant.isNone || e.tenant == c.tenant

/-- R320: queue pairs of a die. -/
def qpCount (s : State) (d : Nat) : Nat := (s.refl.qps.filter fun q => q.die == d).length

/-- R342: the checks of a reflect command. -/
def reflectCheck (s : State) (c : Cmd) : Option W16 :=
  match localEp s c c.lep with
  | none => some 0x0103
  | some e =>
    let data := c.op == .reflectWrite || c.op == .reflectRead
    if !addrOk c.rep || epNum c.rep == 0 then some 0x0103
    else if !epPermits c e then some 0x0302
    else if (data && (c.reflLen == 0 || c.roff % 4 != 0)) || (!data && c.roff % 8 != 0) then some 0x0103
    else if 1048576 < c.reflLen then some 0x0105
    else if (s.qp? c.ref.die c.lep c.rep).any (·.error) then some 0x0703
    else if (s.qp? c.ref.die c.lep c.rep).isNone ∧ 256 ≤ qpCount s c.ref.die then some 0x0401
    else none

/-- R320: the queue pair exists from the first operation on. -/
def ensureQp (d : Nat) (loc rem : W16) (s : State) : State :=
  if (s.qp? d loc rem).isSome then s else s.updRefl fun x => { x with qps := x.qps ++ [⟨d, loc, rem, false⟩] }

/-- R322: a run of payload as segments. -/
def cutSegs (g : Seg) (total : Nat) : Nat → Nat → Bytes → List Seg
  | 0, _, _ => []
  | n + 1, i, b => { g with segno := i, nseg := total, flagged := n == 0, notify := g.notify && n == 0, offset := g.offset + BitVec.ofNat 64 (4096 * i),
                            payload := b.take 4096 } :: cutSegs g total n (i + 1) (b.drop 4096)

/-- R322: the segments that carry a payload. -/
def segsOf (g : Seg) (b : Bytes) : List Seg := let n := max 1 (ceilDiv b.length 4096); cutSegs g n n 0 b

/-- R323, R340: the segments of a command. -/
def cmdSegs (c : Cmd) (m : W32) : List Seg :=
  let base : Seg := { op := 1, src := c.lep, dst := c.rep, msgno := m, key := BitVec.ofNat 16 c.key, gen := BitVec.ofNat 8 c.gen,
                      offset := BitVec.ofNat 64 c.roff }
  match c.op with
  | .reflectWrite => segsOf { base with notify := bitAt (c.entry.param 51 1) 0 } (padTo c.dataLen c.buf)
  | .reflectRead => [{ base with op := 2, aux := BitVec.ofNat 32 c.dataLen }]
  | .reflectAdd => [{ base with op := 4, payload := le 8 c.entry.lba.toNat }]
  | _ => [{ base with op := 5, payload := le 8 c.entry.lba.toNat ++ le 8 c.entry.reftag.toNat }]

/-- R333: a message goes out. -/
def post (m : Msg) (s : State) : State :=
  m.segs.foldl (fun s g => sendSeg m.die g s) (s.updRefl fun x => { x with msgs := x.msgs ++ [m] })

/-- R343: bytes of a message that are acknowledged, or received for a READ. -/
def ackedBytes (m : Msg) : Nat :=
  if m.op = 1 then ((m.segs.filter fun g => m.acked.contains g.segno).map (·.payload.length)).sum
  else (m.resp.map fun r => r.2.length).sum

/-- R343: a reflect command that fails. -/
def failReflect (m : Msg) (st : W16) (result : Nat) (s : State) : State :=
  let n := ackedBytes m
  let s1 := s.updRefl fun x => { x with msgs := x.msgs.filter fun y => !(y.die == m.die && y.msgno == m.msgno && y.isResp == m.isResp) }
  match m.cmd with
  | some c => complete c st { result := BitVec.ofNat 64 result, ndone := n, part := decide (0 < n) } s1
  | none => s1

/-- R347, R403, R514: a queue pair enters ERROR: its operations are flushed, 5020h, step 2 of the ladder. -/
def qpError (d : Nat) (loc rem : W16) (s : State) : State :=
  let mark (q : Qp) : Qp := { q with error := true }
  let s1 := s.updRefl fun x => { x with qps := updIf (fun q => q.die == d && q.loc == loc && q.rem == rem) mark x.qps }
  let mine := s1.refl.msgs.filter fun m => m.die == d && m.src == loc && m.dst == rem && !m.isResp
  let s2 := mine.foldl (fun s m => failReflect m 0x0703 0 s) s1
  ladder 2 0x5020 d (raise d 0x5020 { item := loc.toNat, arg0 := rem.toNat } s2)

/-- R334: an operation without a route, or unacknowledged for too long. -/
def unreachable (m : Msg) (s : State) : State :=
  if m.isResp then failReflect m 0x0704 0 s else qpError m.die m.src m.dst (failReflect m 0x0704 0 s)

/-- R350: READ of the exchange window that the remote endpoint writes into; it lies in the reader's own DDR. -/
def readWindow (c : Cmd) (s : State) : State :=
  let bad (s : State) : State := qpError c.ref.die c.lep c.rep (fail c.ref 0x0701 s)
  match s.win? c.ref.die c.lep c.rep with
  | none => bad s
  | some w =>
    if c.gen ≠ 1 then fail c.ref 0x0702 s
    else if 262144 < c.roff + c.dataLen then bad s
    else if w.bad then fail c.ref 0x0206 s
    else complete c.ref 0 { ndone := c.dataLen } (meterRead c c.dataLen (s.emit (.buffer c.ref 0 (readBytes w.mem c.roff c.dataLen))))

/-- R321, R333, R334: a checked operation is sent, when the limits on outstanding messages allow it. -/
def sendOp (c : Cmd) (s : State) : State :=
  let d := c.ref.die
  if c.op = .reflectRead ∧ c.key = 0 then readWindow c s
  else if msgsFull s d c.lep c.rep then
    s.updCmd c.ref fun c => { c with stage := .stalled }
  else
    let (m, s1) := nextMsg d s
    let msg : Msg :=
      { die := d, msgno := m, cmd := some c.ref, isResp := false, op := c.op.code - 0x3F, src := c.lep, dst := c.rep,
        segs := cmdSegs c m, acked := [], first := s.clk.tick, again := [], resp := [], respN := 0, answered := false, result := 0 }
    if routeUp s d c.rep then post msg (s1.updCmd c.ref fun c => { c with stage := .working })
    else qpError d c.lep c.rep (complete c.ref 0x0704 { retry := true } s)

/-- REFLECT WRITE, READ, ADD and CAS (R341, R342). -/
def startReflect (ref : CmdRef) (s : State) : State :=
  match s.cmd? ref with
  | none => s
  | some c =>
    match reflectCheck s c with
    | some st => fail ref st s
    | none => sendOp c (ensureQp ref.die c.lep c.rep s)

/-- R321, R343, R347: a command that waited for the limits goes on, or is flushed with no segment of it sent. -/
def retryReflect (ref : CmdRef) (s : State) : State :=
  match s.cmd? ref with
  | none => s
  | some c => if (s.qp? ref.die c.lep c.rep).all (·.error) then complete ref 0x0703 { retry := true } s else sendOp c s

/-! ### Acknowledgement at the source (R333, R343) -/

/-- R333: a message is complete: its command completes. -/
def msgDone (m : Msg) (s : State) : State :=
  let s1 := s.updRefl fun x => { x with msgs := x.msgs.filter fun y => !(y.die == m.die && y.msgno == m.msgno && y.isResp == m.isResp) }
  match m.cmd.bind s1.cmd? with
  | none => s1
  | some c =>
    let n := c.reflLen
    let s2 := match c.op, c.tenant with
      | .reflectWrite, some t => s1.updMeters t fun x => { x with bytesW := x.bytesW + n }
      | .reflectRead, some t => s1.updMeters t fun x => { x with bytesR := x.bytesR + n }
      | _, _ => s1
    complete c.ref 0 { result := m.result, ndone := n } s2

/-- R333: the ACK of the final segment has arrived, and the response when one is due. -/
def msgWhole (m : Msg) : Bool := m.acked.contains (m.segs.length - 1) && (m.isResp || m.op == 1 || m.answered)

/-- A change of one outstanding message, which may complete it. -/
def updMsg (m : Msg) (s : State) : State :=
  if msgWhole m then msgDone m s
  else s.updRefl fun x => { x with msgs := updIf (fun y => y.die == m.die && y.msgno == m.msgno && y.isResp == m.isResp) (fun _ => m) x.msgs }

/-- The outstanding message that an ACK or REFUSE answers. -/
def answersTo (s : State) (d : Nat) (g : Seg) : Option Msg :=
  s.refl.msgs.find? fun m => m.die == d && m.msgno == g.msgno && m.isResp == g.resp && m.src == g.dst && m.dst == g.src

/-- R333: a message with what an ACK shows of a group of its segments. -/
def Msg.ack (m : Msg) (g : Seg) : Msg :=
  let map := leNat (padTo 8 g.payload)
  let new := (List.range 64).filterMap fun i => if bitAt map i && decide (g.segno + i < m.segs.length) then some (g.segno + i) else none
  { m with acked := new.foldl (fun l n => insNat n l) m.acked }

/-- An ACK or REFUSE answers a message of a die's system endpoint. -/
def sysAnswer (g : Seg) (m : Msg) : Bool := m.msgno == g.msgno && !g.resp && m.src == g.dst && m.dst == g.src

/-- R333: an ACK: the group's bitmap; a message of the system endpoint that is whole is over. -/
def takeAck (d : Nat) (g : Seg) (s : State) : State :=
  match answersTo s d g with
  | some m => updMsg (m.ack g) s
  | none => s.updRfl d fun q => { q with sys := (updIf (sysAnswer g) (·.ack g) q.sys).filter fun m => !msgWhole m }

/-- R158, R334, R366: a message of a die's system endpoint has not arrived: a unit or entries that it mirrored are not mirrored, a
configuration change is not known to the partner, a block that was asked for has not come, and they are sent again. -/
def dropSystem (d : Nat) (n : W32) (s : State) : State :=
  let redo (c : Cmd) : Cmd := { c with unitOut := c.unitOut.map fun u => if u.2.1 = some n then (u.1, none, u.2.2) else u }
  let again (j : JournalSt) : JournalSt :=
    { j with sent := (j.sentIn.filter fun x => x.1 == n).foldl (fun a x => min a x.2) j.sent, sentIn := j.sentIn.filter fun x => x.1 != n }
  let mine (c : Cmd) : Bool := ((s.vol? c.entry.vol.toNat).bind fun v => s.pool? v.pool).any fun p => p.home == d
  let retell (c : Cmd) : Cmd := { c with told := c.told.map fun w => if w.msg = some n then { w with msg := none } else w }
  let reask (b : CBlk) : CBlk :=
    if homeOfBlk s b = some d then { b with asked := b.asked.filter (· != n), copyMsg := b.copyMsg.filter (· != n) } else b
  { ((s.updRfl d fun q => { q with sys := q.sys.filter fun m => m.msgno != n }).updJr d again) with
    cache := s.cache.map reask
    cmds := updIf (fun c => c.ref.die == d) retell (updIf mine redo s.cmds) }

/-- R343, R345, R347, R348: a REFUSE ends the operation; a queue pair of the system endpoint stays as it is. -/
def takeRefuse (d : Nat) (g : Seg) (s : State) : State :=
  match answersTo s d g with
  | none => if ((s.die? d).any fun x => x.rfl.sys.any (sysAnswer g)) then dropSystem d g.msgno s else s
  | some m =>
    let st := bits g.aux.toNat 15 0
    if st = 0x0702 then failReflect m 0x0702 0 s
    else
      let s1 := failReflect m 0x0701 st s
      if m.isResp then s1 else qpError d m.src m.dst s1

/-! ### Arrival (R335 to R338, R345) -/

/-- What a segment's KEY names. -/
inductive Target where
  | counters | mirror | heart | release | window | region (key : Nat)
  deriving DecidableEq, Repr

end Sys2Proof.Machine

namespace Sys2Proof

/-- R323, R340: bytes of the region that a segment touches. -/
def Seg.span (g : Seg) : Nat := if g.op = 2 then g.aux.toNat else if g.op = 4 ∨ g.op = 5 then 8 else g.payload.length

end Sys2Proof

namespace Sys2Proof.Machine

/-- R322, R323: the segment is of the operation the row names, and within the limits. A SEGNO not below NSEG, a READ REQUEST, ADD, CAS or
ATOMIC RESULT of more than one segment, and a READ REQUEST for fewer than 4 or more than 1,048,576 bytes are discarded with those that
R323 lists: DESIGN CHOICE, its list names OP, NSEG and PLEN only (assumption 43). -/
def segGood (op : Byte) (g : Seg) : Bool :=
  let n := g.payload.length
  g.op == op && decide (1 ≤ g.nseg) && decide (g.nseg ≤ 512) && decide (g.segno < g.nseg) &&
  (if op = 8 ∨ op = 9 then n == 8
   else if op = 1 ∨ op = 3 then decide (n ≤ 4096) && n % 4 == 0
   else if op = 2 then n == 0 && g.nseg == 1 && decide (4 ≤ g.aux.toNat) && decide (g.aux.toNat ≤ 1048576)
   else if op = 5 then n == 16 && g.nseg == 1 else n == 8 && g.nseg == 1)

/-- R323: a segment that is discarded as a protocol error. -/
def protoError (d : Nat) (s : State) : State := raise d 0x5030 {} (s.updRfl d fun q => { q with protoErr := q.protoErr + 1 })

/-- R345, R348, R350: what the keys of the system endpoint permit. The form of a window's release is the model's
(assumption 14). -/
def systemTarget (g : Seg) : Except W16 Target :=
  if g.key = 0xFFFC then (if g.op = 4 && g.offset.toNat % 8 == 0 then .ok .counters else .error 0x0701)
  else if g.key = 0xFFFD then (if g.op = 1 ∨ g.op = 2 then .ok .mirror else .error 0x0701)
  else if g.key = 0xFFFE then
    (if (g.op = 4 && g.offset.toNat % 16 == 0 && decide (g.offset.toNat < 128)) || (g.op = 1 && g.offset == 128) then .ok .heart
     else .error 0x0701)
  else if g.key = 0 ∧ g.op = 1 then .ok .release else .error 0x0701

/-- R345, R350: the checks of a segment for an exchange window. -/
def windowTarget (s : State) (d : Nat) (g : Seg) : Except W16 Target :=
  match s.win? d g.dst g.src with
  | none =>
    if g.op ≠ 1 ∨ 256 ≤ (s.refl.wins.filter fun w => w.die == d).length then .error 0x0701
    else if g.gen ≠ 1 then .error 0x0702
    else if 262144 < g.offset.toNat + g.span then .error 0x0701 else .ok .window
  | some w =>
    if w.bad then .error 0x0701
    else if g.gen ≠ 1 then .error 0x0702
    else if 262144 < g.offset.toNat + g.span ∨ g.op ≠ 1 then .error 0x0701 else .ok .window

/-- R345: the checks of a segment for a registered region. A GEN that is not the current one of a key number freed before is refused
at check 3, whichever endpoint holds the number now; the region is REVOKING from the tick after the revocation's dispatch (R346). -/
def regionTarget (s : State) (d : Nat) (g : Seg) : Except W16 Target :=
  let key := g.key.toNat
  match s.region? d key with
  | none => if s.refl.keys.any fun k => k.1 == d && k.2.1 == key then .error 0x0702 else .error 0x0701
  | some r =>
    let atomic := g.op == 4 || g.op == 5
    if g.gen.toNat ≠ r.gen ∧ s.refl.keys.any fun k => k.1 == d && k.2.1 == key then .error 0x0702
    else if r.ep ≠ epNum g.dst ∨ r.bad then .error 0x0701
    else if (r.revoking ∧ r.revokedAt < s.clk.tick) ∨ g.gen.toNat ≠ r.gen then .error 0x0702
    else if r.len < g.offset.toNat + g.span then .error 0x0701
    else if (g.op = 1 ∧ !r.canWrite) ∨ (g.op = 2 ∧ !r.canRead) ∨
        (atomic ∧ (!r.canAtomic ∨ r.host.isSome ∨ g.offset.toNat % 8 ≠ 0)) then .error 0x0701
    else .ok (.region key)

/-- R345: the checks of a segment that is no response. After a takeover every segment of the failed package's endpoints is
refused (R373), but those of the heartbeat region, with which it rejoins (R372). -/
def segCheck (s : State) (d : Nat) (g : Seg) : Except W16 Target :=
  if s.pair.shut ∧ epPkg g.src ≠ s.id.pkgid ∧ ¬ (epNum g.dst = 0 ∧ g.key = 0xFFFE) then .error 0x0701
  else if epPkg g.dst ≠ s.id.pkgid ∨ epDie g.dst ≠ d ∨ !addrOk g.dst ∨ (epNum g.dst ≠ 0 ∧ (s.ep? d (epNum g.dst)).isNone) then .error 0x0701
  else if epNum g.dst = 0 then systemTarget g
  else if g.key = 0 then windowTarget s d g else regionTarget s d g

/-- R335: a filter entry is of the same segment. -/
def sameSeg (g : Seg) (e : FEntry) : Bool := e.src == g.src && e.msgno == g.msgno && e.segno == g.segno && e.resp == g.resp

/-- R335: outcomes: 0 applied, 1 held, a refusal's status else. -/
def record (d : Nat) (g : Seg) (outcome : Nat) (value : W64) (s : State) : State :=
  s.updRfl d fun q => { q with filter := ⟨g.src, g.msgno, g.segno, g.resp, outcome, value, s.clk.tick⟩ :: q.filter.filter fun e => !sameSeg g e }

/-- R338: changes the outcome of an entry that is there. -/
def reOutcome (d : Nat) (g : Seg) (outcome : Nat) (value : W64) (s : State) : State :=
  s.updRfl d fun q => { q with filter := updIf (sameSeg g) (fun e => { e with outcome := outcome, value := value }) q.filter }

/-- R333: segments of a message that have been applied. -/
def appliedOf (s : State) (d : Nat) (g : Seg) : List Nat :=
  ((s.die? d).map fun x => (x.rfl.filter.filter fun e => e.src == g.src && e.msgno == g.msgno && e.resp == g.resp && e.outcome == 0).map
    (·.segno)).getD []

/-- R333: one ACK for the group of a segment, with every applied segment of the group. AUX is 0, since the header's own fields hold the
MSGNO and SEGNO that R323 names there, and FLAGGED is clear, NSEG, KEY and GEN those of the segment answered: DESIGN CHOICE, R322 and
R323 say nothing more (assumption 43). -/
def sendAck (d : Nat) (g : Seg) (s : State) : State :=
  let base := g.segno / 64 * 64
  let map := maskOf ((appliedOf s d g).filterMap fun n => if base ≤ n ∧ n < base + 64 then some (n - base) else none)
  sendSeg d { op := 8, flagged := false, resp := g.resp, src := g.dst, dst := g.src, segno := base, msgno := g.msgno,
              nseg := g.nseg, key := g.key, gen := g.gen, payload := le 8 map } s

/-- R333: segments of one group of one message. -/
def sameGroup (g h : Seg) : Bool :=
  g.src == h.src && g.dst == h.dst && g.msgno == h.msgno && g.resp == h.resp && g.segno / 64 == h.segno / 64

/-- R333: the ACK for a group is due at the end of the tick, once for all its segments. -/
def oweAck (d : Nat) (g : Seg) (s : State) : State :=
  s.updRfl d fun q => if q.ackDue.any (sameGroup g) then q else { q with ackDue := q.ackDue ++ [{ g with payload := [] }] }

/-- R333: the ACKs of a tick. -/
def sendAcks (d : Nat) (s : State) : State :=
  match s.die? d with
  | none => s
  | some x => x.rfl.ackDue.foldl (fun s g => sendAck d g s) (s.updRfl d fun q => { q with ackDue := [] })

/-- R323, R345: a REFUSE. FLAGGED is clear, NSEG, KEY and GEN are those of the segment answered: DESIGN CHOICE, R322 says nothing more
(assumption 43). -/
def sendRefuse (d : Nat) (g : Seg) (st : Nat) (s : State) : State :=
  sendSeg d { op := 9, flagged := false, resp := g.resp, src := g.dst, dst := g.src, segno := g.segno, msgno := g.msgno,
              nseg := g.nseg, key := g.key, gen := g.gen, aux := BitVec.ofNat 32 (st + g.segno * 65536), payload := zeros 8 } s

/-- R333, R340: a response message goes back. -/
def respond (d : Nat) (g : Seg) (op : Nat) (b : Bytes) (s : State) : State :=
  let base : Seg := { op := BitVec.ofNat 8 op, resp := true, src := g.dst, dst := g.src, msgno := g.msgno, key := g.key, gen := g.gen }
  post { die := d, msgno := g.msgno, cmd := none, isResp := true, op := op, src := g.dst, dst := g.src, segs := segsOf base b, acked := [],
         first := s.clk.tick, again := [], resp := [], respN := 0, answered := false, result := 0 } s

/-- R340: ADD and CAS on a word: what it holds afterwards. -/
def atomicNew (g : Seg) (old : W64) : W64 :=
  let x := BitVec.ofNat 64 (fieldAt g.payload 0 8)
  if g.op = 4 then old + x else if old = x then BitVec.ofNat 64 (fieldAt g.payload 8 8) else old

/-- R340: an atomic operation on DDR: the value before it, and the DDR after it. -/
def atomicOn (g : Seg) (m : List Host.Cell) : W64 × List Host.Cell :=
  let a := g.offset.toNat
  let old := BitVec.ofNat 64 (leNat (readBytes m a 8))
  (old, writeBytes a (le 8 (atomicNew g old).toNat) m)

/-- R372: the package may rejoin its partner. -/
def mayRejoin (s : State) : Bool :=
  s.id.inPair && (s.pair.state == .separated || s.pair.state == .survivor) && !s.pair.forced

/-- R372: the package with PKGID 1 takes a rejoin record: it may rejoin, and has heard the partner for 25,000 ticks itself. -/
def takesRejoin (s : State) : Bool := mayRejoin s && s.id.pkgid == 1 && decide (25000 ≤ s.pair.okTicks)

/-- R359, R369, R372: a record in the heartbeat region: a package's yield, which counts where it comes no later than the tick of the
loss, or a rejoin record, which sets the rejoin tick of the package with PKGID 1 and which every die of the package gets. -/
def takeRecord (d : Nat) (r : YRec) (s : State) : State :=
  let keep (q : DieRfl) : DieRfl := { q with yrec := some r }
  let all (s : State) : State := { s with dies := s.dies.map fun x => { x with rfl := keep x.rfl } }
  if r.scope = 0 then
    let s1 := all s
    if takesRejoin s then beginRejoin { s1 with pair := { s1.pair with rejoinAt := some (s.clk.tick + r.rdelay - 2) } } else s1
  else if r.scope = 2 then
    { s.updRfl d keep with pair := { s.pair with yieldSeen := s.pair.yieldSeen || s.pair.lostAt.all fun a => decide (s.clk.tick ≤ a) } }
  else s.updRfl d keep

/-- R349, R358: the heartbeat region: a word and its AUX, or a yield or rejoin record. -/
def applyHeart (d : Nat) (g : Seg) (s : State) : State :=
  if g.op = 4 then
    let put (h : HbSlot) : HbSlot := { h with word := h.word + BitVec.ofNat 64 (fieldAt g.payload 0 8), aux := g.aux }
    s.updRfl d fun q => { q with hb := q.hb.modify (g.offset.toNat / 16) put }
  else
    let b := g.payload
    takeRecord d ⟨fieldAt b 0 1, fieldAt b 1 1, fieldAt b 2 2, fieldAt b 8 8, fieldAt b 16 4⟩ s

/-- R350: a WRITE into an exchange window, which the first one allocates; a final segment raises ARRIVALS. -/
def applyWindow (d : Nat) (g : Seg) (s : State) : State :=
  let s1 := if (s.win? d g.dst g.src).isSome then s
    else evict s.cache.length d (2 ^ 18) (s.updRefl fun x => { x with wins := x.wins ++ [{ die := d, reader := g.dst, writer := g.src, arrivals := 0, mem := [] }] })
  let last := g.segno + 1 == g.nseg
  let put (w : Exch) : Exch := { w with mem := writeBytes g.offset.toNat g.payload w.mem, arrivals := if last then w.arrivals + 1 else w.arrivals }
  let s2 := s1.updRefl fun x => { x with wins := updIf (fun w => w.die == d && w.reader == g.dst && w.writer == g.src) put x.wins }
  match (s.ep? d (epNum g.dst)).filter fun _ => last && g.notify with
  | some e => sendMsix d e.fn e.vector s2
  | none => s2

/-- R340: a segment applied to a registered region, and the value an atomic operation returns. `host` is what the region's
host memory holds where a READ REQUEST reads it. -/
def applyRegion (d key : Nat) (g : Seg) (host : Bytes) (s : State) : W64 × State :=
  match s.region? d key with
  | none => (0, s)
  | some r =>
    let a := g.offset.toNat
    if g.op = 1 then
      (0, match r.host with
        | some h => s.emit (.host (h + g.offset) g.payload)
        | none => s.updRegion d key fun r => { r with mem := writeBytes a g.payload r.mem })
    else if g.op = 2 then
      (0, respond d g 3 (match r.host with
        | some _ => padTo g.span host
        | none => readBytes r.mem a g.span) s)
    else
      let (old, m) := atomicOn g r.mem
      (old, respond d g 6 (le 8 old.toNat) (s.updRegion d key fun r => { r with mem := m }))

/-- R340: the response segment's effect at the source. -/
def applyResp (d : Nat) (g : Seg) (s : State) : State :=
  match s.refl.msgs.find? fun m => m.die == d && m.msgno == g.msgno && !m.isResp && m.src == g.dst && m.dst == g.src with
  | none => if g.op = 3 ∧ epNum g.dst = 0 then takeBlock d g s else s
  | some m =>
    if g.op = 3 then
      let s1 := match m.cmd with
        | some c => s.emit (.buffer c (4096 * g.segno) g.payload)
        | none => s
      updMsg { m with resp := m.resp ++ [(g.segno, g.payload)], answered := g.segno + 1 == g.nseg } s1
    else updMsg { m with answered := true, result := BitVec.ofNat 64 (fieldAt g.payload 0 8) } s

/-- R333: a segment's effect, with the value recorded for ADD and CAS. -/
def applySeg (d : Nat) (g : Seg) (t : Target) (host : Bytes) (s : State) : W64 × State :=
  if g.resp then (0, applyResp d g s)
  else match t with
    | .heart => (0, applyHeart d g s)
    | .counters =>
      match s.die? d with
      | none => (0, s)
      | some x =>
        let (old, m) := atomicOn g x.rfl.counters
        (old, respond d g 6 (le 8 old.toNat) (s.updRfl d fun q => { q with counters := m }))
    | .mirror =>
      if g.op = 2 then (0, respond d g 3 (readBytes (((s.die? d).map (·.rfl.mirror)).getD []) g.offset.toNat g.span) s)
      else (0, takeMirror d g (s.updRfl d fun q => { q with mirror := writeBytes g.offset.toNat g.payload q.mirror }))
    | .release => (0, s.updRefl fun x => { x with wins := x.wins.filter fun w =>
        !(w.die == d && w.writer.toNat == fieldAt g.payload 0 2 && w.reader.toNat == fieldAt g.payload 2 2) })
    | .window => (0, applyWindow d g s)
    | .region key => applyRegion d key g host s

/-- What the checks find of a segment, whatever they say. -/
def targetOf (g : Seg) : Target :=
  if epNum g.dst = 0 then (match systemTarget g with
    | .ok t => t
    | .error _ => .heart)
  else if g.key = 0 then .window else .region g.key.toNat

/-- R333, R335: applies a segment, records it; its ACK is due. -/
def applyNow (d : Nat) (g : Seg) (t : Target) (host : Bytes) (s : State) : State :=
  let (v, s1) := applySeg d g t host s
  oweAck d g (record d g 0 v s1)

/-- R338: the final segments held on a die. -/
def heldOn (s : State) (d : Nat) : List Held := ((s.die? d).map (·.rfl.held)).getD []

/-- R338: every lower segment of the message has been applied. -/
def lowerDone (s : State) (d : Nat) (g : Seg) : Bool := (List.range g.segno).all fun n => (appliedOf s d g).contains n

/-- R338: a held final segment is applied once its message is otherwise complete. -/
def releaseHeld (d : Nat) (g : Seg) (s : State) : State :=
  match (heldOn s d).find? fun h => sameMsg h.seg g with
  | none => s
  | some h =>
    if !lowerDone s d h.seg then s
    else
      let s1 := s.updRfl d fun q => { q with held := q.held.filter fun x => !sameMsg x.seg g }
      let (v, s2) := applySeg d h.seg (targetOf h.seg) [] s1
      oweAck d h.seg (reOutcome d h.seg 0 v s2)

/-- R338, R345: a refused segment takes the held final segment of its message with it. -/
def refuseSeg (d : Nat) (g : Seg) (st : Nat) (s : State) : State :=
  let s1 := (heldOn s d).foldl (fun s h => if sameMsg h.seg g then reOutcome d h.seg st 0 s else s) s
  let s2 := s1.updRfl d fun q => { q with held := q.held.filter fun x => !sameMsg x.seg g }
  sendRefuse d g st (record d g st 0 s2)

/-- R335: a copy of a segment already seen. -/
def duplicate (d : Nat) (g : Seg) (e : FEntry) (s : State) : State :=
  if e.outcome = 1 then s
  else if e.outcome = 0 then
    let s1 := oweAck d g s
    if (g.op = 4 ∨ g.op = 5) then
      sendSeg d { op := 6, resp := true, src := g.dst, dst := g.src, msgno := g.msgno, key := g.key, gen := g.gen, payload := le 8 e.value.toNat } s1
    else s1
  else sendRefuse d g e.outcome s

/-- R338: a segment that passed its checks: held, discarded, or applied with what it completes. -/
def takeSeg (d : Nat) (g : Seg) (t : Target) (host : Bytes) (s : State) : State :=
  if g.segno + 1 = g.nseg ∧ !lowerDone s d g then
    if 240 ≤ (heldOn s d).length then raise d 0x5011 {} s
    else (record d g 1 0 s).updRfl d fun q => { q with held := q.held ++ [⟨g, s.clk.tick⟩] }
  else releaseHeld d g (applyNow d g t host s)

/-- The reflect engine of a die takes segments: not in HALTED, and up to the end of tick t + 2 of a power failure. -/
def reflectRuns (s : State) (d : Nat) : Bool :=
  s.ready && !s.run.halted && s.alive d && s.run.pfail.all fun t => decide (s.clk.tick ≤ t + 2)

/-- R372: a rejoin record that the package does not take, which is not acknowledged, so that its sender abandons the rejoin: DESIGN CHOICE
(assumption 27). -/
def idleRejoin (s : State) (g : Seg) : Bool :=
  g.op == 1 && epNum g.dst == 0 && g.key == 0xFFFE && g.offset == 128 && fieldAt g.payload 0 1 == 0 && !takesRejoin s

/-- R323, R335 to R338, R345, R349: the arrival of a segment of an operation. -/
def arrive (op : Byte) (d : Nat) (g : Seg) (host : Bytes) (s : State) : State :=
  if !reflectRuns s d then s
  else if !segGood op g then protoError d s
  else if g.noretx then (if epNum g.dst = 0 ∧ g.key = 0xFFFE ∧ g.op = 4 ∧ epDie g.dst = d then applyHeart d g s else s)
  else
    let filter := ((s.die? d).map (·.rfl.filter)).getD []
    match filter.find? (sameSeg g) with
    | some e => duplicate d g e s
    | none =>
      if 131072 ≤ filter.length then raise d 0x5010 {} (s.updRfl d fun q => { q with filterFull := q.filterFull + 1 })
      else if s.pair.shut ∧ epPkg g.src ≠ s.id.pkgid ∧ (op = 3 ∨ op = 6) then refuseSeg d g 0x0701 s
      else if op = 3 ∨ op = 6 then takeSeg d g .heart host s
      else if idleRejoin s g then s
      else match segCheck s d g with
        | .error st => refuseSeg d g st.toNat s
        | .ok t => takeSeg d g t host s

/-! ### Timers (R334, R335, R338) -/

/-- R334: retransmissions of a segment so far. -/
def Msg.tries (m : Msg) (segno : Nat) : Nat := ((m.again.find? fun x => x.1 == segno).map (·.2)).getD 0

/-- R334: a message of number n whose segment is to be sent again: not acknowledged, 8 ticks after its latest transmission, sent again
fewer than four times. -/
def Msg.overdue (now : Nat) (n : W32) (segno : Nat) (m : Msg) : Bool :=
  m.msgno == n && decide (segno < m.segs.length) && !m.acked.contains segno && decide (m.tries segno < 4) &&
    decide (m.first + 8 * (m.tries segno + 1) ≤ now)

/-- R334: one more retransmission of a segment. -/
def Msg.retried (m : Msg) (segno : Nat) : Msg := { m with again := (segno, m.tries segno + 1) :: m.again.filter (·.1 != segno) }

/-- Every outstanding message of a die: its own, its responses, those of its system endpoint. -/
def msgsOf (s : State) (d : Nat) : List Msg := (s.refl.msgs.filter (·.die == d)) ++ ((s.die? d).map (·.rfl.sys)).getD []

/-- SEGMENT RETRANSMIT (R334): the segment of each message of that number, a request or a response to one, that is due. -/
def retransmit (d : Nat) (n : W32) (segno : Nat) (s : State) : State :=
  if !reflectRuns s d then s
  else
    let due := (msgsOf s d).filter (Msg.overdue s.clk.tick n segno)
    let again := updIf (Msg.overdue s.clk.tick n segno) fun m => m.retried segno
    let s1 := (s.updRefl fun x => { x with msgs := updIf (fun m => m.die == d && m.overdue s.clk.tick n segno) (fun m => m.retried segno) x.msgs }).updRfl d
      fun q => { q with sys := again q.sys }
    (due.filterMap fun m => m.segs[segno]?).foldl (fun s g => sendSegAs true d g s) s1

/-- R334: a message of number n that is not acknowledged whole 40 ticks after its first transmission, or that is outstanding, the
response to it among what is missing, without a route. -/
def lostMsg (s : State) (n : W32) (m : Msg) : Bool :=
  m.msgno == n && ((decide (m.acked.length < m.segs.length) && decide (m.first + 40 ≤ s.clk.tick)) || (!msgWhole m && !routeUp s m.die m.dst))

/-- REFLECT UNREACHABLE (R334): each message of that number for which it holds ends. -/
def notReached (d : Nat) (n : W32) (s : State) : State :=
  if !reflectRuns s d then s
  else
    let s1 := (s.refl.msgs.filter fun m => m.die == d && lostMsg s n m).foldl (fun s m => unreachable m s) s
    if (s.die? d).any fun x => x.rfl.sys.any (lostMsg s n) then dropSystem d n s1 else s1

/-- FLAGGED SEGMENT EXPIRED (R338): held final segments 48 ticks after their arrival. -/
def expireHeld (d : Nat) (s : State) : State :=
  let old := (heldOn s d).filter fun h => decide (h.at_ + 48 ≤ s.clk.tick)
  old.foldl (fun s h => raise d 0x5012 { item := h.seg.src.toNat } (s.updRfl d fun q =>
    { q with held := q.held.filter fun x => !sameMsg x.seg h.seg, filter := q.filter.filter fun e => !sameSeg h.seg e })) s

/-- FILTER ENTRY EXPIRED (R335): entries 64 ticks after their arrival. -/
def expireFilter (d : Nat) (s : State) : State :=
  s.updRfl d fun q => { q with filter := q.filter.filter fun e => decide (s.clk.tick < e.at_ + 64) }

/-! ### Regions and endpoints (R344, R346, R347, R501) -/

/-- R344: the free key number that has been free longest: one never used, else the one freed first. -/
def freeKey (s : State) (d : Nat) : Option Nat :=
  let used (k : Nat) : Bool := (s.region? d k).isSome
  let seen := s.refl.keys.filter fun k => k.1 == d
  match ((List.range 0xFFFC).find? fun k => k != 0 && !used k && !seen.any fun x => x.2.1 == k) with
  | some k => some k
  | none =>
    match ((seen.filter fun k => !used k.2.1).map (·.2.2.2)).min? with
    | some o => (seen.find? fun k => !used k.2.1 && k.2.2.2 == o).map (·.2.1)
    | none => none

/-- R344: the generation of a key number. -/
def genOf (s : State) (d key : Nat) : Nat := ((s.refl.keys.find? fun k => k.1 == d && k.2.1 == key).map (·.2.2.1)).getD 1

/-- R501: bytes of DDR in regions of a die. -/
def ddrRegions (s : State) (d : Nat) : Nat := ((s.refl.regions.filter fun r => r.die == d && r.host.isNone).map (·.len)).sum

/-- REGISTER REGION (R344, R501). -/
def registerRegion (c : Cmd) (s : State) : State :=
  let e := c.entry
  let p := e.param 46 1
  let len := e.param 56 4
  let ddr := bitAt p 3
  match localEp s c c.lep with
  | none => fail c.ref 0x0103 s
  | some x =>
    if !epPermits c x then fail c.ref 0x0302 s
    else if (bitAt p 2 && !ddr) || len == 0 || len % 8 != 0 || (ddr && decide (2 ^ 26 < len)) then fail c.ref 0x0103 s
    else if 1024 ≤ (s.refl.regions.filter fun r => r.die == c.ref.die).length ∨ (ddr ∧ 2 ^ 28 < ddrRegions s c.ref.die + len) then
      fail c.ref 0x0401 s
    else match freeKey s c.ref.die with
      | none => fail c.ref 0x0401 s
      | some k =>
        let r : Region := { die := c.ref.die, ep := x.ep, key := k, gen := genOf s c.ref.die k, host := if ddr then none else some (BitVec.ofNat 64 (e.param 48 8)),
                            len := len, canRead := bitAt p 0, canWrite := bitAt p 1, canAtomic := bitAt p 2, revoking := false, waiters := [], mem := [] }
        ok c.ref (k + 65536 * r.gen) (evict s.cache.length r.die 0 (s.updRefl fun y => { y with regions := y.regions ++ [r] }))

/-- R346: a region whose revocation is dispatched: REVOKING from the next tick on. -/
def Region.revoked (now : Nat) (r : Region) : Region :=
  { r with revoking := true, revokedAt := if r.revoking then r.revokedAt else now, drained := r.revoking && r.drained }

/-- R346: a region goes into REVOKING for a command. -/
def revoke (d key : Nat) (ref : CmdRef) (s : State) : State :=
  s.updRegion d key fun r => { r.revoked s.clk.tick with waiters := r.waiters ++ [ref] }

/-- REVOKE REGION (R346, R501). -/
def revokeRegion (c : Cmd) (s : State) : State :=
  match localEp s c c.lep, s.region? c.ref.die (c.entry.param 46 2) with
  | some x, some r =>
    if !epPermits c x then fail c.ref 0x0302 s
    else if r.ep ≠ x.ep then fail c.ref 0x0103 s
    else revoke r.die r.key c.ref (s.updCmd c.ref fun c => { c with stage := .waiting })
  | _, _ => fail c.ref 0x0103 s

/-- R320, R350: a queue pair is freed: the window it writes into is released. -/
def freeQp (q : Qp) (s : State) : State :=
  let s1 := s.updRefl fun x => { x with qps := x.qps.filter fun y => !(y.die == q.die && y.loc == q.loc && y.rem == q.rem) }
  if epPkg q.rem = s.id.pkgid then
    s1.updRefl fun x => { x with wins := x.wins.filter fun w => !(w.writer == q.loc && w.reader == q.rem) }
  else sendSystem q.die (epPkg q.rem) (epDie q.rem) 1 0 0 0 false (le 2 q.loc.toNat ++ le 2 q.rem.toNat ++ zeros 4) s1

/-- R501: a closing endpoint whose regions are all revoked is closed, and its command completes. -/
def finishClose (c : CmdRef) (s : State) : State :=
  if s.refl.regions.any fun r => r.waiters.contains c then s
  else ok c 0 (match s.cmd? c with
    | some x => if x.op = .endpointStatus then s.updRefl fun y => { y with eps := y.eps.filter fun e => !(e.die == c.die && e.closing && e.ep == x.entry.param 44 2 % 64) } else s
    | none => s)

/-- R346: held final segments of a region. -/
def heldFor (s : State) (r : Region) : Bool :=
  (heldOn s r.die).any fun h => !h.seg.resp && h.seg.key.toNat == r.key && epNum h.seg.dst == r.ep

/-- R346: at the end of a tick in which a region was REVOKING: whether the count of segments that passed is zero. -/
def drainRegions (s : State) : State :=
  let due (r : Region) : Bool := r.revoking && decide (r.revokedAt < s.clk.tick) && !heldFor s r
  s.updRefl fun x => { x with regions := updIf due (fun r => { r with drained := true }) x.regions }

/-- REVOKE COMPLETE (R346): in a tick after the count of segments that passed reached zero: the region's key number is free, its
generation rises. -/
def revokeDone (d key : Nat) (s : State) : State :=
  match s.region? d key with
  | none => s
  | some r =>
    if !r.drained then s
    else
      let g := if r.gen = 255 then 1 else r.gen + 1
      let order := s.refl.keys.foldl (fun a k => max a (k.2.2.2 + 1)) 0
      let s1 := s.updRefl fun x =>
        { x with regions := x.regions.filter fun y => !(y.die == d && y.key == key),
                 keys := (d, key, g, order) :: x.keys.filter fun k => !(k.1 == d && k.2.1 == key) }
      r.waiters.foldl (fun s c => finishClose c s) s1

/-- R501 ACTION 1: an endpoint closes. -/
def closeEp (c : Cmd) (e : Ep) (s : State) : State :=
  let a := epAddr s.id.pkgid e.die e.ep
  let mine := s.refl.qps.filter fun q => q.die == e.die && q.loc == a
  let msgs := s.refl.msgs.filter fun m => m.die == e.die && m.src == a && !m.isResp
  let s1 := msgs.foldl (fun s m => failReflect m 0x0703 0 s) s
  let s2 := mine.foldl (fun s q => freeQp q s) s1
  let s3 := s2.updRefl fun x => { x with wins := x.wins.filter fun w => !(w.die == e.die && w.reader == a),
                                         eps := updIf (fun y => y.die == e.die && y.ep == e.ep) (fun y => { y with closing := true }) x.eps }
  let s4 := (s3.refl.regions.filter fun r => r.die == e.die && r.ep == e.ep).foldl (fun s r => revoke r.die r.key c.ref s) s3
  finishClose c.ref (s4.updCmd c.ref fun c => { c with stage := .waiting })

/-- R501 ACTION 2: the structure that ENDPOINT STATUS writes. -/
def epBytes (s : State) (a : W16) (room : Nat) : Bytes :=
  let d := epDie a
  let qs := s.refl.qps.filter fun q => q.die == d && q.loc == a
  let ws := s.refl.wins.filter fun w => w.die == d && w.reader == a
  let rs := s.refl.regions.filter fun r => r.die == d && r.ep == epNum a
  let head := layout 64 [(0, le 2 a.toNat), (2, le 1 (bit (s.ep? d (epNum a)).isSome)), (4, le 2 qs.length), (6, le 2 ws.length), (8, le 2 rs.length)]
  let qe := qs.map fun q => layout 32 [(0, le 1 0), (1, le 1 (bit q.error)), (2, le 2 q.rem.toNat), (4, le 2 (outstanding s d (some (q.loc, q.rem))))]
  let we := ws.map fun w => layout 32 [(0, le 1 1), (2, le 2 w.writer.toNat), (8, le 8 w.arrivals.toNat)]
  head ++ ((qe ++ we).take room).flatten

/-- ENDPOINT STATUS (R501). -/
def endpointStatus (c : Cmd) (s : State) : State :=
  let a := c.lep
  let act := bits (c.entry.param 46 1) 1 0
  let rep := BitVec.ofNat 16 (c.entry.param 48 2)
  let vec := bits (c.entry.param 50 2) 10 0
  let e := s.ep? c.ref.die (epNum a)
  if epNum a = 0 ∨ a ≠ epAddr s.id.pkgid c.ref.die (epNum a) then fail c.ref 0x0103 s
  else if act = 0 then
    if e.isSome then fail c.ref 0x0107 s
    else if vectorsOf s c.ref.die c.fn ≤ vec then fail c.ref 0x0103 s
    else ok c.ref 0 (s.updRefl fun x => { x with eps := x.eps ++ [{ die := c.ref.die, ep := epNum a, fn := c.fn, tenant := c.tenant, vector := vec }] })
  else if e.any fun e => e.fn != c.fn then fail c.ref 0x0103 s
  else if e.any fun e => !epPermits c e then fail c.ref 0x0302 s
  else if act = 2 then
    if c.dataLen < 64 ∨ c.dataLen % 32 ≠ 0 then fail c.ref 0x0140 s
    else okBuffer c (epBytes s a ((c.dataLen - 64) / 32)) 0 0 s
  else match e.filter fun e => !e.closing with
    | none => fail c.ref 0x0103 s
    | some e =>
      if act = 1 then closeEp c e s
      else if (s.qp? c.ref.die a rep).isNone then fail c.ref 0x0103 s
      else ok c.ref 0 (s.updRefl fun x => { x with qps := updIf (fun q => q.die == c.ref.die && q.loc == a && q.rem == rep) (fun q => { q with error := false }) x.qps })

end Sys2Proof.Machine
end

