-- ==== Sys2Proof/Machine/Link.lean ====
section
/-! DEFINITION. The reflect link of a die: received flits, replay, training (R324 to R332). -/

namespace Sys2Proof.Machine

/-- A link of a die that is powered and in service. -/
def linkRuns (s : State) (d : Nat) : Bool := s.on && !s.run.halted && s.alive d

/-- The link of a die, while its die runs. -/
def linkOf (s : State) (d : Nat) : Option LinkSt := if linkRuns s d then (s.die? d).map (·.link) else none

/-- R328: the kept flits that ACKSEQ does not cover; all of them when it names none that was sent. -/
def keptAfter (k : LinkSt) (ack : BitVec 12) : List Bytes :=
  let n := (k.txNext - 1 - ack).toNat
  if n ≤ k.kept.length then k.kept.drop (k.kept.length - n) else k.kept

/-- R326, R328: what a flit's header says to the sender of this end: acknowledgement, credits. -/
def takeHeader (f : Flit) (k : LinkSt) : LinkSt :=
  { k with kept := keptAfter k f.ackseq, credits := k.credits + 8 * f.cred.toNat }

/-- R326, R328: a link once it has read the header of a received control flit, when it has trained: acknowledgement, credits, and where a
NAK asks for the replay, which the link gives when it is ACTIVE again. -/
def LinkSt.tookCtl (raw : Bytes) (k : LinkSt) : LinkSt :=
  let f := readFlit raw
  if k.state = .active ∨ k.state = .recover then
    { takeHeader f k with replayFrom := if f.nak then some (f.ackseq + 1) else k.replayFrom }
  else k

/-- R326, R328: the header of a received control flit. -/
def takeCtlHeader (d : Nat) (raw : Bytes) (s : State) : State := s.updLink d (LinkSt.tookCtl raw)

/-- R328, R331: a flit is discarded: NAK goes out in the next flit, an idle one where none waits; more than 16 flits with NAK in a tick
make the link RECOVER. -/
def discardFlit (d : Nat) (k : LinkSt) (s : State) : State :=
  let s1 := sendIdle d (s.updLink d fun k => { k with discarding := true, nakDue := true })
  if 16 ≤ k.naks then linkToRecover d (sendCtl d 4 k.width s1) else s1

/-- R328: a flit received while the link is ACTIVE. -/
def takeFlit (d : Nat) (f : Flit) (k : LinkSt) (s : State) : State :=
  if !f.crcOk then discardFlit d k (countFault d 13 s)
  else
    let s1 := s.updLink d (takeHeader f)
    let s2 := drainLink d (if f.nak then replay d (keptAfter k f.ackseq) (f.ackseq + 1) s1 else s1)
    if f.idle then s2
    else if f.fseq = k.rxNext then s2.updLink d fun k => { k with rxNext := k.rxNext + 1, discarding := false, owed := k.owed + 1 }
    else if k.discarding then s2
    else discardFlit d k s2

/-- PAYLOAD FLIT (R325 to R329): the bytes of a payload or idle flit. -/
def execPayloadFlit (die : Nat) (raw : Bytes) (s : State) : Answer :=
  match linkOf s die with
  | some k => .next (if k.state == .active then takeFlit die (readFlit raw) k s else s)
  | none => .next s

/-- R331: the other end reports the same PKGID, or another die index. -/
def miswired (s : State) (d : Nat) (c : Ctl) : Bool := c.pkgid == s.id.pkgid || c.die != d

/-- R331: a miswired link stays in DOWN. -/
def holdDown (d : Nat) (s : State) : State :=
  raise d 0x5005 { unit := 0x42 } (s.updLink d fun k => { k with state := .down, since := s.clk.tick, width := 0 })

/-- R330: lanes that ALIGN has mapped. -/
def alignedAll (k : LinkSt) : Bool := decide (k.lanes ≤ k.aligned.length)

/-- R330: one lane's ALIGN flit; with every healthy lane mapped ALIGN passes on to CONFIG, and CONFIG flits go out. -/
def takeAlign (d : Nat) (c : Ctl) (k : LinkSt) (s : State) : State :=
  let l := insNat c.lane.toNat k.aligned
  let s1 := s.updLink d fun k => { k with aligned := l }
  if l.length < k.lanes then s1
  else if k.state = .align then
    sendCtl d 2 k.proposal (s1.updLink d fun k => { k with state := .config, since := s.clk.tick, alignTries := 0, gotConfig := false })
  else sendCtl d 2 k.proposal s1

/-- ALIGN FLIT (R328, R330, R331). -/
def execAlignFlit (die : Nat) (raw : Bytes) (s : State) : Answer :=
  match linkOf s die, ctlOf 1 raw with
  | some k, some c =>
    .next (if (k.state != .align && k.state != .recover) || decide (16 ≤ c.lane.toNat) then s
      else if miswired s die c then holdDown die s else takeAlign die c k (takeCtlHeader die raw s))
  | _, _ => .next s

/-- R330, R331: the width that a CONFIG flit and the healthy lanes of this end allow. -/
def configWidth (c : Ctl) (k : LinkSt) : Nat := widthOf (min (2 ^ c.width) k.proposal)

/-- R330, R331: CONFIG answers, in CONFIG and, once the lanes are aligned, in RECOVER. -/
def inConfig (k : LinkSt) : Bool := k.state == .config || (k.state == .recover && alignedAll k)

/-- R330, R331: a matching CONFIG flit: the width and, at the first training, the credits; CONFIG ACK goes out. -/
def takeConfig (d : Nat) (c : Ctl) (k : LinkSt) (s : State) : State :=
  let w := configWidth c k
  sendCtl d 3 w (s.updLink d fun x => { x with gotConfig := true, width := w, credits := if k.state = .config then c.credits.toNat else x.credits })

/-- CONFIG FLIT (R328, R330, R331). -/
def execConfigFlit (die : Nat) (raw : Bytes) (s : State) : Answer :=
  match linkOf s die, ctlOf 2 raw with
  | some k, some c =>
    .next (if !inConfig k || c.version != 1 then s
      else if miswired s die c then holdDown die s
      else if configWidth c k = 0 then s else takeConfig die c k (takeCtlHeader die raw s))
  | _, _ => .next s

/-- R328, R330: a link as it becomes ACTIVE: after training its sequence numbers start again; after RECOVER they survive. -/
def LinkSt.activated (k : LinkSt) (now : Nat) : LinkSt :=
  let on := { k with state := .active, since := now, count := 0, trained := k.width }
  if k.state = .recover then on
  else { on with rxNext := 0, txNext := 0, kept := [], owed := 0, discarding := false, nakDue := false, naks := 0, replayFrom := none }

/-- R328: the replay that a NAK asked for while the link was in RECOVER. -/
def replayDue (d : Nat) (s : State) : State :=
  match (s.die? d).map (·.link) with
  | some k =>
    match k.replayFrom with
    | some n => replay d (keptAfter k (n - 1)) n (s.updLink d fun k => { k with replayFrom := none })
    | none => s
  | none => s

/-- R328, R330, R332: the link is ACTIVE: 5002h after training, 5003h when it is narrower than when it last was; what is to be replayed
and what waited goes out. -/
def activate (d : Nat) (k : LinkSt) (s : State) : State :=
  let s1 := s.updLink d fun k => k.activated s.clk.tick
  let s2 := if k.state = .recover then s1 else raise d 0x5002 { unit := 0x42 } s1
  drainLink d (replayDue d (if k.width < k.trained then raise d 0x5003 { unit := 0x42 } s2 else s2))

/-- CONFIG ACK FLIT (R328, R330). -/
def execConfigAckFlit (die : Nat) (raw : Bytes) (s : State) : Answer :=
  match linkOf s die, ctlOf 3 raw with
  | some k, some c =>
    .next (if !inConfig k || !k.gotConfig then s
      else if miswired s die c then holdDown die s else activate die k (takeCtlHeader die raw s))
  | _, _ => .next s

/-- RECOVER FLIT (R328, R331): the other end asks for RECOVER. -/
def execRecoverFlit (got : FlitIn) (s : State) : Answer :=
  match linkOf s got.die, ctlOf 4 got.raw with
  | some _, some _ => .next (linkToRecover got.die (takeCtlHeader got.die got.raw s))
  | _, _ => .next s

/-- LINK RECOVER (R331): flit lock is lost: RECOVER, and RECOVER flits to the other end. -/
def execLinkRecover (die : Nat) (s : State) : Answer :=
  match linkOf s die with
  | some k => .next (if k.state == .active then linkToRecover die (sendCtl die 4 k.width s) else s)
  | none => .next s

/-- Reflect lanes of a die not retired. -/
def reflectLanes (x : DieSt) : Nat := 16 - (x.hw.lanesRetired.filter fun l => decide (40 ≤ l) && decide (l < 56)).length

/-- LINK DETECT (R330): a receiver is there on the lanes: EQUALISE. -/
def execLinkDetect (die : Nat) (s : State) : Answer :=
  match linkOf s die with
  | some k =>
    .next (if k.state == .detect then
      s.updDie die fun x => { x with link := { x.link with state := .equalise, since := s.clk.tick, lanes := reflectLanes x, alignTries := 0, locked := [] } }
      else s)
  | none => .next s

/-- R330: the lanes of a die's link in use that did not lock are retired. -/
def retireUnlocked (d : Nat) (locked : List Nat) (s : State) : State :=
  s.updHw d fun h => { h with lanesRetired := ((List.range 16).filter fun l => !locked.contains l).foldl (fun r l => insNat (40 + l) r) h.lanesRetired }

/-- R330: EQUALISE is over with n healthy lanes: DETECT when fewer than 4 remain, else ALIGN, with the lanes' ALIGN flits. -/
def endEqualise (d n : Nat) (s : State) : State :=
  let s1 := s.updLink d fun k => { k with state := if n < 4 then .detect else .align, since := s.clk.tick, lanes := n, aligned := [] }
  if n < 4 then s1 else sendAlign d (widthOf n) s1

/-- R330: every healthy lane of a die's link is among those that locked. -/
def lockedAll (x : DieSt) (locked : List Nat) : Bool :=
  (List.range 16).all fun l => x.hw.lanesRetired.contains (40 + l) || locked.contains l

/-- EQUALISATION LOCK (R330): lanes that lock; ALIGN once every healthy lane has. -/
def execEqualisationLock (die : Nat) (lanes : List Nat) (s : State) : Answer :=
  match linkOf s die, s.die? die with
  | some k, some x =>
    let l := lanes.foldl (fun r l => insNat l r) k.locked
    .next (if k.state != .equalise then s
      else
        let s1 := s.updLink die fun k => { k with locked := l }
        if lockedAll x l then endEqualise die (reflectLanes x) s1 else s1)
  | _, _ => .next s

/-- R330: the bound of a training state in ticks. -/
def linkBound : LinkState → Option Nat
  | .equalise => some 12500
  | .align => some 250
  | .config => some 25
  | .recover => some 1
  | .down => some 250000
  | .detect | .active => none

/-- R330: EQUALISE has lasted as long as it may: the lanes that did not lock are retired. -/
def equaliseFails (d : Nat) (locked : List Nat) (s : State) : State :=
  let s1 := retireUnlocked d locked s
  endEqualise d (((s1.die? d).map reflectLanes).getD 0) s1

/-- R330: what follows when a state's bound passes. -/
def linkFails (d : Nat) (k : LinkSt) (s : State) : State :=
  let go (x : LinkState) (f : LinkSt → LinkSt) : State := s.updLink d fun k => f { k with state := x, since := s.clk.tick }
  match k.state with
  | .equalise => equaliseFails d k.locked s
  | .align => if k.alignTries < 3 then go .equalise fun k => { k with alignTries := k.alignTries + 1, locked := [] } else linkDown d s
  | .config => sendAlign d (widthOf k.lanes) (go .align fun k => { k with aligned := [], width := 0 })
  | .recover => raise d 0x5001 { unit := 0x42 } (go .equalise fun k => { k with width := 0, alignTries := 0, queue := [], locked := [] })
  | .down => go .detect id
  | .detect | .active => s

/-- LINK STATE TIMEOUT (R330). -/
def execLinkStateTimeout (die : Nat) (s : State) : Answer :=
  match linkOf s die with
  | some k => .next (if (linkBound k.state).any fun b => decide (k.since + b ≤ s.clk.tick) then linkFails die k s else s)
  | none => .next s

end Sys2Proof.Machine
end

