-- ==== Sys2Proof/Machine/Takeover.lean ====
section
/-! DEFINITION. Pools that change their home die: a shadow die's takeover, a survivor's import, a migration; their
journal, their dirty data and their commands (R187, R353, R361 to R364, R367, R373, R386). -/

namespace Sys2Proof.Machine

/-! ### New home and new shadow (R364) -/

/-- R6, R364: the member namespaces that a die would reach with a pool: the members of a pool that it homes or shadows are counted
already. -/
def reachWith (s : State) (p : Pool) (d : Nat) : Nat :=
  reaches s d + if (p.shadow = some d ∨ p.home = d) ∧ !p.away then 0 else p.members.length + p.pending.length

/-- R6, R364: a die in service that stays within 32 pools and 512 member namespaces with a pool more. -/
def withinFigures (s : State) (p : Pool) (d : Nat) : Bool := s.alive d && decide (homes s d < 32) && decide (reachWith s p d ≤ 512)

/-- R364: a die that may home a pool in place of the one that stands by. -/
def mayHome (s : State) (p : Pool) (d : Nat) : Bool := withinFigures s p d && pathsToAll s p d

/-- R364: the die that takes a pool: the one that stands by, else, beyond the figures or out of service, the lowest-indexed die that
qualifies. -/
def newHome (s : State) (p : Pool) (first : Option Nat) : Option Nat :=
  match first.filter fun d => withinFigures s p d with
  | some d => some d
  | none => s.dieIdx.find? fun d => d != p.home && mayHome s p d

/-- R364: the new shadow die of a pool with home die h. That it stays within R6's 512 member namespaces, those of the pools it shadows
counted (R8), is a DESIGN CHOICE: R364 names no figure there (assumption 40). -/
def newShadow (s : State) (p : Pool) (h : Nat) : Option Nat :=
  s.dieIdx.find? fun d => d != h && s.alive d && decide (reachWith s p d ≤ 512) && pathsToAll s p d

/-! ### The journal of a pool on its new home (R187, R373) -/

/-- The live entries of a pool in a die's journal and spill segments, in JSN order, but for the records of the segments
themselves. -/
def poolEntries (s : State) (num d : Nat) : List JEntry :=
  match s.die? d with
  | none => []
  | some x => ((x.jr.entries ++ x.jr.segs.flatMap (·.entries)).filter fun e => e.pool == some num && match e.body with
      | .spillSegment .. => false
      | _ => true).foldl (fun l e => insEntry e l) []

/-- R173, R187, R361: the live entries of a pool as its new home has them: from the journal mirror that it holds of a die that is gone. -/
def entriesFor (s : State) (num d h : Nat) (gone : Bool) : List JEntry :=
  match copyOf s d h with
  | some es => if gone then es.filter fun e => e.pool == some num && match e.body with
      | .spillSegment .. => false
      | _ => true
    else poolEntries s num d
  | none => poolEntries s num d

/-- R173, R187: the live entries of a pool pass to the journal of its new home, which gives them JSNs of its own. -/
def moveEntries (num d h : Nat) (gone : Bool) (s : State) : State :=
  let es := entriesFor s num d h gone
  let (s1, l) := es.foldl (fun (s, l) e => (programJ h (some num) (e.body.remap l) s, (e.jsn, nextJsn s h) :: l)) (s, [])
  let s2 := dropEntries d (fun e => e.pool == some num) s1
  let mine (vol : Nat) : Bool := (s.vol? vol).any fun v => v.pool == num
  let block (b : CBlk) : CBlk :=
    { b with kept := false, extra := false, jsn := if b.dirty then remap l b.jsn else b.jsn, acks := b.acks.map fun m => (m.1, remap l m.2),
             staged := b.staged.map fun x => (remap l x.1, remap l x.2.1, x.2.2) }
  let cmd (c : Cmd) : Cmd := { c with wait := c.wait.map fun w => if mine w.1 then (w.1, w.2.1, remap l w.2.2) else w }
  { s2 with cache := updIf (fun b => mine b.vol) block s2.cache, cmds := s2.cmds.map cmd }

/-- R152, R353: an I/O command that its old home had not completed, as the new one carries it out anew; a command whose
first unit was protected stays past its point of no return. -/
def anew (c : Cmd) : Cmd :=
  if c.stage = .working then
    { c with stage := .stalled, units := 0, aux := 0, ready := [], fetches := [], recon := 0, err := none, failed := [], unitOut := none }
  else c

/-- R353: the work of the old home on a pool stops: its member commands, its destages, its commands; those still on their way to it
are sent again. -/
def stopWork (num : Nat) (s : State) : State :=
  let redo (s : State) (c : Cmd) : Bool := c.clamp && forPool s num c
  let reads (m : MCmd) : Bool := match m.purpose with
    | .format .. => false
    | _ => m.pool == some num
  let again (c : Cmd) : Cmd := if redo s c then anew c else if c.stage = .stalled ∧ forPool s num c then { c with sent := none } else c
  { s with mcmds := s.mcmds.filter fun m => !reads m, destages := s.destages.filter (·.pool != num), cmds := s.cmds.map again,
           vols := updIf (·.pool == num) (fun v => { v with filling := [] }) s.vols }

/-- R187, R188, R283, R315, R373: the open intents of a pool are taken up for repair; a mitre step is redone from its pinned copy. -/
def repairIntents (num : Nat) (s : State) : State :=
  match s.pool? num with
  | none => s
  | some p => redoStep num ((poolEntries s num p.home).foldl (fun s e => match e.body with
      | .intent st new _ gen _ _ method first count _ _ =>
        if method = 5 then s else openRepair p e.jsn st new gen method first count s
      | _ => s) s)

/-- R186, R357: dirty blocks of a pool of which no copy is left are lost. -/
def loseDirtyOf (gone? : CBlk → Bool) (num : Nat) (s : State) : State :=
  let gone := s.cache.filter fun b => b.dirty && gone? b && (s.vol? b.vol).any fun v => v.pool == num
  let home := ((s.pool? num).map (·.home)).getD 0
  let s1 := loseMany num (gone.map fun b => (b.vol, b.lba)) (s.dropBlocks fun b => gone.contains b)
  if gone.isEmpty then s1 else raise home 0x6015 { pool := num } s1

/-- R186, R357: with the home die its single copies are lost. -/
def loseSingle (num : Nat) (s : State) : State := loseDirtyOf (fun b => !b.mirrored && b.remote.isNone && !b.extra && !b.kept) num s

/-- R363: what only the partner's mirror regions hold of a pool is lost with the partner, or with one of its dies. -/
def loseRemote (e : Option Nat) (num : Nat) (s : State) : State :=
  loseDirtyOf (fun b => b.remote.any fun x => e.all (· == x)) num s

/-- R363: when home die d is lost, the dirty data whose second copy is on the partner's die of the same index is there alone. -/
def leaveAtPartner (num d : Nat) (s : State) : State :=
  let mine (b : CBlk) : Bool := b.dirty && b.mirrored && !b.onShadow && !b.extra && (s.vol? b.vol).any fun v => v.pool == num
  if s.pair.state = .paired then { s with cache := updIf mine (fun b => { b with remote := some d }) s.cache } else s

/-- R157, R191, R363, R371: the dirty data of a pool is in write-back single, and is queued for destage. -/
def makeSingle (num : Nat) (s : State) : State :=
  let mine (b : CBlk) : Bool := b.dirty && (s.vol? b.vol).any fun v => v.pool == num
  let one (b : CBlk) : CBlk := { b with mirrored := false, onShadow := false, asked := none, copyMsg := none }
  queueBlocks ((s.cache.filter mine).map fun b => (b.vol, b.lba)) { s with cache := updIf mine one s.cache }

/-- R317: at a separation the partner keeps its copies of a pool's dirty data. -/
def keepOld (num : Nat) (s : State) : State :=
  let mine (b : CBlk) : Bool := b.dirty && b.mirrored && !b.onShadow && (s.vol? b.vol).any fun v => v.pool == num
  { s with cache := updIf mine (fun b => { b with kept := true }) s.cache }

/-- R317: the partner's old copies are of no use any more. -/
def dropOld (s : State) : State := { s with cache := updIf (·.kept) (fun b => { b with kept := false }) s.cache }

/-- R157, R317, R363: write-back single data of a pool whose mirror peer is back is mirrored again, but for what is still at the partner:
at once on the shadow die, over the fabric, and where the partner has kept its copy of it; the rest goes to the partner at the end of
the tick. -/
def makeMirrored (num : Nat) (s : State) : State :=
  match s.pool? num with
  | none => s
  | some p =>
    match mirrorPeer s p with
    | none => s
    | some sh =>
      let mine (b : CBlk) : Bool := b.dirty && b.remote.isNone && (sh || b.kept) && (s.vol? b.vol).any fun v => v.pool == num
      let two (b : CBlk) : CBlk := { b with mirrored := true, onShadow := sh, kept := false, copyMsg := none }
      { s with cache := updIf mine two s.cache }

/-- R364, R373: a pool gets die h as its home and a new shadow; the commands forwarded to it take the paths to h. -/
def settleHome (num h : Nat) (s : State) : State :=
  let route (c : Cmd) : Cmd := { c with route := if c.ref.die = h then [] else fabricPath s c.ref.die h }
  let s1 := s.updPool num fun p => { p with home := h, shadow := newShadow s p h, migrated := false }
  { s1 with cmds := updIf (forPool s num) route s1.cmds }

/-- R235, R308: no tile of a pool's background work is in flight any more. -/
def noFlight (num : Nat) (s : State) : State :=
  s.updPool num fun p => { p with lock := none, reshape := p.reshape.map (fun r => { r with building := none }),
                                  rebuild := { p.rebuild with flight := [], jobs := [] } }

/-- R187, R353, R363, R373: a pool homed on die d is taken by die h: journal, dirty data, commands; its
reshape stands still with REASON 3 until the kerf ends; then open intents, and the mitre step in flight (R315). -/
def takePool (num d h : Nat) (lose : Bool) (s : State) : State :=
  let s1 := if lose then leaveAtPartner num d (loseSingle num s) else s
  let s2 := settleHome num h (moveEntries num d h lose (stopWork num (noFlight num s1)))
  let s3 := if s2.pair.kerf.isSome && (s2.pool? num).any (·.reshape.isSome) then pauseFor num 3 s2 else s2
  repairIntents num (makeSingle num s3)

/-- R282, R308, R315: once a kerf has ended REASON 3 gives way to the reasons that hold. -/
def endReason (num : Nat) (s : State) : State :=
  match s.pool? num with
  | some p => if p.reshape.any fun r => r.reasons.contains 3 then boundary num s else s
  | none => s

/-- R367: one preemption as a member command: Reservation Acquire with Preempt and Abort of a key. -/
def preemptOn (num h x ns : Nat) (k : W64) (s : State) : State :=
  submit { id := 0, ns := ns, pool := some num, member := x, path := pathTo s h ns, isWrite := true, lba := 0, data := [],
           purpose := .preempt k, at_ := 0 } (s.emit (.reserve ns h 3 k))

/-- R367: the members of a pool lose the keys of the dies that failed; until they have they take no write. -/
def preempt (num h : Nat) (keys : List W64) (s : State) : State :=
  match s.pool? num with
  | none => s
  | some p => (p.members.zipIdx.filter fun m => m.1.state != .failed).foldl (fun s m =>
      keys.foldl (fun s k => preemptOn num h m.2 m.1.ns k s) s) s

/-! ### Shadow takeover (R361, R363) -/

/-- R361: the heartbeat of a die of the own package is lost, or the die has yielded. -/
def dieLost (s : State) (d : Nat) : Bool := s.pair.lostOwn.contains d || (s.die? d).any fun x => x.yielded.isSome

/-- R355, R361, R362: a die that fell silent is out of service; its rings stop with its host port. -/
def silence (d : Nat) (s : State) : State :=
  if !s.alive d then s
  else
    let s1 := fence d (s.updDie d fun x => { x with healthy := false, retired := true, retiring := false, linkUp := false })
    let s2 := { s1 with cmds := s1.cmds.filter fun c => c.ref.die != d }
    openKerf (s.clk.tick - 1) 5 (poolsOn s d) (setYieldReg 1 d 0 (raisePkg 0x0043 { item := d } s2))

/-- R361, R364: the pools of a lost die pass to their shadows, one by one; a pool that no die can take makes the package
yield with cause 0Ah. -/
def shadowPools (d : Nat) : List Nat → State → State
  | [], s => s
  | num :: ns, s =>
    match s.pool? num with
    | none => shadowPools d ns s
    | some p =>
      match newHome s p p.shadow with
      | none => packageYield s.id.lead 0x0A {} s
      | some h => shadowPools d ns (preempt num h [reserveKey s d] (takePool num d h true s))

/-- Pools whose shadow a die is. -/
def shadowedOn (s : State) (d : Nat) : List Nat := (s.pools.filter fun p => p.shadow == some d && !p.away).map (·.num)

/-- R157, R364: the pools whose shadow a lost die was get a new one; what was mirrored there is copied again. -/
def reshadow (d : Nat) (s : State) : State :=
  (shadowedOn s d).foldl (fun s num =>
    let s1 := if (s.pool? num).any fun p => mirrorPeer s p != some false then makeSingle num s else s
    makeMirrored num (s1.updPool num fun p => { p with shadow := newShadow s p p.home })) s

/-- SHADOW TAKEOVER (R361): with the heartbeat of die d lost and its hold low; in P2 and P3 the package wakes first
(R311, R458). -/
def shadowTakeover (d : Nat) (s : State) : State :=
  match s.die? d with
  | none => s
  | some x =>
    let nums := poolsOn s d
    if x.hold || !dieLost s d || !s.running || ((nums ++ shadowedOn s d).isEmpty && !s.alive d) then s
    else if 2 ≤ s.pw.pstate then wake s
    else
      let s1 := shadowPools d nums (silence d s)
      if s1.run.halted then s1
      else
        let taker := ((nums.head?.bind s1.pool?).map (·.home)).getD s1.id.lead
        let s2 := nums.foldl (fun s n => endReason n s) (kerfOver nums (reshadow d s1))
        if nums.isEmpty then s2 else raise taker 0x0044 { item := d } s2

/-! ### Retirement of a die (R386) -/

/-- R386: another healthy die has an up path to every member of a pool. -/
def retirable (s : State) (p : Pool) (d : Nat) : Bool := s.aliveDies.any fun e => e != d && pathsToAll s p e

/-- R386: the die that a pool of a retiring die moves to: its shadow die, or one that can take it where it has none in service. -/
def moveTo (s : State) (p : Pool) : Option Nat := (p.shadow.filter s.alive).orElse fun _ => newHome s p none

/-- R386 steps 1 and 2: the shadow die of a pool holds every unit of it as an extra mirror, and every live journal entry. -/
def copiedOut (s : State) (p : Pool) : Bool :=
  s.cache.all fun b => !b.dirty || b.extra || !(s.vol? b.vol).any fun v => v.pool == p.num

/-- R386: with no pool left on it a retiring die yields with cause 07h and stays retired. -/
def finishRetire (d : Nat) (s : State) : State :=
  if !((s.die? d).any (·.retiring)) || !(poolsOn s d).isEmpty then s
  else
    let s1 := dieYield d 0x07 (s.updDie d fun x => { x with keepRetired := true })
    if s1.run.halted then s1
    else
      let done := s1.cmds.filter fun c => c.op == .dieRetire && c.stage == .waiting && c.entry.param 44 1 % 8 == d
      done.foldl (fun s c => ok c.ref 0 s) (raisePkg 0x0047 { item := d } (reshadow d s1))

/-- DIE RETIRE MIGRATED (R386 steps 3 and 4): the copy of a pool is complete: its commands are held for at most 2 ticks
and its home moves. -/
def dieRetireMigrated (num : Nat) (s : State) : State :=
  match s.pool? num with
  | none => s
  | some p =>
    if !s.running || p.away || !((s.die? p.home).any (·.retiring)) || (p.shadow.any s.alive && !copiedOut s p) then s
    else match moveTo s p with
      | none => s
      | some h =>
        let s1 := takePool num p.home h false (startKerf s.clk.tick 2 [num] s)
        finishRetire p.home (endReason num (kerfOver [num] (makeMirrored num s1)))

end Sys2Proof.Machine
end

