-- ==== Sys2Proof/Machine/Pair.lean ====
section
/-! DEFINITION. The pair: lost heartbeats, the takeover decision, separation, the witness, rejoining, PARTNER CONTROL,
dry takeovers (R359, R363, R365 to R381). -/

namespace Sys2Proof.Machine

/-! ### Lost heartbeats (R359, R363) -/

/-- R359: die d has missed the heartbeat of slot e in two consecutive ticks. -/
def silentAt (s : State) (d e : Nat) : Bool := (hbSlot s d e).any fun h => decide (2 ≤ h.missed)

/-- R359: the partner's heartbeat is missed by every die in two consecutive ticks, or a package yield record arrived. -/
def partnerSilent (s : State) : Bool := s.pair.yieldSeen || s.aliveDies.all fun d => silentAt s d d

/-- R356, R363: the partner's die d has written its yield record. -/
def partnerDieYielded (s : State) (d : Nat) : Bool :=
  (s.die? d).any fun x => x.yielded.isNone && x.rfl.yrec.any fun r => r.scope == 1 && r.ydie == d

/-- R157, R363: a partner die is silent while others send: its copies do not count any more; the shadow die is mirror peer now. -/
def partnerDieLost (d : Nat) (s : State) : State :=
  let s0 := raisePkg 0x5049 { item := d } { s with pair := { s.pair with lostDies := insNat d s.pair.lostDies } }
  let s1 := (s.pools.filter fun p => !p.away).foldl (fun s p => loseRemote (some d) p.num s) s0
  (poolsOn s d).foldl (fun s n => makeMirrored n (makeSingle n s)) s1

/-- R369: the partner's heartbeat becomes lost. -/
def partnerLost (s : State) : State :=
  let p := { s.pair with hbOk := false, lostAt := some s.clk.tick, okTicks := 0 }
  raisePkg 0x5040 {} { s with pair := p }

/-- R390 D15, R518: each die that had the lost heartbeat as a peer's has found the fault. -/
def heartFault (ds : List Nat) (s : State) : State := ds.foldl (fun s d => countFault d 15 s) s

/-- HEARTBEAT LOST (R359, R363, R369). -/
def heartbeatLost (peer : HbPeer) (s : State) : State :=
  if !s.on || s.run.halted then s
  else match peer with
    | .die d =>
      if s.pair.lostOwn.contains d || !((s.aliveDies.filter (· != d)).all fun e => silentAt s e d || dieLost s d) ||
          (s.aliveDies.filter (· != d)).isEmpty then s
      else
        let s1 := heartFault (s.aliveDies.filter (· != d)) { s with pair := { s.pair with lostOwn := insNat d s.pair.lostOwn } }
        if s.alive d then openKerf (s.clk.tick - 1) (5 + exitTicks s) (poolsOn s d) s1 else s1
    | .partner => if s.id.inPair && s.pair.hbOk && partnerSilent s then heartFault s.aliveDies (partnerLost s) else s
    | .partnerDie d =>
      if s.id.inPair && s.pair.state == .paired && s.pair.hbOk && s.pair.holdIn && !s.pair.lostDies.contains d &&
          (silentAt s d d || partnerDieYielded s d) && !partnerSilent s then heartFault [d] (partnerDieLost d s) else s

/-! ### The takeover decision (R369 to R375) -/

/-- A new pair state. -/
def setPair (x : PairState) (s : State) : State := { s with pair := { s.pair with state := x, since := s.clk.tick % (top48 + 1) } }

/-- R371: the packages are separated: no mirroring, write-back single data destaged. -/
def separate (s : State) : State :=
  let s1 := raisePkg 0x5042 {} (setPair .separated s)
  (s.pools.filter fun p => !p.away).foldl (fun s p => makeSingle p.num (keepOld p.num s)) s1

/-- R347, R373 step 3: the queue pairs to the partner enter ERROR, those of the system endpoint with what it mirrored. -/
def dropPartnerQps (s : State) : State :=
  let own (m : Msg) : Bool := epPkg m.dst == s.id.pkgid
  let quiet (x : DieSt) : DieSt := { x with rfl := { x.rfl with sys := x.rfl.sys.filter own, sysWait := x.rfl.sysWait.filter own }, jr := { x.jr with sentIn := [] } }
  let s1 := { s with dies := s.dies.map quiet, cmds := s.cmds.map Cmd.unmirrored,
                     refl := { s.refl with wins := s.refl.wins.filter fun w => epPkg w.writer == s.id.pkgid } }
  (s.refl.qps.filter fun q => epPkg q.rem != s.id.pkgid && !q.error).foldl (fun s q => qpError q.die q.loc q.rem s) s1

/-- R147, R150, R364, R373 steps 4 and 5: the pools that the partner held, each onto the die of its own index, with what its journal
mirror resolves. -/
def importPools (s : State) : State :=
  (s.pools.filter (·.away)).foldl (fun s p =>
    if s.run.halted then s
    else match newHome s p (some p.home) with
      | none => packageYield s.id.lead 0x0A {} s
      | some h =>
        let back (q : Pool) : Pool := { q with away := false, taken := true }
        let s1 := takePool p.num p.home h false (adoptMirror p.num p.home (s.updPool p.num back))
        makeMirrored p.num s1) s

/-- R157: the dirty data of the package's own pools, mirrored on the partner that failed, is single until the shadow die of
each pool has a copy. -/
def remirror (s : State) : State :=
  (s.pools.filter fun p => !p.away).foldl (fun s p => makeMirrored p.num (makeSingle p.num s)) s

/-- R157, R372 step 3, R380: the write-back single data of the package's own pools is mirrored again. -/
def mirrorAll (s : State) : State := (s.pools.filter fun p => !p.away).foldl (fun s p => makeMirrored p.num s) s

/-- R363, R373 steps 1 to 5: the package becomes survivor, shuts the partner out and imports its pools; 5044h. -/
def beginTakeover (s : State) : State :=
  let s1 := { (setPair .survivor s) with pair := { s.pair with state := .survivor, since := s.clk.tick % (top48 + 1), shut := true, lostDies := [],
                                                                awaiting := false } }
  let s2 := (s.pools.filter fun p => !p.away).foldl (fun s p => loseRemote none p.num s) (dropPartnerQps (raisePkg 0x5044 {} (dropOld s1)))
  importPools (remirror s2)

/-- R367: the reservation keys of the partner's dies. -/
def partnerKeys (s : State) : List W64 :=
  s.dieIdx.map fun d => BitVec.ofNat 64 (leNat ((Config.sha256 s.pair.partnerSn).take 6) * 65536 + d)

/-- R373 step 6, R367: the partner's keys are preempted on the members of the pools taken over. -/
def preemptPartner (s : State) : State :=
  (s.pools.filter (·.taken)).foldl (fun s p => preempt p.num p.home (partnerKeys s) s) s

/-- R373, R374: writes are admitted again and the kerf ends; 5045h. -/
def endTakeover (s : State) : State :=
  let nums := (s.pools.filter fun p => !p.away && s.serves p.home).map (·.num)
  let s1 := preemptPartner s
  let s2 := { s1 with pair := { s1.pair with contest := none, acquiring := false, takeovers := satAdd top32 s1.pair.takeovers 1 } }
  nums.foldl (fun s n => endReason n s) (raisePkg 0x5045 {} (kerfOver nums s2))

/-- R311, R352: the kerf of a takeover of the partner's pools, longer by the exit time where the package has to wake; one that
began before the package woke goes on. -/
def partnerKerf (fault bound : Nat) (s : State) : State :=
  openKerf fault (bound + exitTicks s) ((s.pools.filter (·.away)).map (·.num)) s

/-- R352, R374: the fault tick of a takeover after a yield: the tick of the yield, in which the partner was last heard, whichever tick its
record came in. -/
def yieldTick (s : State) : Nat := min (s.clk.tick - 1) s.pair.lastHb

/-- R373, R374: a takeover after a yield, or by the host, without the witness, from a fault tick on. -/
def takeOver (fault : Nat) (s : State) : State :=
  let s1 := beginTakeover (partnerKerf fault 8 s)
  if s1.run.halted then s1 else endTakeover s1

/-- R375: a takeover through the witness begins; without a witness it awaits the host (R377), and the package keeps its own pools: as
survivor, whose mirror peers are the shadow dies, since the partner is absent (R365): DESIGN CHOICE (assumption 27). -/
def contestWitness (f : Nat) (s : State) : State :=
  match s.pair.witness with
  | none => if s.pair.awaiting then s else raisePkg 0x504B {} (remirror { setPair .survivor s with pair := { (setPair .survivor s).pair with awaiting := true } })
  | some _ =>
    let s1 := beginTakeover (partnerKerf f 12 s)
    if s1.run.halted then s1 else { s1 with pair := { s1.pair with contest := some f } }

/-- R370: HOLD_IN as the decision takes it: low while a hold-wire fault is recorded. -/
def holdSeen (s : State) (holdIn : Bool) : Bool := holdIn && !s.pair.wireFault

/-- R369: the decision is due: with a yield record at once, else one tick after the loss. -/
def decisionDue (s : State) : Bool :=
  s.pair.yieldSeen || s.pair.lostAt.any fun a => decide (a + 1 ≤ s.clk.tick)

/-- R369: the decision with the heartbeat lost. -/
def decideLost (holdIn : Bool) (s : State) : State :=
  if holdSeen s holdIn then (if s.pair.state = .paired then separate s else s)
  else if 2 ≤ s.pw.pstate then
    wake (if s.pair.yieldSeen then partnerKerf (yieldTick s) 8 s
          else if s.pair.witness.isSome then partnerKerf (s.pair.lostAt.getD s.clk.tick - 1) 12 s else s)
  else if s.pair.yieldSeen then takeOver (yieldTick s) s
  else contestWitness (s.pair.lostAt.getD s.clk.tick - 1) s

/-- TAKEOVER DECISION (R369): in every tick, from the partner's heartbeat and HOLD_IN. -/
def takeoverDecision (holdIn : Bool) (s : State) : State :=
  let s1 := { s with pair := { s.pair with holdIn := holdIn } }
  if !s.id.inPair || !s.running || s.pair.hbOk || s.pair.contest.isSome || s.pair.awaiting ||
      !(s.pair.state == .paired || s.pair.state == .separated) || !decisionDue s then s1
  else decideLost holdIn s1

/-! ### The witness (R375 to R377) -/

/-- R375: the tick in which the acquire is issued. -/
def acquireAt (s : State) (f : Nat) : Nat := f + if s.id.pkgid = 0 then 3 else 4

/-- WITNESS ACQUIRE (R375 step 3). -/
def witnessAcquire (s : State) : State :=
  match s.pair.contest, s.pair.witness with
  | some f, some w =>
    if !s.running || s.pair.acquiring || decide (s.clk.tick < acquireAt s f) then s
    else { s with pair := { s.pair with acquiring := true } }.emit (.reserve w s.id.lead 1 (reserveKey s s.id.lead))
  | _, _ => s

/-- WITNESS ACQUIRE DONE (R375 steps 4 and 5). -/
def witnessDone (conflict : Bool) (s : State) : State :=
  if !s.running || !s.pair.acquiring || s.pair.contest.isNone then s
  else if conflict then packageYield s.id.lead 0x0B {} (raisePkg 0x5046 {} s)
  else endTakeover { s with pair := { s.pair with witnessHeld := true } }

/-- The witness reservation is released. -/
def releaseWitness (s : State) : State :=
  match s.pair.witness with
  | some w =>
    if s.pair.witnessHeld then
      { s with pair := { s.pair with witnessHeld := false } }.emit (.reserve w s.id.lead 2 (reserveKey s s.id.lead))
    else s
  | none => { s with pair := { s.pair with witnessHeld := false } }

/-- R485: the commands that wait for a feature complete. -/
def endWaiters (p : Nat → Nat → Bool) (s : State) : State :=
  let done := s.feat.waiters.filter fun w => p w.2.1 w.2.2
  let s1 := { s with feat := { s.feat with waiters := s.feat.waiters.filter fun w => !p w.2.1 w.2.2 } }
  done.foldl (fun s w => ok w.1 0 s) s1

/-- WITNESS MEASURE (R377): the latency in units of 0.1 microseconds; above 30 microseconds 5047h. -/
def witnessMeasure (latency : Nat) (s : State) : State :=
  if s.pair.witness.isNone || !s.running then s
  else
    let p := { s.pair with witnessLat := min top32 latency, witnessSlow := decide (300 < latency) }
    let s1 := { s with pair := p }
    endWaiters (fun fid _ => fid == 7) (if 300 < latency then raisePkg 0x5047 {} s1 else s1)

/-- HOLD WIRE CLEARED (R370). -/
def holdWireCleared (s : State) : State :=
  if s.pair.wireFault ∧ 250000 ≤ s.pair.wireAgree then
    { s with pair := { s.pair with wireFault := false, wireDiff := 0, wireAgree := 0 } }
  else s

/-! ### Rejoining (R372, R379) -/

/-- R372: RDELAY, at least 16. -/
def rdelay : Nat := 16

/-- PAIR REJOIN (R372 step 1): the package with PKGID 0 writes a rejoin record. -/
def pairRejoin (s : State) : State :=
  if !mayRejoin s || s.id.pkgid != 0 || !s.running || s.pair.rejoinAt.isSome || s.pair.contest.isSome || decide (s.pair.okTicks < 25000) then s
  else
    let (m, _) := nextMsg 0 s
    let s1 := sendSystem 0 s.partner 0 1 0xFFFE 128 0 false (yieldBytes 0 0 0 s.clk.optime rdelay) s
    beginRejoin { s1 with pair := { s1.pair with rejoinAt := some (s.clk.tick + rdelay), rejoinMsg := some m } }

/-- R372 step 1: the ACK of the rejoin record. -/
def ackRejoin (d : Nat) (g : Seg) (s : State) : State :=
  if d = 0 ∧ !g.resp ∧ g.dst = epAddr s.id.pkgid 0 0 ∧ g.src = epAddr s.partner 0 0 ∧ s.pair.rejoinMsg = some g.msgno then
    { s with pair := { s.pair with rejoinMsg := none } }
  else s

/-- REJOIN TICK (R160, R317, R366, R372 steps 2 to 5): the pair forms again, with the sizes that the partner's protected regions have
now, which no row tells (assumption 12). A follower aligns anew with the leader's pulses (R74). -/
def rejoinTick (s : State) : State :=
  match s.pair.rejoinAt with
  | none => s
  | some t =>
    if !s.running || !mayRejoin s || s.pair.rejoinMsg.isSome || decide (s.clk.tick < t) then s
    else
      let s1 := releaseWitness (setPair .paired s)
      let p := { s1.pair with rejoinAt := none, rejoinMsg := none, shut := false, yieldSeen := false, lostAt := none, lostDies := [],
                              awaiting := false, partnerProt := Config.peerProt s.free, rejoins := satAdd top32 s1.pair.rejoins 1 }
      let s2 := mirrorAll
        { s1 with pair := p, free := s1.free + 1, clk := { s1.clk with seen := false }, cmds := s1.cmds.map Cmd.unmirrored,
                  dies := s1.dies.map fun x => { x with rfl := dropStale x.rfl } }
      raisePkg 0x5043 {} (exchange s2)

/-- PARTNER ABSENT TIMEOUT (R379): no partner heartbeat 1 s after the package became ready, with HOLD_IN low. -/
def partnerAbsent (s : State) : State :=
  if !s.id.inPair || !s.running || s.pair.hbOk || decide (s.run.readyAt ≤ s.pair.lastHb ∧ 0 < s.pair.lastHb) || holdSeen s s.pair.holdIn ||
      s.pair.contest.isSome || s.pair.awaiting || s.pair.shut || decide (s.clk.tick < s.run.readyAt + 250000) then s
  else contestWitness s.clk.tick s

/-! ### PARTNER CONTROL (R380, R503) -/

/-- R378, R380: a pool that goes back to the partner; its uncompleted commands complete with 0602h, a FLUSH that waits for its data among
them. -/
def handBack (num : Nat) (s : State) : State :=
  let away (p : Pool) : Pool := { p with away := true, taken := false }
  let s1 := (stopWork num s).updPool num away
  let s2 := s1.dropBlocks fun b => (s.vol? b.vol).any fun v => v.pool == num
  let waits (c : Cmd) : Bool := flushesAll s num c && c.wait.any fun w => (s.vol? w.1).any fun v => v.pool == num
  (s2.cmds.filter fun c => forPool s num c || waits c).foldl (fun s c => failIo c.ref 0x0602 s) s2

/-- R117, R380: a write-kind command of a pool that has units protected and is not complete: it ends before the pool goes. -/
def halfDone (s : State) (num : Nat) (c : Cmd) : Bool := c.past && writeKind c.op && forPool s num c

/-- R352, R353, R380: the handback begins: the kerf of the pools that were taken over, whose commands are held from now on. -/
def beginHandback (ref : CmdRef) (s : State) : State :=
  openKerf s.clk.tick 8 ((s.pools.filter (·.taken)).map (·.num))
    { s.updCmd ref (fun c => { c with stage := .waiting }) with pair := { s.pair with handing := some ref } }

/-- R352, R378, R380: once no command of theirs is half done the pools go to the partner's dies and the kerf ends; a pair that has parted
hands nothing back, and the command completes with 0402h (DESIGN CHOICE, assumption 27). -/
def endHandback (s : State) : State :=
  match s.pair.handing with
  | none => s
  | some ref =>
    let held := (s.pools.filter (·.taken)).map (·.num)
    let s1 := { s with pair := { s.pair with handing := none } }
    if s.pair.state ≠ .paired then busy ref (kerfOver held s1)
    else if s.cmds.any fun x => held.any fun n => halfDone s n x then s
    else
      let s2 := held.foldl (fun s n => handBack n s) (kerfOver held s1)
      ok ref 0 (raisePkg 0x504A {} (releaseWitness s2))

/-- R157: write-back single data of the package's own pools. -/
def singleLeft (s : State) : Bool :=
  s.cache.any fun b => b.dirty && !b.mirrored && b.remote.isNone && ((s.vol? b.vol).bind fun v => s.pool? v.pool).any fun p => !p.away

/-- R380: the package hands over once its write-back single data is mirrored to the partner: the command completes and the package yields
with cause 0Ch; in a pair that has parted it completes with 0402h (DESIGN CHOICE, assumption 27). -/
def endLeaving (s : State) : State :=
  match s.pair.leaving with
  | none => s
  | some ref =>
    let s1 := { s with pair := { s.pair with leaving := none } }
    if s.pair.state ≠ .paired then busy ref s1
    else if singleLeft s then s
    else packageYield s.id.lead 0x0C {} (ok ref 0 s1)

/-- R380: the package is to hand over: what is single goes to the partner first. -/
def beginLeaving (ref : CmdRef) (s : State) : State :=
  { s.updCmd ref (fun c => { c with stage := .waiting }) with pair := { s.pair with leaving := some ref } }

/-- PARTNER CONTROL (R380, R503). -/
def partnerControl (c : Cmd) (s : State) : State :=
  let act := bits (c.entry.param 44 1) 2 0
  if !s.id.inPair || 4 < act || (act == 4 && !s.pair.awaiting) then fail c.ref 0x0103 s
  else if s.pair.kerf.isSome || s.pair.contest.isSome || s.pair.handing.isSome || s.pair.leaving.isSome then busy c.ref s
  else match act with
    | 0 =>
      let s1 := { s with pair := { s.pair with forced := true, rejoinAt := none, rejoinMsg := none } }
      ok c.ref 0 (if s.pair.state = .paired then separate s1 else s1)
    | 1 => ok c.ref 0 { s with pair := { s.pair with forced := false } }
    | 2 => if s.pair.state = .paired then endLeaving (beginLeaving c.ref s) else busy c.ref s
    | 3 => if s.pair.state = .paired then endHandback (beginHandback c.ref s) else busy c.ref s
    | _ => if s.pair.holdIn then busy c.ref s else ok c.ref 0 (takeOver (s.clk.tick - 1) s)

/-! ### Dry takeover (R381) -/

/-- R381: the die whose mirror is checked: the named die of the package, or the partner's die of the same index when a die
names itself. -/
def dryHolder (s : State) (d h : Nat) : Bool :=
  if d = h then s.id.inPair && s.pair.state == .paired
  else s.pools.any fun p => p.home == d && p.shadow == some h && !p.away

/-- R158, R381: the holders of a die's journal mirrors. -/
def dryHolders (s : State) (d : Nat) : List Nat := s.dieIdx.filter (dryHolder s d)

/-- R381: one more failed pass with a holder, whose copy is written anew from the live journal; the second in a row makes that holder
yield with cause 0Eh. -/
def dryMismatch (d h : Nat) (s : State) : State :=
  let n := (((s.die? d).bind fun x => x.hw.dryFails.find? fun f => f.1 == h).map (·.2)).getD 0
  let note (k : HwSt) : HwSt :=
    { k with dryDone := s.clk.tick % (top48 + 1), dryMismatch := satAdd top32 k.dryMismatch 1, dryFails := (h, n + 1) :: k.dryFails.filter fun f => f.1 != h }
  let copy (q : DieRfl) : DieRfl := { q with copies := (d, shadowEntries s d h) :: q.copies.filter fun c => c.1 != d }
  let anew := if h = d then s.updJr d JournalSt.sendAnew else s.updRfl h copy
  let s1 := raise d 0x0046 { item := h } (anew.updHw d note)
  if 1 ≤ n ∧ h ≠ d then dieYield h 0x0E s1 else s1

/-- R213, R381: the digest over entries in JSN order. -/
def journalDigest (es : List JEntry) : Nat := crc64 (es.flatMap JEntry.bytes)

/-- R381 steps 1 and 2: a shadow die's copy of a die's live entries has the digest of the die's own. The partner's copy is not in State. -/
def dryEqual (s : State) (d h : Nat) : Bool :=
  h == d || journalDigest ((copyOf s d h).getD []) == journalDigest (shadowEntries s d h)

/-- DRY TAKEOVER (R381, R503): `fold` tells what the holder finds as it folds its copy, and of the partner's copy the digest too. -/
def dryTakeover (d h : Nat) (fold : Bool) (s : State) : State :=
  let good := fold && dryEqual s d h
  if !s.running || !s.alive d || !dryHolder s d h then s
  else
    let note (k : HwSt) : HwSt := { k with dryDone := s.clk.tick % (top48 + 1), dryFails := k.dryFails.filter fun f => f.1 != h }
    let s1 := if good then s.updHw d note else dryMismatch d h s
    finishTest 3 d (some h) (bit !good) s1

/-! ### Rows without effect on commands -/

/-- HOLD WIRE CLEARED (R370). -/
def execHoldWireCleared (s : State) : Answer := .next (holdWireCleared s)

/-- WITNESS ACQUIRE (R375). -/
def execWitnessAcquire (s : State) : Answer := .next (witnessAcquire s)

/-- PAIR REJOIN (R372). -/
def execPairRejoin (s : State) : Answer := .next (pairRejoin s)

/-- WITNESS MEASURE (R377). -/
def execWitnessMeasure (latency : Nat) (s : State) : Answer := .next (witnessMeasure latency s)

end Sys2Proof.Machine
end

