-- ==== Sys2Proof/Machine/Logs.lean ====
section
/-! DEFINITION. The recorder's commands, the health report and the maintenance commands (R382 to R384, R386, R413,
R420 to R425, R430, R502 to R504). -/

namespace Sys2Proof.Machine

/-! ### Records (R413) -/

/-- R413: a record as 64 bytes, with its VALID mark. -/
def recBytes (r : Rec) : Bytes :=
  let b := le 2 r.code ++ le 1 r.sev ++ le 1 r.die ++ le 1 r.det.unit ++ le 1 (bit r.held + 2 * bit r.faultArea) ++ le 6 r.optime ++
    le 4 r.pcycles ++ detailBytes r ++ le 4 r.rseq
  b ++ le 4 (2 ^ 31 + crc32c b % 2 ^ 31)

/-- LOG FREEZE (R420): the pre-write buffers are programmed and the recorders stand still. -/
def logFreeze (c : Cmd) (s : State) : State :=
  if s.log.frozen then ok c.ref 0 s
  else
    let s1 := programEvery s
    ok c.ref 0 { s1 with log := { s1.log with frozen := true, frozenAt := s.clk.tick } }

/-- LOG THAW (R421). -/
def logThaw (c : Cmd) (s : State) : State := ok c.ref 0 (if s.log.frozen then thaw s else s)

/-- R503: the header of LOG READ. -/
def logHeader (s : State) (total n : Nat) : Bytes :=
  padTo 128 (le 4 total ++ le 4 n ++ zeros 8 ++ s.dies.flatMap fun x => le 4 x.recd.dropped ++ le 4 x.recd.holdOvf)

/-- LOG READ (R423, R503). -/
def logRead (c : Cmd) (s : State) : State :=
  if s.log.indexing then busy c.ref s
  else if c.dataLen < 128 ∨ (c.dataLen - 128) % 64 ≠ 0 then fail c.ref 0x0140 s
  else
    let all := combined s
    let part := (all.drop (c.entry.param 48 4)).take ((c.dataLen - 128) / 64)
    okBuffer c (logHeader s all.length part.length ++ part.flatMap recBytes) 0 part.length s

/-- LOG CLEAR CHALLENGE (R424, R503). -/
def logClearChallenge (c : Cmd) (s : State) : State :=
  if s.log.secret.isNone then fail c.ref 0x0304 s
  else if s.clk.tick < s.log.busyUntil then busy c.ref s
  else
    let (n, s1) := s.fresh
    let ch : Challenge := ⟨Config.freeChallenge n, s.clk.optime, s.clk.powerCycles, s.clk.tick⟩
    complete c.ref 0 { extra := le 16 ch.c.toNat ++ le 8 ch.ot ++ le 4 ch.pc }
      { s1 with log := { s1.log with challenge := some ch } }

/-- R424: the message that the response authenticates. -/
def clearMessage (ch : Challenge) : Bytes := ascii "ELOAMOS LOG CLEAR" ++ le 16 ch.c.toNat ++ le 8 ch.ot ++ le 4 ch.pc

/-- R425: an empty recorder. -/
def wiped (q : RecorderSt) : RecorderSt :=
  { q with slots := if q.failed then q.slots else [], dropped := 0, holdOvf := 0, rates := [], clearPending := none }

/-- R425: the clear: zeros in every slot, 8005h in slot 0 of the lead die, the holding queues after it. -/
def clearLog (at_ : Nat) (s : State) : State :=
  let s := programEvery s
  let n := (s.dies.map fun x => if x.recd.failed then 0 else x.recd.slots.length).sum
  let dropped := (s.dies.map (·.recd.dropped)).sum
  let s1 := signalEvent s.id.lead 0x8005 (s.updRecs wiped)
  let r : Rec := { mkRec s1 s.id.lead 0x8005 { arg0 := n, arg1 := dropped } with optime := at_ }
  s1.dieIdx.foldl (fun s d => writeHolding d s) (programRec s.id.lead r s1)

/-- R424: a LOG CLEAR whose response fails: 8006h; the eighth in a row stops challenges for a minute. -/
def clearRefused (c : Cmd) (s : State) : State :=
  let n := s.log.failures + 1
  let s1 := { s with log := { s.log with failures := if 8 ≤ n then 0 else n,
                                         busyUntil := if 8 ≤ n then s.clk.tick + 15000000 else s.log.busyUntil } }
  fail c.ref 0x0304 (raisePkg 0x8006 {} s1)

/-- LOG CLEAR (R424, R425). -/
def logClear (c : Cmd) (s : State) : State :=
  if c.dataLen ≠ 32 then fail c.ref 0x0140 s
  else
    let s1 := { s with log := { s.log with challenge := none } }
    match s.log.challenge, s.log.secret with
    | none, _ => fail c.ref 0x0305 s1
    | some _, none => clearRefused c s1
    | some ch, some k =>
      if Config.hmac k (clearMessage ch) ≠ padTo 32 c.buf then clearRefused c s1
      else if s.log.frozen then busy c.ref s1
      else ok c.ref 0 (clearLog s.clk.optime { s1 with log := { s1.log with failures := 0 } })

/-- TIME ANCHOR (R430). -/
def timeAnchor (c : Cmd) (s : State) : State :=
  ok c.ref 0 (raisePkg 0x8008 { cause := bits (c.entry.param 44 1) 0 0, arg0 := c.entry.param 48 8 } s)

/-! ### The health report (R190, R382 to R384) -/

/-- R185: bytes of a die's vault image; the sizes of its header and directory are not stated (assumption 4). -/
def imageBytes (s : State) (d : Nat) : Nat :=
  dirtyBytes s d + 64 * ((s.die? d).map fun x => liveEntries x.jr).getD 0 + Config.freeNat d

/-- R190: T_replay of a die in ticks. -/
def replayTicks (s : State) (d : Nat) : Nat :=
  match s.die? d with
  | none => 0
  | some x => 25000 + ceilDiv (liveEntries x.jr) 64 + 25 * x.jr.segs.length + 8 * openIntents x.jr +
      if x.vault then ceilDiv (imageBytes s d) x.rateVr else 0

/-- R384: the reflect link width. -/
def linkWidth (k : LinkSt) : Nat := if k.state == .active || k.state == .recover then k.width else 0

/-- R384: ROLE of a die. -/
def roleBits (s : State) (d : Nat) (x : DieSt) : Nat := bit (s.id.lead == d) + 2 * bit x.retiring

/-- R384: a die's section. -/
def dieSection (s : State) (d : Nat) (x : DieSt) : Bytes :=
  let h := x.hw
  layout 256 [(0, le 1 (bit !x.alive)), (1, le 1 (roleBits s d x)), (2, le 1 h.spares.length), (3, le 1 (h.gf.filter id).length),
    (4, h.cores.flatMap (le 1)), (28, le 1 (maskOf ((List.range 4).filter fun i => h.ddr[i]? == some true))),
    (29, le 1 (hostWidthNow x)), (30, le 1 h.driveLanes), (31, le 1 (linkWidth x.link)),
    (32, le 1 (maskOf ((usedModules s.id.part d).filter (moduleUp s d)))), (33, le 1 (poolsOn s d).length),
    (34, le 1 (shadowedOn s d).length), (36, le 4 (liveEntries x.jr)), (40, le 4 x.jr.segs.length), (44, le 4 (openIntents x.jr)),
    (48, le 4 (replayTicks s d)), (52, le 4 h.nvUsed), (56, le 8 h.lbistDone), (64, le 8 h.dryDone), (72, le 4 h.dryMismatch),
    (76, le 4 h.lbistFail), (80, le 4 h.sramCe), (84, le 4 h.ddrCe), (88, le 2 (h.temp.signExtend 16).toNat)]

/-- R384: the section of a die that the part lacks. -/
def noDie : Bytes := layout 256 [(0, le 1 2)]

/-- R383: PAIR. -/
def pairCode (s : State) : Nat :=
  if !s.id.inPair then 4
  else match s.pair.state with
    | .paired => 0
    | .separated => 1
    | .survivor => 2
    | .halted => 3

/-- R383: FLAGS. -/
def healthFlags (s : State) : Nat :=
  bit s.pair.witness.isSome + 2 * bit s.pair.witnessSlow + 4 * bit s.pair.wireFault + 8 * bit s.pair.holdIn + 16 * bit s.pair.hbOk +
    32 * bit s.clk.syncLost + 64 * bit s.pair.witnessHeld

/-- R383, R384: the health report but for its CRC. -/
def healthBody (s : State) (seq : W32) : Bytes :=
  let q := s.pair
  layout 4092 ([(0, ascii "ELOAHLTH"), (8, le 2 1), (10, le 2 0x1000), (12, le 4 seq.toNat), (16, le 8 s.clk.optime), (24, le 4 s.clk.powerCycles),
    (28, le 1 s.id.pkgid), (29, le 1 (pairCode s)), (30, le 1 s.id.lead), (31, le 1 s.dies.length), (32, le 1 (maskOf s.aliveDies)),
    (33, le 1 (maskOf (s.dieIdx.filter fun d => !s.alive d))), (34, le 2 (healthFlags s)), (36, le 4 q.kerfs), (40, le 4 q.lastKerf),
    (44, le 4 q.longKerf), (48, le 4 q.witnessLat), (52, le 4 (s.pools.filter (·.taken)).length), (2112, (padTo 20 q.partnerSn).take 16),
    (2128, le 8 q.lastHb), (2136, le 8 q.since), (2144, le 4 q.hbMiss), (2148, le 4 q.rejoins), (2152, le 4 q.takeovers)] ++
    (List.range 8).map fun d => (64 + 256 * d, ((s.die? d).map (dieSection s d)).getD noDie))

/-- R383: the health report: 4,096 bytes. -/
def healthBytes (s : State) (seq : W32) : Bytes := let b := healthBody s seq; b ++ le 4 (crc32c b)

/-- HEALTH REPORT (R382, R502). -/
def healthReport (c : Cmd) (s : State) : State :=
  if c.dataLen < 4096 then fail c.ref 0x0140 s else okBuffer c (healthBytes s s.feat.healthSeq) 0 0 s

/-- HEALTH REPORT WRITE (R382): SEQ odd, the body, SEQ even, each in a later posted write. -/
def healthWrite (s : State) : State :=
  if s.feat.healthAddr = 0 ∨ !s.running then s
  else
    let a := s.feat.healthAddr
    let n := s.feat.healthSeq
    let b := healthBytes s (n + 2)
    let s1 := ((s.emit (.host (a + 12) (le 4 (n + 1).toNat))).emit (.host (a + 16) (b.drop 16))).emit (.host a (b.take 16))
    { s1 with feat := { s1.feat with healthSeq := n + 2 } }

/-- HEALTH REPORT WRITE (R382). -/
def execHealthReportWrite (s : State) : Answer := .next (healthWrite s)

/-! ### Maintenance (R386, R502 to R504) -/

/-- R503: the passes that SELF TEST asks for: one a die, with the holders a dry takeover visits. -/
def testsOf (s : State) (c : Cmd) : List Test :=
  let t := bits (c.entry.param 44 1) 2 0
  let n := c.entry.param 46 1
  (if n = 0xFF then s.aliveDies else [n]).map fun d => ⟨t, d, c.ref, if t = 3 then dryHolders s d else []⟩

/-- SELF TEST (R503). -/
def selfTest (c : Cmd) (s : State) : State :=
  let t := bits (c.entry.param 44 1) 2 0
  let n := c.entry.param 46 1
  if t = 0 ∨ 5 < t ∨ (n ≠ 0xFF ∧ !s.alive n) then fail c.ref 0x0103 s
  else
    let all := testsOf s c
    if all.any fun x => s.tests.any fun y => y.test == x.test && y.die == x.die then busy c.ref s
    else
      let wanted := all.filter fun x => t != 3 || !x.left.isEmpty
      if wanted.isEmpty then ok c.ref 0 s
      else { s.updCmd c.ref fun c => { c with stage := .waiting, aux := 0 } with tests := s.tests ++ wanted }

/-- R503: an engine's known-answer test, whose outcome the device finds (assumption 4). -/
def engineTest (s : State) : Bool × State := let (n, s1) := s.fresh; (Config.freeBool n, s1)

/-- ENGINE SWAP ACTION 0 (R24, R503): the engine is back in service, or stays out. -/
def engineIn (c : Cmd) (d u : Nat) (s : State) : State :=
  let (good, s1) := engineTest s
  let s2 := if u < 0x28 then s1.updHw d fun h => { h with gf := h.gf.set (u - 0x20) good }
    else s1.updHw d fun h => { h with aes := h.aes.set (u - 0x28) good }
  let gone := (s2.die? d).any fun x => !(if u < 0x28 then x.hw.gf else x.hw.aes).any id
  let s3 := ok c.ref (bit !good) s2
  if gone then dieYield d (if u < 0x28 then 0x02 else 0x06) s3 else s3

/-- ENGINE SWAP ACTION 1 (R503): the engine leaves service, unless it is the last of its kind. -/
def engineOut (c : Cmd) (d u : Nat) (s : State) : State :=
  let gf := decide (u < 0x28)
  let i := if gf then u - 0x20 else u - 0x28
  let left := ((s.die? d).map fun x => ((if gf then x.hw.gf else x.hw.aes).set i false).any id).getD false
  if !left then fail c.ref 0x0401 s
  else ok c.ref 0 (s.updHw d fun h => if gf then { h with gf := h.gf.set i false } else { h with aes := h.aes.set i false })

/-- ENGINE SWAP (R24, R503). -/
def engineSwap (c : Cmd) (s : State) : State :=
  let d := bits (c.entry.param 44 1) 2 0
  let u := c.entry.param 45 1
  if !s.alive d || !((0x20 ≤ u && u < 0x22) || (0x28 ≤ u && u < 0x2C)) then fail c.ref 0x0103 s
  else if bits (c.entry.param 46 1) 0 0 = 0 then engineIn c d u s else engineOut c d u s

/-- DIE RETIRE (R386, R503). -/
def dieRetire (c : Cmd) (s : State) : State :=
  let d := bits (c.entry.param 44 1) 2 0
  if (s.die? d).isNone ∨ c.ref.die = d then fail c.ref 0x0103 s
  else if bits (c.entry.param 45 1) 0 0 = 1 then
    let mark (x : DieSt) : DieSt := if x.keepRetired then { x with restore := true } else x
    ok c.ref 0 (s.updDie d mark)
  else if !s.alive d then fail c.ref 0x0103 s
  else if s.pair.kerf.isSome ∨ s.dies.any (·.retiring) then busy c.ref s
  else if (poolsOn s d).any fun n => (s.pool? n).all fun p => !retirable s p d then fail c.ref 0x0401 s
  else
    let s1 := (s.updCmd c.ref fun c => { c with stage := .waiting }).updDie d fun x => { x with retiring := true, restore := false }
    finishRetire d s1

/-- R504: the header of TICK BUDGET REPORT. -/
def budgetHeader (d : Nat) (x : DieSt) : Bytes :=
  let f := x.frame
  layout 256 [(0, le 1 d), (1, le 1 (bit f.shed)), (2, le 2 12), (8, le 4 f.intMiss.length), (12, le 4 f.extMiss.length), (16, le 8 f.intTotal),
    (24, le 8 f.extTotal), (32, le 8 f.shedTick), (64, allotments.flatten.flatMap (le 2))]

/-- R504: one entry. -/
def budgetEntry (b : Budget) : Bytes :=
  layout 32 [(0, le 1 b.kind), (1, le 1 b.cls), (2, le 1 b.stage), (4, le 4 b.calib), (8, le 4 b.current), (12, le 4 b.p999), (16, le 2 b.urg),
    (24, le 8 b.changed)]

/-- TICK BUDGET REPORT (R72, R504). -/
def tickBudgetReport (c : Cmd) (s : State) : State :=
  let d := bits (c.entry.param 44 1) 2 0
  match s.die? d with
  | none => fail c.ref 0x0103 s
  | some x =>
    if c.dataLen < 256 ∨ (c.dataLen - 256) % 32 ≠ 0 then fail c.ref 0x0140 s
    else
      let es := x.frame.budgets.take ((c.dataLen - 256) / 32)
      okBuffer c (budgetHeader d x ++ es.flatMap budgetEntry) 0 es.length s

end Sys2Proof.Machine
end

