-- ==== Sys2Proof/Machine/Firmware.lean ====
section
/-! DEFINITION. Firmware images: download, programming, activation, the flips of the core classes (R312, R313, R464,
R468 to R472). -/

namespace Sys2Proof.Machine

/-! ### Staging (R470) -/

/-- R468: bytes of the largest image. -/
def imageMax : Nat := 16 * 2 ^ 20

/-- The byte staged at an offset of the image. -/
def stagedAt (l : List (Nat × Bytes)) (o : Nat) : Option Byte :=
  l.findSome? fun x => if x.1 ≤ o then x.2[o - x.1]? else none

/-- R470: bytes staged contiguously from offset 0, looking at k chunks at most. -/
def contiguous : Nat → List (Nat × Bytes) → Nat → Nat
  | 0, _, n => n
  | k + 1, l, n =>
    match l.find? fun x => decide (x.1 ≤ n) && decide (n < x.1 + x.2.length) with
    | some x => contiguous k l (x.1 + x.2.length)
    | none => n

/-- R470: n bytes of the staged image from an offset. -/
def stagedBytes (l : List (Nat × Bytes)) (off n : Nat) : Bytes := (List.range n).map fun i => (stagedAt l (off + i)).getD 0

/-- R468: LENGTH, once the header's chunk is staged. -/
def stagedLength (l : List (Nat × Bytes)) : Option Nat :=
  if 24 ≤ contiguous l.length l 0 then some (leNat (stagedBytes l 20 4)) else none

/-- R470: a chunk that disagrees with bytes staged before. -/
def disagrees (l : List (Nat × Bytes)) (off : Nat) (b : Bytes) : Bool :=
  b.zipIdx.any fun x => (stagedAt l (off + x.2)).any (· != x.1)

/-- R470: the staged image is discarded. -/
def unstage (s : State) : State := { s with fw := { s.fw with staged := [] } }

/-- FIRMWARE DOWNLOAD (R470, R502): one chunk; the one that completes the image waits for its programming. -/
def firmwareDownload (c : Cmd) (s : State) : State :=
  let off := c.entry.param 48 4
  let n := c.dataLen
  if off % 4096 ≠ 0 then fail c.ref 0x0103 s
  else if n < 4 ∨ 1048576 < n then fail c.ref 0x0140 s
  else if s.fw.loader.isSome then busy c.ref s
  else
    let old := if off = 0 then [] else s.fw.staged
    let data := padTo n c.buf
    let all := old ++ [(off, data)]
    let limit := (stagedLength all).getD imageMax
    if disagrees old off data ∨ imageMax < limit ∨ (all.any fun x => decide (limit < x.1 + x.2.length)) then fail c.ref 0x0180 (unstage s)
    else
      let got := contiguous all.length all 0
      let s1 := { s with fw := { s.fw with staged := all } }
      if stagedLength all = some got then
        { s1.updCmd c.ref fun c => { c with stage := .waiting, aux := got } with fw := { s1.fw with loader := some c.ref } }
      else ok c.ref got s1

/-! ### Verification and programming (R469, R470) -/

/-- R469: every section lies within LENGTH. -/
def sectionsOk (b : Bytes) (len : Nat) : Bool :=
  (List.range 10).all fun i => decide (fieldAt b (160 + 8 * i) 4 + fieldAt b (164 + 8 * i) 4 ≤ len)

/-- R469: the status of an image that the device does not accept. -/
def imageStatus (minSvn : Nat) (b : Bytes) : Option W16 :=
  let len := fieldAt b 20 4
  if b.take 8 != ascii "ELOAFWIM" || decide (len < 4192) || !sectionsOk b len then some 0x0180
  else if Config.sha384 (slice b 32 97) != Config.fuseDigest ||
      !Config.ecdsaOk (slice b 32 97) (Config.sha384 (b.take (len - 96))) (slice b (len - 96) 96) then some 0x0181
  else if fieldAt b 16 4 < minSvn then some 0x0182
  else none

/-- R468: VERSION, COMPAT and SVN of an image. -/
def imageOf (b : Bytes) : Image :=
  ⟨BitVec.ofNat 32 (fieldAt b 8 4), BitVec.ofNat 32 (fieldAt b 12 4), BitVec.ofNat 32 (fieldAt b 16 4)⟩

/-- R464: a slot holds an image, or none that verifies. -/
def FwSt.setSlot (f : FwSt) (b : Bool) (i : Option Image) : FwSt := if b then { f with imgB := i } else { f with imgA := i }

/-- R470: programming into the slot that the pointer does not name; a readback that differs leaves no image there. -/
def programImage (c : CmdRef) (b : Bytes) (readbackOk : Bool) (s : State) : State :=
  let other := !s.fw.slotB
  let put (i : Option Image) : FwSt :=
    { s.fw.setSlot other i with loader := none, staged := [], pend := if i.isSome then some other else none }
  if readbackOk then ok c b.length (raisePkg 0x7001 {} { s with fw := put (some (imageOf b)) })
  else fail c 0x0180 { s with fw := put none }

/-- FIRMWARE PROGRAMMED (R469, R470). -/
def firmwareProgrammed (readbackOk : Bool) (s : State) : State :=
  match s.fw.loader with
  | none => s
  | some c =>
    if !s.running || s.fw.active then s
    else
      let b := stagedBytes s.fw.staged 0 (contiguous s.fw.staged.length s.fw.staged 0)
      match imageStatus s.fw.minSvn.toNat b with
      | some st =>
        let s1 := { s with fw := { s.fw with loader := none, staged := [] } }
        fail c st (if st = 0x0181 then raisePkg 0x7002 {} s1 else s1)
      | none => programImage c b readbackOk s

/-! ### Activation (R471, R472) -/

/-- R469: an image becomes the running one: its version, and the minimum SVN raised to its own. -/
def runImage (i : Image) (s : State) : State :=
  { s with id := { s.id with runVer := i.version },
           fw := { s.fw with minSvn := BitVec.ofNat 32 (max s.fw.minSvn.toNat i.svn.toNat) } }

/-- FIRMWARE ACTIVATE (R312, R313, R471). -/
def firmwareActivate (c : Cmd) (s : State) : State :=
  if s.fw.active then busy c.ref s
  else if bits (c.entry.param 44 1) 0 0 = 1 then
    match s.fw.pend with
    | none => fail c.ref 0x0184 s
    | some b => ok c.ref 0 { s with fw := { s.fw with slotB := b } }
  else if 2 ≤ s.pw.pstate ∨ s.pair.state = .separated ∨ s.pair.kerf.isSome then busy c.ref s
  else match s.fw.pendImg with
    | none => fail c.ref 0x0184 s
    | some i =>
      if s.id.runVer.toNat < i.compat.toNat then fail c.ref 0x0183 s
      else { s.updCmd c.ref fun c => { c with stage := .waiting } with
             fw := { s.fw with active := true, loaded := false, flipped := 0, cmd := some c.ref } }

/-- FIRMWARE LOAD DONE (R471 step 1). -/
def firmwareLoadDone (s : State) : State :=
  if s.running ∧ s.fw.active ∧ !s.fw.loaded then { s with fw := { s.fw with loaded := true, flipBase := s.clk.tick + 1 } } else s

/-- R471: the longest hold of the class flipped in a place of the order, from 0. -/
def flipHold (n : Nat) : Nat := if n = 0 then 0 else if n < 8 then 2 else 1

/-- R352, R353, R471: a flip holds the work of its class in place: a kerf of all pools. -/
def flipKerf (n : Nat) (s : State) : State :=
  let long := briefLength (flipHold n) s
  let hold (p : Pool) : Pool := { p with lock := p.lock.map fun k => { k with hold := k.hold + long } }
  if n = 0 then s
  else markLate long (fun c => usesVol c.op) (kerfBrief (flipHold n) { s with pools := s.pools.map hold })

/-- R457, R471: activation is over: a SET POWER STATE that waited for it counts its 250,000 ticks from now. -/
def endActivation (s : State) : State :=
  let again (g : PChange) : PChange := if g.started.isNone then { g with asked := s.clk.tick } else g
  { s with fw := { s.fw with active := false, loaded := false, flipped := 0, back := none, cmd := none },
           pw := { s.pw with chg := s.pw.chg.map again } }

/-- R472 steps 2 to 4: the pending slot is invalid, 7004h, 0180h with the failing class. -/
def slotFallback (n : Nat) (s : State) : State :=
  let fw := match s.fw.pend with
    | some b => { s.fw.setSlot b none with pend := none }
    | none => s.fw
  let s1 := raisePkg 0x7004 { cause := n + 1 } (endActivation { s with fw := { fw with back := none } })
  match s.fw.cmd with
  | some c => complete c 0x0180 { result := BitVec.ofNat 64 (n + 1) } s1
  | none => s1

/-- R472 step 1: at the start of a tick the last of the classes that have still to flip back flips, with its hold; then the rest follows. -/
def flipBack (s : State) : State :=
  match s.fw.back with
  | none => s
  | some (n, k) =>
    if !s.running then s
    else
      let s1 := flipKerf (k - 1) { s with fw := { s.fw with back := some (n, k - 1) } }
      if k ≤ 1 then slotFallback n s1 else s1

/-- R471 step 3: the slot pointer, 7003h, the completion. -/
def activated (s : State) : State :=
  let s1 := match s.fw.pend, s.fw.pendImg with
    | some b, some i => runImage i { s with fw := { s.fw with slotB := b, pend := none } }
    | _, _ => s
  let s2 := raisePkg 0x7003 {} (endActivation s1)
  match s.fw.cmd with
  | some c => ok c 0 s2
  | none => s2

/-- FIRMWARE CLASS FLIP (R313, R471 steps 2 and 3, R472): the next class of the order, at its tick and never in that of another; where
its check fails, the classes that have flipped go back from the next tick on. -/
def firmwareFlip (answerOk : Bool) (s : State) : State :=
  let n := s.fw.flipped
  if !s.running || !s.fw.active || !s.fw.loaded || s.fw.back.isSome || decide (s.clk.tick < s.fw.flipBase + 4 * n) ||
      (decide (0 < n) && decide (s.clk.tick ≤ s.fw.flipAt)) then s
  else
    let s1 := flipKerf n { s with fw := { s.fw with flipped := n + 1, flipAt := s.clk.tick } }
    if !answerOk then { s1 with fw := { s1.fw with back := some (n, n + 1) } } else if n = 9 then activated s1 else s1

/-- FIRMWARE LOAD DONE (R471). -/
def execFirmwareLoadDone (s : State) : Answer := .next (firmwareLoadDone s)

/-- FIRMWARE PROGRAMMED (R470). -/
def execFirmwareProgrammed (readbackOk : Bool) (s : State) : Answer := .next (firmwareProgrammed readbackOk s)

end Sys2Proof.Machine
end

