-- ==== Sys2Proof/Machine/Power.lean ====
section
/-! DEFINITION. Power states, resets of a function, a port and the package, power failure and its return
(R179 to R185, R307, R311, R455 to R461, R465 to R467, R508, R509, R513 to R515, R539). -/

namespace Sys2Proof.Machine

/-! ### Power states (R455 to R458) -/

/-- R307: work of class 00h or 01h exists on a pool that the package homes. -/
def urgentWork (s : State) : Bool :=
  s.pools.any fun p => !p.away && p.offline.isNone && (decide (0 < tilesInClass s p 0) || decide (0 < tilesInClass s p 1))

/-- R294: data in write-back single. -/
def hasSingle (s : State) : Bool := s.cache.any fun b => b.dirty && !b.mirrored

/-- R456, R457: the prerequisites of a change hold: none for P0 and P1. -/
def mayChange (s : State) (target : Nat) (cmd : Option CmdRef) : Bool :=
  decide (target < 2) ||
  (s.cmds.all (fun c => some c.ref == cmd) && !hasSingle s && s.pools.all (fun p => p.away || (p.lock.all (·.done) && p.rebuild.flight.isEmpty)) && s.pair.state == .paired &&
    (target == 2 || (!urgentWork s && s.refl.eps.isEmpty)))

/-- R312, R456: a change asked for starts once its prerequisites hold and no firmware activation runs. -/
def startChange (s : State) : State :=
  match s.pw.chg with
  | some g =>
    if g.started.isNone ∧ !s.fw.active ∧ mayChange s g.target g.cmd then
      { s with pw := { s.pw with chg := some { g with started := some s.clk.tick } } }
    else s
  | none => s

/-- R456: the package is in the state and has the cap asked for. -/
def alreadyIn (s : State) (st cap : Nat) : Bool := s.pw.pstate == st && (st != 1 || s.pw.cap == cap)

/-- R459: the cap lies outside its range, or is given for another state than P1. -/
def badCap (s : State) (st cap : Nat) : Bool := if st = 1 then decide (cap < capMin s) || decide (capMax s < cap * 24) else cap != 0

/-- R456: a state that is refused at dispatch. -/
def refusedState (s : State) (st : Nat) : Bool :=
  (decide (2 ≤ st) && (s.pair.state == .separated || s.pair.state == .survivor)) ||
  (st == 3 && (!s.refl.eps.isEmpty || urgentWork s))

/-- SET POWER STATE (R312, R455 to R457, R487): one dispatched during a firmware activation waits until it has ended. -/
def setPowerState (c : Cmd) (s : State) : State :=
  let st := c.entry.param 44 1
  let cap := c.entry.param 48 4
  if s.fw.active then s.updCmd c.ref fun c => { c with stage := .stalled }
  else if decide (3 < st) || badCap s st cap then fail c.ref 0x0103 s
  else if s.pw.chg.any fun g => g.cmd.isSome then busy c.ref s
  else if alreadyIn s st cap ∧ s.pw.chg.isNone then ok c.ref 0 s
  else if refusedState s st then busy c.ref s
  else
    let wait (c : Cmd) : Cmd := { c with stage := .waiting }
    startChange { s.updCmd c.ref wait with pw := { s.pw with chg := some ⟨st, cap, s.clk.tick, none, some c.ref⟩ } }

/-- R92, R458: entries that wait on the rings. -/
def posted (s : State) : Bool := s.rings.any fun r => canDispatch s r && r.head != r.tail && r.hold != some r.head

/-- R455, R459, R512: the package enters a state. -/
def enterState (target cap : Nat) (s : State) : State :=
  let pw := { s.pw with pstate := target, chg := none, cap := if target = 1 then cap else 0,
                        opstate := if target < 2 then target else s.pw.opstate, opCap := if target < 2 then cap else s.pw.opCap }
  { s with pw := pw, run := { s.run with selfRefresh := target == 3 } }

/-- POWER STATE CHANGE DONE (R456, R458): after its duration the change completes with 6010h; entries posted meanwhile
wake the package again. -/
def changeDone (s : State) : State :=
  match s.pw.chg with
  | none => s
  | some g =>
    match g.started with
    | none => s
    | some t =>
      if !s.running || decide (s.clk.tick < t + changeTicks s.pw.pstate g.target) then s
      else
        let s1 := raisePkg 0x6010 {} (enterState g.target g.cap s)
        let s2 := match g.cmd with
          | some c => ok c 0 s1
          | none => s1
        if posted s2 then wake s2 else s2

/-- POWER STATE TIMEOUT (R457): a change not started 250,000 ticks after its request. -/
def changeTimeout (s : State) : State :=
  match s.pw.chg with
  | none => s
  | some g =>
    match g.cmd, g.started with
    | some c, none =>
      if !s.running || s.fw.active || decide (s.clk.tick < g.asked + 250000) then s
      else busy c { s with pw := { s.pw with chg := none } }
    | _, _ => s

/-- POWER STATE RAISED (R307, R458): work of class 00h or 01h in P3 starts the transition to P2; 6016h. -/
def stateRaised (s : State) : State :=
  if s.running ∧ s.pw.pstate = 3 ∧ s.pw.chg.isNone ∧ urgentWork s then
    raisePkg 0x6016 {} { s with pw := { s.pw with chg := some ⟨2, 0, s.clk.tick, some (s.clk.tick + 1), none⟩ } }
  else s

/-! ### Restart of a function or a port (R466, R467) -/

/-- R466: the operation under way of a reflect command. -/
def opMsg (s : State) (c : CmdRef) : Option Msg := s.refl.msgs.find? fun m => m.cmd == some c && !m.isResp

/-- R466: a dispatched command ends with 0502h or 0503h, with NDONE and PARTIAL. -/
def stopCmd (st : W16) (c : Cmd) (s : State) : State :=
  match opMsg s c.ref with
  | some m => failReflect m st 0 s
  | none =>
    let n := if writeKind c.op then ((s.vol? c.entry.vol.toNat).map fun v => writeNdone v c).getD 0 else 0
    complete c.ref st { ndone := n, part := decide (0 < n) } s

/-- The rings of a function. -/
def ringsOf (s : State) (d f : Nat) : List Ring := s.rings.filter fun r => r.die == d && r.fn == f

/-- R467: the rings of a function are deleted; one that still owes completion records is DELETING until they are written. -/
def dropRings (d f : Nat) (s : State) : State :=
  let owes (r : Ring) : Bool := decide (0 < inflight s r)
  let one (r : Ring) : List Ring :=
    if r.die != d || r.fn != f then [r] else if owes r && !r.notif then [{ r with state := .deleting }] else []
  { s with rings := s.rings.flatMap one }

/-- R467: the queue pairs of a function go to ERROR, its endpoints close, its regions are revoked. -/
def dropEps (d f : Nat) (s : State) : State :=
  let eps := s.refl.eps.filter fun e => e.die == d && e.fn == f
  let addr (e : Ep) : W16 := epAddr s.id.pkgid d e.ep
  let mine (a : W16) : Bool := eps.any fun e => addr e == a
  let qs := s.refl.qps.filter fun q => q.die == d && mine q.loc
  let s1 := qs.foldl (fun s q => if q.error then s else qpError q.die q.loc q.rem s) s
  let s2 := qs.foldl (fun s q => freeQp q s) s1
  let close (r : Region) : Region := if r.die == d && eps.any (fun e => e.ep == r.ep) then r.revoked s.clk.tick else r
  s2.updRefl fun x => { x with eps := x.eps.filter fun e => !(e.die == d && e.fn == f), regions := x.regions.map close,
                               wins := x.wins.filter fun w => !(w.die == d && mine w.reader) }

/-- R467, R509: the setup ring and the result windows of a function return to their reset values. -/
def blankFn (x : FnSt) : FnSt :=
  { x with setupBase := 0, setupSize := 0, setupVector := 0, setupEn := false, setupErr := false, xch := [] }

/-- R466, R467: a function re-initialised: its commands stop, its queue pairs and endpoints go, its rings are deleted. -/
def reinitFn (d f : Nat) (s : State) : State :=
  let stops := s.cmds.filter fun c => c.ref.die == d && c.fn == f && !pastAtDispatch c.op
  let s1 := stops.foldl (fun s c => stopCmd 0x0503 c s) s
  dropRings d f ((dropEps d f s1).updFn d f blankFn)

/-- FUNCTION REINIT (R467, R487). -/
def functionReinit (c : Cmd) (s : State) : State :=
  let d := bits (c.entry.param 44 1) 2 0
  let f := c.entry.param 45 1
  if (s.die? d).isNone || decide (63 < f) || (d == c.ref.die && f == c.fn) then fail c.ref 0x0103 s
  else ok c.ref 0 (raise d 0x7031 { item := f } (reinitFn d f s))

/-- R466, R467, R524: PCIe FLR of a function: the same effect without completion records; its MSI-X table is reset. -/
def flrFn (d f : Nat) (s : State) : State :=
  let gone := { s with rings := s.rings.filter fun r => !(r.die == d && r.fn == f) }
  (reinitFn d f gone).updFn d f fun x => { x with msix := [], pba := [] }

/-- FLR (R466). -/
def flr (d f : Nat) (s : State) : State := if s.on && s.alive d && decide (0 < s.run.phase) && (s.die? d).any (·.linkUp) then flrFn d f s else s

/-- PERST_N asserted (R467): the port's link goes down, FLR of every function of the port. -/
def perstPort (d : Nat) (s : State) : State :=
  let fs := (s.fns.filter fun x => x.die == d).map (·.fn)
  let s1 := fs.foldl (fun s f => flrFn d f s) s
  s1.updDie d fun x => { x with perst := false, linkUp := false, hw := { x.hw with hostWidth := 0 } }

/-- PERST_N (R467). -/
def perstN (d : Nat) (s : State) : State := if s.run.powered then perstPort d s else s

/-! ### Device reset (R465, R508, R509, R513 to R515) -/

/-- R171, R180, R185: the POWER HOLD entry of a die; its DIRCRC covers a directory whose layout is not stated
(assumption 4). -/
def powerHold (mode d : Nat) (s : State) : State :=
  let (n, s1) := s.fresh
  match s1.die? d with
  | none => s1
  | some x => programJ d none (.powerHold mode x.jr.epoch (dirtyBytes s1 d) (BitVec.ofNat 32 (Config.freeNat n)) s1.clk.optime) s1

/-- R180: POWER HOLD on every die in service. -/
def powerHolds (mode : DieSt → Nat) (s : State) : State :=
  s.aliveDies.foldl (fun s d => powerHold (((s.die? d).map mode).getD 0) d s) s

/-- R344: the key numbers of regions that a reset ends are free with the next generation. -/
def freedKeys (r : ReflSt) : List (Nat × Nat × Nat × Nat) :=
  r.regions.foldl (fun ks g =>
    let order := ks.foldl (fun a k => max a (k.2.2.2 + 1)) 0
    (g.die, g.key, if g.gen = 255 then 1 else g.gen + 1, order) :: ks.filter fun k => !(k.1 == g.die && k.2.1 == g.key)) r.keys

/-- R509: what a device reset leaves of a die. -/
def resetDie (x : DieSt) : DieSt :=
  { x with hold := false, unrefreshed := 0, linkUp := false, retiring := false, hw := { x.hw with hostWidth := 0, narrow := 0 },
           frame := { x.frame with intMiss := [], extMiss := [], shed := false, recovering := false, shedTick := 0, waiting := [] },
           recd := { x.recd with freezeOvf := 0 }, evt := EvtSt.reset, link := { LinkSt.reset with lanes := x.link.lanes },
           jr := { x.jr with fresh := [], sentIn := [] }
           rfl := { x.rfl with filter := [], held := [], yrec := none, hb := List.replicate 8 ⟨0, 0, 0, 0⟩, ackDue := [], parts := [],
                               confirmed := [], sys := [] } }

/-- R509: what a device reset leaves of a function: its tenant binding (R467; assumption 18). -/
def resetFn (x : FnSt) : FnSt := { die := x.die, fn := x.fn, tenant := x.tenant }

/-- R379, R509: what a device reset leaves of the pair. -/
def resetPair (p : PairSt) : PairSt :=
  { PairSt.reset with witness := p.witness, witnessSlow := p.witnessSlow, witnessLat := p.witnessLat, kerfs := p.kerfs,
                      lastKerf := p.lastKerf, longKerf := p.longKerf, rejoins := p.rejoins, takeovers := p.takeovers,
                      hbMiss := p.hbMiss, lastHb := p.lastHb, since := p.since, partnerSn := p.partnerSn }

/-- R514: the ladder record after a device reset. -/
def resetLadder (halted : Bool) (r : RegSt) : RegSt :=
  if halted then
    { r with step := 3, code := if r.mcause = 0 then 0x0043 else 0x4001, die := r.ydie, time := r.haltTime, ack := false }
  else { r with step := 0, code := 0, die := 0, time := 0, ack := false }

/-- R471, R472: an activation that a restart ends. -/
def resetFw (f : FwSt) : FwSt :=
  { f with staged := [], loader := none, active := false, loaded := false, flipped := 0, flipBase := 0, flipAt := 0, back := none, cmd := none, fell := none }

/-- R418, R517: the features that return to their reset values (assumption 18). -/
def resetFeat (f : FeatSt) : FeatSt :=
  { f with now := Feats.reset, next := none, healthAddr := 0, limits := [], limitsNext := [], waiters := [], protNext := [] }

/-- R466: configuration changes that had not been made are not made. -/
def resetVol (v : Vol) : Vol := { v with deleting := none, filling := [] }

/-- R235: after a power loss the tiles finished beyond the stop point, and those in flight, are done again. -/
def backToStop (p : Pool) : RebuildSt :=
  let again (e : Bool × Nat × Nat) : Bool := (sweepWork p).contains e && p.rebuild.beyond.any fun b => b.2.1 == e.1 && b.2.2 == e.2.2
  { p.rebuild with done := p.rebuild.done.filter fun e => !again e, copied := p.rebuild.copied.filter fun e => !again e, flight := [], jobs := [], beyond := [] }

/-- R466, R281: a pool over a restart. -/
def resetPool (p : Pool) : Pool :=
  { p with queued := [], migrated := false, lock := none, reshape := p.reshape.map (fun r => { r with cancellers := [], pauseAsked := false, cancelAsked := none, building := none }), rebuild := backToStop p }

/-- R401, R465, R466, R509: the package after the sequence of a device reset, at phase 1. -/
def restart (s : State) : State :=
  { s with
    clk := { s.clk with syncOffset := 0, syncLost := false, aligned := false, noPulse := 0, farPulse := 0 }
    dies := s.dies.map resetDie
    rings := []
    fns := s.fns.map resetFn
    cmds := []
    cache := s.cache.filter (·.dirty)
    mcmds := []
    destages := []
    buckets := []
    pools := s.pools.map resetPool
    vols := s.vols.map resetVol
    tenants := s.tenants.map fun t => { t with key := none, qosNext := none }
    refl := { eps := [], qps := [], regions := [], keys := freedKeys s.refl, wins := [], msgs := [] }
    pair := resetPair s.pair
    pw := PowerSt.reset
    run := { s.run with phase := 1, fromPower := s.run.fromPower && decide (s.run.phase ≤ 2), halted := false, pfail := none,
                        pfReady := false, pfOff := none, pfEnd := none, vaulted := [], selfRefresh := true, backupEn := false,
                        faultN := s.run.faultN.filter (· == 1), dramReset := s.run.dramReset }
    fw := resetFw s.fw
    log := { s.log with frozen := false, challenge := none, indexing := false }
    meter := { ring := none, vector := 0, dhead := 0, head := 0, skipped := 0, phase := 0, changed := false, moved := false,
               last := s.meter.last, held := none }
    feat := resetFeat s.feat
    reg := resetLadder s.run.halted s.reg
    msixSent := []
    arb := s.arb.map fun _ => {}
    grants := []
    tests := [] }

/-- R465, R466: the whole sequence of a device reset: 0502h for every dispatched command unless HALTED, POWER HOLD with
MODE 0 on every die, links and holds down, DDR in self-refresh, phase 1. -/
def deviceReset (s : State) : State :=
  let s1 := s.cmds.foldl (fun s c => stopCmd 0x0502 c s) s.takeFeats
  let s2 := sendMessages (programEvery (if s1.log.frozen then thaw s1 else s1))
  restart (if 4 < s.run.phase then powerHolds (fun _ => 0) s2 else s2)

/-- R465: RESET_N starts a device reset; during the sequence of R179 that sequence governs. -/
def resetN (s : State) : State :=
  let s1 := if s.run.powered ∧ s.run.pfail.isNone then deviceReset s else s
  { s1 with run := { s1.run with resetNAt := some s1.clk.tick } }

/-- RESET_N (R465). -/
def execResetN (s : State) : Answer := .next (resetN s)

/-- GCTL RESET (R465, R513). -/
def execGctlReset (port : Nat) (a : Acc) (s : State) : Answer :=
  .next (if actsReset s port && a.whole && a.field 31 16 == 0xD1E5 && a.field 0 0 == 1 then deviceReset s else s)

/-- PERST_N (R467). -/
def execPerstN (port : Nat) (s : State) : Answer := .next (perstN port s)

/-- FLR (R466). -/
def execFlr (port fn : Nat) (s : State) : Answer := .next (flr port fn s)

/-! ### Power failure (R179 to R185) -/

/-- R180, R185: MODE of a die's POWER HOLD entry. -/
def holdMode (x : DieSt) : Nat := bit x.vault

/-- R179, R294, R318: tick t: dispatch stops, a freeze ends, every record is programmed; for vault writes DDR leaves self-refresh. -/
def failPower (s : State) : State :=
  let s1 := { s with run := { s.run with pfail := some s.clk.tick, pfReady := s.ready, pfOff := none, pfEnd := none, vaulted := [],
                                         selfRefresh := s.run.selfRefresh && !s.aliveDies.any fun d => (s.die? d).any (·.vault) } }
  programEvery (if s1.log.frozen then thaw s1 else s1)

/-- R180: at the end of tick t + 2 each die in service programs POWER HOLD, its last entry. -/
def lastHolds (s : State) : State :=
  if (s.run.pfail.any fun t => decide (s.clk.tick = t + 2)) && decide (4 < s.run.phase) then powerHolds holdMode s else s

/-- PFAIL (R179). -/
def pfail (s : State) : State := if s.run.powered ∧ s.run.pfail.isNone then failPower s else s

/-- R180, R185: dies in service whose part of the sequence lasts: vault mode without VAULT DONE. -/
def vaultsLeft (s : State) : List Nat := s.aliveDies.filter fun d => (s.die? d).any (·.vault) && !s.run.vaulted.contains d

/-- R180: a die in service is in hold mode. -/
def anyHold (s : State) : Bool := s.aliveDies.any fun d => (s.die? d).any fun x => !x.vault

/-- R180, R185: the sequence ends once every die is through with its part. -/
def sequenceEnd (s : State) : State :=
  if s.run.pfEnd.isNone ∧ (vaultsLeft s).isEmpty ∧ (!anyHold s ∨ s.run.backupEn) then
    { s with run := { s.run with pfEnd := some s.clk.tick, selfRefresh := true } }
  else s

/-- BACKUP_EN RAISE (R180): at the end of tick t + 50 in hold mode, with every channel in self-refresh. -/
def backupEnRaise (s : State) : State :=
  match s.run.pfail with
  | some t =>
    if !s.run.powered || s.run.backupEn || !anyHold s || decide (s.clk.tick < t + 50) then s
    else sequenceEnd { s with run := { s.run with backupEn := true, selfRefresh := true } }
  | none => s

/-- R185: X: the ticks that a die's vault writes take. -/
def vaultTicks (s : State) (d : Nat) : Nat := ceilDiv (imageBytes s d) (((s.die? d).map (·.rateV)).getD 0)

/-- R185: a die's image on its vault members: the dirty data of its pools and its live journal entries; the layout of the header and the
cache directory before them the spec does not state. -/
def writeImage (d : Nat) (s : State) : State :=
  let data := (s.cache.filter fun b => b.dirty && homeOf s b.vol == some d).flatMap fun b => b.data ++ b.pi
  s.emit (.vault d data ((((s.die? d).map (·.jr.entries)).getD []).flatMap JEntry.bytes))

/-- VAULT DONE (R185): the image of a die is written. -/
def vaultDone (d : Nat) (s : State) : State :=
  match s.run.pfail with
  | some t =>
    if !s.run.powered || !(vaultsLeft s).contains d || decide (s.clk.tick < t + 3 + vaultTicks s d) then s
    else
      let (n, s1) := s.fresh
      let s2 := programJ d none (.vaultDone (imageBytes s1 d) (BitVec.ofNat 32 (Config.freeNat n))) (writeImage d s1)
      sequenceEnd { s2 with run := { s2.run with vaulted := insNat d s2.run.vaulted } }
  | none => s

/-- PFAIL DEASSERT (R182). -/
def pfailDeassert (s : State) : State :=
  if s.run.powered ∧ s.run.pfail.isSome ∧ s.run.pfOff.isNone then { s with run := { s.run with pfOff := some s.clk.tick } } else s

/-- R60, R182: service goes on where it stopped: 6012h, LATE on every command held, and bounds longer by the pause. -/
def resumeService (s : State) : State :=
  let r := { s.run with pfail := none, pfReady := false, pfOff := none, pfEnd := none, vaulted := [], selfRefresh := s.pw.pstate == 3, backupEn := false }
  markLate (s.clk.tick - s.run.pfail.getD s.clk.tick) (fun _ => true) (raisePkg 0x6012 {} { s with run := r })

/-- POWER RETURNED (R182): the rails are still in regulation 250 ticks after the end of the sequence and PFAIL_N's
deassertion: service goes on, or start-up begins again when the package was not ready. -/
def powerReturned (s : State) : State :=
  match s.run.pfOff, s.run.pfEnd with
  | some o, some e =>
    if !s.run.powered || s.pw.trip || decide (s.clk.tick < max o e + 250) then s
    else if s.run.pfReady then resumeService s else restart s
  | _, _ => s

/-- R401, R426, R432, R433, R515, R516, R518: what is left of a die when power is lost: its nonvolatile contents; the
DDR contents of mirror regions stay only on backup power. -/
def darkDie (backup : Bool) (x : DieSt) : DieSt :=
  let y := resetDie x
  { y with perst := false, rateV := 0, rateVr := 0,
           hw := { HwSt.reset with nvSpare := x.hw.nvSpare, nvNone := x.hw.nvNone, nvUsed := x.hw.nvUsed },
           frame := FrameSt.reset, jr := { y.jr.unprogrammed with invalid := 0 }, link := LinkSt.reset,
           recd := { x.recd with prewrite := [], holding := [], faultArea := [], fdrop := 0, rates := [], freezeOvf := 0,
                                 dropped := x.recd.savedDropped, holdOvf := x.recd.savedHoldOvf },
           rfl := { DieRfl.reset with msgno := x.rfl.msgno, mirror := if backup then x.rfl.mirror else [],
                                      peerLog := if backup then x.rfl.peerLog else [], peerBlks := if backup then x.rfl.peerBlks else [] } }

/-- R539: what a state without power keeps. -/
def darken (s : State) : State :=
  let s1 := restart s
  let pair := { PairSt.reset with witness := s.pair.witness, partnerSn := s.pair.partnerSn }
  { s1 with
    clk := { tick := 0, optime := s.clk.optime, powerCycles := s.clk.powerCycles, syncOffset := 0, realigns := 0, syncLost := false,
             aligned := false, noPulse := 0, farPulse := 0, seen := false, tickLen := 6400 }
    dies := s.dies.map (darkDie s.run.backupEn)
    run := { RunSt.reset with powered := false }
    pair := pair
    reg := ⟨0, 0, 0, 0, false, 0, 0, 0, 0, 0, 0, 0, 0, 0, 0, 0, 0⟩
    fns := (s.dieIdx.map fun d => { die := d, fn := 0 })
    log := { s1.log with failures := 0, busyUntil := 0 }
    meter := { s1.meter with last := none }
    eid := 0
    nss := s.nss.map fun n => { n with up := [], warn := 0 } }

/-- POWER LOSS (R484, R539): every volatile state is lost; the values of completed commands are not. -/
def powerLoss (s : State) : State := if s.run.powered then darken s.takeFeats else s

/-- POWER UP (R462): the package reset is released: tick 0, phase 1. -/
def powerUp (s : State) : State :=
  if s.run.powered then s
  else { s with run := { RunSt.reset with powered := true }, clk := { s.clk with tick := 0 } }

/-! ### Thermal trip (R461) -/

/-- R461: some die in service is in vault mode. -/
def anyVault (s : State) : Bool := s.aliveDies.any fun d => (s.die? d).any (·.vault)

/-- THERMAL TRIP (R460, R461): 6003h, the sequence of R179, and in hold mode the yield of tick t + 2. -/
def thermalTrip (d : Nat) (s : State) : State :=
  if !checksRun s d || s.pw.trip then s
  else
    let s1 := raise d 0x6003 { arg0 := 110 } { s with pw := { s.pw with trip := true } }
    let s2 := if anyVault s1 then s1 else packageYield d 0x0F {} s1
    if s2.run.pfail.isNone then failPower s2 else s2

/-- R461: the later ticks of a thermal trip: the yield in vault mode, then THERMTRIP_N. -/
def tripTick (s : State) : State :=
  match s.run.pfail with
  | some t =>
    if !s.pw.trip || s.run.thermtrip then s
    else if !s.run.halted then
      let h := s.aliveDies.foldl (fun m d => max m (((s.die? d).map (·.holdUp)).getD 0)) 0
      if (vaultsLeft s).isEmpty ∨ t + h ≤ s.clk.tick then packageYield s.id.lead 0x0F {} s else s
    else if (!anyVault s || (vaultsLeft s).isEmpty || s.run.pfEnd.isSome) && (anyVault s || (s.run.selfRefresh && decide (t + 52 ≤ s.clk.tick))) then
      { s with run := { s.run with thermtrip := true } }
    else s
  | none => s

/-! ### Vault rates (R184, R485) -/

/-- VAULT RATE MEASURE (R184): the rates of a die's vault namespaces; 6013h when the dirty data no longer fits. -/
def vaultRate (d v vr : Nat) (s : State) : State :=
  match s.die? d with
  | none => s
  | some x =>
    if !s.running || !s.alive d || !x.vault then s
    else
      let s1 := s.updDie d fun x => { x with rateV := v, rateVr := vr }
      let less := (s1.die? d).any fun y => decide (dirtyBudget y < dirtyBytes s1 d)
      let lower := dirtyBudget { x with rateV := v } < dirtyBudget x
      let s2 := if less ∧ lower ∧ 0 < x.rateV then raise d 0x6013 {} s1 else s1
      let all (sel : Nat) : Bool := (selDies s2 sel).all fun e => (s2.die? e).all fun y => !y.vault || decide (0 < y.rateV)
      endWaiters (fun fid sel => fid == 5 && all sel) s2

/-- POWER STATE RAISED (R307). -/
def execPowerStateRaised (s : State) : Answer := .next (stateRaised s)

/-- PFAIL (R179). -/
def execPfail (s : State) : Answer := .next (pfail s)

/-- BACKUP_EN RAISE (R180). -/
def execBackupEnRaise (s : State) : Answer := .next (backupEnRaise s)

/-- VAULT DONE (R185). -/
def execVaultDone (die : Nat) (s : State) : Answer := .next (vaultDone die s)

/-- PFAIL DEASSERT (R182). -/
def execPfailDeassert (s : State) : Answer := .next (pfailDeassert s)

/-- POWER LOSS (R539). -/
def execPowerLoss (s : State) : Answer := .next (powerLoss s)

/-- POWER UP (R462). -/
def execPowerUp (s : State) : Answer := .next (powerUp s)

/-- THERMAL TRIP (R461). -/
def execThermalTrip (die : Nat) (s : State) : Answer := .next (thermalTrip die s)

/-- VAULT RATE MEASURE (R184). -/
def execVaultRateMeasure (die v vr : Nat) (s : State) : Answer := .next (vaultRate die v vr s)

end Sys2Proof.Machine
end

