-- ==== Sys2Proof/Machine/Startup.lean ====
section
/-! DEFINITION. The phases of start-up (R18, R24, R29, R30, R36, R68, R70, R160, R186 to R191, R379, R428, R431, R462 to
R464, R467, R541). -/

namespace Sys2Proof.Machine

/-- R462: the package leaves a phase. -/
def toPhase (n : Nat) (s : State) : State := { s with run := { s.run with phase := n } }

/-! ### Phase 1 (R463, R464, R541) -/

/-- R464: a slot verifies. -/
def slotGood (i : PhaseIn) (s : State) (b : Bool) : Bool := i.sfdpOk && (i.slotsOk[bit b]?.getD false) && (s.fw.slot b).isSome

/-- R464: the slot that phase 1 loads. -/
def bootSlot (i : PhaseIn) (s : State) : Option Bool :=
  if slotGood i s s.fw.slotB then some s.fw.slotB else if slotGood i s !s.fw.slotB then some !s.fw.slotB else none

/-- R541: a copy of the board configuration record is valid. -/
def boardGood (b : Bytes) : Bool :=
  slice b 0 8 == ascii "ELOABCFG" && fieldAt b 8 2 == 1 && fieldAt b 60 4 == crc32c (slice b 0 60) &&
  (slice b 16 8).all (fun m => decide (m.toNat ≤ 1)) && (slice b 24 8).all fun m => decide (m.toNat ≤ 2)

/-- R541: the board configuration record: the first valid copy governs; without one every field is 0. -/
def readBoard (i : PhaseIn) (s : State) : State :=
  let b := (i.board.find? boardGood).getD (zeros 64)
  { s with id := { s.id with subvid := BitVec.ofNat 16 (fieldAt b 10 2), subdid := BitVec.ofNat 16 (fieldAt b 12 2),
                             hostMode := (slice b 16 8).map (·.toNat), driveMode := (slice b 24 8).map (·.toNat) } }

/-- R505, R529: the physical functions of the ports: function 32 where a port is split. -/
def portFns (s : State) : State :=
  let keep (x : FnSt) : Bool := x.fn != 32 || s.split x.die
  let need := s.dieIdx.filter fun d => s.split d && !s.fns.any fun x => x.die == d && x.fn == 32
  { s with fns := s.fns.filter keep ++ need.map fun d => { die := d, fn := 32 } }

/-- R463: a host port trains: its width is that of the lanes that are not retired. -/
def trainPort (x : DieSt) : DieSt :=
  { x with linkUp := true, hw := { x.hw with hostWidth := widthOf (16 - (x.hw.lanesRetired.filter (· < 16)).length) } }

/-- R474, R548: the rates in GT/s that a die's host port and each of its root ports train at (assumption 9); a lane that is
retired stays out. -/
def linkRates (i : PhaseIn) (mode d : Nat) (x : DieSt) : DieSt :=
  let gone (l : Nat) : Bool := x.hw.lanesRetired.contains (16 + l)
  let lane (l : Nat) : Nat := if gone l then 0 else (((i.rates[d]?).map (·.2)).bind fun r => r[portOfLane mode l]?).getD 64
  { x with hw := { x.hw with hostRate := ((i.rates[d]?).map (·.1)).getD x.hw.hostRate, driveRates := (List.range 24).map lane,
                             driveLanes := ((List.range 24).filter fun l => !gone l).length } }

/-- R462 phase 1: boot, straps, board data; host links train where PERST_N is deasserted. -/
def phase1 (i : PhaseIn) (s : State) : State :=
  match bootSlot i s with
  | none => holdFault 2 s
  | some b =>
    let s1 := match s.fw.slot b with
      | some g => runImage g s
      | none => s
    let fw := { s1.fw with fell := if b = s.fw.slotB then none else some (bit s.fw.slotB),
                           pend := if s1.fw.pend = some b then none else s1.fw.pend }
    let s2 := portFns (readBoard i { s1 with fw := fw })
    let s3 := if s.run.fromPower then { s2 with id := { s2.id with pkgid := i.pkgid % 2 } } else s2
    toPhase 2 { s3 with dies := s3.dies.zipIdx.map fun (x, d) => let y := linkRates i (s3.portMode d) d x; if y.perst then trainPort y else y }

/-! ### Phase 2 (R18, R24, R36, R428, R464) -/

/-- R18, R19: a core that fails its self-test has no job; the lowest-indexed spare takes it. -/
def dropCore (cores : List Nat) (i : Nat) : List Nat :=
  match cores[i]? with
  | none => cores
  | some job =>
    let l := cores.set i 0x0F
    if job = 9 ∨ job = 0x0F then l
    else match l.findIdx? (· == 9) with
      | some j => l.set j job
      | none => l

/-- The units that a self-test finds failed. -/
def failUnit (mode : Nat) (h : HwSt) : Checked → HwSt
  | .core i => { h with cores := dropCore h.cores i }
  | .gf i => { h with gf := h.gf.set i false }
  | .aes i => { h with aes := h.aes.set i false }
  | .mover i => { h with movers := h.movers.set i false }
  | .fabric i => { h with fabric := h.fabric.set i false }
  | .reflectLane i => { h with lanesRetired := insNat (40 + i % 16) h.lanesRetired }
  | .driveCrc p => portOut mode p h
  | .hostCrc | .sramEcc | .ddrEcc _ | .nvVerify => h

/-- R391, R396: units whose failure fails the die. -/
def fatalUnit : Checked → Bool
  | .hostCrc | .sramEcc | .ddrEcc _ | .nvVerify => true
  | _ => false

/-- R18, R24, R391: what a die must have: every job, a GF engine, an AES-XTS engine, a mover. -/
def unitsEnough (h : HwSt) : Bool :=
  (List.range 9).all (fun j => (h.cores.filter (· == j)).length == (coreJobs.filter (· == j)).length) && h.gf.any id &&
    h.aes.any id && h.movers.any id && decide (0 < h.driveLanes)

/-- R24, R462: the units of a die that its self-test tries again. -/
def freshUnits (h : HwSt) : HwSt :=
  { h with cores := coreJobs, gf := [true, true], aes := [true, true, true, true], movers := List.replicate 16 true, fabric := [true, true, true], cut := 0 }

/-- R36, R386, R431: the self-test of die d. -/
def testDie (i : PhaseIn) (mode d : Nat) (x : DieSt) : DieSt :=
  let mine := (i.failedUnits.filter fun u => u.1 == d).map (·.2)
  let h := mine.foldl (failUnit mode) (freshUnits x.hw)
  let good := !i.failedDies.contains d && !mine.any fatalUnit && unitsEnough h
  let out := x.keepRetired && !(x.restore && good)
  { x with hw := h, healthy := good, retired := out || !good, keepRetired := out, restore := x.restore && !good, yielded := none,
           linkUp := x.linkUp && good && !out,
           recd := { x.recd with failed := x.recd.failed && !i.recorderOk.contains d } }

/-- R428: the operating time that a power-up resumes, and ARG0 of 8009h. -/
def resumedTime (s : State) : Nat × Nat :=
  match (s.dies.filterMap savedOf).max? with
  | some v => (min top48 (v + 15000000), v)
  | none =>
    match ((s.dies.flatMap fun x => x.recd.slots.map (·.optime))).max? with
    | none => (0, 0)
    | some t => (min top48 (nextSave t), 0)

/-- R427, R433: a die saves an operating time with its dropped-record counts. -/
def saveTime (t : Nat) (x : DieSt) : DieSt :=
  { x with saved := saveUnits x.saved t,
           recd := { x.recd with savedDropped := x.recd.dropped, savedHoldOvf := x.recd.holdOvf, window := windowAt t } }

/-- R428: power-cycle count and operating time of a power-up; its first record is 8009h. -/
def powerOnTime (s : State) : State :=
  let (t, old) := resumedTime s
  let s1 := { s with clk := { s.clk with optime := t, powerCycles := satAdd top32 s.clk.powerCycles 1 },
                     dies := s.dies.map fun x => if x.alive then saveTime t x else x }
  raisePkg 0x8009 { arg0 := old, arg1 := t } s1

/-- R425: a clear that a loss of power cut short is finished. -/
def finishClear (s : State) : State :=
  match s.dies.findSome? (·.recd.clearPending) with
  | some t => clearLog t s
  | none => s

/-- R464: 7004h for a slot that failed verification. -/
def noteFallback (s : State) : State :=
  match s.fw.fell with
  | some b => raisePkg 0x7004 { cause := b } { s with fw := { s.fw with fell := none } }
  | none => s

/-- R32, R34: a link of which a module failed its self-test is down at both ends. -/
def linkBothEnds (s : State) : State :=
  let one (x : DieSt × Nat) : DieSt :=
    { x.1 with hw := { x.1.hw with fabric := x.1.hw.fabric.zipIdx.map fun (up, m) => match fabricPeer s.id.part x.2 m with
      | some (e, n) => up && moduleUp s e n
      | none => up } }
  { s with dies := s.dies.zipIdx.map one }

/-- R36: the lead die: the lowest-indexed die that passed and reaches every other die that passed. -/
def electLead (s : State) : Option Nat := s.aliveDies.find? fun d => s.aliveDies.all fun e => (fabricHops s d e).isSome

/-- R431, R432: FAULT_N is released for the recorder once every die's retest passes. -/
def recorderFault (s : State) : State :=
  if s.dies.any (·.recd.failed) then s else { s with run := { s.run with faultN := s.run.faultN.filter (· != 1) } }

/-- R462 phase 2. -/
def phase2 (i : PhaseIn) (s : State) : State :=
  let s1 := linkBothEnds (recorderFault { s with dies := s.dies.zipIdx.map fun (x, d) => testDie i (s.portMode d) d x })
  match electLead s1 with
  | none => holdFault 3 { s with run := { s1.run with faultN := s1.run.faultN } }
  | some l =>
    let s2 := { s1 with id := { s1.id with lead := l }, log := { s1.log with indexing := true } }
    let s3 := if s.run.fromPower then powerOnTime s2 else s2
    toPhase 3 (noteFallback (finishClear s3))

/-! ### Phase 3 (R29, R30, R160) -/

/-- R29: rate, GiB a channel, and whether the DIMMs differ. -/
def dimmRule (l : List Dimm) : Nat × Nat × Bool :=
  let mr := l.all (·.mrdimm)
  let rate := l.foldl (fun m x => min m x.rate) (if mr then 8800 else 6400)
  let gib := ((l.map (·.gib)).min?).getD 0
  let same (f : Dimm → Nat) : Bool := l.all fun x => l.all fun y => f x == f y
  (rate, gib, !(same (·.rate) && same (·.gib) && same fun x => bit x.mrdimm))

/-- R29, R160: a die trains its channels and lays out its DDR. -/
def trainDdr (i : PhaseIn) (d : Nat) (s : State) : State :=
  let again (h : HwSt) : HwSt := { h with ddr := [true, true, true, true], zq := List.replicate 4 s.clk.tick, retrainFails := [0, 0, 0, 0] }
  let s1 := s.updHw d again
  let s2 := match i.dimms[d]? with
    | none => s1
    | some slots =>
      let (rate, gib, bad) := dimmRule (slots.filterMap id)
      let s2 := s1.updHw d fun h => { h with ddrRate := rate, ddrGib := gib, ddr := padFlags (slots.map (·.isSome)) }
      if bad then raise d 0x6001 {} s2 else s2
  let s3 := (i.failedChannels.filter fun c => c.1 == d).foldl (fun s c => spareChannel d c.2 s) s2
  s3.updDie d fun x => if x.protSet then x else { x with protGib := ddrGib x / 4 }
where
  /-- four flags -/
  padFlags (l : List Bool) : List Bool := (l ++ List.replicate 4 false).take 4

/-- R462 phase 3. -/
def phase3 (i : PhaseIn) (s : State) : State :=
  toPhase 4 { s.aliveDies.foldl (fun s d => trainDdr i d s) s with run := { s.run with selfRefresh := false, dramReset := true } }

/-! ### Phase 4 (R186) -/

/-- R186: a die's live journal holds a UNIT COMMIT. -/
def hasCommit (x : DieSt) : Bool :=
  (x.jr.entries ++ x.jr.segs.flatMap (·.entries)).any fun e => match e.body with
    | .unitCommit .. => true
    | _ => false

/-- R182, R186: MODE of the last POWER HOLD entry of a die, when no data came after it: with a UNIT COMMIT behind it its DIRCRC does not
match. -/
def lastHold (x : DieSt) : Option Nat :=
  x.jr.entries.foldl (fun m e => match e.body with
    | .powerHold mode .. => some mode
    | .unitCommit .. => none
    | _ => m) none

/-- R186: a VAULT DONE follows the last POWER HOLD of a die. -/
def hasVault (x : DieSt) : Bool :=
  x.jr.entries.foldl (fun m e => match e.body with
    | .powerHold .. => false
    | .vaultDone .. => true
    | _ => m) false

/-- R186: the copy that serves, of those the die finds: nothing without a POWER HOLD. -/
def restoreOf (x : DieSt) (r : Restore) : Restore :=
  match lastHold x with
  | none => .nothing
  | some mode =>
    match r with
    | .held => if mode = 0 then .held else .nothing
    | .image => if mode = 1 ∧ hasVault x then .image else .nothing
    | r => r

/-- R186: for a die that failed its self-test: the copies of the mirror peer, or nothing; in vault mode the journal copy in its image lets
the shadow die replay, and its data comes from the image. -/
def otherCopy (x : DieSt) (r : Restore) : Restore :=
  match r with
  | .held => if (lastHold x).isSome then .mirror else .nothing
  | r => restoreOf x r

/-- R186 case 4: every block of the committed units of a die's pools that no member holds is lost. -/
def loseDirty (d : Nat) (s : State) : State :=
  (poolsOn s d).foldl (fun s n =>
    let gone := s.cache.filter fun b => b.dirty && (s.vol? b.vol).any fun v => v.pool == n
    retireCommits (loseMany n (gone.map fun b => (b.vol, b.lba)) (s.dropBlocks fun b => gone.contains b))) s

/-- R171: the epoch of a die's DDR rises at each start-up. -/
def newEpoch (j : JournalSt) : JournalSt := { j with epoch := j.epoch + 1 }

/-- R186: the restore of one die's protected region. -/
def restoreDie (i : PhaseIn) (d : Nat) (s : State) : State :=
  match s.die? d with
  | none => s
  | some x =>
    let at_ := if x.alive then d else s.id.lead
    let s1 := s.updJr d newEpoch
    if !hasCommit x then s1
    else match (if x.alive then restoreOf x ((i.restore[d]?).getD .held) else otherCopy x ((i.restore[d]?).getD .mirror)) with
      | .held | .image => s1
      | .mirror => (poolsOn s1 d).foldl (fun s n => loseSingle n s) (raise at_ 0x6014 {} s1)
      | .nothing => loseDirty d (raise at_ 0x6015 {} s1)

/-- R462 phase 4. -/
def phase4 (i : PhaseIn) (s : State) : State := toPhase 5 (s.dieIdx.foldl (fun s d => restoreDie i d s) s)

/-! ### Phase 5 (R68, R70) and the pools' dies -/

/-- R68, R70: calibration budgets, kept until the next power-up. -/
def calibrate (i : PhaseIn) (s : State) : State :=
  let set (x : Budget × Nat) : Budget := { x.1 with calib := x.2, current := x.2, p999 := x.2, low := 0, changed := s.clk.tick }
  let die (x : DieSt) (d : Nat) : DieSt :=
    { x with frame := { x.frame with budgets := (x.frame.budgets.zipIdx).map fun (b, k) => set (b, (((i.calib[d]?).getD [])[k]?).getD b.calib) } }
  if s.run.fromPower then recount { s with dies := s.dies.zipIdx.map fun (x, d) => if x.alive then die x d else x } else s

/-- R379: a pool whose keys the partner has preempted is held by the partner; its data and entries are discarded. -/
def heldByPartner (num : Nat) (s : State) : State :=
  match s.pool? num with
  | none => s
  | some p =>
    if p.away then s
    else
      let away (p : Pool) : Pool := { p with away := true, taken := false, queued := [] }
      let s1 := (stopWork num s).dropBlocks fun b => (s.vol? b.vol).any fun v => v.pool == num
      let s2 := dropEntries p.home (fun e => e.pool == some num) s1
      raisePkg 0x5048 { pool := num } (s2.updPool num away)

/-- R186, R364: the pools of a die that is not in service pass to a die that can take them. -/
def adoptPools (s : State) : State :=
  (s.pools.filter fun p => !p.away && !s.alive p.home).foldl (fun s p =>
    match newHome s p p.shadow with
    | some h => takePool p.num p.home h false s
    | none => s) s

/-- R364: a pool whose shadow die is not in service gets a new one. -/
def newShadows (s : State) : State :=
  let one (p : Pool) : Pool := if p.shadow.any s.alive then p else { p with shadow := newShadow s p p.home }
  { s with pools := s.pools.map one }

/-- Pools that replay works on. -/
def replayed (s : State) : List Nat := (s.pools.filter fun p => !p.away && s.alive p.home).map (·.num)

/-- R148, R170, R187: the units of a die that resolve as old: what they wrote is discarded, and their entries with them. -/
def discardBroken (bad : List Nat) (d : Nat) (s : State) : State :=
  match s.die? d with
  | none => s
  | some x =>
    let es := (x.jr.segs.flatMap (·.entries) ++ x.jr.entries).foldl (fun l e => insEntry e l) []
    let old := brokenUnits false bad x.jr.anchorTail es
    dropEntries d (fun e => bad.contains e.jsn || old.contains e.jsn)
      (s.dropBlocks fun b => b.dirty && homeOf s b.vol == some d && (bad ++ old).contains b.jsn)

/-- R462 phase 5; the members' labels are judged (R219), units resolve as new or old, and at its end replay takes up the open intents
(R187); the pools that a die takes over have theirs taken up with that. -/
def phase5 (i : PhaseIn) (s : State) : State :=
  let s0 := (s.nss.filter fun n => !n.up.isEmpty).foldl (fun s n => judgeMember n.id s) (calibrate i s)
  let s1 := i.lostKeys.foldl (fun s n => heldByPartner n s) s0
  let s2 := s1.dieIdx.foldl (fun s d => discardBroken ((i.invalid.filter fun x => x.1 == d).map (·.2)) d s) s1
  (replayed s2).foldl (fun s n => repairIntents n s) (toPhase 6 (newShadows (adoptPools s2)))

/-! ### Phase 6 (R170, R187, R191) -/

/-- R170, R171: entries that the end of replay ends: the marks of the restore, and what is folded into the configuration. -/
def endedByReplay (e : JEntry) : Bool :=
  match e.body with
  | .powerHold .. | .vaultDone .. | .lostBlocks .. | .tileState .. | .mapSwitch .. => true
  | _ => false

/-- R177: the copy of a segment that is read: the first, in COPIES order, on a member that has not failed and whose seals and CRCs pass. -/
def goodCopy (s : State) (bad : List (Nat × Nat × Nat)) (g : Segment) : Option Nat :=
  g.copies.find? fun m => !bad.contains (g.pool, g.seg, m) && (s.pool? g.pool).any fun p => (p.members[m]?).any fun x => x.state != .failed

/-- R177, R187: the pools of which no copy of some segment can be read. -/
def unreadable (bad : List (Nat × Nat × Nat)) (s : State) : List Nat :=
  (s.dies.flatMap fun x => (x.jr.segs.filter fun g => (goodCopy s bad g).isNone).map (·.pool)).eraseDups

/-- R139, R191: a restored dirty block counts as a write that has been acknowledged and has no mirror copy. -/
def restored (s : State) : State :=
  { s with cache := updIf (·.dirty) (fun b => { b with acked := some 0, acks := [(0, b.jsn)], since := 0, used := 0 }) s.cache }

/-- R462 phase 6: replay has written what the open intents left; a pool with an unreadable spill segment goes offline. -/
def phase6 (i : PhaseIn) (s : State) : State :=
  if !s.destages.isEmpty then s
  else
    let s1 := restored ((replayed s).foldl (fun s n => makeSingle n s) s)
    let s2 := (unreadable i.badCopies s1).foldl (fun s n => offlinePool n 3 s) s1
    let s3 := s2.dieIdx.foldl (fun s d => dropEntries d endedByReplay s) s2
    toPhase 7 (s3.aliveDies.foldl (fun s d => programAnchor d s) s3)

/-! ### Phase 7 (R354, R356, R357, R379, R463) -/

/-- R463: the ports whose links are up send a Device Readiness Status message. -/
def sendReadiness (s : State) : State :=
  s.dieIdx.foldl (fun s d => if (s.die? d).any (·.linkUp) then s.emit (.readiness d) else s) s

/-- R354, R536: the holds rise. -/
def raiseHold (x : DieSt) : DieSt := if x.alive then { x with hold := true, unrefreshed := 0 } else x

/-- R74, R462, R463: the package is ready; a new partner's pulses have not been seen yet. -/
def becomeReady (i : PhaseIn) (s : State) : State :=
  let pair := { s.pair with state := .survivor, armed := true, holdIn := i.holdIn, since := s.clk.tick % (top48 + 1),
                            partnerSn := if i.partner then padTo 20 i.partnerSn else s.pair.partnerSn,
                            partnerProt := if i.partner then i.partnerProt else [] }
  let known := s.clk.seen && s.pair.partnerSn == pair.partnerSn
  let s1 := { s with id := { s.id with inPair := i.partner }, pair := pair, dies := s.dies.map raiseHold, clk := { s.clk with seen := known },
                     run := { s.run with phase := 8, readyAt := s.clk.tick, fromPower := false } }
  let s2 := if s.run.fromPower then s1 else raisePkg 0x7030 {} s1
  let s3 := sendReadiness s2
  if s3.pools.any fun p => !p.away && !s3.alive p.home then packageYield s3.id.lead 0x0A {} s3 else s3

/-- R191, R462 phase 7; what was restored is in write-back single until it is destaged. -/
def phase7 (i : PhaseIn) (s : State) : State := becomeReady i (i.lostKeys.foldl (fun s n => heldByPartner n s) s)

/-- STARTUP PHASE DONE (R462): the work of the phase in progress is done. -/
def phaseDone (i : PhaseIn) (s : State) : State :=
  if !s.run.powered || s.run.pfail.isSome then s
  else match s.run.phase with
    | 1 => phase1 i s
    | 2 => phase2 i s
    | 3 => phase3 i s
    | 4 => phase4 i s
    | 5 => phase5 i s
    | 6 => phase6 i s
    | 7 => phase7 i s
    | _ => s

/-- PERST_N DEASSERTED (R463): a port trains at the later of the end of phase 1 and the deassertion. -/
def perstUp (d : Nat) (s : State) : State :=
  if !s.run.powered || (s.die? d).any (·.perst) then s
  else
    let up (x : DieSt) : DieSt := if 1 < s.run.phase ∧ x.alive then trainPort { x with perst := true } else { x with perst := true }
    let s1 := s.updDie d up
    if s1.ready && (s1.die? d).any (·.linkUp) then s1.emit (.readiness d) else s1

/-- PERST_N DEASSERTED (R463, R467). -/
def execPerstNDeasserted (port : Nat) (s : State) : Answer := .next (perstUp port s)

end Sys2Proof.Machine
end

