-- ==== Sys2Proof/Machine/Uncorrectable.lean ====
section
/-! DEFINITION. Uncorrectable errors in SRAM and in DDR (R390 D6, D7, D11, R397, R398, R432). -/

namespace Sys2Proof.Machine

/-- R413 UNIT: the SRAM. -/
def sramUnit : SramLoc → Nat
  | .coreMem c => c
  | _ => 0x61

/-- R166, R397: a destage of the stripe in progress starts again from step 2: what it has read counts for nothing, and what it writes is
made anew; the writes that are at members already are watched until they are over. -/
def restage (pool stripe : Nat) (s : State) : State :=
  let hit (d : Destage) : Bool := d.pool == pool && d.stripe == stripe
  let ids := (s.destages.filter hit).map (·.id)
  let mine (m : MCmd) : Bool := match m.purpose with
    | .destage i _ _ => ids.contains i
    | _ => false
  let again (d : Destage) : Destage := { d with got := [], asked := [], reading := true, readEnd := none }
  let gone (m : MCmd) : Bool := mine m && (!m.isWrite || m.waits)
  { s with destages := updIf hit again s.destages,
           mcmds := updIf mine (fun m => { m with purpose := .spent }) (s.mcmds.filter fun m => !gone m) }

/-- R432: a record of the fault area is discarded and counted. -/
def dropFault (slot : Nat) (q : RecorderSt) : RecorderSt :=
  if slot < q.faultArea.length then { q with faultArea := q.faultArea.eraseIdx slot, fdrop := satAdd 0xFF q.fdrop 1 } else q

/-- R397: the reaction to an uncorrectable SRAM error, by where it lies. -/
def sramReact (d : Nat) (loc : SramLoc) (s : State) : State :=
  match loc with
  | .coreMem c => coresFail d [c] s
  | .gather pool stripe => restage pool stripe s
  | .layout => s
  | .reflectBuf src m n => s.updRfl d fun q => { q with held := q.held.filter fun h => !(h.seg.src == src && h.seg.msgno == m && h.seg.segno == n) }
  | .ringEntry r i => s.updRing d r fun r => { r with pushed := r.pushed.filter fun e => e.1 != i, fetched := r.fetched.filter (· != i) }
  | .shared => dieYield d 0x06 s
  | .faultArea slot => s.updRec d (dropFault slot)

/-- SRAM UNCORRECTABLE (R390 D7, D8, R397): met by an access or by the patrol. -/
def sramBad (d : Nat) (patrol : Bool) (loc : SramLoc) (s : State) : State :=
  if !checksRun s d then s else sramReact d loc (raise d 0x0100 { unit := sramUnit loc } (countFault d (if patrol then 8 else 7) s))

/-- R186, R398: the affected unit has no good copy: its blocks are lost. -/
def loseUnit (d : Nat) (b : CBlk) (s : State) : State :=
  let unit := s.cache.filter fun x => x.dirty && x.vol == b.vol && x.jsn == b.jsn
  let num := ((s.vol? b.vol).map (·.pool)).getD 0
  let s1 := loseMany num (unit.map fun x => (x.vol, x.lba)) (s.dropBlocks fun x => unit.contains x)
  raise d 0x6015 { pool := num, vol := b.vol } s1

/-- R398: a unit's copy in the mirror region of die d is bad: where d is the shadow die of its pool the unit is write-back single until
the home die has sent it again, over the fabric; the copy of a unit of the partner is dropped, and no request for it
goes out, since R398 gives that message no form (DESIGN CHOICE, assumption 43). -/
def loseMirror (d vol lba : Nat) (s : State) : State :=
  match s.cached? vol lba with
  | some b =>
    let on := (s.vol? vol).any fun v => (s.pool? v.pool).any fun p => p.shadow == some d
    let unit (x : CBlk) : Bool := b.dirty && b.onShadow && on && x.dirty && x.vol == vol && x.jsn == b.jsn
    { s with cache := updIf unit (fun x => { x with mirrored := false }) s.cache }
  | none => s.updRfl d fun q =>
      let bad := (q.peerBlks.filter fun x => x.vol == vol && x.lba == lba).map (·.jsn)
      { q with peerBlks := q.peerBlks.filter fun x => !(x.vol == vol && bad.contains x.jsn) }

/-- R398: the reaction to an uncorrectable DDR error or a failed seal, by region. -/
def ddrReact (d : Nat) (loc : DdrLoc) (s : State) : State :=
  match loc with
  | .protectedUnit vol lba good =>
    match s.cached? vol lba with
    | some b => if !b.dirty || (good && b.mirrored) then s else loseUnit d b s
    | none => s
  | .mirror vol lba => loseMirror d vol lba s
  | .directory rebuilt => if rebuilt then s else dieYield d 0x06 s
  | .readCache vol lba => s.dropBlocks fun b => b.vol == vol && b.lba == lba && !b.dirty
  | .window reader writer => s.updRefl fun r =>
      { r with wins := updIf (fun w => w.die == d && w.reader == reader && w.writer == writer) (fun w => { w with bad := true }) r.wins }
  | .region key => s.updRefl fun r =>
      { r with regions := updIf (fun g => g.die == d && g.key == key && g.host.isNone) (fun g => { g with bad := true }) r.regions }

/-- R390: the number of the mechanism that found a bad DDR word. -/
def mechanismOf : Found → Nat
  | .blockSeal => 6
  | .access => 11
  | .patrol => 12

/-- R390: the event of a bad DDR word. -/
def codeOf : Found → Nat
  | .blockSeal => 0x1004
  | _ => 0x0102

/-- DDR UNCORRECTABLE (R390 D6, D11, D12, R398, R413), in a channel. -/
def ddrBad (d ch : Nat) (how : Found) (loc : DdrLoc) (s : State) : State :=
  if !checksRun s d || refreshed s d then s
  else ddrReact d loc (raise d (codeOf how) { unit := 0x50 + ch } (countFault d (mechanismOf how) s))

end Sys2Proof.Machine
end

