-- ==== Sys2Proof/Machine/Settle.lean ====
section
/-! DEFINITION. What a dispatched command does first, by opcode, and what every step brings forward after its own
effect: destages, reads, stalled commands, commands whose wait has ended (R61, R79, R81, R129, R138 to R142, R160, R321,
R456, R478, R489, R492). -/

namespace Sys2Proof.Machine

/-- R108, R478: the start of a dispatched command, by its opcode. -/
def beginOp (op : Op) : CmdRef → State → State :=
  match op with
  | .nop => fun c s => ok c 0 s
  | .read | .write | .writeZeroes | .deallocate | .verify => startIo
  | .flush | .flushMedia => startFlush
  | .abort => startAbort
  | .reflectWrite | .reflectRead | .reflectAdd | .reflectCas => startReflect
  | .createRing => control createRing
  | .deleteRing => control deleteRing
  | .setRingWeight => control setRingWeight
  | .identify => control identify
  | .getFeature => control getFeature
  | .setFeature => control setFeature
  | .setPowerState => control setPowerState
  | .functionReinit => control functionReinit
  | .createPool => control createPool
  | .destroyPool => control destroyPool
  | .addMember => control addMember
  | .retireMember => control retireMember
  | .replaceMember => control replaceMember
  | .createVolume => control createVolume
  | .deleteVolume => control deleteVolume
  | .resizeVolume => control resizeVolume
  | .reshapePlan => control reshapePlan
  | .reshapeStart => control reshapeStart
  | .reshapeControl => control reshapeControl
  | .rebuildControl => control rebuildControl
  | .scrubControl => control scrubControl
  | .poolStatus => control poolStatus
  | .memberStatus => control memberStatus
  | .lostBlockList => control lostBlockList
  | .createTenant => control createTenant
  | .deleteTenant => control deleteTenant
  | .bind => control bindObject
  | .loadKey => control loadKey
  | .eraseKey => control eraseKey
  | .setTenantQos => control setTenantQos
  | .meterConfig => control meterConfig
  | .meterRead => control meterReadCmd
  | .registerRegion => control registerRegion
  | .revokeRegion => control revokeRegion
  | .endpointStatus => control endpointStatus
  | .firmwareDownload => control firmwareDownload
  | .firmwareActivate => control firmwareActivate
  | .logFreeze => control logFreeze
  | .logThaw => control logThaw
  | .logRead => control logRead
  | .logClearChallenge => control logClearChallenge
  | .logClear => control logClear
  | .healthReport => control healthReport
  | .selfTest => control selfTest
  | .engineSwap => control engineSwap
  | .dieRetire => control dieRetire
  | .timeAnchor => control timeAnchor
  | .partnerControl => control partnerControl
  | .tickBudgetReport => control tickBudgetReport

/-! ### I/O -/

/-- R51, R353: READs and VERIFYs at work are brought forward, but for those that a stage or a kerf holds. -/
def pumpReads (s : State) : State :=
  (s.cmds.filter fun c => c.stage == .working && (c.op == .read || c.op == .verify) && !heldWork s (.command c.ref) && !gapHolds s c).foldl
    (fun s c => pumpRead c.ref s) s

/-- Insertion of a command by its admission sequence number. -/
def insSeq (c : Cmd) : List Cmd → List Cmd
  | [] => [c]
  | x :: xs => if c.seq ≤ x.seq then c :: x :: xs else x :: insSeq c xs

/-- R142: a stalled command that no earlier one holds back any more starts work. -/
def startOne (ref : CmdRef) (s : State) : State :=
  match s.cmd? ref with
  | some c => if c.stage = .stalled ∧ c.clamp ∧ mayStart s c ∧ ¬ heldWork s (.command ref) then startWork ref s else s
  | none => s

/-- R142: the stalled commands in admission order. -/
def startStalled (s : State) : State :=
  ((s.cmds.filter fun c => c.stage == .stalled && c.clamp).foldr insSeq []).foldl (fun s c => startOne c.ref s) s

/-- R129, R295: a command on the member path ends once none of its content is dirty any more, and its TILE STATE entries are mirrored. -/
def endDurable (ref : CmdRef) (s : State) : State :=
  match s.cmd? ref with
  | none => s
  | some c =>
    let left := c.wait.filter fun w => s.dirtyAt w.1 w.2.1
    let s1 := s.updCmd ref fun c => { c with wait := left }
    match left, s.vol? c.entry.vol.toNat with
    | [], some v => if (s.pool? v.pool).all fun p => marksMirrored s p ref then finishWrite v c s1 else s1
    | _, _ => s1

/-- R138, R139: a FLUSH or FLUSH MEDIA ends once nothing it waits for is left. -/
def endFlush (ref : CmdRef) (s : State) : State :=
  match s.cmd? ref with
  | none => s
  | some c =>
    let past (w : Nat × Nat × Nat) : Bool := if c.op = .flush then durableNow s w.1 w.2.1 else !s.dirtyAt w.1 w.2.1
    let left := c.wait.filter fun w => !past w
    let s1 := s.updCmd ref fun c => { c with wait := left }
    if left.isEmpty then finishFlush c s1 else s1

/-- R353, R375: a kerf holds a command at its end: that of a pool without its home die, and every one while the witness is contested. A
FUA write of a pool that is handed back ends. -/
def endHeld (s : State) (c : Cmd) : Bool := s.pair.contest.isSome || (gapHolds s c && !(c.past && s.pair.handing.isSome))

/-- R129, R138, R139: the commands whose wait has ended. -/
def endWaits (s : State) : State :=
  let s1 := (s.cmds.filter fun c => c.stage == .durable && !endHeld s c).foldl (fun s c => endDurable c.ref s) s
  (s1.cmds.filter fun c => c.stage == .waiting && (c.op == .flush || c.op == .flushMedia) && !endHeld s1 c).foldl (fun s c => endFlush c.ref s) s1

/-! ### Rebuilds without work -/

/-- R231, R253, R255: a member is still REPLACING or DRAINING with nothing left to do for it. -/
def membersReady (s : State) (p : Pool) : Bool :=
  (p.members ++ p.pending).any fun m => (m.state == .replacing || m.state == .draining) &&
    !(workLeft s p ++ copyLeft s p).any fun w => ((p.memberAt w.1 w.2.1).map (·.ns)) == some m.ns

/-- R233, R244, R253, R255, R257: what ends where DELETE VOLUME or DEALLOCATE has taken the last work away, or where there was none:
members that are ready, sweeps, scrub passes. -/
def endRebuilds (s : State) : State :=
  let ready := s.pools.filter fun p => poolRuns s p && membersReady s p
  let s1 := ready.foldl (fun s p => finishMembers p.num s) s
  let swept := s1.pools.filter fun p => poolRuns s1 p && (p.rebuild.running || p.rebuild.umbra)
  let s2 := swept.foldl (fun s p => sweepProgress p.num s) s1
  (s2.pools.filter fun p => poolRuns s2 p && p.scrub.running && (scrubNext s2 p).isNone).foldl (fun s p => nextPass p.num s) s2

/-- R157, R364: a pool that had no shadow die gets one as soon as a die qualifies; then it has its mirror again. -/
def giveShadows (s : State) : State :=
  (s.pools.filter fun p => p.shadow.isNone && !p.away && s.serves p.home && (newShadow s p p.home).isSome).foldl (fun s p =>
    makeMirrored p.num (s.updPool p.num fun q => { q with shadow := newShadow s p p.home })) s

/-! ### Zero-fill (R135) -/

/-- A pool whose stripes the package destages. -/
def canDestage (s : State) (p : Pool) : Bool := s.running && s.serves p.home && p.offline.isNone && !p.away

/-- R240: the tiles of a zero-fill that were none of the rebuild's, with the members whose strips it writes to their holders: no work
is left for them. -/
def zeroOwed (p : Pool) (l : List (Bool × Nat)) (before : Bool → List Nat) : List (Bool × Nat × Nat) :=
  let tiles := (l.map fun x => (x.1, (p.geomOf x.1).rowOf x.2 / 64)).eraseDups.filter fun t => !(before t.1).contains t.2
  tiles.flatMap fun t => ((List.range (p.geomOf t.1).n).filter fun x => p.owes t.1 x t.2).map fun x => (t.1, x, t.2)

/-- R240: that work counts as done: strips of a replacement on it, the others with their spare holders. -/
def zeroDone (p : Pool) (l : List (Bool × Nat × Nat)) : Pool :=
  let onto := l.filter fun e => p.stateAt e.1 e.2.1 == some .replacing
  let into := l.filter fun e => !onto.contains e
  { p with rebuild := { p.rebuild with done := into ++ p.rebuild.done.filter (fun e => !into.contains e),
                                       copied := onto ++ p.rebuild.copied.filter fun e => !onto.contains e } }

/-- R135 step 2: the zero-fill of unit i has no stripe left to write. -/
def filled (s : State) (v : Vol) (i : Nat) : Bool :=
  decide (i < v.extents.length) && (s.pool? v.pool).any fun p => canDestage s p && journalRoom s p.home && !(unitStripes p v i).any fun x => stripeBusy s p.num x.1 x.2

/-- R135 step 2, R240: the mark goes; what rebuild had left to do in the unit's tiles is done. -/
def endFill (vol i : Nat) (s : State) : State :=
  match s.vol? vol with
  | none => s
  | some v =>
    match s.pool? v.pool with
    | none => s
    | some p =>
      let s0 := s.updPool p.num fun q => zeroDone q (zeroOwed q (unitStripes p v i) (workTiles s p))
      (programJ p.home (some p.num) (.tileState vol i 0) s0).updVol vol fun v =>
        { v with zero := v.zero.filter (· != i), filling := v.filling.filter (· != i) }

/-- R135 step 2: the zero-fills that have nothing left to write end; one of a unit that the volume has lost is forgotten. -/
def endFills (s : State) : State :=
  s.vols.foldl (fun s v =>
    let s1 := (v.filling.filter (filled s v)).foldl (fun s i => endFill v.num i s) s
    if v.filling.any fun i => decide (v.extents.length ≤ i) then
      s1.updVol v.num fun w => { w with filling := w.filling.filter fun i => decide (i < w.extents.length) } else s1) s

/-! ### Control commands that wait -/

/-- R81, R467: DELETING rings with nothing in flight are gone. -/
def endRings (s : State) : State :=
  (s.rings.filter fun r => r.state == .deleting).foldl (fun s r => if inflight s r = 0 then endDeletion r s else s) s

/-- R79: setup rings of functions with SETUP_CFG.EN 0 are gone once nothing is in flight. -/
def endSetups (s : State) : State :=
  (s.rings.filter fun r => r.setup && (s.fn? r.die r.fn).any fun f => !f.setupEn).foldl (fun s r => dropSetup r.die r.fn s) s

/-- R489, R492: volumes and pools that are being deleted. -/
def endObjects (s : State) : State :=
  let refs := (s.vols.filterMap (·.deleting)).eraseDups.filter fun r => (s.cmd? r).all fun c => c.op != .destroyPool
  let s1 := refs.foldl (fun s r => tryDelete r s) s
  (s1.cmds.filter fun c => c.op == .destroyPool && c.stage == .waiting && c.told.isNone).foldl (fun s c => tryDestroy c.ref s) s1

/-- R160, R485: protected regions that fit now take the size asked for; feature 04h takes effect. -/
def endProt (s : State) : State :=
  let s1 := applyProt s
  if s1.feat.waiters.any fun w => w.2.1 == 4 then
    endWaiters (fun fid sel => fid == 4 && !(s1.feat.protNext.any fun e => (selDies s1 sel).contains e.1)) s1
  else s1

/-- R366, R369, R478: a configuration command completes when the partner has acknowledged its change, or when the pair has parted. -/
def endTold (s : State) : State :=
  let acked (c : Cmd) (w : Told) : Bool := w.msg.any fun m => !openSys s c.ref.die m
  (s.cmds.filter fun c => c.told.any fun w => s.pair.state != .paired || acked c w).foldl (fun s c => match c.told with
    | some w => complete c.ref 0 { result := w.result, extra := w.extra } s
    | none => s) s

/-- R321, R478: a control or reflect command that was held back is tried again. -/
def retryOne (ref : CmdRef) (s : State) : State :=
  match s.cmd? ref with
  | some c =>
    if c.stage != .stalled || c.clamp then s
    else if 0x40 ≤ c.op.code ∧ c.op.code ≤ 0x43 then retryReflect ref s
    else beginOp c.op ref s
  | none => s

/-- The held-back control and reflect commands, in the order of their dispatch. -/
def retryHeld (s : State) : State := (s.cmds.filter fun c => c.stage == .stalled && !c.clamp).foldl (fun s c => retryOne c.ref s) s

/-- What a running package brings forward after the effect of a command. -/
def settleRun (s : State) : State :=
  startChange (lend (retryHeld (endTold (endLeaving (endHandback (takeCopies (endProt (endRebuilds (endObjects (endSetups (endRings (endWaits (startStalled (askHeld (pumpReads (giveShadows (arriveBacks s)))))))))))))))))

/-- Every step ends with what its effect lets go on: the drive side from replay on, commands once the package runs. -/
def settle (s : State) : State :=
  let s1 := if s.drives then endSteps (endBuilds (endJobs (endFills (pumpDestages s)))) else s
  if s1.running then settleRun s1 else s1

end Sys2Proof.Machine
end

