-- ==== Sys2Proof/Machine/ControlCommands.lean ====
section
/-! DEFINITION. The control commands 10h to 18h (R475 to R487). -/

namespace Sys2Proof.Machine

/-- CREATE RING (R80, R481). -/
def execCreateRing (p : Post) (s : State) : Answer := .next (dispatchEntry .createRing p (control createRing) s)

/-- DELETE RING (R81, R482). -/
def execDeleteRing (p : Post) (s : State) : Answer := .next (dispatchEntry .deleteRing p (control deleteRing) s)

/-- SET RING WEIGHT (R100, R482). -/
def execSetRingWeight (p : Post) (s : State) : Answer := .next (dispatchEntry .setRingWeight p (control setRingWeight) s)

/-- ABORT (R151 to R155). -/
def execAbort (p : Post) (s : State) : Answer := .next (settle (dispatchEntry .abort p startAbort s))

/-- IDENTIFY (R479, R480, R483). -/
def execIdentify (p : Post) (s : State) : Answer := .next (dispatchEntry .identify p (control identify) s)

/-- GET FEATURE (R484, R485). -/
def execGetFeature (p : Post) (s : State) : Answer := .next (dispatchEntry .getFeature p (control getFeature) s)

/-- SET FEATURE (R484, R485). -/
def execSetFeature (p : Post) (s : State) : Answer := .next (dispatchEntry .setFeature p (control setFeature) s)

/-- SET POWER STATE (R456, R487). -/
def execSetPowerState (p : Post) (s : State) : Answer := .next (dispatchEntry .setPowerState p (control setPowerState) s)

/-- FUNCTION REINIT (R467, R487). -/
def execFunctionReinit (p : Post) (s : State) : Answer := .next (settle (dispatchEntry .functionReinit p (control functionReinit) s))

end Sys2Proof.Machine
end

