-- ==== Sys2Proof/Machine/Destaging.lean ====
section
/-! DEFINITION. Fragment tables, host transfer errors, units protected, stripes queued and destaged, zero-fill (R96, R135,
R156, R161 to R168, R343). -/

namespace Sys2Proof.Machine

/-! ### Fragment tables and host data (R96) -/

/-- R441: the bytes of a reflect command whose fragment table has been read. -/
def chargeFrags (r : Ring) (c : Cmd) (s : State) : State :=
  if c.op = .reflectWrite ∨ c.op = .reflectRead then
    match (s.ringTenant r).bind s.tenant? with
    | none => s
    | some t =>
      if t.qos.opsRate = 0 ∧ t.qos.byteRate = 0 then s
      else
        let b := bucketOf s r.die t.num
        setBucket { b with bytes := b.bytes - c.dataLen, cost := b.cost + c.dataLen } s
  else s

/-- FRAGMENT TABLE READ (R95, R96, R108): the table of the DLEN fragments that the entry counts: one with a malformed fragment
halts the package; else the command starts. -/
def tableRead (ref : CmdRef) (frags : List Frag) (buf : Bytes) (s : State) : State :=
  match s.cmd? ref, s.ring? ref.die ref.ring with
  | some c, some r =>
    if !s.running || c.stage != .table || frags.length != c.entry.dlen.toNat then s
    else match tableCause c.entry frags with
      | some m => malformed ref.die (entryHalt m r ref.index c.op.code c.entry) s
      | none =>
        let c1 := { c with frags := frags, buf := buf, stage := .planned }
        beginOp c.op ref (chargeFrags r c1 (s.updCmd ref fun _ => c1))
  | _, _ => s

/-- R96, R117: a write-kind command whose data has not been taken into the cache: none of it, not by an earlier home die either. -/
def beforeData (c : Cmd) : Bool := c.op == .write && c.units == 0 && !c.past && (c.stage == .stalled || c.stage == .working)

/-- HOST TRANSFER ERROR (R96, R117, R343): the command completes with 0206h; AER. -/
def transferError (ref : CmdRef) (s : State) : State :=
  match s.cmd? ref with
  | none => s
  | some c =>
    if !s.running then s
    else if c.stage = .table then
      complete ref 0x0206 { retry := decide (c.op.code < 8) || decide (0x40 ≤ c.op.code ∧ c.op.code ≤ 0x43) } (s.emit (.aer ref.die))
    else if beforeData c || ((c.op == .reflectWrite || c.op == .reflectRead) && c.stage == .stalled) then complete ref 0x0206 { retry := true } (s.emit (.aer ref.die))
    else match opMsg s ref with
      | some m => failReflect m 0x0206 0 (s.emit (.aer ref.die))
      | none => s

/-! ### Units and stripes -/

/-- UNIT PROTECTED (R156): the next atomic unit of a write-kind command is protected. -/
def unitDone (ref : CmdRef) (s : State) : State :=
  match s.cmd? ref with
  | none => s
  | some c =>
    match s.vol? c.entry.vol.toNat with
    | none => s
    | some v =>
      match s.pool? v.pool with
      | none => s
      | some p => if mayProtect s p v c then pressure p.home (protectUnit p v c s) else s

/-- STRIPE AGE LIMIT (R163): the oldest dirty block of a stripe has reached the pool's age limit. -/
def ageLimit (num n : Nat) (s : State) : State :=
  match s.pool? num with
  | none => s
  | some p =>
    let ds := stripeDirty s p (decide (2 ^ 47 ≤ n)) (n % 2 ^ 47)
    if canDestage s p && ds.any fun x => decide (x.1.since + p.age ≤ s.clk.tick) then queueStripes num [n] s else s

/-- R139, R168: the class of a destage: that of the member-path writes and FLUSH MEDIAs that wait for it, else 1. -/
def destageClass (s : State) (snap : List (CBlk × Nat × Nat)) : Nat :=
  let waits (c : Cmd) : Bool := (c.stage == .durable || c.op == .flushMedia) && c.wait.any fun w => snap.any fun x => x.1.vol == w.1 && x.1.lba == w.2.1
  ((s.cmds.filter waits).map Cmd.served).min?.getD 1

/-- R135: a dirty block of a stripe lies in a unit that still reads as zeros. -/
def zeroFirst (s : State) (snap : List (CBlk × Nat × Nat)) : Bool :=
  snap.any fun x => (s.vol? x.1.vol).any fun v => v.zero.contains (x.1.lba / v.x)

/-- R275: an old stripe holds blocks of the volume range of a new tile. -/
def builds (s : State) (p : Pool) (r : Reshape) (t st : Nat) : Bool :=
  let g := p.geom
  (r.tables.find? fun x => x.2.contains t).any fun x => (s.vol? x.1).any fun v =>
    (List.range (g.k * g.sb)).any fun i => (v.lbaOf (st * (g.k * g.sb) + i)).any fun l => x.2[l / r.plan.nt]? == some t

/-- R271, R275, R277: a reshape starts no destage here: a mitre step has locked what the stripe touches, a veneer builds a tile from it, or
has built its last tile and is to switch. -/
def reshapeHolds (s : State) (p : Pool) (new : Bool) (st : Nat) : Bool :=
  p.lock.any (fun k => touches p new st k.tile k.lo k.hi) ||
    p.reshape.any fun r => !r.plan.mitre && ((!r.cancelling && (nextBuild r).isNone) || (!new && r.building.any fun t => builds s p r t st))

/-- R135, R227, R236, R271, R277: what holds off the destage of a stripe: zeros to be written first, a rewrite of its blocks, a
reshape. -/
def stripeBarred (s : State) (p : Pool) (new : Bool) (st : Nat) (snap : List (CBlk × Nat × Nat)) : Bool :=
  zeroFirst s snap || reshapeHolds s p new st || p.inJob new ((p.geomOf new).rowOf st / 64) || s.mcmds.any fun m => m.pool == some p.num && !m.waits && match m.purpose with
    | .repair n x _ _ | .work n x => n == new && x == st
    | _ => false

/-- R163: the tick of the oldest dirty block of a stripe. -/
def stripeSince (snap : List (CBlk × Nat × Nat)) : Nat := ((snap.map (·.1.since)).min?).getD 0

/-- R162: under pressure the oldest of a die's queued stripes that nothing holds off and that are not being destaged goes first. -/
def olderWaits (s : State) (p : Pool) (snap : List (CBlk × Nat × Nat)) : Bool :=
  ((s.die? p.home).any (·.jr.pressing)) && s.pools.any fun q => q.home == p.home && q.queued.any fun n =>
    let new := decide (2 ^ 47 ≤ n)
    let st := n % 2 ^ 47
    let other := stripeDirty s q new st
    !other.isEmpty && decide (stripeSince other < stripeSince snap) && !stripeBarred s q new st other &&
      !s.destages.any fun d => d.pool == q.num && d.newGeom == new && d.stripe == st

/-- R135, R162, R227, R236, R271, R277: what holds off the destage of a stripe. -/
def stripeHeld (s : State) (p : Pool) (new : Bool) (st : Nat) (snap : List (CBlk × Nat × Nat)) : Bool :=
  stripeBarred s p new st snap || olderWaits s p snap

/-- DESTAGE START (R163, R166, R168, R363): a queued stripe with dirty blocks, no destage of its own under way, and room for an
intent; units that are still at the partner are asked for first. -/
def destageStart (num n : Nat) (s : State) : State :=
  match s.pool? num with
  | none => s
  | some p =>
    let new := decide (2 ^ 47 ≤ n)
    let st := n % 2 ^ 47
    let snap := stripeDirty s p new st
    if !canDestage s p || decide (2 ≤ s.pw.pstate) || s.pair.contest.isSome || !p.queued.contains n || decide (16384 ≤ intentsOf s p.home) || !journalRoom s p.home ||
        (s.destages.any fun d => d.pool == num && d.newGeom == new && d.stripe == st) || stripeHeld s p new st snap then s
    else if snap.any fun x => x.1.remote.isSome then (snap.map (·.1)).foldl askBlock s
    else if snap.isEmpty then s.updPool num fun p => { p with queued := p.queued.filter (· != n) }
    else openDestage p new st (destageClass s snap) snap s

/-! ### Zero-fill (R135) -/

/-- R135 step 1: the blocks of a stripe of unit i as zero-fill writes them. Of an encrypted volume the zeros are encrypted, so that the
blocks go on reading as zeros once the mark is gone: DESIGN CHOICE, R135 says that the data is zero (assumption 43). -/
def zeroSnap (s : State) (p : Pool) (v : Vol) (i : Nat) (new : Bool) (st : Nat) : List (CBlk × Nat × Nat) :=
  let g := p.geomOf new
  let e := ((v.extents[i]?).getD 0) * v.x
  (List.range g.k).flatMap fun q => (List.range g.sb).map fun o =>
    let l := i * v.x + (st * (g.k * g.sb) + q * g.sb + o - e)
    ({ vol := v.num, lba := l, data := zeroData s v l, pi := zeroPi v.pif (zeros v.b), dirty := true, mirrored := false, jsn := 0,
       since := s.clk.tick, used := s.clk.tick }, q, o)

/-- R226: a write to blocks of a stripe has timed out and its attempts are not over. -/
def lateInStripe (s : State) (p : Pool) (x : Bool × Nat) : Bool :=
  let g := p.geomOf x.1
  s.mcmds.any fun m => m.isWrite && decide (1 < m.tries) && m.pool == some p.num &&
    decide (g.memberLba x.2 0 ≤ m.lba) && decide (m.lba < g.memberLba x.2 0 + g.sb)

/-- R135: the destage class of the blocks of a unit that wait for its zero-fill. -/
def fillClass (s : State) (v : Vol) (i : Nat) : Nat :=
  destageClass s ((s.cache.filter fun b => b.dirty && b.vol == v.num && b.lba / v.x == i).map fun b => (b, 0, 0))

/-- R135, R294, R310, R375: the unit waits for a zero-fill that may start now: destages start in the power state, no reshape step holds
the unit, no contest is open, nothing is on its stripes. -/
def mayFill (s : State) (p : Pool) (v : Vol) (i : Nat) : Bool :=
  let l := unitStripes p v i
  canDestage s p && decide (s.pw.pstate < 2) && s.pair.contest.isNone && journalRoom s p.home && mirrorsAnswer s p.home && v.zero.contains i &&
    !v.filling.contains i && (s.cache.any fun b => b.dirty && !b.pinned && b.vol == v.num && b.lba / v.x == i) &&
    decide (intentsOf s p.home + l.length ≤ 16384) &&
    !l.any fun x => lateInStripe s p x || reshapeHolds s p x.1 x.2 || p.inJob x.1 ((p.geomOf x.1).rowOf x.2 / 64) || stripeBusy s p.num x.1 x.2

/-- ZERO FILL (R135 step 1, R226): before the first destage into a marked unit each of its stripes is written with zeros, in the class
of that destage. -/
def zeroFill (vol i : Nat) (s : State) : State :=
  match s.vol? vol with
  | none => s
  | some v =>
    match s.pool? v.pool with
    | none => s
    | some p =>
      if !mayFill s p v i then s
      else
        let cls := fillClass s v i
        (unitStripes p v i).foldl (fun s x => openDestage p x.1 x.2 cls (zeroSnap s p v i x.1 x.2) s)
          (s.updVol vol fun v => { v with filling := insNat i v.filling })

/-! ### Rows -/

/-- FRAGMENT TABLE READ (R96). -/
def execFragmentTableRead (c : CmdRef) (frags : List Frag) (buf : Bytes) (s : State) : Answer := .next (tableRead c frags buf s)

/-- HOST TRANSFER ERROR (R96). -/
def execHostTransferError (c : CmdRef) (s : State) : Answer := .next (settle (transferError c s))

/-- UNIT PROTECTED (R156). -/
def execUnitProtected (c : CmdRef) (s : State) : Answer := .next (settle (unitDone c s))

/-- STRIPE AGE LIMIT (R163). -/
def execStripeAgeLimit (pool stripe : Nat) (s : State) : Answer := .next (ageLimit pool stripe s)

/-- DESTAGE START (R166). -/
def execDestageStart (pool stripe : Nat) (s : State) : Answer := .next (settle (destageStart pool stripe s))

/-- ZERO FILL (R135). -/
def execZeroFill (vol unit : Nat) (s : State) : Answer := .next (settle (zeroFill vol unit s))

end Sys2Proof.Machine
end

