-- ==== Sys2Proof/Machine/DriveRows.lean ====
section
/-! DEFINITION. What the drive side reports of member commands, members and paths (R219 to R229, R367). -/

namespace Sys2Proof.Machine

/-- MEMBER COMPLETION (R222). -/
def execMemberCompletion (id : Nat) (r : MemResult) (s : State) : Answer := .next (settle (memberDone id r s))

/-- SECTOR REPAIRED (R227). -/
def execSectorRepaired (id : Nat) (s : State) : Answer := .next (settle (sectorDone id s))

/-- MEMBER COMMAND RETRIED (R226). -/
def execMemberCommandRetried (id : Nat) (s : State) : Answer := .next (settle (commandRetried id s))

/-- MEMBER TIMEOUT (R228). -/
def execMemberTimeout (id : Nat) (s : State) : Answer := .next (settle (memberTimedOut id s))

/-- MEMBER REMOVED (R228). -/
def execMemberRemoved (nsid : Nat) (s : State) : Answer := .next (settle (memberGone nsid s))

/-- CONTROLLER FATAL (R228). -/
def execControllerFatal (nsid : Nat) (s : State) : Answer := .next (settle (memberFatal nsid s))

/-- ASYNC EVENT (R225). -/
def execAsyncEvent (nsid : Nat) (warn : BitVec 8) (s : State) : Answer := .next (settle (eventWarn nsid warn s))

/-- SMART POLL (R225). -/
def execSmartPoll (nsid : Nat) (warn : BitVec 8) (s : State) : Answer := .next (settle (healthWarn nsid warn s))

/-- PATH LOST (R259). -/
def execPathLost (nsid die : Nat) (s : State) : Answer := .next (settle (losePath nsid die s))

/-- PATH RESTORED (R259). -/
def execPathRestored (nsid die : Nat) (s : State) : Answer := .next (restorePath nsid die s)

/-- MEMBER APPEARS ON PATH (R219). -/
def execMemberAppearsOnPath (n : NsInfo) (s : State) : Answer := .next (settle (memberAppears n s))

/-- FORMAT NVM TIMEOUT (R488). -/
def execFormatNvmTimeout (id : Nat) (s : State) : Answer := .next (settle (formatTimedOut id s))

end Sys2Proof.Machine
end

