-- ==== Sys2Proof/Machine/IoCommands.lean ====
section
/-! DEFINITION. The I/O commands 00h to 07h: each takes the entry at the head of its ring (R108, R114 to R155). -/

namespace Sys2Proof.Machine

/-- NOP (R120): completes with 0000h. -/
def execNop (p : Post) (s : State) : Answer := .next (dispatchEntry .nop p (fun c s => ok c 0 s) s)

/-- READ (R114 to R136). -/
def execRead (p : Post) (s : State) : Answer := .next (dispatchEntry .read p startIo s)

/-- WRITE (R114 to R134, R146). -/
def execWrite (p : Post) (s : State) : Answer := .next (dispatchEntry .write p startIo s)

/-- FLUSH (R138, R140). -/
def execFlush (p : Post) (s : State) : Answer := .next (dispatchEntry .flush p startFlush s)

/-- FLUSH MEDIA (R139, R140). -/
def execFlushMedia (p : Post) (s : State) : Answer := .next (dispatchEntry .flushMedia p startFlush s)

/-- WRITE ZEROES (R133). -/
def execWriteZeroes (p : Post) (s : State) : Answer := .next (dispatchEntry .writeZeroes p startIo s)

/-- DEALLOCATE (R134). -/
def execDeallocate (p : Post) (s : State) : Answer := .next (dispatchEntry .deallocate p startIo s)

/-- VERIFY (R136). -/
def execVerify (p : Post) (s : State) : Answer := .next (dispatchEntry .verify p startIo s)

end Sys2Proof.Machine
end

