-- ==== Sys2Proof/Machine/MaintCommands.lean ====
section
/-! DEFINITION. The maintenance commands 50h to 5Dh (R382 to R386, R420 to R430, R470 to R472, R502 to R504). -/

namespace Sys2Proof.Machine

/-- FIRMWARE DOWNLOAD (R470, R502). -/
def execFirmwareDownload (p : Post) (s : State) : Answer := .next (dispatchEntry .firmwareDownload p (control firmwareDownload) s)

/-- FIRMWARE ACTIVATE (R471, R502). -/
def execFirmwareActivate (p : Post) (s : State) : Answer := .next (dispatchEntry .firmwareActivate p (control firmwareActivate) s)

/-- LOG FREEZE (R420, R503). -/
def execLogFreeze (p : Post) (s : State) : Answer := .next (dispatchEntry .logFreeze p (control logFreeze) s)

/-- LOG THAW (R421, R503). -/
def execLogThaw (p : Post) (s : State) : Answer := .next (dispatchEntry .logThaw p (control logThaw) s)

/-- LOG READ (R423, R503). -/
def execLogRead (p : Post) (s : State) : Answer := .next (dispatchEntry .logRead p (control logRead) s)

/-- LOG CLEAR CHALLENGE (R424, R503). -/
def execLogClearChallenge (p : Post) (s : State) : Answer := .next (dispatchEntry .logClearChallenge p (control logClearChallenge) s)

/-- LOG CLEAR (R424, R425, R503). -/
def execLogClear (p : Post) (s : State) : Answer := .next (dispatchEntry .logClear p (control logClear) s)

/-- HEALTH REPORT (R382, R502). -/
def execHealthReport (p : Post) (s : State) : Answer := .next (dispatchEntry .healthReport p (control healthReport) s)

/-- SELF TEST (R503). -/
def execSelfTest (p : Post) (s : State) : Answer := .next (dispatchEntry .selfTest p (control selfTest) s)

/-- ENGINE SWAP (R24, R503). -/
def execEngineSwap (p : Post) (s : State) : Answer := .next (dispatchEntry .engineSwap p (control engineSwap) s)

/-- DIE RETIRE (R386, R503). -/
def execDieRetire (p : Post) (s : State) : Answer := .next (settle (dispatchEntry .dieRetire p (control dieRetire) s))

/-- TIME ANCHOR (R430, R503). -/
def execTimeAnchor (p : Post) (s : State) : Answer := .next (dispatchEntry .timeAnchor p (control timeAnchor) s)

/-- PARTNER CONTROL (R380, R503). -/
def execPartnerControl (p : Post) (s : State) : Answer := .next (settle (dispatchEntry .partnerControl p (control partnerControl) s))

/-- TICK BUDGET REPORT (R504). -/
def execTickBudgetReport (p : Post) (s : State) : Answer := .next (dispatchEntry .tickBudgetReport p (control tickBudgetReport) s)

end Sys2Proof.Machine
end

