-- ==== Sys2Proof/Machine/PairRows.lean ====
section
/-! DEFINITION. Heartbeats, takeovers, the witness and rejoining (R359 to R386). -/

namespace Sys2Proof.Machine

/-- HEARTBEAT LOST (R359). -/
def execHeartbeatLost (peer : HbPeer) (s : State) : Answer := .next (settle (heartbeatLost peer s))

/-- SHADOW TAKEOVER (R361). -/
def execShadowTakeover (die : Nat) (s : State) : Answer := .next (settle (shadowTakeover die s))

/-- TAKEOVER DECISION (R369). -/
def execTakeoverDecision (holdIn : Bool) (s : State) : Answer := .next (settle (takeoverDecision holdIn s))

/-- WITNESS ACQUIRE DONE (R375). -/
def execWitnessAcquireDone (conflict : Bool) (s : State) : Answer := .next (settle (witnessDone conflict s))

/-- REJOIN TICK (R372). -/
def execRejoinTick (s : State) : Answer := .next (settle (rejoinTick s))

/-- PARTNER ABSENT TIMEOUT (R379). -/
def execPartnerAbsentTimeout (s : State) : Answer := .next (settle (partnerAbsent s))

/-- DRY TAKEOVER (R381). -/
def execDryTakeover (die holder : Nat) (ok : Bool) (s : State) : Answer := .next (settle (dryTakeover die holder ok s))

/-- DIE RETIRE MIGRATED (R386). -/
def execDieRetireMigrated (pool : Nat) (s : State) : Answer := .next (settle (dieRetireMigrated pool s))

end Sys2Proof.Machine
end

