-- ==== Sys2Proof/Machine/PoolCommands.lean ====
section
/-! DEFINITION. The commands on pools and volumes 20h to 2Fh (R488 to R498). -/

namespace Sys2Proof.Machine

/-- CREATE POOL (R192, R488). -/
def execCreatePool (p : Post) (s : State) : Answer := .next (dispatchEntry .createPool p (control createPool) s)

/-- DESTROY POOL (R489). -/
def execDestroyPool (p : Post) (s : State) : Answer := .next (settle (dispatchEntry .destroyPool p (control destroyPool) s))

/-- ADD MEMBER (R261, R490). -/
def execAddMember (p : Post) (s : State) : Answer := .next (dispatchEntry .addMember p (control addMember) s)

/-- RETIRE MEMBER (R255, R490). -/
def execRetireMember (p : Post) (s : State) : Answer := .next (settle (dispatchEntry .retireMember p (control retireMember) s))

/-- REPLACE MEMBER (R251, R490). -/
def execReplaceMember (p : Post) (s : State) : Answer := .next (dispatchEntry .replaceMember p (control replaceMember) s)

/-- CREATE VOLUME (R491). -/
def execCreateVolume (p : Post) (s : State) : Answer := .next (dispatchEntry .createVolume p (control createVolume) s)

/-- DELETE VOLUME (R492). -/
def execDeleteVolume (p : Post) (s : State) : Answer := .next (dispatchEntry .deleteVolume p (control deleteVolume) s)

/-- RESIZE VOLUME (R493). -/
def execResizeVolume (p : Post) (s : State) : Answer := .next (settle (dispatchEntry .resizeVolume p (control resizeVolume) s))

/-- RESHAPE PLAN (R262, R263, R494). -/
def execReshapePlan (p : Post) (s : State) : Answer := .next (dispatchEntry .reshapePlan p (control reshapePlan) s)

/-- RESHAPE START (R264, R494). -/
def execReshapeStart (p : Post) (s : State) : Answer := .next (dispatchEntry .reshapeStart p (control reshapeStart) s)

/-- RESHAPE CONTROL (R281, R494). -/
def execReshapeControl (p : Post) (s : State) : Answer := .next (dispatchEntry .reshapeControl p (control reshapeControl) s)

/-- REBUILD CONTROL (R243, R495). -/
def execRebuildControl (p : Post) (s : State) : Answer := .next (dispatchEntry .rebuildControl p (control rebuildControl) s)

/-- SCRUB CONTROL (R256, R495). -/
def execScrubControl (p : Post) (s : State) : Answer := .next (dispatchEntry .scrubControl p (control scrubControl) s)

/-- POOL STATUS (R496). -/
def execPoolStatus (p : Post) (s : State) : Answer := .next (dispatchEntry .poolStatus p (control poolStatus) s)

/-- MEMBER STATUS (R497). -/
def execMemberStatus (p : Post) (s : State) : Answer := .next (dispatchEntry .memberStatus p (control memberStatus) s)

/-- LOST BLOCK LIST (R498). -/
def execLostBlockList (p : Post) (s : State) : Answer := .next (dispatchEntry .lostBlockList p (control lostBlockList) s)

end Sys2Proof.Machine
end

