-- ==== Sys2Proof/Machine/PoolRows.lean ====
section
/-! DEFINITION. Rebuild, scrub, copy-back and reshape as they advance, and erasure marks (R231 to R285, R448). -/

namespace Sys2Proof.Machine

/-- REBUILD STARTED (R233). -/
def execRebuildStarted (pool : Nat) (s : State) : Answer := .next (rebuildStart pool s)

/-- REBUILD TILE DONE (R236). -/
def execRebuildTileDone (pool tile : Nat) (new : Bool) (bad : List BadOff) (s : State) : Answer := .next (settle (rebuildTile pool tile new bad s))

/-- REBUILD RESORTED (R238). -/
def execRebuildResorted (pool : Nat) (s : State) : Answer := .next (rebuildResort pool s)

/-- LOST LIST WRITE (R247). -/
def execLostListWrite (pool : Nat) (s : State) : Answer := .next (lostWrite pool s)

/-- COPY BACK TILE (R252). -/
def execCopyBackTile (pool member tile : Nat) (new : Bool) (s : State) : Answer := .next (settle (copyBack pool member tile new s))

/-- SCRUB PASS START (R256). -/
def execScrubPassStart (pool : Nat) (s : State) : Answer := .next (scrubStart pool s)

/-- SCRUB TILE (R257). -/
def execScrubTile (pool tile : Nat) (found : List ScrubOff) (s : State) : Answer := .next (settle (scrubTile pool tile found s))

/-- MITRE STEP (R271). -/
def execMitreStep (pool : Nat) (s : State) : Answer := .next (settle (mitreStep pool s))

/-- VENEER BUILD (R275). -/
def execVeneerBuild (pool : Nat) (s : State) : Answer := .next (settle (veneerBuild pool s))

/-- VENEER SWITCH (R277). -/
def execVeneerSwitch (pool : Nat) (s : State) : Answer := .next (settle (veneerSwitch pool s))

/-- RESHAPE CANCELLED (R281). -/
def execReshapeCancelled (pool : Nat) (s : State) : Answer := .next (settle (reshapeCancelled pool s))

/-- ERASE MARKS APPLY (R448). -/
def execEraseMarksApply (tenant : Nat) (s : State) : Answer := .next (settle (eraseMarks tenant s))

end Sys2Proof.Machine
end

