-- ==== Sys2Proof/Machine/Jtag.lean ====
section
/-! DEFINITION. The JTAG port (R545). No row of the table shifts an instruction into it. -/

namespace Sys2Proof.Machine

/-- R545: RESET_N is asserted: it was sampled low in the current tick (assumption 44). -/
def resetNLow (s : State) : Bool := s.run.resetNAt == some s.clk.tick

/-- R545: the instructions that take effect at any time. -/
def tapAlways : TapIns → Bool
  | .bypass | .idcode | .sample => true
  | .extest | .clamp | .highz | .extestPulse | .extestTrain => false

/-- R545: the instruction that the TAP carries out: any other boundary-scan instruction is BYPASS unless RESET_N is asserted. -/
def tapActs (s : State) : TapIns := if tapAlways s.run.tap || resetNLow s then s.run.tap else .bypass

/-- R545: an instruction shifted in through TDI; it reads and writes nothing else of the device. -/
def tapShift (i : TapIns) (s : State) : State := { s with run := { s.run with tap := i } }

end Sys2Proof.Machine
end

