-- ==== Sys2Proof/Machine/PowerRows.lean ====
section
/-! DEFINITION. Start-up phases, power states and firmware flips as they end, uncorrectable memory errors (R397, R398, R456 to R472). -/

namespace Sys2Proof.Machine

/-- STARTUP PHASE DONE (R462). -/
def execStartupPhaseDone (i : PhaseIn) (s : State) : Answer := .next (settle (phaseDone i s))

/-- POWER RETURNED (R182). -/
def execPowerReturned (s : State) : Answer := .next (settle (powerReturned s))

/-- POWER STATE CHANGE DONE (R456). -/
def execPowerStateChangeDone (s : State) : Answer := .next (settle (changeDone s))

/-- POWER STATE TIMEOUT (R457). -/
def execPowerStateTimeout (s : State) : Answer := .next (settle (changeTimeout s))

/-- FIRMWARE CLASS FLIP (R471). -/
def execFirmwareClassFlip (answerOk : Bool) (s : State) : Answer := .next (settle (firmwareFlip answerOk s))

/-- SRAM UNCORRECTABLE (R397). -/
def execSramUncorrectable (die : Nat) (hit : SramHit) (s : State) : Answer := .next (settle (sramBad die hit.patrol hit.loc s))

/-- DDR UNCORRECTABLE (R398). -/
def execDdrUncorrectable (die : Nat) (hit : DdrHit) (loc : DdrLoc) (s : State) : Answer := .next (settle (ddrBad die hit.channel hit.how loc s))

end Sys2Proof.Machine
end

