-- ==== Sys2Proof/Machine/ReflectCommands.lean ====
section
/-! DEFINITION. The reflect commands 40h to 46h (R341 to R350, R501). -/

namespace Sys2Proof.Machine

/-- REFLECT WRITE (R341). -/
def execReflectWrite (p : Post) (s : State) : Answer := .next (dispatchEntry .reflectWrite p startReflect s)

/-- REFLECT READ (R341, R350). -/
def execReflectRead (p : Post) (s : State) : Answer := .next (dispatchEntry .reflectRead p startReflect s)

/-- REFLECT ADD (R341, R342). -/
def execReflectAdd (p : Post) (s : State) : Answer := .next (dispatchEntry .reflectAdd p startReflect s)

/-- REFLECT CAS (R341, R342). -/
def execReflectCas (p : Post) (s : State) : Answer := .next (dispatchEntry .reflectCas p startReflect s)

/-- REGISTER REGION (R344, R501). -/
def execRegisterRegion (p : Post) (s : State) : Answer := .next (dispatchEntry .registerRegion p (control registerRegion) s)

/-- REVOKE REGION (R346, R501). -/
def execRevokeRegion (p : Post) (s : State) : Answer := .next (dispatchEntry .revokeRegion p (control revokeRegion) s)

/-- ENDPOINT STATUS (R501). -/
def execEndpointStatus (p : Post) (s : State) : Answer := .next (settle (dispatchEntry .endpointStatus p (control endpointStatus) s))

end Sys2Proof.Machine
end

