-- ==== Sys2Proof/Machine/SegmentRows.lean ====
section
/-! DEFINITION. Reflect segments as they arrive, and their timers (R323, R333 to R346). RESP follows from the
operation: READ DATA and ATOMIC RESULT carry it, the other four do not (R323). -/

namespace Sys2Proof.Machine

/-- SEG WRITE (R340). -/
def execSegWrite (die : Nat) (g : Seg) (s : State) : Answer := .next (settle (arrive 1 die { g with resp := false } [] s))

/-- SEG READ REQUEST (R340). -/
def execSegReadRequest (die : Nat) (g : Seg) (host : Bytes) (s : State) : Answer := .next (settle (arrive 2 die { g with resp := false } host s))

/-- SEG READ DATA (R340). -/
def execSegReadData (die : Nat) (g : Seg) (s : State) : Answer := .next (settle (arrive 3 die { g with resp := true } [] s))

/-- SEG ADD (R340). -/
def execSegAdd (die : Nat) (g : Seg) (s : State) : Answer := .next (settle (arrive 4 die { g with resp := false } [] s))

/-- SEG CAS (R340). -/
def execSegCas (die : Nat) (g : Seg) (s : State) : Answer := .next (settle (arrive 5 die { g with resp := false } [] s))

/-- SEG ATOMIC RESULT (R340). -/
def execSegAtomicResult (die : Nat) (g : Seg) (s : State) : Answer := .next (settle (arrive 6 die { g with resp := true } [] s))

/-- R323: an ACK or REFUSE within the limits takes effect; another one is discarded. -/
def answerSeg (op : Byte) (d : Nat) (g : Seg) (f : State → State) (s : State) : State :=
  if !reflectRuns s d then s else if segGood op g then f s else protoError d s

/-- SEG ACK (R323, R333). -/
def execSegAck (die : Nat) (g : Seg) (s : State) : Answer := .next (settle (answerSeg 8 die g (fun s => takeAck die g (ackRejoin die g s)) s))

/-- SEG REFUSE (R323, R343). -/
def execSegRefuse (die : Nat) (g : Seg) (s : State) : Answer := .next (settle (answerSeg 9 die g (takeRefuse die g) s))

/-- SEGMENT RETRANSMIT (R334). -/
def execSegmentRetransmit (die : Nat) (msgno : W32) (segno : Nat) (s : State) : Answer := .next (retransmit die msgno segno s)

/-- REFLECT UNREACHABLE (R334). -/
def execReflectUnreachable (die : Nat) (msgno : W32) (s : State) : Answer := .next (settle (notReached die msgno s))

/-- FLAGGED SEGMENT EXPIRED (R338). -/
def execFlaggedSegmentExpired (die : Nat) (s : State) : Answer := .next (expireHeld die s)

/-- FILTER ENTRY EXPIRED (R335). -/
def execFilterEntryExpired (die : Nat) (s : State) : Answer := .next (expireFilter die s)

/-- REVOKE COMPLETE (R346). -/
def execRevokeComplete (die key : Nat) (s : State) : Answer := .next (settle (revokeDone die key s))

end Sys2Proof.Machine
end

