-- ==== Sys2Proof/Machine/Bounds.lean ====
section
/-! DEFINITION. The latency bounds of urgent commands and their deadlines, checked in the guard period of each tick
(R57 to R65). -/

namespace Sys2Proof.Machine

/-- R59: the ticks by which each bound of a command is longer. -/
def longerFor (s : State) (c : Cmd) : Option Nat := longer s c.ref.die c.op c.entry

/-- R58, R62: the command is on the member path. -/
def memberPath (s : State) (c : Cmd) : Bool :=
  match s.vol? c.entry.vol.toNat with
  | none => false
  | some v =>
    let through := (s.pool? v.pool).any fun p => writeThrough s p v
    match c.op with
    | .read => isCons s c v || !c.fetches.isEmpty
    | .verify => true
    | .write | .writeZeroes => c.entry.fua || c.entry.nocache || through
    | .deallocate => through
    | _ => false

/-- R58: a destage carries a block that a write waits on, or what has overwritten it since. -/
def carries (d : Destage) (w : Nat × Nat × Nat) : Bool := d.snap.any fun x => x.1.vol == w.1 && x.1.lba == w.2.1 && decide (w.2.2 ≤ x.1.jsn)

/-- R58: the destages that a write waits on. -/
def ownDestages (s : State) (c : Cmd) : List Destage := s.destages.filter fun d => c.wait.any (carries d)

/-- R58: a write waits on a block that no destage carries yet. -/
def unbegun (s : State) (c : Cmd) : Bool := c.wait.any fun w => s.dirtyAt w.1 w.2.1 && !s.destages.any fun d => carries d w

/-- R58: the member commands that a command needs. -/
def memberCmds (s : State) (c : Cmd) : List MCmd :=
  let own := (ownDestages s c).map (·.id)
  s.mcmds.filter fun m => match m.purpose with
    | .fetch r _ _ => r == c.ref
    | .destage id _ _ => own.contains id
    | _ => false

/-- R58: a destage has member commands still to submit for what it reads. -/
def readsLeft (s : State) (d : Destage) : Bool :=
  d.reading && (s.pool? d.pool).any fun p => (needs p d).any fun x => !d.asked.contains x && !d.bad.contains x

/-- R58: a destage that a write waits on reads from members before it writes. Of a write none of whose destages has begun the
choice of R164 is still open: it counts as one that reads first, DESIGN CHOICE (assumption 43). -/
def readsFirst (s : State) (c : Cmd) : Bool :=
  writeKind c.op && ((ownDestages s c).isEmpty || (ownDestages s c).any fun d => !d.asked.isEmpty || readsLeft s d)

/-- R58: what a tick shows of a command's member commands: the latest handed to its member, the last of them completed. While a destage of
its stripes that was in progress at its admission goes on, the bounds count from the next tick at the earliest. -/
def noteMembers (s : State) (c : Cmd) : Cmd :=
  let out := (memberCmds s c).filter fun m => !m.waits
  let handed := ((out.map (·.at_)) ++ c.handed.toList).max?
  let busy := !(memberCmds s c).isEmpty || (ownDestages s c).any (·.reading) || unbegun s c
  { c with mem := c.mem || memberPath s c, handed := handed,
           base := if s.destages.any fun d => c.earlier.contains d.id then some (s.clk.tick + 1) else c.base,
           lastMem := if busy || handed.isNone then none else c.lastMem.orElse fun _ => some s.clk.tick }

/-- R60: a power-state change, or the long tick that aligns a follower (R74), is in progress. -/
def powerGap (s : State) : Bool := (s.pw.chg.any fun g => g.started.isSome) || decide (6401 < s.clk.tickLen)

/-- R60, R65: what a tick does to a command's bounds: a kerf of its pool, a power-state change or a slow host read touches it. A
bound is longer by one tick for each tick in which a power-state change, or part of the long tick, runs. -/
def noteGaps (s : State) (slow : List CmdRef) (c : Cmd) : Cmd :=
  { c with outside := c.outside || inKerf s c || powerGap s || slow.contains c.ref, ext := c.ext + bit (powerGap s) }

/-- R271, R272: a command that a mitre step's lock holds at the clamp stage. -/
def heldByStep (s : State) (c : Cmd) : Bool :=
  c.clamp && (c.stage == .stalled || (c.stage == .working && writeKind c.op)) && stepStalls s c

/-- R272: a tick of such a stall sets LATE, makes the bounds longer by a tick and makes a miss external. -/
def noteStep (s : State) (c : Cmd) : Cmd :=
  if heldByStep s c then { c with late := true, outside := true, ext := c.ext + 1 } else c

/-- R272: the step's remaining member writes run in class 1 from the tick in which it stalls a command of class 0 or 1. -/
def raiseStep (s : State) (p : Pool) : Pool :=
  if s.cmds.any fun c => heldByStep s c && decide (c.cls ≤ 1) && (s.vol? c.entry.vol.toNat).any (·.pool == p.num) then
    { p with lock := p.lock.map fun k => { k with cls := 1 } }
  else p

/-- R60, R62: the ticks by which a command's bounds are longer: gaps, the chain that it stalled behind, the kerf so far. -/
def extOf (s : State) (c : Cmd) : Nat := c.ext + c.block + if inKerf s c then kerfSoFar s else 0

/-- R62: the blocking bound of a command of a chain, as if it were urgent; an urgent one is charged with its extended bound. A
member-path command has as many phases as R58 gives it. -/
def blockingBound (s : State) (c : Cmd) : Nat :=
  let e := (longerFor s c).getD 0
  let phases := if !(c.mem || memberPath s c) then 0 else if readsFirst s c then 3 else 2
  (if phases = 0 then 6 + e else phases * (3 + e)) + if c.cls = 0 then extOf s c else 0

/-- R62: a stall behind a chain makes the bounds of an urgent READ or WRITE longer by one blocking bound, the largest of the
chain's, and by the members' own time. -/
def noteStall (s : State) (c : Cmd) : Cmd :=
  if !(stalledUrgent c && (c.op == .read || c.op == .write)) then c
  else
    let l := chainOf s c
    { c with ext := c.ext + bit (l.any fun d => !(memberCmds s d).isEmpty),
             block := if c.block = 0 then (l.map (blockingBound s)).foldl max 0 else c.block }

/-- R62: the stalls of a tick, in admission order: one behind another is charged with the first's extended bound. -/
def noteStalls (s : State) : State :=
  ((s.cmds.filter stalledUrgent).foldr insSeq []).foldl (fun s c => s.updCmd c.ref (noteStall s)) s

/-- R63 row 3: by the deadline `by_` a member command that the command needs first has not been handed to its member. What a READ
reads besides, once a read of it has failed, has 3 ticks from that completion: DESIGN CHOICE, R58 sets no deadline for it
(assumption 43). -/
def firstLate (s : State) (c : Cmd) (by_ n : Nat) : Bool :=
  let out := memberCmds s c
  let own := ownDestages s c
  let due (m : MCmd) : Nat := if c.op == .read then max by_ ((c.memAt.map fun t => t + n).getD 0) else by_
  let second (m : MCmd) : Bool := m.isWrite && own.any fun d => writesOf d.id m && d.readEnd.isSome
  c.handed.isNone || unbegun s c || out.any (fun m => !second m && (m.waits || decide (due m < m.at_))) || own.any (fun d => d.readEnd.isNone && readsLeft s d)

/-- R63 row 4: `n` ticks after the last of its reads a destage that the command waits on has not handed its writes to the
members. -/
def secondLate (s : State) (c : Cmd) (n : Nat) : Bool :=
  (ownDestages s c).any fun d => d.readEnd.any fun r =>
    decide (r + n ≤ s.clk.tick) && !(s.mcmds.any fun m => !m.isWrite && destageOf d.id m) &&
      (d.reading || s.mcmds.any fun m => writesOf d.id m && (m.waits || decide (r + n < m.at_)))

/-- R63: the rows of the table whose deadline has passed at the end of the current tick without being met. -/
def rowsMissed (s : State) (c : Cmd) : List Nat :=
  match longerFor s c with
  | none => []
  | some e =>
    let t := s.clk.tick
    let n := e + extOf s c
    let by3 := c.base.getD c.bell + 3 + n
    let rows := [(1, decide (c.bell + 1 + n < c.at_)), (2, decide (c.bell + 2 + n ≤ t) && c.adm.all fun a => decide (c.bell + 2 + n < a)),
      (3, c.mem && decide (by3 ≤ t) && firstLate s c by3 (3 + n)), (4, c.mem && secondLate s c (3 + n)),
      (5, !c.mem && decide (c.bell + 6 + n ≤ t)), (6, c.mem && c.lastMem.any fun m => decide (m + 3 + n ≤ t))]
    (rows.filter fun r => r.2 && !c.missed.contains r.1).map (·.1)

/-- R63: the commands that have deadlines: urgent READ and WRITE. -/
def hasDeadlines (c : Cmd) : Bool := c.cls == 0 && (c.op == .read || c.op == .write)

/-- R63 to R65: the entries of a die that intake fetched after their deadline in the tick that ends; a slow read of the entry makes the
miss external. -/
def lateEntries (slow : List CmdRef) (d : Nat) (s : State) : State :=
  let l := (s.arbOf d).late
  let s1 := l.foldl (fun s (ref, tag, vol, ext) =>
    countMiss d (ext || slow.contains ref) { ring := ref.die * 512 + ref.ring, item := tag, vol := vol, cause := 1 } s) s
  { s1 with arb := s1.arb.modify d fun a => { a with late := [] } }

/-- R48, R63: the deadline of its completion record that the completion of a forwarded command misses on its way. -/
def backMissed (s : State) (b : Back) : Option Nat :=
  let c := b.cmd
  if !hasDeadlines c then none
  else (longerFor s c).bind fun e =>
    let n := e + extOf s c
    if c.mem then (if !c.missed.contains 6 && c.lastMem.any fun m => decide (m + 3 + n ≤ s.clk.tick) then some 6 else none)
    else if !c.missed.contains 5 && decide (c.bell + 6 + n ≤ s.clk.tick) then some 5 else none

/-- R48, R63, R64: such a miss counted on the home die. -/
def lateBack (s : State) (r : Ring) (b : Back) : State :=
  match backMissed s b with
  | none => s
  | some row =>
    let c := b.cmd
    let s1 := countMiss ((homeOf s c.entry.vol.toNat).getD c.ref.die) c.outside
      { ring := r.id, item := c.entry.tag.toNat, vol := c.entry.vol.toNat, cause := row } s
    let mark (y : Back) : Back := { y with cmd := { y.cmd with late := true, missed := row :: y.cmd.missed } }
    s1.updRing r.die r.idx fun x => { x with backs := updIf (fun y => y.cmd.ref == c.ref) mark x.backs }

/-- R48, R63: the completions on their way at the end of a tick. -/
def lateBacks (s : State) : State := s.rings.foldl (fun s r => r.backs.foldl (fun s b => lateBack s r b) s) s

/-- R54: the urgent entries that a die's intake stage holds at the end of a tick because those before them have taken the reservation:
the rings that have them. -/
def heldHeads (s : State) (d : Nat) : List Ring :=
  if (s.die? d).any fun x => (urgentMax x).any fun n => decide (n ≤ (s.arbOf d).taken.1) then
    s.rings.filter fun r => r.die == d && classOfRing s r == 0 && surelyReady s r
  else []

/-- R54, R449: their urgent overrun tick, where an item held at another stage has not counted it in the same tick. -/
def countHeads (s : State) : State :=
  if !dispatching s then s
  else
    let dies := s.aliveDies.filter fun d => !(heldHeads s d).isEmpty
    let tenants := ((s.aliveDies.flatMap (heldHeads s)).filterMap s.ringTenant).eraseDups
    let held := heldUrgent s s.grants
    countOverruns (tenants.filter fun t => !(tenantsOf s held).contains t) (dies.filter fun d => !(diesOf held).contains d) s

/-- R60: a tick of a power-state change makes the bounds of the entries that a ring still holds longer. -/
def noteHead (s : State) (r : Ring) : Ring :=
  if powerGap s then { r with exts := r.exts.map (· + 1) } else r

/-- R63 to R65: the safety core checks every deadline at the end of a tick. -/
def deadlines (slow : List CmdRef) (s : State) : State :=
  if !s.running then s
  else
    let s0 := s.dieIdx.foldl (fun s d => lateEntries slow d s) (lateBacks (countHeads s))
    let s1 := noteStalls { s0 with cmds := s0.cmds.map fun c => noteStep s0 (noteGaps s0 slow (noteMembers s0 c)),
                                   pools := s0.pools.map (raiseStep s0), rings := s0.rings.map (noteHead s0) }
    (s1.cmds.filter hasDeadlines).foldl (fun s c =>
      (rowsMissed s1 c).foldl (fun s r => missRow ((homeOf s c.entry.vol.toNat).getD c.ref.die) r c.ref s) s) s1

end Sys2Proof.Machine
end

