-- ==== Sys2Proof/Machine/Tick.lean ====
section
/-! DEFINITION. A tick (R47, R48): what takes effect at its boundary, what its frame does, its guard period. -/

namespace Sys2Proof.Machine

/-! ### The boundary -/

/-- R428: operating time runs once a power-up has resumed it. -/
def timeRuns (s : State) : Bool := !(s.run.fromPower && decide (s.run.phase ≤ 2))

/-- R328, R329: an ACTIVE link sends idle flits when it has nothing to send, which bring acknowledgements and credits to the other end.
One a tick stands for them: DESIGN CHOICE, R329 gives no number (assumption 43). -/
def sendIdles (s : State) : State :=
  if !s.on || s.run.halted then s
  else
    let due := s.aliveDies.filter fun d => (s.die? d).any fun x => x.link.queue.isEmpty && x.link.state == .active
    due.foldl (fun s d => sendIdle d s) s

/-- R349: heartbeats are sent in every power state, not in HALTED, and no later than tick t + 2 of a power failure. -/
def beats (s : State) : Bool := s.ready && !s.run.halted && s.run.pfail.all fun t => decide (s.clk.tick ≤ t + 2)

/-- R173, R333: what the dies send at the end of a tick: ACKs for the segments applied in it, then the journal entries programmed in it,
then units that wait for their mirror copy (R348) and configuration changes (R366). In HALTED and after tick t + 2 of a power failure they send nothing. -/
def sendMirrors (s : State) : State :=
  if !beats s then s
  else
    let s1 := s.aliveDies.foldl (fun s d => mirrorShadows d (mirrorJournal d (sendAcks d (pumpSystem d s)))) s
    if s.run.pfail.isSome then s1 else tellPartner (sendCopies (shadowCopies (copyRetiring (sendUnits s1))))

/-- R47, R73, R105, R110, R169, R331, R426, R514: the messages of the tick that ends are sent; the next one begins, with the pulse on
TICKSYNC_OUT and the batch of the entries that wait. -/
def nextTick (s : State) : State :=
  let clk := { s.clk with tick := s.clk.tick + 1, tickLen := 6400, optime := if timeRuns s then min top48 (s.clk.optime + 1) else s.clk.optime }
  let reg := if s.reg.ack then { s.reg with step := 0, code := 0, die := 0, time := 0, ack := false } else s.reg
  let quiet (x : DieSt) : DieSt :=
    { x with link := { x.link with naks := 0 }, jr := { x.jr.batchOf (s.clk.tick + 1) with fresh := [] } }
  let rings := if s.run.halted then s.rings.map haltRing else s.rings
  let s1 := (sendMessages (sendIdles (sendMirrors (drainRegions s)))).emit .ticksync
  { s1 with clk := clk, reg := reg, rings := rings, dies := s1.dies.map quiet }

/-- R408: EVT_REMAP writes take effect. -/
def applyRemaps (s : State) : State :=
  let one (e : EvtSt) : EvtSt := { e with remap := e.remapNext }
  { s with dies := s.dies.map fun x => { x with evt := one x.evt } }

/-- R52, R55, R56, R70: new admission settings take effect; a change of a reservation converts the urgent counts again. -/
def applyFeats (s : State) : State :=
  match s.feat.next with
  | some f =>
    let s1 := { s with feat := { s.feat with now := f, next := none } }
    if f.resv = s.feat.now.resv then s1 else recount s1
  | none => s

/-- R440: new classes and caps take effect, with full buckets (assumption 11). -/
def applyQos (s : State) : State :=
  let changed := (s.tenants.filter fun t => t.qosNext.isSome).map (·.num)
  let one (t : Tenant) : Tenant := { t with qos := t.qosNext.getD t.qos, qosNext := none }
  { s with tenants := s.tenants.map one, buckets := s.buckets.filter fun b => !changed.contains b.tenant }

/-- R441: each bucket gains its die's rate, up to its burst. -/
def refill (s : State) : State :=
  let one (b : Bucket) : Bucket := { b with ops := min b.opsBurst (b.ops + b.opsRate), bytes := min b.byteBurst (b.bytes + b.byteRate) }
  { s with buckets := s.buckets.map one }

/-- R271, R309: in the tick after its batch, or once a firmware activation no longer holds it, a mitre step releases its lock and
unpins its copy. -/
def releaseSteps (s : State) : State :=
  let due (p : Pool) : Bool := p.lock.any fun k => k.done && decide (k.since + k.hold < s.clk.tick)
  let freed := (s.pools.filter due).map (·.num)
  if freed.isEmpty then s
  else { s with pools := updIf due (fun p => { p with lock := none }) s.pools,
                cache := updIf (fun b => (s.vol? b.vol).any fun v => freed.contains v.pool) (fun b => { b with pinned := false }) s.cache }

/-- What takes effect at a tick boundary. -/
def boundaryWork (s : State) : State := flipBack (endShedding (releaseSteps (refill (applyQos (applyFeats (applyRemaps (nextTick s).takeFeats))))))

/-! ### The frame -/

/-- R179, R219: the namespaces that appeared while power failed are looked at. -/
def lookAtNew (s : State) : State := s.run.appeared.foldl (fun s i => memberAppears i s) { s with run := { s.run with appeared := [] } }

/-- R53 to R56, R63, R64, R66, R97, R98, R108: intake and admission of a tick, and its stage overruns. -/
def frameWork (t : TickIn) (s : State) : State :=
  let s := if s.drives then releaseWrites (lookAtNew s) else s
  let s1 := t.fetched.foldl (fun s b => badFetch b s) (intakeRings t.costs s)
  if !s1.running then s1
  else
    let os := overrunsOf s1 t.overruns t.items
    let s2 := os.foldl (fun s o => missStage o s) (admission os t.items s1)
    let trim (f : FrameSt) : FrameSt := { f with intMiss := inWindow s2.clk.tick 250000 f.intMiss, extMiss := inWindow s2.clk.tick 250000 f.extMiss }
    { s2 with dies := s2.dies.map fun x => { x with frame := trim x.frame } }

/-! ### Heartbeats and holds (R349, R354, R358, R359, R370, R372) -/

/-- R349 AUX.PAIR. -/
def pairAux (s : State) : Nat :=
  match s.pair.state with
  | .paired => 0
  | .separated => 1
  | _ => 2

/-- R354: HOLD_OUT. -/
def holdOut (s : State) : Bool := s.dies.any (·.hold) && !s.pair.yielded && s.pair.armed

/-- R359: the dies that heard the partner since the last sample. -/
def heardOn (s : State) : List Nat := s.aliveDies.filter fun d => (hbSlot s d d).any fun h => h.word != h.sample

/-- R359: one sample of a slot. -/
def sampleSlot (h : HbSlot) : HbSlot := { h with missed := if h.word = h.sample then h.missed + 1 else 0, sample := h.word }

/-- R383 LASTHB and HBMISS, R372: what the partner's heartbeat of a tick tells. -/
def notePartner (s : State) : State :=
  if !s.id.inPair then s
  else if (heardOn s).isEmpty then { s with pair := { s.pair with okTicks := if s.pair.hbOk then s.pair.okTicks + 1 else 0 } }
  else
    let single := s.pair.hbOk && s.aliveDies.all fun d => (hbSlot s d d).any fun h => decide (1 ≤ h.missed)
    { s with pair := { s.pair with hbOk := true, lostAt := none, lastHb := s.clk.tick % (top48 + 1), okTicks := s.pair.okTicks + 1,
                                   yieldSeen := s.pair.yieldSeen && s.pair.state != .survivor,
                                   hbMiss := if single then satAdd top32 s.pair.hbMiss 1 else s.pair.hbMiss } }

/-- R358, R359: the safety cores sample every slot. -/
def sampleBeats (s : State) : State :=
  let s1 := notePartner s
  { s1 with dies := s1.dies.map fun x => if x.alive then { x with rfl := { x.rfl with hb := x.rfl.hb.map sampleSlot } } else x }

/-- R359, R361: a die that is heard again while its hold is high is not lost any more, and the kerf of its pools is over: DESIGN CHOICE,
R361 only makes the shadow wait (assumption 27). -/
def heardAgain (s : State) : State :=
  let hears (d e : Nat) : Bool := e != d && (hbSlot s e d).any fun h => h.missed == 0
  let back := s.pair.lostOwn.filter fun d => (s.die? d).any (fun x => x.alive && x.hold) && s.aliveDies.any (hears d)
  back.foldl (fun s d =>
    (poolsOn s d).foldl (fun s n => endReason n s)
      (kerfOver (poolsOn s d) { s with pair := { s.pair with lostOwn := s.pair.lostOwn.filter (· != d) } })) s

/-- R349: the AUX word of this package. -/
def auxNow (s : State) : W32 := BitVec.ofNat 32 (2 * pairAux s + bit (holdOut s))

/-- R33, R321, R349, R358: a die's heartbeat in the regions of the other dies of the package that a path over the fabric leads to, each
under a MSGNO of its own. -/
def beatOwn (d : Nat) (s : State) : State :=
  let a := auxNow s
  let put (h : HbSlot) : HbSlot := { h with word := h.word + 1, aux := a }
  let hears (x : DieSt) (e : Nat) : Bool := e != d && x.alive && (fabricHops s d e).isSome
  let n := (s.dies.zipIdx.filter fun x => hears x.1 x.2).length
  { s with dies := s.dies.zipIdx.map fun (x, e) =>
      if e = d then { x with rfl := { x.rfl with msgno := x.rfl.msgno + BitVec.ofNat 32 n } }
      else if hears x e then { x with rfl := { x.rfl with hb := x.rfl.hb.modify d put } } else x }

/-- R349: a die's heartbeat to the partner's die of the same index. -/
def beatPartner (d : Nat) (s : State) : State :=
  if s.id.inPair then sendSystem d s.partner d 4 0xFFFE (16 * d) (auxNow s) true (le 8 1) s else s

/-- R349: the heartbeats of a tick. -/
def sendBeats (silent : List Nat) (s : State) : State :=
  (s.aliveDies.filter fun d => !silent.contains d).foldl (fun s d => beatPartner d (beatOwn d s)) s

/-- R354: the safety cores refresh the die holds. -/
def refreshHolds (silent : List Nat) (s : State) : State :=
  let one (x : DieSt × Nat) : DieSt :=
    if !x.1.hold then x.1
    else if x.1.alive && !silent.contains x.2 then { x.1 with unrefreshed := 0 } else { x.1 with unrefreshed := x.1.unrefreshed + 1 }
  { s with dies := s.dies.zipIdx.map one }

/-- R349, R370: AUX of the partner, from a slot that its latest heartbeats have reached. -/
def partnerAux (s : State) : W32 :=
  let l := s.aliveDies.filterMap fun d => hbSlot s d d
  (((l.find? fun h => h.missed == 0).orElse fun _ => l.head?).map (·.aux)).getD 0

/-- R370: AUX.HOLD of the partner. -/
def partnerHold (s : State) : Bool := (partnerAux s).getLsbD 0

/-- R370: HOLD_IN against AUX.HOLD. -/
def checkWire (holdIn : Bool) (s : State) : State :=
  let s1 := { s with pair := { s.pair with holdIn := holdIn } }
  if !s.id.inPair || !s.pair.hbOk then { s1 with pair := { s1.pair with wireDiff := 0, wireAgree := 0 } }
  else if holdIn == partnerHold s then { s1 with pair := { s1.pair with wireDiff := 0, wireAgree := s1.pair.wireAgree + 1 } }
  else
    let n := s.pair.wireDiff + 1
    let s2 := { s1 with pair := { s1.pair with wireDiff := n, wireAgree := 0, wireFault := s1.pair.wireFault || decide (2 ≤ n) } }
    if 2 ≤ n ∧ !s.pair.wireFault then raisePkg 0x5041 {} s2 else s2

/-- R372 step 1: a rejoin record not acknowledged 8 ticks before the rejoin tick is abandoned. -/
def dropRejoin (s : State) : State :=
  match s.pair.rejoinAt, s.pair.rejoinMsg with
  | some t, some _ => if t ≤ s.clk.tick + 8 then { s with pair := { s.pair with rejoinAt := none, rejoinMsg := none } } else s
  | _, _ => s

/-- R349, R380: the partner has separated while the heartbeat is OK: both packages are separated. AUX.PAIR may show the old state for some
ticks after the pair has formed: eight are left for that, DESIGN CHOICE (assumption 27). -/
def followPartner (s : State) : State :=
  if s.id.inPair && s.pair.state == .paired && s.pair.hbOk && !(heardOn s).isEmpty && decide (s.pair.since + 8 ≤ s.clk.tick) &&
      bits (partnerAux s).toNat 2 1 == 1 then separate s
  else s

/-- The guard period's work for the pair. -/
def guardPair (t : TickIn) (s : State) : State :=
  if !beats s then { s with pair := { s.pair with holdIn := t.holdIn } }
  else dropRejoin (checkWire t.holdIn (refreshHolds t.silent (heardAgain (sampleBeats (followPartner (sendBeats t.silent s))))))

/-! ### Self-tests (R360, R396) -/

/-- R503: one more fault for the SELF TESTs that wait for a pass. -/
def noteFault (test d : Nat) (s : State) : State :=
  let add (c : Cmd) : Cmd := { c with aux := c.aux + 1 }
  (s.tests.filter fun x => x.test == test && x.die == d).foldl (fun s x => s.updCmd x.cmd add) s

/-- R360: a spare fails a slice. -/
def spareFails (d i : Nat) (s : State) : State :=
  if !checksRun s d || !((s.die? d).any fun x => x.hw.cores[i]? == some 9) then s
  else noteFault 1 d (coreFail d i (countFault d 16 s))

/-- R396: the reaction to a checker that does not report, by what it guards. -/
def checkerReact (d : Nat) (u : Checked) (s : State) : State :=
  match u with
  | .core i => coreFail d i s
  | .gf i => gfOut d i s
  | .aes i => aesOut d i s
  | .mover i => moverOut d i s
  | .driveCrc p => driveOut d p s
  | .hostCrc | .sramEcc | .ddrEcc _ | .nvVerify => dieYield d 0x06 s
  | .fabric i => fabricDown d i s
  | .reflectLane i => retireLane d (40 + i % 16) true s

/-- R413 UNIT: what a checker guards. -/
def unitOf : Checked → Nat
  | .core i => i
  | .gf i => 0x20 + i
  | .aes i => 0x28 + i
  | .mover i => 0x30 + i
  | .hostCrc => 0x40
  | .driveCrc _ => 0x41
  | .reflectLane _ => 0x42
  | .fabric i => 0x48 + i
  | .ddrEcc ch => 0x50 + ch
  | .nvVerify => 0x60
  | .sramEcc => 0x61

/-- R396: a checker fails its self-test. -/
def checkerFails (d : Nat) (u : Checked) (s : State) : State :=
  if !checksRun s d then s else checkerReact d u (noteFault 2 d (raise d 0x0120 { unit := unitOf u } (countFault d 17 s)))

/-- R360, R396, R503: every 2^18 ticks the passes over the spares and the checkers are complete. -/
def passesDone (s : State) : State :=
  if s.clk.tick % 2 ^ 18 ≠ 0 then s
  else
    let now := s.clk.tick % (top48 + 1)
    (s.aliveDies.filter (checksRun s)).foldl (fun s d =>
      finishTest 2 d none 0 (finishTest 1 d none 0 (s.updHw d fun h => { h with lbistDone := now, chkDone := now }))) s

/-- The self-tests of a tick, and the SRAM and DDR errors that its accesses corrected. -/
def selfTests (t : TickIn) (s : State) : State :=
  let s1 := t.lbistFail.foldl (fun s x => spareFails x.1 x.2 s) (ddrCorrected t.ddr (sramCorrected t.corrected s))
  passesDone (t.checkFail.foldl (fun s x => checkerFails x.1 x.2 s) s1)

/-! ### Power, recorder, time limits -/

/-- R459, R460: temperatures, package power and the cap. -/
def powerWork (t : TickIn) (s : State) : State :=
  if s.on && decide (2 < s.run.phase) then enforceCap t.l0p (samplePower t.power (sampleTemps t.temps s)) else s

/-- R417, R431: records are programmed, at most 32 a die; what is raised from PFAIL_N on is programmed as it is raised (R407). -/
def recordWork (t : TickIn) (s : State) : State :=
  let s1 := t.recFail.foldl (fun s x => if checksRun s x.1 then recorderFailed x.1 x.2.1 x.2.2 s else s) s
  if s1.log.frozen || !timeRuns s1 then s1 else s1.dieIdx.foldl (fun s d => programSome 32 d s) s1

/-- R485: a protected-region size that has not fitted within 250,000 ticks is given up. -/
def giveUpProt (s : State) : State :=
  let late (w : CmdRef × Nat × Nat) : Bool := w.2.1 == 4 && (s.cmd? w.1).any fun c => decide (c.at_ + 250000 ≤ s.clk.tick)
  let dead := s.feat.waiters.filter late
  if dead.isEmpty || !s.running then s
  else
    let ds := dead.flatMap fun w => selDies s w.2.2
    let f := { s.feat with waiters := s.feat.waiters.filter fun w => !late w, protNext := s.feat.protNext.filter fun e => !ds.contains e.1 }
    dead.foldl (fun s w => busy w.1 s) { s with feat := f }

/-- R311: the partner's power state, as this package knows it; how it is told R311 does not say (DESIGN CHOICE, assumption 43). -/
def notePower (p3 : Bool) (s : State) : State := { s with pair := { s.pair with partnerP3 := p3 && s.id.inPair } }

/-- R294: ticks in P2 and P3 do not count towards the age of dirty data. -/
def holdAges (s : State) : State :=
  if s.pw.pstate < 2 then s else { s with cache := updIf (·.dirty) (fun b => { b with since := b.since + 1 }) s.cache }

/-- R162: pressure on the protected regions. -/
def pressureAll (s : State) : State := if s.running then s.aliveDies.foldl (fun s d => pressure d s) s else s

/-- TICK (R47, R48): the guard period of the tick that ends checks the deadlines (R63) and gives out slots (R229); then the
next tick. -/
def tick (t : TickIn) (s : State) : State :=
  if !s.run.powered then s
  else
    let s1 := frameWork t (holdAges (notePower t.partnerP3 (boundaryWork (lastHolds (settleFailures (deadlines t.slowReads s))))))
    let s2 := selfTests t (guardPair t (countCut (ticksync t.tsOffset s1)))
    tripTick (recordWork t (giveUpProt (pressureAll (powerWork t s2))))

/-- TICK (R47). -/
def execTick (t : TickIn) (s : State) : Answer := .next (settle (tick t s))

end Sys2Proof.Machine
end

