-- ==== Sys2Proof/Machine/Registers.lean ====
section
/-! DEFINITION. What the registers of a function's BAR0 read (R409, R433, R454, R505 to R524). A read changes nothing (R12). -/

namespace Sys2Proof.Machine

/-- Fields at their lowest bits, as one 64-bit value. -/
def pack (l : List (Nat × Nat)) : W64 := BitVec.ofNat 64 ((l.map fun x => x.2 * 2 ^ x.1).sum)

/-- The 8 bytes at an offset of a run of bytes, as a register. -/
def word8 (b : Bytes) (off : Nat) : W64 := BitVec.ofNat 64 (fieldAt b off 8)

/-- R510: the code of the part. -/
def partCode : Part → Nat
  | .zle4820 => 0x4820
  | .zle4840 => 0x4840
  | .zle4880 => 0x4880

/-- R510: the IDENT block. -/
def readIdent (s : State) (port fn off : Nat) : W64 :=
  if off = 0x00 then
    pack [(48, 1), (32, partCode s.id.part), (16, s.id.part.dies), (8, s.id.lead), (6, s.id.pkgid), (5, bit s.ready), (0, port)]
  else if off = 0x08 then
    pack [(48, vectorsOf s port fn), (32, if s.isPf port fn then 512 else 32), (6, bit !(s.isPf port fn)), (0, fn)]
  else if off = 0x10 then pack [(32, (s.fw.pendImg.map (·.version.toNat)).getD 0), (0, s.id.runVer.toNat)]
  else if off = 0x18 then pack [(8, maskOf (s.dieIdx.filter fun d => !s.alive d)), (0, maskOf s.aliveDies)]
  else if off = 0x20 ∨ off = 0x28 ∨ off = 0x30 then word8 (padTo 20 s.id.serial) (off - 0x20)
  else 0

/-- R511 GCTL_STATUS. -/
def readStatus (s : State) : W64 :=
  pack [(9, pairCode s), (8, bit s.fw.pend.isSome), (7, bit s.fw.active), (6, bit s.log.frozen), (5, bit !s.run.faultN.isEmpty),
    (4, bit s.run.halted), (3, bit s.ready)]

/-- R515 GCTL_HALT0. -/
def readHalt0 (s : State) : W64 :=
  pack [(63, bit s.run.halted), (48, s.reg.mcause), (40, s.reg.ycause), (32, s.reg.owner), (16, s.reg.ringId), (0, s.reg.index)]

/-- R512: a die's temperature byte. -/
def tempByte (s : State) (d : Nat) : Nat := match s.die? d with
  | some x => if x.alive then x.hw.temp.toNat else 0x80
  | none => 0x80

/-- R512 GCTL_POWER. -/
def readPower (s : State) : W64 :=
  pack [(48, min top16 (powerAvg s)), (32, if s.pw.pstate = 1 then s.pw.cap else 0), (16, s.pw.icap),
    (8, bit (s.pw.chg.any fun g => g.started.isSome)), (4, s.pw.opstate), (0, s.pw.pstate)]

/-- R511 to R515: the GCTL block. -/
def readGctl (s : State) (off : Nat) : W64 :=
  if off = 0x00 then readStatus s
  else if off = 0x10 then pack [(16, s.reg.code), (8, s.reg.die), (0, s.reg.step)]
  else if off = 0x18 then pack [(0, s.reg.time)]
  else if off = 0x20 then readHalt0 s
  else if off = 0x28 then s.reg.halt1
  else if off = 0x30 then s.reg.halt2
  else if off = 0x38 then pack [(0, s.reg.haltTime)]
  else if off = 0x40 then readPower s
  else if off = 0x48 then pack ((List.range 8).map fun d => (8 * d, tempByte s d))
  else 0

/-- R516 ROLE. -/
def roleNow (s : State) : Nat := if !s.id.inPair then 0 else if s.id.pkgid = 0 then 1 else 2

/-- R516, R517: the TICK block. -/
def readTick (s : State) (x : DieSt) (off : Nat) : W64 :=
  let f := x.frame
  let r (i : Nat) : Nat := (s.feat.now.resv[i]?).getD 0
  let w (i : Nat) : Nat := (s.feat.now.weights[i]?).getD 0
  if off = 0x00 then pack [(0, s.clk.tick)]
  else if off = 0x08 then pack [(0, s.clk.optime)]
  else if off = 0x10 then
    pack [(32, s.clk.syncOffset.toNat), (16, s.clk.realigns), (3, bit s.clk.syncLost), (2, bit s.clk.aligned), (0, roleNow s)]
  else if off = 0x18 then pack [(32, f.extMiss.length), (0, f.intMiss.length)]
  else if off = 0x20 then pack [(0, f.intTotal)]
  else if off = 0x28 then pack [(0, f.extTotal)]
  else if off = 0x30 then pack [(63, bit f.shed), (0, f.shedTick)]
  else if off = 0x38 then pack [(0, f.overruns)]
  else if off = 0x40 then pack ((List.range 8).map fun i => (8 * i, r i))
  else if off = 0x48 then pack ((List.range 5).map fun i => (8 * i, r (8 + i)))
  else if off = 0x50 then pack [(32, s.feat.now.floor), (24, s.feat.now.share), (16, w 2), (8, w 1), (0, w 0)]
  else 0

/-- R409 EVT_ROUTE. -/
def readRoute (r : Route) : W64 := pack [(32, r.count), (31, bit r.msien), (30, bit r.alerten), (16, r.fn), (0, r.vector)]

/-- R408, R409: an EVT_REMAP register as written last. -/
def readRemap (e : EvtSt) (i : Nat) : Nat := ((e.remapNext.find? fun x => x.1 == i).map (·.2)).getD 0

/-- R409: the EVT block. -/
def readEvt (e : EvtSt) (off : Nat) : W64 :=
  if off < 0x800 then readRoute (routeOf e (off / 8))
  else if off < 0x820 then pack (((List.range 64).filter fun j => e.pend.contains (64 * ((off - 0x800) / 8) + j)).map fun j => (j, 1))
  else if 0x900 ≤ off ∧ off < 0xAC0 then
    let i := (off - 0x900) / 4
    pack [(32, readRemap e (i + 1)), (0, readRemap e i)]
  else 0

/-- R433: the LOG block of die d. -/
def readLog (s : State) (d : Nat) (q : RecorderSt) (off : Nat) : W64 :=
  if off = 0x00 then
    pack [(48, q.slots.length), (32, q.holding.length), (7, bit q.clearPending.isSome), (6, bit q.failed),
      (5, bit ((q.slots[16383]?).any fun r => r.code == 0x8002)), (4, bit s.log.frozen), (3, bit (s.id.lead == d)), (0, d)]
  else if off = 0x08 then pack [(32, q.holdOvf), (0, q.dropped)]
  else if off = 0x10 then pack [(0, q.rseq)]
  else if off = 0x18 then pack [(8, q.fdrop), (0, q.faultArea.length)]
  else if 0x400 ≤ off ∧ off < 0x800 then
    match q.faultArea[(off - 0x400) / 64]? with
    | some r => word8 (recBytes r) ((off - 0x400) % 64)
    | none => 0
  else 0

/-- R358, R518 HBOK: the die's latest sample of a slot is good. -/
def slotOk (x : DieSt) (e : Nat) : Bool := (x.rfl.hb[e]?).any fun h => h.missed == 0

/-- R518 SAFE_STATUS. -/
def readSafe0 (s : State) (x : DieSt) : W64 :=
  pack [(48, maskOf (s.dieIdx.filter fun d => (s.die? d).any (·.hold))), (40, maskOf ((List.range 8).filter (slotOk x))),
    (15, bit (holdOut s)), (14, bit s.pair.holdIn), (13, bit s.pair.wireFault), (12, bit s.pair.hbOk), (11, bit s.pair.witnessHeld),
    (8, bit !s.run.faultN.isEmpty), (1, bit (s.run.faultN.contains 1)), (0, bit (s.run.faultN.contains 0))]

/-- R518: the SAFE block. -/
def readSafe (s : State) (x : DieSt) (off : Nat) : W64 :=
  if off = 0x00 then readSafe0 s x
  else if off = 0x08 then pack [(24, s.reg.yscope), (16, s.reg.ydie), (0, s.reg.yc)]
  else if off = 0x10 then pack [(0, s.reg.ytime)]
  else if off = 0x18 then pack [(32, s.pair.kerfs), (16, min top16 s.pair.longKerf), (0, min top16 s.pair.lastKerf)]
  else if off = 0x20 then pack [(0, x.hw.lbistDone)]
  else if off = 0x28 then pack [(0, x.hw.chkDone)]
  else if off = 0x30 then
    pack [(24, (x.hw.movers.filter id).length), (16, (x.hw.aes.filter id).length), (8, (x.hw.gf.filter id).length), (0, x.hw.spares.length)]
  else if 0x100 ≤ off ∧ off < 0x148 then
    let i := (off - 0x100) / 4
    pack [(32, (x.hw.dcount[i + 1]?).getD 0), (0, (x.hw.dcount[i]?).getD 0)]
  else 0

/-- R454: the METER block, on the lead die's port only. -/
def readMeter (s : State) (port off : Nat) : W64 :=
  let n := (s.meter.ring.map (·.2)).getD 1
  if port ≠ s.id.lead then 0
  else if off = 0x00 then
    pack [(32, s.meter.skipped), (17, bit s.meter.ring.isSome), (16, bit (decide (n ≤ s.meter.dhead))), (0, s.meter.dhead % n)]
  else if off = 0x08 then pack [(0, s.meter.head.toNat)]
  else 0

/-- R519: an XCH window. -/
def readXwin (w : XWin) (off : Nat) : W64 :=
  if off = 0x00 then pack [(32, w.arg.toNat), (24, w.seq.toNat), (8, w.sel.toNat), (0, w.query.toNat)]
  else if off = 0x08 then pack [(48, w.status.toNat), (32, w.data.length), (24, w.seq.toNat), (23, bit w.valid)]
  else if 0x100 ≤ off ∧ off < 0x200 then word8 w.data (off - 0x100)
  else 0

/-- R519: a window of a function, all 0 when it has never been written. -/
def xwinOf (s : State) (port fn w : Nat) : XWin := ((s.fn? port fn).bind fun f => f.xch.find? fun x => x.window == w).getD { window := w }

/-- R519: the XCH block of a function. -/
def readXch (s : State) (port fn off : Nat) : W64 :=
  if off / 0x400 < (if s.isPf port fn then 4 else 2) then readXwin (xwinOf s port fn (off / 0x400)) (off % 0x400) else 0

/-- R92 STATE. -/
def RingState.code : RingState → Nat
  | .disabled => 0
  | .enabled => 1
  | .error => 2
  | .deleting => 3
  | .halted => 4

/-- R92 RSTATUS. -/
def readRstatus (s : State) (r : Ring) : W64 :=
  pack [(60, r.state.code), (58, r.cls), (57, bit r.notif), (56, bit r.ovf), (55, bit r.hold.isSome), (40, r.id), (34, r.fn),
    (17, if r.notif then r.notes else inflight s r), (16, bit (decide (r.size ≤ r.head))), (0, r.head % r.size)]

/-- R97 INVALIDATE. -/
def readInv (i : InvReg) : W64 :=
  pack [(32, i.dispatched.toNat), (24, i.seq.toNat), (23, bit i.valid), (22, bit i.err), (16, i.count.toNat), (0, i.start.toNat)]

/-- R77, R529: the ring that a function's window shows. -/
def shownRing (s : State) (w : Win) : Option Ring :=
  if s.isPf w.port w.fn then (if s.split w.port ∧ w.fn = 32 ∧ 256 ≤ w.window then none else s.ring? w.port (w.window + pfBase w.fn))
  else winRing s w

/-- R78, R92, R97, R523: a ring window; DOORBELL, whose fields are write-only, and the push window read 0 (R91, R93). -/
def readRing (s : State) (w : Win) (off : Nat) : W64 :=
  if w.window = 0 ∧ off = 0x20 then ((s.fn? w.port w.fn).map (·.setupBase)).getD 0
  else if w.window = 0 ∧ off = 0x28 then ((s.fn? w.port w.fn).map setupCfg).getD 0
  else match shownRing s w with
    | none => 0
    | some r => if off = 0x08 then readInv r.inv else if off = 0x10 then readRstatus s r else 0

/-- R524: one half of an MSI-X table entry. -/
def readMsix (s : State) (port fn v half : Nat) : W64 :=
  if vectorsOf s port fn ≤ v then 0
  else
    let m := ((s.fn? port fn).map fun f => msixOf f v).getD ⟨v, 0, 0, true⟩
    if half = 0 then m.addr else pack [(32, bit m.masked), (0, m.data.toNat)]

/-- R524: 64 pending bits. -/
def readPba (s : State) (port fn i : Nat) : W64 :=
  pack (((List.range 64).filter fun j => (s.fn? port fn).any fun f => f.pba.contains (64 * i + j)).map fun j => (j, 1))

/-- R505: BAR0 of a physical function. -/
def readPf (s : State) (port fn off : Nat) (x : DieSt) : W64 :=
  if off < 0x1000 then readIdent s port fn off
  else if off < 0x2000 then readGctl s (off - 0x1000)
  else if off < 0x3000 then readTick s x (off - 0x2000)
  else if off < 0x4000 then readEvt x.evt (off - 0x3000)
  else if off < 0x5000 then readLog s port x.recd (off - 0x4000)
  else if off < 0x6000 then readSafe s x (off - 0x5000)
  else if off < 0x7000 then readMeter s port (off - 0x6000)
  else if off < 0x8000 then readXch s port fn (off - 0x7000)
  else if 0x18000 ≤ off ∧ off < 0x18080 then readPba s port fn ((off - 0x18000) / 8)
  else 0

/-- R506: BAR0 of a virtual function. -/
def readVf (s : State) (port fn off : Nat) : W64 :=
  if off < 0x1000 then readIdent s port fn off
  else if off < 0x1800 then readXch s port fn (off - 0x1000)
  else if 0x3000 ≤ off ∧ off < 0x3008 then readPba s port fn 0
  else 0

/-- R505 to R507: the register at an 8-byte aligned BAR0 offset of a function; reserved ranges read 0. -/
def readReg (s : State) (port fn off : Nat) : W64 :=
  match s.die? port, vectorAt s port fn off, windowOf s port fn off with
  | none, _, _ => 0
  | some _, some (v, h), _ => readMsix s port fn v h
  | some _, none, some (w, o) => readRing s w o
  | some x, none, none => if s.isPf port fn then readPf s port fn off x else readVf s port fn off

end Sys2Proof.Machine
end

