-- ==== Sys2Proof/Machine/Xch.lean ====
section
/-! DEFINITION. The exchange windows of a function: queries answered without a ring (R508, R519 to R522). A query is
written and answered within its step (assumption 2); a consistent sample is taken of the state it meets. -/

namespace Sys2Proof.Machine

/-- R519: result windows of a function. -/
def xchWindows (s : State) (port fn : Nat) : Nat := if s.isPf port fn then 4 else 2

/-- R520: a query that reaches no object, or that the function may not issue. -/
abbrev XchResult := W16 × Bytes

/-- R520: a failed query returns no bytes. -/
def xchFail (status : W16) : XchResult := (status, [])

/-- R520 query 01h: IDENTIFY CNS 00h. -/
def xchIdentity (s : State) (x : XchReq) : XchResult :=
  if x.sel ≠ 0 ∨ x.arg ≠ 0 then xchFail 0x0103 else (0, (identity s x.port).take 256)

/-- R520 query 02h: POOL STATUS. -/
def xchPool (s : State) (x : XchReq) : XchResult :=
  match s.pool? x.sel.toNat with
  | some p => if x.arg = 0 ∨ x.arg = 256 then (0, slice (poolStatusBytes s p) x.arg.toNat 256) else xchFail 0x0103
  | none => xchFail 0x0103

/-- R520 query 03h: MEMBER STATUS, whose FIRST is 16 bits wide. -/
def xchMembers (s : State) (x : XchReq) : XchResult :=
  match s.pool? x.sel.toNat with
  | some p => if x.arg.toNat < 65536 then (0, ((memberEntries s p x.arg.toNat).take 4).flatten) else xchFail 0x0103
  | none => xchFail 0x0103

/-- R520 query 04h: HEALTH REPORT. -/
def xchHealth (s : State) (x : XchReq) : XchResult :=
  if x.sel ≠ 0 ∨ x.arg.toNat % 256 ≠ 0 ∨ 4096 ≤ x.arg.toNat then xchFail 0x0103
  else (0, slice (healthBytes s s.feat.healthSeq) x.arg.toNat 256)

/-- R520 query 05h: LOG READ without its header. -/
def xchLog (s : State) (x : XchReq) : XchResult :=
  if x.sel ≠ 0 then xchFail 0x0103
  else if s.log.indexing then xchFail 0x0402
  else (0, (((combined s).drop x.arg.toNat).take 4).flatMap recBytes)

/-- R520 query 06h: METER READ. -/
def xchMeter (s : State) (x : XchReq) : XchResult :=
  if !s.isPf x.port x.fn ∧ ((s.fn? x.port x.fn).bind (·.tenant)) ≠ some x.sel.toNat then xchFail 0x0302
  else if x.arg ≠ 0 then xchFail 0x0103
  else match s.tenant? x.sel.toNat with
    | some t => (0, meterRecord false 2 s.id.pkgid t.num 0 s.clk.optime 0 0 t.meters)
    | none => xchFail 0x0103

/-- R520: the answer to a query, by its code; a virtual function may issue 01h and 06h only. -/
def xchAnswer (q : Nat) (x : XchReq) (s : State) : XchResult :=
  if !s.isPf x.port x.fn ∧ 2 ≤ q ∧ q ≤ 5 then xchFail 0x0101
  else if q = 1 then xchIdentity s x
  else if q = 2 then xchPool s x
  else if q = 3 then xchMembers s x
  else if q = 4 then xchHealth s x
  else if q = 5 then xchLog s x
  else if q = 6 then xchMeter s x
  else xchFail 0x0103

/-- R519, R521: the window after the query: the request as written, the answer, VALID. -/
def xchWindow (q : Nat) (x : XchReq) (r : XchResult) : XWin :=
  { window := x.window, arg := x.arg, seq := x.seq, sel := x.sel, query := BitVec.ofNat 8 q, status := r.1, valid := true,
    data := r.2 }

/-- R519: replaces a window of a function. -/
def putXwin (w : XWin) (f : FnSt) : FnSt := { f with xch := w :: f.xch.filter fun v => v.window != w.window }

/-- R508, R521: a whole write to XCH_REQ of an existing window, acted on in HALTED too. -/
def xchWrite (q : Nat) (x : XchReq) (s : State) : State :=
  if actsSome s x.port && decide (x.window < xchWindows s x.port x.fn) then
    s.updFn x.port x.fn (putXwin (xchWindow q x (xchAnswer q x s)))
  else s

/-- XCH IDENTIFY (R520). -/
def execXchIdentify (x : XchReq) (s : State) : Answer := .next (xchWrite 1 x s)

/-- XCH POOL STATUS (R520). -/
def execXchPoolStatus (x : XchReq) (s : State) : Answer := .next (xchWrite 2 x s)

/-- XCH MEMBER STATUS (R520). -/
def execXchMemberStatus (x : XchReq) (s : State) : Answer := .next (xchWrite 3 x s)

/-- XCH HEALTH REPORT (R520). -/
def execXchHealthReport (x : XchReq) (s : State) : Answer := .next (xchWrite 4 x s)

/-- XCH LOG READ (R520). -/
def execXchLogRead (x : XchReq) (s : State) : Answer := .next (xchWrite 5 x s)

/-- XCH METER READ (R520). -/
def execXchMeterRead (x : XchReq) (s : State) : Answer := .next (xchWrite 6 x s)

/-- R505, R506, R519: the window whose XCH_REQ is at a BAR0 offset. -/
def xchAt (s : State) (port fn off : Nat) : Option Nat :=
  let base := if s.isPf port fn then 0x7000 else 0x1000
  if base ≤ off ∧ off < base + 0x400 * xchWindows s port fn ∧ (off - base) % 0x400 = 0 then some ((off - base) / 0x400) else none

/-- REGISTER WRITE (R11, R507, R508): a write to a register without a command of its own. XCH_REQ takes only a whole,
64-bit write, whatever its QUERY. -/
def execRegisterWrite (port fn off : Nat) (a : Acc) (s : State) : Answer :=
  match xchAt s port fn off with
  | some w =>
    .next (if a.width = 64 then
      xchWrite (a.field 7 0) ⟨port, fn, w, BitVec.ofNat 8 (a.field 31 24), BitVec.ofNat 16 (a.field 23 8), BitVec.ofNat 32 (a.field 63 32)⟩ s
    else s)
  | none => .next (plainWrite port fn off a s)

end Sys2Proof.Machine
end

