-- ==== Sys2Proof/Machine/Sideband.lean ====
section
/-! DEFINITION. The management sideband: MCTP over SMBus (R411, R542 to R544). -/

namespace Sys2Proof.Machine

/-- R542: the device acknowledges its address from the end of phase 2 on, in every state. -/
def sidebandUp (s : State) : Bool := s.run.powered && decide (3 ≤ s.run.phase)

/-- R542: the 7-bit address. -/
def smbusAddress (s : State) : Byte := if s.id.pkgid = 0 then 0x3A else 0x3B

/-- R544: a dropped message or transaction. -/
def sidebandError (s : State) : State := raisePkg 0x7040 {} s

/-- R542, R544: a message is answered, dropped with 7040h, or not acknowledged. -/
def sideband (m : Mctp) (answer : State → State) (s : State) : State :=
  if !sidebandUp s then s else if m.good then answer s else sidebandError s

/-- R542: the answer to a control message: the bytes that the spec states, then those that DSP0236 gives (assumption 4). -/
def controlAnswer (known : Bytes) (s : State) : State :=
  let (n, s1) := s.fresh
  s1.emit (.mctp (known ++ Config.freeSideband n))

/-- SET ENDPOINT ID (R542). -/
def execSetEndpointId (m : Mctp) (eid : BitVec 8) (s : State) : Answer :=
  .next (sideband m (fun s => controlAnswer [] { s with eid := eid }) s)

/-- GET ENDPOINT ID (R542). -/
def execGetEndpointId (m : Mctp) (s : State) : Answer := .next (sideband m (fun s => controlAnswer [s.eid] s) s)

/-- GET MCTP VERSION SUPPORT (R542). -/
def execGetMctpVersionSupport (m : Mctp) (s : State) : Answer := .next (sideband m (fun s => controlAnswer [] s) s)

/-- GET MESSAGE TYPE SUPPORT (R542, R543): the vendor-defined type that the device serves. -/
def execGetMessageTypeSupport (m : Mctp) (s : State) : Answer := .next (sideband m (fun s => controlAnswer [0x7E] s) s)

/-- GET ENDPOINT UUID (R542). -/
def execGetEndpointUuid (m : Mctp) (s : State) : Answer := .next (sideband m (fun s => controlAnswer [] s) s)

/-- ALERT RESPONSE (R542): the device answers with its own address while it asserts ALERT_N. -/
def execAlertResponse (s : State) : Answer :=
  .next (if sidebandUp s && alertN s then s.emit (.mctp [smbusAddress s]) else s)

/-- R543: a response: type, Vendor ID, command, completion code, data. -/
def vendorResponse (cmd cc : Byte) (data : Bytes) : Bytes :=
  [0x7E, Config.vendorId.extractLsb' 8 8, Config.vendorId.extractLsb' 0 8, cmd, cc] ++ data

/-- R543: sends a response. -/
def replyWith (cmd cc : Byte) (data : Bytes) (s : State) : State := s.emit (.mctp (vendorResponse cmd cc data))

/-- R543: a register's 8 bytes. -/
def regBytes (w : W64) : Bytes := le 8 w.toNat

/-- GET STATUS (R543). -/
def execGetStatus (m : Mctp) (s : State) : Answer :=
  .next (sideband m (fun s => replyWith 0x01 0 (regBytes (readGctl s 0x00) ++ regBytes (readGctl s 0x40) ++ regBytes (readGctl s 0x48)) s) s)

/-- R543: GET HEALTH. -/
def healthAnswer (off : Nat) (s : State) : State :=
  if off % 64 ≠ 0 ∨ 4096 ≤ off then replyWith 0x02 1 [] s else replyWith 0x02 0 (slice (healthBytes s s.feat.healthSeq) off 64) s

/-- GET HEALTH (R543). -/
def execGetHealth (m : Mctp) (off : Nat) (s : State) : Answer := .next (sideband m (healthAnswer off) s)

/-- R543: GET PENDING. -/
def pendingAnswer (die : Nat) (s : State) : State :=
  match s.die? die with
  | none => replyWith 0x03 1 [] s
  | some x => replyWith 0x03 0 ((List.range 4).flatMap fun i => regBytes (readEvt x.evt (0x800 + 8 * i))) s

/-- GET PENDING (R543). -/
def execGetPending (m : Mctp) (die : Nat) (s : State) : Answer := .next (sideband m (pendingAnswer die) s)

/-- R411, R543: CLEAR PENDING. -/
def clearAnswer (die source : Nat) (s : State) : State :=
  if (s.die? die).isNone ∨ 256 ≤ source then replyWith 0x04 1 [] s
  else replyWith 0x04 0 [] (s.updEvt die fun e => { e with pend := e.pend.filter (· != source) })

/-- CLEAR PENDING (R543). -/
def execClearPending (m : Mctp) (die source : Nat) (s : State) : Answer := .next (sideband m (clearAnswer die source) s)

/-- R543: GET RECORDS. -/
def recordsAnswer (pos : Nat) (s : State) : State :=
  if s.log.indexing then replyWith 0x05 2 [] s
  else
    let l := ((combined s).drop pos).take 4
    replyWith 0x05 0 (le 1 l.length ++ l.flatMap recBytes) s

/-- GET RECORDS (R543). -/
def execGetRecords (m : Mctp) (pos : Nat) (s : State) : Answer := .next (sideband m (recordsAnswer pos) s)

/-- SMBUS BUS HELD LOW (R544). -/
def execSmbusBusHeldLow (s : State) : Answer := .next (if sidebandUp s then sidebandError s else s)

end Sys2Proof.Machine
end

