-- ==== Sys2Proof/Machine/TenantCommands.lean ====
section
/-! DEFINITION. The commands on tenants, keys and metering 30h to 37h (R434 to R454, R499, R500). -/

namespace Sys2Proof.Machine

/-- CREATE TENANT (R434, R499). -/
def execCreateTenant (p : Post) (s : State) : Answer := .next (dispatchEntry .createTenant p (control createTenant) s)

/-- DELETE TENANT (R499). -/
def execDeleteTenant (p : Post) (s : State) : Answer := .next (dispatchEntry .deleteTenant p (control deleteTenant) s)

/-- BIND (R436, R499). -/
def execBind (p : Post) (s : State) : Answer := .next (dispatchEntry .bind p (control bindObject) s)

/-- LOAD KEY (R446, R447, R500). -/
def execLoadKey (p : Post) (s : State) : Answer := .next (dispatchEntry .loadKey p (control loadKey) s)

/-- ERASE KEY (R448, R500). -/
def execEraseKey (p : Post) (s : State) : Answer := .next (settle (dispatchEntry .eraseKey p (control eraseKey) s))

/-- SET TENANT QOS (R440, R500). -/
def execSetTenantQos (p : Post) (s : State) : Answer := .next (dispatchEntry .setTenantQos p (control setTenantQos) s)

/-- METER CONFIG (R451, R500). -/
def execMeterConfig (p : Post) (s : State) : Answer := .next (dispatchEntry .meterConfig p (control meterConfig) s)

/-- METER READ (R453, R500). -/
def execMeterRead (p : Post) (s : State) : Answer := .next (dispatchEntry .meterRead p (control meterReadCmd) s)

end Sys2Proof.Machine
end

