-- ==== Sys2Proof/Machine/Dispatch.lean ====
section
/-! DEFINITION. One arm for each command of the table, each a call of its meaning. -/

namespace Sys2Proof.Machine

/-- The effect of a command on everything but the queue. -/
def exec (i : Instr) (s : State) : Host.Outcome State Fault Refusal :=
  match i with
  | .nop p => Sys2Proof.Machine.execNop p s
  | .read p => Sys2Proof.Machine.execRead p s
  | .write p => Sys2Proof.Machine.execWrite p s
  | .flush p => Sys2Proof.Machine.execFlush p s
  | .flushMedia p => Sys2Proof.Machine.execFlushMedia p s
  | .writeZeroes p => Sys2Proof.Machine.execWriteZeroes p s
  | .deallocate p => Sys2Proof.Machine.execDeallocate p s
  | .verify p => Sys2Proof.Machine.execVerify p s
  | .fragmentTableRead c frags buf => Sys2Proof.Machine.execFragmentTableRead c frags buf s
  | .hostTransferError c => Sys2Proof.Machine.execHostTransferError c s
  | .createRing p => Sys2Proof.Machine.execCreateRing p s
  | .deleteRing p => Sys2Proof.Machine.execDeleteRing p s
  | .setRingWeight p => Sys2Proof.Machine.execSetRingWeight p s
  | .abort p => Sys2Proof.Machine.execAbort p s
  | .identify p => Sys2Proof.Machine.execIdentify p s
  | .getFeature p => Sys2Proof.Machine.execGetFeature p s
  | .setFeature p => Sys2Proof.Machine.execSetFeature p s
  | .setPowerState p => Sys2Proof.Machine.execSetPowerState p s
  | .functionReinit p => Sys2Proof.Machine.execFunctionReinit p s
  | .createPool p => Sys2Proof.Machine.execCreatePool p s
  | .destroyPool p => Sys2Proof.Machine.execDestroyPool p s
  | .addMember p => Sys2Proof.Machine.execAddMember p s
  | .retireMember p => Sys2Proof.Machine.execRetireMember p s
  | .replaceMember p => Sys2Proof.Machine.execReplaceMember p s
  | .createVolume p => Sys2Proof.Machine.execCreateVolume p s
  | .deleteVolume p => Sys2Proof.Machine.execDeleteVolume p s
  | .resizeVolume p => Sys2Proof.Machine.execResizeVolume p s
  | .reshapePlan p => Sys2Proof.Machine.execReshapePlan p s
  | .reshapeStart p => Sys2Proof.Machine.execReshapeStart p s
  | .reshapeControl p => Sys2Proof.Machine.execReshapeControl p s
  | .rebuildControl p => Sys2Proof.Machine.execRebuildControl p s
  | .scrubControl p => Sys2Proof.Machine.execScrubControl p s
  | .poolStatus p => Sys2Proof.Machine.execPoolStatus p s
  | .memberStatus p => Sys2Proof.Machine.execMemberStatus p s
  | .lostBlockList p => Sys2Proof.Machine.execLostBlockList p s
  | .createTenant p => Sys2Proof.Machine.execCreateTenant p s
  | .deleteTenant p => Sys2Proof.Machine.execDeleteTenant p s
  | .bind p => Sys2Proof.Machine.execBind p s
  | .loadKey p => Sys2Proof.Machine.execLoadKey p s
  | .eraseKey p => Sys2Proof.Machine.execEraseKey p s
  | .eraseMarksApply tenant => Sys2Proof.Machine.execEraseMarksApply tenant s
  | .setTenantQos p => Sys2Proof.Machine.execSetTenantQos p s
  | .meterConfig p => Sys2Proof.Machine.execMeterConfig p s
  | .meterRead p => Sys2Proof.Machine.execMeterRead p s
  | .reflectWrite p => Sys2Proof.Machine.execReflectWrite p s
  | .reflectRead p => Sys2Proof.Machine.execReflectRead p s
  | .reflectAdd p => Sys2Proof.Machine.execReflectAdd p s
  | .reflectCas p => Sys2Proof.Machine.execReflectCas p s
  | .registerRegion p => Sys2Proof.Machine.execRegisterRegion p s
  | .revokeRegion p => Sys2Proof.Machine.execRevokeRegion p s
  | .revokeComplete die key => Sys2Proof.Machine.execRevokeComplete die key s
  | .endpointStatus p => Sys2Proof.Machine.execEndpointStatus p s
  | .firmwareDownload p => Sys2Proof.Machine.execFirmwareDownload p s
  | .firmwareProgrammed readbackOk => Sys2Proof.Machine.execFirmwareProgrammed readbackOk s
  | .firmwareActivate p => Sys2Proof.Machine.execFirmwareActivate p s
  | .firmwareLoadDone => Sys2Proof.Machine.execFirmwareLoadDone s
  | .firmwareClassFlip answerOk => Sys2Proof.Machine.execFirmwareClassFlip answerOk s
  | .logFreeze p => Sys2Proof.Machine.execLogFreeze p s
  | .logThaw p => Sys2Proof.Machine.execLogThaw p s
  | .freezeExpired => Sys2Proof.Machine.execFreezeExpired s
  | .logRead p => Sys2Proof.Machine.execLogRead p s
  | .logClearChallenge p => Sys2Proof.Machine.execLogClearChallenge p s
  | .challengeExpired => Sys2Proof.Machine.execChallengeExpired s
  | .logClear p => Sys2Proof.Machine.execLogClear p s
  | .healthReport p => Sys2Proof.Machine.execHealthReport p s
  | .selfTest p => Sys2Proof.Machine.execSelfTest p s
  | .engineSwap p => Sys2Proof.Machine.execEngineSwap p s
  | .dieRetire p => Sys2Proof.Machine.execDieRetire p s
  | .dieRetireMigrated pool => Sys2Proof.Machine.execDieRetireMigrated pool s
  | .timeAnchor p => Sys2Proof.Machine.execTimeAnchor p s
  | .partnerControl p => Sys2Proof.Machine.execPartnerControl p s
  | .tickBudgetReport p => Sys2Proof.Machine.execTickBudgetReport p s
  | .doorbell w a => Sys2Proof.Machine.execDoorbell w a s
  | .notificationDoorbell w a => Sys2Proof.Machine.execNotificationDoorbell w a s
  | .clearOvf w a => Sys2Proof.Machine.execClearOvf w a s
  | .invalidate w a => Sys2Proof.Machine.execInvalidate w a s
  | .setupRingEnable w a => Sys2Proof.Machine.execSetupRingEnable w a s
  | .setupRingDisable w a => Sys2Proof.Machine.execSetupRingDisable w a s
  | .gctlReset port a => Sys2Proof.Machine.execGctlReset port a s
  | .ladderAck port a => Sys2Proof.Machine.execLadderAck port a s
  | .evtPendClear die k a => Sys2Proof.Machine.execEvtPendClear die k a s
  | .meterHeadWrite die a => Sys2Proof.Machine.execMeterHeadWrite die a s
  | .xchIdentify x => Sys2Proof.Machine.execXchIdentify x s
  | .xchPoolStatus x => Sys2Proof.Machine.execXchPoolStatus x s
  | .xchMemberStatus x => Sys2Proof.Machine.execXchMemberStatus x s
  | .xchHealthReport x => Sys2Proof.Machine.execXchHealthReport x s
  | .xchLogRead x => Sys2Proof.Machine.execXchLogRead x s
  | .xchMeterRead x => Sys2Proof.Machine.execXchMeterRead x s
  | .msixVectorUnmask die fn vec => Sys2Proof.Machine.execMsixVectorUnmask die fn vec s
  | .registerWrite port fn off a => Sys2Proof.Machine.execRegisterWrite port fn off a s
  | .tick t => Sys2Proof.Machine.execTick t s
  | .frameOverrun die => Sys2Proof.Machine.execFrameOverrun die s
  | .frameRecovered die => Sys2Proof.Machine.execFrameRecovered die s
  | .frameNotRecovered die => Sys2Proof.Machine.execFrameNotRecovered die s
  | .budgetWindow die percentiles => Sys2Proof.Machine.execBudgetWindow die percentiles s
  | .ticksyncAlign cycles => Sys2Proof.Machine.execTicksyncAlign cycles s
  | .ticksyncLost => Sys2Proof.Machine.execTicksyncLost s
  | .powerUp => Sys2Proof.Machine.execPowerUp s
  | .startupPhaseDone ph => Sys2Proof.Machine.execStartupPhaseDone ph s
  | .resetN => Sys2Proof.Machine.execResetN s
  | .perstN port => Sys2Proof.Machine.execPerstN port s
  | .flr port fn => Sys2Proof.Machine.execFlr port fn s
  | .pfail => Sys2Proof.Machine.execPfail s
  | .backupEnRaise => Sys2Proof.Machine.execBackupEnRaise s
  | .vaultDone die => Sys2Proof.Machine.execVaultDone die s
  | .pfailDeassert => Sys2Proof.Machine.execPfailDeassert s
  | .powerReturned => Sys2Proof.Machine.execPowerReturned s
  | .thermalWarning die temp => Sys2Proof.Machine.execThermalWarning die temp s
  | .thermalCapStep => Sys2Proof.Machine.execThermalCapStep s
  | .thermalCapLifted => Sys2Proof.Machine.execThermalCapLifted s
  | .thermalTrip die => Sys2Proof.Machine.execThermalTrip die s
  | .powerStateChangeDone => Sys2Proof.Machine.execPowerStateChangeDone s
  | .powerStateTimeout => Sys2Proof.Machine.execPowerStateTimeout s
  | .powerStateRaised => Sys2Proof.Machine.execPowerStateRaised s
  | .lockstepMismatch die cores => Sys2Proof.Machine.execLockstepMismatch die cores s
  | .gfResidueFault die unit run => Sys2Proof.Machine.execGfResidueFault die unit run s
  | .aesCheckFault die unit run => Sys2Proof.Machine.execAesCheckFault die unit run s
  | .datapathCrcError die unit move => Sys2Proof.Machine.execDatapathCrcError die unit move s
  | .sramUncorrectable die hit => Sys2Proof.Machine.execSramUncorrectable die hit s
  | .ddrUncorrectable die hit loc => Sys2Proof.Machine.execDdrUncorrectable die hit loc s
  | .nvUnitRetired die => Sys2Proof.Machine.execNvUnitRetired die s
  | .sramPatrol die corrected => Sys2Proof.Machine.execSramPatrol die corrected s
  | .nvVerifyPass die bad => Sys2Proof.Machine.execNvVerifyPass die bad s
  | .ddrPatrol die corrected => Sys2Proof.Machine.execDdrPatrol die corrected s
  | .ddrZqCalibration die channel => Sys2Proof.Machine.execDdrZqCalibration die channel s
  | .ddrRetrained die channel ok => Sys2Proof.Machine.execDdrRetrained die channel ok s
  | .ddrChannelSpared die channel => Sys2Proof.Machine.execDdrChannelSpared die channel s
  | .eyeMeasure die lane eye => Sys2Proof.Machine.execEyeMeasure die lane eye s
  | .fabricLinkDown die module => Sys2Proof.Machine.execFabricLinkDown die module s
  | .dieSelfRetire die => Sys2Proof.Machine.execDieSelfRetire die s
  | .dieHoldDrop die => Sys2Proof.Machine.execDieHoldDrop die s
  | .leadDieMove => Sys2Proof.Machine.execLeadDieMove s
  | .indexRebuilt => Sys2Proof.Machine.execIndexRebuilt s
  | .heartbeatLost peer => Sys2Proof.Machine.execHeartbeatLost peer s
  | .shadowTakeover die => Sys2Proof.Machine.execShadowTakeover die s
  | .takeoverDecision holdIn => Sys2Proof.Machine.execTakeoverDecision holdIn s
  | .witnessAcquire => Sys2Proof.Machine.execWitnessAcquire s
  | .witnessAcquireDone conflict => Sys2Proof.Machine.execWitnessAcquireDone conflict s
  | .holdWireCleared => Sys2Proof.Machine.execHoldWireCleared s
  | .pairRejoin => Sys2Proof.Machine.execPairRejoin s
  | .rejoinTick => Sys2Proof.Machine.execRejoinTick s
  | .partnerAbsentTimeout => Sys2Proof.Machine.execPartnerAbsentTimeout s
  | .dryTakeover die holder ok => Sys2Proof.Machine.execDryTakeover die holder ok s
  | .witnessMeasure latency => Sys2Proof.Machine.execWitnessMeasure latency s
  | .healthReportWrite => Sys2Proof.Machine.execHealthReportWrite s
  | .unitProtected c => Sys2Proof.Machine.execUnitProtected c s
  | .stripeAgeLimit pool stripe => Sys2Proof.Machine.execStripeAgeLimit pool stripe s
  | .destageStart pool stripe => Sys2Proof.Machine.execDestageStart pool stripe s
  | .zeroFill vol unit => Sys2Proof.Machine.execZeroFill vol unit s
  | .anchor die => Sys2Proof.Machine.execAnchor die s
  | .journalSpill die => Sys2Proof.Machine.execJournalSpill die s
  | .journalFullCleared die => Sys2Proof.Machine.execJournalFullCleared die s
  | .spillCopyReplaced pool member => Sys2Proof.Machine.execSpillCopyReplaced pool member s
  | .configFold die => Sys2Proof.Machine.execConfigFold die s
  | .vaultRateMeasure die v vr => Sys2Proof.Machine.execVaultRateMeasure die v vr s
  | .memberCompletion id r => Sys2Proof.Machine.execMemberCompletion id r s
  | .sectorRepaired id => Sys2Proof.Machine.execSectorRepaired id s
  | .memberCommandRetried id => Sys2Proof.Machine.execMemberCommandRetried id s
  | .memberTimeout id => Sys2Proof.Machine.execMemberTimeout id s
  | .memberRemoved nsid => Sys2Proof.Machine.execMemberRemoved nsid s
  | .controllerFatal nsid => Sys2Proof.Machine.execControllerFatal nsid s
  | .asyncEvent nsid warn => Sys2Proof.Machine.execAsyncEvent nsid warn s
  | .smartPoll nsid warn => Sys2Proof.Machine.execSmartPoll nsid warn s
  | .pathLost nsid die => Sys2Proof.Machine.execPathLost nsid die s
  | .pathRestored nsid die => Sys2Proof.Machine.execPathRestored nsid die s
  | .rebuildStarted pool => Sys2Proof.Machine.execRebuildStarted pool s
  | .rebuildTileDone pool tile new bad => Sys2Proof.Machine.execRebuildTileDone pool tile new bad s
  | .rebuildResorted pool => Sys2Proof.Machine.execRebuildResorted pool s
  | .lostListWrite pool => Sys2Proof.Machine.execLostListWrite pool s
  | .copyBackTile pool member tile new => Sys2Proof.Machine.execCopyBackTile pool member tile new s
  | .scrubPassStart pool => Sys2Proof.Machine.execScrubPassStart pool s
  | .scrubTile pool tile found => Sys2Proof.Machine.execScrubTile pool tile found s
  | .mitreStep pool => Sys2Proof.Machine.execMitreStep pool s
  | .veneerBuild pool => Sys2Proof.Machine.execVeneerBuild pool s
  | .veneerSwitch pool => Sys2Proof.Machine.execVeneerSwitch pool s
  | .reshapeCancelled pool => Sys2Proof.Machine.execReshapeCancelled pool s
  | .segWrite die g => Sys2Proof.Machine.execSegWrite die g s
  | .segReadRequest die g host => Sys2Proof.Machine.execSegReadRequest die g host s
  | .segReadData die g => Sys2Proof.Machine.execSegReadData die g s
  | .segAdd die g => Sys2Proof.Machine.execSegAdd die g s
  | .segCas die g => Sys2Proof.Machine.execSegCas die g s
  | .segAtomicResult die g => Sys2Proof.Machine.execSegAtomicResult die g s
  | .segAck die g => Sys2Proof.Machine.execSegAck die g s
  | .segRefuse die g => Sys2Proof.Machine.execSegRefuse die g s
  | .segmentRetransmit die msgno segno => Sys2Proof.Machine.execSegmentRetransmit die msgno segno s
  | .reflectUnreachable die msgno => Sys2Proof.Machine.execReflectUnreachable die msgno s
  | .flaggedSegmentExpired die => Sys2Proof.Machine.execFlaggedSegmentExpired die s
  | .filterEntryExpired die => Sys2Proof.Machine.execFilterEntryExpired die s
  | .payloadFlit die raw => Sys2Proof.Machine.execPayloadFlit die raw s
  | .alignFlit die raw => Sys2Proof.Machine.execAlignFlit die raw s
  | .configFlit die raw => Sys2Proof.Machine.execConfigFlit die raw s
  | .configAckFlit die raw => Sys2Proof.Machine.execConfigAckFlit die raw s
  | .recoverFlit got => Sys2Proof.Machine.execRecoverFlit got s
  | .linkRecover die => Sys2Proof.Machine.execLinkRecover die s
  | .linkDetect die => Sys2Proof.Machine.execLinkDetect die s
  | .linkStateTimeout die => Sys2Proof.Machine.execLinkStateTimeout die s
  | .meterSnapshot late => Sys2Proof.Machine.execMeterSnapshot late s
  | .capRedivide => Sys2Proof.Machine.execCapRedivide s
  | .rateWindow die => Sys2Proof.Machine.execRateWindow die s
  | .optimeSave die => Sys2Proof.Machine.execOptimeSave die s
  | .setEndpointId m eid => Sys2Proof.Machine.execSetEndpointId m eid s
  | .getEndpointId m => Sys2Proof.Machine.execGetEndpointId m s
  | .getMctpVersionSupport m => Sys2Proof.Machine.execGetMctpVersionSupport m s
  | .getMessageTypeSupport m => Sys2Proof.Machine.execGetMessageTypeSupport m s
  | .getEndpointUuid m => Sys2Proof.Machine.execGetEndpointUuid m s
  | .alertResponse => Sys2Proof.Machine.execAlertResponse s
  | .getStatus m => Sys2Proof.Machine.execGetStatus m s
  | .getHealth m off => Sys2Proof.Machine.execGetHealth m off s
  | .getPending m die => Sys2Proof.Machine.execGetPending m die s
  | .clearPending m die source => Sys2Proof.Machine.execClearPending m die source s
  | .getRecords m pos => Sys2Proof.Machine.execGetRecords m pos s
  | .ringFetchError die ring => Sys2Proof.Machine.execRingFetchError die ring s
  | .powerLoss => Sys2Proof.Machine.execPowerLoss s
  | .perstNDeasserted port => Sys2Proof.Machine.execPerstNDeasserted port s
  | .memberAppearsOnPath n => Sys2Proof.Machine.execMemberAppearsOnPath n s
  | .formatNvmTimeout id => Sys2Proof.Machine.execFormatNvmTimeout id s
  | .equalisationLock die lanes => Sys2Proof.Machine.execEqualisationLock die lanes s
  | .smbusBusHeldLow => Sys2Proof.Machine.execSmbusBusHeldLow s

end Sys2Proof.Machine
end

