-- ==== Sys2Proof/Machine/Flags.lean ====
section
/-! DEFINITION. The flags that the block shows: its output pins and the valid marks host software polls. The block has
no arithmetic flags; a command's CFLAGS are written by `complete` in Ops. -/

namespace Sys2Proof.Machine

/-- R110, R431, R464, R537: FAULT_N, low when asserted. -/
def faultPin (s : State) : Bool := s.run.faultN.isEmpty

/-- R411, R537: ALERT_N, low when asserted. -/
def alertPin (s : State) : Bool := !alertN s

/-- R461, R537: THERMTRIP_N, low when asserted. -/
def thermtripPin (s : State) : Bool := !s.run.thermtrip

/-- R180, R537: BACKUP_EN. -/
def backupPin (s : State) : Bool := s.run.backupEn

/-- R533: DRAM_RESET_N, low when the device drives it. -/
def dramResetPin (s : State) : Bool := !s.run.dramReset

/-- R519: VALID of a function's exchange window. -/
def xchValid (s : State) (port fn w : Nat) : Bool := (xwinOf s port fn w).valid

end Sys2Proof.Machine
end

