-- ==== Sys2Proof/Safety.lean ====
section
/-! DEFINITION. The terms that statements use: what a step puts out, what a completion says, which commands a ring gives,
and the invariant that every step keeps. -/

namespace Sys2Proof.Machine

/-- o is among what was put out between two states. -/
def Puts (s t : State) (o : Out) : Prop := ∃ a b, t.out = s.out ++ (a ++ o :: b)

/-- R542, R543: one message, and nothing else, was sent on the sideband between two states. -/
def Says (s t : State) (b : Bytes) : Prop := t.out = s.out ++ [.mctp b]

/-- R41, R48: the command was sent over the fabric, and its completion is on its way back to the ring's die. -/
def SentBack (s t : State) (ref : CmdRef) (status : W16) (v : Res) : Prop :=
  (s.cmd? ref).any Cmd.away = true ∧ ∃ r b, t.ring? ref.die ref.ring = some r ∧ b ∈ r.backs ∧
    b.cmd.ref = ref ∧ b.status = status ∧ b.res = v ∧ b.at_ = t.clk.tick

/-- R48, R85: a command is no longer in flight: its completion, with a status and what Res says beside it, was put out, or is on its way to
the ring's die when another die carried the command out. -/
def Completes (s t : State) (ref : CmdRef) (status : W16) (v : Res) : Prop :=
  ((∃ r : Completion, r.status = status ∧ r.result = v.result ∧ r.ndone = BitVec.ofNat 32 v.ndone ∧ r.part = v.part ∧
    r.retry = v.retry ∧ r.extra = v.extra ∧ Puts s t (.completion ref r)) ∨ SentBack s t ref status v) ∧ t.cmd? ref = none

/-- R85: a completion with a status and a RESULT, and nothing else to say. -/
abbrev Answers (s t : State) (ref : CmdRef) (status : W16) (result : W64) : Prop := Completes s t ref status { result := result }

/-- R92, R108: ring r gives the entry at its head, which is not malformed. -/
structure Taken (op : Op) (p : Post) (r : Ring) (s : State) : Prop where
  ring : s.ring? p.die p.ring = some r
  ready : takes s r op p.entry = true
  good : headCause r op p.entry = none

/-- R96: the entry names its buffer directly, so its command starts in the step that dispatches it. -/
structure Direct (op : Op) (p : Post) (r : Ring) (s : State) : Prop extends Taken op p r s where
  direct : p.entry.ind = false

/-- The command that a dispatched entry becomes. -/
abbrev cmdOf (op : Op) (p : Post) (r : Ring) (s : State) : Cmd := newCmd s r op p

/-- The state in which that command starts. -/
abbrev startOf (op : Op) (p : Post) (r : Ring) (s : State) : State := dispatched r op p s

/-- R96, R475, R476, R478: a control command that its function and binding permit, that no other one holds back, and whose
buffer, if it reads one, was read. -/
structure Permitted (op : Op) (p : Post) (r : Ring) (s : State) : Prop extends Direct op p r s where
  allowed : permission (startOf op p r s) (cmdOf op p r s) = none
  free : heldBack (startOf op p r s) (cmdOf op p r s) = false
  read : (p.bufErr && inputFits (startOf op p r s) (cmdOf op p r s) == some true) = false

/-- The command of the table that posts an entry of an operation. -/
def rowOf : Op → Post → Instr
  | .nop, p => .nop p
  | .read, p => .read p
  | .write, p => .write p
  | .flush, p => .flush p
  | .flushMedia, p => .flushMedia p
  | .writeZeroes, p => .writeZeroes p
  | .deallocate, p => .deallocate p
  | .verify, p => .verify p
  | .createRing, p => .createRing p
  | .deleteRing, p => .deleteRing p
  | .setRingWeight, p => .setRingWeight p
  | .abort, p => .abort p
  | .identify, p => .identify p
  | .getFeature, p => .getFeature p
  | .setFeature, p => .setFeature p
  | .setPowerState, p => .setPowerState p
  | .functionReinit, p => .functionReinit p
  | .createPool, p => .createPool p
  | .destroyPool, p => .destroyPool p
  | .addMember, p => .addMember p
  | .retireMember, p => .retireMember p
  | .replaceMember, p => .replaceMember p
  | .createVolume, p => .createVolume p
  | .deleteVolume, p => .deleteVolume p
  | .resizeVolume, p => .resizeVolume p
  | .reshapePlan, p => .reshapePlan p
  | .reshapeStart, p => .reshapeStart p
  | .reshapeControl, p => .reshapeControl p
  | .rebuildControl, p => .rebuildControl p
  | .scrubControl, p => .scrubControl p
  | .poolStatus, p => .poolStatus p
  | .memberStatus, p => .memberStatus p
  | .lostBlockList, p => .lostBlockList p
  | .createTenant, p => .createTenant p
  | .deleteTenant, p => .deleteTenant p
  | .bind, p => .bind p
  | .loadKey, p => .loadKey p
  | .eraseKey, p => .eraseKey p
  | .setTenantQos, p => .setTenantQos p
  | .meterConfig, p => .meterConfig p
  | .meterRead, p => .meterRead p
  | .reflectWrite, p => .reflectWrite p
  | .reflectRead, p => .reflectRead p
  | .reflectAdd, p => .reflectAdd p
  | .reflectCas, p => .reflectCas p
  | .registerRegion, p => .registerRegion p
  | .revokeRegion, p => .revokeRegion p
  | .endpointStatus, p => .endpointStatus p
  | .firmwareDownload, p => .firmwareDownload p
  | .firmwareActivate, p => .firmwareActivate p
  | .logFreeze, p => .logFreeze p
  | .logThaw, p => .logThaw p
  | .logRead, p => .logRead p
  | .logClearChallenge, p => .logClearChallenge p
  | .logClear, p => .logClear p
  | .healthReport, p => .healthReport p
  | .selfTest, p => .selfTest p
  | .engineSwap, p => .engineSwap p
  | .dieRetire, p => .dieRetire p
  | .timeAnchor, p => .timeAnchor p
  | .partnerControl, p => .partnerControl p
  | .tickBudgetReport, p => .tickBudgetReport p

/-- The rows whose end can let other waiting work go on at once. -/
def settles : Op → Bool
  | .abort | .functionReinit | .destroyPool | .retireMember | .resizeVolume | .eraseKey | .endpointStatus | .dieRetire
  | .partnerControl => true
  | _ => false

/-- What a row that posts an entry does last: other waiting work goes on where the command's end can let it. -/
def after (op : Op) (s : State) : State := if settles op then settle s else s

/-- R475: the control commands: not the I/O commands, ABORT or the reflect messages. -/
def isControl (op : Op) : Bool := decide (16 ≤ op.code) && op != .abort && !(decide (0x40 ≤ op.code) && decide (op.code < 0x44))

/-- The parameter of n bytes at byte b of a dispatched entry (R475). -/
abbrev arg (p : Post) (b n : Nat) : Nat := p.entry.param b n

/-- R405: an event's source is pending on a die. -/
def Pending (t : State) (d code : Nat) : Prop := ∃ x, t.die? d = some x ∧ srcOf x.evt code ∈ x.evt.pend

/-- The contents of a die's addressed memories. -/
def dieMem (x : DieSt) : List Host.Cell × List Host.Cell := (x.rfl.counters, x.rfl.mirror)

/-- R344, R348, R350: every addressed memory is in its canonical form. -/
def MemOk (s : State) : Prop :=
  (∀ x ∈ s.dies, memWf x.rfl.counters = true ∧ memWf x.rfl.mirror = true) ∧
  (∀ r ∈ s.refl.regions, memWf r.mem = true) ∧ (∀ w ∈ s.refl.wins, memWf w.mem = true)

/-- The invariant of every step: a package has exactly the dies of its part (R2), HALTED holds FAULT_N
(R110), and every addressed memory is in its canonical form. -/
structure Inv (s : State) : Prop where
  dies : s.dies.length = s.id.part.dies
  fault : s.run.halted = true → 0 ∈ s.run.faultN
  mem : MemOk s

/-! ### What a command leaves as it was -/

/-- The kinds of state that a frame names: the fields of the package, of a die, of the reflect endpoints. -/
inductive Field where
  | id | clk | health | hw | frame | jr | recd | evt | link | rfl | rings | fns | cmds | seq | cache | mcmds | destages | uniq
  | pools | vols | meters | tenants | buckets | nss | eps | qps | regions | keys | wins | msgs | pair | pw | run | fw | log
  | meter | feat | reg | nextPlan | uids | eid | msixSent | arb | grants | tests | out | free | pending
  deriving DecidableEq, Repr

/-- What a die is beside its units, frame accounting, journal, recorder, EVT block, link and reflect engine: health, hold
line, yield, saved time, protected region, vault and host port. -/
def DieSt.core (x : DieSt) : DieSt :=
  { x with hw := HwSt.reset, frame := FrameSt.reset, jr := JournalSt.reset, recd := RecorderSt.reset, evt := EvtSt.reset,
           link := LinkSt.reset, rfl := DieRfl.reset }

/-- One kind of state is the same in two states. -/
def Field.same : Field → State → State → Prop
  | .id, s, t => t.id = s.id
  | .clk, s, t => t.clk = s.clk
  | .health, s, t => t.dies.map DieSt.core = s.dies.map DieSt.core
  | .hw, s, t => t.dies.map (·.hw) = s.dies.map (·.hw)
  | .frame, s, t => t.dies.map (·.frame) = s.dies.map (·.frame)
  | .jr, s, t => t.dies.map (·.jr) = s.dies.map (·.jr)
  | .recd, s, t => t.dies.map (·.recd) = s.dies.map (·.recd)
  | .evt, s, t => t.dies.map (·.evt) = s.dies.map (·.evt)
  | .link, s, t => t.dies.map (·.link) = s.dies.map (·.link)
  | .rfl, s, t => t.dies.map (·.rfl) = s.dies.map (·.rfl)
  | .rings, s, t => t.rings = s.rings
  | .fns, s, t => t.fns = s.fns
  | .cmds, s, t => t.cmds = s.cmds
  | .seq, s, t => t.seq = s.seq
  | .cache, s, t => t.cache = s.cache
  | .mcmds, s, t => t.mcmds = s.mcmds
  | .destages, s, t => t.destages = s.destages
  | .uniq, s, t => t.uniq = s.uniq
  | .pools, s, t => t.pools = s.pools
  | .vols, s, t => t.vols = s.vols
  | .meters, s, t => t.tenants.map (·.meters) = s.tenants.map (·.meters)
  | .tenants, s, t => (t.tenants.map fun x => { x with meters := {} }) = s.tenants.map fun x => { x with meters := {} }
  | .buckets, s, t => t.buckets = s.buckets
  | .nss, s, t => t.nss = s.nss
  | .eps, s, t => t.refl.eps = s.refl.eps
  | .qps, s, t => t.refl.qps = s.refl.qps
  | .regions, s, t => t.refl.regions = s.refl.regions
  | .keys, s, t => t.refl.keys = s.refl.keys
  | .wins, s, t => t.refl.wins = s.refl.wins
  | .msgs, s, t => t.refl.msgs = s.refl.msgs
  | .pair, s, t => t.pair = s.pair
  | .pw, s, t => t.pw = s.pw
  | .run, s, t => t.run = s.run
  | .fw, s, t => t.fw = s.fw
  | .log, s, t => t.log = s.log
  | .meter, s, t => t.meter = s.meter
  | .feat, s, t => t.feat = s.feat
  | .reg, s, t => t.reg = s.reg
  | .nextPlan, s, t => t.nextPlan = s.nextPlan
  | .uids, s, t => t.uids = s.uids
  | .eid, s, t => t.eid = s.eid
  | .msixSent, s, t => t.msixSent = s.msixSent
  | .arb, s, t => t.arb = s.arb
  | .grants, s, t => t.grants = s.grants
  | .tests, s, t => t.tests = s.tests
  | .out, s, t => t.out = s.out
  | .free, s, t => t.free = s.free
  | .pending, s, t => t.pending = s.pending

/-- Everything but the listed kinds of state is the same in two states. -/
structure Frame (s t : State) (l : List Field) : Prop where
  same : ∀ f, f ∉ l → f.same s t

/-- What raising an event may change: the EVT block and the recorder of a die, the messages due and what is put out. -/
abbrev raising : List Field := [.evt, .recd, .out, .msixSent]

/-- What the end of a command may change: it leaves the commands in flight with its fetches, its ring's notes and its
tenant's counters change, and a note that finds no room raises an event. -/
abbrev ending : List Field := [.cmds, .mcmds, .rings, .meters] ++ raising

/-- What dispatch and the end of a command may change: the ring moves on, the rounds with it, and the tenant's caps are charged. -/
abbrev answering : List Field := .arb :: .buckets :: ending

/-- R58, R141: a command as the clamp table takes it in, with the destages of its stripes that are in progress. -/
def clampedIn (c : Cmd) (s : State) : Cmd :=
  { c with seq := s.seq, clamp := true, adm := some s.clk.tick, earlier := underWay s c,
           base := if (underWay s c).isEmpty then none else some s.clk.tick }

/-- R141: a dispatched write-kind command as the clamp table takes it in. -/
def admittedCmd (op : Op) (p : Post) (r : Ring) (s : State) : Cmd := clampedIn (cmdOf op p r s) s

/-- R24, R42, R67: nothing keeps a data command of its ring from going to its home die: no entry before it whose fragment table is still
to be read, no shedding of bulk work there. -/
def mayGo (s : State) (c : Cmd) : Bool := !ringBehind s c && !homeSheds s c

/-- R141, R142: the state once a dispatched write-kind command is admitted, at work or stalled. -/
def admitted (op : Op) (p : Post) (r : Ring) (s : State) (st : Stage) : State :=
  { startOf op p r s with seq := s.seq + 1, cmds := s.cmds ++ [{ admittedCmd op p r s with stage := st }] }

/-- R142, R271: an earlier conflicting command, or the lock of a mitre step, holds a write-kind command at the clamp stage. -/
def clampHolds (q : Pool) (v : Vol) (c : Cmd) (s : State) : Bool :=
  s.cmds.any (conflicts c) || q.lock.any fun k => inRange v c k.lo k.hi

/-- R33, R41, R48: the state once a dispatched data command has been sent over the fabric to its home die h, where it arrives in a
later tick; without a path it waits for one. -/
def forwarded (op : Op) (p : Post) (r : Ring) (s : State) (h : Nat) : State :=
  { startOf op p r s with
    cmds := s.cmds ++ [{ cmdOf op p r s with
      stage := .stalled
      route := fabricPath s r.die h
      sent := if (fabricPath s r.die h).isEmpty then none else some s.clk.tick }] }

/-- R324, R332: what is sent to an address leaves its die: the address is the package's own, or a link is up. -/
def sendsTo (s : State) (a : W16) : Bool :=
  epPkg a == s.id.pkgid || s.dies.any fun x => x.alive && (x.link.state == .active || x.link.state == .recover)

/-- R475: the row of a posted entry answers 0000h with an output buffer, and changes nothing else. -/
def Reports (op : Op) (p : Post) (r : Ring) (s : State) (b : Bytes) (result ndone : Nat) : Prop :=
  ∃ t, exec (rowOf op p) s = .next (after op t) ∧ Puts s t (.buffer r.ref 0 b) ∧
    Completes s t r.ref 0 { result := BitVec.ofNat 64 result, ndone := ndone } ∧ Frame s t answering

/-- R475: the row of a posted entry answers 0000h with RESULT in a state of which P holds, and changes what is listed beside
what dispatch and completion change; rows whose end lets waiting work go on do that last. -/
def Does (op : Op) (p : Post) (r : Ring) (s : State) (result : Nat) (l : List Field) (P : State → Prop) : Prop :=
  ∃ t, exec (rowOf op p) s = .next (after op t) ∧ Answers s t r.ref 0 (BitVec.ofNat 64 result) ∧ P t ∧ Frame s t (l ++ answering)

/-- R366, R475, R478: the row of a posted configuration command makes a change of which P holds and answers 0000h with RESULT; in a pair
the command then waits, with that RESULT, for the partner to acknowledge the change. -/
def Makes (op : Op) (p : Post) (r : Ring) (s : State) (result : Nat) (l : List Field) (P : State → Prop) : Prop :=
  ∃ t, exec (rowOf op p) s = .next (after op t) ∧ P t ∧ Frame s t (l ++ answering) ∧
    (s.pair.state ≠ .paired → Answers s t r.ref 0 (BitVec.ofNat 64 result)) ∧
    (s.pair.state = .paired → ∃ c, t.cmd? r.ref = some c ∧ c.stage = .waiting ∧ c.told = some ⟨BitVec.ofNat 64 result, [], none⟩)

/-- R116: the row of a posted entry answers a failing status and does nothing else. -/
def Refuses (op : Op) (p : Post) (r : Ring) (s : State) (st : W16) (retry : Bool) : Prop :=
  ∃ t, exec (rowOf op p) s = .next (after op t) ∧ Completes s t r.ref st { retry := retry } ∧ Frame s t answering

/-- The row of a posted entry leaves its command waiting in a state of which P holds, and changes what is listed beside what
dispatch changes. -/
def Waits (op : Op) (p : Post) (r : Ring) (s : State) (l : List Field) (P : State → Prop) : Prop :=
  ∃ t, exec (rowOf op p) s = .next (after op t) ∧ (∃ c, t.cmd? r.ref = some c ∧ c.stage = .waiting) ∧ P t ∧
    Frame s t (l ++ [.arb, .rings, .buckets, .cmds])

/-- A row answers a next state of which P holds, and changes only what is listed. -/
def Runs (c : Instr) (s : State) (l : List Field) (P : State → Prop) : Prop := ∃ t, exec c s = .next t ∧ P t ∧ Frame s t l

/-- A row does what P says, changes only what is listed, and then lets waiting work go on. -/
def RunsOn (c : Instr) (s : State) (l : List Field) (P : State → Prop) : Prop :=
  ∃ t, exec c s = .next (settle t) ∧ P t ∧ Frame s t l

/-- R356: die d has yielded with a cause, which is recorded on it. -/
def Yields (d cause : Nat) (t : State) : Prop :=
  (∃ y, t.die? d = some y ∧ y.healthy = false ∧ y.retired = true ∧ y.yielded = some cause ∧ y.hold = false ∧ y.linkUp = false) ∧
    Pending t d 0x0043

/-- What the yield of a die, and of the package with it, may change. -/
abbrev yielding : List Field := .fns :: .health :: .link :: .rfl :: .reg :: .cmds :: .nss :: .pair :: .run :: .log :: raising

/-- R364, R373: what a takeover of the pair may change. -/
abbrev importing : List Field :=
  .cache :: .destages :: .jr :: .mcmds :: .meters :: .msgs :: .pools :: .qps :: .rings :: .uniq :: .vols :: .wins :: yielding

/-- R110, R364: the package has yielded with cause 0Ah, for want of a die that can take a pool. -/
def NoDieTakes (t : State) : Prop := t.run.halted = true ∧ faultPin t = false ∧ t.reg.ycause = 0x0A

/-- R364, R373: a row imports the pools that the partner held and P holds afterwards; a pool that no die can take makes the
package yield instead. -/
def Imports (c : Instr) (s : State) (l : List Field) (P : State → Prop) : Prop :=
  RunsOn c s l (fun t => NoDieTakes t ∨ (t.run = s.run ∧ P t)) ∧
  ((∀ p ∈ s.pools, p.away = false) → RunsOn c s l fun t => t.run = s.run ∧ P t) ∧
  ∀ p, s.pools.filter (·.away) = [p] → s.pool? p.num = some p →
    (newHome s p (some p.home) = none → RunsOn c s l NoDieTakes) ∧
    ∀ h, newHome s p (some p.home) = some h → RunsOn c s l fun t => t.run = s.run ∧ P t ∧
      ∃ q, t.pool? p.num = some q ∧ q.home = h ∧ q.away = false ∧ q.taken = true

/-- R373: the package is survivor, has shut the partner out and no longer awaits the host; 5044h. -/
def Survives (t : State) : Prop :=
  t.pair.state = .survivor ∧ t.pair.shut = true ∧ t.pair.awaiting = false ∧ Pending t t.id.lead 0x5044

/-- R373, R374: the takeover has ended: the kerf is over for every pool whose home die serves it, and it is counted; 5045h. -/
def TookOver (s t : State) : Prop :=
  Survives t ∧ t.pair.contest = none ∧ (∀ q ∈ t.pools, q.away = false → t.serves q.home = true → q.num ∉ t.pair.kerfPools) ∧
    t.pair.takeovers = satAdd top32 s.pair.takeovers 1 ∧
    Pending t s.id.lead 0x5045

/-- R375: the takeover contests the witness since a tick, in the kerf of the pools that the partner held. -/
def Contests (s : State) (f : Nat) (t : State) : Prop :=
  Survives t ∧ t.pair.contest = some f ∧ ((∃ p ∈ s.pools, p.away = true) → t.pair.kerf.isSome)

/-- R228: the namespace is the member in use of pool p at index x. -/
def Serves (s : State) (ns : Nat) (p : Pool) (x : Nat) : Prop :=
  s.pools.find? (fun q => (q.members ++ q.pending).any fun m => m.ns == ns && m.state != .failed) = some p ∧ s.pool? p.num = some p ∧
    p.members.findIdx? (fun m => m.ns == ns) = some x

/-- R228, R229: that member is FAILED with a cause, and no command to it is left. -/
def FailedAs (s : State) (ns : Nat) (p : Pool) (x cause : Nat) (t : State) : Prop :=
  (∃ q m, t.pool? p.num = some q ∧ q.members[x]? = some m ∧ m.ns = ns ∧ m.state = .failed ∧ m.cause = cause ∧
    m.failTick = some s.clk.tick) ∧ ∀ c ∈ t.mcmds, c.ns = ns → c.pool = none

/-- What the failure of a member may change. -/
abbrev failing : List Field := .destages :: .jr :: .pools :: .vols :: ending

/-- R323, R335: a segment of an operation reaches a die that takes it: well formed, new to the filter, with room in it. -/
structure Arrives (op : Byte) (d : Nat) (g : Seg) (s : State) : Prop where
  runs : reflectRuns s d = true
  good : segGood op g = true
  retx : g.noretx = false
  fresh : ∀ e ∈ ((s.die? d).map (·.rfl.filter)).getD [], sameSeg g e = false
  room : (((s.die? d).map (·.rfl.filter)).getD []).length < 131072

/-- R338: the segment is its whole message, and no segment of that message is held. -/
structure Alone (d : Nat) (g : Seg) (s : State) : Prop where
  one : g.nseg = 1
  free : ∀ h ∈ heldOn s d, sameMsg h.seg g = false

/-- R329, R331: die d puts out a control flit of a SUB with this end's fields, striped over w lanes; its header says what link
state k has received. -/
def SendsCtl (d sub w : Nat) (k : LinkSt) (s t : State) : Prop :=
  Puts s t (.flit d (onLanes k w (ctlFlit sub
    { lane := 0xFF, pkgid := s.id.pkgid, die := d, width := Nat.log2 w, version := 1, credits := 512 } k.ctlHeader)))

/-- R330, R331: die d puts out the ALIGN flit of each of its reflect lanes that is not retired, each whole on its lane, with this
end's fields for a width w; its header says what link state k has received. -/
def SendsAlign (d w : Nat) (retired : List Nat) (k : LinkSt) (s t : State) : Prop :=
  ∃ ls : List Bytes, Puts s t (.flit d ls) ∧ ∀ l, l < 16 → 40 + l ∉ retired → ls[l]? = some (ctlFlit 1
    { lane := BitVec.ofNat 8 l, pkgid := s.id.pkgid, die := d, width := Nat.log2 w, version := 1, credits := 512 } k.ctlHeader)

/-- R333, R335: the segment is recorded as applied with a value, and its ACK is due, which the end of the tick sends. -/
def Applied (d : Nat) (g : Seg) (v : W64) (s t : State) : Prop :=
  ∃ y, t.die? d = some y ∧ y.rfl.filter.head? = some ⟨g.src, g.msgno, g.segno, g.resp, 0, v, s.clk.tick⟩ ∧
    ∃ h ∈ y.rfl.ackDue, sameGroup g h = true

/-- R340: a response message of an operation code that carries bytes goes back for a segment. -/
def Responds (d : Nat) (g : Seg) (op : Nat) (b : Bytes) (s t : State) : Prop :=
  ∃ m ∈ t.refl.msgs, m.die = d ∧ m.isResp = true ∧ m.op = op ∧ m.msgno = g.msgno ∧ m.src = g.dst ∧ m.dst = g.src ∧
    m.segs.flatMap (·.payload) = b ∧ ∀ x ∈ m.segs, Puts s t (.segment d x)

/-- R344, R350: a memory holds bytes from an address on; every other byte is as it was in another memory. -/
def Holds (old new : List Host.Cell) (a : Nat) (b : Bytes) : Prop :=
  readBytes new a b.length = b ∧ ∀ x, x < a ∨ a + b.length ≤ x → readByte new x = readByte old x

/-- What a device reset may change. -/
abbrev resetting : List Field :=
  [.clk, .fns, .health, .hw, .frame, .jr, .rfl, .link, .cmds, .mcmds, .rings, .cache, .destages, .pools, .vols, .meters, .tenants,
   .buckets, .eps, .qps, .regions, .keys, .wins, .msgs, .pair, .pw, .run, .fw, .log, .meter, .feat, .reg, .grants, .tests,
   .free, .arb] ++ raising

/-- R465, R466, R509: what a device reset leaves: phase 1, no ring, command, endpoint or region, P0, the admission features
and every EVT block at their reset values, no loaded key; the dirty data, the pools and the tick stay. -/
structure AfterReset (s t : State) : Prop where
  run : t.run.phase = 1 ∧ t.run.halted = false ∧ t.run.pfail = none ∧ t.run.backupEn = false
  work : t.rings = [] ∧ t.cmds = [] ∧ t.mcmds = [] ∧ t.destages = []
  refl : t.refl.eps = [] ∧ t.refl.qps = [] ∧ t.refl.regions = [] ∧ t.refl.wins = [] ∧ t.refl.msgs = []
  pw : t.pw = PowerSt.reset
  feat : t.feat.now = Feats.reset ∧ t.feat.next = none
  dies : ∀ x ∈ t.dies, x.evt = EvtSt.reset ∧ x.linkUp = false ∧ x.hold = false ∧ x.frame.shed = false
  keys : ∀ x ∈ t.tenants, x.key = none
  cache : t.cache = s.cache.filter (·.dirty)
  pools : t.pools.map (·.num) = s.pools.map (·.num) ∧ t.vols.map (·.num) = s.vols.map (·.num)
  tick : t.clk.tick = s.clk.tick ∧ t.clk.optime = s.clk.optime
  frame : Frame s t resetting

/-- R519, R521: the exchange window of a query shows its request, VALID, a status and the bytes returned. -/
def Shows (x : XchReq) (st : W16) (b : Bytes) (t : State) : Prop :=
  ∃ w, xwinOf t x.port x.fn x.window = w ∧ w.seq = x.seq ∧ w.sel = x.sel ∧ w.arg = x.arg ∧ w.valid = true ∧ w.status = st ∧ w.data = b

end Sys2Proof.Machine
end

