-- ==== Sys2Proof/Certificates/Slice0/Obligations.lean ====
section
/-! DEFINITION. The statements for the provers, by family of the command table. -/

open Sys2Proof Sys2Proof.Machine

/-! ### The block: queue, reset, what every command keeps -/

/-- A step carries out the command at the front of the queue on the state with the queue's rest (the model's own queue). An
empty queue leaves the block as it is: DESIGN CHOICE of log entry 2. -/
def Obligations.StepTakesFront : Prop :=
  (∀ (c : Instr) (s : State), step { s with pending := c :: s.pending } = exec c s) ∧
  ∀ s : State, s.pending = [] → step s = .next s

/-- R52, R55, R56, R61, R76, R356, R384, R409, R440, R455, R514: what reset leaves, and that it meets the invariant. -/
def Obligations.ResetState : Prop :=
  Inv State.reset ∧ State.reset.pending = [] ∧ State.reset.rings = [] ∧ State.reset.cmds = [] ∧ State.reset.pools = [] ∧
  State.reset.feat.now.resv = List.replicate 13 10 ∧ State.reset.feat.now.weights = [8, 4, 1] ∧
  State.reset.feat.now.share = 50 ∧ State.reset.feat.now.floor = 5 ∧ State.reset.pw.pstate = 0 ∧ State.reset.reg.step = 0 ∧
  State.reset.run.halted = false ∧ State.reset.run.backupEn = false ∧ State.reset.run.thermtrip = false ∧
  faultPin State.reset = true ∧ ∀ x ∈ State.reset.dies, x.evt.pend = [] ∧ x.retired = false ∧ x.yielded = none

/-- Every step keeps the invariant: the dies are those of the part (R2), HALTED holds FAULT_N (R110), and every addressed
memory stays in its canonical form (R344, R348, R350). -/
def Obligations.StepKeepsInv : Prop :=
  ∀ s t : State, Inv s → step s = .next t → Inv t

/-- No command of the table stops the block, and none changes the queue, the part or the number of dies. -/
def Obligations.EveryCommandRuns : Prop :=
  ∀ (c : Instr) (s : State), Inv s → ∃ t, exec c s = .next t ∧ t.pending = s.pending ∧ t.id.part = s.id.part ∧
    t.dies.length = s.dies.length

/-- R47: the tick counts only at TICK: every other command leaves it, but for those that cut or restore power. -/
def Obligations.OnlyTickCounts : Prop :=
  ∀ (c : Instr) (s t : State), exec c s = .next t →
    (∀ i, c ≠ .tick i) → c ≠ .powerUp → c ≠ .powerLoss → t.clk.tick = s.clk.tick

/-- R344, R348, R350: a byte of a die's distributed counters or of its journal mirror changes only where a reflect segment
is applied, or where power is lost. -/
def Obligations.DieMemoryKept : Prop :=
  ∀ (c : Instr) (s t : State), exec c s = .next t →
    (match c with
      | .segWrite .. | .segReadRequest .. | .segReadData .. | .segAdd .. | .segCas .. | .segAtomicResult .. | .powerLoss => True
      | _ => t.dies.map dieMem = s.dies.map dieMem)

/-! ### Posted entries -/

/-- R96: an entry whose IND is 1 waits for its fragment table: its command is in flight, nothing else has happened. -/
def Obligations.IndirectEntryWaits : Prop :=
  ∀ (op : Op) (p : Post) (r : Ring) (s : State), Taken op p r s → p.entry.ind = true →
    ∃ t, exec (rowOf op p) s = .next (after op t) ∧ (∃ c, t.cmd? r.ref = some c ∧ c.op = op ∧ c.entry = p.entry ∧
      c.stage = .table) ∧
      t.ring? r.die r.idx = some (advance s r) ∧ Frame s t [.arb, .rings, .buckets, .cmds]

/-- R94, R108, R110, R515: a malformed entry halts the package: FAULT_N is held, every hold line is low, and the halt registers
name the cause, the function, the ring and the index; the rings read as before in this tick and HALTED from the next one on. -/
def Obligations.MalformedEntryHalts : Prop :=
  ∀ (op : Op) (p : Post) (r : Ring) (s : State) (k : Nat), s.ring? p.die p.ring = some r → takes s r op p.entry = true →
    headCause r op p.entry = some k →
    ∃ t, exec (rowOf op p) s = .next (after op t) ∧ t.run.halted = true ∧ faultPin t = false ∧
      t.rings.map (·.state) = s.rings.map (·.state) ∧
      (∀ i : TickIn, ∃ u, exec (.tick i) t = .next u ∧ ∀ x ∈ u.rings, x.state = .halted) ∧
      (∀ x ∈ t.dies, x.hold = false) ∧ t.reg.mcause = k ∧ t.reg.owner = r.fn ∧ t.reg.ringId = r.die * 512 + r.idx ∧
      t.reg.index = r.head % r.size ∧ t.reg.halt1 = p.entry.low op.code ∧ t.reg.halt2 = p.entry.lba ∧ t.pair.state = .halted ∧
      t.cmds = s.cmds

/-- R475, R476: a control command that its function or its binding does not permit answers 0101h or 0302h and does nothing
else. -/
def Obligations.ForbiddenControlFails : Prop :=
  ∀ (op : Op) (p : Post) (r : Ring) (s : State) (st : W16), isControl op = true → Direct op p r s →
    permission (startOf op p r s) (cmdOf op p r s) = some st →
    (st = 0x0101 ∨ st = 0x0302) ∧
      ∃ t, exec (rowOf op p) s = .next (after op t) ∧ Answers s t r.ref st 0 ∧ Frame s t answering

/-! ### I/O commands -/

/-- R137: NOP answers 0000h and changes nothing else. -/
def Obligations.NopAnswers : Prop :=
  ∀ (p : Post) (r : Ring) (s : State), Direct .nop p r s →
    ∃ t, exec (.nop p) s = .next t ∧ Answers s t r.ref 0 0 ∧ t.cmds = s.cmds ∧ Frame s t answering

/-- R115, R138, R139, R353: FLUSH and FLUSH MEDIA of every volume, while no block is dirty and no pool is offline, answer 0000h at
once; nothing is written. While a kerf holds a pool whose volumes they cover they wait. -/
def Obligations.FlushWithNothingDirty : Prop :=
  ∀ (op : Op) (p : Post) (r : Ring) (s : State), op = .flush ∨ op = .flushMedia → Direct op p r s → p.entry.vol = 0xFFFF →
    ((∀ b ∈ s.cache, b.dirty = false) → (∀ q ∈ s.pools, q.offline = none) → (∀ q ∈ s.pools, poolHeld s q = false) →
      ∃ t, exec (rowOf op p) s = .next t ∧ Answers s t r.ref 0 0 ∧ Frame s t answering) ∧
    ∀ q ∈ s.pools, poolHeld s q = true → (∃ v ∈ s.vols, v.pool = q.num ∧ v.deleting = none ∧
        ((s.ringTenant r).isSome → v.tenant = s.ringTenant r)) →
      ∃ t c, exec (rowOf op p) s = .next t ∧ t.cmd? r.ref = some c ∧ c.stage = .stalled ∧ Frame s t [.arb, .rings, .buckets, .cmds]

/-- R33, R41, R42, R48, R61, R67, R115, R141, R142, R178, R271, R353: WRITE, WRITE ZEROES and DEALLOCATE that pass their checks are, on
their home die, admitted to the clamp table with the next admission number and at work at once; behind a conflicting earlier command
or a mitre step's lock they stall there, and class 0 is lent along the chain; behind an entry of their ring whose fragment table is
still to be read, with the journal full, or while a kerf holds the commands of the pool or the die sheds theirs, they are not admitted.
From another die they are sent over the fabric. Nothing else has happened yet. -/
def Obligations.WriteKindAdmitted : Prop :=
  ∀ (op : Op) (p : Post) (r : Ring) (s : State) (v : Vol) (q : Pool),
    op = .write ∨ op = .writeZeroes ∨ (op = .deallocate ∧ v.dz = true) → Direct op p r s → s.vol? p.entry.vol.toNat = some v →
    v.deleting = none → s.pool? v.pool = some q → permits (cmdOf op p r s) v = true → ioCheck s (cmdOf op p r s) v = none →
    (op = .write → writeCheck (cmdOf op p r s) v = none) →
    (q.home = r.die → mayGo s (cmdOf op p r s) = true → journalFull s q.home = false → poolHeld s q = false →
      clampHolds q v (admittedCmd op p r s) s = false →
      (op = .write → exec (.write p) s = .next (admitted op p r s .working)) ∧
      (op = .writeZeroes → exec (.writeZeroes p) s = .next (admitted op p r s .working)) ∧
      (op = .deallocate → exec (.deallocate p) s = .next (admitted op p r s .working))) ∧
    (q.home = r.die → mayGo s (cmdOf op p r s) = true → journalFull s q.home = false → poolHeld s q = false →
      clampHolds q v (admittedCmd op p r s) s = true →
      exec (rowOf op p) s = .next (lend (admitted op p r s .stalled))) ∧
    ((q.home = r.die ∧ (homeSheds s (cmdOf op p r s) = true ∨ journalFull s q.home = true ∨ poolHeld s q = true)) ∨
        ringBehind s (cmdOf op p r s) = true → ∃ t c, exec (rowOf op p) s = .next t ∧ t.cmd? r.ref = some c ∧
      c.stage = .stalled ∧ c.clamp = false ∧ c.sent = none ∧ Frame s t [.arb, .rings, .buckets, .cmds]) ∧
    (q.home ≠ r.die → ringBehind s (cmdOf op p r s) = false → exec (rowOf op p) s = .next (forwarded op p r s q.home) ∧
      Frame s (forwarded op p r s q.home) [.arb, .rings, .buckets, .cmds]) ∧
    ∀ st, Frame s (admitted op p r s st) [.arb, .rings, .buckets, .cmds, .seq] ∧
      Frame s (lend (admitted op p r s st)) [.arb, .rings, .buckets, .cmds, .seq]

/-- R134: DEALLOCATE of a volume whose reads of deallocated blocks are not zeros (DZ = 0) answers 0000h with every block
done; only clean copies leave the cache. From a die that is not the home die it is sent over the fabric first (R33). -/
def Obligations.DeallocateWithoutZeros : Prop :=
  ∀ (p : Post) (r : Ring) (s : State) (v : Vol) (q : Pool), Direct .deallocate p r s → s.vol? p.entry.vol.toNat = some v →
    v.deleting = none → v.dz = false → s.pool? v.pool = some q → permits (cmdOf .deallocate p r s) v = true →
    ioCheck s (cmdOf .deallocate p r s) v = none →
    (q.home = r.die → mayGo s (cmdOf .deallocate p r s) = true → journalFull s q.home = false → poolHeld s q = false →
      (∀ d ∈ s.cmds, d.clamp = true → d.entry.vol ≠ p.entry.vol) →
      (∀ k, q.lock = some k → inRange v (cmdOf .deallocate p r s) k.lo k.hi = false) →
      ∃ t, exec (.deallocate p) s = .next t ∧ Completes s t r.ref 0 { ndone := p.entry.nblk.toNat } ∧
        (∀ b ∈ s.cache, b.dirty = true → b ∈ t.cache) ∧ (∀ b ∈ t.cache, b ∈ s.cache) ∧ Frame s t (.cache :: .seq :: answering)) ∧
    (q.home ≠ r.die → ringBehind s (cmdOf .deallocate p r s) = false → exec (.deallocate p) s = .next (forwarded .deallocate p r s q.home))

/-- R33, R128, R135, R136: READ and VERIFY, on the home die, of blocks none of which has ever been written, of a volume without
protection information, answer 0000h with every block done; READ puts zeros into the host buffer. From another die they are
sent over the fabric. -/
def Obligations.ReadOfZeroBlocks : Prop :=
  ∀ (op : Op) (p : Post) (r : Ring) (s : State) (v : Vol) (q : Pool), op = .read ∨ op = .verify → Direct op p r s →
    s.vol? p.entry.vol.toNat = some v → v.deleting = none → v.pif = 0 → s.pool? v.pool = some q →
    permits (cmdOf op p r s) v = true → ioCheck s (cmdOf op p r s) v = none →
    (q.home = r.die → mayGo s (cmdOf op p r s) = true → poolHeld s q = false → 0 < p.entry.nblk.toNat → (∀ d ∈ s.cmds, d.clamp = true → d.entry.vol ≠ p.entry.vol) →
      (∀ b ∈ s.cache, b.vol ≠ v.num) →
      (isCons s (cmdOf op p r s) v = true → ∀ k, q.lock = some k → inRange v (cmdOf op p r s) k.lo k.hi = false) →
      (∀ l, p.entry.lba.toNat ≤ l → l < p.entry.lba.toNat + p.entry.nblk.toNat → v.isZero l = true ∧ q.isLost v.num l = false) →
      ∃ t, exec (rowOf op p) s = .next t ∧ Completes s t r.ref 0 { ndone := p.entry.nblk.toNat } ∧
        (op = .read → Puts s t (.buffer r.ref 0 (zeros (p.entry.nblk.toNat * v.b)))) ∧ Frame s t (.seq :: answering)) ∧
    (q.home ≠ r.die → ringBehind s (cmdOf op p r s) = false → exec (rowOf op p) s = .next (forwarded op p r s q.home))

/-- R95, R96, R108, R117, R343: FRAGMENT TABLE READ of a good table of the DLEN fragments starts the command with them as its
dispatch starts one that names its buffer: one that is not permitted answers that, a write-kind command is admitted or sent to
its home die; a table that meets a cause of R108 halts the package. HOST TRANSFER ERROR while the table is read, before a
WRITE's data is in the cache or before a reflect command is sent answers 0206h with AER, and only that command leaves; under
way, a reflect operation ends with what was acknowledged of it. -/
def Obligations.FragmentTables : Prop :=
  ∀ (ref : CmdRef) (c : Cmd) (r : Ring) (s : State), s.cmd? ref = some c → s.ring? ref.die ref.ring = some r →
    s.running = true → (s.die? ref.die).any (·.linkUp) = true →
    (∀ (frags : List Frag) (buf : Bytes) (d : Cmd), c.stage = .table → frags.length = c.entry.dlen.toNat →
      { c with frags := frags, buf := buf, stage := .planned } = d →
      (∀ k, tableCause c.entry frags = some k →
        ∃ t, exec (.fragmentTableRead ref frags buf) s = .next t ∧ t.run.halted = true ∧ faultPin t = false ∧ t.reg.mcause = k ∧
          t.reg.index = ref.index ∧ t.reg.ringId = r.die * 512 + r.idx ∧ t.cmds = s.cmds) ∧
      (tableCause c.entry frags = none →
        exec (.fragmentTableRead ref frags buf) s = .next (beginOp c.op ref (chargeFrags r d (s.updCmd ref fun _ => d))) ∧
        (c.op = .nop → ∃ t, exec (.fragmentTableRead ref frags buf) s = .next t ∧ Answers s t ref 0 0 ∧ Frame s t ending) ∧
        (∀ st, isControl c.op = true → permission s d = some st →
          ∃ t, exec (.fragmentTableRead ref frags buf) s = .next t ∧ Answers s t ref st 0 ∧ Frame s t ending) ∧
        (∀ v q, c.op = .write ∨ c.op = .writeZeroes ∨ (c.op = .deallocate ∧ v.dz = true) →
          s.vol? c.entry.vol.toNat = some v → v.deleting = none → s.pool? v.pool = some q → permits d v = true →
          ioCheck s d v = none → (c.op = .write → writeCheck d v = none) →
          (q.home = ref.die → mayGo s d = true → journalFull s q.home = false → poolHeld s q = false → clampHolds q v (clampedIn d s) s = false →
            ∃ t, exec (.fragmentTableRead ref frags buf) s = .next t ∧ t.seq = s.seq + 1 ∧ Frame s t [.cmds, .seq] ∧
              t.cmd? ref = some { clampedIn d s with stage := .working }) ∧
          (q.home ≠ ref.die → ringBehind s d = false → c.sent = none →
            ∃ t, exec (.fragmentTableRead ref frags buf) s = .next t ∧ Frame s t [.cmds] ∧
              t.cmd? ref = some { d with
                stage := .stalled
                route := fabricPath s ref.die q.home
                sent := if (fabricPath s ref.die q.home).isEmpty then none else some s.clk.tick })))) ∧
    (c.stage = .table → RunsOn (.hostTransferError ref) s ending fun t => Puts s t (.aer ref.die) ∧
      Completes s t ref 0x0206 { retry := decide (c.op.code < 8) || decide (0x40 ≤ c.op.code ∧ c.op.code ≤ 0x43) } ∧
      t.cmds = s.cmds.filter (·.ref != ref)) ∧
    (beforeData c = true ∨ ((c.op = .reflectWrite ∨ c.op = .reflectRead) ∧ c.stage = .stalled) →
      RunsOn (.hostTransferError ref) s ending fun t => Puts s t (.aer ref.die) ∧ Completes s t ref 0x0206 { retry := true } ∧
        t.cmds = s.cmds.filter (·.ref != ref)) ∧
    ∀ m, opMsg s ref = some m → c.op = .reflectWrite ∨ c.op = .reflectRead → c.stage = .working →
      RunsOn (.hostTransferError ref) s (.msgs :: ending) fun t => Puts s t (.aer ref.die) ∧
        Completes s t ref 0x0206 { ndone := ackedBytes m, part := decide (0 < ackedBytes m) } ∧ m ∉ t.refl.msgs ∧
        t.cmds = s.cmds.filter (·.ref != ref)

/-! ### Rings, identity, features -/

/-- R76, R80, R481: CREATE RING with good fields makes an enabled, empty ring at the lowest free index and answers its ring
ID, with its window in bits 31 to 16 for a virtual function. -/
def Obligations.CreateRingMakesRing : Prop :=
  ∀ (p : Post) (r : Ring) (s : State) (i w : Nat), Permitted .createRing p r s →
    ringFieldsOk (startOf .createRing p r s) (cmdOf .createRing p r s) = true → freeIndex s r.die r.fn = some i →
    freeWindow (startOf .createRing p r s) r.die r.fn i = some w →
    ∃ t x, exec (.createRing p) s = .next t ∧
      Answers s t r.ref 0 (BitVec.ofNat 64 (r.die * 512 + i + if s.isPf r.die r.fn then 0 else w * 65536)) ∧
      t.ring? r.die i = some x ∧ x.fn = r.fn ∧ x.window = w ∧ x.state = .enabled ∧ x.size = 2 ^ (arg p 44 1 + 4) ∧
      x.base = BitVec.ofNat 64 (arg p 52 8) ∧ x.vector = arg p 48 2 ∧ x.tail = 0 ∧ Frame s t answering

/-- R81, R482: DELETE RING of another ring of the function with nothing in flight removes it and answers the entries that
were posted and not dispatched. -/
def Obligations.DeleteRingRemoves : Prop :=
  ∀ (p : Post) (r x : Ring) (s : State), Permitted .deleteRing p r s → s.ring? (arg p 44 2 / 512) (arg p 44 2 % 512) = some x →
    x.fn = r.fn → x.die = r.die → x.setup = false → x.idx ≠ r.idx → x.state = .enabled → x.notif = false → x.deleters = [] →
    inflight s x = 0 →
    ∃ t, exec (.deleteRing p) s = .next t ∧ Answers s t r.ref 0 (BitVec.ofNat 64 (distance x.size x.head x.tail)) ∧
      t.ring? x.die x.idx = none ∧ Frame s t answering

/-- R100, R440, R482: SET RING WEIGHT sets the weight and burst that hold from the next round of the ring's class on, and the
class at once when SETC is 1. -/
def Obligations.SetRingWeightSets : Prop :=
  ∀ (p : Post) (r x : Ring) (s : State), Permitted .setRingWeight p r s →
    s.ring? (arg p 44 2 / 512) (arg p 44 2 % 512) = some x → x.fn = r.fn → x.die = r.die → x.setup = false → x.notif = false →
    1 ≤ arg p 46 1 → 1 ≤ arg p 47 1 → arg p 47 1 ≤ 64 →
    (bitAt (arg p 48 1) 7 = true → ∀ m, (s.ringTenant r).bind s.tenant? = some m → m.qos.maxClass ≤ bits (arg p 48 1) 1 0) →
    ∃ t y z, exec (.setRingWeight p) s = .next t ∧ Answers s t r.ref 0 0 ∧ t.ring? x.die x.idx = some y ∧
      (startOf .setRingWeight p r s).ring? x.die x.idx = some z ∧
      y = { z with
              nextWeight := some (arg p 46 1, arg p 47 1)
              cls := if bitAt (arg p 48 1) 7 then bits (arg p 48 1) 1 0 else x.cls } ∧
      (newRound y).weight = arg p 46 1 ∧ (newRound y).burst = arg p 47 1 ∧ Frame s t answering

/-- R151 to R155: ABORT answers RESULT 2 where no command of the ring has the tag, 1 with the index where the earliest such
command, itself included, is past its point of no return or its completion is on its way over the fabric, and 0 with the index
where it ends the command, which answers 0501h. -/
def Obligations.AbortAnswers : Prop :=
  ∀ (p : Post) (r x : Ring) (s : State), Direct .abort p r s →
    s.ring? (bits (arg p 44 2) 11 0 / 512) (bits (arg p 44 2) 11 0 % 512) = some x → x.fn = r.fn → x.die = r.die →
    x.notif = false →
    ((∀ c ∈ s.cmds, c.ref.die = x.die → c.ref.ring = x.idx → c.entry.tag.toNat ≠ arg p 46 2) →
      (x.idx ≠ r.idx ∨ p.entry.tag.toNat ≠ arg p 46 2 →
        ((∀ b ∈ x.backs, b.cmd.entry.tag.toNat ≠ arg p 46 2) →
          ∃ t, exec (.abort p) s = .next (settle t) ∧ Answers s t r.ref 0 2 ∧ t.cmds = s.cmds ∧ Frame s t answering) ∧
        ∀ b, x.backs.find? (fun b => b.cmd.entry.tag.toNat == arg p 46 2) = some b →
          ∃ t, exec (.abort p) s = .next (settle t) ∧ Answers s t r.ref 0 (BitVec.ofNat 64 (b.cmd.ref.index * 65536 + 1)) ∧
            t.cmds = s.cmds ∧ Frame s t answering) ∧
      (x.idx = r.idx → p.entry.tag.toNat = arg p 46 2 → ∃ t, exec (.abort p) s = .next (settle t) ∧
        Answers s t r.ref 0 (BitVec.ofNat 64 (r.ref.index * 65536 + 1)) ∧ t.cmds = s.cmds ∧ Frame s t answering)) ∧
    ∀ c, s.cmds.find? (fun d => d.ref.die == x.die && d.ref.ring == x.idx && d.entry.tag.toNat == arg p 46 2) = some c →
      (c.past = true → ∃ t, exec (.abort p) s = .next (settle t) ∧
        Answers s t r.ref 0 (BitVec.ofNat 64 (c.ref.index * 65536 + 1)) ∧ t.cmds = s.cmds ∧ Frame s t answering) ∧
      (c.past = false → ∃ t, exec (.abort p) s = .next (settle t) ∧
        Answers s t r.ref 0 (BitVec.ofNat 64 (c.ref.index * 65536)) ∧ Completes s t c.ref 0x0501 { retry := true } ∧
        t.cmds = s.cmds.filter (·.ref != c.ref) ∧ Frame s t (.destages :: .rfl :: answering))

/-- R249, R423, R450, R483, R484, R485, R496, R497, R498, R502, R503, R504: the commands that report: IDENTIFY of every CNS,
GET FEATURE, POOL STATUS, MEMBER STATUS, LOST BLOCK LIST, METER READ, TICK BUDGET REPORT, LOG READ and HEALTH REPORT: each
answers 0000h with its structure and changes nothing else. -/
def Obligations.ReportsAnswer : Prop :=
  ∀ (p : Post) (r : Ring) (s : State),
    (Permitted .identify p r s → 4096 ≤ p.entry.dlen.toNat →
      (arg p 44 1 = 0 → Reports .identify p r s (identity s r.die) 0 0) ∧
      (∀ l, arg p 44 1 = 1 →
        sortNat ((s.vols.filter fun v => v.deleting.isNone && permits (cmdOf .identify p r s) v).map (·.num)) = l →
        Reports .identify p r s (numberList ((l.drop (arg p 48 4)).take 2046)) l.length 0) ∧
      (∀ v, arg p 44 1 = 2 → s.vol? (arg p 46 2) = some v → v.deleting = none → permits (cmdOf .identify p r s) v = true →
        Reports .identify p r s (volumeBytes v) 0 0) ∧
      (s.isPf r.die r.fn = true →
        (arg p 44 1 = 3 → Reports .identify p r s (numberList (sortNat (s.pools.map (·.num)))) 0 0) ∧
        (∀ l, arg p 44 1 = 4 → (s.nss.drop (arg p 48 4)).take 63 = l →
          Reports .identify p r s (padTo 4096 (le 4 l.length ++ zeros 60 ++ l.flatMap (nsEntry s))) s.nss.length 0))) ∧
    (∀ q, Permitted .poolStatus p r s → s.pool? (arg p 44 2) = some q → 512 ≤ p.entry.dlen.toNat →
      Reports .poolStatus p r s (poolStatusBytes s q) 0 0) ∧
    (∀ q l, Permitted .memberStatus p r s → s.pool? (arg p 44 2) = some q → 64 ≤ p.entry.dlen.toNat →
      (memberEntries s q (arg p 46 2)).take (p.entry.dlen.toNat / 64) = l →
      Reports .memberStatus p r s l.flatten (q.geom.n + 65536 * q.pending.length) l.length) ∧
    (∀ q, Permitted .lostBlockList p r s → s.pool? (arg p 44 2) = some q → 16 ≤ p.entry.dlen.toNat →
      Reports .lostBlockList p r s (((q.lost.drop (arg p 48 4)).take (p.entry.dlen.toNat / 16)).flatMap lostEntry) q.lost.length
        ((q.lost.drop (arg p 48 4)).take (p.entry.dlen.toNat / 16)).length) ∧
    (∀ x, Permitted .meterRead p r s → s.tenant? (arg p 44 2) = some x → s.ringTenant r = none ∨ s.ringTenant r = some x.num →
      128 ≤ p.entry.dlen.toNat →
      Reports .meterRead p r s (meterRecord false 2 s.id.pkgid x.num 0 s.clk.optime 0 0 x.meters) s.clk.optime 0) ∧
    (∀ x, Permitted .tickBudgetReport p r s → s.die? (bits (arg p 44 1) 2 0) = some x → 256 ≤ p.entry.dlen.toNat →
      p.entry.dlen.toNat % 32 = 0 →
      Reports .tickBudgetReport p r s (budgetHeader (bits (arg p 44 1) 2 0) x ++
        (x.frame.budgets.take ((p.entry.dlen.toNat - 256) / 32)).flatMap budgetEntry) 0
        (x.frame.budgets.take ((p.entry.dlen.toNat - 256) / 32)).length) ∧
    (∀ l, Permitted .logRead p r s → s.log.indexing = false → 128 ≤ p.entry.dlen.toNat → p.entry.dlen.toNat % 64 = 0 →
      ((combined s).drop (arg p 48 4)).take ((p.entry.dlen.toNat - 128) / 64) = l →
      Reports .logRead p r s (logHeader s (combined s).length l.length ++ l.flatMap recBytes) 0 l.length) ∧
    (Permitted .healthReport p r s → 4096 ≤ p.entry.dlen.toNat →
      Reports .healthReport p r s (healthBytes s s.feat.healthSeq) 0 0) ∧
    (∀ v, Permitted .getFeature p r s → featureValue s (arg p 44 1) (arg p 46 2) = some v →
      (arg p 44 1 = 9 → ∀ x, s.vol? (arg p 46 2) = some x → permits (cmdOf .getFeature p r s) x = true) →
      (featureBuffer s (arg p 44 1) (arg p 46 2) = none →
        ∃ t, exec (.getFeature p) s = .next t ∧ Completes s t r.ref 0 { extra := padTo 16 v } ∧ Frame s t answering) ∧
      ∀ b, featureBuffer s (arg p 44 1) (arg p 46 2) = some b → b.length ≤ p.entry.dlen.toNat →
        ∃ t, exec (.getFeature p) s = .next t ∧ Puts s t (.buffer r.ref 0 b) ∧ Completes s t r.ref 0 { extra := padTo 16 v } ∧
          Frame s t answering)

/-- R160, R183, R366, R377, R418, R478, R484, R485, R486: SET FEATURE sets the value of the feature it names, in force from the next tick
boundary, or the next window for an event limit; the cache policy and the age limit are configuration, which the partner acknowledges; a
protected-region size that the dirty data does not fit yet, vault namespaces and a witness wait. A value outside the limits answers 0103h,
another tenant's volume 0302h, a wrong secret 0304h. -/
def Obligations.FeaturesSet : Prop :=
  ∀ (p : Post) (r : Ring) (s : State), Permitted .setFeature p r s →
    (∀ f, s.feat.next.getD s.feat.now = f →
      (arg p 44 1 = 1 → arg p 46 2 < 13 → arg p 48 1 ≤ 25 → Does .setFeature p r s 0 [.feat] fun t =>
        t.feat = { s.feat with next := some { f with resv := f.resv.set (arg p 46 2) (arg p 48 1) } }) ∧
      (arg p 44 1 = 1 → arg p 46 2 = 0xFFFF → arg p 48 1 ≤ 25 → Does .setFeature p r s 0 [.feat] fun t =>
        t.feat = { s.feat with next := some { f with resv := f.resv.map fun _ => arg p 48 1 } }) ∧
      (arg p 44 1 = 2 → arg p 46 2 = 0 → 1 ≤ arg p 48 1 → 1 ≤ arg p 49 1 → 1 ≤ arg p 50 1 →
        Does .setFeature p r s 0 [.feat] fun t =>
        t.feat = { s.feat with next := some { f with weights := [arg p 48 1, arg p 49 1, arg p 50 1] } }) ∧
      (arg p 44 1 = 3 → arg p 46 2 = 0 → arg p 48 1 ≤ 100 → 1 ≤ arg p 49 1 → arg p 49 1 ≤ 25 →
        Does .setFeature p r s 0 [.feat] fun t =>
        t.feat = { s.feat with next := some { f with share := arg p 48 1, floor := arg p 49 1 } })) ∧
    (∀ x, arg p 44 1 = 4 → arg p 46 2 ≠ 0xFFFF → s.die? (arg p 46 2) = some x → 1 ≤ arg p 48 2 → arg p 48 2 ≤ 3 * ddrGib x / 8 →
      (dirtyBytes s (arg p 46 2) ≤ arg p 48 2 * 2 ^ 30 → Does .setFeature p r s 0 [.feat, .health] fun t =>
        ∃ y, t.die? (arg p 46 2) = some y ∧ y.protGib = arg p 48 2) ∧
      (arg p 48 2 * 2 ^ 30 < dirtyBytes s (arg p 46 2) → Waits .setFeature p r s [.feat, .health, .pools] fun t =>
        (∃ y, t.die? (arg p 46 2) = some y ∧ y.protGib = x.protGib) ∧ (arg p 46 2, arg p 48 2) ∈ t.feat.protNext ∧
          (r.ref, 4, arg p 46 2) ∈ t.feat.waiters)) ∧
    (arg p 44 1 = 4 → arg p 46 2 = 0xFFFF → s.dies ≠ [] → 1 ≤ arg p 48 2 →
      (∀ d x, s.die? d = some x → arg p 48 2 ≤ 3 * ddrGib x / 8 ∧ dirtyBytes s d ≤ arg p 48 2 * 2 ^ 30) →
      Does .setFeature p r s 0 [.feat, .health] fun t => ∀ y ∈ t.dies, y.protGib = arg p 48 2) ∧
    (∀ ds : List Nat, arg p 44 1 = 5 → (if arg p 46 2 = 0xFFFF then s.dieIdx else [arg p 46 2]) = ds → ds ≠ [] →
      (∀ d ∈ ds, (s.die? d).isSome) → p.entry.dlen.toNat = 128 →
      (arg p 48 1 = 0 → arg p 49 1 = 0 → (∀ i, i < 4 → fieldAt (slice p.buf (32 * i) 32) 16 1 = 0) →
        Does .setFeature p r s 0 [.feat] fun t =>
          t.feat = { s.feat with later := s.feat.later ++ ds.map fun d => .hold d (arg p 52 4) }) ∧
      ∀ (l : List Bytes) (ns : List Ns), arg p 48 1 = 1 → 64 < arg p 52 4 →
        ((List.range 4).map fun i => slice p.buf (32 * i) 32).filter (fun b => fieldAt b 16 1 != 0) = l → l ≠ [] → l.length = arg p 49 1 →
        (∀ b ∈ l, fieldAt b 16 1 ≤ 2) → l.map (findNs s) = ns.map some →
        (∀ d ∈ ds, ∀ n ∈ ns, nsUse s (vaultReach s d) 3 (some n) = none ∧
          ((s.die? d).map fun x => x.protGib * 2 ^ 30 + 2 ^ 25).getD 0 ≤ nsBytes n) →
        Waits .setFeature p r s [.feat, .health] fun t => (r.ref, 5, arg p 46 2) ∈ t.feat.waiters ∧
          ∀ d ∈ ds, ∃ y, t.die? d = some y ∧ y.vault = true ∧ y.vaultNs = ns.map (·.id) ∧ y.holdUp = arg p 52 4 ∧ y.rateV = 0) ∧
    (arg p 44 1 = 6 → arg p 46 2 = 0 → arg p 48 8 % 4096 = 0 → Does .setFeature p r s 0 [.feat] fun t =>
      t.feat = { s.feat with later := s.feat.later ++ [.health (BitVec.ofNat 64 (arg p 48 8))] }) ∧
    (arg p 44 1 = 7 → arg p 46 2 = 0 → p.entry.dlen.toNat = 32 →
      (fieldAt p.buf 16 1 = 0 → Does .setFeature p r s 0 [.feat] fun t => t.feat = { s.feat with later := s.feat.later ++ [.noWitness] }) ∧
      ∀ n, 1 ≤ fieldAt p.buf 16 1 → fieldAt p.buf 16 1 ≤ 2 → findNs s p.buf = some n → nsUse s [] 4 (some n) = none →
        (2 ≤ (s.dieIdx.filter n.reaches).length → Waits .setFeature p r s [.feat, .pair] fun t =>
          t.pair = { s.pair with witness := some n.id, witnessSlow := false } ∧ (r.ref, 7, 0) ∈ t.feat.waiters) ∧
        ((s.dieIdx.filter n.reaches).length < 2 → Refuses .setFeature p r s 0x0157 false)) ∧
    (arg p 44 1 = 8 → unlimited (arg p 46 2) = false → Does .setFeature p r s 0 [.feat] fun t => (∀ k, limitOf t k = limitOf s k) ∧
      ∀ o, max (windowAt s.clk.optime) s.feat.limitsAt < windowAt o →
        limitOf { t with clk := { t.clk with optime := o } } (arg p 46 2) = arg p 48 1) ∧
    (∀ v, arg p 44 1 = 9 → s.vol? (arg p 46 2) = some v →
      (permits (cmdOf .setFeature p r s) v = true → arg p 48 1 ≤ 1 → Makes .setFeature p r s 0 [.feat] fun t =>
        t.feat = { s.feat with later := s.feat.later ++ [.policy (arg p 46 2) (arg p 48 1 == 1)] }) ∧
      (permits (cmdOf .setFeature p r s) v = false → Refuses .setFeature p r s 0x0302 false)) ∧
    (arg p 44 1 = 10 → (s.pool? (arg p 46 2)).isSome → 1 ≤ arg p 48 2 → Makes .setFeature p r s 0 [.feat] fun t =>
      t.feat = { s.feat with later := s.feat.later ++ [.age (arg p 46 2) (arg p 48 2)] }) ∧
    (∀ good : Bool, arg p 44 1 = 11 → arg p 46 2 = 0 → p.entry.dlen.toNat = 64 →
      (match s.log.secret with
        | none => slice p.buf 32 32 == zeros 32 && s.isPf r.die r.fn && (s.ringTenant r).isNone
        | some k => slice p.buf 32 32 == Config.hmac k (slice p.buf 0 32)) = good →
      (good = true → Does .setFeature p r s 0 [.feat] fun t =>
        t.feat = { s.feat with later := s.feat.later ++ [.secret (slice p.buf 0 32)] }) ∧
      (good = false → Refuses .setFeature p r s 0x0304 false)) ∧
    ((arg p 44 1 = 0 ∨ 11 < arg p 44 1) ∨ (arg p 44 1 = 1 ∧ ((13 ≤ arg p 46 2 ∧ arg p 46 2 ≠ 0xFFFF) ∨ 25 < arg p 48 1)) ∨
        (arg p 44 1 = 2 ∧ (arg p 46 2 ≠ 0 ∨ arg p 48 1 = 0 ∨ arg p 49 1 = 0 ∨ arg p 50 1 = 0)) ∨
        (arg p 44 1 = 3 ∧ (arg p 46 2 ≠ 0 ∨ 100 < arg p 48 1 ∨ arg p 49 1 = 0 ∨ 25 < arg p 49 1)) ∨
        (arg p 44 1 = 4 ∧ arg p 48 2 = 0) ∨ (arg p 44 1 = 6 ∧ (arg p 46 2 ≠ 0 ∨ arg p 48 8 % 4096 ≠ 0)) ∨
        (arg p 44 1 = 8 ∧ unlimited (arg p 46 2) = true) ∨ (arg p 44 1 = 9 ∧ s.vol? (arg p 46 2) = none) ∨
        (arg p 44 1 = 10 ∧ (s.pool? (arg p 46 2) = none ∨ arg p 48 2 = 0)) →
      Refuses .setFeature p r s 0x0103 false)

/-! ### Power states and restarts -/

/-- R307, R311, R312, R455, R456, R457, R458, R487: SET POWER STATE answers at once in the state asked for, starts a change to P0 or
P1 and waits, one to P2 or P3 when its prerequisites hold, refuses what may not be, and does nothing yet during a firmware activation;
the change's end enters the state with 6010h and answers; one not started in 250,000 ticks answers 0402h; urgent work raises P3 to P2 with
6016h. -/
def Obligations.PowerStatesChange : Prop :=
  (∀ (p : Post) (r : Ring) (s : State) (st cap : Nat), Permitted .setPowerState p r s → arg p 44 1 = st → arg p 48 4 = cap →
    (s.fw.active = false → (3 < st ∨ badCap s st cap = true → Refuses .setPowerState p r s 0x0103 false) ∧
      (st ≤ 3 → badCap s st cap = false →
        ((s.pw.chg.any fun g => g.cmd.isSome) = true → Refuses .setPowerState p r s 0x0402 true) ∧
        (s.pw.pstate = st → (st = 1 → s.pw.cap = cap) → s.pw.chg = none → Does .setPowerState p r s 0 [] fun t => t.pw = s.pw) ∧
        (s.pw.pstate ≠ st ∨ (st = 1 ∧ s.pw.cap ≠ cap) → s.pw.chg = none →
          (refusedState s st = true → Refuses .setPowerState p r s 0x0402 true) ∧
          (refusedState s st = false → Waits .setPowerState p r s [.pw] fun t => t.pw = { s.pw with chg := some ⟨st, cap, s.clk.tick,
            if mayChange (startOf .setPowerState p r s) st (some r.ref) then some s.clk.tick else none, some r.ref⟩ }) ∧
          (st < 2 → Waits .setPowerState p r s [.pw] fun t =>
            t.pw = { s.pw with chg := some ⟨st, cap, s.clk.tick, some s.clk.tick, some r.ref⟩ })))) ∧
    (s.fw.active = true → ∃ t, exec (.setPowerState p) s = .next t ∧ (∃ c, t.cmd? r.ref = some c ∧ c.stage = .stalled) ∧
      t.pw = s.pw ∧ Frame s t [.arb, .rings, .buckets, .cmds])) ∧
  (∀ (s : State) (g : PChange) (t0 : Nat), s.running = true → s.pw.chg = some g → g.started = some t0 →
    t0 + changeTicks s.pw.pstate g.target ≤ s.clk.tick → (s.die? s.id.lead).isSome →
    RunsOn .powerStateChangeDone s (.pw :: .run :: ending) fun t => t.pw.pstate = g.target ∧
      t.pw.cap = (if g.target = 1 then g.cap else 0) ∧ t.run.selfRefresh = (g.target == 3) ∧ Pending t s.id.lead 0x6010 ∧
      ∀ c, g.cmd = some c → t.cmd? c = none) ∧
  (∀ (s : State) (g : PChange) (c : CmdRef), s.running = true → s.pw.chg = some g → g.cmd = some c → g.started = none →
    s.fw.active = false → g.asked + 250000 ≤ s.clk.tick → (s.cmd? c).isSome → (s.ring? c.die c.ring).isSome →
    (s.die? c.die).any (·.linkUp) = true →
    RunsOn .powerStateTimeout s (.pw :: ending) fun t => t.pw = { s.pw with chg := none } ∧
      Completes s t c 0x0402 { retry := true }) ∧
  ∀ s : State, s.running = true → s.pw.pstate = 3 → s.pw.chg = none → urgentWork s = true → (s.die? s.id.lead).isSome →
    Runs .powerStateRaised s (.pw :: raising) fun t =>
      t.pw = { s.pw with chg := some ⟨2, 0, s.clk.tick, some (s.clk.tick + 1), none⟩ } ∧ Pending t s.id.lead 0x6016

/-- R463, R466, R467: FUNCTION REINIT, FLR and PERST_N stop the commands of a function (0503h), delete its rings and its endpoints
and clear its setup ring; FLR and PERST_N also clear its MSI-X table; PERST_N takes the port's link down, and its
deassertion trains it again. -/
def Obligations.FunctionsRestart : Prop :=
  (∀ (p : Post) (r : Ring) (s : State) (d f : Nat), Permitted .functionReinit p r s → bits (arg p 44 1) 2 0 = d →
    arg p 45 1 = f →
    (s.die? d).isSome → f ≤ 63 → (d ≠ r.die ∨ f ≠ r.fn) → (∀ m ∈ s.refl.msgs, m.cmd ≠ some r.ref) →
    Does .functionReinit p r s 0 [.fns, .link, .reg, .rfl, .eps, .qps, .regions, .wins, .msgs] fun t =>
      (∀ c ∈ t.cmds, c.ref.die = d → c.fn = f → pastAtDispatch c.op = true) ∧
      (∀ x ∈ t.rings, x.die = d → x.fn = f → x.state = .deleting) ∧ (∀ e ∈ t.refl.eps, e.die = d → e.fn ≠ f) ∧
      (∀ x, t.fn? d f = some x → x.setupEn = false ∧ x.xch = []) ∧ Pending t d 0x7031 ∧
      ∀ c q, s.cmd? c.ref = some c → c.ref.die = d → c.fn = f → pastAtDispatch c.op = false → writeKind c.op = false →
        s.ring? c.ref.die c.ref.ring = some q → q.notif = false → (s.die? d).any (·.linkUp) = true →
        (∀ m ∈ s.refl.msgs, m.cmd ≠ some c.ref) → Completes s t c.ref 0x0503 {}) ∧
  (∀ (d f : Nat) (s : State), s.on = true → s.alive d = true → 0 < s.run.phase → (s.die? d).any (·.linkUp) = true →
    Runs (.flr d f) s (.fns :: .link :: .reg :: .rfl :: .eps :: .qps :: .regions :: .wins :: .msgs :: ending) fun t =>
      (∀ x ∈ t.rings, x.die = d → x.fn ≠ f) ∧ (∀ e ∈ t.refl.eps, e.die = d → e.fn ≠ f) ∧
      ∀ x, t.fn? d f = some x → x.setupEn = false ∧ x.msix = [] ∧ x.pba = [] ∧ x.xch = []) ∧
  (∀ (d : Nat) (s : State), s.run.powered = true →
    Runs (.perstN d) s (.fns :: .health :: .hw :: .link :: .reg :: .rfl :: .eps :: .qps :: .regions :: .wins :: .msgs :: ending) fun t =>
      (∀ x, t.die? d = some x → x.linkUp = false ∧ x.perst = false ∧ x.hw.hostWidth = 0) ∧
      ∀ x ∈ t.rings, x.die = d → ∀ z ∈ s.fns, z.die = d → z.fn ≠ x.fn) ∧
  ∀ (d : Nat) (x : DieSt) (s : State), s.run.powered = true → s.die? d = some x → x.perst = false → x.alive = true →
    1 < s.run.phase →
    Runs (.perstNDeasserted d) s [.health, .hw, .out] fun t => (∃ y, t.die? d = some y ∧ y.perst = true ∧ y.linkUp = true ∧
      y.hw.hostWidth = widthOf (16 - (x.hw.lanesRetired.filter (· < 16)).length)) ∧ (s.ready = true → Puts s t (.readiness d))

/-! ### Registers -/

/-- R91, R93, R99, R102, R103: a doorbell within its bounds moves the tail, takes the doorbell tick for each entry it posts
and ends a hold; on a notification ring it gives back the notes consumed and with CLROVF clears the overflow; a bad one
raises 4002h and changes nothing else. -/
def Obligations.DoorbellsTaken : Prop :=
  ∀ (w : Win) (a : Acc) (r : Ring) (s : State), winRing s w = some r → s.ring? r.die r.idx = some r → actsAll s w.port = true →
    a.whole = true → r.state = .enabled →
    (r.notif = false →
      (doorbellOk r (a.field 31 31 == 1) (a.field 19 17) (a.field 16 16) (a.field 15 0) = true →
        Runs (.doorbell w a) s [.rings, .pw] fun t => (s.pw.pstate < 2 → t.pw = s.pw) ∧ ∃ x, t.ring? r.die r.idx = some x ∧
          x.tail = a.field 16 16 * r.size + a.field 15 0 ∧ x.head = r.head ∧ x.hold = none ∧ x.state = .enabled ∧
          x.bells.length = r.bells.length + distance r.size r.tail x.tail ∧
          x.bells.drop r.bells.length = List.replicate (distance r.size r.tail x.tail) s.clk.tick) ∧
      (doorbellOk r (a.field 31 31 == 1) (a.field 19 17) (a.field 16 16) (a.field 15 0) = false →
        Runs (.doorbell w a) s raising fun t => Pending t r.die 0x4002)) ∧
    (r.notif = true → ∀ used, distance r.size ((r.head + 2 * r.size - r.notes) % (2 * r.size)) (a.field 16 16 * r.size + a.field 15 0) = used →
      (a.field 15 0 < r.size → a.field 19 17 = 0 → used ≤ r.notes →
        (a.field 31 31 = 0 → Runs (.notificationDoorbell w a) s [.rings] fun t =>
          t.ring? r.die r.idx = some { r with notes := r.notes - used }) ∧
        (a.field 31 31 = 1 → Runs (.clearOvf w a) s [.rings] fun t =>
          t.ring? r.die r.idx = some { r with notes := r.notes - used, ovf := false })) ∧
      (r.notes < used → Runs (.notificationDoorbell w a) s raising fun t => Pending t r.die 0x4002))

/-- R78, R79, R97, R98, R107: INVALIDATE is taken with VALID 0; the next tick's intake tells which entries were dispatched and
holds the ring at the first that was not; SETUP_CFG.EN makes the setup ring of a function when its values are good, else shows
ERR, starts one that still drains anew, and takes it away again; a second failed fetch puts a ring in ERROR with 4004h. -/
def Obligations.RingRegisters : Prop :=
  (∀ (w : Win) (a : Acc) (r : Ring) (s : State), winRing s w = some r → s.ring? r.die r.idx = some r → actsAll s w.port = true →
    a.whole = true → r.notif = false →
    (1 ≤ a.field 21 16 → a.field 21 16 ≤ 32 → a.field 15 0 < r.size → Runs (.invalidate w a) s [.rings] fun t =>
      t.ring? r.die r.idx = some (writeInv (a.field 15 0) (a.field 21 16) (a.field 31 24) r) ∧
      (writeInv (a.field 15 0) (a.field 21 16) (a.field 31 24) r).inv.valid = false ∧
      ∀ q, processInvs r = q → (s.running && s.alive r.die) = true →
        ∃ x, (intakeRings [] t).ring? r.die r.idx = some x ∧ x.inv.valid = true ∧ x.inv.err = false ∧
          x.inv.seq = BitVec.ofNat 8 (a.field 31 24) ∧
          (∀ i, i < a.field 21 16 → x.inv.dispatched.getLsbD i = dispatchedIdx q ((a.field 15 0 + i) % r.size)) ∧
          (∀ i, i < a.field 21 16 → postedOff q ((a.field 15 0 + i) % r.size) ≠ none → x.hold.isSome) ∧
          x.head = r.head ∧ x.tail = r.tail) ∧
    (a.field 21 16 = 0 ∨ 32 < a.field 21 16 ∨ r.size ≤ a.field 15 0 → Runs (.invalidate w a) s [.rings] fun t =>
      (s.running && s.alive r.die) = true → ∃ x, (intakeRings [] t).ring? r.die r.idx = some x ∧ x.inv.valid = true ∧
        x.inv.err = true ∧ x.hold = (processInvs r).hold)) ∧
  (∀ (w : Win) (a : Acc) (f : FnSt) (s : State) (v : Nat), s.fn? w.port w.fn = some f → actsAll s w.port = true →
    w.window = 0 → a.low = true →
    (a.merge (setupCfg f)).toNat = v →
    (f.setupEn = false → bitAt v 4 = true → setupRing s w.port w.fn = none → s.isPf w.port w.fn = true →
      (bits v 3 0 ≤ 12 → bits v 26 16 < vectorsOf s w.port w.fn → Runs (.setupRingEnable w a) s [.rings, .fns] fun t =>
        (∃ g, t.fn? w.port w.fn = some g ∧ g.setupEn = true ∧ g.setupErr = false ∧ g.setupSize = bits v 3 0 ∧
          g.setupVector = bits v 26 16) ∧
        ∃ x, t.rings = s.rings ++ [x] ∧ x.setup = true ∧ x.state = .enabled ∧ x.idx = pfBase w.fn ∧ x.fn = w.fn ∧
          x.size = 2 ^ (bits v 3 0 + 4) ∧ x.base = f.setupBase ∧ x.head = 0 ∧ x.tail = 0) ∧
      (12 < bits v 3 0 ∨ vectorsOf s w.port w.fn ≤ bits v 26 16 → Runs (.setupRingEnable w a) s [.fns] fun t =>
        ∃ g, t.fn? w.port w.fn = some g ∧ g.setupEn = true ∧ g.setupErr = true)) ∧
    (∀ x, f.setupEn = false → bitAt v 4 = true → setupRing s w.port w.fn = some x →
      s.ring? x.die x.idx = some x → Runs (.setupRingEnable w a) s [.rings, .fns] fun t =>
        (∃ g, t.fn? w.port w.fn = some g ∧ g.setupEn = true ∧ g.setupErr = false) ∧ t.ring? x.die x.idx = some (renewRing x)) ∧
    (∀ x, f.setupEn = true → bitAt v 4 = false → setupRing s w.port w.fn = some x → inflight s x = 0 →
      Runs (.setupRingDisable w a) s [.rings, .fns] fun t => t.ring? x.die x.idx = none ∧
        ∃ g, t.fn? w.port w.fn = some g ∧ g.setupEn = false)) ∧
  ∀ (r : Ring) (s : State), s.ring? r.die r.idx = some r → s.running = true → s.alive r.die = true → canDispatch s r = true →
    Runs (.ringFetchError r.die r.idx) s (.rings :: .reg ::
      raising) fun t => t.ring? r.die r.idx = some { r with state := .error } ∧
      Puts s t (.aer r.die) ∧ Pending t r.die 0x4004 ∧ (s.reg.step < 2 → t.reg.step = 2 ∧ t.reg.code = 0x4004 ∧
        t.reg.die = r.die)

/-- R78, R93, R105, R409, R411, R454, R465, R507, R509, R513, R514, R524: what writes of the other registers do: the reset
command and the pin, the ladder's acknowledgement, pending bits, the metering head, a vector's unmasking, and the plain
registers, which keep what they do not take. -/
def Obligations.RegistersWritten : Prop :=
  (∀ (port : Nat) (a : Acc) (s : State), actsReset s port = true → a.whole = true → a.field 31 16 = 0xD1E5 → a.field 0 0 = 1 →
    ∃ t, exec (.gctlReset port a) s = .next t ∧ AfterReset s t) ∧
  (∀ s : State, s.run.powered = true → s.run.pfail = none → ∃ t, exec .resetN s = .next t ∧ AfterReset s t) ∧
  (∀ (port : Nat) (a : Acc) (s : State), actsSome s port = true → a.high = true → a.field 63 63 = 1 →
    Runs (.ladderAck port a) s [.reg] fun t => t.reg = { s.reg with ack := true }) ∧
  (∀ (d i : Nat) (a : Acc) (x : DieSt) (s : State), actsSome s d = true → s.die? d = some x →
    Runs (.evtPendClear d i a) s [.evt] fun t => ∃ y, t.die? d = some y ∧ y.evt.routes = x.evt.routes ∧
      ∀ q, q ∈ y.evt.pend ↔ q ∈ x.evt.pend ∧ ¬(q / 64 = i ∧ (a.merge 0).getLsbD (q % 64) = true)) ∧
  (∀ (d n : Nat) (b : W64) (a : Acc) (s : State), actsSome s d = true → d = s.id.lead → a.low = true →
    s.meter.ring = some (b, n) →
    0 < n → a.field 15 0 < n →
    (distance n (meterHeadPos n s.meter.head) (meterHeadPos n (BitVec.ofNat 17 (a.field 16 0))) ≤
        distance n (meterHeadPos n s.meter.head) s.meter.dhead →
      Runs (.meterHeadWrite d a) s [.meter] fun t => t.meter = { s.meter with head := BitVec.ofNat 17 (a.field 16 0) }) ∧
    (distance n (meterHeadPos n s.meter.head) s.meter.dhead <
        distance n (meterHeadPos n s.meter.head) (meterHeadPos n (BitVec.ofNat 17 (a.field 16 0))) →
      Runs (.meterHeadWrite d a) s raising fun t => Pending t d 0x4002)) ∧
  (∀ (d fn vec : Nat) (f : FnSt) (s : State), actsAll s d = true → vec < vectorsOf s d fn → s.fn? d fn = some f →
    Runs (.msixVectorUnmask d fn vec) s [.fns, .msixSent] fun t => (∃ g, t.fn? d fn = some g ∧
        msixOf g vec = { msixOf f vec with masked := false } ∧ vec ∉ g.pba) ∧
      (vec ∈ f.pba → (d, fn, vec) ∈ t.msixSent ∧ Puts t (sendMessages t) (.msix d fn vec))) ∧
  ∀ (port fn off : Nat) (a : Acc) (s : State), s.isPf port fn = true → a.width = 64 → off % 8 = 0 →
    (∀ x, actsSome s port = true → s.die? port = some x → 0x3000 ≤ off → off < 0x3800 →
      Runs (.registerWrite port fn off a) s [.evt] fun t =>
      ∃ y q, t.die? port = some y ∧ routeOf y.evt ((off - 0x3000) / 8) = q ∧
        q.count = (routeOf x.evt ((off - 0x3000) / 8)).count ∧
        q.msien = a.value.getLsbD 31 ∧ q.alerten = a.value.getLsbD 30 ∧ q.fn = bits a.value.toNat 21 16 ∧
          q.vector = bits a.value.toNat 10 0 ∧
        y.evt.pend = x.evt.pend) ∧
    (∀ f, actsAll s port = true → s.fn? port fn = some f → off = 0x20020 → setupRing s port fn = none →
      Runs (.registerWrite port fn off a) s [.fns] fun t =>
        t.fn? port fn = some { f with setupBase := BitVec.ofNat 64 (a.value.toNat / 4096 * 4096) }) ∧
    (∀ f, actsAll s port = true → s.fn? port fn = some f → 0x10000 ≤ off → (off - 0x10000) / 16 < vectorsOf s port fn →
      off < 0x14000 →
      (off - 0x10000) % 16 = 0 → Runs (.registerWrite port fn off a) s [.fns] fun t => ∃ g, t.fn? port fn = some g ∧
        msixOf g ((off - 0x10000) / 16) = { msixOf f ((off - 0x10000) / 16) with addr := a.value }) ∧
    (off < 0x3000 ∨ (0x8000 ≤ off ∧ off < 0x10000) → exec (.registerWrite port fn off a) s = .next s)

/-- R508, R519, R520, R521: a query written to an exchange window is answered in the window with its SEQ, VALID, STATUS and
bytes, while the package is HALTED too; a virtual function's query of 02h to 05h answers 0101h. -/
def Obligations.ExchangeAnswers : Prop :=
  ∀ (x : XchReq) (s : State), actsSome s x.port = true → x.window < xchWindows s x.port x.fn →
    (x.sel = 0 → x.arg = 0 → Runs (.xchIdentify x) s [.fns] (Shows x 0 ((identity s x.port).take 256))) ∧
    (s.isPf x.port x.fn = true →
      (∀ q, s.pool? x.sel.toNat = some q → x.arg = 0 ∨ x.arg = 256 →
        Runs (.xchPoolStatus x) s [.fns] (Shows x 0 (slice (poolStatusBytes s q) x.arg.toNat 256))) ∧
      (∀ q, s.pool? x.sel.toNat = some q → x.arg.toNat < 65536 →
        Runs (.xchMemberStatus x) s [.fns] (Shows x 0 (((memberEntries s q x.arg.toNat).take 4).flatten))) ∧
      (x.sel = 0 → x.arg.toNat % 256 = 0 → x.arg.toNat < 4096 →
        Runs (.xchHealthReport x) s [.fns] (Shows x 0 (slice (healthBytes s s.feat.healthSeq) x.arg.toNat 256))) ∧
      (x.sel = 0 → s.log.indexing = false →
        Runs (.xchLogRead x) s [.fns] (Shows x 0 ((((combined s).drop x.arg.toNat).take 4).flatMap recBytes)))) ∧
    (∀ m, x.arg = 0 → s.tenant? x.sel.toNat = some m →
      s.isPf x.port x.fn = true ∨ (s.fn? x.port x.fn).bind (·.tenant) = some x.sel.toNat →
      Runs (.xchMeterRead x) s [.fns] (Shows x 0 (meterRecord false 2 s.id.pkgid m.num 0 s.clk.optime 0 0 m.meters))) ∧
    (s.isPf x.port x.fn = false → ∀ c, c ∈ [Instr.xchPoolStatus x, .xchMemberStatus x, .xchHealthReport x, .xchLogRead x] →
      Runs c s [.fns] (Shows x 0x0101 []))

/-! ### Pools, volumes, background work -/

/-- R192, R218, R224, R251, R255, R261, R366, R478, R488, R489, R490: CREATE POOL whose namespaces need no format makes the pool and
answers its UID and sizes, in a pair once the partner has acknowledged the change, like every command that changes the configuration; DESTROY POOL of a pool without volumes removes it; ADD MEMBER attaches a pending member, RETIRE
MEMBER fails, drains or releases one, REPLACE MEMBER puts a new namespace at a failed index. -/
def Obligations.PoolsAndMembers : Prop :=
  ∀ (p : Post) (r : Ring) (s : State),
    (∀ c u, cmdOf .createPool p r s = c → startOf .createPool p r s = u → Permitted .createPool p r s →
      s.pair.state ≠ .separated →
      poolCheckCreate u c = none →
      (∀ n ∈ poolNs u c, nsFit u (poolB u c) (bitAt (fieldAt p.buf 10 1) 0) (bitAt (fieldAt p.buf 10 1) 1)
        (fun n => Geom.nrows { poolGeom u c 0 with z := nsBlocks (poolB u c) n } == 0) n = .ok false) →
      ∃ t q, exec (.createPool p) s = .next t ∧ t.pool? (arg p 44 2) = some q ∧
        (s.pair.state ≠ .paired → Completes s t r.ref 0 { result := q.geom.uid, extra := le 8 q.geom.nrows ++ le 8 q.geom.tiles }) ∧
        (s.pair.state = .paired → ∃ d, t.cmd? r.ref = some d ∧ d.stage = .waiting ∧
          d.told = some ⟨q.geom.uid, le 8 q.geom.nrows ++ le 8 q.geom.tiles, none⟩) ∧ q.home = fieldAt p.buf 2 1 ∧
        q.shadow = some (fieldAt p.buf 3 1) ∧ q.geom = poolGeom u c q.geom.uid ∧
        q.members = ((poolNs u c).map fun n => { state := .online, ns := n.id }) ∧ q.pending = [] ∧ t.uids = q.geom.uid ::
          s.uids ∧
        Frame s t (.pools :: .nss :: .uids :: .free :: answering)) ∧
    (∀ q, Permitted .destroyPool p r s → s.pool? (arg p 44 2) = some q →
      ((∀ v ∈ s.vols, v.pool ≠ q.num) → Makes .destroyPool p r s 0 [.jr, .cache, .vols, .destages, .pools, .nss] fun t =>
        t.pools = (s.pools.filter fun x => x.num != arg p 44 2)) ∧
      ((∃ v ∈ s.vols, v.pool = q.num) → q.offline = none → Refuses .destroyPool p r s 0x0402 true)) ∧
    (∀ q n, Permitted .addMember p r s → s.pool? (arg p 44 2) = some q → q.reshape = none → p.entry.dlen.toNat = 32 →
      fieldAt p.buf 16 1 = 1 ∨ fieldAt p.buf 16 1 = 2 → (∀ d ∈ q.home :: q.shadow.toList, reaches s d < 256) →
      joinCheck (startOf .addMember p r s) (cmdOf .addMember p r s) q (arg p 46 1) = .ok (n, false) →
      Makes .addMember p r s q.pending.length [.pools, .nss] fun t =>
        t.pool? (arg p 44 2) = some { q with pending := q.pending ++ [{ state := .online, ns := n.id }] }) ∧
    (∀ q, Permitted .retireMember p r s → s.pool? (arg p 44 2) = some q →
      (∀ m, q.members[arg p 46 2]? = some m → arg p 46 2 < 0x8000 → m.state = .online ∨ m.state = .suspect →
        (bitAt (arg p 48 1) 0 = false → (∀ x ∈ s.pools, x.num ≠ q.num → ∀ y ∈ x.members ++ x.pending, y.ns ≠ m.ns) →
          (∀ (j : Nat) (y : Member), q.members[j]? = some y → y.ns = m.ns → j = arg p 46 2) →
          Makes .retireMember p r s 0 [.jr, .destages, .pools, .vols] fun t => ∃ q' m', t.pool? (arg p 44 2) = some q' ∧
            q'.members[arg p 46 2]? = some m' ∧ m'.state = .failed ∧ m'.cause = 7 ∧ m'.ns = m.ns) ∧
        (∀ k, bitAt (arg p 48 1) 0 = true → q.reshape = none → freeSlot q.geom.s q.members = some k →
          Makes .retireMember p r s 0 [.pools] fun t => t.pool? (arg p 44 2) =
            some { q with members := q.members.modify (arg p 46 2) fun m => { m with state := .draining, slot := some k } })) ∧
      (∀ m, 0x8000 ≤ arg p 46 2 → q.pending[arg p 46 2 - 0x8000]? = some m → q.reshape = none → bitAt (arg p 48 1) 0 = false →
        Makes .retireMember p r s 0 [.pools, .nss] fun t =>
          t.pool? (arg p 44 2) = some { q with pending := q.pending.eraseIdx (arg p 46 2 - 0x8000) })) ∧
    ∀ q m n, Permitted .replaceMember p r s → s.pool? (arg p 44 2) = some q → p.entry.dlen.toNat = 32 →
      fieldAt p.buf 16 1 = 1 ∨ fieldAt p.buf 16 1 = 2 → arg p 46 2 < q.geom.n → q.members[arg p 46 2]? = some m →
        m.state = .failed → q.unsettled = false →
      joinCheck (startOf .replaceMember p r s) (cmdOf .replaceMember p r s) q (arg p 48 1) = .ok (n, false) →
      Makes .replaceMember p r s 0 [.pools, .nss] fun t => ∃ q', t.pool? (arg p 44 2) = some q' ∧
        q'.members = q.members.modify (arg p 46 2) (replaced n.id) ∧ q'.labelGen = q.labelGen + 1 ∧ q'.pending = q.pending

/-- R199, R200, R265, R366, R478, R491, R492, R493: CREATE VOLUME gives the volume the lowest free units, all reading as zeros; DELETE
VOLUME with nothing in flight removes it with its cached blocks; RESIZE VOLUME gives units, keeps them, or takes them
away. -/
def Obligations.VolumesChange : Prop :=
  ∀ (p : Post) (r : Ring) (s : State),
    (∀ v q us, volumeOf (cmdOf .createVolume p r s) = v → Permitted .createVolume p r s → s.pair.state ≠ .separated →
      volFieldsOk s v = true → s.vol? v.num = none → s.pool? v.pool = some q → v.big = q.geom.big → q.reshape = none →
      poolCheck (some q) = none → allocate s q q.geom.tb (ceilDiv v.blocks q.geom.tb) = some us →
      us.Nodup ∧ (∀ e ∈ us, unitTaken (ownedRanges s q.num) q.geom.tb e = false) ∧
        Makes .createVolume p r s us.length [.vols, .jr] fun t =>
        t.vols = s.vols ++ [{ v with x := q.geom.tb, extents := us, zero := List.range us.length }]) ∧
    (∀ v, Permitted .deleteVolume p r s → s.vol? (arg p 44 2) = some v → volBusy s v.num = false →
      (∀ x ∈ s.vols, x.deleting ≠ some r.ref) → Makes .deleteVolume p r s 0 [.vols, .cache, .jr, .pools] fun t =>
        t.vols = (s.vols.filter fun x => x.num != v.num) ∧ t.cache = s.cache.filter fun b => b.vol != v.num) ∧
    ∀ v q n w, Permitted .resizeVolume p r s → s.vol? (arg p 44 2) = some v → s.pool? v.pool = some q → q.reshape = none →
      arg p 56 8 = n → 1 ≤ n → ceilDiv n v.x = w →
      (∀ us, v.extents.length < w → allocate s q v.x (w - v.extents.length) = some us →
        Makes .resizeVolume p r s w [.vols, .jr] fun t =>
        t.vol? v.num = some { v with blocks := n, extents := v.extents ++ us, zero := v.zero ++ (List.range us.length).map (· + v.extents.length) }) ∧
      (w ≤ v.extents.length → v.blocks ≤ n →
        Makes .resizeVolume p r s w [.vols] fun t => t.vol? v.num = some { v with blocks := n }) ∧
      (w ≤ v.extents.length → n < v.blocks → Makes .resizeVolume p r s w [.vols, .cache, .jr, .pools] fun t =>
        t.vol? v.num = some { v with
          blocks := n
          extents := v.extents.take w
          zero := v.zero.filter fun i => decide (i < w)
          written := cutRuns n (2 ^ 64) v.written } ∧
        t.cache = s.cache.filter fun b => !(b.vol == v.num && decide (n ≤ b.lba)))

/-- R231, R233, R234, R236, R238, R243, R244, R247, R252, R307, R495: REBUILD CONTROL pauses and goes on; a sweep starts with
3100h and the next sweep number, and again with 3101h after a member failed and the tiles in flight are over, or ends with 3102h where
nothing is left to do; the writes of a tile in flight go out, and once they are over its work is done; a changed lost block list
goes to every member in use; the writes of a tile copied back go out, and once they are over it is on the replacement. -/
def Obligations.RebuildsAdvance : Prop :=
  (∀ (p : Post) (r : Ring) (s : State) (q : Pool), Permitted .rebuildControl p r s → s.pool? (arg p 44 2) = some q →
    (q.rebuild.running = true →
      (arg p 46 1 = 0 → Does .rebuildControl p r s 0 [.pools, .jr] fun t =>
        t.pool? (arg p 44 2) = some { q with rebuild := { q.rebuild with paused := true } }) ∧
      (arg p 46 1 = 1 → Does .rebuildControl p r s 0 [.pools] fun t =>
        t.pool? (arg p 44 2) = some { q with rebuild := { q.rebuild with paused := false } })) ∧
    (q.rebuild.running = false → arg p 46 1 ≤ 1 → Does .rebuildControl p r s 0 [] fun _ => True)) ∧
  ∀ (n : Nat) (q : Pool) (s : State), s.pool? n = some q → poolRuns s q = true →
    (q.unsettled = false → q.rebuild.running = false → sweepAllowed s q = true → copiesOwed s q = false →
      Runs (.rebuildStarted n) s (.pools :: .jr :: raising) fun t =>
        ∃ q', t.pool? n = some q' ∧ q'.rebuild.running = true ∧ q'.rebuild.sweep = (q.rebuild.sweep + 1) % 65536 ∧
          (q'.rebuild.records.getLast?).map (·.num) = some q'.rebuild.sweep ∧ q'.members = q.members ∧ Pending t q.home 0x3100) ∧
    (q.unsettled = false → q.rebuild.running = true → q.rebuild.resort = true → q.rebuild.flight = [] →
      (workLeft s q ≠ [] → Runs (.rebuildResorted n) s (.pools :: .jr :: raising) fun t =>
        ∃ q', t.pool? n = some q' ∧ q'.rebuild.resort = false ∧ q'.rebuild.sweep = (q.rebuild.sweep + 1) % 65536 ∧
          q'.members = q.members ∧ Pending t q.home 0x3100 ∧ Pending t q.home 0x3101) ∧
      (workLeft s q = [] → Runs (.rebuildResorted n) s (.pools :: .jr :: raising) fun t =>
        ∃ q', t.pool? n = some q' ∧ q'.rebuild.running = false ∧ q'.rebuild.records = [] ∧ q'.members = q.members ∧
          Pending t q.home 0x3101 ∧ Pending t q.home 0x3102)) ∧
    (∀ (tile : Nat) (new : Bool), q.rebuild.running = true → (new, tile) ∈ q.rebuild.flight → heldWork s (.rebuild n) = false →
      tileHeld s q new tile = false →
      (∀ bad, RunsOn (.rebuildTileDone n tile new bad) s (.uniq :: failing) fun t => ∃ q',
        t.pool? n = some q' ∧ q'.rebuild.jobs = q.rebuild.jobs ++ [tileJob q new tile] ∧ q'.members.map (·.state) = q.members.map (·.state)) ∧
      ((∀ st ∈ (q.geomOf new).stripesOf tile, q.lack new st ≤ (q.geomOf new).m) → RunsOn (.rebuildTileDone n tile new []) s
        [.mcmds, .pools, .uniq] fun t => (∃ q', t.pool? n = some q' ∧ q'.lost = q.lost ∧ q'.members = q.members) ∧
          ∃ l, t.mcmds = s.mcmds ++ l ∧ ∀ m ∈ l, m.isWrite = true ∧ m.pool = some n ∧
            ∃ st ∈ (q.geomOf new).stripesOf tile, m.purpose = .work new st)) ∧
    (∀ (j : TileJob) (x : Nat), j ∈ q.rebuild.jobs → j.copy = none → (x, false) ∈ j.work → x ∉ j.again → q.owes j.new x j.tile = true →
      q.stateAt j.new x ≠ some .replacing → (∀ m ∈ q.members ++ q.pending, m.state ≠ .draining ∧ m.state ≠ .replacing) →
      ∃ q', (endTile n j s).pool? n = some q' ∧ q'.isDone j.new x j.tile = true ∧ j ∉ q'.rebuild.jobs) ∧
    (q.listDirty = true → Runs (.lostListWrite n) s [.pools, .out] fun t => ∃ q', t.pool? n = some q' ∧
      q' = { q with listGen := q.listGen + 1, listDirty := false } ∧
      ∀ m ∈ q.members, m.state ≠ .failed → ∃ off, Puts s t (.header m.ns off (lostListBytes q'))) ∧
    ∀ (x tile : Nat) (new : Bool), (((copyLeft s q).filter fun w => w.1 == new && w.2.1 == x).map (·.2.2)).min? = some tile →
      tileHeld s q new tile = false → heldWork s (.copyBack n) = false → powerStops s 5 = false →
      (RunsOn (.copyBackTile n x tile new) s (.uniq :: failing) fun t => ∃ q', t.pool? n = some q' ∧
        q'.rebuild.jobs = q.rebuild.jobs ++ [⟨new, tile, some x, [], []⟩] ∧ q'.members.map (·.state) = q.members.map (·.state)) ∧
      ∀ j ∈ q.rebuild.jobs, j.new = new → j.copy = some x → q.owesCopy new x j.tile = true →
        (∃ tile', tile' ≠ j.tile ∧ tile' ∈ workTiles s q new ∧ q.owesCopy new x tile' = true) →
        ((q.members ++ q.pending).map (·.ns)).Nodup → (∀ m ∈ q.members ++ q.pending, m.state ≠ .draining) → q.reshape = none →
        ∃ q', (endCopy n x j s).pool? n = some q' ∧ q'.isCopied new x j.tile = true ∧ j ∉ q'.rebuild.jobs

/-- R256, R257, R284, R307, R495: SCRUB CONTROL sets what it names; a pass starts when its period has passed, or 3122h is raised
while one runs, or the power state or a reshape holds it off; a tile without findings moves the pass on and repairs nothing; the last one
ends the pass with 3123h, and the next starts at once, with 3122h, where its period has passed. -/
def Obligations.ScrubsAdvance : Prop :=
  (∀ (p : Post) (r : Ring) (s : State) (q : Pool), Permitted .scrubControl p r s → s.pool? (arg p 44 2) = some q →
    arg p 46 1 ≤ 3 →
    (arg p 56 8 = 0 ∨ 250000 ≤ arg p 56 8) →
    ((arg p 46 1 = 2 → q.scrub.running = true ∨ q.reshape ≠ none) → Does .scrubControl p r s 0 [.pools] fun t =>
      t.pool? (arg p 44 2) = some { q with scrub := {
        q.scrub with
          period := if arg p 56 8 = 0 then q.scrub.period else arg p 56 8,
          on := if arg p 46 1 = 0 then false else if arg p 46 1 = 3 then q.scrub.on else true } }) ∧
    (arg p 46 1 = 2 → q.scrub.running = false → q.reshape = none → q.offline = none → workTiles s q false ≠ [] →
      Does .scrubControl p r s 0 [.pools, .jr] fun t => ∃ q', t.pool? (arg p 44 2) = some q' ∧ q'.scrub.running = true ∧
        q'.scrub.on = true ∧ q'.scrub.pass = q.scrub.pass + 1 ∧ q'.scrub.started = s.clk.tick)) ∧
  ∀ (n : Nat) (q : Pool) (s : State), s.pool? n = some q → poolRuns s q = true → q.scrub.on = true →
    (q.scrub.started + q.scrub.period ≤ s.clk.tick →
      (q.reshape = none → q.scrub.running = false → powerStops s 5 = false → workTiles s q false ≠ [] → Runs (.scrubPassStart n) s (.pools :: .jr ::
        raising) fun t =>
        ∃ q', t.pool? n = some q' ∧ q'.scrub.running = true ∧ q'.scrub.pass = q.scrub.pass + 1 ∧ q'.scrub.tile = 0 ∧
          q'.scrub.started = s.clk.tick ∧ q'.scrub.mismatch = 0 ∧ q'.scrub.repaired = 0) ∧
      (q.reshape ≠ none ∨ ((q.scrub.running = true ∨ powerStops s 5 = true) ∧ q.scrub.behind = false) → Runs (.scrubPassStart n) s (.pools ::
        raising) fun t =>
        Pending t q.home 0x3122)) ∧
    ∀ tile, q.scrub.running = true → q.reshape = none → scrubNext s q = some tile → tileHeld s q false tile = false →
      heldWork s (.scrub n) = false → powerStops s 5 = false →
      ((∃ tile', tile < tile' ∧ tile' ∈ workTiles s q false) →
        RunsOn (.scrubTile n tile []) s [.pools, .jr] fun t => ∃ q', t.pool? n = some q' ∧
          q' = { q with scrub := { q.scrub with tile := tile + 1 } }) ∧
      ((∀ tile' ∈ workTiles s q false, tile' ≤ tile) →
        RunsOn (.scrubTile n tile []) s (.pools :: .jr :: raising) fun t => Pending t q.home 0x3123 ∧ ∃ q', t.pool? n = some q' ∧
          q'.scrub.ended = s.clk.tick ∧ q'.lost = q.lost ∧ q'.members = q.members ∧
          (s.clk.tick < q.scrub.started + q.scrub.period → q'.scrub.running = false ∧ q'.scrub.pass = q.scrub.pass) ∧
          (q.scrub.started + q.scrub.period ≤ s.clk.tick → q'.scrub.running = true ∧ q'.scrub.pass = q.scrub.pass + 1 ∧
            q'.scrub.started = s.clk.tick ∧ (q.scrub.behind = false → Pending t q.home 0x3122)))

/-- R262, R263, R264, R270, R271, R274, R275, R277, R279, R280, R281, R366, R478, R494, R495: RESHAPE PLAN keeps a plan and answers its
number and figures; RESHAPE START begins it with 3140h; RESHAPE CONTROL pauses, resumes and cancels, at the step boundary where a step
is in flight; a mitre step stages and locks its range under a new intent, writes once that is mirrored, and commits and moves the
line once the writes are over; a veneer build writes the next tile, which counts as built once the writes are over; the switch
makes the new geometry the pool's, a cancel leaves the old one and its commands complete. -/
def Obligations.ReshapesAdvance : Prop :=
  (∀ (p : Post) (r : Ring) (s : State) (q : Pool), s.pool? (arg p 44 2) = some q →
    (∀ mitre x, Permitted .reshapePlan p r s → planCheck (cmdOf .reshapePlan p r s) q = .ok mitre →
      makePlan (cmdOf .reshapePlan p r s) q mitre s = x → Does .reshapePlan p r s s.nextPlan [.pools, .nextPlan, .free] fun t =>
        t.pool? (arg p 44 2) = some { q with plan := some x } ∧ t.nextPlan = (s.nextPlan + 1) % 2 ^ 32 ∧
        Puts s t (.buffer r.ref 320 (planFigures x))) ∧
    (∀ x, Permitted .reshapeStart p r s → startCheck s q (arg p 48 4) = .ok x → s.alive q.home = true →
      Makes .reshapeStart p r s 0 [.pools, .nss, .jr, .uids, .free] fun t => ∃ q' y, t.pool? (arg p 44 2) = some q' ∧
        q'.reshape = some y ∧ y = beginReshape s q x y.uid ∧ q'.geom = q.geom ∧ t.uids = y.uid :: s.uids ∧
          Pending t q.home 0x3140) ∧
    ∀ y, Permitted .reshapeControl p r s → q.reshape = some y → s.alive q.home = true →
      (arg p 46 1 = 0 → 0 ∉ y.reasons →
        (stepOpen q = false → Does .reshapeControl p r s 0 [.pools, .jr] fun t =>
          t.pool? (arg p 44 2) = some { q with reshape := some { y with reasons := insNat 0 y.reasons } } ∧
            Pending t q.home 0x3141) ∧
        (stepOpen q = true → Does .reshapeControl p r s 0 [.pools] fun t =>
          t.pool? (arg p 44 2) = some { q with reshape := some { y with pauseAsked := true } })) ∧
      (arg p 46 1 = 0 → 0 ∈ y.reasons → Does .reshapeControl p r s 0 [] fun _ => True) ∧
      (arg p 46 1 = 1 → 0 ∈ y.reasons → Does .reshapeControl p r s 0 [.pools] fun t =>
        t.pool? (arg p 44 2) = some { q with reshape := some { y with reasons := y.reasons.filter (· != 0), pauseAsked := false } } ∧
          Pending t q.home 0x3142) ∧
      (arg p 46 1 = 1 → 0 ∉ y.reasons → Does .reshapeControl p r s 0 [.pools] fun t =>
        t.pool? (arg p 44 2) = some { q with reshape := some { y with pauseAsked := false } }) ∧
      (arg p 46 1 = 2 → y.cancelling = false → y.cancelAsked = none →
        (stepOpen q = false → Waits .reshapeControl p r s [.pools] fun t =>
          t.pool? (arg p 44 2) = some { q with reshape := some (beginCancel r.ref y) }) ∧
        (stepOpen q = true → Waits .reshapeControl p r s [.pools] fun t =>
          t.pool? (arg p 44 2) = some { q with reshape := some { y with cancelAsked := some r.ref } })) ∧
      (arg p 46 1 = 2 → y.cancelling = true ∨ y.cancelAsked.isSome → Does .reshapeControl p r s 0 [] fun _ => True)) ∧
  ∀ (n : Nat) (q : Pool) (y : Reshape) (s : State), s.pool? n = some q → q.reshape = some y →
    (∀ tile lo hi, y.plan.mitre = true → reshapeRuns s q = true → stepRange q y = (tile, lo, hi) →
      (y.reasons = [] → reasonsNow s q y = [] → (mirrorPeer s q).isSome → atEnd y = false → q.lock = none →
        stepHeld s q tile lo hi = false →
        (((ownedRanges s q.num).any fun x => decide (x.1 < hi) && decide (lo < x.2)) = true →
          RunsOn (.mitreStep n) s (.cache :: .uniq :: failing) fun t => ∃ q' j, t.pool? n = some q' ∧ q'.reshape = some y ∧
            q'.lock = some { lo := lo, hi := hi, since := s.clk.tick, cls := 3, tile := tile, new := !y.undo, jsn := j } ∧
            (∀ x ∈ ownedIn s q lo hi, ∃ b ∈ t.cache, b.vol = x.1.num ∧ b.lba = x.2 ∧ b.dirty = true ∧ b.pinned = true) ∧
            ((∀ x ∈ ownedIn s q lo hi, (stagedContent s q x.1 x.2).isSome) → j = nextJsn s q.home)) ∧
        (((ownedRanges s q.num).any fun x => decide (x.1 < hi) && decide (lo < x.2)) = false →
          RunsOn (.mitreStep n) s [.pools, .jr] fun t => ∃ q', t.pool? n = some q' ∧ q'.lock = none ∧
            q'.reshape = some (moveLine lo hi 1 y))) ∧
      ∀ k, q.lock = some k → k.done = false → k.written = false → k.since < s.clk.tick → stagedMirrored s q k.lo k.hi = true →
        mirroredAt s q.home k.jsn = true → RunsOn (.mitreStep n) s [.pools, .mcmds, .uniq] fun t => ∃ q', t.pool? n = some q' ∧
          q'.reshape = some y ∧ q'.geom = q.geom ∧ q'.lock = some { k with written := true } ∧
          ∀ m ∈ t.mcmds, m ∈ s.mcmds ∨ (m.isWrite = true ∧ m.pool = some n)) ∧
    (∀ k, q.lock = some k → k.written = true → k.done = false → s.pools = [q] → s.serves q.home = true → q.away = false →
      journalRoom s q.home = true → workOpen s q k.new k.tile = false →
      ∃ q' z, (endSteps s).pool? n = some q' ∧ q'.geom = q.geom ∧ q'.members = q.members ∧ q'.reshape = some z ∧
        q'.lock = some { k with done := true, since := s.clk.tick } ∧
        (y.pauseAsked = false → y.cancelAsked = none → z = moveLine k.lo k.hi 0 y) ∧
        (y.pauseAsked = false → ∀ c, y.cancelAsked = some c → z = beginCancel c { moveLine k.lo k.hi 0 y with cancelAsked := none }) ∧
        (y.pauseAsked = true → 0 ∈ z.reasons)) ∧
    (∀ tile vol lba, y.plan.mitre = false → y.cancelling = false → y.reasons = [] → reasonsNow s q y = [] → reshapeRuns s q = true →
      nextBuild y = some (tile, vol, lba) → y.building = none → buildHeld s q vol lba y.plan.nt = false →
      RunsOn (.veneerBuild n) s (.uniq :: failing) fun t => ∃ q', t.pool? n = some q' ∧
        q'.reshape = some { y with building := some tile } ∧ q'.geom = q.geom) ∧
    (∀ tile, y.building = some tile → s.pools = [q] → s.serves q.home = true → q.away = false → journalRoom s q.home = true →
      workOpen s q true tile = false →
      ∃ q' z, (endBuilds s).pool? n = some q' ∧ q'.geom = q.geom ∧ q'.reshape = some z ∧ z.building = none ∧
        z.built = insNat tile y.built) ∧
    (y.plan.mitre = false → y.cancelling = false → y.reasons = [] → reshapeRuns s q = true → nextBuild y = none →
      (∀ d ∈ s.destages, d.pool ≠ n) → (∀ c ∈ s.cmds, c.fetches = []) →
      RunsOn (.veneerSwitch n) s (.pools :: .jr :: .cache :: .destages :: .cmds :: .mcmds :: .vols :: .nss ::
        raising) fun t => ∃ q',
        t.pool? n = some q' ∧ q'.geom = y.geom ∧ q'.reshape = none ∧ q'.plan = none ∧ q'.pending = [] ∧
        q'.members = newMembers q y ∧ Pending t q.home 0x3143) ∧
    (cancelReady s q y = true → RunsOn (.reshapeCancelled n) s (.pools :: .jr :: .cache :: .nss :: ending) fun t => ∃ q',
      t.pool? n = some q' ∧ q'.geom = q.geom ∧ q'.reshape = none ∧ q'.plan = none ∧ q'.members = q.members ∧
      (∀ c ∈ y.cancellers, t.cmd? c = none) ∧ Pending t q.home 0x3144)

/-! ### Tenants and keys -/

/-- R366, R434, R436, R440, R450, R478, R499, R500: CREATE TENANT and DELETE TENANT make and remove a tenant, BIND binds a ring, a
virtual function with its rings, or an endpoint, SET TENANT QOS gives the values that hold from the next tick, METER CONFIG
the metering ring and its phase. -/
def Obligations.TenantsChange : Prop :=
  ∀ (p : Post) (r : Ring) (s : State) (n : Nat), arg p 44 2 = n →
    (Permitted .createTenant p r s → s.pair.state ≠ .separated → n < 1024 → s.tenant? n = none → s.tenants.length < 1024 →
      Makes .createTenant p r s 0 [.tenants] fun t => t.tenant? n = some { num := n } ∧
        t.tenants.length = s.tenants.length + 1) ∧
    (∀ x, Permitted .deleteTenant p r s → s.tenant? n = some x →
      (tenantBusy s x = false → Makes .deleteTenant p r s 0 [.tenants, .buckets] fun t => t.tenant? n = none ∧
        ∀ b ∈ t.buckets, b.tenant ≠ n) ∧
      (tenantBusy s x = true → Refuses .deleteTenant p r s 0x0402 true)) ∧
    (∀ (o : Nat) (w : Option Nat), Permitted .bind p r s → (n = 0xFFFF ∧ w = none ∨ w = some n ∧ n ≠ 0xFFFF ∧
      (s.tenant? n).isSome) → arg p 48 2 = o →
      (∀ x, bits (arg p 46 1) 1 0 = 0 → s.ring? (o / 512) (o % 512) = some x → x.notif = false →
        (x.setup = true → s.isPf x.die x.fn = false) →
        ((s.fn? x.die x.fn).bind (·.tenant) = none ∨ (s.fn? x.die x.fn).bind (·.tenant) = w) →
        Does .bind p r s 0 [] fun t => ∃ y, t.ring? (o / 512) (o % 512) = some y ∧ y.tenant = w) ∧
      (bits (arg p 46 1) 1 0 = 1 → bits o 10 8 * 256 + bits o 5 0 = o → bits o 5 0 ≠ 0 → (s.die? (bits o 10 8)).isSome →
        Does .bind p r s 0 [.fns] fun t => (∃ f, t.fn? (bits o 10 8) (bits o 5 0) = some f ∧ f.tenant = w) ∧
          ∀ x ∈ t.rings, x.die = bits o 10 8 → x.fn = bits o 5 0 → x.tenant = none) ∧
      (∀ e, bits (arg p 46 1) 1 0 = 2 →
        epAddr s.id.pkgid (epDie (BitVec.ofNat 16 o)) (epNum (BitVec.ofNat 16 o)) = BitVec.ofNat 16 o →
        epPkg (BitVec.ofNat 16 o) = s.id.pkgid → s.ep? (epDie (BitVec.ofNat 16 o)) (epNum (BitVec.ofNat 16 o)) = some e →
        Does .bind p r s 0 [.eps] fun t => ∃ e', t.ep? e.die e.ep = some e' ∧ e' = { e with tenant := w })) ∧
    (∀ x, Permitted .setTenantQos p r s → s.tenant? n = some x → 1 ≤ arg p 50 2 → 1 ≤ arg p 52 2 →
      Does .setTenantQos p r s 0 [.tenants] fun t => ∃ y q, t.tenant? n = some y ∧ y.qos = x.qos ∧ y.qosNext = some q ∧
        q.maxClass = bits (arg p 48 1) 1 0 ∧ q.opsRate = arg p 56 4 ∧ q.opsBurst = arg p 50 2 ∧ q.byteRate = arg p 60 4 ∧
        q.byteBurst = arg p 52 2 ∧ q.crDefault = bitAt (arg p 49 1) 0) ∧
    (Permitted .meterConfig p r s →
      (bitAt (arg p 44 1) 0 = true → bits (arg p 45 1) 2 0 ≤ 5 ∧ bits (arg p 46 2) 10 0 < 1024 ∧ arg p 48 8 % 4096 = 0) →
      (bitAt (arg p 44 1) 1 = true → arg p 56 4 ≤ 14999999 ∧ ¬(s.pair.state = .paired ∧ s.id.pkgid = 1)) →
      Does .meterConfig p r s 0 [.meter] fun t =>
        (bitAt (arg p 44 1) 0 = true → t.meter.ring = (if arg p 48 8 = 0 then none else some (BitVec.ofNat 64 (arg p 48 8),
          2 ^ (bits (arg p 45 1) 2 0 + 11))) ∧
          t.meter.vector = bits (arg p 46 2) 10 0 ∧ t.meter.dhead = 0 ∧ t.meter.head = 0) ∧
        (bitAt (arg p 44 1) 0 = false → t.meter.ring = s.meter.ring ∧ t.meter.dhead = s.meter.dhead) ∧
        t.meter.phase = if bitAt (arg p 44 1) 1 then arg p 56 4 else s.meter.phase)

/-- R366, R445, R446, R448, R478: LOAD KEY takes the first device key with its code, a later one wrapped under the one before, and a
tenant's key wrapped under the device key, with 7010h; ERASE KEY forgets a tenant's key and its cached data, with 7011h, and
its erasure marks then make every unit of its encrypted volumes read as zeros. -/
def Obligations.KeysChange : Prop :=
  ∀ (p : Post) (r : Ring) (s : State), (s.die? s.id.lead).isSome →
    (Permitted .loadKey p r s →
      (∀ k, bitAt (arg p 46 1) 0 = true → arg p 44 2 = 0xFFFF → s.feat.devKey = none → p.entry.dlen.toNat = 64 →
        s.log.secret = some k →
        Config.hmac k (slice p.buf 0 32) = slice p.buf 32 32 → Does .loadKey p r s 0 [.feat] fun t =>
          t.feat = { s.feat with devKey := some (slice p.buf 0 32) }) ∧
      (∀ old new, bitAt (arg p 46 1) 0 = true → arg p 44 2 = 0xFFFF → s.feat.devKey = some old → p.entry.dlen.toNat = 40 →
        Config.unwrap old (padTo 40 p.buf) = some new → Does .loadKey p r s 0 [.feat, .tenants] fun t =>
          t.feat = { s.feat with devKey := some new } ∧ ∀ n x, s.tenant? n = some x → ∃ y, t.tenant? n = some y ∧
            y.key = x.key ∧
            ∀ w k, x.wrapped = some w → Config.unwrap old w = some k → y.wrapped = some (Config.wrap new k)) ∧
      (∀ x k key, bitAt (arg p 46 1) 0 = false → s.tenant? (arg p 44 2) = some x → p.entry.dlen.toNat = 72 →
        s.feat.devKey = some k →
        Config.unwrap k (padTo 72 p.buf) = some key → slice key 0 32 ≠ slice key 32 32 → x.erasing = false → x.wrapped = none →
        Does .loadKey p r s 0 [.tenants] fun t => (∃ y, t.tenant? (arg p 44 2) = some y ∧ y.key = some key ∧
          y.wrapped = some (padTo 72 p.buf)) ∧ Pending t s.id.lead 0x7010)) ∧
    (∀ x, Permitted .eraseKey p r s → s.tenant? (arg p 44 2) = some x → Makes .eraseKey p r s 0 [.tenants, .vols, .cache, .jr] fun t =>
      (∃ y, t.tenant? (arg p 44 2) = some y ∧ y.key = none ∧ y.wrapped = none ∧ y.erasing = true) ∧
      (∀ v ∈ encVols s x.num, ∀ b ∈ t.cache, b.vol ≠ v.num) ∧ Pending t s.id.lead 0x7011) ∧
    ∀ n x, s.running = true → s.tenant? n = some x → x.erasing = true →
      (∀ v ∈ encVols s n, ∀ q, s.pool? v.pool = some q → q.reshape = none) →
      RunsOn (.eraseMarksApply n) s [.vols, .cache, .jr, .pools, .cmds, .mcmds, .uniq, .tenants, .meters] fun t =>
        (∃ y, t.tenant? n = some y ∧ y.erasing = false ∧ y.key = x.key) ∧
        ∀ v ∈ encVols s n, (s.pool? v.pool).isSome → ∃ v', t.vol? v.num = some v' ∧ ∀ i, i < v.extents.length → i ∈ v'.zero

/-! ### Reflect messages of a host -/

/-- R319, R320, R321, R333, R334, R340, R341, R342, R343, R350: REFLECT WRITE, READ, ADD and CAS that pass their checks put their
segments out as one message and wait; at the limits on outstanding messages they stall; without a route they answer 0704h with
RETRY-SAFE and their queue pair is in ERROR with 5020h; a READ of an exchange window answers its bytes, or why it cannot; a failed
check answers its status. -/
def Obligations.ReflectPosts : Prop :=
  ∀ (op : Op) (p : Post) (r : Ring) (s : State) (c : Cmd), op ∈ [Op.reflectWrite, .reflectRead, .reflectAdd, .reflectCas] →
    Direct op p r s →
    cmdOf op p r s = c →
    (∀ st, reflectCheck s c = some st → Refuses op p r s st false) ∧
    (reflectCheck s c = none →
      (∀ w, op = .reflectRead → c.key = 0 → s.win? r.die c.lep c.rep = some w → c.gen = 1 →
        c.roff + p.entry.dlen.toNat ≤ 262144 → w.bad = false →
        ∃ t, exec (rowOf op p) s = .next t ∧ Completes s t r.ref 0 { ndone := p.entry.dlen.toNat } ∧
          Puts s t (.buffer r.ref 0 (readBytes w.mem c.roff p.entry.dlen.toNat)) ∧ Frame s t (.qps :: answering)) ∧
      (op = .reflectRead → c.key = 0 → (s.win? r.die c.lep c.rep = none ∨
          c.gen = 1 ∧ (s.win? r.die c.lep c.rep).isSome ∧ 262144 < c.roff + p.entry.dlen.toNat) →
        ∃ t q, exec (rowOf op p) s = .next t ∧ Completes s t r.ref 0x0701 {} ∧ t.qp? r.die c.lep c.rep = some q ∧ q.error = true ∧
          Pending t r.die 0x5020 ∧ Frame s t (.rfl :: .qps :: .msgs :: .reg :: answering)) ∧
      (∀ w, op = .reflectRead → c.key = 0 → s.win? r.die c.lep c.rep = some w →
        (c.gen ≠ 1 → ∃ t, exec (rowOf op p) s = .next t ∧ Completes s t r.ref 0x0702 {} ∧ Frame s t (.qps :: answering)) ∧
        (c.gen = 1 → c.roff + p.entry.dlen.toNat ≤ 262144 → w.bad = true →
          ∃ t, exec (rowOf op p) s = .next t ∧ Completes s t r.ref 0x0206 {} ∧ Frame s t (.qps :: answering))) ∧
      (¬(op = .reflectRead ∧ c.key = 0) → outstanding s r.die (some (c.lep, c.rep)) < 64 → outstanding s r.die none < 4096 →
        (routeUp s r.die c.rep = true → ∃ t m, exec (rowOf op p) s = .next t ∧ (∃ d, t.cmd? r.ref = some d ∧ d.stage = .working) ∧
          m ∈ t.refl.msgs ∧ m.cmd = some r.ref ∧ m.die = r.die ∧ m.src = c.lep ∧ m.dst = c.rep ∧ m.segs = cmdSegs c m.msgno ∧
            m.acked = [] ∧
          (∀ g ∈ m.segs, Puts s t (.segment r.die g)) ∧ (t.qp? r.die c.lep c.rep).isSome ∧
          Frame s t [.arb, .rings, .buckets, .cmds, .rfl, .qps, .msgs, .link, .out]) ∧
        (routeUp s r.die c.rep = false → ∃ t q, exec (rowOf op p) s = .next t ∧ Completes s t r.ref 0x0704 { retry := true } ∧
          t.qp? r.die c.lep c.rep = some q ∧ q.error = true ∧ Pending t r.die 0x5020 ∧
            Frame s t (.rfl :: .qps :: .msgs :: .reg :: answering))) ∧
      (¬(op = .reflectRead ∧ c.key = 0) → 64 ≤ outstanding s r.die (some (c.lep, c.rep)) ∨ 4096 ≤ outstanding s r.die none →
        ∃ t d, exec (rowOf op p) s = .next t ∧ t.cmd? r.ref = some d ∧ d.stage = .stalled ∧ d.clamp = false ∧
          Frame s t [.arb, .rings, .buckets, .cmds, .qps]))

/-- R344, R346, R347, R350, R501: REGISTER REGION gives a region the next free key and answers key and generation; REVOKE
REGION waits while the region is revoked, and its end, once the region is drained, frees the key with the next generation;
ENDPOINT STATUS opens an endpoint, closes one with its queue pairs, reports, or clears ERROR. -/
def Obligations.RegionsAndEndpoints : Prop :=
  (∀ (p : Post) (r : Ring) (s : State) (x : Ep),
    (∀ c k, Permitted .registerRegion p r s → cmdOf .registerRegion p r s = c → localEp s c c.lep = some x →
      epPermits c x = true →
      (bitAt (arg p 46 1) 2 = true → bitAt (arg p 46 1) 3 = true) → 1 ≤ arg p 56 4 → arg p 56 4 % 8 = 0 →
      (bitAt (arg p 46 1) 3 = true → arg p 56 4 ≤ 2 ^ 26 ∧ ddrRegions s r.die + arg p 56 4 ≤ 2 ^ 28) →
      (s.refl.regions.filter fun g => g.die == r.die).length < 1024 → freeKey s r.die = some k →
      Does .registerRegion p r s (k + 65536 * genOf s r.die k) [.regions, .cache] fun t => ∃ g, t.region? r.die k = some g ∧
        g.ep = x.ep ∧
        g.gen = genOf s r.die k ∧ g.len = arg p 56 4 ∧ g.canRead = bitAt (arg p 46 1) 0 ∧ g.canWrite = bitAt (arg p 46 1) 1 ∧
        g.canAtomic = bitAt (arg p 46 1) 2 ∧ g.revoking = false ∧
        g.host = if bitAt (arg p 46 1) 3 then none else some (BitVec.ofNat 64 (arg p 48 8))) ∧
    (∀ c g, Permitted .revokeRegion p r s → cmdOf .revokeRegion p r s = c → localEp s c c.lep = some x → epPermits c x = true →
      s.region? r.die (arg p 46 2) = some g → g.ep = x.ep → Waits .revokeRegion p r s [.regions] fun t =>
        t.region? r.die (arg p 46 2) = some { g with
          revoking := true, revokedAt := (if g.revoking then g.revokedAt else s.clk.tick), drained := g.revoking && g.drained,
          waiters := g.waiters ++ [r.ref] }) ∧
    (∀ c a, cmdOf .endpointStatus p r s = c → c.lep = a → Permitted .endpointStatus p r s → epNum a ≠ 0 →
      epAddr s.id.pkgid r.die (epNum a) = a →
      (bits (arg p 46 1) 1 0 = 0 → s.ep? r.die (epNum a) = none → bits (arg p 50 2) 10 0 < vectorsOf s r.die r.fn →
        Does .endpointStatus p r s 0 [.eps] fun t => t.ep? r.die (epNum a) =
          some { die := r.die, ep := epNum a, fn := r.fn, tenant := s.ringTenant r, vector := bits (arg p 50 2) 10 0 }) ∧
      (s.ep? r.die (epNum a) = some x → x.fn = r.fn → epPermits c x = true →
        (bits (arg p 46 1) 1 0 = 1 → x.closing = false → (∀ m ∈ s.refl.msgs, m.cmd ≠ some r.ref) →
          (∀ g ∈ s.refl.regions, r.ref ∉ g.waiters) →
          ((∀ g ∈ s.refl.regions, g.die = r.die → g.ep ≠ x.ep) →
            Does .endpointStatus p r s 0 [.rfl, .link, .eps, .qps, .wins, .msgs] fun t => t.ep? r.die (epNum a) = none ∧
              ∀ q ∈ t.refl.qps, q.die = r.die → q.loc ≠ a) ∧
          ((∃ g ∈ s.refl.regions, g.die = r.die ∧ g.ep = x.ep) →
            Waits .endpointStatus p r s (.rfl :: .link :: .eps :: .qps :: .wins :: .msgs :: .regions :: ending) fun t =>
              ∀ g ∈ t.refl.regions, g.die = r.die → g.ep = x.ep → g.revoking = true ∧ r.ref ∈ g.waiters)) ∧
        (bits (arg p 46 1) 1 0 = 2 → 64 ≤ p.entry.dlen.toNat → p.entry.dlen.toNat % 32 = 0 →
          Reports .endpointStatus p r s (epBytes s a ((p.entry.dlen.toNat - 64) / 32)) 0 0) ∧
        (∀ q, bits (arg p 46 1) 1 0 = 3 → x.closing = false → s.qp? r.die a (BitVec.ofNat 16 (arg p 48 2)) = some q →
          Does .endpointStatus p r s 0 [.qps] fun t =>
            t.qp? r.die a (BitVec.ofNat 16 (arg p 48 2)) = some { q with error := false })))) ∧
  ∀ (d key : Nat) (g : Region) (s : State), s.region? d key = some g →
    (g.drained = false → RunsOn (.revokeComplete d key) s [] fun t => t.region? d key = some g) ∧
    (g.drained = true → RunsOn (.revokeComplete d key) s (.regions :: .keys :: .eps :: ending) fun t => t.region? d key = none ∧
      genOf t d key = (if g.gen = 255 then 1 else g.gen + 1) ∧
      ∀ c ∈ g.waiters, (∀ y ∈ s.refl.regions, ¬(y.die = d ∧ y.key = key) → c ∉ y.waiters) → t.cmd? c = none)

/-! ### Firmware, the recorder's commands, maintenance -/

/-- R312, R464, R468, R469, R470, R471, R472, R502: FIRMWARE DOWNLOAD stages a chunk, the one that completes the image waits
for the verified image's programming into the other slot with 7001h; FIRMWARE ACTIVATE names the pending slot for the next
start, or flips the classes one by one, the last of which runs the image with 7003h; after a failed flip the classes go back one a
tick, the last of them with 7004h. -/
def Obligations.FirmwareAdvances : Prop :=
  (∀ (p : Post) (r : Ring) (s : State),
    (∀ old all got lim, Permitted .firmwareDownload p r s → arg p 48 4 % 4096 = 0 → 4 ≤ p.entry.dlen.toNat →
      p.entry.dlen.toNat ≤ 1048576 →
      s.fw.loader = none → (if arg p 48 4 = 0 then [] else s.fw.staged) = old →
      old ++ [(arg p 48 4, padTo p.entry.dlen.toNat p.buf)] = all → contiguous all.length all 0 = got →
      (stagedLength all).getD imageMax = lim → lim ≤ imageMax →
        disagrees old (arg p 48 4) (padTo p.entry.dlen.toNat p.buf) = false →
      (∀ x ∈ all, x.1 + x.2.length ≤ lim) →
      (stagedLength all ≠ some got → Does .firmwareDownload p r s got [.fw] fun t => t.fw = { s.fw with staged := all }) ∧
      (stagedLength all = some got → Waits .firmwareDownload p r s [.fw] fun t =>
        t.fw = { s.fw with staged := all, loader := some r.ref })) ∧
    (Permitted .firmwareActivate p r s → s.fw.active = false →
      (∀ b, bits (arg p 44 1) 0 0 = 1 → s.fw.pend = some b →
        Does .firmwareActivate p r s 0 [.fw] fun t => t.fw = { s.fw with slotB := b }) ∧
      (∀ i, bits (arg p 44 1) 0 0 = 0 → s.pw.pstate < 2 → s.pair.state ≠ .separated → s.pair.kerf = none →
        s.fw.pendImg = some i →
        i.compat.toNat ≤ s.id.runVer.toNat → Waits .firmwareActivate p r s [.fw] fun t =>
          t.fw = { s.fw with active := true, loaded := false, flipped := 0, cmd := some r.ref }))) ∧
  ∀ s : State, s.running = true → (s.die? s.id.lead).isSome →
    (∀ c b, s.fw.loader = some c → s.fw.active = false →
      stagedBytes s.fw.staged 0 (contiguous s.fw.staged.length s.fw.staged 0) = b →
      (s.cmd? c).isSome → (s.ring? c.die c.ring).isSome → (s.die? c.die).any (·.linkUp) = true →
      (imageStatus s.fw.minSvn.toNat b = none → Runs (.firmwareProgrammed true) s (.fw :: ending) fun t =>
        t.fw.pend = some (!s.fw.slotB) ∧ t.fw.slot (!s.fw.slotB) = some (imageOf b) ∧
          t.fw.slot s.fw.slotB = s.fw.slot s.fw.slotB ∧
        t.fw.slotB = s.fw.slotB ∧ t.fw.loader = none ∧ t.fw.staged = [] ∧ Pending t s.id.lead 0x7001 ∧
        Completes s t c 0 { result := BitVec.ofNat 64 b.length }) ∧
      (∀ st ok, imageStatus s.fw.minSvn.toNat b = some st → Runs (.firmwareProgrammed ok) s (.fw :: ending) fun t =>
        t.fw = { s.fw with loader := none, staged := [] } ∧ Completes s t c st {})) ∧
    (s.fw.active = true → s.fw.loaded = false → Runs .firmwareLoadDone s [.fw] fun t =>
      t.fw = { s.fw with loaded := true, flipBase := s.clk.tick + 1 }) ∧
    (s.fw.active = true → s.fw.loaded = true → s.fw.back = none → s.fw.flipBase + 4 * s.fw.flipped ≤ s.clk.tick →
      (0 < s.fw.flipped → s.fw.flipAt < s.clk.tick) →
      (s.fw.flipped < 9 → RunsOn (.firmwareClassFlip true) s [.fw, .cmds, .rings, .pools, .pair, .free] fun t =>
        t.fw = { s.fw with flipped := s.fw.flipped + 1, flipAt := s.clk.tick }) ∧
      (∀ b i, s.fw.flipped = 9 → s.fw.pend = some b → s.fw.slot b = some i →
        RunsOn (.firmwareClassFlip true) s (.fw :: .pair :: .pools :: .free :: .id :: .pw :: ending) fun t => t.fw.slotB = b ∧
          t.fw.pend = none ∧
          t.fw.active = false ∧ t.id.runVer = i.version ∧ Pending t s.id.lead 0x7003 ∧ ∀ c, s.fw.cmd = some c →
            t.cmd? c = none) ∧
      RunsOn (.firmwareClassFlip false) s [.fw, .cmds, .rings, .pools, .pair, .free] fun t =>
        t.fw = { s.fw with flipped := s.fw.flipped + 1, flipAt := s.clk.tick, back := some (s.fw.flipped, s.fw.flipped + 1) }) ∧
    ∀ n k i, s.fw.back = some (n, k) →
      (1 < k → ∃ t, exec (.tick i) s = .next (settle t) ∧ t.fw = { s.fw with back := some (n, k - 1) }) ∧
      (∀ b c, k ≤ 1 → s.fw.pend = some b → s.fw.cmd = some c → (s.cmd? c).isSome → (s.ring? c.die c.ring).isSome →
        (s.die? c.die).any (·.linkUp) = true →
        ∃ t, exec (.tick i) s = .next (settle t) ∧ t.fw.slotB = s.fw.slotB ∧ t.fw.pend = none ∧ t.fw.slot b = none ∧
          t.fw.active = false ∧ t.fw.back = none ∧ Pending t s.id.lead 0x7004 ∧
          Completes s t c 0x0180 { result := BitVec.ofNat 64 (n + 1) })

/-- R420, R421, R422, R424, R425, R503: LOG FREEZE programs what waits and holds the recorders still; LOG THAW, or a minute
passing with 8004h, ends that; a challenge lives a minute, and LOG CLEAR with the right response to it leaves 8005h as the
first record; a wrong one answers 0304h with 8006h, and the eighth in a row stops challenges for a minute. -/
def Obligations.RecorderCommands : Prop :=
  (∀ (p : Post) (r : Ring) (s : State),
    (Permitted .logFreeze p r s → s.log.frozen = false → Does .logFreeze p r s 0 [.log] fun t =>
      t.log = { s.log with frozen := true, frozenAt := s.clk.tick } ∧ ∀ x ∈ t.dies, x.recd.prewrite = []) ∧
    (Permitted .logFreeze p r s → s.log.frozen = true → Does .logFreeze p r s 0 [] fun _ => True) ∧
    (Permitted .logThaw p r s → (∀ x ∈ s.dies, x.recd.clearPending = none) → Does .logThaw p r s 0 [.log] fun t =>
      t.log = { s.log with frozen := false } ∧ (s.log.frozen = true → ∀ x ∈ t.dies, x.recd.holding = [])) ∧
    (Permitted .logClearChallenge p r s →
      (s.log.secret = none → Refuses .logClearChallenge p r s 0x0304 false) ∧
      (s.log.secret.isSome → s.log.busyUntil ≤ s.clk.tick → ∃ t h, exec (.logClearChallenge p) s = .next t ∧
        t.log = { s.log with challenge := some h } ∧
        h.ot = s.clk.optime ∧ h.pc = s.clk.powerCycles ∧ h.at_ = s.clk.tick ∧
        Completes s t r.ref 0 { extra := le 16 h.c.toNat ++ le 8 h.ot ++ le 4 h.pc } ∧
          Frame s t (.log :: .free :: answering))) ∧
    (Permitted .logClear p r s → p.entry.dlen.toNat = 32 →
      (s.log.challenge = none → Refuses .logClear p r s 0x0305 false) ∧
      (∀ h k, s.log.challenge = some h → s.log.secret = some k →
        (∀ x, Config.hmac k (clearMessage h) = padTo 32 p.buf → s.log.frozen = false → s.die? s.id.lead = some x →
          x.recd.failed = false →
          Does .logClear p r s 0 [.log] fun t => t.log = { s.log with challenge := none, failures := 0 } ∧
            Pending t s.id.lead 0x8005 ∧
            ∃ y c, t.die? s.id.lead = some y ∧ y.recd.slots.head? = some c ∧ c.code = 0x8005) ∧
        (Config.hmac k (clearMessage h) ≠ padTo 32 p.buf → (s.die? s.id.lead).isSome → ∃ t, exec (.logClear p) s = .next t ∧
          Completes s t r.ref 0x0304 {} ∧ t.log.challenge = none ∧ Pending t s.id.lead 0x8006 ∧
          (s.log.failures < 7 → t.log.failures = s.log.failures + 1 ∧ t.log.busyUntil = s.log.busyUntil) ∧
          (7 ≤ s.log.failures → t.log.failures = 0 ∧ t.log.busyUntil = s.clk.tick + 15000000) ∧
            Frame s t (.log :: answering))))) ∧
  ∀ s : State, s.on = true →
    (s.log.frozen = true → s.log.frozenAt + 15000000 ≤ s.clk.tick → (s.die? s.id.lead).isSome →
      Runs .freezeExpired s (.log :: raising) fun t =>
      t.log = { s.log with frozen := false } ∧ Pending t s.id.lead 0x8004) ∧
    ∀ h, s.log.challenge = some h → h.at_ + 15000000 ≤ s.clk.tick → Runs .challengeExpired s [.log] fun t =>
      t.log = { s.log with challenge := none }

/-- R24, R386, R423, R430, R503: SELF TEST waits for the passes it asks for; ENGINE SWAP takes an engine out unless it is
the last of its kind, or brings one back when its known-answer test passes; TIME ANCHOR records 8008h; DIE RETIRE marks a
die for its next start, waits for the pools of one to move, or with none left retires it with cause 07h; PARTNER CONTROL
separates, rejoins, leaves the pair once no single copy is left, hands pools back, takes over. -/
def Obligations.MaintenanceCommands : Prop :=
  ∀ (p : Post) (r : Ring) (s : State), (s.die? s.id.lead).isSome →
    (∀ c, Permitted .selfTest p r s → cmdOf .selfTest p r s = c → bits (arg p 44 1) 2 0 ≠ 0 → bits (arg p 44 1) 2 0 ≤ 5 →
      (arg p 46 1 = 0xFF ∨ s.alive (arg p 46 1) = true) → (∀ x ∈ testsOf s c, ∀ y ∈ s.tests, ¬(y.test = x.test ∧
        y.die = x.die)) →
      ((testsOf s c).filter fun x => x.test != 3 || !x.left.isEmpty) ≠ [] →
      Waits .selfTest p r s [.tests] fun t => t.tests = s.tests ++ (testsOf s c).filter fun x => x.test != 3 || !x.left.isEmpty) ∧
    (∀ d u x, Permitted .engineSwap p r s → bits (arg p 44 1) 2 0 = d → arg p 45 1 = u → s.alive d = true → s.die? d = some x →
      (0x20 ≤ u → u < 0x22 →
        ((x.hw.gf.set (u - 0x20) false).any id = true →
          (bits (arg p 46 1) 0 0 = 1 → Does .engineSwap p r s 0 [.hw] fun t => ∃ y, t.die? d = some y ∧
            y.hw.gf = x.hw.gf.set (u - 0x20) false) ∧
          (bits (arg p 46 1) 0 0 = 0 → Does .engineSwap p r s (bit !Config.freeBool s.free) [.hw, .free] fun t =>
            ∃ y, t.die? d = some y ∧ y.hw.gf = x.hw.gf.set (u - 0x20) (Config.freeBool s.free))) ∧
        ((x.hw.gf.set (u - 0x20) false).any id = false → bits (arg p 46 1) 0 0 = 1 → Refuses .engineSwap p r s 0x0401 false)) ∧
      (0x28 ≤ u → u < 0x2C → (x.hw.aes.set (u - 0x28) false).any id = true → bits (arg p 46 1) 0 0 = 1 →
        Does .engineSwap p r s 0 [.hw] fun t => ∃ y, t.die? d = some y ∧ y.hw.aes = x.hw.aes.set (u - 0x28) false)) ∧
    (Permitted .timeAnchor p r s → Does .timeAnchor p r s 0 [] fun t => Pending t s.id.lead 0x8008) ∧
    (∀ d x, Permitted .dieRetire p r s → bits (arg p 44 1) 2 0 = d → s.die? d = some x → d ≠ r.die →
      (bits (arg p 45 1) 0 0 = 1 → Does .dieRetire p r s 0 [.health] fun t => ∃ y, t.die? d = some y ∧
        y.restore = (x.restore || x.keepRetired)) ∧
      (bits (arg p 45 1) 0 0 = 0 → s.alive d = true → s.pair.kerf = none → (∀ y ∈ s.dies, y.retiring = false) →
        (∀ n ∈ poolsOn s d, ∀ q, s.pool? n = some q → retirable s q d = true) →
        (poolsOn s d ≠ [] → Waits .dieRetire p r s [.health] fun t => ∃ y, t.die? d = some y ∧ y.retiring = true ∧
          y.healthy = true) ∧
        (poolsOn s d = [] → Does .dieRetire p r s 0 [.health, .link, .rfl, .reg, .pair, .cache, .pools, .nss] fun t => ∃ y,
          t.die? d = some y ∧
          y.healthy = false ∧ y.retired = true ∧ y.keepRetired = true ∧ y.yielded = some 7 ∧ Pending t s.id.lead 0x0047))) ∧
    (Permitted .partnerControl p r s → s.id.inPair = true → s.pair.kerf = none → s.pair.contest = none → s.pair.handing = none →
      s.pair.leaving = none →
      (bits (arg p 44 1) 2 0 = 0 → s.pair.state = .paired → Does .partnerControl p r s 0 [.pair, .pools, .cache] fun t =>
        t.pair.state = .separated ∧ t.pair.forced = true ∧ Pending t s.id.lead 0x5042) ∧
      (bits (arg p 44 1) 2 0 = 0 → s.pair.state ≠ .paired → Does .partnerControl p r s 0 [.pair] fun t =>
        t.pair = { s.pair with forced := true, rejoinAt := none, rejoinMsg := none }) ∧
      (bits (arg p 44 1) 2 0 = 1 → Does .partnerControl p r s 0 [.pair] fun t => t.pair = { s.pair with forced := false }) ∧
      (bits (arg p 44 1) 2 0 = 2 ∨ bits (arg p 44 1) 2 0 = 3 → s.pair.state ≠ .paired →
        Refuses .partnerControl p r s 0x0402 true) ∧
      (bits (arg p 44 1) 2 0 = 2 → s.pair.state = .paired → singleLeft s = true → Waits .partnerControl p r s [.pair] fun t =>
        t.pair = { s.pair with leaving := some r.ref }) ∧
      (bits (arg p 44 1) 2 0 = 2 → s.pair.state = .paired → singleLeft s = false → ∃ t, exec (.partnerControl p) s = .next (settle t) ∧
        Answers s t r.ref 0 0 ∧ t.run.halted = true ∧ faultPin t = false ∧ t.reg.ycause = 0x0C) ∧
      (bits (arg p 44 1) 2 0 = 3 → s.pair.state = .paired → (∀ q ∈ s.pools, q.taken = false) → Does .partnerControl p r s 0 [.pair] fun t =>
        t.pair.witnessHeld = false ∧ t.pair.handing = none ∧ Pending t s.id.lead 0x504A) ∧
      (bits (arg p 44 1) 2 0 = 3 → s.pair.state = .paired →
        (∀ c ∈ s.cmds, ∀ q ∈ s.pools, q.taken = true → halfDone s q.num c = false) → Does .partnerControl p r s 0 importing fun t =>
        t.pair.witnessHeld = false ∧ t.pair.handing = none ∧ Pending t s.id.lead 0x504A ∧
        ∀ q ∈ s.pools, q.taken = true → q.num ∉ t.pair.kerfPools ∧ ∃ q', t.pool? q.num = some q' ∧ q'.away = true ∧ q'.taken = false) ∧
      (bits (arg p 44 1) 2 0 = 3 → s.pair.state = .paired → (∃ c ∈ s.cmds, ∃ q ∈ s.pools, q.taken = true ∧ halfDone s q.num c = true) →
        Waits .partnerControl p r s [.pair] fun t => t.pair.handing = some r.ref ∧ t.pair.kerf = some s.clk.tick ∧
          ∀ q ∈ s.pools, q.taken = true → q.num ∈ t.pair.kerfPools) ∧
      (bits (arg p 44 1) 2 0 = 4 → s.pair.awaiting = true → s.pair.holdIn = false → (∀ m ∈ s.refl.msgs, m.cmd ≠ some r.ref) →
        Imports (.partnerControl p) s (.arb :: .buckets :: importing) fun t => Answers s t r.ref 0 0 ∧ TookOver s t))

/-- R35, R37, R354, R356, R364, R386, R423: a pool of a retiring die moves to its new home, once its dirty data is there; a die cut off from the lead die,
or whose own hold reads low, yields with its cause; the watchdog drops a hold not refreshed for two ticks; the lead role
moves with 0045h. -/
def Obligations.DiesLeave : Prop :=
  ∀ s : State, s.on = true →
    (∀ (n h : Nat) (q : Pool), s.running = true → s.pool? n = some q → q.away = false →
      (s.die? q.home).any (·.retiring) = true →
      (q.shadow.any s.alive = true → copiedOut s q = true) → moveTo s q = some h → (∃ k ∈ poolsOn s q.home, k ≠ n) → h ≠ q.home →
      RunsOn (.dieRetireMigrated n) s (.cache :: .destages :: .jr :: .pair :: .pools :: .uniq :: .vols :: ending) fun t =>
        (∃ q', t.pool? n = some q' ∧ q'.home = h ∧ q'.geom = q.geom ∧ q'.members = q.members) ∧ t.run = s.run ∧
        (t.die? q.home).any (·.retiring) = true) ∧
    (∀ (d : Nat) (x : DieSt), s.die? d = some x → x.alive = true → s.run.halted = false →
      (2 ≤ x.hw.cut → 2 < s.run.phase →
        Runs (.dieSelfRetire d) s yielding fun t =>
          ∃ y, t.die? d = some y ∧ y.healthy = false ∧ y.retired = true ∧ y.yielded = some 4 ∧ y.hold = false ∧
            y.linkUp = false ∧ Pending t d 0x0043) ∧
      (x.hold = true →
        (2 ≤ x.unrefreshed → Runs (.dieHoldDrop d) s [.health] fun t => t.die? d = some { x with hold := false }) ∧
        (x.unrefreshed < 2 → Runs (.dieHoldDrop d) s yielding fun t =>
          ∃ y, t.die? d = some y ∧ y.retired = true ∧ y.yielded = some 0x0D ∧ y.hold = false ∧ Pending t d 0x0043))) ∧
    (∀ d, s.aliveDies.head? = some d → s.alive s.id.lead = false → 2 < s.run.phase →
      Runs .leadDieMove s (.id :: .log :: .meter :: raising) fun t => t.id = { s.id with lead := d } ∧
        t.log = { s.log with indexing := true } ∧ t.meter.held = none ∧ Pending t d 0x0045 ∧
        ∀ h b n, s.meter.held = some h → s.meter.ring = some (b, n) →
          h.2.length + 1 ≤ n - distance n (meterHeadPos n s.meter.head) s.meter.dhead →
          ∀ x ∈ snapshot { s with meter := { s.meter with moved := true } } n h, Puts s t (.meter x.1 x.2)) ∧
    Runs .indexRebuilt s [.log] fun t => t.log = { s.log with indexing := false }

/-! ### Ticks, budgets, caps, windows -/

/-- R38, R47, R52, R69, R70, R71, R73, R408, R418, R440, R442, R450, R451, R452, R459, R484: a TICK counts the tick and the operating
time, gives its pulse, and puts the settings that waited for the boundary into force; the ends of the measuring windows give
new budgets, buckets, event limits and meter records. -/
def Obligations.TicksAdvance : Prop :=
  (∀ (i : TickIn) (s : State), s.run.powered = true →
    RunsOn (.tick i) s (.arb :: .buckets :: .cache :: .clk :: .destages :: .feat :: .fns :: .frame :: .free :: .fw :: .grants ::
      .health :: .hw :: .jr :: .link :: .log :: .nss :: .pair :: .pools :: .pw :: .reg :: .regions :: .rfl :: .run :: .tenants ::
      .tests :: .uniq :: .vols :: ending) fun t =>
      t.clk.tick = s.clk.tick + 1 ∧ t.clk.optime = (if timeRuns s then min top48 (s.clk.optime + 1) else s.clk.optime) ∧
      t.feat.now = s.feat.next.getD s.feat.now ∧ t.feat.next = none ∧ t.feat.later = [] ∧
      (∀ a, s.feat.later = [.health a] → t.feat.healthAddr = a) ∧ (∀ b, s.feat.later = [.secret b] → t.log.secret = some b) ∧
      (s.feat.later = [.noWitness] → t.pair.witness = none) ∧
      (∀ d h x, s.feat.later = [.hold d h] → s.die? d = some x → ∃ y, t.die? d = some y ∧ y.vault = false ∧ y.vaultNs = [] ∧ y.holdUp = h) ∧
      (∀ v w x, s.feat.later = [.policy v w] → s.vol? v = some x → ∃ y, t.vol? v = some y ∧ y.wt = w) ∧
      (∀ n a q, s.feat.later = [.age n a] → s.pool? n = some q → ∃ q', t.pool? n = some q' ∧ q'.age = a) ∧ t.reg.ack = false ∧ t.pair.holdIn = i.holdIn ∧
      (t.tenants.map fun x => (x.num, x.qos, x.qosNext)) = (s.tenants.map fun x => (x.num, x.qosNext.getD x.qos, none)) ∧
      Out.ticksync ∈ t.out.drop s.out.length ∧
      t.dies.map (·.evt.remap) = s.dies.map (·.evt.remapNext) ∧
      (∀ d x, s.die? d = some x → x.frame.recovering = true → ∃ y, t.die? d = some y ∧ y.frame.shed = false) ∧
      (s.on = true → 2 < s.run.phase → t.pw.samples = (i.power :: s.pw.samples).take 2500)) ∧
  (∀ (d : Nat) (l : List Nat) (s : State) (x : DieSt), s.running = true → s.die? d = some x → x.alive = true →
    (x.frame.budgets.map (·.kind)).Nodup → x.frame.window < s.clk.tick / 65536 →
    Runs (.budgetWindow d l) s (.frame :: raising) fun t => ∃ y, t.die? d = some y ∧
      y.frame.budgets.length = x.frame.budgets.length ∧ y.frame.window = s.clk.tick / 65536 ∧
      ∀ (k : Nat) (b : Budget) (p : Nat), x.frame.budgets[k]? = some b → l[k]? = some p →
        ∃ (b' c : Budget), y.frame.budgets[k]? = some b' ∧ budgetStep s.clk.tick p b = c ∧
        b' = { c with urg := if c.current = b.current then b.urg else urgFit x c } ∧
        (b.current < b'.current → Pending t d 0x0034) ∧ (b'.urg < b.urg → Pending t d 0x0035)) ∧
  (∀ s : State, s.running = true → s.clk.tick % 256 = 0 → (s.tenants.map (·.num)).Nodup →
    Runs .capRedivide s [.buckets] fun t => ∀ x ∈ s.tenants, (x.qos.opsRate ≠ 0 ∨ x.qos.byteRate ≠ 0) →
      (∀ b ∈ t.buckets, b.tenant = x.num → b.die ∈ boundDies s x.num) ∧
      ∀ l, ((boundDies s x.num).map fun d => (d, (bucketOf s d x.num).cost)) = l → ∀ d ∈ boundDies s x.num, ∃ b ∈ t.buckets,
        b.die = d ∧ b.tenant = x.num ∧ b.cost = 0 ∧ b.opsRate = shareOf (divideCap x.qos.opsRate l) d ∧
        b.opsBurst = shareOf (divideCap (x.qos.opsBurst * 1024) l) d ∧ b.byteRate = shareOf (divideCap x.qos.byteRate l) d ∧
        b.byteBurst = shareOf (divideCap (x.qos.byteBurst * 1024) l) d) ∧
  (∀ (d : Nat) (s : State) (x : DieSt), s.on = true → s.die? d = some x → x.recd.window < windowAt s.clk.optime →
    Runs (.rateWindow d) s raising fun t => (∃ y, t.die? d = some y ∧ y.recd.window = windowAt s.clk.optime ∧
        ((∀ c ∈ x.recd.rates, c.counted = 0) → y.recd.rates = [])) ∧
      ((∃ c ∈ x.recd.rates, 0 < c.counted) → Pending t d 0x8003)) ∧
  ∀ (late : Bool) (s u : State) (k : Nat), s.ready = true → s.run.halted = false →
    (s.clk.optime + 15000000 - s.meter.phase) % 15000000 = 0 →
    s.meter.last ≠ some s.clk.optime → (s.die? s.id.lead).isSome → countMinute s = u → (tenantsInOrder s).length + 1 = k →
    Runs (.meterSnapshot late) s (.meter :: .meters :: raising) fun t =>
      (∀ n x, s.tenant? n = some x → ∃ y, t.tenant? n = some y ∧
        y.meters = { x.meters with blockMin := x.meters.blockMin + exposedBlocks s n }) ∧
      (s.alive s.id.lead = false → t.meter = { s.meter with last := some s.clk.optime, held := some (caught u) }) ∧
      (s.alive s.id.lead = true → (s.meter.ring = none → t.meter = { s.meter with last := some s.clk.optime }) ∧
        ∀ b n, s.meter.ring = some (b, n) →
          (k ≤ n - distance n (meterHeadPos n s.meter.head) s.meter.dhead →
            t.meter = { s.meter with
                          last := some s.clk.optime
                          dhead := (s.meter.dhead + k) % (2 * n)
                          skipped := 0
                          changed := false
                          moved := false } ∧
            (∀ x ∈ snapshot u n (caught u), Puts s t (.meter x.1 x.2)) ∧ (late = true → Pending t s.id.lead 0x7020)) ∧
          (n - distance n (meterHeadPos n s.meter.head) s.meter.dhead < k →
            t.meter = { s.meter with last := some s.clk.optime, skipped := satAdd top32 s.meter.skipped 1 } ∧
              Pending t s.id.lead 0x7021))

/-- R442: a cap divided among at most 16 dies is given out whole, and no die gets less than a sixteenth of it: rounded down
always, and exactly where the cap is large enough for whole units (log entry 11). -/
def Obligations.CapsGivenWhole : Prop :=
  ∀ (cap : Nat) (l : List (Nat × Nat)), l ≠ [] → l.length ≤ 16 → (l.map (·.1)).Nodup →
    ((divideCap cap l).map (·.2)).sum = cap ∧ (divideCap cap l).map (·.1) = l.map (·.1) ∧ ∀ x ∈ divideCap cap l,
      cap / 16 ≤ x.2 ∧ (l.length * ((cap + 15) / 16) ≤ cap → cap ≤ 16 * x.2)

/-- R66, R67, R74, R75: more than 64 internal misses shed bulk work with 0032h; 16 or fewer and a quiet while end that with
0033h, from the next tick on; a die that does not recover yields with cause 05h; the follower aligns its tick, or loses the leader's with 0036h. -/
def Obligations.FramesAndAlignment : Prop :=
  (∀ (d : Nat) (s : State) (x : DieSt) (f : FrameSt), s.running = true → s.die? d = some x → x.alive = true → x.frame = f →
    (f.shed = false → 64 < (inWindow s.clk.tick 250000 f.intMiss).length → Runs (.frameOverrun d) s (.frame :: raising) fun t =>
      (∃ y, t.die? d = some y ∧ y.frame = { f with shed := true, shedTick := s.clk.tick }) ∧ Pending t d 0x0032) ∧
    (f.shed = true → f.recovering = false → (inWindow s.clk.tick 250000 f.intMiss).length ≤ 16 →
      inWindow s.clk.tick 2500 f.intMiss = [] → Runs (.frameRecovered d) s (.frame :: raising) fun t =>
        (∃ y, t.die? d = some y ∧ y.frame = { f with recovering := true }) ∧ Pending t d 0x0033) ∧
    (f.shed = true → f.recovering = false → f.shedTick + 250000 ≤ s.clk.tick → 64 < (inWindow s.clk.tick 250000 f.intMiss).length →
      Runs (.frameNotRecovered d) s yielding fun t =>
        (∃ y, t.die? d = some y ∧ y.retired = true ∧ y.yielded = some 5 ∧ y.hold = false ∧ y.linkUp = false) ∧
          Pending t d 0x0043)) ∧
  ∀ s : State, follower s = true → s.on = true →
    (∀ n, n < 6400 → (mustAlign s = true → Runs (.ticksyncAlign n) s [.clk] fun t =>
        t.clk = { s.clk with
                    realigns := satAdd top16 s.clk.realigns 1
                    syncLost := false
                    aligned := true
                    seen := true
                    tickLen := 6400 + n
                    syncOffset := 0
                    noPulse := 0
                    farPulse := 0 }) ∧
      (mustAlign s = false → exec (.ticksyncAlign n) s = .next s)) ∧
    (s.clk.syncLost = false → 4 ≤ s.clk.noPulse ∨ 16 ≤ s.clk.farPulse → (s.die? s.id.lead).isSome →
      Runs .ticksyncLost s (.clk :: raising) fun t =>
        t.clk = { s.clk with syncLost := true, aligned := false } ∧ Pending t s.id.lead 0x0036)

/-! ### Start-up, loss and failure of power, heat -/

/-- R29, R36, R171, R187, R354, R379, R428, R462, R464, R541: each phase of start-up leaves what the next needs: the running
image, the board's record and the ports, the dies in service with the lead die, the DDR, the restored data, the pools' dies, the replayed journal, the
ready package with its holds. -/
def Obligations.StartupAdvances : Prop :=
  (∀ s : State, s.run.powered = false → Runs .powerUp s [.run, .clk] fun t =>
    t.run = { RunSt.reset with powered := true } ∧ t.clk = { s.clk with tick := 0 }) ∧
  ∀ (i : PhaseIn) (s : State), s.run.powered = true → s.run.pfail = none →
    (s.run.phase = 1 →
      (∀ b g, bootSlot i s = some b → s.fw.slot b = some g → RunsOn (.startupPhaseDone i) s [.fns, .fw, .health, .hw, .id,
        .run] fun t =>
        t.run.phase = 2 ∧ t.id.runVer = g.version ∧ t.fw.minSvn.toNat = max s.fw.minSvn.toNat g.svn.toNat ∧
          t.fw.slotB = s.fw.slotB ∧
        (s.run.fromPower = true → t.id.pkgid = i.pkgid % 2) ∧
        (∀ b, b = (i.board.find? boardGood).getD (zeros 64) → t.id.subvid.toNat = fieldAt b 10 2 ∧ t.id.subdid.toNat = fieldAt b 12 2 ∧
          t.id.hostMode = (slice b 16 8).map (·.toNat) ∧ t.id.driveMode = (slice b 24 8).map (·.toNat)) ∧
        (t.dies.map (·.linkUp) = s.dies.map fun x => x.linkUp || x.perst) ∧
        ∀ d x, s.die? d = some x → ∃ y, t.die? d = some y ∧
          (i.rates[d]? = none → y.hw.hostRate = x.hw.hostRate) ∧ (∀ r, i.rates[d]? = some r → y.hw.hostRate = r.1) ∧
          ∀ l, l < 24 → y.hw.driveRates[l]? = some (if 16 + l ∈ x.hw.lanesRetired then 0
            else (((i.rates[d]?).map (·.2)).bind fun r => r[portOfLane (t.portMode d) l]?).getD 64)) ∧
      (bootSlot i s = none → RunsOn (.startupPhaseDone i) s [.run] fun t => t.run.phase = 1 ∧ 2 ∈ t.run.faultN ∧
        faultPin t = false)) ∧
    (s.run.phase = 2 → ∀ u, u = linkBothEnds { s with dies := s.dies.zipIdx.map fun (x, d) => testDie i (s.portMode d) d x } →
      (∀ l, electLead u = some l → RunsOn (.startupPhaseDone i) s (.clk :: .fw :: .health :: .hw :: .id :: .log :: .run ::
        raising) fun t =>
        t.run.phase = 3 ∧ t.id.lead = l ∧ t.log.indexing = true ∧ t.dies.map (·.alive) = u.dies.map (·.alive) ∧
        (s.run.fromPower = true → t.clk.powerCycles = satAdd top32 s.clk.powerCycles 1 ∧ Pending t l 0x8009)) ∧
      (electLead u = none → RunsOn (.startupPhaseDone i) s [.run] fun t => t.run.phase = 2 ∧ 3 ∈ t.run.faultN ∧
        faultPin t = false)) ∧
    (s.run.phase = 3 → RunsOn (.startupPhaseDone i) s (.cache :: .health :: .hw :: .run :: raising) fun t =>
      t.run.phase = 4 ∧ t.run.selfRefresh = false ∧ t.run.dramReset = true ∧
      ∀ d r c bad, s.alive d = true → (i.dimms[d]?).map (fun l => dimmRule (l.filterMap id)) = some (r, c, bad) →
        (∃ y, t.die? d = some y ∧ y.hw.ddrRate = r ∧ y.hw.ddrGib = c) ∧ (bad = true → Pending t d 0x6001)) ∧
    (s.run.phase = 4 → RunsOn (.startupPhaseDone i) s (.cache :: .destages :: .jr :: .pools :: .run :: .vols :: ending) fun t =>
      t.run.phase = 5 ∧ (∀ d x, s.die? d = some x → ∃ y, t.die? d = some y ∧ y.jr.epoch = x.jr.epoch + 1) ∧
      ((∀ x ∈ s.dies, hasCommit x = false) → t.cache = s.cache ∧ t.pools = s.pools) ∧
      ∀ d x, s.die? d = some x → x.alive = true → hasCommit x = true → (∀ e y, e < d → s.die? e = some y →
        hasCommit y = false) →
        restoreOf x ((i.restore[d]?).getD .held) = .nothing → Pending t d 0x6015) ∧
    (s.run.phase = 5 → RunsOn (.startupPhaseDone i) s (.cache :: .destages :: .frame :: .jr :: .pools :: .run :: .uniq ::
      .vols :: ending) fun t =>
      t.run.phase = 6 ∧ ∀ n ∈ i.lostKeys, (s.pool? n).isSome → ∃ q, t.pool? n = some q ∧ q.away = true) ∧
    (s.run.phase = 6 →
      (s.destages = [] → RunsOn (.startupPhaseDone i) s (.cache :: .destages :: .jr :: .pools :: .run ::
        .vols :: ending) fun t => t.run.phase = 7 ∧
        (∀ n ∈ unreadable i.badCopies s, ∀ q, s.pool? n = some q → ∃ q', t.pool? n = some q' ∧ q'.offline.isSome) ∧
        ∀ x ∈ t.dies, ∀ e ∈ x.jr.entries, endedByReplay e = false) ∧
      (s.destages ≠ [] → RunsOn (.startupPhaseDone i) s [] fun t => t.run.phase = 6)) ∧
    (s.run.phase = 7 → RunsOn (.startupPhaseDone i) s (.cache :: .clk :: .cmds :: .destages :: .fns :: .health :: .id :: .jr ::
      .link :: .log :: .mcmds :: .pair :: .pools :: .reg :: .rfl :: .run :: .vols :: raising) fun t =>
      t.run.phase = 8 ∧ t.id.inPair = i.partner ∧ t.run.readyAt = s.clk.tick ∧
      ((∀ q ∈ s.pools, q.away = false → s.alive q.home = true) → t.run.halted = s.run.halted ∧ t.pair.armed = true ∧
        t.pair.state = .survivor ∧ (i.partner = true → t.pair.partnerProt = i.partnerProt) ∧
        ∀ x ∈ t.dies, x.alive = true → x.hold = true) ∧
      ((∃ q ∈ s.pools, q.away = false ∧ s.alive q.home = false ∧ q.num ∉ i.lostKeys) → t.run.halted = true))

/-- R179, R180, R182, R185, R407, R432, R539: PFAIL programs every record, and t + 2 a POWER HOLD on each die; BACKUP_EN rises at t
+ 50, a vaulting die ends with VAULT DONE; power that returns lets service go on with 6012h and LATE, or start-up begin
again; the loss of power leaves the nonvolatile contents. -/
def Obligations.PowerFails : Prop :=
  (∀ s : State, s.run.powered = true → s.run.pfail = none → Runs .pfail s (.log :: .run :: raising) fun t =>
    t.run.pfail = some s.clk.tick ∧ t.run.pfReady = s.ready ∧ t.log.frozen = false ∧ ∀ x ∈ t.dies, x.recd.prewrite = []) ∧
  (∀ (i : TickIn) (s : State) (t0 d : Nat) (x : DieSt), s.run.powered = true → s.run.pfail = some t0 → s.clk.tick = t0 + 2 →
    4 < s.run.phase → s.die? d = some x → x.alive = true → (∀ q ∈ s.pools, q.unsettled = false) →
    ∃ t y e c, exec (.tick i) s = .next (settle t) ∧ t.die? d = some y ∧ e ∈ y.jr.entries ∧ e.jsn = x.jr.next ∧
      e.body = .powerHold (holdMode x) x.jr.epoch (dirtyBytes s d) c s.clk.optime) ∧
  (∀ (s : State) (t0 : Nat), s.run.powered = true → s.run.pfail = some t0 →
    (s.run.backupEn = false → anyHold s = true → t0 + 50 ≤ s.clk.tick → Runs .backupEnRaise s [.run] fun t =>
      t.run.backupEn = true ∧ t.run.selfRefresh = true ∧ (vaultsLeft s = [] → s.run.pfEnd = none →
        t.run.pfEnd = some s.clk.tick)) ∧
    (∀ d x, d ∈ vaultsLeft s → s.die? d = some x → t0 + 3 + vaultTicks s d ≤ s.clk.tick →
      Runs (.vaultDone d) s [.free, .jr, .out, .run] fun t => d ∈ t.run.vaulted ∧
      (∃ b, Puts s t (.vault d b (x.jr.entries.flatMap JEntry.bytes))) ∧
      (∃ y e c, t.die? d = some y ∧ e ∈ y.jr.entries ∧ e.jsn = x.jr.next ∧ e.body = .vaultDone (imageBytes s d) c) ∧
      (vaultsLeft s = [d] → s.run.pfEnd = none → (anyHold s = false ∨ s.run.backupEn = true) →
        t.run.pfEnd = some s.clk.tick ∧ t.run.selfRefresh = true)) ∧
    (s.run.pfOff = none → Runs .pfailDeassert s [.run] fun t => t.run = { s.run with pfOff := some s.clk.tick })) ∧
  (∀ (s : State) (o e : Nat), s.run.powered = true → s.run.pfOff = some o → s.run.pfEnd = some e → s.pw.trip = false →
    max o e + 250 ≤ s.clk.tick →
    (s.run.pfReady = true → (s.die? s.id.lead).isSome → RunsOn .powerReturned s (.run :: .cmds :: .rings :: raising) fun t =>
      t.run = { s.run with pfail := none, pfReady := false, pfOff := none, pfEnd := none, vaulted := [], backupEn := false, selfRefresh := s.pw.pstate == 3 } ∧
      t.cmds.map (·.ref) = s.cmds.map (·.ref) ∧ (∀ c ∈ t.cmds, c.late = true) ∧ Pending t s.id.lead 0x6012) ∧
    (s.run.pfReady = false → RunsOn .powerReturned s resetting fun t => AfterReset s t)) ∧
  ∀ s : State, s.run.powered = true → Runs .powerLoss s (.eid :: .nss :: resetting) fun t =>
    t.run = { RunSt.reset with powered := false } ∧ t.clk.tick = 0 ∧ t.clk.optime = s.clk.optime ∧
      t.clk.powerCycles = s.clk.powerCycles ∧
    t.rings = [] ∧ t.cmds = [] ∧ t.cache = s.cache.filter (·.dirty) ∧ t.pools.map (·.geom) = s.pools.map (·.geom) ∧
    t.dies.map (·.recd.slots) = s.dies.map (·.recd.slots) ∧ t.dies.map (·.jr.entries) = s.dies.map (·.jr.unprogrammed.entries) ∧
    t.dies.map (·.saved) = s.dies.map (·.saved)

/-- R460, R461: a die at 100 degrees starts the internal cap with 6002h, which falls in steps and is lifted once the dies
are cool; at the trip temperature 6003h, the power-fail sequence and, without a vault, the yield of the package. -/
def Obligations.HeatLimits : Prop :=
  (∀ (d : Nat) (g : BitVec 8) (s : State), checksRun s d = true → s.run.halted = false → 100 ≤ degrees g →
    Runs (.thermalWarning d g) s (.hw :: .pw :: raising) fun t => (∃ y, t.die? d = some y ∧ y.hw.temp = g) ∧
      Pending t d 0x6002 ∧
      (s.pw.icap = 0 → t.pw = { s.pw with icap := max (capMin s) (powerAvg s / 10), icapAt := s.clk.tick, cool := 0 }) ∧
      (s.pw.icap ≠ 0 → t.pw = { s.pw with cool := 0 })) ∧
  (∀ s : State, s.on = true → s.pw.icap ≠ 0 →
    (s.pw.icapAt + 2500 ≤ s.clk.tick → Runs .thermalCapStep s [.pw] fun t =>
      t.pw = { s.pw with icap := max (capMin s) (s.pw.icap - capMax s * 5 / 2400), icapAt := s.clk.tick }) ∧
    (2500 ≤ s.pw.cool → Runs .thermalCapLifted s [.pw] fun t => t.pw = { s.pw with icap := 0 })) ∧
  ∀ (d : Nat) (s : State), checksRun s d = true → s.pw.trip = false →
    Runs (.thermalTrip d) s (.fns :: .free :: .health :: .jr :: .link :: .log :: .pair :: .pw :: .reg :: .rfl :: .run ::
      raising) fun t =>
      t.pw.trip = true ∧ Pending t d 0x6003 ∧ t.run.pfail.isSome ∧ (anyVault s = false → t.run.halted = true)

/-! ### Faults of a die's units -/

/-- R19, R20, R21, R24, R34, R391, R392, R393, R395, R474: a failed core's job passes to the lowest spare with 0040h, or the die yields
with cause 01h; an engine whose pass fails its residue lane or its inverse check, and a unit where a block fails its internal CRC a second
time, leave service, and the last of its kind takes the die with it; one that passes changes nothing; a lane below margin four times is
retired, its link narrower at once where L0p is supported; a fabric module goes down. -/
def Obligations.UnitsLeaveService : Prop :=
  ∀ (d : Nat) (s : State) (x : DieSt), s.die? d = some x → checksRun s d = true → s.run.halted = false →
    (∀ i job, x.hw.cores[i]? = some job → job ≠ 0x0F →
      (∀ j l, job ≠ 9 → x.hw.spares = j :: l → Runs (.lockstepMismatch d [i]) s (.hw :: .cmds :: .free :: .pair ::
        raising) fun t =>
        (∃ y, t.die? d = some y ∧ y.hw.cores = (x.hw.cores.set i 0x0F).set j job) ∧ Pending t d 0x0040 ∧
        t.cmds.map (·.ref) = s.cmds.map (·.ref)) ∧
      (job ≠ 9 → x.hw.spares = [] → Runs (.lockstepMismatch d [i]) s (.hw :: yielding) (Yields d 1)) ∧
      (job = 9 → Runs (.lockstepMismatch d [i]) s (.hw :: raising) fun t => Pending t d 0x0041 ∧
        (x.hw.spares.length ≤ 1 → Pending t d 0x0042) ∧ ∃ y, t.die? d = some y ∧ y.hw.cores = x.hw.cores.set i 0x0F ∧
          y.hw.lbistFail = satAdd top32 x.hw.lbistFail 1)) ∧
    (∀ u (p a : List GfBeat), x.hw.gf[u]? = some true →
      (passOk p = true → exec (.gfResidueFault d u ⟨p, a⟩) s = .next s) ∧
      (passOk p = false → passOk a = true → (x.hw.gf.set u false).any id = true →
        Runs (.gfResidueFault d u ⟨p, a⟩) s (.hw :: raising) fun t => Pending t d 0x1001 ∧
          ∃ y, t.die? d = some y ∧ y.hw.gf = x.hw.gf.set u false) ∧
      (passOk p = false → (x.hw.gf.set u false).any id = false → Runs (.gfResidueFault d u ⟨p, a⟩) s (.hw :: yielding) fun t =>
        Yields d 2 t ∧ Pending t d 0x1001) ∧
      (passOk p = false → passOk a = false → x.hw.gf = [true, true] → Runs (.gfResidueFault d u ⟨p, a⟩) s (.hw :: yielding) fun t =>
        Yields d 2 t ∧ ∃ y, t.die? d = some y ∧ y.hw.gf = [false, false])) ∧
    (∀ u (p a : AesRun), x.hw.aes[u]? = some true →
      (aesRunOk p = true → exec (.aesCheckFault d u ⟨p, a⟩) s = .next s) ∧
      (aesRunOk p = false → aesRunOk a = true → (x.hw.aes.set u false).any id = true →
        Runs (.aesCheckFault d u ⟨p, a⟩) s (.hw :: raising) fun t => Pending t d 0x1002 ∧
          ∃ y, t.die? d = some y ∧ y.hw.aes = x.hw.aes.set u false) ∧
      (aesRunOk p = false → (x.hw.aes.set u false).any id = false → Runs (.aesCheckFault d u ⟨p, a⟩) s (.hw :: yielding) fun t =>
        Yields d 6 t ∧ Pending t d 0x1002)) ∧
    (∀ u port (p a : Xfer), unitServes s d u port = true →
      (xferOk p = true → exec (.datapathCrcError d u ⟨port, p, a⟩) s = .next s) ∧
      (xferOk p = false → xferOk a = true → Runs (.datapathCrcError d u ⟨port, p, a⟩) s (.hw :: raising) fun t =>
        Pending t d 0x1003 ∧ ∃ y, t.die? d = some y ∧ y.hw = { x.hw with dcount := y.hw.dcount }) ∧
      (xferOk p = false → xferOk a = false →
        (∀ m, u = 0x30 + m → m < 16 →
          ((x.hw.movers.set m false).any id = true → Runs (.datapathCrcError d u ⟨port, p, a⟩) s (.hw :: raising) fun t =>
            Pending t d 0x1003 ∧ ∃ y, t.die? d = some y ∧ y.hw.movers = x.hw.movers.set m false) ∧
          ((x.hw.movers.set m false).any id = false → Runs (.datapathCrcError d u ⟨port, p, a⟩) s (.hw :: yielding) (Yields d 6))) ∧
        (u = 0x40 → Runs (.datapathCrcError d u ⟨port, p, a⟩) s (.hw :: yielding) (Yields d 6)) ∧
        (∀ h, u = 0x41 → portOut (s.portMode d) port x.hw = h →
          (h.driveLanes ≠ 0 → Runs (.datapathCrcError d u ⟨port, p, a⟩) s (.hw :: raising) fun t => Pending t d 0x1003 ∧
            ∃ y, t.die? d = some y ∧ y.hw = { h with dcount := y.hw.dcount }) ∧
          (h.driveLanes = 0 → Runs (.datapathCrcError d u ⟨port, p, a⟩) s (.hw :: yielding) (Yields d 6))))) ∧
    (∀ m e n, x.hw.fabric[m]? = some true → fabricPeer s.id.part d m = some (e, n) → e ≠ d →
      Runs (.fabricLinkDown d m) s (.hw :: .cmds :: raising) fun t => Pending t d 0x0050 ∧
        (∃ y, t.die? d = some y ∧ y.hw.fabric = x.hw.fabric.set m false) ∧
        (∀ z, s.die? e = some z → ∃ w, t.die? e = some w ∧ w.hw.fabric = z.hw.fabric.set n false) ∧
        ∀ c ∈ t.cmds, ∃ c' ∈ s.cmds, c'.ref = c.ref ∧ ∀ a b, c'.route.head? = some a → c'.route.getLast? = some b →
          c.route = fabricPath t a b) ∧
    ∀ lane n l0p, lane ∉ x.hw.lanesRetired → ((x.hw.eye.find? (·.1 == lane)).map (·.2)).getD 0 = n →
      (Runs (.eyeMeasure d lane ⟨false, l0p⟩) s [.hw] fun t => ∃ y, t.die? d = some y ∧
        y.hw = { x.hw with eye := x.hw.eye.filter (·.1 != lane) }) ∧
      (n < 3 → Runs (.eyeMeasure d lane ⟨true, l0p⟩) s [.hw] fun t => ∃ y, t.die? d = some y ∧
        y.hw = { x.hw with eye := (lane, n + 1) :: x.hw.eye.filter (·.1 != lane) }) ∧
      (3 ≤ n → Runs (.eyeMeasure d lane ⟨true, l0p⟩) s (.hw :: .link :: raising) fun t => Pending t d 0x6020 ∧ ∃ y, t.die? d = some y ∧
        y.hw.lanesRetired = insNat lane x.hw.lanesRetired ∧
        y.hw.hostWidth = (if l0p = true ∧ lane < 16 then
          min x.hw.hostWidth (widthOf (16 - ((insNat lane x.hw.lanesRetired).filter (· < 16)).length)) else x.hw.hostWidth) ∧
        y.hw.driveRates = if l0p = true ∧ 16 ≤ lane ∧ lane < 40 then x.hw.driveRates.set (lane - 16) 0 else x.hw.driveRates)

/-- R26, R27, R28, R30, R166, R173, R390, R397, R398, R432, R473: uncorrectable SRAM and DDR errors, met by an access or by a patrol, take
the step of the place they are in; patrols and calibrations are noted; a failing nonvolatile unit goes into a spare one, a failing channel,
and one that corrected more than 64 errors in a window, is spared. -/
def Obligations.MemoriesWatched : Prop :=
  ∀ (d : Nat) (s : State) (x : DieSt), s.die? d = some x → checksRun s d = true → s.run.halted = false →
    (∀ pat, RunsOn (.sramUncorrectable d ⟨pat, .layout⟩) s (.hw :: raising) fun t => Pending t d 0x0100) ∧
    (∀ pat src m n, RunsOn (.sramUncorrectable d ⟨pat, .reflectBuf src m n⟩) s (.hw :: .rfl :: raising) fun t => Pending t d 0x0100 ∧
      ∃ y, t.die? d = some y ∧ ∀ h, h ∈ y.rfl.held ↔ h ∈ x.rfl.held ∧ ¬(h.seg.src = src ∧ h.seg.msgno = m ∧ h.seg.segno = n)) ∧
    (∀ pat, RunsOn (.sramUncorrectable d ⟨pat, .shared⟩) s (.hw :: yielding) (fun t => Yields d 6 t ∧ Pending t d 0x0100)) ∧
    (∀ pat r i, RunsOn (.sramUncorrectable d ⟨pat, .ringEntry r i⟩) s (.hw :: .rings :: raising) fun t => Pending t d 0x0100 ∧
      ∀ y z, t.ring? d r = some y → s.ring? d r = some z → (∀ e, e ∈ y.pushed ↔ e ∈ z.pushed ∧ e.1 ≠ i) ∧
        ∀ j, j ∈ y.fetched ↔ j ∈ z.fetched ∧ j ≠ i) ∧
    (∀ pat n st, RunsOn (.sramUncorrectable d ⟨pat, .gather n st⟩) s (.hw :: .destages :: .mcmds ::
      raising) fun t => Pending t d 0x0100 ∧
      ∀ e ∈ t.destages, e.pool = n → e.stripe = st → e.reading = true ∧ e.got = [] ∧ e.asked = []) ∧
    (∀ pat i, i < x.recd.faultArea.length → RunsOn (.sramUncorrectable d ⟨pat, .faultArea i⟩) s (.hw ::
      raising) fun t => ∃ y, t.die? d = some y ∧
      y.recd.faultArea = x.recd.faultArea.eraseIdx i ∧ y.recd.fdrop = satAdd 0xFF x.recd.fdrop 1) ∧
    (∀ pat c job j l, x.hw.cores[c]? = some job → job < 9 → x.hw.spares = j :: l →
      RunsOn (.sramUncorrectable d ⟨pat, .coreMem c⟩) s (.hw :: .cmds :: .free :: .pair :: raising) fun t => Pending t d 0x0100 ∧
        Pending t d 0x0040 ∧ ∃ y, t.die? d = some y ∧ y.hw.cores = (x.hw.cores.set c 0x0F).set j job) ∧
    (∀ ch how, refreshed s d = false →
      (∀ v l, RunsOn (.ddrUncorrectable d ⟨ch, how⟩ (.mirror v l)) s (.hw :: .cache :: .rfl :: raising) fun t => Pending t d (codeOf how) ∧
        ∀ b, s.cached? v l = some b → ∀ q w, s.vol? v = some w → s.pool? w.pool = some q → q.shadow = some d → b.onShadow = true →
          b.dirty = true → ∀ e ∈ t.cache, e.vol = v → e.jsn = b.jsn → e.dirty = true → e.mirrored = false) ∧
      RunsOn (.ddrUncorrectable d ⟨ch, how⟩ (.directory true)) s (.hw :: raising) (fun t => Pending t d (codeOf how)) ∧
      RunsOn (.ddrUncorrectable d ⟨ch, how⟩ (.directory false)) s (.hw :: yielding) (fun t => Yields d 6 t ∧ Pending t d (codeOf how)) ∧
      (∀ v l, RunsOn (.ddrUncorrectable d ⟨ch, how⟩ (.readCache v l)) s (.hw :: .cache :: raising) fun t => Pending t d (codeOf how) ∧
        t.cache = s.cache.filter fun b => !(b.vol == v && b.lba == l && !b.dirty)) ∧
      (∀ r w, RunsOn (.ddrUncorrectable d ⟨ch, how⟩ (.window r w)) s (.hw :: .wins :: raising) fun t => Pending t d (codeOf how) ∧
        ∀ e ∈ t.refl.wins, e.die = d → e.reader = r → e.writer = w → e.bad = true) ∧
      (∀ k, RunsOn (.ddrUncorrectable d ⟨ch, how⟩ (.region k)) s (.hw :: .regions :: raising) fun t => Pending t d (codeOf how) ∧
        ∀ g ∈ t.refl.regions, g.die = d → g.key = k → g.host = none → g.bad = true) ∧
      ∀ v l good b, s.cached? v l = some b → b.dirty = true →
        ((good && b.mirrored) = true → RunsOn (.ddrUncorrectable d ⟨ch, how⟩ (.protectedUnit v l good)) s (.hw ::
          raising) fun t => Pending t d (codeOf how)) ∧
        ((good && b.mirrored) = false →
          RunsOn (.ddrUncorrectable d ⟨ch, how⟩ (.protectedUnit v l good)) s (.hw :: .cache :: .destages :: .jr :: .pools ::
            ending) fun t =>
            Pending t d (codeOf how) ∧ Pending t d 0x6015 ∧ ∀ e ∈ t.cache, ¬(e.dirty = true ∧ e.vol = b.vol ∧ e.jsn = b.jsn))) ∧
    (0 < x.hw.nvSpare → Runs (.nvUnitRetired d) s (.hw :: raising) fun t => Pending t d 0x0111 ∧ ∃ y, t.die? d = some y ∧
      y.hw.nvSpare = x.hw.nvSpare - 1 ∧ y.hw.nvUsed = satAdd top32 x.hw.nvUsed 1) ∧
    (x.hw.nvSpare = 0 → x.hw.nvNone = false → Runs (.nvUnitRetired d) s (.hw :: raising) fun t => Pending t d 0x0110 ∧
      ∃ y, t.die? d = some y ∧ y.hw.nvNone = true) ∧
    (x.hw.nvSpare = 0 → x.hw.nvNone = true → Runs (.nvUnitRetired d) s (.hw :: yielding) (Yields d 3)) ∧
    (∀ n, Runs (.sramPatrol d n) s (.hw :: .tests :: ending) fun t => ∃ y, t.die? d = some y ∧ y.hw.sramPatrol = s.clk.tick ∧
      y.hw.sramCe = satAdd top32 x.hw.sramCe n) ∧
    (∀ bad hit, (bad.filter fun j => x.jr.entries.any fun e => e.jsn == j) = hit → Runs (.nvVerifyPass d bad) s (.hw :: .jr ::
      .tests :: ending) fun t =>
      (∃ y, t.die? d = some y ∧ y.hw.nvVerify = s.clk.tick ∧ y.jr.invalid = x.jr.invalid + hit.length ∧
        y.jr.entries = x.jr.entries) ∧
      (hit ≠ [] → Pending t d 0x1203)) ∧
    (refreshed s d = false →
      (∀ l, Runs (.ddrPatrol d l) s (.hw :: .cache :: raising) fun t => ∃ y, t.die? d = some y ∧ y.hw.ddrPatrol = s.clk.tick ∧
        y.hw.ddrCe = (l.filter (0 < ·)).foldl (satAdd top32) x.hw.ddrCe) ∧
      ∀ ch, x.hw.ddr[ch]? = some true →
        (∀ n, 64 < n → Runs (.ddrPatrol d (List.replicate ch 0 ++ [n])) s (.hw :: .cache :: raising) fun t => Pending t d 0x6022 ∧
          ∃ y, t.die? d = some y ∧ y.hw.ddr = x.hw.ddr.set ch false) ∧
        (Runs (.ddrZqCalibration d ch) s [.hw] fun t => ∃ y, t.die? d = some y ∧
          y.hw = { x.hw with zq := x.hw.zq.set ch s.clk.tick }) ∧
        (Runs (.ddrRetrained d ch true) s (.hw :: raising) fun t => Pending t d 0x6021 ∧ ∃ y, t.die? d = some y ∧
          y.hw = { x.hw with retrainFails := x.hw.retrainFails.set ch 0 }) ∧
        (x.hw.retrainFails[ch]? = some 0 → Runs (.ddrRetrained d ch false) s [.hw] fun t => ∃ y, t.die? d = some y ∧
          y.hw = { x.hw with retrainFails := x.hw.retrainFails.set ch 1 }) ∧
        (x.hw.retrainFails[ch]? = some 1 → Runs (.ddrRetrained d ch false) s (.hw :: .cache :: raising) fun t => Pending t d 0x6022 ∧
          ∃ y, t.die? d = some y ∧ y.hw.ddr = x.hw.ddr.set ch false)) ∧
    ∀ ch, x.hw.ddr[ch]? = some true → Runs (.ddrChannelSpared d ch) s (.hw :: .cache :: raising) fun t => Pending t d 0x6022 ∧
      ∃ y, t.die? d = some y ∧ y.hw = { x.hw with ddr := x.hw.ddr.set ch false }

/-! ### Silence, takeovers, the pair -/

/-- R359, R361, R363, R364, R369, R371, R375, R377: a silent die or partner is noted with its event; the pools of a lost die
pass to dies in service with 0044h, and what only the partner holds of them stays there until it is needed; the decision separates the packages or takes over, through the witness where one is set,
and a conflict there makes the package yield with cause 0Bh. -/
def Obligations.TakeoversRun : Prop :=
  (∀ s : State, s.on = true → s.run.halted = false → (s.die? s.id.lead).isSome →
    (∀ e, e ∉ s.pair.lostOwn → (∃ k ∈ s.aliveDies, k ≠ e) → (∀ k ∈ s.aliveDies, k ≠ e → silentAt s k e = true) →
      RunsOn (.heartbeatLost (.die e)) s [.hw, .pair] fun t => e ∈ t.pair.lostOwn ∧
        (s.alive e = true → (∀ n ∈ poolsOn s e, n ∈ t.pair.kerfPools) ∧ (s.pair.kerf = none → poolsOn s e ≠ [] → t.pair.kerf = some (s.clk.tick - 1)))) ∧
    (s.id.inPair = true → s.pair.hbOk = true → partnerSilent s = true → RunsOn (.heartbeatLost .partner) s (.hw :: .pair ::
      raising) fun t =>
      t.pair = { s.pair with hbOk := false, lostAt := some s.clk.tick, okTicks := 0 } ∧ Pending t s.id.lead 0x5040) ∧
    (∀ e, s.id.inPair = true → s.pair.state = .paired → s.pair.hbOk = true → s.pair.holdIn = true → e ∉ s.pair.lostDies →
      silentAt s e e = true ∨ partnerDieYielded s e = true → partnerSilent s = false →
      RunsOn (.heartbeatLost (.partnerDie e)) s (.cache :: .destages :: .hw :: .jr :: .pair :: .pools :: .vols :: ending) fun t =>
        t.pair = { s.pair with lostDies := insNat e s.pair.lostDies } ∧ Pending t s.id.lead 0x5049)) ∧
  ∀ s : State, s.running = true → (s.die? s.id.lead).isSome →
    (∀ d x, s.die? d = some x → x.hold = false → dieLost s d = true → poolsOn s d ≠ [] ∨ shadowedOn s d ≠ [] ∨ s.alive d = true →
      (2 ≤ s.pw.pstate → RunsOn (.shadowTakeover d) s [.pw] fun t => t = wake s) ∧
      (s.pw.pstate < 2 →
        RunsOn (.shadowTakeover d) s importing (fun t => NoDieTakes t ∨ (t.run = s.run ∧ t.alive d = false ∧
          (∀ n ∈ poolsOn s d, n ∉ t.pair.kerfPools) ∧ (∀ n ∈ poolsOn s d, ∃ q, t.pool? n = some q ∧ t.alive q.home = true) ∧
          (poolsOn s d ≠ [] → ∃ e, Pending t e 0x0044))) ∧
        (poolsOn s d = [] → RunsOn (.shadowTakeover d) s importing fun t => t.run = s.run ∧ t.alive d = false ∧
          (t.pair.kerf = none ∨ t.pair.kerf = s.pair.kerf) ∧ ∀ n ∈ shadowedOn s d, ∀ q, t.pool? n = some q → q.shadow ≠ some d) ∧
        ∀ n q, poolsOn s d = [n] → s.pool? n = some q → q.home = d → q.away = false →
          (newHome (silence d s) q q.shadow = none → RunsOn (.shadowTakeover d) s importing NoDieTakes) ∧
          ∀ h, newHome (silence d s) q q.shadow = some h → RunsOn (.shadowTakeover d) s importing fun t => t.run = s.run ∧
            t.alive d = false ∧ n ∉ t.pair.kerfPools ∧ (∃ q', t.pool? n = some q' ∧ q'.home = h) ∧ Pending t h 0x0044 ∧
            (s.pair.state = .paired → ∀ b ∈ s.cache, b.dirty = true → b.mirrored = true → b.onShadow = false →
              (s.vol? b.vol).map (·.pool) = some n → ∃ b' ∈ t.cache, b'.vol = b.vol ∧ b'.lba = b.lba ∧ b'.remote = some d ∧ b'.mirrored = false))) ∧
    (∀ h, s.pair.hbOk = true → RunsOn (.takeoverDecision h) s [.pair] fun t => t.pair = { s.pair with holdIn := h }) ∧
    (∀ h, s.id.inPair = true → s.pair.hbOk = false → s.pair.contest = none → s.pair.awaiting = false → decisionDue s = true →
      s.pair.state = .paired →
      (holdSeen s h = true → RunsOn (.takeoverDecision h) s (.cache :: .pair :: .pools :: raising) fun t =>
        t.pair.state = .separated ∧ t.pair.since = s.clk.tick % 2 ^ 48 ∧ t.pair.holdIn = h ∧ Pending t s.id.lead 0x5042) ∧
      (holdSeen s h = false → 2 ≤ s.pw.pstate → RunsOn (.takeoverDecision h) s [.pair, .pw] fun t => t.pair.holdIn = h ∧
        t.pair.state = .paired ∧ (s.pw.chg = none → t.pw.chg = some ⟨s.pw.opstate, s.pw.opCap, s.clk.tick, some (s.clk.tick + 1), none⟩)) ∧
      (holdSeen s h = false → s.pw.pstate < 2 →
        (s.pair.yieldSeen = true → Imports (.takeoverDecision h) s importing fun t => t.pair.holdIn = h ∧ TookOver s t) ∧
        (s.pair.yieldSeen = false → s.pair.witness = none → RunsOn (.takeoverDecision h) s (.cache :: .pair :: .pools :: raising) fun t =>
          t.pair = { s.pair with holdIn := h, state := .survivor, since := s.clk.tick % 2 ^ 48, awaiting := true } ∧
            Pending t s.id.lead 0x504B) ∧
        (s.pair.yieldSeen = false → s.pair.witness.isSome → Imports (.takeoverDecision h) s importing fun t =>
          t.pair.holdIn = h ∧ Contests s (s.pair.lostAt.getD s.clk.tick - 1) t))) ∧
    (∀ f w, s.pair.contest = some f → s.pair.witness = some w → s.pair.acquiring = false → acquireAt s f ≤ s.clk.tick →
      Runs .witnessAcquire s [.pair, .out] fun t => t.pair = { s.pair with acquiring := true } ∧
        Puts s t (.reserve w s.id.lead 1 (reserveKey s s.id.lead))) ∧
    (s.pair.acquiring = true → s.pair.contest.isSome →
      (RunsOn (.witnessAcquireDone true) s yielding fun t => t.run.halted = true ∧ faultPin t = false ∧ t.reg.ycause = 0x0B ∧
        Pending t s.id.lead 0x5046) ∧
      (RunsOn (.witnessAcquireDone false) s (.cmds :: .jr :: .mcmds :: .pair :: .pools :: .uniq :: raising) fun t => t.pair.contest = none ∧
        t.pair.acquiring = false ∧ t.pair.witnessHeld = true ∧ t.pair.takeovers = satAdd top32 s.pair.takeovers 1 ∧
        Pending t s.id.lead 0x5045))

/-- R366, R370, R372, R377, R379, R381, R382, R478: a configuration command completes once the partner has acknowledged its change or
the pair has parted, and not before; the pair rejoins at the tick that a rejoin record names, with 5043h; a partner that never came is
contested; dry takeovers and the witness are measured; the health report is written between an odd and an even sequence number. -/
def Obligations.PairKeepsHouse : Prop :=
  (∀ (s : State) (c : Cmd) (w : Told), s.cmds.filter (·.told.isSome) = [c] → c.told = some w → s.cmd? c.ref = some c →
    (s.ring? c.ref.die c.ref.ring).isSome → s.run.halted = false → (s.die? c.ref.die).any (·.linkUp) = true →
    ((s.pair.state ≠ .paired ∨ ∃ m, w.msg = some m ∧ ∀ x, s.die? c.ref.die = some x → ∀ q ∈ x.rfl.sys, q.msgno ≠ m) →
      Completes s (endTold s) c.ref 0 { result := w.result, extra := w.extra } ∧ Frame s (endTold s) ending) ∧
    (s.pair.state = .paired → (∀ m, w.msg = some m → ∃ x, s.die? c.ref.die = some x ∧ ∃ q ∈ x.rfl.sys, q.msgno = m) → endTold s = s)) ∧
  ∀ s : State, (s.die? s.id.lead).isSome →
    (s.pair.wireFault = true → 250000 ≤ s.pair.wireAgree → Runs .holdWireCleared s [.pair] fun t =>
      t.pair = { s.pair with wireFault := false, wireDiff := 0, wireAgree := 0 }) ∧
    (s.running = true →
      (mayRejoin s = true → s.id.pkgid = 0 → s.pair.rejoinAt = none → s.pair.contest = none → 25000 ≤ s.pair.okTicks →
        Runs .pairRejoin s [.jr, .link, .out, .pair, .rfl] fun t => ∃ m,
          t.pair = { s.pair with rejoinAt := some (s.clk.tick + rdelay), rejoinMsg := some m }) ∧
      (∀ t0, s.pair.rejoinAt = some t0 → mayRejoin s = true → s.pair.rejoinMsg = none → t0 ≤ s.clk.tick →
        RunsOn .rejoinTick s (.cache :: .clk :: .cmds :: .free :: .link :: .pair :: .rfl :: raising) fun t => t.pair.state = .paired ∧
          t.pair.since = s.clk.tick % 2 ^ 48 ∧ t.pair.partnerProt = Config.peerProt s.free ∧ t.pair.shut = false ∧
          t.pair.witnessHeld = false ∧ t.pair.rejoinAt = none ∧ t.pair.rejoins = satAdd top32 s.pair.rejoins 1 ∧
            Pending t s.id.lead 0x5043) ∧
      (s.id.inPair = true → s.pair.hbOk = false → s.pair.lastHb < s.run.readyAt → holdSeen s s.pair.holdIn = false →
        s.pair.contest = none →
        s.pair.awaiting = false → s.pair.shut = false → s.run.readyAt + 250000 ≤ s.clk.tick →
        (s.pair.witness = none → RunsOn .partnerAbsentTimeout s (.cache :: .pair :: .pools ::
          raising) fun t => t.pair = { s.pair with state := .survivor, since := s.clk.tick % 2 ^ 48, awaiting := true } ∧
          Pending t s.id.lead 0x504B) ∧
        (s.pair.witness.isSome → Imports .partnerAbsentTimeout s importing (Contests s s.clk.tick))) ∧
      (∀ d h x, s.die? d = some x → x.alive = true → dryHolder s d h = true →
        (dryEqual s d h = true → RunsOn (.dryTakeover d h true) s (.hw :: .tests :: ending) fun t => ∃ y, t.die? d = some y ∧
          y.hw.dryDone = s.clk.tick % 2 ^ 48 ∧
          y.hw.dryMismatch = x.hw.dryMismatch ∧ ∀ f ∈ y.hw.dryFails, f.1 ≠ h) ∧
        ∀ fold, (fold && dryEqual s d h) = false →
          ((∀ f ∈ x.hw.dryFails, f.1 ≠ h) → RunsOn (.dryTakeover d h fold) s (.hw :: .jr :: .rfl :: .tests ::
            ending) fun t => Pending t d 0x0046 ∧
            (h ≠ d → ∀ z, s.die? h = some z → ∃ z', t.die? h = some z' ∧ (d, shadowEntries s d h) ∈ z'.rfl.copies) ∧
            ∃ y, t.die? d = some y ∧ y.jr = (if h = d then x.jr.sendAnew else x.jr) ∧ y.hw.dryDone = s.clk.tick % 2 ^ 48 ∧
              y.hw.dryMismatch = satAdd top32 x.hw.dryMismatch 1 ∧ (h, 1) ∈ y.hw.dryFails) ∧
          (h ≠ d → s.alive h = true → ∀ n, 1 ≤ n → x.hw.dryFails.find? (fun f => f.1 == h) = some (h, n) →
            RunsOn (.dryTakeover d h fold) s (.hw :: .tests :: .mcmds :: .meters :: .rings :: yielding) fun t => Pending t d 0x0046 ∧
              Yields h 0x0E t)) ∧
      (∀ l, s.pair.witness.isSome → Runs (.witnessMeasure l) s (.pair :: .feat :: ending) fun t =>
        t.pair = { s.pair with witnessLat := min top32 l, witnessSlow := decide (300 < l) } ∧
          (300 < l → Pending t s.id.lead 0x5047) ∧
        ∀ w ∈ s.feat.waiters, w.2.1 = 7 → t.cmd? w.1 = none) ∧
      (∀ b, s.feat.healthAddr ≠ 0 → healthBytes s (s.feat.healthSeq + 2) = b → Runs .healthReportWrite s [.feat, .out] fun t =>
        t.feat = { s.feat with healthSeq := s.feat.healthSeq + 2 } ∧
        t.out = s.out ++ [.host (s.feat.healthAddr + 12) (le 4 (s.feat.healthSeq + 1).toNat),
          .host (s.feat.healthAddr + 16) (b.drop 16),
                          .host s.feat.healthAddr (b.take 16)]))

/-! ### The protected cache and the journal -/

/-- R129, R135, R144, R156, R163, R166, R170, R363: a unit protected is dirty in the cache under its UNIT COMMIT, and with the
last one the command ends or waits for its destage; an aged stripe is queued; a queued one is destaged under a new intent, once what of
it only the partner holds has been read from there; a marked unit is filled with zeros before its first destage, and is no longer marked once
they are on the members. -/
def Obligations.CacheWorks : Prop :=
  (∀ (c : CmdRef) (s : State) (k : Cmd) (v : Vol) (p : Pool) (j : Nat) (bs : List Nat), s.cmd? c = some k →
    s.vol? k.entry.vol.toNat = some v →
    s.pool? v.pool = some p → mayProtect s p v k = true → unitJsn s p k = j → unitBlocks p v k k.units = bs →
    RunsOn (.unitProtected c) s (.cache :: .jr :: .pools :: .uniq :: .vols :: ending) fun t =>
      (∀ l ∈ bs, ∃ b, t.cached? v.num l = some b ∧ b.dirty = true ∧ b.jsn = j ∧ b.data = (protectedBlock s p v k j l).data ∧
        b.pi = (protectedBlock s p v k j l).pi ∧ b.mirrored = (mirrorPeer s p).isSome) ∧
      (bs ≠ [] → ∃ y e w, t.die? p.home = some y ∧ e ∈ y.jr.entries ∧ e.jsn = j ∧ e.pool = some p.num ∧
        e.body = .unitCommit v.num k.units (k.lba + k.units * unitLen v) (min (unitLen v) (k.nblk - k.units * unitLen v)) (unitsOf v k) w
          (c.die * 512 + c.ring) k.entry.tag k.aux) ∧
      (k.units + 1 ≠ unitsOf v k → t.cmd? c = some { k with units := k.units + 1, aux := j, past := true, unitOut := none }) ∧
      (k.units + 1 = unitsOf v k →
        (k.entry.fua = false → k.entry.nocache = false → writeThrough s p v = false → s.pair.contest = none →
          wholeUnits p v k = [] →
          (∀ x, s.die? p.home = some x → x.protGib * 2 ^ 30 ≤ protBytes s p.home) → (s.ring? c.die c.ring).isSome →
          (s.die? c.die).any (·.linkUp) = true → Completes s t c 0 { ndone := k.nblk }) ∧
        (s.pair.contest.isSome → p.offline = none → ∃ k', t.cmd? c = some k' ∧ k'.stage = .durable ∧ k'.clamp = false) ∧
        (k.entry.fua = true → bs ≠ [] → p.offline = none → ∃ k', t.cmd? c = some k' ∧ k'.stage = .durable ∧ k'.clamp = false) ∧
        (k.entry.fua = true → bs ≠ [] → p.offline.isSome → (s.ring? c.die c.ring).isSome → (s.die? c.die).any (·.linkUp) = true →
          Completes s t c 0x0601 { ndone := k.nblk, part := true }))) ∧
  ∀ (s : State) (p : Pool), s.pool? p.num = some p → canDestage s p = true →
    (∀ (n : Nat) b, b ∈ stripeDirty s p (decide (2 ^ 47 ≤ n)) (n % 2 ^ 47) → b.1.since + p.age ≤ s.clk.tick →
      Runs (.stripeAgeLimit p.num n) s [.pools] fun t => t.pool? p.num = some { p with queued := insNat n p.queued }) ∧
    (∀ (n : Nat) (new : Bool) (st : Nat) snap, n < 2 ^ 48 → decide (2 ^ 47 ≤ n) = new → n % 2 ^ 47 = st →
      stripeDirty s p new st = snap → s.pw.pstate < 2 → s.pair.contest = none →
      n ∈ p.queued → intentsOf s p.home < 16384 → (∀ d ∈ s.destages, ¬(d.pool = p.num ∧ d.newGeom = new ∧ d.stripe = st)) →
      stripeHeld s p new st snap = false → journalRoom s p.home = true →
      (snap = [] → RunsOn (.destageStart p.num n) s [.pools] fun t => t.pool? p.num = some { p with queued := p.queued.filter (· != n) }) ∧
      (∀ x e, snap = [x] → x.1.remote = some e → x.1.asked = none → s.pair.state = .paired → e ∉ s.pair.lostDies → x.1 ∈ s.cache →
        homeOfBlk s x.1 = some p.home → sendsTo s (epAddr s.partner e 0) = true →
        msgsFull s p.home (epAddr s.id.pkgid p.home 0) (epAddr s.partner e 0) = false →
        (∀ y, s.die? p.home = some y → y.rfl.sysWait = []) →
        RunsOn (.destageStart p.num n) s [.cache, .free, .link, .out, .rfl] fun t => t.destages = s.destages ∧
          ∃ g m, Puts s t (.segment p.home g) ∧ g.op = 2 ∧ g.key = 0xFFFD ∧ g.dst = epAddr s.partner e 0 ∧ g.msgno = m ∧
            g.aux = BitVec.ofNat 32 (x.1.data.length + x.1.pi.length) ∧ { x.1 with asked := some m } ∈ t.cache) ∧
      (snap ≠ [] → (∀ x ∈ snap, x.1.remote = none) → RunsOn (.destageStart p.num n) s [.cache, .destages, .jr, .pools, .uniq] fun t =>
        (∃ d, t.destages = s.destages ++ [d] ∧ d.pool = p.num ∧ d.newGeom = new ∧ d.stripe = st ∧ d.snap = snap ∧
          d.jsn = nextJsn s p.home ∧ d.gen = p.gen new st + 1 ∧ d.reading = true) ∧
        (∃ y e, t.die? p.home = some y ∧ e ∈ y.jr.entries ∧ e.jsn = nextJsn s p.home ∧ e.pool = some p.num) ∧
        ∃ q, t.pool? p.num = some q ∧ n ∉ q.queued)) ∧
    ∀ v i, s.vol? v.num = some v → v.pool = p.num →
      (mayFill s p v i = true → RunsOn (.zeroFill v.num i) s [.cache, .destages, .jr, .pools, .uniq, .vols] fun t =>
        t.vol? v.num = some { v with filling := insNat i v.filling } ∧
        ∀ x ∈ unitStripes p v i, ∃ d ∈ t.destages, d.pool = p.num ∧ d.newGeom = x.1 ∧ d.stripe = x.2 ∧ d.gen = p.gen x.1 x.2 + 1 ∧
          d.snap = zeroSnap s p v i x.1 x.2) ∧
      (s.vols = [v] → v.filling = [i] → filled s v i = true → ∃ w, (endFills s).vol? v.num = some w ∧ i ∉ w.zero ∧ w.filling = [])

/-- R170, R172, R175, R176, R177, R178, R184, R427, R433: the journal's anchors, spills and folds; the rates of a vault; the
saves of the operating time. -/
def Obligations.JournalWorks : Prop :=
  (∀ (d : Nat) (s : State) (x : DieSt), s.die? d = some x → s.running = true → x.alive = true →
    (∀ l k, journalRoom s d = true → x.jr.anchorTick + 2500 ≤ s.clk.tick ∨ x.jr.anchorTail + 4096 ≤ x.jr.tail →
      (x.jr.entries.filter fun e => match e.body with
        | .anchor .. => false
        | _ => true) = l → (l.head?.map (·.jsn)).getD x.jr.next = k →
      ∀ b, JBody.anchor k (l.length + 1) x.jr.segs.length (openIntents x.jr) = b →
      Runs (.anchor d) s [.jr] fun t => ∃ y, t.die? d = some y ∧ y.jr.anchorTail = k ∧ y.jr.anchorTick = s.clk.tick ∧
        y.jr.next = x.jr.next + 1 ∧ y.jr.entries = insEntry ⟨x.jr.next, d, none, b⟩ (x.jr.without (endedBy none b)).entries) ∧
    (∀ old ps, (x.jr.entries.filter fun e => decide (e.jsn < x.jr.tail + 4096)) = old →
      (old.filterMap (·.pool)).foldl (fun l p => insNat p l) [] = ps → 344064 ≤ x.jr.next - x.jr.tail →
      (64 < x.jr.segs.length + ps.length → x.jr.full = false → Runs (.journalSpill d) s (.jr ::
        raising) fun t => Pending t d 0x1202 ∧
        ∃ y, t.die? d = some y ∧ y.jr = { x.jr with full := true }) ∧
      (x.jr.segs.length + ps.length ≤ 64 → (∀ e ∈ x.jr.entries, staysLive e.body = true) →
        (∀ g ∈ x.jr.segs, ∃ e ∈ g.entries, e.pool = some g.pool) → Runs (.journalSpill d) s (.jr :: .mcmds :: .uniq :: raising) fun t => Pending t d 0x1200 ∧
        ∃ y, t.die? d = some y ∧
        y.jr.full = x.jr.full ∧ ∀ e ∈ old, ∀ n, e.pool = some n → (s.pool? n).isSome → e ∉ y.jr.entries ∧
          ∃ g ∈ y.jr.segs, g.pool = n ∧ e ∈ g.entries)) ∧
    (x.jr.full = true → x.jr.segs.length ≤ 48 → Runs (.journalFullCleared d) s [.jr] fun t => ∃ y, t.die? d = some y ∧
      y.jr = { x.jr with full := false }) ∧
    (Runs (.configFold d) s [.jr] fun t => ∃ y, t.die? d = some y ∧ y.jr.next = x.jr.next ∧
      ∀ e ∈ y.jr.entries, e ∈ x.jr.entries ∧ match e.body with
      | .lostBlocks .. | .tileState .. | .mapSwitch .. => False
      | _ => True) ∧
    ∀ v vr, x.vault = true → Runs (.vaultRateMeasure d v vr) s (.feat :: .health :: ending) fun t =>
      (∃ y, t.die? d = some y ∧ y.rateV = v ∧ y.rateVr = vr) ∧
      (0 < x.rateV → dirtyBudget { x with rateV := v } < dirtyBytes s d → dirtyBudget { x with rateV := v } < dirtyBudget x →
        Pending t d 0x6013)) ∧
  (∀ (s : State) (p : Pool) (m : Nat) (y : Member) (x : DieSt) (g : Segment), s.running = true → s.pool? p.num = some p →
    s.die? p.home = some x →
    s.serves p.home = true → g ∈ x.jr.segs → g.pool = p.num → m ∈ g.copies → p.members[m]? = some y → y.state = .failed →
    (∀ h ∈ x.jr.segs, h.pool = p.num → h.copies.Nodup) →
    Runs (.spillCopyReplaced p.num m) s (.jr :: .mcmds :: .uniq :: raising) fun t => Pending t p.home 0x1201 ∧
      ∃ z, t.die? p.home = some z ∧ ∀ h ∈ z.jr.segs, h.pool = p.num → m ∉ h.copies) ∧
  ∀ (d : Nat) (s : State) (x : DieSt), s.die? d = some x → s.on = true → 2 < s.run.phase →
    nextSave s.clk.optime ≤ s.clk.optime + 2500 →
    (∀ v, savedOf x = some v → v < nextSave s.clk.optime) →
    Runs (.optimeSave d) s [.health, .recd] fun t => ∃ y, t.die? d = some y ∧
      y.saved = saveUnits x.saved (nextSave s.clk.optime) ∧
      y.recd.savedDropped = x.recd.dropped ∧ y.recd.savedHoldOvf = x.recd.holdOvf

/-! ### The drive side -/

/-- R164, R222, R226, R227, R228, R251, R367: a member command's completion reaches the fetch or destage it serves; an error
is a fault of the sector, a retry on the next path, the failure of the member, or a reservation conflict that yields the
package; commands that last too long are retried, and at last fail their member. -/
def Obligations.MemberCommandsEnd : Prop :=
  ∀ (i : Nat) (s : State) (m : MCmd) (nx : Nat), s.mcmd? i = some m → s.drives = true → m.unsent s.clk.tick = false →
    ((s.ns? m.ns).map fun n => nextPath n m.path).getD m.path = nx →
    (m.isWrite = false →
      (∀ c key pos k, m.purpose = .fetch c key pos → s.cmd? c = some k →
        (∀ xs, RunsOn (.memberCompletion i (.readOk xs)) s [.cmds, .hw, .mcmds, .pools] fun t => t.mcmd? i = none ∧
          ∃ k', t.cmd? c = some k' ∧ ∀ f ∈ k'.fetches, f.key = key → (f.has pos).isSome ∨ pos ∈ f.bad) ∧
        (∀ e, e = .unrecovered ∨ e = .e2e → RunsOn (.memberCompletion i (.err e)) s [.cmds, .mcmds, .out,
          .pools] fun t => t.mcmd? i = none ∧ (nsFailed s m.ns = false → Puts s t (.admin m.ns m.path (.getLog 1))) ∧
          ∃ k', t.cmd? c = some k' ∧ ∀ f ∈ k'.fetches, f.key = key → pos ∈ f.bad)) ∧
      (∀ j pos off xs, m.purpose = .destage j pos off → RunsOn (.memberCompletion i (.readOk xs)) s [.destages, .hw, .mcmds,
        .pools] fun t =>
        t.mcmd? i = none ∧ ∀ d ∈ t.destages, d.id = j → (d.read? pos off).isSome ∨ (pos, off) ∈ d.bad) ∧
      ((∀ c b e, m.purpose ≠ .format c b e) → (∀ l, m.purpose ≠ .dealloc l) →
        RunsOn (.memberCompletion i (.err .other)) s [.mcmds, .out, .pools] fun t =>
        t.mcmd? i = some { m with path := nx, sgl := sglOn s m.ns nx, redo := some s.clk.tick })) ∧
    (m.done = false → RunsOn (.memberCompletion i (.err .aborted)) s [.mcmds] fun t =>
      t.mcmd? i = some { m with left := max 1 (m.left - 1) }) ∧
    (m.isWrite = true →
      ((∃ j pos off, m.purpose = .destage j pos off) ∨ (∃ l, m.purpose = .dealloc l) ∨ (∃ l, m.purpose = .preempt l) ∨
          (∃ n st, m.purpose = .work n st) ∨ m.purpose = .spill ∨ m.purpose = .spent →
        RunsOn (.memberCompletion i .done) s [.mcmds, .pools] fun t => (m.left ≤ 1 → t.mcmd? i = none) ∧
          (1 < m.left → t.mcmd? i = some { m with purpose := .spent, left := m.left - 1 })) ∧
      (m.purpose = .spent → ∀ e, e = .other ∨ e = .aborted → RunsOn (.memberCompletion i (.err e)) s [.mcmds, .out, .pools] fun t =>
        (m.left ≤ 1 → t.mcmd? i = none) ∧ (1 < m.left → t.mcmd? i = some { m with left := m.left - 1 })) ∧
      (RunsOn (.memberCompletion i (.err .reservation)) s yielding fun t => t.run.halted = true ∧ faultPin t = false ∧
        t.reg.ycause = 0x0B) ∧
      ((∀ c b e, m.purpose ≠ .format c b e) → (∀ l, m.purpose ≠ .dealloc l) → m.purpose ≠ .spent →
        (m.fails = 0 → RunsOn (.memberCompletion i (.err .other)) s [.mcmds, .out, .pools] fun t =>
          t.mcmd? i = some { m with fails := 1, path := nx, sgl := sglOn s m.ns nx, redo := some s.clk.tick }) ∧
        ∀ p x, 1 ≤ m.fails → Serves s m.ns p x → RunsOn (.memberCompletion i (.err .other)) s failing (FailedAs s m.ns p x 4)) ∧
      ∀ p x, m.pool.isSome → Serves s m.ns p x →
        RunsOn (.memberCompletion i (.err .writeProtected)) s failing (FailedAs s m.ns p x 5)) ∧
    (∀ p x, m.pool.isSome → Serves s m.ns p x →
      RunsOn (.memberCompletion i (.err .invalidNs)) s failing (FailedAs s m.ns p x 2) ∧
      (m.done = false → m.at_ + 750000 ≤ s.clk.tick → RunsOn (.memberTimeout i) s failing (FailedAs s m.ns p x 1))) ∧
    (∀ n p, m.pool = some n → s.pool? n = some p → (s.die? p.home).isSome →
      ((∃ new st pos off, m.purpose = .repair new st pos off) → RunsOn (.sectorRepaired i) s (.mcmds :: .pools ::
        raising) fun t =>
        (m.left ≤ 1 → t.mcmd? i = none) ∧ Pending t p.home 0x2120 ∧ ∃ q, t.pool? n = some q ∧
          q.members.map (·.repairs) = p.members.map fun x => if x.ns = m.ns then x.repairs + 1 else x.repairs) ∧
      (m.done = false → m.at_ + 6250 * m.tries ≤ s.clk.tick → RunsOn (.memberCommandRetried i) s (.cmds :: .destages ::
        .mcmds :: .pools :: raising) fun t =>
        t.mcmd? i = some { m with
                             tries := m.tries + 1
                             left := m.left + 1
                             path := nx
                             sgl := sglOn s m.ns nx } ∧
        Puts s t (.memberAbort i m.path) ∧
        (m.tries = 1 → Pending t p.home 0x2104) ∧ ∃ q, t.pool? n = some q ∧
          q.members.map (·.retries) = p.members.map fun x => if x.ns = m.ns then satAdd top32 x.retries 1 else x.retries)) ∧
    ∀ c b e, m.purpose = .format c b e → m.at_ + 15000000 ≤ s.clk.tick → (s.cmd? c).isSome → (s.ring? c.die c.ring).isSome →
      (s.die? c.die).any (·.linkUp) = true → RunsOn (.formatNvmTimeout i) s ending fun t => Completes s t c 0x0150 {} ∧
        ∀ x ∈ t.mcmds, ∀ b' e', x.purpose ≠ .format c b' e'

/-- R217, R219, R225, R228, R259: a member that is removed, fatal or unfit fails with its cause; a warning is noted with
2130h; a path is lost with 2102h and restored with 2103h; a namespace that appears is entered, and checked where it is a
member; while power fails it waits. -/
def Obligations.MembersReport : Prop :=
  ∀ s : State,
    (s.drives = true → ∀ ns p x, Serves s ns p x →
      RunsOn (.memberRemoved ns) s (.nss :: failing) (fun t => FailedAs s ns p x 2 t ∧ ∀ n, t.ns? ns = some n → n.up = []) ∧
      RunsOn (.controllerFatal ns) s failing (FailedAs s ns p x 3)) ∧
    (s.drives = true → ∀ ns w c, c = .asyncEvent ns w ∨ c = .smartPoll ns w →
      (w.getLsbD 3 = false → RunsOn c s (.nss :: raising) fun t => (∀ n, t.ns? ns = some n → n.warn = w) ∧
        ∀ p i, memberOf s ns = some (p, i) → (s.die? p.home).isSome → (w &&& 0x17) ≠ 0 → Pending t p.home 0x2130) ∧
      (w.getLsbD 3 = true → ∀ p x, Serves s ns p x → memberOf s ns = some (p, x) →
        RunsOn c s (.nss :: failing) (FailedAs s ns p x 5))) ∧
    (s.drives = true → ∀ ns d n, s.alive (pathOn d) = true → s.ns? ns = some n →
      (d ∈ n.up → RunsOn (.pathLost ns d) s (.nss :: raising) fun t => t.ns? ns = some { n with up := n.up.filter (· != d) } ∧
        Pending t (pathOn d) 0x2102) ∧
      (d ∈ usableDies n.info → d ∉ n.up → Runs (.pathRestored ns d) s (.nss :: raising) fun t =>
        t.ns? ns = some { n with up := insNat d n.up } ∧ Pending t (pathOn d) 0x2103 ∧
        (nsFailed s ns = false → (∀ q, queuesOn n.info d = some q → ∀ k, k < q.2.1 → Puts s t (.admin ns d (.createCq (k + 1) q.2.2.1)) ∧
          Puts s t (.admin ns d (.createSq (k + 1) q.2.2.1))) ∧
        (n.reserved = true → Puts s t (.reserve ns d 0 (reserveKey s (pathOn d))))))) ∧
    (s.on = true → 3 < s.run.phase → s.run.halted = false → ∀ (i : NsInfo) (t0 : Nat), (i.nguid ≠ 0 ∨ i.eui ≠ 0) →
      s.run.pfail = some t0 → RunsOn (.memberAppearsOnPath i) s [.run] fun t => t.run = { s.run with appeared := s.run.appeared ++ [i] }) ∧
    (s.on = true → 3 < s.run.phase → s.run.halted = false → s.run.pfail = none → ∀ i : NsInfo, (i.nguid ≠ 0 ∨ i.eui ≠ 0) →
      (s.nss.find? (fun n => sameNs n.info i) = none → memberOf s s.uniq = none → RunsOn (.memberAppearsOnPath i) s (.nss ::
        .uniq :: raising) fun t =>
        t.nss = s.nss ++ [{ id := s.uniq, info := i, up := sortNat (usableDies i) }] ∧ t.uniq = s.uniq + 1 ∧
        ∀ d ∈ i.dies, d ∈ i.unusable → s.alive (pathOn d) = true → Pending t (pathOn d) 0x2102) ∧
      ∀ n, s.nss.find? (fun n => sameNs n.info i) = some n →
        ((memberOf s n.id = none ∨ ∃ p x, memberOf s n.id = some (p, x) ∧ unfit p x i = none) →
          RunsOn (.memberAppearsOnPath i) s (.nss :: raising) fun t => ∃ n', t.ns? n.id = some n' ∧ n'.info = i ∧
            (∀ d ∈ usableDies i, d ∈ n'.up) ∧ ∀ d ∈ n'.up, d ∉ i.unusable) ∧
        (∀ p x m, memberOf s n.id = some (p, 0x8000 + x) → p.members.length ≤ 0x8000 → p.pending[x]? = some m →
          m.state ≠ .failed → unfit p (0x8000 + x) i = some 8 → s.pool? p.num = some p →
          s.pools.find? (fun q => (q.members ++ q.pending).any fun y => y.ns == n.id && y.state != .failed) = some p →
          RunsOn (.memberAppearsOnPath i) s (.nss :: failing) fun t => ∃ q m', t.pool? p.num = some q ∧
            q.pending[x]? = some m' ∧ m'.state = .failed ∧ m'.cause = 8) ∧
        ∀ p x m k, Serves s n.id p x → memberOf s n.id = some (p, x) → p.members[x]? = some m → m.state ≠ .failed → x < 0x8000 →
          unfit p x i = some k → (s.die? p.home).isSome →
          RunsOn (.memberAppearsOnPath i) s (.nss :: failing) fun t => FailedAs s n.id p x k t ∧
            (k = 6 → Pending t p.home 0x2110))

/-! ### Reflect segments and the link -/

/-- R323, R333, R335, R340, R343, R344, R345, R347, R348, R349, R350, R363: an arriving segment writes, reads or changes the
memory that its KEY names, is recorded and acknowledged; one that fails its checks is refused, a malformed one counted with
5030h; responses, ACKs and REFUSEs bring the message of the command forward, and a response the block that was at the partner. -/
def Obligations.SegmentsArrive : Prop :=
  (∀ (d : Nat) (g : Seg) (host : Bytes) (s : State),
    (∀ op c, (op, c) ∈ [((1 : Byte), Instr.segWrite d g), (2, .segReadRequest d g host), (4, .segAdd d g), (5, .segCas d g)] →
      ∀ st, Arrives op d g s → g.resp = false → segCheck s d g = .error st → idleRejoin s g = false →
        (∀ h ∈ heldOn s d, sameMsg h.seg g = false) → sendsTo s g.src = true →
        RunsOn c s [.rfl, .link, .out] fun t => ∃ a, Puts s t (.segment d a) ∧ a.op = 9 ∧ a.dst = g.src ∧ a.msgno = g.msgno ∧
          a.aux = BitVec.ofNat 32 (st.toNat + g.segno * 65536)) ∧
    (∀ op c, (op, c) ∈ [((3 : Byte), Instr.segReadData d g), (6, .segAtomicResult d g)] → Arrives op d g s → g.resp = true →
      s.pair.shut = true → epPkg g.src ≠ s.id.pkgid → (∀ h ∈ heldOn s d, sameMsg h.seg g = false) → sendsTo s g.src = true →
        RunsOn c s [.rfl, .link, .out] fun t => ∃ a, Puts s t (.segment d a) ∧ a.op = 9 ∧ a.dst = g.src ∧ a.msgno = g.msgno ∧
          a.aux = BitVec.ofNat 32 (0x0701 + g.segno * 65536)) ∧
    (∀ op c, (op, c) ∈ [((1 : Byte), Instr.segWrite d g), (2, .segReadRequest d g host), (3, .segReadData d g), (4, .segAdd d g),
        (5, .segCas d g), (6, .segAtomicResult d g), (8, .segAck d g), (9, .segRefuse d g)] →
      reflectRuns s d = true → segGood op g = false → RunsOn c s (.rfl :: raising) fun t => Pending t d 0x5030) ∧
    (Alone d g s → g.resp = false →
      (∀ k r a, segCheck s d g = .ok (.region k) → s.region? d k = some r → g.offset.toNat = a →
        (Arrives 1 d g s →
          (r.host = none → memWf r.mem = true → RunsOn (.segWrite d g) s [.regions, .rfl] fun t => Applied d g 0 s t ∧
            ∃ m, t.region? d k = some { r with mem := m } ∧ Holds r.mem m a g.payload) ∧
          (∀ h, r.host = some h → RunsOn (.segWrite d g) s [.rfl, .out] fun t => Applied d g 0 s t ∧
            Puts s t (.host (h + g.offset) g.payload))) ∧
        (Arrives 2 d g s → r.host = none → sendsTo s g.src = true → RunsOn (.segReadRequest d g host) s [.msgs, .rfl, .link,
          .out] fun t => Applied d g 0 s t ∧
          Responds d g 3 (readBytes r.mem a g.span) s t) ∧
        ∀ op c old, (op, c) ∈ [((4 : Byte), Instr.segAdd d g), (5, .segCas d g)] → Arrives op d g s → r.host = none →
          memWf r.mem = true → sendsTo s g.src = true →
          BitVec.ofNat 64 (leNat (readBytes r.mem a 8)) = old → RunsOn c s [.regions, .msgs, .rfl, .link,
            .out] fun t => Applied d g old s t ∧
            Responds d g 6 (le 8 old.toNat) s t ∧ ∃ m, t.region? d k = some { r with mem := m } ∧
              Holds r.mem m a (le 8 (atomicNew g old).toNat)) ∧
      (∀ x old, Arrives 4 d g s → segCheck s d g = .ok .counters → s.die? d = some x → memWf x.rfl.counters = true →
        BitVec.ofNat 64 (leNat (readBytes x.rfl.counters g.offset.toNat 8)) = old →
        sendsTo s g.src = true →
          RunsOn (.segAdd d g) s [.msgs, .rfl, .link, .out] fun t =>
          Applied d g old s t ∧ Responds d g 6 (le 8 old.toNat) s t ∧ ∃ y, t.die? d = some y ∧
            Holds x.rfl.counters y.rfl.counters g.offset.toNat (le 8 (old + BitVec.ofNat 64 (fieldAt g.payload 0 8)).toNat)) ∧
      (∀ w, Arrives 1 d g s → segCheck s d g = .ok .window → s.win? d g.dst g.src = some w → memWf w.mem = true →
        RunsOn (.segWrite d g) s (.wins :: .rfl :: raising) fun t => Applied d g 0 s t ∧
          ∃ m, t.win? d g.dst g.src = some { w with mem := m, arrivals := w.arrivals + 1 } ∧
            Holds w.mem m g.offset.toNat g.payload)) ∧
    ∀ x, reflectRuns s d = true → segGood 4 g = true → g.noretx = true → epNum g.dst = 0 → g.key = 0xFFFE → epDie g.dst = d →
      s.die? d = some x → RunsOn (.segAdd d g) s [.rfl] fun t => ∃ y, t.die? d = some y ∧
        y.rfl = { x.rfl with hb := x.rfl.hb.modify (g.offset.toNat / 16) fun h => { h with word := h.word + BitVec.ofNat 64 (fieldAt g.payload 0 8), aux := g.aux } }) ∧
  (∀ (d : Nat) (g : Seg) (s : State) (m : Msg) (c : CmdRef) (k : Cmd), m.cmd = some c → s.cmd? c = some k →
    (s.ring? c.die c.ring).isSome →
    (s.die? c.die).any (·.linkUp) = true →
    (s.refl.msgs.find? (fun m => m.die == d && m.msgno == g.msgno && !m.isResp && m.src == g.dst && m.dst == g.src) = some m →
      m.acked.contains (m.segs.length - 1) = true → Alone d g s → g.resp = true →
      (s.pair.shut = true → epPkg g.src = s.id.pkgid) →
      (Arrives 3 d g s → RunsOn (.segReadData d g) s (.msgs :: .rfl ::
        ending) fun t => Puts s t (.buffer c (4096 * g.segno) g.payload) ∧
        Completes s t c 0 { result := m.result, ndone := k.reflLen }) ∧
      (Arrives 6 d g s → RunsOn (.segAtomicResult d g) s (.msgs :: .rfl :: ending) fun t =>
        Completes s t c 0 { result := BitVec.ofNat 64 (fieldAt g.payload 0 8), ndone := k.reflLen })) ∧
    (reflectRuns s d = true → answersTo s d g = some m →
      (segGood 8 g = true → m.op = 1 → m.segs.length = 1 → g.segno = 0 → bitAt (leNat (padTo 8 g.payload)) 0 = true →
        RunsOn (.segAck d g) s (.msgs :: .pair :: ending) fun t => Completes s t c 0
          { result := m.result, ndone := k.reflLen }) ∧
      (segGood 9 g = true → BitVec.ofNat 16 (bits g.aux.toNat 15 0) = (0x0702 : W16) → RunsOn (.segRefuse d g) s (.msgs :: ending) fun t =>
        Completes s t c 0x0702 { ndone := ackedBytes m, part := decide (0 < ackedBytes m) }) ∧
      (segGood 9 g = true → m.isResp = false → bits g.aux.toNat 15 0 ≠ 0x0702 →
        RunsOn (.segRefuse d g) s (.msgs :: .qps :: .reg :: ending) fun t =>
        Completes s t c 0x0701
          { result := BitVec.ofNat 64 (bits g.aux.toNat 15 0), ndone := ackedBytes m, part := decide (0 < ackedBytes m) } ∧
        (∀ q, t.qp? d m.src m.dst = some q → q.error = true) ∧ Pending t d 0x5020))) ∧
  (∀ (d : Nat) (g : Seg) (s : State) (x : DieSt) (b : CBlk), s.die? d = some x → x.rfl.parts = [] → b ∈ s.cache →
    b.asked = some g.msgno → homeOfBlk s b = some d → epNum g.dst = 0 → g.resp = true → Arrives 3 d g s → Alone d g s →
    s.pair.shut = false →
    (s.refl.msgs.find? fun m => m.die == d && m.msgno == g.msgno && !m.isResp && m.src == g.dst && m.dst == g.src) = none →
    RunsOn (.segReadData d g) s [.cache, .rfl] fun t =>
      { b with data := slice g.payload 0 b.data.length, pi := slice g.payload b.data.length b.pi.length, remote := none, asked := none } ∈ t.cache) ∧
  (∀ (d : Nat) (g : Seg) (s : State) (x : DieSt), reflectRuns s d = true → segGood 8 g = true → answersTo s d g = none →
    s.die? d = some x → RunsOn (.segAck d g) s [.rfl, .pair] fun t => ∃ y, t.die? d = some y ∧
      y.rfl = { x.rfl with sys := (updIf (sysAnswer g) (·.ack g) x.rfl.sys).filter fun m => !msgWhole m }) ∧
  (∀ (d : Nat) (g : Seg) (s : State) (x : DieSt), reflectRuns s d = true → segGood 9 g = true → answersTo s d g = none →
    s.die? d = some x → x.rfl.sys.any (sysAnswer g) = true → RunsOn (.segRefuse d g) s [.cache, .cmds, .jr, .rfl] fun t =>
      ∃ y, t.die? d = some y ∧ ∀ w ∈ y.rfl.sys, w.msgno ≠ g.msgno) ∧
  ∀ (d : Nat) (g : Seg) (s : State) (m : Msg) (l : List Nat), reflectRuns s d = true → segGood 8 g = true → answersTo s d g = some m →
    l = ((List.range 64).filterMap fun i => if bitAt (leNat (padTo 8 g.payload)) i && decide (g.segno + i < m.segs.length) then some (g.segno + i) else none).foldl
      (fun l n => insNat n l) m.acked → msgWhole { m with acked := l } = false →
    RunsOn (.segAck d g) s [.msgs, .pair] fun t => { m with acked := l } ∈ t.refl.msgs

/-- R334, R335, R338, R347: an unacknowledged segment, of a command or of the die's own, is sent again, up to four times; a
command's message not reached in 40 ticks, or one that is not over when its route goes, ends with 0704h and puts its queue pair in ERROR with
5020h, the die's own leaves; held segments and filter entries expire, the former with 5012h. -/
def Obligations.SegmentsExpire : Prop :=
  (∀ (d : Nat) (i k : Nat) (s : State) (m : Msg) (g : Seg), m ∈ msgsOf s d → m.segs[i]? = some g → i ∉ m.acked →
    reflectRuns s d = true → m.tries i = k → k < 4 → m.first + 8 * (k + 1) ≤ s.clk.tick → sendsTo s g.dst = true →
    Runs (.segmentRetransmit d m.msgno i) s [.msgs, .rfl, .link, .out] fun t => Puts s t (.segment d g) ∧
      { m with again := (i, k + 1) :: m.again.filter (·.1 != i) } ∈ msgsOf t d) ∧
  (∀ (d : Nat) (s : State) (m : Msg), reflectRuns s d = true → m ∈ s.refl.msgs → m.die = d →
    (m.acked.length < m.segs.length ∧ m.first + 40 ≤ s.clk.tick ∨ msgWhole m = false ∧ routeUp s d m.dst = false) →
    (m.isResp = true → (∀ y ∈ s.refl.msgs, y.die = d → y.msgno = m.msgno → y.isResp = true ∧ y.cmd = none) →
      (∀ x, s.die? d = some x → ∀ y ∈ x.rfl.sys, y.msgno ≠ m.msgno) → RunsOn (.reflectUnreachable d m.msgno) s [.msgs] fun t =>
      ∀ y ∈ t.refl.msgs, ¬(y.die = d ∧ y.msgno = m.msgno ∧ y.isResp = true)) ∧
    (m.isResp = false → RunsOn (.reflectUnreachable d m.msgno) s (.cache :: .msgs :: .qps :: .rfl :: .jr :: .reg :: ending) fun t => Pending t d 0x5020 ∧
      (∀ y ∈ t.refl.msgs, ¬(y.die = d ∧ y.msgno = m.msgno ∧ y.isResp = false)) ∧ (∀ q, t.qp? d m.src m.dst = some q →
        q.error = true) ∧
      ((∀ y ∈ s.refl.msgs, y.die = d → y.msgno = m.msgno → y = m ∨ (y.isResp = true ∧ y.cmd = none)) →
        ∀ c, m.cmd = some c → (s.cmd? c).isSome → (s.ring? c.die c.ring).isSome → (s.die? c.die).any (·.linkUp) = true →
        Completes s t c 0x0704 { ndone := ackedBytes m, part := decide (0 < ackedBytes m) }))) ∧
  (∀ (d : Nat) (s : State) (x : DieSt) (m : Msg), reflectRuns s d = true → s.die? d = some x → m ∈ x.rfl.sys →
    (m.acked.length < m.segs.length ∧ m.first + 40 ≤ s.clk.tick ∨ msgWhole m = false ∧ routeUp s m.die m.dst = false) →
    RunsOn (.reflectUnreachable d m.msgno) s (.cache :: .msgs :: .qps :: .rfl :: .jr :: .reg :: ending) fun t => ∃ y, t.die? d = some y ∧
      ∀ w ∈ y.rfl.sys, w.msgno ≠ m.msgno) ∧
  ∀ (d : Nat) (s : State) (x : DieSt), s.die? d = some x →
    (Runs (.flaggedSegmentExpired d) s (.rfl :: raising) fun t => (∀ h ∈ heldOn t d, h ∈ heldOn s d ∧ s.clk.tick < h.at_ + 48) ∧
      ((∃ h ∈ heldOn s d, h.at_ + 48 ≤ s.clk.tick) → Pending t d 0x5012)) ∧
    Runs (.filterEntryExpired d) s [.rfl] fun t => ∃ y, t.die? d = some y ∧
      y.rfl = { x.rfl with filter := x.rfl.filter.filter fun e => decide (s.clk.tick < e.at_ + 64) }

/-- R325, R326, R327, R328, R330, R331, R332: flits, corrected and with a CRC that passes, are taken in sequence, others
discarded with a NAK, and a NAK taken sends the kept ones again, in RECOVER once the link is ACTIVE; training passes from DETECT through
EQUALISE, ALIGN and CONFIG, whose control flits go out, to ACTIVE with 5002h, narrower with 5003h, back when a state lasts too long, the
lanes that did not lock retired, and DOWN with 5001h or, miswired, 5005h. -/
def Obligations.LinksTrain : Prop :=
  ∀ (d : Nat) (s : State) (x : DieSt) (k : LinkSt), s.die? d = some x → linkRuns s d = true → x.link = k →
    (∀ raw f u, readFlit raw = f → k.state = .active → takeHeader f k = u →
      (f.crcOk = true → f.nak = false → k.queue = [] →
        (f.idle = true → Runs (.payloadFlit d raw) s [.link] fun t => ∃ y, t.die? d = some y ∧ y.link = u) ∧
        (f.idle = false → f.fseq = k.rxNext → Runs (.payloadFlit d raw) s [.link] fun t => ∃ y, t.die? d = some y ∧
          y.link = { u with rxNext := k.rxNext + 1, discarding := false, owed := k.owed + 1 }) ∧
        (f.idle = false → f.fseq ≠ k.rxNext →
          (k.discarding = true → Runs (.payloadFlit d raw) s [.link] fun t => ∃ y, t.die? d = some y ∧ y.link = u) ∧
          ∀ r, { u with discarding := true, nakDue := true } = r → k.discarding = false → k.naks < 16 →
            Runs (.payloadFlit d raw) s [.link, .out] fun t => Puts s t (.flit d (onLanes r k.width (flitOf (flitHdr 0 (r.header true)) []))) ∧
              ∃ y, t.die? d = some y ∧ y.link = r.sentHeader)) ∧
      (f.crcOk = true → f.idle = true ∨ f.fseq = k.rxNext → Runs (.payloadFlit d raw) s [.link, .out] fun t =>
        (∃ y, t.die? d = some y ∧ y.link.rxNext = if f.idle then k.rxNext else k.rxNext + 1) ∧
        (f.nak = true → ∀ i b, (keptAfter k f.ackseq)[i]? = some b → ∃ (k' : LinkSt) (h : Flit), k'.state = .active ∧
          h.fseq = f.ackseq + 1 + BitVec.ofNat 12 i ∧ Puts s t (.flit d (onLanes k' k.width (flitOf (flitHdr 1 h) b))))) ∧
      ∀ r, { k with discarding := true, nakDue := true } = r → f.crcOk = false →
        (k.naks < 16 → Runs (.payloadFlit d raw) s [.hw, .link, .out] fun t =>
          Puts s t (.flit d (onLanes r k.width (flitOf (flitHdr 0 (r.header true)) []))) ∧
          ∃ y, t.die? d = some y ∧ y.link = r.sentHeader) ∧
        (16 ≤ k.naks → 4 ≤ k.lanes → ∀ q,
          { r.sentHeader.sentCtl with state := .recover, since := s.clk.tick, aligned := [], gotConfig := false } = q →
          Runs (.payloadFlit d raw) s [.hw, .link, .out] fun t => SendsCtl d 4 k.width r.sentHeader s t ∧
            SendsAlign d (min k.width (widthOf k.lanes)) x.hw.lanesRetired q s t ∧
            ∃ y, t.die? d = some y ∧ y.link = q.sentCtl) ∧
        (16 ≤ k.naks → k.lanes < 4 → Runs (.payloadFlit d raw) s (.hw :: .link :: raising) fun t => Pending t d 0x5001 ∧
          ∃ y, t.die? d = some y ∧ y.link.state = .down ∧ y.link.width = 0)) ∧
    (∀ (raw : Bytes) (c : Ctl) (j : LinkSt), k.tookCtl raw = j →
      (ctlOf 1 raw = some c → k.state = .align ∨ k.state = .recover → c.lane.toNat < 16 →
        (miswired s d c = true → Runs (.alignFlit d raw) s (.link :: raising) fun t => Pending t d 0x5005 ∧
          ∃ y, t.die? d = some y ∧ y.link.state = .down ∧ y.link.width = 0) ∧
        ∀ l, miswired s d c = false → insNat c.lane.toNat k.aligned = l →
          (l.length < k.lanes → Runs (.alignFlit d raw) s [.link] fun t => ∃ y, t.die? d = some y ∧ y.link = { j with aligned := l }) ∧
          (k.lanes ≤ l.length → ∀ r, (if k.state = .align then
              { j with aligned := l, state := .config, since := s.clk.tick, alignTries := 0, gotConfig := false }
              else { j with aligned := l }) = r →
            Runs (.alignFlit d raw) s [.link, .out] fun t => SendsCtl d 2 k.proposal r s t ∧ ∃ y, t.die? d = some y ∧
              y.link = r.sentCtl)) ∧
      (inConfig k = true → miswired s d c = true →
        (ctlOf 2 raw = some c → c.version = 1 → Runs (.configFlit d raw) s (.link :: raising) fun t => Pending t d 0x5005 ∧
          ∃ y, t.die? d = some y ∧ y.link.state = .down ∧ y.link.width = 0) ∧
        (ctlOf 3 raw = some c → k.gotConfig = true → Runs (.configAckFlit d raw) s (.link :: raising) fun t => Pending t d 0x5005 ∧
          ∃ y, t.die? d = some y ∧ y.link.state = .down ∧ y.link.width = 0)) ∧
      (inConfig k = true → miswired s d c = false →
        (ctlOf 2 raw = some c → c.version = 1 → ∀ w, configWidth c k = w → w ≠ 0 → ∀ r,
          { j with gotConfig := true, width := w, credits := if k.state = .config then c.credits.toNat else j.credits } = r →
          Runs (.configFlit d raw) s [.link, .out] fun t => SendsCtl d 3 w r s t ∧
            ∃ y, t.die? d = some y ∧ y.link = r.sentCtl) ∧
        (ctlOf 3 raw = some c → k.gotConfig = true → ∀ r, { j with state := .active, since := s.clk.tick, count := 0, trained := k.width } = r →
          (k.state = .recover → j.replayFrom = none → k.queue = [] →
            (k.trained ≤ k.width → Runs (.configAckFlit d raw) s [.link] fun t => ∃ y, t.die? d = some y ∧ y.link = r) ∧
            (k.width < k.trained → Runs (.configAckFlit d raw) s (.link :: raising) fun t => Pending t d 0x5003 ∧
              ∃ y, t.die? d = some y ∧ y.link = r)) ∧
          (∀ n, k.state = .recover → j.replayFrom = some n → Runs (.configAckFlit d raw) s (.link :: raising) fun t =>
            (k.width < k.trained → Pending t d 0x5003) ∧
            (∃ y, t.die? d = some y ∧ y.link.state = .active ∧ y.link.trained = k.width ∧ y.link.replayFrom = none) ∧
            ∀ i b, (keptAfter j (n - 1))[i]? = some b → ∃ (k' : LinkSt) (h : Flit), k'.state = .active ∧
              h.fseq = n + BitVec.ofNat 12 i ∧ Puts s t (.flit d (onLanes k' k.width (flitOf (flitHdr 1 h) b)))) ∧
          (k.state = .config → k.queue = [] → Runs (.configAckFlit d raw) s (.link :: raising) fun t => Pending t d 0x5002 ∧
            (k.width < k.trained → Pending t d 0x5003) ∧ ∃ y, t.die? d = some y ∧
            y.link = { r with rxNext := 0, txNext := 0, kept := [], owed := 0, discarding := false, nakDue := false, naks := 0, replayFrom := none }))) ∧
      (ctlOf 4 raw = some c →
        (k.state = .active → 4 ≤ k.lanes → ∀ r, { j with state := .recover, since := s.clk.tick, aligned := [], gotConfig := false } = r →
          Runs (.recoverFlit ⟨d, raw⟩) s [.link, .out] fun t => SendsAlign d (min k.width (widthOf k.lanes)) x.hw.lanesRetired r s t ∧
            ∃ y, t.die? d = some y ∧ y.link = r.sentCtl) ∧
        (k.state ≠ .active → 4 ≤ k.lanes → Runs (.recoverFlit ⟨d, raw⟩) s [.link] fun t => ∃ y, t.die? d = some y ∧ y.link = j) ∧
        (k.state ≠ .down → k.lanes < 4 → Runs (.recoverFlit ⟨d, raw⟩) s (.link :: raising) fun t => Pending t d 0x5001 ∧
          ∃ y, t.die? d = some y ∧ y.link.state = .down ∧ y.link.width = 0))) ∧
    (k.state = .active →
      (4 ≤ k.lanes → ∀ r, { k.sentCtl with state := .recover, since := s.clk.tick, aligned := [], gotConfig := false } = r →
        Runs (.linkRecover d) s [.link, .out] fun t => SendsCtl d 4 k.width k s t ∧
          SendsAlign d (min k.width (widthOf k.lanes)) x.hw.lanesRetired r s t ∧ ∃ y, t.die? d = some y ∧ y.link = r.sentCtl) ∧
      (k.lanes < 4 → Runs (.linkRecover d) s (.link :: raising) fun t => SendsCtl d 4 k.width k s t ∧ Pending t d 0x5001 ∧
        ∃ y, t.die? d = some y ∧ y.link.state = .down)) ∧
    (k.state = .detect → Runs (.linkDetect d) s [.link] fun t => ∃ y, t.die? d = some y ∧
      y.link = { k with state := .equalise, since := s.clk.tick, lanes := reflectLanes x, alignTries := 0, locked := [] }) ∧
    (∀ (l m : List Nat) (n : Nat), k.state = .equalise → l.foldl (fun r i => insNat i r) k.locked = m → reflectLanes x = n →
      (lockedAll x m = false → Runs (.equalisationLock d l) s [.link] fun t => ∃ y, t.die? d = some y ∧ y.link = { k with locked := m }) ∧
      (lockedAll x m = true →
        (n < 4 → Runs (.equalisationLock d l) s [.link] fun t => ∃ y, t.die? d = some y ∧
          y.link = { k with locked := m, state := .detect, since := s.clk.tick, lanes := n, aligned := [] }) ∧
        (4 ≤ n → ∀ r, { k with locked := m, state := .align, since := s.clk.tick, lanes := n, aligned := [] } = r →
          Runs (.equalisationLock d l) s [.link, .out] fun t => SendsAlign d (widthOf n) x.hw.lanesRetired r s t ∧ ∃ y, t.die? d = some y ∧
            y.link = r.sentCtl))) ∧
    (∀ b, linkBound k.state = some b → k.since + b ≤ s.clk.tick → Runs (.linkStateTimeout d) s (.hw :: .link ::
      raising) fun t => ∃ y, t.die? d = some y ∧ y.link.since = s.clk.tick ∧
      (∀ out n, k.state = .equalise →
        ((List.range 16).filter fun i => !k.locked.contains i).foldl (fun r i => insNat (40 + i) r) x.hw.lanesRetired = out →
        16 - (out.filter fun i => decide (40 ≤ i) && decide (i < 56)).length = n →
        y.hw = { x.hw with lanesRetired := out } ∧ y.link.lanes = n ∧ (n < 4 → y.link.state = .detect) ∧
        (4 ≤ n → y.link.state = .align ∧ y.link.aligned = [] ∧
          SendsAlign d (widthOf n) out { k with state := .align, since := s.clk.tick, lanes := n, aligned := [] } s t)) ∧
      (k.state ≠ .equalise → y.hw = x.hw) ∧ (k.state = .down → y.link.state = .detect) ∧
      (k.state = .align → k.alignTries < 3 → y.link.state = .equalise ∧ y.link.alignTries = k.alignTries + 1 ∧ y.link.locked = []) ∧
      (k.state = .align → 3 ≤ k.alignTries → y.link.state = .down ∧ Pending t d 0x5001) ∧
      (k.state = .config → y.link.state = .align ∧ y.link.aligned = [] ∧
        SendsAlign d (widthOf k.lanes) x.hw.lanesRetired { k with state := .align, since := s.clk.tick, aligned := [], width := 0 } s t) ∧
      (k.state = .recover → y.link.state = .equalise ∧ y.link.width = 0 ∧ y.link.queue = [] ∧ Pending t d 0x5001)) ∧
    ∀ b, linkBound k.state = some b → s.clk.tick < k.since + b → exec (.linkStateTimeout d) s = .next s

/-! ### The management sideband -/

/-- R411, R542, R543, R544: each message is answered once phase 2 is over: the control messages with the bytes that the spec
states, then free bytes where it refers to DSP0236 (log entry 4), the vendor messages with their status and data, CLEAR
PENDING with the source cleared; a bad message, or a bus held low, raises 7040h and is dropped; the alert response carries
the device's address while ALERT_N is asserted; before phase 2 is over nothing is acknowledged. -/
def Obligations.SidebandAnswers : Prop :=
  (∀ (s : State) (m : Mctp) (e : BitVec 8) (off d src pos : Nat), sidebandUp s = false →
    ∀ c ∈ [Instr.setEndpointId m e, .getEndpointId m, .getMctpVersionSupport m, .getMessageTypeSupport m, .getEndpointUuid m,
      .getStatus m, .getHealth m off, .getPending m d, .clearPending m d src, .getRecords m pos, .alertResponse,
      .smbusBusHeldLow], exec c s = .next s) ∧
  ∀ s : State, sidebandUp s = true →
    (∀ (m : Mctp) (e : BitVec 8) (off d src pos : Nat) (c : Instr), c ∈ [.setEndpointId m e, .getEndpointId m,
      .getMctpVersionSupport m,
        .getMessageTypeSupport m, .getEndpointUuid m, .getStatus m, .getHealth m off, .getPending m d, .clearPending m d src,
          .getRecords m pos,
        .smbusBusHeldLow] → (m.good = false ∨ c = .smbusBusHeldLow) → (s.die? s.id.lead).isSome →
      Runs c s raising fun t => Pending t s.id.lead 0x7040 ∧ t.fns.map (·.fn) = s.fns.map (·.fn)) ∧
    (alertN s = true → Runs .alertResponse s [.out] fun t => Says s t [smbusAddress s]) ∧
    (alertN s = false → exec .alertResponse s = .next s) ∧
    ∀ m : Mctp, m.good = true → ∀ rest, Config.freeSideband s.free = rest →
      (∀ e, Runs (.setEndpointId m e) s [.eid, .free, .out] fun t => t.eid = e ∧ t.free = s.free + 1 ∧ Says s t rest) ∧
      (Runs (.getEndpointId m) s [.free, .out] fun t => t.free = s.free + 1 ∧ Says s t (s.eid :: rest)) ∧
      (Runs (.getMessageTypeSupport m) s [.free, .out] fun t => t.free = s.free + 1 ∧ Says s t (0x7E :: rest)) ∧
      (∀ c, c = .getMctpVersionSupport m ∨ c = .getEndpointUuid m →
        Runs c s [.free, .out] fun t => t.free = s.free + 1 ∧ Says s t rest) ∧
      (Runs (.getStatus m) s [.out] fun t => Says s t
        (vendorResponse 1 0 (le 8 (readGctl s 0).toNat ++ le 8 (readGctl s 0x40).toNat ++ le 8 (readGctl s 0x48).toNat))) ∧
      (∀ off, Runs (.getHealth m off) s [.out] fun t => Says s t (if off % 64 = 0 ∧ off < 4096 then
        vendorResponse 2 0 (slice (healthBytes s s.feat.healthSeq) off 64) else vendorResponse 2 1 [])) ∧
      (∀ d, (s.die? d = none → Runs (.getPending m d) s [.out] fun t => Says s t (vendorResponse 3 1 [])) ∧
        ∀ x, s.die? d = some x → Runs (.getPending m d) s [.out] fun t => Says s t
          (vendorResponse 3 0 ((List.range 4).flatMap fun i => le 8 (readEvt x.evt (0x800 + 8 * i)).toNat))) ∧
      (∀ d src, (s.die? d = none ∨ 256 ≤ src →
        Runs (.clearPending m d src) s [.out] fun t => Says s t (vendorResponse 4 1 [])) ∧
        ∀ x, s.die? d = some x → src < 256 →
          Runs (.clearPending m d src) s [.evt, .out] fun t => Says s t (vendorResponse 4 0 []) ∧
          ∃ y, t.die? d = some y ∧ y.evt = { x.evt with pend := x.evt.pend.filter (· != src) }) ∧
      ∀ pos, Runs (.getRecords m pos) s [.out] fun t => Says s t (if s.log.indexing then vendorResponse 5 2 [] else
        vendorResponse 5 0 (le 1 ((combined s |>.drop pos).take 4).length ++ ((combined s |>.drop pos).take 4).flatMap recBytes))

/-! ### Two rules stated whole -/

/-- R299: a change of power state neither loads nor discards a tenant key: SET POWER STATE, the end of a change and its
timeout leave every tenant's key as it was (what had waited for the change goes on afterwards). -/
def Obligations.PowerStatesKeepKeys : Prop :=
  ∀ s : State,
    (∀ p, ∃ t, exec (.setPowerState p) s = .next t ∧
      t.tenants.map (fun x => (x.num, x.key)) = s.tenants.map fun x => (x.num, x.key)) ∧
    ∀ c ∈ [Instr.powerStateChangeDone, .powerStateTimeout], ∃ t, exec c s = .next (settle t) ∧
      t.tenants.map (fun x => (x.num, x.key)) = s.tenants.map fun x => (x.num, x.key)

/-- R422: a freeze that nobody ended within 15,000,000 ticks ends as LOG THAW ends it: nothing is held any more and the
queued records are programmed; 8004h is raised, and its record follows them. -/
def Obligations.FreezeEnds : Prop :=
  ∀ (s : State) (x : DieSt), s.on = true → s.log.frozen = true → s.log.frozenAt + 15000000 ≤ s.clk.tick →
    s.die? s.id.lead = some x → (∀ y ∈ s.dies, y.recd.clearPending = none) →
    Runs .freezeExpired s (.log :: raising) fun t => t.log = { s.log with frozen := false } ∧ Pending t s.id.lead 0x8004 ∧
      (∀ y ∈ t.dies, y.recd.holding = []) ∧ (∀ d, d ≠ s.id.lead → t.die? d = (thaw s).die? d) ∧
      (recording s = true → 1 ≤ limitOf s 0x8004 → (∀ c ∈ x.recd.rates, c.code ≠ 0x8004) → x.recd.prewrite.length < 255 →
        ∃ y z, t.die? s.id.lead = some y ∧ (thaw s).die? s.id.lead = some z ∧ y.recd.slots = z.recd.slots ∧
          (y.recd.prewrite.getLast?.map (·.code)) = some 0x8004)
end

