-- ==== Sys2Proof/Laws/State.lean ====
section
/-! SUPPORT. What each named update of the state leaves as it was, field by field. -/

namespace Sys2Proof.Machine
set_option Elab.async false

/-! ### State.updDie -/

@[simp] theorem updDie_id (s : State) (d : Nat) (f : DieSt → DieSt) : (s.updDie d f).id = s.id := rfl
@[simp] theorem updDie_clk (s : State) (d : Nat) (f : DieSt → DieSt) : (s.updDie d f).clk = s.clk := rfl
@[simp] theorem updDie_rings (s : State) (d : Nat) (f : DieSt → DieSt) : (s.updDie d f).rings = s.rings := rfl
@[simp] theorem updDie_fns (s : State) (d : Nat) (f : DieSt → DieSt) : (s.updDie d f).fns = s.fns := rfl
@[simp] theorem updDie_cmds (s : State) (d : Nat) (f : DieSt → DieSt) : (s.updDie d f).cmds = s.cmds := rfl
@[simp] theorem updDie_seq (s : State) (d : Nat) (f : DieSt → DieSt) : (s.updDie d f).seq = s.seq := rfl
@[simp] theorem updDie_cache (s : State) (d : Nat) (f : DieSt → DieSt) : (s.updDie d f).cache = s.cache := rfl
@[simp] theorem updDie_mcmds (s : State) (d : Nat) (f : DieSt → DieSt) : (s.updDie d f).mcmds = s.mcmds := rfl
@[simp] theorem updDie_destages (s : State) (d : Nat) (f : DieSt → DieSt) : (s.updDie d f).destages = s.destages := rfl
@[simp] theorem updDie_uniq (s : State) (d : Nat) (f : DieSt → DieSt) : (s.updDie d f).uniq = s.uniq := rfl
@[simp] theorem updDie_pools (s : State) (d : Nat) (f : DieSt → DieSt) : (s.updDie d f).pools = s.pools := rfl
@[simp] theorem updDie_vols (s : State) (d : Nat) (f : DieSt → DieSt) : (s.updDie d f).vols = s.vols := rfl
@[simp] theorem updDie_tenants (s : State) (d : Nat) (f : DieSt → DieSt) : (s.updDie d f).tenants = s.tenants := rfl
@[simp] theorem updDie_buckets (s : State) (d : Nat) (f : DieSt → DieSt) : (s.updDie d f).buckets = s.buckets := rfl
@[simp] theorem updDie_nss (s : State) (d : Nat) (f : DieSt → DieSt) : (s.updDie d f).nss = s.nss := rfl
@[simp] theorem updDie_refl (s : State) (d : Nat) (f : DieSt → DieSt) : (s.updDie d f).refl = s.refl := rfl
@[simp] theorem updDie_pair (s : State) (d : Nat) (f : DieSt → DieSt) : (s.updDie d f).pair = s.pair := rfl
@[simp] theorem updDie_pw (s : State) (d : Nat) (f : DieSt → DieSt) : (s.updDie d f).pw = s.pw := rfl
@[simp] theorem updDie_run (s : State) (d : Nat) (f : DieSt → DieSt) : (s.updDie d f).run = s.run := rfl
@[simp] theorem updDie_fw (s : State) (d : Nat) (f : DieSt → DieSt) : (s.updDie d f).fw = s.fw := rfl
@[simp] theorem updDie_log (s : State) (d : Nat) (f : DieSt → DieSt) : (s.updDie d f).log = s.log := rfl
@[simp] theorem updDie_meter (s : State) (d : Nat) (f : DieSt → DieSt) : (s.updDie d f).meter = s.meter := rfl
@[simp] theorem updDie_feat (s : State) (d : Nat) (f : DieSt → DieSt) : (s.updDie d f).feat = s.feat := rfl
@[simp] theorem updDie_reg (s : State) (d : Nat) (f : DieSt → DieSt) : (s.updDie d f).reg = s.reg := rfl
@[simp] theorem updDie_nextPlan (s : State) (d : Nat) (f : DieSt → DieSt) : (s.updDie d f).nextPlan = s.nextPlan := rfl
@[simp] theorem updDie_uids (s : State) (d : Nat) (f : DieSt → DieSt) : (s.updDie d f).uids = s.uids := rfl
@[simp] theorem updDie_eid (s : State) (d : Nat) (f : DieSt → DieSt) : (s.updDie d f).eid = s.eid := rfl
@[simp] theorem updDie_msixSent (s : State) (d : Nat) (f : DieSt → DieSt) : (s.updDie d f).msixSent = s.msixSent := rfl
@[simp] theorem updDie_arb (s : State) (d : Nat) (f : DieSt → DieSt) : (s.updDie d f).arb = s.arb := rfl
@[simp] theorem updDie_grants (s : State) (d : Nat) (f : DieSt → DieSt) : (s.updDie d f).grants = s.grants := rfl
@[simp] theorem updDie_tests (s : State) (d : Nat) (f : DieSt → DieSt) : (s.updDie d f).tests = s.tests := rfl
@[simp] theorem updDie_out (s : State) (d : Nat) (f : DieSt → DieSt) : (s.updDie d f).out = s.out := rfl
@[simp] theorem updDie_free (s : State) (d : Nat) (f : DieSt → DieSt) : (s.updDie d f).free = s.free := rfl
@[simp] theorem updDie_pending (s : State) (d : Nat) (f : DieSt → DieSt) : (s.updDie d f).pending = s.pending := rfl

/-! ### State.updHw -/

@[simp] theorem updHw_id (s : State) (d : Nat) (f : HwSt → HwSt) : (s.updHw d f).id = s.id := rfl
@[simp] theorem updHw_clk (s : State) (d : Nat) (f : HwSt → HwSt) : (s.updHw d f).clk = s.clk := rfl
@[simp] theorem updHw_rings (s : State) (d : Nat) (f : HwSt → HwSt) : (s.updHw d f).rings = s.rings := rfl
@[simp] theorem updHw_fns (s : State) (d : Nat) (f : HwSt → HwSt) : (s.updHw d f).fns = s.fns := rfl
@[simp] theorem updHw_cmds (s : State) (d : Nat) (f : HwSt → HwSt) : (s.updHw d f).cmds = s.cmds := rfl
@[simp] theorem updHw_seq (s : State) (d : Nat) (f : HwSt → HwSt) : (s.updHw d f).seq = s.seq := rfl
@[simp] theorem updHw_cache (s : State) (d : Nat) (f : HwSt → HwSt) : (s.updHw d f).cache = s.cache := rfl
@[simp] theorem updHw_mcmds (s : State) (d : Nat) (f : HwSt → HwSt) : (s.updHw d f).mcmds = s.mcmds := rfl
@[simp] theorem updHw_destages (s : State) (d : Nat) (f : HwSt → HwSt) : (s.updHw d f).destages = s.destages := rfl
@[simp] theorem updHw_uniq (s : State) (d : Nat) (f : HwSt → HwSt) : (s.updHw d f).uniq = s.uniq := rfl
@[simp] theorem updHw_pools (s : State) (d : Nat) (f : HwSt → HwSt) : (s.updHw d f).pools = s.pools := rfl
@[simp] theorem updHw_vols (s : State) (d : Nat) (f : HwSt → HwSt) : (s.updHw d f).vols = s.vols := rfl
@[simp] theorem updHw_tenants (s : State) (d : Nat) (f : HwSt → HwSt) : (s.updHw d f).tenants = s.tenants := rfl
@[simp] theorem updHw_buckets (s : State) (d : Nat) (f : HwSt → HwSt) : (s.updHw d f).buckets = s.buckets := rfl
@[simp] theorem updHw_nss (s : State) (d : Nat) (f : HwSt → HwSt) : (s.updHw d f).nss = s.nss := rfl
@[simp] theorem updHw_refl (s : State) (d : Nat) (f : HwSt → HwSt) : (s.updHw d f).refl = s.refl := rfl
@[simp] theorem updHw_pair (s : State) (d : Nat) (f : HwSt → HwSt) : (s.updHw d f).pair = s.pair := rfl
@[simp] theorem updHw_pw (s : State) (d : Nat) (f : HwSt → HwSt) : (s.updHw d f).pw = s.pw := rfl
@[simp] theorem updHw_run (s : State) (d : Nat) (f : HwSt → HwSt) : (s.updHw d f).run = s.run := rfl
@[simp] theorem updHw_fw (s : State) (d : Nat) (f : HwSt → HwSt) : (s.updHw d f).fw = s.fw := rfl
@[simp] theorem updHw_log (s : State) (d : Nat) (f : HwSt → HwSt) : (s.updHw d f).log = s.log := rfl
@[simp] theorem updHw_meter (s : State) (d : Nat) (f : HwSt → HwSt) : (s.updHw d f).meter = s.meter := rfl
@[simp] theorem updHw_feat (s : State) (d : Nat) (f : HwSt → HwSt) : (s.updHw d f).feat = s.feat := rfl
@[simp] theorem updHw_reg (s : State) (d : Nat) (f : HwSt → HwSt) : (s.updHw d f).reg = s.reg := rfl
@[simp] theorem updHw_nextPlan (s : State) (d : Nat) (f : HwSt → HwSt) : (s.updHw d f).nextPlan = s.nextPlan := rfl
@[simp] theorem updHw_uids (s : State) (d : Nat) (f : HwSt → HwSt) : (s.updHw d f).uids = s.uids := rfl
@[simp] theorem updHw_eid (s : State) (d : Nat) (f : HwSt → HwSt) : (s.updHw d f).eid = s.eid := rfl
@[simp] theorem updHw_msixSent (s : State) (d : Nat) (f : HwSt → HwSt) : (s.updHw d f).msixSent = s.msixSent := rfl
@[simp] theorem updHw_arb (s : State) (d : Nat) (f : HwSt → HwSt) : (s.updHw d f).arb = s.arb := rfl
@[simp] theorem updHw_grants (s : State) (d : Nat) (f : HwSt → HwSt) : (s.updHw d f).grants = s.grants := rfl
@[simp] theorem updHw_tests (s : State) (d : Nat) (f : HwSt → HwSt) : (s.updHw d f).tests = s.tests := rfl
@[simp] theorem updHw_out (s : State) (d : Nat) (f : HwSt → HwSt) : (s.updHw d f).out = s.out := rfl
@[simp] theorem updHw_free (s : State) (d : Nat) (f : HwSt → HwSt) : (s.updHw d f).free = s.free := rfl
@[simp] theorem updHw_pending (s : State) (d : Nat) (f : HwSt → HwSt) : (s.updHw d f).pending = s.pending := rfl

/-! ### State.updJr -/

@[simp] theorem updJr_id (s : State) (d : Nat) (f : JournalSt → JournalSt) : (s.updJr d f).id = s.id := rfl
@[simp] theorem updJr_clk (s : State) (d : Nat) (f : JournalSt → JournalSt) : (s.updJr d f).clk = s.clk := rfl
@[simp] theorem updJr_rings (s : State) (d : Nat) (f : JournalSt → JournalSt) : (s.updJr d f).rings = s.rings := rfl
@[simp] theorem updJr_fns (s : State) (d : Nat) (f : JournalSt → JournalSt) : (s.updJr d f).fns = s.fns := rfl
@[simp] theorem updJr_cmds (s : State) (d : Nat) (f : JournalSt → JournalSt) : (s.updJr d f).cmds = s.cmds := rfl
@[simp] theorem updJr_seq (s : State) (d : Nat) (f : JournalSt → JournalSt) : (s.updJr d f).seq = s.seq := rfl
@[simp] theorem updJr_cache (s : State) (d : Nat) (f : JournalSt → JournalSt) : (s.updJr d f).cache = s.cache := rfl
@[simp] theorem updJr_mcmds (s : State) (d : Nat) (f : JournalSt → JournalSt) : (s.updJr d f).mcmds = s.mcmds := rfl
@[simp] theorem updJr_destages (s : State) (d : Nat) (f : JournalSt → JournalSt) : (s.updJr d f).destages = s.destages := rfl
@[simp] theorem updJr_uniq (s : State) (d : Nat) (f : JournalSt → JournalSt) : (s.updJr d f).uniq = s.uniq := rfl
@[simp] theorem updJr_pools (s : State) (d : Nat) (f : JournalSt → JournalSt) : (s.updJr d f).pools = s.pools := rfl
@[simp] theorem updJr_vols (s : State) (d : Nat) (f : JournalSt → JournalSt) : (s.updJr d f).vols = s.vols := rfl
@[simp] theorem updJr_tenants (s : State) (d : Nat) (f : JournalSt → JournalSt) : (s.updJr d f).tenants = s.tenants := rfl
@[simp] theorem updJr_buckets (s : State) (d : Nat) (f : JournalSt → JournalSt) : (s.updJr d f).buckets = s.buckets := rfl
@[simp] theorem updJr_nss (s : State) (d : Nat) (f : JournalSt → JournalSt) : (s.updJr d f).nss = s.nss := rfl
@[simp] theorem updJr_refl (s : State) (d : Nat) (f : JournalSt → JournalSt) : (s.updJr d f).refl = s.refl := rfl
@[simp] theorem updJr_pair (s : State) (d : Nat) (f : JournalSt → JournalSt) : (s.updJr d f).pair = s.pair := rfl
@[simp] theorem updJr_pw (s : State) (d : Nat) (f : JournalSt → JournalSt) : (s.updJr d f).pw = s.pw := rfl
@[simp] theorem updJr_run (s : State) (d : Nat) (f : JournalSt → JournalSt) : (s.updJr d f).run = s.run := rfl
@[simp] theorem updJr_fw (s : State) (d : Nat) (f : JournalSt → JournalSt) : (s.updJr d f).fw = s.fw := rfl
@[simp] theorem updJr_log (s : State) (d : Nat) (f : JournalSt → JournalSt) : (s.updJr d f).log = s.log := rfl
@[simp] theorem updJr_meter (s : State) (d : Nat) (f : JournalSt → JournalSt) : (s.updJr d f).meter = s.meter := rfl
@[simp] theorem updJr_feat (s : State) (d : Nat) (f : JournalSt → JournalSt) : (s.updJr d f).feat = s.feat := rfl
@[simp] theorem updJr_reg (s : State) (d : Nat) (f : JournalSt → JournalSt) : (s.updJr d f).reg = s.reg := rfl
@[simp] theorem updJr_nextPlan (s : State) (d : Nat) (f : JournalSt → JournalSt) : (s.updJr d f).nextPlan = s.nextPlan := rfl
@[simp] theorem updJr_uids (s : State) (d : Nat) (f : JournalSt → JournalSt) : (s.updJr d f).uids = s.uids := rfl
@[simp] theorem updJr_eid (s : State) (d : Nat) (f : JournalSt → JournalSt) : (s.updJr d f).eid = s.eid := rfl
@[simp] theorem updJr_msixSent (s : State) (d : Nat) (f : JournalSt → JournalSt) : (s.updJr d f).msixSent = s.msixSent := rfl
@[simp] theorem updJr_arb (s : State) (d : Nat) (f : JournalSt → JournalSt) : (s.updJr d f).arb = s.arb := rfl
@[simp] theorem updJr_grants (s : State) (d : Nat) (f : JournalSt → JournalSt) : (s.updJr d f).grants = s.grants := rfl
@[simp] theorem updJr_tests (s : State) (d : Nat) (f : JournalSt → JournalSt) : (s.updJr d f).tests = s.tests := rfl
@[simp] theorem updJr_out (s : State) (d : Nat) (f : JournalSt → JournalSt) : (s.updJr d f).out = s.out := rfl
@[simp] theorem updJr_free (s : State) (d : Nat) (f : JournalSt → JournalSt) : (s.updJr d f).free = s.free := rfl
@[simp] theorem updJr_pending (s : State) (d : Nat) (f : JournalSt → JournalSt) : (s.updJr d f).pending = s.pending := rfl

/-! ### State.updRec -/

@[simp] theorem updRec_id (s : State) (d : Nat) (f : RecorderSt → RecorderSt) : (s.updRec d f).id = s.id := rfl
@[simp] theorem updRec_clk (s : State) (d : Nat) (f : RecorderSt → RecorderSt) : (s.updRec d f).clk = s.clk := rfl
@[simp] theorem updRec_rings (s : State) (d : Nat) (f : RecorderSt → RecorderSt) : (s.updRec d f).rings = s.rings := rfl
@[simp] theorem updRec_fns (s : State) (d : Nat) (f : RecorderSt → RecorderSt) : (s.updRec d f).fns = s.fns := rfl
@[simp] theorem updRec_cmds (s : State) (d : Nat) (f : RecorderSt → RecorderSt) : (s.updRec d f).cmds = s.cmds := rfl
@[simp] theorem updRec_seq (s : State) (d : Nat) (f : RecorderSt → RecorderSt) : (s.updRec d f).seq = s.seq := rfl
@[simp] theorem updRec_cache (s : State) (d : Nat) (f : RecorderSt → RecorderSt) : (s.updRec d f).cache = s.cache := rfl
@[simp] theorem updRec_mcmds (s : State) (d : Nat) (f : RecorderSt → RecorderSt) : (s.updRec d f).mcmds = s.mcmds := rfl
@[simp] theorem updRec_destages (s : State) (d : Nat) (f : RecorderSt → RecorderSt) : (s.updRec d f).destages = s.destages := rfl
@[simp] theorem updRec_uniq (s : State) (d : Nat) (f : RecorderSt → RecorderSt) : (s.updRec d f).uniq = s.uniq := rfl
@[simp] theorem updRec_pools (s : State) (d : Nat) (f : RecorderSt → RecorderSt) : (s.updRec d f).pools = s.pools := rfl
@[simp] theorem updRec_vols (s : State) (d : Nat) (f : RecorderSt → RecorderSt) : (s.updRec d f).vols = s.vols := rfl
@[simp] theorem updRec_tenants (s : State) (d : Nat) (f : RecorderSt → RecorderSt) : (s.updRec d f).tenants = s.tenants := rfl
@[simp] theorem updRec_buckets (s : State) (d : Nat) (f : RecorderSt → RecorderSt) : (s.updRec d f).buckets = s.buckets := rfl
@[simp] theorem updRec_nss (s : State) (d : Nat) (f : RecorderSt → RecorderSt) : (s.updRec d f).nss = s.nss := rfl
@[simp] theorem updRec_refl (s : State) (d : Nat) (f : RecorderSt → RecorderSt) : (s.updRec d f).refl = s.refl := rfl
@[simp] theorem updRec_pair (s : State) (d : Nat) (f : RecorderSt → RecorderSt) : (s.updRec d f).pair = s.pair := rfl
@[simp] theorem updRec_pw (s : State) (d : Nat) (f : RecorderSt → RecorderSt) : (s.updRec d f).pw = s.pw := rfl
@[simp] theorem updRec_run (s : State) (d : Nat) (f : RecorderSt → RecorderSt) : (s.updRec d f).run = s.run := rfl
@[simp] theorem updRec_fw (s : State) (d : Nat) (f : RecorderSt → RecorderSt) : (s.updRec d f).fw = s.fw := rfl
@[simp] theorem updRec_log (s : State) (d : Nat) (f : RecorderSt → RecorderSt) : (s.updRec d f).log = s.log := rfl
@[simp] theorem updRec_meter (s : State) (d : Nat) (f : RecorderSt → RecorderSt) : (s.updRec d f).meter = s.meter := rfl
@[simp] theorem updRec_feat (s : State) (d : Nat) (f : RecorderSt → RecorderSt) : (s.updRec d f).feat = s.feat := rfl
@[simp] theorem updRec_reg (s : State) (d : Nat) (f : RecorderSt → RecorderSt) : (s.updRec d f).reg = s.reg := rfl
@[simp] theorem updRec_nextPlan (s : State) (d : Nat) (f : RecorderSt → RecorderSt) : (s.updRec d f).nextPlan = s.nextPlan := rfl
@[simp] theorem updRec_uids (s : State) (d : Nat) (f : RecorderSt → RecorderSt) : (s.updRec d f).uids = s.uids := rfl
@[simp] theorem updRec_eid (s : State) (d : Nat) (f : RecorderSt → RecorderSt) : (s.updRec d f).eid = s.eid := rfl
@[simp] theorem updRec_msixSent (s : State) (d : Nat) (f : RecorderSt → RecorderSt) : (s.updRec d f).msixSent = s.msixSent := rfl
@[simp] theorem updRec_arb (s : State) (d : Nat) (f : RecorderSt → RecorderSt) : (s.updRec d f).arb = s.arb := rfl
@[simp] theorem updRec_grants (s : State) (d : Nat) (f : RecorderSt → RecorderSt) : (s.updRec d f).grants = s.grants := rfl
@[simp] theorem updRec_tests (s : State) (d : Nat) (f : RecorderSt → RecorderSt) : (s.updRec d f).tests = s.tests := rfl
@[simp] theorem updRec_out (s : State) (d : Nat) (f : RecorderSt → RecorderSt) : (s.updRec d f).out = s.out := rfl
@[simp] theorem updRec_free (s : State) (d : Nat) (f : RecorderSt → RecorderSt) : (s.updRec d f).free = s.free := rfl
@[simp] theorem updRec_pending (s : State) (d : Nat) (f : RecorderSt → RecorderSt) : (s.updRec d f).pending = s.pending := rfl

/-! ### State.updRecs -/

@[simp] theorem updRecs_id (s : State) (f : RecorderSt → RecorderSt) : (s.updRecs f).id = s.id := rfl
@[simp] theorem updRecs_clk (s : State) (f : RecorderSt → RecorderSt) : (s.updRecs f).clk = s.clk := rfl
@[simp] theorem updRecs_rings (s : State) (f : RecorderSt → RecorderSt) : (s.updRecs f).rings = s.rings := rfl
@[simp] theorem updRecs_fns (s : State) (f : RecorderSt → RecorderSt) : (s.updRecs f).fns = s.fns := rfl
@[simp] theorem updRecs_cmds (s : State) (f : RecorderSt → RecorderSt) : (s.updRecs f).cmds = s.cmds := rfl
@[simp] theorem updRecs_seq (s : State) (f : RecorderSt → RecorderSt) : (s.updRecs f).seq = s.seq := rfl
@[simp] theorem updRecs_cache (s : State) (f : RecorderSt → RecorderSt) : (s.updRecs f).cache = s.cache := rfl
@[simp] theorem updRecs_mcmds (s : State) (f : RecorderSt → RecorderSt) : (s.updRecs f).mcmds = s.mcmds := rfl
@[simp] theorem updRecs_destages (s : State) (f : RecorderSt → RecorderSt) : (s.updRecs f).destages = s.destages := rfl
@[simp] theorem updRecs_uniq (s : State) (f : RecorderSt → RecorderSt) : (s.updRecs f).uniq = s.uniq := rfl
@[simp] theorem updRecs_pools (s : State) (f : RecorderSt → RecorderSt) : (s.updRecs f).pools = s.pools := rfl
@[simp] theorem updRecs_vols (s : State) (f : RecorderSt → RecorderSt) : (s.updRecs f).vols = s.vols := rfl
@[simp] theorem updRecs_tenants (s : State) (f : RecorderSt → RecorderSt) : (s.updRecs f).tenants = s.tenants := rfl
@[simp] theorem updRecs_buckets (s : State) (f : RecorderSt → RecorderSt) : (s.updRecs f).buckets = s.buckets := rfl
@[simp] theorem updRecs_nss (s : State) (f : RecorderSt → RecorderSt) : (s.updRecs f).nss = s.nss := rfl
@[simp] theorem updRecs_refl (s : State) (f : RecorderSt → RecorderSt) : (s.updRecs f).refl = s.refl := rfl
@[simp] theorem updRecs_pair (s : State) (f : RecorderSt → RecorderSt) : (s.updRecs f).pair = s.pair := rfl
@[simp] theorem updRecs_pw (s : State) (f : RecorderSt → RecorderSt) : (s.updRecs f).pw = s.pw := rfl
@[simp] theorem updRecs_run (s : State) (f : RecorderSt → RecorderSt) : (s.updRecs f).run = s.run := rfl
@[simp] theorem updRecs_fw (s : State) (f : RecorderSt → RecorderSt) : (s.updRecs f).fw = s.fw := rfl
@[simp] theorem updRecs_log (s : State) (f : RecorderSt → RecorderSt) : (s.updRecs f).log = s.log := rfl
@[simp] theorem updRecs_meter (s : State) (f : RecorderSt → RecorderSt) : (s.updRecs f).meter = s.meter := rfl
@[simp] theorem updRecs_feat (s : State) (f : RecorderSt → RecorderSt) : (s.updRecs f).feat = s.feat := rfl
@[simp] theorem updRecs_reg (s : State) (f : RecorderSt → RecorderSt) : (s.updRecs f).reg = s.reg := rfl
@[simp] theorem updRecs_nextPlan (s : State) (f : RecorderSt → RecorderSt) : (s.updRecs f).nextPlan = s.nextPlan := rfl
@[simp] theorem updRecs_uids (s : State) (f : RecorderSt → RecorderSt) : (s.updRecs f).uids = s.uids := rfl
@[simp] theorem updRecs_eid (s : State) (f : RecorderSt → RecorderSt) : (s.updRecs f).eid = s.eid := rfl
@[simp] theorem updRecs_msixSent (s : State) (f : RecorderSt → RecorderSt) : (s.updRecs f).msixSent = s.msixSent := rfl
@[simp] theorem updRecs_arb (s : State) (f : RecorderSt → RecorderSt) : (s.updRecs f).arb = s.arb := rfl
@[simp] theorem updRecs_grants (s : State) (f : RecorderSt → RecorderSt) : (s.updRecs f).grants = s.grants := rfl
@[simp] theorem updRecs_tests (s : State) (f : RecorderSt → RecorderSt) : (s.updRecs f).tests = s.tests := rfl
@[simp] theorem updRecs_out (s : State) (f : RecorderSt → RecorderSt) : (s.updRecs f).out = s.out := rfl
@[simp] theorem updRecs_free (s : State) (f : RecorderSt → RecorderSt) : (s.updRecs f).free = s.free := rfl
@[simp] theorem updRecs_pending (s : State) (f : RecorderSt → RecorderSt) : (s.updRecs f).pending = s.pending := rfl

/-! ### State.updEvt -/

@[simp] theorem updEvt_id (s : State) (d : Nat) (f : EvtSt → EvtSt) : (s.updEvt d f).id = s.id := rfl
@[simp] theorem updEvt_clk (s : State) (d : Nat) (f : EvtSt → EvtSt) : (s.updEvt d f).clk = s.clk := rfl
@[simp] theorem updEvt_rings (s : State) (d : Nat) (f : EvtSt → EvtSt) : (s.updEvt d f).rings = s.rings := rfl
@[simp] theorem updEvt_fns (s : State) (d : Nat) (f : EvtSt → EvtSt) : (s.updEvt d f).fns = s.fns := rfl
@[simp] theorem updEvt_cmds (s : State) (d : Nat) (f : EvtSt → EvtSt) : (s.updEvt d f).cmds = s.cmds := rfl
@[simp] theorem updEvt_seq (s : State) (d : Nat) (f : EvtSt → EvtSt) : (s.updEvt d f).seq = s.seq := rfl
@[simp] theorem updEvt_cache (s : State) (d : Nat) (f : EvtSt → EvtSt) : (s.updEvt d f).cache = s.cache := rfl
@[simp] theorem updEvt_mcmds (s : State) (d : Nat) (f : EvtSt → EvtSt) : (s.updEvt d f).mcmds = s.mcmds := rfl
@[simp] theorem updEvt_destages (s : State) (d : Nat) (f : EvtSt → EvtSt) : (s.updEvt d f).destages = s.destages := rfl
@[simp] theorem updEvt_uniq (s : State) (d : Nat) (f : EvtSt → EvtSt) : (s.updEvt d f).uniq = s.uniq := rfl
@[simp] theorem updEvt_pools (s : State) (d : Nat) (f : EvtSt → EvtSt) : (s.updEvt d f).pools = s.pools := rfl
@[simp] theorem updEvt_vols (s : State) (d : Nat) (f : EvtSt → EvtSt) : (s.updEvt d f).vols = s.vols := rfl
@[simp] theorem updEvt_tenants (s : State) (d : Nat) (f : EvtSt → EvtSt) : (s.updEvt d f).tenants = s.tenants := rfl
@[simp] theorem updEvt_buckets (s : State) (d : Nat) (f : EvtSt → EvtSt) : (s.updEvt d f).buckets = s.buckets := rfl
@[simp] theorem updEvt_nss (s : State) (d : Nat) (f : EvtSt → EvtSt) : (s.updEvt d f).nss = s.nss := rfl
@[simp] theorem updEvt_refl (s : State) (d : Nat) (f : EvtSt → EvtSt) : (s.updEvt d f).refl = s.refl := rfl
@[simp] theorem updEvt_pair (s : State) (d : Nat) (f : EvtSt → EvtSt) : (s.updEvt d f).pair = s.pair := rfl
@[simp] theorem updEvt_pw (s : State) (d : Nat) (f : EvtSt → EvtSt) : (s.updEvt d f).pw = s.pw := rfl
@[simp] theorem updEvt_run (s : State) (d : Nat) (f : EvtSt → EvtSt) : (s.updEvt d f).run = s.run := rfl
@[simp] theorem updEvt_fw (s : State) (d : Nat) (f : EvtSt → EvtSt) : (s.updEvt d f).fw = s.fw := rfl
@[simp] theorem updEvt_log (s : State) (d : Nat) (f : EvtSt → EvtSt) : (s.updEvt d f).log = s.log := rfl
@[simp] theorem updEvt_meter (s : State) (d : Nat) (f : EvtSt → EvtSt) : (s.updEvt d f).meter = s.meter := rfl
@[simp] theorem updEvt_feat (s : State) (d : Nat) (f : EvtSt → EvtSt) : (s.updEvt d f).feat = s.feat := rfl
@[simp] theorem updEvt_reg (s : State) (d : Nat) (f : EvtSt → EvtSt) : (s.updEvt d f).reg = s.reg := rfl
@[simp] theorem updEvt_nextPlan (s : State) (d : Nat) (f : EvtSt → EvtSt) : (s.updEvt d f).nextPlan = s.nextPlan := rfl
@[simp] theorem updEvt_uids (s : State) (d : Nat) (f : EvtSt → EvtSt) : (s.updEvt d f).uids = s.uids := rfl
@[simp] theorem updEvt_eid (s : State) (d : Nat) (f : EvtSt → EvtSt) : (s.updEvt d f).eid = s.eid := rfl
@[simp] theorem updEvt_msixSent (s : State) (d : Nat) (f : EvtSt → EvtSt) : (s.updEvt d f).msixSent = s.msixSent := rfl
@[simp] theorem updEvt_arb (s : State) (d : Nat) (f : EvtSt → EvtSt) : (s.updEvt d f).arb = s.arb := rfl
@[simp] theorem updEvt_grants (s : State) (d : Nat) (f : EvtSt → EvtSt) : (s.updEvt d f).grants = s.grants := rfl
@[simp] theorem updEvt_tests (s : State) (d : Nat) (f : EvtSt → EvtSt) : (s.updEvt d f).tests = s.tests := rfl
@[simp] theorem updEvt_out (s : State) (d : Nat) (f : EvtSt → EvtSt) : (s.updEvt d f).out = s.out := rfl
@[simp] theorem updEvt_free (s : State) (d : Nat) (f : EvtSt → EvtSt) : (s.updEvt d f).free = s.free := rfl
@[simp] theorem updEvt_pending (s : State) (d : Nat) (f : EvtSt → EvtSt) : (s.updEvt d f).pending = s.pending := rfl

/-! ### State.updLink -/

@[simp] theorem updLink_id (s : State) (d : Nat) (f : LinkSt → LinkSt) : (s.updLink d f).id = s.id := rfl
@[simp] theorem updLink_clk (s : State) (d : Nat) (f : LinkSt → LinkSt) : (s.updLink d f).clk = s.clk := rfl
@[simp] theorem updLink_rings (s : State) (d : Nat) (f : LinkSt → LinkSt) : (s.updLink d f).rings = s.rings := rfl
@[simp] theorem updLink_fns (s : State) (d : Nat) (f : LinkSt → LinkSt) : (s.updLink d f).fns = s.fns := rfl
@[simp] theorem updLink_cmds (s : State) (d : Nat) (f : LinkSt → LinkSt) : (s.updLink d f).cmds = s.cmds := rfl
@[simp] theorem updLink_seq (s : State) (d : Nat) (f : LinkSt → LinkSt) : (s.updLink d f).seq = s.seq := rfl
@[simp] theorem updLink_cache (s : State) (d : Nat) (f : LinkSt → LinkSt) : (s.updLink d f).cache = s.cache := rfl
@[simp] theorem updLink_mcmds (s : State) (d : Nat) (f : LinkSt → LinkSt) : (s.updLink d f).mcmds = s.mcmds := rfl
@[simp] theorem updLink_destages (s : State) (d : Nat) (f : LinkSt → LinkSt) : (s.updLink d f).destages = s.destages := rfl
@[simp] theorem updLink_uniq (s : State) (d : Nat) (f : LinkSt → LinkSt) : (s.updLink d f).uniq = s.uniq := rfl
@[simp] theorem updLink_pools (s : State) (d : Nat) (f : LinkSt → LinkSt) : (s.updLink d f).pools = s.pools := rfl
@[simp] theorem updLink_vols (s : State) (d : Nat) (f : LinkSt → LinkSt) : (s.updLink d f).vols = s.vols := rfl
@[simp] theorem updLink_tenants (s : State) (d : Nat) (f : LinkSt → LinkSt) : (s.updLink d f).tenants = s.tenants := rfl
@[simp] theorem updLink_buckets (s : State) (d : Nat) (f : LinkSt → LinkSt) : (s.updLink d f).buckets = s.buckets := rfl
@[simp] theorem updLink_nss (s : State) (d : Nat) (f : LinkSt → LinkSt) : (s.updLink d f).nss = s.nss := rfl
@[simp] theorem updLink_refl (s : State) (d : Nat) (f : LinkSt → LinkSt) : (s.updLink d f).refl = s.refl := rfl
@[simp] theorem updLink_pair (s : State) (d : Nat) (f : LinkSt → LinkSt) : (s.updLink d f).pair = s.pair := rfl
@[simp] theorem updLink_pw (s : State) (d : Nat) (f : LinkSt → LinkSt) : (s.updLink d f).pw = s.pw := rfl
@[simp] theorem updLink_run (s : State) (d : Nat) (f : LinkSt → LinkSt) : (s.updLink d f).run = s.run := rfl
@[simp] theorem updLink_fw (s : State) (d : Nat) (f : LinkSt → LinkSt) : (s.updLink d f).fw = s.fw := rfl
@[simp] theorem updLink_log (s : State) (d : Nat) (f : LinkSt → LinkSt) : (s.updLink d f).log = s.log := rfl
@[simp] theorem updLink_meter (s : State) (d : Nat) (f : LinkSt → LinkSt) : (s.updLink d f).meter = s.meter := rfl
@[simp] theorem updLink_feat (s : State) (d : Nat) (f : LinkSt → LinkSt) : (s.updLink d f).feat = s.feat := rfl
@[simp] theorem updLink_reg (s : State) (d : Nat) (f : LinkSt → LinkSt) : (s.updLink d f).reg = s.reg := rfl
@[simp] theorem updLink_nextPlan (s : State) (d : Nat) (f : LinkSt → LinkSt) : (s.updLink d f).nextPlan = s.nextPlan := rfl
@[simp] theorem updLink_uids (s : State) (d : Nat) (f : LinkSt → LinkSt) : (s.updLink d f).uids = s.uids := rfl
@[simp] theorem updLink_eid (s : State) (d : Nat) (f : LinkSt → LinkSt) : (s.updLink d f).eid = s.eid := rfl
@[simp] theorem updLink_msixSent (s : State) (d : Nat) (f : LinkSt → LinkSt) : (s.updLink d f).msixSent = s.msixSent := rfl
@[simp] theorem updLink_arb (s : State) (d : Nat) (f : LinkSt → LinkSt) : (s.updLink d f).arb = s.arb := rfl
@[simp] theorem updLink_grants (s : State) (d : Nat) (f : LinkSt → LinkSt) : (s.updLink d f).grants = s.grants := rfl
@[simp] theorem updLink_tests (s : State) (d : Nat) (f : LinkSt → LinkSt) : (s.updLink d f).tests = s.tests := rfl
@[simp] theorem updLink_out (s : State) (d : Nat) (f : LinkSt → LinkSt) : (s.updLink d f).out = s.out := rfl
@[simp] theorem updLink_free (s : State) (d : Nat) (f : LinkSt → LinkSt) : (s.updLink d f).free = s.free := rfl
@[simp] theorem updLink_pending (s : State) (d : Nat) (f : LinkSt → LinkSt) : (s.updLink d f).pending = s.pending := rfl

/-! ### State.updRfl -/

@[simp] theorem updRfl_id (s : State) (d : Nat) (f : DieRfl → DieRfl) : (s.updRfl d f).id = s.id := rfl
@[simp] theorem updRfl_clk (s : State) (d : Nat) (f : DieRfl → DieRfl) : (s.updRfl d f).clk = s.clk := rfl
@[simp] theorem updRfl_rings (s : State) (d : Nat) (f : DieRfl → DieRfl) : (s.updRfl d f).rings = s.rings := rfl
@[simp] theorem updRfl_fns (s : State) (d : Nat) (f : DieRfl → DieRfl) : (s.updRfl d f).fns = s.fns := rfl
@[simp] theorem updRfl_cmds (s : State) (d : Nat) (f : DieRfl → DieRfl) : (s.updRfl d f).cmds = s.cmds := rfl
@[simp] theorem updRfl_seq (s : State) (d : Nat) (f : DieRfl → DieRfl) : (s.updRfl d f).seq = s.seq := rfl
@[simp] theorem updRfl_cache (s : State) (d : Nat) (f : DieRfl → DieRfl) : (s.updRfl d f).cache = s.cache := rfl
@[simp] theorem updRfl_mcmds (s : State) (d : Nat) (f : DieRfl → DieRfl) : (s.updRfl d f).mcmds = s.mcmds := rfl
@[simp] theorem updRfl_destages (s : State) (d : Nat) (f : DieRfl → DieRfl) : (s.updRfl d f).destages = s.destages := rfl
@[simp] theorem updRfl_uniq (s : State) (d : Nat) (f : DieRfl → DieRfl) : (s.updRfl d f).uniq = s.uniq := rfl
@[simp] theorem updRfl_pools (s : State) (d : Nat) (f : DieRfl → DieRfl) : (s.updRfl d f).pools = s.pools := rfl
@[simp] theorem updRfl_vols (s : State) (d : Nat) (f : DieRfl → DieRfl) : (s.updRfl d f).vols = s.vols := rfl
@[simp] theorem updRfl_tenants (s : State) (d : Nat) (f : DieRfl → DieRfl) : (s.updRfl d f).tenants = s.tenants := rfl
@[simp] theorem updRfl_buckets (s : State) (d : Nat) (f : DieRfl → DieRfl) : (s.updRfl d f).buckets = s.buckets := rfl
@[simp] theorem updRfl_nss (s : State) (d : Nat) (f : DieRfl → DieRfl) : (s.updRfl d f).nss = s.nss := rfl
@[simp] theorem updRfl_refl (s : State) (d : Nat) (f : DieRfl → DieRfl) : (s.updRfl d f).refl = s.refl := rfl
@[simp] theorem updRfl_pair (s : State) (d : Nat) (f : DieRfl → DieRfl) : (s.updRfl d f).pair = s.pair := rfl
@[simp] theorem updRfl_pw (s : State) (d : Nat) (f : DieRfl → DieRfl) : (s.updRfl d f).pw = s.pw := rfl
@[simp] theorem updRfl_run (s : State) (d : Nat) (f : DieRfl → DieRfl) : (s.updRfl d f).run = s.run := rfl
@[simp] theorem updRfl_fw (s : State) (d : Nat) (f : DieRfl → DieRfl) : (s.updRfl d f).fw = s.fw := rfl
@[simp] theorem updRfl_log (s : State) (d : Nat) (f : DieRfl → DieRfl) : (s.updRfl d f).log = s.log := rfl
@[simp] theorem updRfl_meter (s : State) (d : Nat) (f : DieRfl → DieRfl) : (s.updRfl d f).meter = s.meter := rfl
@[simp] theorem updRfl_feat (s : State) (d : Nat) (f : DieRfl → DieRfl) : (s.updRfl d f).feat = s.feat := rfl
@[simp] theorem updRfl_reg (s : State) (d : Nat) (f : DieRfl → DieRfl) : (s.updRfl d f).reg = s.reg := rfl
@[simp] theorem updRfl_nextPlan (s : State) (d : Nat) (f : DieRfl → DieRfl) : (s.updRfl d f).nextPlan = s.nextPlan := rfl
@[simp] theorem updRfl_uids (s : State) (d : Nat) (f : DieRfl → DieRfl) : (s.updRfl d f).uids = s.uids := rfl
@[simp] theorem updRfl_eid (s : State) (d : Nat) (f : DieRfl → DieRfl) : (s.updRfl d f).eid = s.eid := rfl
@[simp] theorem updRfl_msixSent (s : State) (d : Nat) (f : DieRfl → DieRfl) : (s.updRfl d f).msixSent = s.msixSent := rfl
@[simp] theorem updRfl_arb (s : State) (d : Nat) (f : DieRfl → DieRfl) : (s.updRfl d f).arb = s.arb := rfl
@[simp] theorem updRfl_grants (s : State) (d : Nat) (f : DieRfl → DieRfl) : (s.updRfl d f).grants = s.grants := rfl
@[simp] theorem updRfl_tests (s : State) (d : Nat) (f : DieRfl → DieRfl) : (s.updRfl d f).tests = s.tests := rfl
@[simp] theorem updRfl_out (s : State) (d : Nat) (f : DieRfl → DieRfl) : (s.updRfl d f).out = s.out := rfl
@[simp] theorem updRfl_free (s : State) (d : Nat) (f : DieRfl → DieRfl) : (s.updRfl d f).free = s.free := rfl
@[simp] theorem updRfl_pending (s : State) (d : Nat) (f : DieRfl → DieRfl) : (s.updRfl d f).pending = s.pending := rfl

/-! ### State.updFrame -/

@[simp] theorem updFrame_id (s : State) (d : Nat) (f : FrameSt → FrameSt) : (s.updFrame d f).id = s.id := rfl
@[simp] theorem updFrame_clk (s : State) (d : Nat) (f : FrameSt → FrameSt) : (s.updFrame d f).clk = s.clk := rfl
@[simp] theorem updFrame_rings (s : State) (d : Nat) (f : FrameSt → FrameSt) : (s.updFrame d f).rings = s.rings := rfl
@[simp] theorem updFrame_fns (s : State) (d : Nat) (f : FrameSt → FrameSt) : (s.updFrame d f).fns = s.fns := rfl
@[simp] theorem updFrame_cmds (s : State) (d : Nat) (f : FrameSt → FrameSt) : (s.updFrame d f).cmds = s.cmds := rfl
@[simp] theorem updFrame_seq (s : State) (d : Nat) (f : FrameSt → FrameSt) : (s.updFrame d f).seq = s.seq := rfl
@[simp] theorem updFrame_cache (s : State) (d : Nat) (f : FrameSt → FrameSt) : (s.updFrame d f).cache = s.cache := rfl
@[simp] theorem updFrame_mcmds (s : State) (d : Nat) (f : FrameSt → FrameSt) : (s.updFrame d f).mcmds = s.mcmds := rfl
@[simp] theorem updFrame_destages (s : State) (d : Nat) (f : FrameSt → FrameSt) : (s.updFrame d f).destages = s.destages := rfl
@[simp] theorem updFrame_uniq (s : State) (d : Nat) (f : FrameSt → FrameSt) : (s.updFrame d f).uniq = s.uniq := rfl
@[simp] theorem updFrame_pools (s : State) (d : Nat) (f : FrameSt → FrameSt) : (s.updFrame d f).pools = s.pools := rfl
@[simp] theorem updFrame_vols (s : State) (d : Nat) (f : FrameSt → FrameSt) : (s.updFrame d f).vols = s.vols := rfl
@[simp] theorem updFrame_tenants (s : State) (d : Nat) (f : FrameSt → FrameSt) : (s.updFrame d f).tenants = s.tenants := rfl
@[simp] theorem updFrame_buckets (s : State) (d : Nat) (f : FrameSt → FrameSt) : (s.updFrame d f).buckets = s.buckets := rfl
@[simp] theorem updFrame_nss (s : State) (d : Nat) (f : FrameSt → FrameSt) : (s.updFrame d f).nss = s.nss := rfl
@[simp] theorem updFrame_refl (s : State) (d : Nat) (f : FrameSt → FrameSt) : (s.updFrame d f).refl = s.refl := rfl
@[simp] theorem updFrame_pair (s : State) (d : Nat) (f : FrameSt → FrameSt) : (s.updFrame d f).pair = s.pair := rfl
@[simp] theorem updFrame_pw (s : State) (d : Nat) (f : FrameSt → FrameSt) : (s.updFrame d f).pw = s.pw := rfl
@[simp] theorem updFrame_run (s : State) (d : Nat) (f : FrameSt → FrameSt) : (s.updFrame d f).run = s.run := rfl
@[simp] theorem updFrame_fw (s : State) (d : Nat) (f : FrameSt → FrameSt) : (s.updFrame d f).fw = s.fw := rfl
@[simp] theorem updFrame_log (s : State) (d : Nat) (f : FrameSt → FrameSt) : (s.updFrame d f).log = s.log := rfl
@[simp] theorem updFrame_meter (s : State) (d : Nat) (f : FrameSt → FrameSt) : (s.updFrame d f).meter = s.meter := rfl
@[simp] theorem updFrame_feat (s : State) (d : Nat) (f : FrameSt → FrameSt) : (s.updFrame d f).feat = s.feat := rfl
@[simp] theorem updFrame_reg (s : State) (d : Nat) (f : FrameSt → FrameSt) : (s.updFrame d f).reg = s.reg := rfl
@[simp] theorem updFrame_nextPlan (s : State) (d : Nat) (f : FrameSt → FrameSt) : (s.updFrame d f).nextPlan = s.nextPlan := rfl
@[simp] theorem updFrame_uids (s : State) (d : Nat) (f : FrameSt → FrameSt) : (s.updFrame d f).uids = s.uids := rfl
@[simp] theorem updFrame_eid (s : State) (d : Nat) (f : FrameSt → FrameSt) : (s.updFrame d f).eid = s.eid := rfl
@[simp] theorem updFrame_msixSent (s : State) (d : Nat) (f : FrameSt → FrameSt) : (s.updFrame d f).msixSent = s.msixSent := rfl
@[simp] theorem updFrame_arb (s : State) (d : Nat) (f : FrameSt → FrameSt) : (s.updFrame d f).arb = s.arb := rfl
@[simp] theorem updFrame_grants (s : State) (d : Nat) (f : FrameSt → FrameSt) : (s.updFrame d f).grants = s.grants := rfl
@[simp] theorem updFrame_tests (s : State) (d : Nat) (f : FrameSt → FrameSt) : (s.updFrame d f).tests = s.tests := rfl
@[simp] theorem updFrame_out (s : State) (d : Nat) (f : FrameSt → FrameSt) : (s.updFrame d f).out = s.out := rfl
@[simp] theorem updFrame_free (s : State) (d : Nat) (f : FrameSt → FrameSt) : (s.updFrame d f).free = s.free := rfl
@[simp] theorem updFrame_pending (s : State) (d : Nat) (f : FrameSt → FrameSt) : (s.updFrame d f).pending = s.pending := rfl

/-! ### State.updRing -/

@[simp] theorem updRing_id (s : State) (d i : Nat) (f : Ring → Ring) : (s.updRing d i f).id = s.id := rfl
@[simp] theorem updRing_clk (s : State) (d i : Nat) (f : Ring → Ring) : (s.updRing d i f).clk = s.clk := rfl
@[simp] theorem updRing_dies (s : State) (d i : Nat) (f : Ring → Ring) : (s.updRing d i f).dies = s.dies := rfl
@[simp] theorem updRing_fns (s : State) (d i : Nat) (f : Ring → Ring) : (s.updRing d i f).fns = s.fns := rfl
@[simp] theorem updRing_cmds (s : State) (d i : Nat) (f : Ring → Ring) : (s.updRing d i f).cmds = s.cmds := rfl
@[simp] theorem updRing_seq (s : State) (d i : Nat) (f : Ring → Ring) : (s.updRing d i f).seq = s.seq := rfl
@[simp] theorem updRing_cache (s : State) (d i : Nat) (f : Ring → Ring) : (s.updRing d i f).cache = s.cache := rfl
@[simp] theorem updRing_mcmds (s : State) (d i : Nat) (f : Ring → Ring) : (s.updRing d i f).mcmds = s.mcmds := rfl
@[simp] theorem updRing_destages (s : State) (d i : Nat) (f : Ring → Ring) : (s.updRing d i f).destages = s.destages := rfl
@[simp] theorem updRing_uniq (s : State) (d i : Nat) (f : Ring → Ring) : (s.updRing d i f).uniq = s.uniq := rfl
@[simp] theorem updRing_pools (s : State) (d i : Nat) (f : Ring → Ring) : (s.updRing d i f).pools = s.pools := rfl
@[simp] theorem updRing_vols (s : State) (d i : Nat) (f : Ring → Ring) : (s.updRing d i f).vols = s.vols := rfl
@[simp] theorem updRing_tenants (s : State) (d i : Nat) (f : Ring → Ring) : (s.updRing d i f).tenants = s.tenants := rfl
@[simp] theorem updRing_buckets (s : State) (d i : Nat) (f : Ring → Ring) : (s.updRing d i f).buckets = s.buckets := rfl
@[simp] theorem updRing_nss (s : State) (d i : Nat) (f : Ring → Ring) : (s.updRing d i f).nss = s.nss := rfl
@[simp] theorem updRing_refl (s : State) (d i : Nat) (f : Ring → Ring) : (s.updRing d i f).refl = s.refl := rfl
@[simp] theorem updRing_pair (s : State) (d i : Nat) (f : Ring → Ring) : (s.updRing d i f).pair = s.pair := rfl
@[simp] theorem updRing_pw (s : State) (d i : Nat) (f : Ring → Ring) : (s.updRing d i f).pw = s.pw := rfl
@[simp] theorem updRing_run (s : State) (d i : Nat) (f : Ring → Ring) : (s.updRing d i f).run = s.run := rfl
@[simp] theorem updRing_fw (s : State) (d i : Nat) (f : Ring → Ring) : (s.updRing d i f).fw = s.fw := rfl
@[simp] theorem updRing_log (s : State) (d i : Nat) (f : Ring → Ring) : (s.updRing d i f).log = s.log := rfl
@[simp] theorem updRing_meter (s : State) (d i : Nat) (f : Ring → Ring) : (s.updRing d i f).meter = s.meter := rfl
@[simp] theorem updRing_feat (s : State) (d i : Nat) (f : Ring → Ring) : (s.updRing d i f).feat = s.feat := rfl
@[simp] theorem updRing_reg (s : State) (d i : Nat) (f : Ring → Ring) : (s.updRing d i f).reg = s.reg := rfl
@[simp] theorem updRing_nextPlan (s : State) (d i : Nat) (f : Ring → Ring) : (s.updRing d i f).nextPlan = s.nextPlan := rfl
@[simp] theorem updRing_uids (s : State) (d i : Nat) (f : Ring → Ring) : (s.updRing d i f).uids = s.uids := rfl
@[simp] theorem updRing_eid (s : State) (d i : Nat) (f : Ring → Ring) : (s.updRing d i f).eid = s.eid := rfl
@[simp] theorem updRing_msixSent (s : State) (d i : Nat) (f : Ring → Ring) : (s.updRing d i f).msixSent = s.msixSent := rfl
@[simp] theorem updRing_arb (s : State) (d i : Nat) (f : Ring → Ring) : (s.updRing d i f).arb = s.arb := rfl
@[simp] theorem updRing_grants (s : State) (d i : Nat) (f : Ring → Ring) : (s.updRing d i f).grants = s.grants := rfl
@[simp] theorem updRing_tests (s : State) (d i : Nat) (f : Ring → Ring) : (s.updRing d i f).tests = s.tests := rfl
@[simp] theorem updRing_out (s : State) (d i : Nat) (f : Ring → Ring) : (s.updRing d i f).out = s.out := rfl
@[simp] theorem updRing_free (s : State) (d i : Nat) (f : Ring → Ring) : (s.updRing d i f).free = s.free := rfl
@[simp] theorem updRing_pending (s : State) (d i : Nat) (f : Ring → Ring) : (s.updRing d i f).pending = s.pending := rfl

/-! ### State.updCmd -/

@[simp] theorem updCmd_id (s : State) (c : CmdRef) (f : Cmd → Cmd) : (s.updCmd c f).id = s.id := rfl
@[simp] theorem updCmd_clk (s : State) (c : CmdRef) (f : Cmd → Cmd) : (s.updCmd c f).clk = s.clk := rfl
@[simp] theorem updCmd_dies (s : State) (c : CmdRef) (f : Cmd → Cmd) : (s.updCmd c f).dies = s.dies := rfl
@[simp] theorem updCmd_rings (s : State) (c : CmdRef) (f : Cmd → Cmd) : (s.updCmd c f).rings = s.rings := rfl
@[simp] theorem updCmd_fns (s : State) (c : CmdRef) (f : Cmd → Cmd) : (s.updCmd c f).fns = s.fns := rfl
@[simp] theorem updCmd_seq (s : State) (c : CmdRef) (f : Cmd → Cmd) : (s.updCmd c f).seq = s.seq := rfl
@[simp] theorem updCmd_cache (s : State) (c : CmdRef) (f : Cmd → Cmd) : (s.updCmd c f).cache = s.cache := rfl
@[simp] theorem updCmd_mcmds (s : State) (c : CmdRef) (f : Cmd → Cmd) : (s.updCmd c f).mcmds = s.mcmds := rfl
@[simp] theorem updCmd_destages (s : State) (c : CmdRef) (f : Cmd → Cmd) : (s.updCmd c f).destages = s.destages := rfl
@[simp] theorem updCmd_uniq (s : State) (c : CmdRef) (f : Cmd → Cmd) : (s.updCmd c f).uniq = s.uniq := rfl
@[simp] theorem updCmd_pools (s : State) (c : CmdRef) (f : Cmd → Cmd) : (s.updCmd c f).pools = s.pools := rfl
@[simp] theorem updCmd_vols (s : State) (c : CmdRef) (f : Cmd → Cmd) : (s.updCmd c f).vols = s.vols := rfl
@[simp] theorem updCmd_tenants (s : State) (c : CmdRef) (f : Cmd → Cmd) : (s.updCmd c f).tenants = s.tenants := rfl
@[simp] theorem updCmd_buckets (s : State) (c : CmdRef) (f : Cmd → Cmd) : (s.updCmd c f).buckets = s.buckets := rfl
@[simp] theorem updCmd_nss (s : State) (c : CmdRef) (f : Cmd → Cmd) : (s.updCmd c f).nss = s.nss := rfl
@[simp] theorem updCmd_refl (s : State) (c : CmdRef) (f : Cmd → Cmd) : (s.updCmd c f).refl = s.refl := rfl
@[simp] theorem updCmd_pair (s : State) (c : CmdRef) (f : Cmd → Cmd) : (s.updCmd c f).pair = s.pair := rfl
@[simp] theorem updCmd_pw (s : State) (c : CmdRef) (f : Cmd → Cmd) : (s.updCmd c f).pw = s.pw := rfl
@[simp] theorem updCmd_run (s : State) (c : CmdRef) (f : Cmd → Cmd) : (s.updCmd c f).run = s.run := rfl
@[simp] theorem updCmd_fw (s : State) (c : CmdRef) (f : Cmd → Cmd) : (s.updCmd c f).fw = s.fw := rfl
@[simp] theorem updCmd_log (s : State) (c : CmdRef) (f : Cmd → Cmd) : (s.updCmd c f).log = s.log := rfl
@[simp] theorem updCmd_meter (s : State) (c : CmdRef) (f : Cmd → Cmd) : (s.updCmd c f).meter = s.meter := rfl
@[simp] theorem updCmd_feat (s : State) (c : CmdRef) (f : Cmd → Cmd) : (s.updCmd c f).feat = s.feat := rfl
@[simp] theorem updCmd_reg (s : State) (c : CmdRef) (f : Cmd → Cmd) : (s.updCmd c f).reg = s.reg := rfl
@[simp] theorem updCmd_nextPlan (s : State) (c : CmdRef) (f : Cmd → Cmd) : (s.updCmd c f).nextPlan = s.nextPlan := rfl
@[simp] theorem updCmd_uids (s : State) (c : CmdRef) (f : Cmd → Cmd) : (s.updCmd c f).uids = s.uids := rfl
@[simp] theorem updCmd_eid (s : State) (c : CmdRef) (f : Cmd → Cmd) : (s.updCmd c f).eid = s.eid := rfl
@[simp] theorem updCmd_msixSent (s : State) (c : CmdRef) (f : Cmd → Cmd) : (s.updCmd c f).msixSent = s.msixSent := rfl
@[simp] theorem updCmd_arb (s : State) (c : CmdRef) (f : Cmd → Cmd) : (s.updCmd c f).arb = s.arb := rfl
@[simp] theorem updCmd_grants (s : State) (c : CmdRef) (f : Cmd → Cmd) : (s.updCmd c f).grants = s.grants := rfl
@[simp] theorem updCmd_tests (s : State) (c : CmdRef) (f : Cmd → Cmd) : (s.updCmd c f).tests = s.tests := rfl
@[simp] theorem updCmd_out (s : State) (c : CmdRef) (f : Cmd → Cmd) : (s.updCmd c f).out = s.out := rfl
@[simp] theorem updCmd_free (s : State) (c : CmdRef) (f : Cmd → Cmd) : (s.updCmd c f).free = s.free := rfl
@[simp] theorem updCmd_pending (s : State) (c : CmdRef) (f : Cmd → Cmd) : (s.updCmd c f).pending = s.pending := rfl

/-! ### State.updPool -/

@[simp] theorem updPool_id (s : State) (n : Nat) (f : Pool → Pool) : (s.updPool n f).id = s.id := rfl
@[simp] theorem updPool_clk (s : State) (n : Nat) (f : Pool → Pool) : (s.updPool n f).clk = s.clk := rfl
@[simp] theorem updPool_dies (s : State) (n : Nat) (f : Pool → Pool) : (s.updPool n f).dies = s.dies := rfl
@[simp] theorem updPool_rings (s : State) (n : Nat) (f : Pool → Pool) : (s.updPool n f).rings = s.rings := rfl
@[simp] theorem updPool_fns (s : State) (n : Nat) (f : Pool → Pool) : (s.updPool n f).fns = s.fns := rfl
@[simp] theorem updPool_cmds (s : State) (n : Nat) (f : Pool → Pool) : (s.updPool n f).cmds = s.cmds := rfl
@[simp] theorem updPool_seq (s : State) (n : Nat) (f : Pool → Pool) : (s.updPool n f).seq = s.seq := rfl
@[simp] theorem updPool_cache (s : State) (n : Nat) (f : Pool → Pool) : (s.updPool n f).cache = s.cache := rfl
@[simp] theorem updPool_mcmds (s : State) (n : Nat) (f : Pool → Pool) : (s.updPool n f).mcmds = s.mcmds := rfl
@[simp] theorem updPool_destages (s : State) (n : Nat) (f : Pool → Pool) : (s.updPool n f).destages = s.destages := rfl
@[simp] theorem updPool_uniq (s : State) (n : Nat) (f : Pool → Pool) : (s.updPool n f).uniq = s.uniq := rfl
@[simp] theorem updPool_vols (s : State) (n : Nat) (f : Pool → Pool) : (s.updPool n f).vols = s.vols := rfl
@[simp] theorem updPool_tenants (s : State) (n : Nat) (f : Pool → Pool) : (s.updPool n f).tenants = s.tenants := rfl
@[simp] theorem updPool_buckets (s : State) (n : Nat) (f : Pool → Pool) : (s.updPool n f).buckets = s.buckets := rfl
@[simp] theorem updPool_nss (s : State) (n : Nat) (f : Pool → Pool) : (s.updPool n f).nss = s.nss := rfl
@[simp] theorem updPool_refl (s : State) (n : Nat) (f : Pool → Pool) : (s.updPool n f).refl = s.refl := rfl
@[simp] theorem updPool_pair (s : State) (n : Nat) (f : Pool → Pool) : (s.updPool n f).pair = s.pair := rfl
@[simp] theorem updPool_pw (s : State) (n : Nat) (f : Pool → Pool) : (s.updPool n f).pw = s.pw := rfl
@[simp] theorem updPool_run (s : State) (n : Nat) (f : Pool → Pool) : (s.updPool n f).run = s.run := rfl
@[simp] theorem updPool_fw (s : State) (n : Nat) (f : Pool → Pool) : (s.updPool n f).fw = s.fw := rfl
@[simp] theorem updPool_log (s : State) (n : Nat) (f : Pool → Pool) : (s.updPool n f).log = s.log := rfl
@[simp] theorem updPool_meter (s : State) (n : Nat) (f : Pool → Pool) : (s.updPool n f).meter = s.meter := rfl
@[simp] theorem updPool_feat (s : State) (n : Nat) (f : Pool → Pool) : (s.updPool n f).feat = s.feat := rfl
@[simp] theorem updPool_reg (s : State) (n : Nat) (f : Pool → Pool) : (s.updPool n f).reg = s.reg := rfl
@[simp] theorem updPool_nextPlan (s : State) (n : Nat) (f : Pool → Pool) : (s.updPool n f).nextPlan = s.nextPlan := rfl
@[simp] theorem updPool_uids (s : State) (n : Nat) (f : Pool → Pool) : (s.updPool n f).uids = s.uids := rfl
@[simp] theorem updPool_eid (s : State) (n : Nat) (f : Pool → Pool) : (s.updPool n f).eid = s.eid := rfl
@[simp] theorem updPool_msixSent (s : State) (n : Nat) (f : Pool → Pool) : (s.updPool n f).msixSent = s.msixSent := rfl
@[simp] theorem updPool_arb (s : State) (n : Nat) (f : Pool → Pool) : (s.updPool n f).arb = s.arb := rfl
@[simp] theorem updPool_grants (s : State) (n : Nat) (f : Pool → Pool) : (s.updPool n f).grants = s.grants := rfl
@[simp] theorem updPool_tests (s : State) (n : Nat) (f : Pool → Pool) : (s.updPool n f).tests = s.tests := rfl
@[simp] theorem updPool_out (s : State) (n : Nat) (f : Pool → Pool) : (s.updPool n f).out = s.out := rfl
@[simp] theorem updPool_free (s : State) (n : Nat) (f : Pool → Pool) : (s.updPool n f).free = s.free := rfl
@[simp] theorem updPool_pending (s : State) (n : Nat) (f : Pool → Pool) : (s.updPool n f).pending = s.pending := rfl

/-! ### State.updVol -/

@[simp] theorem updVol_id (s : State) (n : Nat) (f : Vol → Vol) : (s.updVol n f).id = s.id := rfl
@[simp] theorem updVol_clk (s : State) (n : Nat) (f : Vol → Vol) : (s.updVol n f).clk = s.clk := rfl
@[simp] theorem updVol_dies (s : State) (n : Nat) (f : Vol → Vol) : (s.updVol n f).dies = s.dies := rfl
@[simp] theorem updVol_rings (s : State) (n : Nat) (f : Vol → Vol) : (s.updVol n f).rings = s.rings := rfl
@[simp] theorem updVol_fns (s : State) (n : Nat) (f : Vol → Vol) : (s.updVol n f).fns = s.fns := rfl
@[simp] theorem updVol_cmds (s : State) (n : Nat) (f : Vol → Vol) : (s.updVol n f).cmds = s.cmds := rfl
@[simp] theorem updVol_seq (s : State) (n : Nat) (f : Vol → Vol) : (s.updVol n f).seq = s.seq := rfl
@[simp] theorem updVol_cache (s : State) (n : Nat) (f : Vol → Vol) : (s.updVol n f).cache = s.cache := rfl
@[simp] theorem updVol_mcmds (s : State) (n : Nat) (f : Vol → Vol) : (s.updVol n f).mcmds = s.mcmds := rfl
@[simp] theorem updVol_destages (s : State) (n : Nat) (f : Vol → Vol) : (s.updVol n f).destages = s.destages := rfl
@[simp] theorem updVol_uniq (s : State) (n : Nat) (f : Vol → Vol) : (s.updVol n f).uniq = s.uniq := rfl
@[simp] theorem updVol_pools (s : State) (n : Nat) (f : Vol → Vol) : (s.updVol n f).pools = s.pools := rfl
@[simp] theorem updVol_tenants (s : State) (n : Nat) (f : Vol → Vol) : (s.updVol n f).tenants = s.tenants := rfl
@[simp] theorem updVol_buckets (s : State) (n : Nat) (f : Vol → Vol) : (s.updVol n f).buckets = s.buckets := rfl
@[simp] theorem updVol_nss (s : State) (n : Nat) (f : Vol → Vol) : (s.updVol n f).nss = s.nss := rfl
@[simp] theorem updVol_refl (s : State) (n : Nat) (f : Vol → Vol) : (s.updVol n f).refl = s.refl := rfl
@[simp] theorem updVol_pair (s : State) (n : Nat) (f : Vol → Vol) : (s.updVol n f).pair = s.pair := rfl
@[simp] theorem updVol_pw (s : State) (n : Nat) (f : Vol → Vol) : (s.updVol n f).pw = s.pw := rfl
@[simp] theorem updVol_run (s : State) (n : Nat) (f : Vol → Vol) : (s.updVol n f).run = s.run := rfl
@[simp] theorem updVol_fw (s : State) (n : Nat) (f : Vol → Vol) : (s.updVol n f).fw = s.fw := rfl
@[simp] theorem updVol_log (s : State) (n : Nat) (f : Vol → Vol) : (s.updVol n f).log = s.log := rfl
@[simp] theorem updVol_meter (s : State) (n : Nat) (f : Vol → Vol) : (s.updVol n f).meter = s.meter := rfl
@[simp] theorem updVol_feat (s : State) (n : Nat) (f : Vol → Vol) : (s.updVol n f).feat = s.feat := rfl
@[simp] theorem updVol_reg (s : State) (n : Nat) (f : Vol → Vol) : (s.updVol n f).reg = s.reg := rfl
@[simp] theorem updVol_nextPlan (s : State) (n : Nat) (f : Vol → Vol) : (s.updVol n f).nextPlan = s.nextPlan := rfl
@[simp] theorem updVol_uids (s : State) (n : Nat) (f : Vol → Vol) : (s.updVol n f).uids = s.uids := rfl
@[simp] theorem updVol_eid (s : State) (n : Nat) (f : Vol → Vol) : (s.updVol n f).eid = s.eid := rfl
@[simp] theorem updVol_msixSent (s : State) (n : Nat) (f : Vol → Vol) : (s.updVol n f).msixSent = s.msixSent := rfl
@[simp] theorem updVol_arb (s : State) (n : Nat) (f : Vol → Vol) : (s.updVol n f).arb = s.arb := rfl
@[simp] theorem updVol_grants (s : State) (n : Nat) (f : Vol → Vol) : (s.updVol n f).grants = s.grants := rfl
@[simp] theorem updVol_tests (s : State) (n : Nat) (f : Vol → Vol) : (s.updVol n f).tests = s.tests := rfl
@[simp] theorem updVol_out (s : State) (n : Nat) (f : Vol → Vol) : (s.updVol n f).out = s.out := rfl
@[simp] theorem updVol_free (s : State) (n : Nat) (f : Vol → Vol) : (s.updVol n f).free = s.free := rfl
@[simp] theorem updVol_pending (s : State) (n : Nat) (f : Vol → Vol) : (s.updVol n f).pending = s.pending := rfl

/-! ### State.updTenant -/

@[simp] theorem updTenant_id (s : State) (n : Nat) (f : Tenant → Tenant) : (s.updTenant n f).id = s.id := rfl
@[simp] theorem updTenant_clk (s : State) (n : Nat) (f : Tenant → Tenant) : (s.updTenant n f).clk = s.clk := rfl
@[simp] theorem updTenant_dies (s : State) (n : Nat) (f : Tenant → Tenant) : (s.updTenant n f).dies = s.dies := rfl
@[simp] theorem updTenant_rings (s : State) (n : Nat) (f : Tenant → Tenant) : (s.updTenant n f).rings = s.rings := rfl
@[simp] theorem updTenant_fns (s : State) (n : Nat) (f : Tenant → Tenant) : (s.updTenant n f).fns = s.fns := rfl
@[simp] theorem updTenant_cmds (s : State) (n : Nat) (f : Tenant → Tenant) : (s.updTenant n f).cmds = s.cmds := rfl
@[simp] theorem updTenant_seq (s : State) (n : Nat) (f : Tenant → Tenant) : (s.updTenant n f).seq = s.seq := rfl
@[simp] theorem updTenant_cache (s : State) (n : Nat) (f : Tenant → Tenant) : (s.updTenant n f).cache = s.cache := rfl
@[simp] theorem updTenant_mcmds (s : State) (n : Nat) (f : Tenant → Tenant) : (s.updTenant n f).mcmds = s.mcmds := rfl
@[simp] theorem updTenant_destages (s : State) (n : Nat) (f : Tenant → Tenant) : (s.updTenant n f).destages = s.destages := rfl
@[simp] theorem updTenant_uniq (s : State) (n : Nat) (f : Tenant → Tenant) : (s.updTenant n f).uniq = s.uniq := rfl
@[simp] theorem updTenant_pools (s : State) (n : Nat) (f : Tenant → Tenant) : (s.updTenant n f).pools = s.pools := rfl
@[simp] theorem updTenant_vols (s : State) (n : Nat) (f : Tenant → Tenant) : (s.updTenant n f).vols = s.vols := rfl
@[simp] theorem updTenant_buckets (s : State) (n : Nat) (f : Tenant → Tenant) : (s.updTenant n f).buckets = s.buckets := rfl
@[simp] theorem updTenant_nss (s : State) (n : Nat) (f : Tenant → Tenant) : (s.updTenant n f).nss = s.nss := rfl
@[simp] theorem updTenant_refl (s : State) (n : Nat) (f : Tenant → Tenant) : (s.updTenant n f).refl = s.refl := rfl
@[simp] theorem updTenant_pair (s : State) (n : Nat) (f : Tenant → Tenant) : (s.updTenant n f).pair = s.pair := rfl
@[simp] theorem updTenant_pw (s : State) (n : Nat) (f : Tenant → Tenant) : (s.updTenant n f).pw = s.pw := rfl
@[simp] theorem updTenant_run (s : State) (n : Nat) (f : Tenant → Tenant) : (s.updTenant n f).run = s.run := rfl
@[simp] theorem updTenant_fw (s : State) (n : Nat) (f : Tenant → Tenant) : (s.updTenant n f).fw = s.fw := rfl
@[simp] theorem updTenant_log (s : State) (n : Nat) (f : Tenant → Tenant) : (s.updTenant n f).log = s.log := rfl
@[simp] theorem updTenant_meter (s : State) (n : Nat) (f : Tenant → Tenant) : (s.updTenant n f).meter = s.meter := rfl
@[simp] theorem updTenant_feat (s : State) (n : Nat) (f : Tenant → Tenant) : (s.updTenant n f).feat = s.feat := rfl
@[simp] theorem updTenant_reg (s : State) (n : Nat) (f : Tenant → Tenant) : (s.updTenant n f).reg = s.reg := rfl
@[simp] theorem updTenant_nextPlan (s : State) (n : Nat) (f : Tenant → Tenant) : (s.updTenant n f).nextPlan = s.nextPlan := rfl
@[simp] theorem updTenant_uids (s : State) (n : Nat) (f : Tenant → Tenant) : (s.updTenant n f).uids = s.uids := rfl
@[simp] theorem updTenant_eid (s : State) (n : Nat) (f : Tenant → Tenant) : (s.updTenant n f).eid = s.eid := rfl
@[simp] theorem updTenant_msixSent (s : State) (n : Nat) (f : Tenant → Tenant) : (s.updTenant n f).msixSent = s.msixSent := rfl
@[simp] theorem updTenant_arb (s : State) (n : Nat) (f : Tenant → Tenant) : (s.updTenant n f).arb = s.arb := rfl
@[simp] theorem updTenant_grants (s : State) (n : Nat) (f : Tenant → Tenant) : (s.updTenant n f).grants = s.grants := rfl
@[simp] theorem updTenant_tests (s : State) (n : Nat) (f : Tenant → Tenant) : (s.updTenant n f).tests = s.tests := rfl
@[simp] theorem updTenant_out (s : State) (n : Nat) (f : Tenant → Tenant) : (s.updTenant n f).out = s.out := rfl
@[simp] theorem updTenant_free (s : State) (n : Nat) (f : Tenant → Tenant) : (s.updTenant n f).free = s.free := rfl
@[simp] theorem updTenant_pending (s : State) (n : Nat) (f : Tenant → Tenant) : (s.updTenant n f).pending = s.pending := rfl

/-! ### State.updMeters -/

@[simp] theorem updMeters_id (s : State) (n : Nat) (f : Meters → Meters) : (s.updMeters n f).id = s.id := rfl
@[simp] theorem updMeters_clk (s : State) (n : Nat) (f : Meters → Meters) : (s.updMeters n f).clk = s.clk := rfl
@[simp] theorem updMeters_dies (s : State) (n : Nat) (f : Meters → Meters) : (s.updMeters n f).dies = s.dies := rfl
@[simp] theorem updMeters_rings (s : State) (n : Nat) (f : Meters → Meters) : (s.updMeters n f).rings = s.rings := rfl
@[simp] theorem updMeters_fns (s : State) (n : Nat) (f : Meters → Meters) : (s.updMeters n f).fns = s.fns := rfl
@[simp] theorem updMeters_cmds (s : State) (n : Nat) (f : Meters → Meters) : (s.updMeters n f).cmds = s.cmds := rfl
@[simp] theorem updMeters_seq (s : State) (n : Nat) (f : Meters → Meters) : (s.updMeters n f).seq = s.seq := rfl
@[simp] theorem updMeters_cache (s : State) (n : Nat) (f : Meters → Meters) : (s.updMeters n f).cache = s.cache := rfl
@[simp] theorem updMeters_mcmds (s : State) (n : Nat) (f : Meters → Meters) : (s.updMeters n f).mcmds = s.mcmds := rfl
@[simp] theorem updMeters_destages (s : State) (n : Nat) (f : Meters → Meters) : (s.updMeters n f).destages = s.destages := rfl
@[simp] theorem updMeters_uniq (s : State) (n : Nat) (f : Meters → Meters) : (s.updMeters n f).uniq = s.uniq := rfl
@[simp] theorem updMeters_pools (s : State) (n : Nat) (f : Meters → Meters) : (s.updMeters n f).pools = s.pools := rfl
@[simp] theorem updMeters_vols (s : State) (n : Nat) (f : Meters → Meters) : (s.updMeters n f).vols = s.vols := rfl
@[simp] theorem updMeters_buckets (s : State) (n : Nat) (f : Meters → Meters) : (s.updMeters n f).buckets = s.buckets := rfl
@[simp] theorem updMeters_nss (s : State) (n : Nat) (f : Meters → Meters) : (s.updMeters n f).nss = s.nss := rfl
@[simp] theorem updMeters_refl (s : State) (n : Nat) (f : Meters → Meters) : (s.updMeters n f).refl = s.refl := rfl
@[simp] theorem updMeters_pair (s : State) (n : Nat) (f : Meters → Meters) : (s.updMeters n f).pair = s.pair := rfl
@[simp] theorem updMeters_pw (s : State) (n : Nat) (f : Meters → Meters) : (s.updMeters n f).pw = s.pw := rfl
@[simp] theorem updMeters_run (s : State) (n : Nat) (f : Meters → Meters) : (s.updMeters n f).run = s.run := rfl
@[simp] theorem updMeters_fw (s : State) (n : Nat) (f : Meters → Meters) : (s.updMeters n f).fw = s.fw := rfl
@[simp] theorem updMeters_log (s : State) (n : Nat) (f : Meters → Meters) : (s.updMeters n f).log = s.log := rfl
@[simp] theorem updMeters_meter (s : State) (n : Nat) (f : Meters → Meters) : (s.updMeters n f).meter = s.meter := rfl
@[simp] theorem updMeters_feat (s : State) (n : Nat) (f : Meters → Meters) : (s.updMeters n f).feat = s.feat := rfl
@[simp] theorem updMeters_reg (s : State) (n : Nat) (f : Meters → Meters) : (s.updMeters n f).reg = s.reg := rfl
@[simp] theorem updMeters_nextPlan (s : State) (n : Nat) (f : Meters → Meters) : (s.updMeters n f).nextPlan = s.nextPlan := rfl
@[simp] theorem updMeters_uids (s : State) (n : Nat) (f : Meters → Meters) : (s.updMeters n f).uids = s.uids := rfl
@[simp] theorem updMeters_eid (s : State) (n : Nat) (f : Meters → Meters) : (s.updMeters n f).eid = s.eid := rfl
@[simp] theorem updMeters_msixSent (s : State) (n : Nat) (f : Meters → Meters) : (s.updMeters n f).msixSent = s.msixSent := rfl
@[simp] theorem updMeters_arb (s : State) (n : Nat) (f : Meters → Meters) : (s.updMeters n f).arb = s.arb := rfl
@[simp] theorem updMeters_grants (s : State) (n : Nat) (f : Meters → Meters) : (s.updMeters n f).grants = s.grants := rfl
@[simp] theorem updMeters_tests (s : State) (n : Nat) (f : Meters → Meters) : (s.updMeters n f).tests = s.tests := rfl
@[simp] theorem updMeters_out (s : State) (n : Nat) (f : Meters → Meters) : (s.updMeters n f).out = s.out := rfl
@[simp] theorem updMeters_free (s : State) (n : Nat) (f : Meters → Meters) : (s.updMeters n f).free = s.free := rfl
@[simp] theorem updMeters_pending (s : State) (n : Nat) (f : Meters → Meters) : (s.updMeters n f).pending = s.pending := rfl

/-! ### State.updNs -/

@[simp] theorem updNs_id (s : State) (n : Nat) (f : Ns → Ns) : (s.updNs n f).id = s.id := rfl
@[simp] theorem updNs_clk (s : State) (n : Nat) (f : Ns → Ns) : (s.updNs n f).clk = s.clk := rfl
@[simp] theorem updNs_dies (s : State) (n : Nat) (f : Ns → Ns) : (s.updNs n f).dies = s.dies := rfl
@[simp] theorem updNs_rings (s : State) (n : Nat) (f : Ns → Ns) : (s.updNs n f).rings = s.rings := rfl
@[simp] theorem updNs_fns (s : State) (n : Nat) (f : Ns → Ns) : (s.updNs n f).fns = s.fns := rfl
@[simp] theorem updNs_cmds (s : State) (n : Nat) (f : Ns → Ns) : (s.updNs n f).cmds = s.cmds := rfl
@[simp] theorem updNs_seq (s : State) (n : Nat) (f : Ns → Ns) : (s.updNs n f).seq = s.seq := rfl
@[simp] theorem updNs_cache (s : State) (n : Nat) (f : Ns → Ns) : (s.updNs n f).cache = s.cache := rfl
@[simp] theorem updNs_mcmds (s : State) (n : Nat) (f : Ns → Ns) : (s.updNs n f).mcmds = s.mcmds := rfl
@[simp] theorem updNs_destages (s : State) (n : Nat) (f : Ns → Ns) : (s.updNs n f).destages = s.destages := rfl
@[simp] theorem updNs_uniq (s : State) (n : Nat) (f : Ns → Ns) : (s.updNs n f).uniq = s.uniq := rfl
@[simp] theorem updNs_pools (s : State) (n : Nat) (f : Ns → Ns) : (s.updNs n f).pools = s.pools := rfl
@[simp] theorem updNs_vols (s : State) (n : Nat) (f : Ns → Ns) : (s.updNs n f).vols = s.vols := rfl
@[simp] theorem updNs_tenants (s : State) (n : Nat) (f : Ns → Ns) : (s.updNs n f).tenants = s.tenants := rfl
@[simp] theorem updNs_buckets (s : State) (n : Nat) (f : Ns → Ns) : (s.updNs n f).buckets = s.buckets := rfl
@[simp] theorem updNs_refl (s : State) (n : Nat) (f : Ns → Ns) : (s.updNs n f).refl = s.refl := rfl
@[simp] theorem updNs_pair (s : State) (n : Nat) (f : Ns → Ns) : (s.updNs n f).pair = s.pair := rfl
@[simp] theorem updNs_pw (s : State) (n : Nat) (f : Ns → Ns) : (s.updNs n f).pw = s.pw := rfl
@[simp] theorem updNs_run (s : State) (n : Nat) (f : Ns → Ns) : (s.updNs n f).run = s.run := rfl
@[simp] theorem updNs_fw (s : State) (n : Nat) (f : Ns → Ns) : (s.updNs n f).fw = s.fw := rfl
@[simp] theorem updNs_log (s : State) (n : Nat) (f : Ns → Ns) : (s.updNs n f).log = s.log := rfl
@[simp] theorem updNs_meter (s : State) (n : Nat) (f : Ns → Ns) : (s.updNs n f).meter = s.meter := rfl
@[simp] theorem updNs_feat (s : State) (n : Nat) (f : Ns → Ns) : (s.updNs n f).feat = s.feat := rfl
@[simp] theorem updNs_reg (s : State) (n : Nat) (f : Ns → Ns) : (s.updNs n f).reg = s.reg := rfl
@[simp] theorem updNs_nextPlan (s : State) (n : Nat) (f : Ns → Ns) : (s.updNs n f).nextPlan = s.nextPlan := rfl
@[simp] theorem updNs_uids (s : State) (n : Nat) (f : Ns → Ns) : (s.updNs n f).uids = s.uids := rfl
@[simp] theorem updNs_eid (s : State) (n : Nat) (f : Ns → Ns) : (s.updNs n f).eid = s.eid := rfl
@[simp] theorem updNs_msixSent (s : State) (n : Nat) (f : Ns → Ns) : (s.updNs n f).msixSent = s.msixSent := rfl
@[simp] theorem updNs_arb (s : State) (n : Nat) (f : Ns → Ns) : (s.updNs n f).arb = s.arb := rfl
@[simp] theorem updNs_grants (s : State) (n : Nat) (f : Ns → Ns) : (s.updNs n f).grants = s.grants := rfl
@[simp] theorem updNs_tests (s : State) (n : Nat) (f : Ns → Ns) : (s.updNs n f).tests = s.tests := rfl
@[simp] theorem updNs_out (s : State) (n : Nat) (f : Ns → Ns) : (s.updNs n f).out = s.out := rfl
@[simp] theorem updNs_free (s : State) (n : Nat) (f : Ns → Ns) : (s.updNs n f).free = s.free := rfl
@[simp] theorem updNs_pending (s : State) (n : Nat) (f : Ns → Ns) : (s.updNs n f).pending = s.pending := rfl

/-! ### State.emit -/

@[simp] theorem emit_id (s : State) (o : Out) : (s.emit o).id = s.id := rfl
@[simp] theorem emit_clk (s : State) (o : Out) : (s.emit o).clk = s.clk := rfl
@[simp] theorem emit_dies (s : State) (o : Out) : (s.emit o).dies = s.dies := rfl
@[simp] theorem emit_rings (s : State) (o : Out) : (s.emit o).rings = s.rings := rfl
@[simp] theorem emit_fns (s : State) (o : Out) : (s.emit o).fns = s.fns := rfl
@[simp] theorem emit_cmds (s : State) (o : Out) : (s.emit o).cmds = s.cmds := rfl
@[simp] theorem emit_seq (s : State) (o : Out) : (s.emit o).seq = s.seq := rfl
@[simp] theorem emit_cache (s : State) (o : Out) : (s.emit o).cache = s.cache := rfl
@[simp] theorem emit_mcmds (s : State) (o : Out) : (s.emit o).mcmds = s.mcmds := rfl
@[simp] theorem emit_destages (s : State) (o : Out) : (s.emit o).destages = s.destages := rfl
@[simp] theorem emit_uniq (s : State) (o : Out) : (s.emit o).uniq = s.uniq := rfl
@[simp] theorem emit_pools (s : State) (o : Out) : (s.emit o).pools = s.pools := rfl
@[simp] theorem emit_vols (s : State) (o : Out) : (s.emit o).vols = s.vols := rfl
@[simp] theorem emit_tenants (s : State) (o : Out) : (s.emit o).tenants = s.tenants := rfl
@[simp] theorem emit_buckets (s : State) (o : Out) : (s.emit o).buckets = s.buckets := rfl
@[simp] theorem emit_nss (s : State) (o : Out) : (s.emit o).nss = s.nss := rfl
@[simp] theorem emit_refl (s : State) (o : Out) : (s.emit o).refl = s.refl := rfl
@[simp] theorem emit_pair (s : State) (o : Out) : (s.emit o).pair = s.pair := rfl
@[simp] theorem emit_pw (s : State) (o : Out) : (s.emit o).pw = s.pw := rfl
@[simp] theorem emit_run (s : State) (o : Out) : (s.emit o).run = s.run := rfl
@[simp] theorem emit_fw (s : State) (o : Out) : (s.emit o).fw = s.fw := rfl
@[simp] theorem emit_log (s : State) (o : Out) : (s.emit o).log = s.log := rfl
@[simp] theorem emit_meter (s : State) (o : Out) : (s.emit o).meter = s.meter := rfl
@[simp] theorem emit_feat (s : State) (o : Out) : (s.emit o).feat = s.feat := rfl
@[simp] theorem emit_reg (s : State) (o : Out) : (s.emit o).reg = s.reg := rfl
@[simp] theorem emit_nextPlan (s : State) (o : Out) : (s.emit o).nextPlan = s.nextPlan := rfl
@[simp] theorem emit_uids (s : State) (o : Out) : (s.emit o).uids = s.uids := rfl
@[simp] theorem emit_eid (s : State) (o : Out) : (s.emit o).eid = s.eid := rfl
@[simp] theorem emit_msixSent (s : State) (o : Out) : (s.emit o).msixSent = s.msixSent := rfl
@[simp] theorem emit_arb (s : State) (o : Out) : (s.emit o).arb = s.arb := rfl
@[simp] theorem emit_grants (s : State) (o : Out) : (s.emit o).grants = s.grants := rfl
@[simp] theorem emit_tests (s : State) (o : Out) : (s.emit o).tests = s.tests := rfl
@[simp] theorem emit_free (s : State) (o : Out) : (s.emit o).free = s.free := rfl
@[simp] theorem emit_pending (s : State) (o : Out) : (s.emit o).pending = s.pending := rfl

/-! ### State.updFn -/

@[simp] theorem updFn_id (s : State) (d f : Nat) (g : FnSt → FnSt) : (s.updFn d f g).id = s.id := by
  unfold State.updFn; split <;> rfl
@[simp] theorem updFn_clk (s : State) (d f : Nat) (g : FnSt → FnSt) : (s.updFn d f g).clk = s.clk := by
  unfold State.updFn; split <;> rfl
@[simp] theorem updFn_dies (s : State) (d f : Nat) (g : FnSt → FnSt) : (s.updFn d f g).dies = s.dies := by
  unfold State.updFn; split <;> rfl
@[simp] theorem updFn_rings (s : State) (d f : Nat) (g : FnSt → FnSt) : (s.updFn d f g).rings = s.rings := by
  unfold State.updFn; split <;> rfl
@[simp] theorem updFn_cmds (s : State) (d f : Nat) (g : FnSt → FnSt) : (s.updFn d f g).cmds = s.cmds := by
  unfold State.updFn; split <;> rfl
@[simp] theorem updFn_seq (s : State) (d f : Nat) (g : FnSt → FnSt) : (s.updFn d f g).seq = s.seq := by
  unfold State.updFn; split <;> rfl
@[simp] theorem updFn_cache (s : State) (d f : Nat) (g : FnSt → FnSt) : (s.updFn d f g).cache = s.cache := by
  unfold State.updFn; split <;> rfl
@[simp] theorem updFn_mcmds (s : State) (d f : Nat) (g : FnSt → FnSt) : (s.updFn d f g).mcmds = s.mcmds := by
  unfold State.updFn; split <;> rfl
@[simp] theorem updFn_destages (s : State) (d f : Nat) (g : FnSt → FnSt) : (s.updFn d f g).destages = s.destages := by
  unfold State.updFn; split <;> rfl
@[simp] theorem updFn_uniq (s : State) (d f : Nat) (g : FnSt → FnSt) : (s.updFn d f g).uniq = s.uniq := by
  unfold State.updFn; split <;> rfl
@[simp] theorem updFn_pools (s : State) (d f : Nat) (g : FnSt → FnSt) : (s.updFn d f g).pools = s.pools := by
  unfold State.updFn; split <;> rfl
@[simp] theorem updFn_vols (s : State) (d f : Nat) (g : FnSt → FnSt) : (s.updFn d f g).vols = s.vols := by
  unfold State.updFn; split <;> rfl
@[simp] theorem updFn_tenants (s : State) (d f : Nat) (g : FnSt → FnSt) : (s.updFn d f g).tenants = s.tenants := by
  unfold State.updFn; split <;> rfl
@[simp] theorem updFn_buckets (s : State) (d f : Nat) (g : FnSt → FnSt) : (s.updFn d f g).buckets = s.buckets := by
  unfold State.updFn; split <;> rfl
@[simp] theorem updFn_nss (s : State) (d f : Nat) (g : FnSt → FnSt) : (s.updFn d f g).nss = s.nss := by
  unfold State.updFn; split <;> rfl
@[simp] theorem updFn_refl (s : State) (d f : Nat) (g : FnSt → FnSt) : (s.updFn d f g).refl = s.refl := by
  unfold State.updFn; split <;> rfl
@[simp] theorem updFn_pair (s : State) (d f : Nat) (g : FnSt → FnSt) : (s.updFn d f g).pair = s.pair := by
  unfold State.updFn; split <;> rfl
@[simp] theorem updFn_pw (s : State) (d f : Nat) (g : FnSt → FnSt) : (s.updFn d f g).pw = s.pw := by
  unfold State.updFn; split <;> rfl
@[simp] theorem updFn_run (s : State) (d f : Nat) (g : FnSt → FnSt) : (s.updFn d f g).run = s.run := by
  unfold State.updFn; split <;> rfl
@[simp] theorem updFn_fw (s : State) (d f : Nat) (g : FnSt → FnSt) : (s.updFn d f g).fw = s.fw := by
  unfold State.updFn; split <;> rfl
@[simp] theorem updFn_log (s : State) (d f : Nat) (g : FnSt → FnSt) : (s.updFn d f g).log = s.log := by
  unfold State.updFn; split <;> rfl
@[simp] theorem updFn_meter (s : State) (d f : Nat) (g : FnSt → FnSt) : (s.updFn d f g).meter = s.meter := by
  unfold State.updFn; split <;> rfl
@[simp] theorem updFn_feat (s : State) (d f : Nat) (g : FnSt → FnSt) : (s.updFn d f g).feat = s.feat := by
  unfold State.updFn; split <;> rfl
@[simp] theorem updFn_reg (s : State) (d f : Nat) (g : FnSt → FnSt) : (s.updFn d f g).reg = s.reg := by
  unfold State.updFn; split <;> rfl
@[simp] theorem updFn_nextPlan (s : State) (d f : Nat) (g : FnSt → FnSt) : (s.updFn d f g).nextPlan = s.nextPlan := by
  unfold State.updFn; split <;> rfl
@[simp] theorem updFn_uids (s : State) (d f : Nat) (g : FnSt → FnSt) : (s.updFn d f g).uids = s.uids := by
  unfold State.updFn; split <;> rfl
@[simp] theorem updFn_eid (s : State) (d f : Nat) (g : FnSt → FnSt) : (s.updFn d f g).eid = s.eid := by
  unfold State.updFn; split <;> rfl
@[simp] theorem updFn_msixSent (s : State) (d f : Nat) (g : FnSt → FnSt) : (s.updFn d f g).msixSent = s.msixSent := by
  unfold State.updFn; split <;> rfl
@[simp] theorem updFn_arb (s : State) (d f : Nat) (g : FnSt → FnSt) : (s.updFn d f g).arb = s.arb := by
  unfold State.updFn; split <;> rfl
@[simp] theorem updFn_grants (s : State) (d f : Nat) (g : FnSt → FnSt) : (s.updFn d f g).grants = s.grants := by
  unfold State.updFn; split <;> rfl
@[simp] theorem updFn_tests (s : State) (d f : Nat) (g : FnSt → FnSt) : (s.updFn d f g).tests = s.tests := by
  unfold State.updFn; split <;> rfl
@[simp] theorem updFn_out (s : State) (d f : Nat) (g : FnSt → FnSt) : (s.updFn d f g).out = s.out := by
  unfold State.updFn; split <;> rfl
@[simp] theorem updFn_free (s : State) (d f : Nat) (g : FnSt → FnSt) : (s.updFn d f g).free = s.free := by
  unfold State.updFn; split <;> rfl
@[simp] theorem updFn_pending (s : State) (d f : Nat) (g : FnSt → FnSt) : (s.updFn d f g).pending = s.pending := by
  unfold State.updFn; split <;> rfl

end Sys2Proof.Machine
end

