-- ==== Sys2Proof/Laws/Ops.lean ====
section
/-! SUPPORT. What the shared operations of events, completions and dispatch can change: every other field of the state
is as it was. -/

namespace Sys2Proof.Machine
set_option Elab.async false
set_option linter.unusedTactic false
set_option linter.unreachableTactic false
set_option linter.unusedSimpArgs false
set_option linter.unusedVariables false

/-! ### sendMsix: R105, R524: a message goes out, or waits in the pending bits of its function. -/

@[simp] theorem sendMsix_id (s : State) (d fn vec : Nat) : (sendMsix d fn vec s).id = s.id := by
  unfold sendMsix; (repeat' split) <;> simp
@[simp] theorem sendMsix_clk (s : State) (d fn vec : Nat) : (sendMsix d fn vec s).clk = s.clk := by
  unfold sendMsix; (repeat' split) <;> simp
@[simp] theorem sendMsix_dies (s : State) (d fn vec : Nat) : (sendMsix d fn vec s).dies = s.dies := by
  unfold sendMsix; (repeat' split) <;> simp
@[simp] theorem sendMsix_rings (s : State) (d fn vec : Nat) : (sendMsix d fn vec s).rings = s.rings := by
  unfold sendMsix; (repeat' split) <;> simp
@[simp] theorem sendMsix_cmds (s : State) (d fn vec : Nat) : (sendMsix d fn vec s).cmds = s.cmds := by
  unfold sendMsix; (repeat' split) <;> simp
@[simp] theorem sendMsix_seq (s : State) (d fn vec : Nat) : (sendMsix d fn vec s).seq = s.seq := by
  unfold sendMsix; (repeat' split) <;> simp
@[simp] theorem sendMsix_cache (s : State) (d fn vec : Nat) : (sendMsix d fn vec s).cache = s.cache := by
  unfold sendMsix; (repeat' split) <;> simp
@[simp] theorem sendMsix_mcmds (s : State) (d fn vec : Nat) : (sendMsix d fn vec s).mcmds = s.mcmds := by
  unfold sendMsix; (repeat' split) <;> simp
@[simp] theorem sendMsix_destages (s : State) (d fn vec : Nat) : (sendMsix d fn vec s).destages = s.destages := by
  unfold sendMsix; (repeat' split) <;> simp
@[simp] theorem sendMsix_uniq (s : State) (d fn vec : Nat) : (sendMsix d fn vec s).uniq = s.uniq := by
  unfold sendMsix; (repeat' split) <;> simp
@[simp] theorem sendMsix_pools (s : State) (d fn vec : Nat) : (sendMsix d fn vec s).pools = s.pools := by
  unfold sendMsix; (repeat' split) <;> simp
@[simp] theorem sendMsix_vols (s : State) (d fn vec : Nat) : (sendMsix d fn vec s).vols = s.vols := by
  unfold sendMsix; (repeat' split) <;> simp
@[simp] theorem sendMsix_tenants (s : State) (d fn vec : Nat) : (sendMsix d fn vec s).tenants = s.tenants := by
  unfold sendMsix; (repeat' split) <;> simp
@[simp] theorem sendMsix_buckets (s : State) (d fn vec : Nat) : (sendMsix d fn vec s).buckets = s.buckets := by
  unfold sendMsix; (repeat' split) <;> simp
@[simp] theorem sendMsix_nss (s : State) (d fn vec : Nat) : (sendMsix d fn vec s).nss = s.nss := by
  unfold sendMsix; (repeat' split) <;> simp
@[simp] theorem sendMsix_refl (s : State) (d fn vec : Nat) : (sendMsix d fn vec s).refl = s.refl := by
  unfold sendMsix; (repeat' split) <;> simp
@[simp] theorem sendMsix_pair (s : State) (d fn vec : Nat) : (sendMsix d fn vec s).pair = s.pair := by
  unfold sendMsix; (repeat' split) <;> simp
@[simp] theorem sendMsix_pw (s : State) (d fn vec : Nat) : (sendMsix d fn vec s).pw = s.pw := by
  unfold sendMsix; (repeat' split) <;> simp
@[simp] theorem sendMsix_run (s : State) (d fn vec : Nat) : (sendMsix d fn vec s).run = s.run := by
  unfold sendMsix; (repeat' split) <;> simp
@[simp] theorem sendMsix_fw (s : State) (d fn vec : Nat) : (sendMsix d fn vec s).fw = s.fw := by
  unfold sendMsix; (repeat' split) <;> simp
@[simp] theorem sendMsix_log (s : State) (d fn vec : Nat) : (sendMsix d fn vec s).log = s.log := by
  unfold sendMsix; (repeat' split) <;> simp
@[simp] theorem sendMsix_meter (s : State) (d fn vec : Nat) : (sendMsix d fn vec s).meter = s.meter := by
  unfold sendMsix; (repeat' split) <;> simp
@[simp] theorem sendMsix_fns (s : State) (d fn vec : Nat) : (sendMsix d fn vec s).fns = s.fns := by
  unfold sendMsix; (repeat' split) <;> simp
@[simp] theorem sendMsix_out (s : State) (d fn vec : Nat) : (sendMsix d fn vec s).out = s.out := by
  unfold sendMsix; (repeat' split) <;> simp
@[simp] theorem sendMsix_feat (s : State) (d fn vec : Nat) : (sendMsix d fn vec s).feat = s.feat := by
  unfold sendMsix; (repeat' split) <;> simp
@[simp] theorem sendMsix_reg (s : State) (d fn vec : Nat) : (sendMsix d fn vec s).reg = s.reg := by
  unfold sendMsix; (repeat' split) <;> simp
@[simp] theorem sendMsix_nextPlan (s : State) (d fn vec : Nat) : (sendMsix d fn vec s).nextPlan = s.nextPlan := by
  unfold sendMsix; (repeat' split) <;> simp
@[simp] theorem sendMsix_uids (s : State) (d fn vec : Nat) : (sendMsix d fn vec s).uids = s.uids := by
  unfold sendMsix; (repeat' split) <;> simp
@[simp] theorem sendMsix_eid (s : State) (d fn vec : Nat) : (sendMsix d fn vec s).eid = s.eid := by
  unfold sendMsix; (repeat' split) <;> simp
@[simp] theorem sendMsix_arb (s : State) (d fn vec : Nat) : (sendMsix d fn vec s).arb = s.arb := by
  unfold sendMsix; (repeat' split) <;> simp
@[simp] theorem sendMsix_grants (s : State) (d fn vec : Nat) : (sendMsix d fn vec s).grants = s.grants := by
  unfold sendMsix; (repeat' split) <;> simp
@[simp] theorem sendMsix_tests (s : State) (d fn vec : Nat) : (sendMsix d fn vec s).tests = s.tests := by
  unfold sendMsix; (repeat' split) <;> simp
@[simp] theorem sendMsix_free (s : State) (d fn vec : Nat) : (sendMsix d fn vec s).free = s.free := by
  unfold sendMsix; (repeat' split) <;> simp
@[simp] theorem sendMsix_pending (s : State) (d fn vec : Nat) : (sendMsix d fn vec s).pending = s.pending := by
  unfold sendMsix; (repeat' split) <;> simp

/-! ### signalEvent: R405 steps 1 to 3: the EVT block of one die, and a message. -/

@[simp] theorem signalEvent_id (s : State) (d code : Nat) : (signalEvent d code s).id = s.id := by
  unfold signalEvent; split
  · rfl
  · dsimp only; split <;> simp
@[simp] theorem signalEvent_clk (s : State) (d code : Nat) : (signalEvent d code s).clk = s.clk := by
  unfold signalEvent; split
  · rfl
  · dsimp only; split <;> simp
@[simp] theorem signalEvent_rings (s : State) (d code : Nat) : (signalEvent d code s).rings = s.rings := by
  unfold signalEvent; split
  · rfl
  · dsimp only; split <;> simp
@[simp] theorem signalEvent_cmds (s : State) (d code : Nat) : (signalEvent d code s).cmds = s.cmds := by
  unfold signalEvent; split
  · rfl
  · dsimp only; split <;> simp
@[simp] theorem signalEvent_seq (s : State) (d code : Nat) : (signalEvent d code s).seq = s.seq := by
  unfold signalEvent; split
  · rfl
  · dsimp only; split <;> simp
@[simp] theorem signalEvent_cache (s : State) (d code : Nat) : (signalEvent d code s).cache = s.cache := by
  unfold signalEvent; split
  · rfl
  · dsimp only; split <;> simp
@[simp] theorem signalEvent_mcmds (s : State) (d code : Nat) : (signalEvent d code s).mcmds = s.mcmds := by
  unfold signalEvent; split
  · rfl
  · dsimp only; split <;> simp
@[simp] theorem signalEvent_destages (s : State) (d code : Nat) : (signalEvent d code s).destages = s.destages := by
  unfold signalEvent; split
  · rfl
  · dsimp only; split <;> simp
@[simp] theorem signalEvent_uniq (s : State) (d code : Nat) : (signalEvent d code s).uniq = s.uniq := by
  unfold signalEvent; split
  · rfl
  · dsimp only; split <;> simp
@[simp] theorem signalEvent_pools (s : State) (d code : Nat) : (signalEvent d code s).pools = s.pools := by
  unfold signalEvent; split
  · rfl
  · dsimp only; split <;> simp
@[simp] theorem signalEvent_vols (s : State) (d code : Nat) : (signalEvent d code s).vols = s.vols := by
  unfold signalEvent; split
  · rfl
  · dsimp only; split <;> simp
@[simp] theorem signalEvent_tenants (s : State) (d code : Nat) : (signalEvent d code s).tenants = s.tenants := by
  unfold signalEvent; split
  · rfl
  · dsimp only; split <;> simp
@[simp] theorem signalEvent_buckets (s : State) (d code : Nat) : (signalEvent d code s).buckets = s.buckets := by
  unfold signalEvent; split
  · rfl
  · dsimp only; split <;> simp
@[simp] theorem signalEvent_nss (s : State) (d code : Nat) : (signalEvent d code s).nss = s.nss := by
  unfold signalEvent; split
  · rfl
  · dsimp only; split <;> simp
@[simp] theorem signalEvent_refl (s : State) (d code : Nat) : (signalEvent d code s).refl = s.refl := by
  unfold signalEvent; split
  · rfl
  · dsimp only; split <;> simp
@[simp] theorem signalEvent_pair (s : State) (d code : Nat) : (signalEvent d code s).pair = s.pair := by
  unfold signalEvent; split
  · rfl
  · dsimp only; split <;> simp
@[simp] theorem signalEvent_pw (s : State) (d code : Nat) : (signalEvent d code s).pw = s.pw := by
  unfold signalEvent; split
  · rfl
  · dsimp only; split <;> simp
@[simp] theorem signalEvent_run (s : State) (d code : Nat) : (signalEvent d code s).run = s.run := by
  unfold signalEvent; split
  · rfl
  · dsimp only; split <;> simp
@[simp] theorem signalEvent_fw (s : State) (d code : Nat) : (signalEvent d code s).fw = s.fw := by
  unfold signalEvent; split
  · rfl
  · dsimp only; split <;> simp
@[simp] theorem signalEvent_log (s : State) (d code : Nat) : (signalEvent d code s).log = s.log := by
  unfold signalEvent; split
  · rfl
  · dsimp only; split <;> simp
@[simp] theorem signalEvent_meter (s : State) (d code : Nat) : (signalEvent d code s).meter = s.meter := by
  unfold signalEvent; split
  · rfl
  · dsimp only; split <;> simp
@[simp] theorem signalEvent_fns (s : State) (d code : Nat) : (signalEvent d code s).fns = s.fns := by
  unfold signalEvent; split
  · rfl
  · dsimp only; split <;> simp
@[simp] theorem signalEvent_out (s : State) (d code : Nat) : (signalEvent d code s).out = s.out := by
  unfold signalEvent; split
  · rfl
  · dsimp only; split <;> simp
@[simp] theorem signalEvent_feat (s : State) (d code : Nat) : (signalEvent d code s).feat = s.feat := by
  unfold signalEvent; split
  · rfl
  · dsimp only; split <;> simp
@[simp] theorem signalEvent_reg (s : State) (d code : Nat) : (signalEvent d code s).reg = s.reg := by
  unfold signalEvent; split
  · rfl
  · dsimp only; split <;> simp
@[simp] theorem signalEvent_nextPlan (s : State) (d code : Nat) : (signalEvent d code s).nextPlan = s.nextPlan := by
  unfold signalEvent; split
  · rfl
  · dsimp only; split <;> simp
@[simp] theorem signalEvent_uids (s : State) (d code : Nat) : (signalEvent d code s).uids = s.uids := by
  unfold signalEvent; split
  · rfl
  · dsimp only; split <;> simp
@[simp] theorem signalEvent_eid (s : State) (d code : Nat) : (signalEvent d code s).eid = s.eid := by
  unfold signalEvent; split
  · rfl
  · dsimp only; split <;> simp
@[simp] theorem signalEvent_arb (s : State) (d code : Nat) : (signalEvent d code s).arb = s.arb := by
  unfold signalEvent; split
  · rfl
  · dsimp only; split <;> simp
@[simp] theorem signalEvent_grants (s : State) (d code : Nat) : (signalEvent d code s).grants = s.grants := by
  unfold signalEvent; split
  · rfl
  · dsimp only; split <;> simp
@[simp] theorem signalEvent_tests (s : State) (d code : Nat) : (signalEvent d code s).tests = s.tests := by
  unfold signalEvent; split
  · rfl
  · dsimp only; split <;> simp
@[simp] theorem signalEvent_free (s : State) (d code : Nat) : (signalEvent d code s).free = s.free := by
  unfold signalEvent; split
  · rfl
  · dsimp only; split <;> simp
@[simp] theorem signalEvent_pending (s : State) (d code : Nat) : (signalEvent d code s).pending = s.pending := by
  unfold signalEvent; split
  · rfl
  · dsimp only; split <;> simp

/-- A field that each step of a fold keeps is kept. -/
theorem foldl_keeps {α β : Type} (f : State → β) (g : State → α → State) (h : ∀ s x, f (g s x) = f s) :
    ∀ (l : List α) (s : State), f (l.foldl g s) = f s
  | [], _ => rfl
  | x :: xs, s => (foldl_keeps f g h xs (g s x)).trans (h s x)

/-! ### programRec: R416: the recorder of one die, and 8002h of its last slot. -/

@[simp] theorem programRec_id (s : State) (d : Nat) (r : Rec) : (programRec d r s).id = s.id := by
  unfold programRec; (repeat' split) <;> simp
@[simp] theorem programRec_clk (s : State) (d : Nat) (r : Rec) : (programRec d r s).clk = s.clk := by
  unfold programRec; (repeat' split) <;> simp
@[simp] theorem programRec_rings (s : State) (d : Nat) (r : Rec) : (programRec d r s).rings = s.rings := by
  unfold programRec; (repeat' split) <;> simp
@[simp] theorem programRec_cmds (s : State) (d : Nat) (r : Rec) : (programRec d r s).cmds = s.cmds := by
  unfold programRec; (repeat' split) <;> simp
@[simp] theorem programRec_seq (s : State) (d : Nat) (r : Rec) : (programRec d r s).seq = s.seq := by
  unfold programRec; (repeat' split) <;> simp
@[simp] theorem programRec_cache (s : State) (d : Nat) (r : Rec) : (programRec d r s).cache = s.cache := by
  unfold programRec; (repeat' split) <;> simp
@[simp] theorem programRec_mcmds (s : State) (d : Nat) (r : Rec) : (programRec d r s).mcmds = s.mcmds := by
  unfold programRec; (repeat' split) <;> simp
@[simp] theorem programRec_destages (s : State) (d : Nat) (r : Rec) : (programRec d r s).destages = s.destages := by
  unfold programRec; (repeat' split) <;> simp
@[simp] theorem programRec_uniq (s : State) (d : Nat) (r : Rec) : (programRec d r s).uniq = s.uniq := by
  unfold programRec; (repeat' split) <;> simp
@[simp] theorem programRec_pools (s : State) (d : Nat) (r : Rec) : (programRec d r s).pools = s.pools := by
  unfold programRec; (repeat' split) <;> simp
@[simp] theorem programRec_vols (s : State) (d : Nat) (r : Rec) : (programRec d r s).vols = s.vols := by
  unfold programRec; (repeat' split) <;> simp
@[simp] theorem programRec_tenants (s : State) (d : Nat) (r : Rec) : (programRec d r s).tenants = s.tenants := by
  unfold programRec; (repeat' split) <;> simp
@[simp] theorem programRec_buckets (s : State) (d : Nat) (r : Rec) : (programRec d r s).buckets = s.buckets := by
  unfold programRec; (repeat' split) <;> simp
@[simp] theorem programRec_nss (s : State) (d : Nat) (r : Rec) : (programRec d r s).nss = s.nss := by
  unfold programRec; (repeat' split) <;> simp
@[simp] theorem programRec_refl (s : State) (d : Nat) (r : Rec) : (programRec d r s).refl = s.refl := by
  unfold programRec; (repeat' split) <;> simp
@[simp] theorem programRec_pair (s : State) (d : Nat) (r : Rec) : (programRec d r s).pair = s.pair := by
  unfold programRec; (repeat' split) <;> simp
@[simp] theorem programRec_pw (s : State) (d : Nat) (r : Rec) : (programRec d r s).pw = s.pw := by
  unfold programRec; (repeat' split) <;> simp
@[simp] theorem programRec_run (s : State) (d : Nat) (r : Rec) : (programRec d r s).run = s.run := by
  unfold programRec; (repeat' split) <;> simp
@[simp] theorem programRec_fw (s : State) (d : Nat) (r : Rec) : (programRec d r s).fw = s.fw := by
  unfold programRec; (repeat' split) <;> simp
@[simp] theorem programRec_log (s : State) (d : Nat) (r : Rec) : (programRec d r s).log = s.log := by
  unfold programRec; (repeat' split) <;> simp
@[simp] theorem programRec_meter (s : State) (d : Nat) (r : Rec) : (programRec d r s).meter = s.meter := by
  unfold programRec; (repeat' split) <;> simp
@[simp] theorem programRec_fns (s : State) (d : Nat) (r : Rec) : (programRec d r s).fns = s.fns := by
  unfold programRec; (repeat' split) <;> simp
@[simp] theorem programRec_out (s : State) (d : Nat) (r : Rec) : (programRec d r s).out = s.out := by
  unfold programRec; (repeat' split) <;> simp
@[simp] theorem programRec_feat (s : State) (d : Nat) (r : Rec) : (programRec d r s).feat = s.feat := by
  unfold programRec; (repeat' split) <;> simp
@[simp] theorem programRec_reg (s : State) (d : Nat) (r : Rec) : (programRec d r s).reg = s.reg := by
  unfold programRec; (repeat' split) <;> simp
@[simp] theorem programRec_nextPlan (s : State) (d : Nat) (r : Rec) : (programRec d r s).nextPlan = s.nextPlan := by
  unfold programRec; (repeat' split) <;> simp
@[simp] theorem programRec_uids (s : State) (d : Nat) (r : Rec) : (programRec d r s).uids = s.uids := by
  unfold programRec; (repeat' split) <;> simp
@[simp] theorem programRec_eid (s : State) (d : Nat) (r : Rec) : (programRec d r s).eid = s.eid := by
  unfold programRec; (repeat' split) <;> simp
@[simp] theorem programRec_arb (s : State) (d : Nat) (r : Rec) : (programRec d r s).arb = s.arb := by
  unfold programRec; (repeat' split) <;> simp
@[simp] theorem programRec_grants (s : State) (d : Nat) (r : Rec) : (programRec d r s).grants = s.grants := by
  unfold programRec; (repeat' split) <;> simp
@[simp] theorem programRec_tests (s : State) (d : Nat) (r : Rec) : (programRec d r s).tests = s.tests := by
  unfold programRec; (repeat' split) <;> simp
@[simp] theorem programRec_free (s : State) (d : Nat) (r : Rec) : (programRec d r s).free = s.free := by
  unfold programRec; (repeat' split) <;> simp
@[simp] theorem programRec_pending (s : State) (d : Nat) (r : Rec) : (programRec d r s).pending = s.pending := by
  unfold programRec; (repeat' split) <;> simp

/-! ### placeRec: R417, R421: the recorder of one die. -/

@[simp] theorem placeRec_id (s : State) (d : Nat) (r : Rec) : (placeRec d r s).id = s.id := by
  unfold placeRec; (repeat' split) <;> simp
@[simp] theorem placeRec_clk (s : State) (d : Nat) (r : Rec) : (placeRec d r s).clk = s.clk := by
  unfold placeRec; (repeat' split) <;> simp
@[simp] theorem placeRec_rings (s : State) (d : Nat) (r : Rec) : (placeRec d r s).rings = s.rings := by
  unfold placeRec; (repeat' split) <;> simp
@[simp] theorem placeRec_cmds (s : State) (d : Nat) (r : Rec) : (placeRec d r s).cmds = s.cmds := by
  unfold placeRec; (repeat' split) <;> simp
@[simp] theorem placeRec_seq (s : State) (d : Nat) (r : Rec) : (placeRec d r s).seq = s.seq := by
  unfold placeRec; (repeat' split) <;> simp
@[simp] theorem placeRec_cache (s : State) (d : Nat) (r : Rec) : (placeRec d r s).cache = s.cache := by
  unfold placeRec; (repeat' split) <;> simp
@[simp] theorem placeRec_mcmds (s : State) (d : Nat) (r : Rec) : (placeRec d r s).mcmds = s.mcmds := by
  unfold placeRec; (repeat' split) <;> simp
@[simp] theorem placeRec_destages (s : State) (d : Nat) (r : Rec) : (placeRec d r s).destages = s.destages := by
  unfold placeRec; (repeat' split) <;> simp
@[simp] theorem placeRec_uniq (s : State) (d : Nat) (r : Rec) : (placeRec d r s).uniq = s.uniq := by
  unfold placeRec; (repeat' split) <;> simp
@[simp] theorem placeRec_pools (s : State) (d : Nat) (r : Rec) : (placeRec d r s).pools = s.pools := by
  unfold placeRec; (repeat' split) <;> simp
@[simp] theorem placeRec_vols (s : State) (d : Nat) (r : Rec) : (placeRec d r s).vols = s.vols := by
  unfold placeRec; (repeat' split) <;> simp
@[simp] theorem placeRec_tenants (s : State) (d : Nat) (r : Rec) : (placeRec d r s).tenants = s.tenants := by
  unfold placeRec; (repeat' split) <;> simp
@[simp] theorem placeRec_buckets (s : State) (d : Nat) (r : Rec) : (placeRec d r s).buckets = s.buckets := by
  unfold placeRec; (repeat' split) <;> simp
@[simp] theorem placeRec_nss (s : State) (d : Nat) (r : Rec) : (placeRec d r s).nss = s.nss := by
  unfold placeRec; (repeat' split) <;> simp
@[simp] theorem placeRec_refl (s : State) (d : Nat) (r : Rec) : (placeRec d r s).refl = s.refl := by
  unfold placeRec; (repeat' split) <;> simp
@[simp] theorem placeRec_pair (s : State) (d : Nat) (r : Rec) : (placeRec d r s).pair = s.pair := by
  unfold placeRec; (repeat' split) <;> simp
@[simp] theorem placeRec_pw (s : State) (d : Nat) (r : Rec) : (placeRec d r s).pw = s.pw := by
  unfold placeRec; (repeat' split) <;> simp
@[simp] theorem placeRec_run (s : State) (d : Nat) (r : Rec) : (placeRec d r s).run = s.run := by
  unfold placeRec; (repeat' split) <;> simp
@[simp] theorem placeRec_fw (s : State) (d : Nat) (r : Rec) : (placeRec d r s).fw = s.fw := by
  unfold placeRec; (repeat' split) <;> simp
@[simp] theorem placeRec_log (s : State) (d : Nat) (r : Rec) : (placeRec d r s).log = s.log := by
  unfold placeRec; (repeat' split) <;> simp
@[simp] theorem placeRec_meter (s : State) (d : Nat) (r : Rec) : (placeRec d r s).meter = s.meter := by
  unfold placeRec; (repeat' split) <;> simp
@[simp] theorem placeRec_fns (s : State) (d : Nat) (r : Rec) : (placeRec d r s).fns = s.fns := by
  unfold placeRec; (repeat' split) <;> simp
@[simp] theorem placeRec_out (s : State) (d : Nat) (r : Rec) : (placeRec d r s).out = s.out := by
  unfold placeRec; (repeat' split) <;> simp
@[simp] theorem placeRec_feat (s : State) (d : Nat) (r : Rec) : (placeRec d r s).feat = s.feat := by
  unfold placeRec; (repeat' split) <;> simp
@[simp] theorem placeRec_reg (s : State) (d : Nat) (r : Rec) : (placeRec d r s).reg = s.reg := by
  unfold placeRec; (repeat' split) <;> simp
@[simp] theorem placeRec_nextPlan (s : State) (d : Nat) (r : Rec) : (placeRec d r s).nextPlan = s.nextPlan := by
  unfold placeRec; (repeat' split) <;> simp
@[simp] theorem placeRec_uids (s : State) (d : Nat) (r : Rec) : (placeRec d r s).uids = s.uids := by
  unfold placeRec; (repeat' split) <;> simp
@[simp] theorem placeRec_eid (s : State) (d : Nat) (r : Rec) : (placeRec d r s).eid = s.eid := by
  unfold placeRec; (repeat' split) <;> simp
@[simp] theorem placeRec_arb (s : State) (d : Nat) (r : Rec) : (placeRec d r s).arb = s.arb := by
  unfold placeRec; (repeat' split) <;> simp
@[simp] theorem placeRec_grants (s : State) (d : Nat) (r : Rec) : (placeRec d r s).grants = s.grants := by
  unfold placeRec; (repeat' split) <;> simp
@[simp] theorem placeRec_tests (s : State) (d : Nat) (r : Rec) : (placeRec d r s).tests = s.tests := by
  unfold placeRec; (repeat' split) <;> simp
@[simp] theorem placeRec_free (s : State) (d : Nat) (r : Rec) : (placeRec d r s).free = s.free := by
  unfold placeRec; (repeat' split) <;> simp
@[simp] theorem placeRec_pending (s : State) (d : Nat) (r : Rec) : (placeRec d r s).pending = s.pending := by
  unfold placeRec; (repeat' split) <;> simp

/-! ### summary: R419: the recorder of one die. -/

@[simp] theorem summary_id (s : State) (d : Nat) (x : RateCnt) : (summary d s x).id = s.id := by simp [summary]
@[simp] theorem summary_clk (s : State) (d : Nat) (x : RateCnt) : (summary d s x).clk = s.clk := by simp [summary]
@[simp] theorem summary_rings (s : State) (d : Nat) (x : RateCnt) : (summary d s x).rings = s.rings := by simp [summary]
@[simp] theorem summary_cmds (s : State) (d : Nat) (x : RateCnt) : (summary d s x).cmds = s.cmds := by simp [summary]
@[simp] theorem summary_seq (s : State) (d : Nat) (x : RateCnt) : (summary d s x).seq = s.seq := by simp [summary]
@[simp] theorem summary_cache (s : State) (d : Nat) (x : RateCnt) : (summary d s x).cache = s.cache := by simp [summary]
@[simp] theorem summary_mcmds (s : State) (d : Nat) (x : RateCnt) : (summary d s x).mcmds = s.mcmds := by simp [summary]
@[simp] theorem summary_destages (s : State) (d : Nat) (x : RateCnt) : (summary d s x).destages = s.destages := by simp [summary]
@[simp] theorem summary_uniq (s : State) (d : Nat) (x : RateCnt) : (summary d s x).uniq = s.uniq := by simp [summary]
@[simp] theorem summary_pools (s : State) (d : Nat) (x : RateCnt) : (summary d s x).pools = s.pools := by simp [summary]
@[simp] theorem summary_vols (s : State) (d : Nat) (x : RateCnt) : (summary d s x).vols = s.vols := by simp [summary]
@[simp] theorem summary_tenants (s : State) (d : Nat) (x : RateCnt) : (summary d s x).tenants = s.tenants := by simp [summary]
@[simp] theorem summary_buckets (s : State) (d : Nat) (x : RateCnt) : (summary d s x).buckets = s.buckets := by simp [summary]
@[simp] theorem summary_nss (s : State) (d : Nat) (x : RateCnt) : (summary d s x).nss = s.nss := by simp [summary]
@[simp] theorem summary_refl (s : State) (d : Nat) (x : RateCnt) : (summary d s x).refl = s.refl := by simp [summary]
@[simp] theorem summary_pair (s : State) (d : Nat) (x : RateCnt) : (summary d s x).pair = s.pair := by simp [summary]
@[simp] theorem summary_pw (s : State) (d : Nat) (x : RateCnt) : (summary d s x).pw = s.pw := by simp [summary]
@[simp] theorem summary_run (s : State) (d : Nat) (x : RateCnt) : (summary d s x).run = s.run := by simp [summary]
@[simp] theorem summary_fw (s : State) (d : Nat) (x : RateCnt) : (summary d s x).fw = s.fw := by simp [summary]
@[simp] theorem summary_log (s : State) (d : Nat) (x : RateCnt) : (summary d s x).log = s.log := by simp [summary]
@[simp] theorem summary_meter (s : State) (d : Nat) (x : RateCnt) : (summary d s x).meter = s.meter := by simp [summary]
@[simp] theorem summary_fns (s : State) (d : Nat) (x : RateCnt) : (summary d s x).fns = s.fns := by simp [summary]
@[simp] theorem summary_out (s : State) (d : Nat) (x : RateCnt) : (summary d s x).out = s.out := by simp [summary]
@[simp] theorem summary_feat (s : State) (d : Nat) (x : RateCnt) : (summary d s x).feat = s.feat := by simp [summary]
@[simp] theorem summary_reg (s : State) (d : Nat) (x : RateCnt) : (summary d s x).reg = s.reg := by simp [summary]
@[simp] theorem summary_nextPlan (s : State) (d : Nat) (x : RateCnt) : (summary d s x).nextPlan = s.nextPlan := by simp [summary]
@[simp] theorem summary_uids (s : State) (d : Nat) (x : RateCnt) : (summary d s x).uids = s.uids := by simp [summary]
@[simp] theorem summary_eid (s : State) (d : Nat) (x : RateCnt) : (summary d s x).eid = s.eid := by simp [summary]
@[simp] theorem summary_arb (s : State) (d : Nat) (x : RateCnt) : (summary d s x).arb = s.arb := by simp [summary]
@[simp] theorem summary_grants (s : State) (d : Nat) (x : RateCnt) : (summary d s x).grants = s.grants := by simp [summary]
@[simp] theorem summary_tests (s : State) (d : Nat) (x : RateCnt) : (summary d s x).tests = s.tests := by simp [summary]
@[simp] theorem summary_free (s : State) (d : Nat) (x : RateCnt) : (summary d s x).free = s.free := by simp [summary]
@[simp] theorem summary_pending (s : State) (d : Nat) (x : RateCnt) : (summary d s x).pending = s.pending := by simp [summary]

/-! ### rollWindow: R418, R419: the recorder of one die, and the limits of events. -/

@[simp] theorem rollWindow_id (s : State) (d : Nat) : (rollWindow d s).id = s.id := by
  unfold rollWindow; dsimp only; (repeat' split) <;> simp [foldl_keeps State.id (summary d) (by simp)]
@[simp] theorem rollWindow_clk (s : State) (d : Nat) : (rollWindow d s).clk = s.clk := by
  unfold rollWindow; dsimp only; (repeat' split) <;> simp [foldl_keeps State.clk (summary d) (by simp)]
@[simp] theorem rollWindow_rings (s : State) (d : Nat) : (rollWindow d s).rings = s.rings := by
  unfold rollWindow; dsimp only; (repeat' split) <;> simp [foldl_keeps State.rings (summary d) (by simp)]
@[simp] theorem rollWindow_cmds (s : State) (d : Nat) : (rollWindow d s).cmds = s.cmds := by
  unfold rollWindow; dsimp only; (repeat' split) <;> simp [foldl_keeps State.cmds (summary d) (by simp)]
@[simp] theorem rollWindow_seq (s : State) (d : Nat) : (rollWindow d s).seq = s.seq := by
  unfold rollWindow; dsimp only; (repeat' split) <;> simp [foldl_keeps State.seq (summary d) (by simp)]
@[simp] theorem rollWindow_cache (s : State) (d : Nat) : (rollWindow d s).cache = s.cache := by
  unfold rollWindow; dsimp only; (repeat' split) <;> simp [foldl_keeps State.cache (summary d) (by simp)]
@[simp] theorem rollWindow_mcmds (s : State) (d : Nat) : (rollWindow d s).mcmds = s.mcmds := by
  unfold rollWindow; dsimp only; (repeat' split) <;> simp [foldl_keeps State.mcmds (summary d) (by simp)]
@[simp] theorem rollWindow_destages (s : State) (d : Nat) : (rollWindow d s).destages = s.destages := by
  unfold rollWindow; dsimp only; (repeat' split) <;> simp [foldl_keeps State.destages (summary d) (by simp)]
@[simp] theorem rollWindow_uniq (s : State) (d : Nat) : (rollWindow d s).uniq = s.uniq := by
  unfold rollWindow; dsimp only; (repeat' split) <;> simp [foldl_keeps State.uniq (summary d) (by simp)]
@[simp] theorem rollWindow_pools (s : State) (d : Nat) : (rollWindow d s).pools = s.pools := by
  unfold rollWindow; dsimp only; (repeat' split) <;> simp [foldl_keeps State.pools (summary d) (by simp)]
@[simp] theorem rollWindow_vols (s : State) (d : Nat) : (rollWindow d s).vols = s.vols := by
  unfold rollWindow; dsimp only; (repeat' split) <;> simp [foldl_keeps State.vols (summary d) (by simp)]
@[simp] theorem rollWindow_tenants (s : State) (d : Nat) : (rollWindow d s).tenants = s.tenants := by
  unfold rollWindow; dsimp only; (repeat' split) <;> simp [foldl_keeps State.tenants (summary d) (by simp)]
@[simp] theorem rollWindow_buckets (s : State) (d : Nat) : (rollWindow d s).buckets = s.buckets := by
  unfold rollWindow; dsimp only; (repeat' split) <;> simp [foldl_keeps State.buckets (summary d) (by simp)]
@[simp] theorem rollWindow_nss (s : State) (d : Nat) : (rollWindow d s).nss = s.nss := by
  unfold rollWindow; dsimp only; (repeat' split) <;> simp [foldl_keeps State.nss (summary d) (by simp)]
@[simp] theorem rollWindow_refl (s : State) (d : Nat) : (rollWindow d s).refl = s.refl := by
  unfold rollWindow; dsimp only; (repeat' split) <;> simp [foldl_keeps State.refl (summary d) (by simp)]
@[simp] theorem rollWindow_pair (s : State) (d : Nat) : (rollWindow d s).pair = s.pair := by
  unfold rollWindow; dsimp only; (repeat' split) <;> simp [foldl_keeps State.pair (summary d) (by simp)]
@[simp] theorem rollWindow_pw (s : State) (d : Nat) : (rollWindow d s).pw = s.pw := by
  unfold rollWindow; dsimp only; (repeat' split) <;> simp [foldl_keeps State.pw (summary d) (by simp)]
@[simp] theorem rollWindow_run (s : State) (d : Nat) : (rollWindow d s).run = s.run := by
  unfold rollWindow; dsimp only; (repeat' split) <;> simp [foldl_keeps State.run (summary d) (by simp)]
@[simp] theorem rollWindow_fw (s : State) (d : Nat) : (rollWindow d s).fw = s.fw := by
  unfold rollWindow; dsimp only; (repeat' split) <;> simp [foldl_keeps State.fw (summary d) (by simp)]
@[simp] theorem rollWindow_log (s : State) (d : Nat) : (rollWindow d s).log = s.log := by
  unfold rollWindow; dsimp only; (repeat' split) <;> simp [foldl_keeps State.log (summary d) (by simp)]
@[simp] theorem rollWindow_meter (s : State) (d : Nat) : (rollWindow d s).meter = s.meter := by
  unfold rollWindow; dsimp only; (repeat' split) <;> simp [foldl_keeps State.meter (summary d) (by simp)]
@[simp] theorem rollWindow_feat (s : State) (d : Nat) : (rollWindow d s).feat = s.feat := by
  unfold rollWindow; dsimp only; (repeat' split) <;> simp [foldl_keeps State.feat (summary d) (by simp)]
@[simp] theorem rollWindow_fns (s : State) (d : Nat) : (rollWindow d s).fns = s.fns := by
  unfold rollWindow; dsimp only; (repeat' split) <;> simp [foldl_keeps State.fns (summary d) (by simp)]
@[simp] theorem rollWindow_out (s : State) (d : Nat) : (rollWindow d s).out = s.out := by
  unfold rollWindow; dsimp only; (repeat' split) <;> simp [foldl_keeps State.out (summary d) (by simp)]
@[simp] theorem rollWindow_reg (s : State) (d : Nat) : (rollWindow d s).reg = s.reg := by
  unfold rollWindow; dsimp only; (repeat' split) <;> simp [foldl_keeps State.reg (summary d) (by simp)]
@[simp] theorem rollWindow_nextPlan (s : State) (d : Nat) : (rollWindow d s).nextPlan = s.nextPlan := by
  unfold rollWindow; dsimp only; (repeat' split) <;> simp [foldl_keeps State.nextPlan (summary d) (by simp)]
@[simp] theorem rollWindow_uids (s : State) (d : Nat) : (rollWindow d s).uids = s.uids := by
  unfold rollWindow; dsimp only; (repeat' split) <;> simp [foldl_keeps State.uids (summary d) (by simp)]
@[simp] theorem rollWindow_eid (s : State) (d : Nat) : (rollWindow d s).eid = s.eid := by
  unfold rollWindow; dsimp only; (repeat' split) <;> simp [foldl_keeps State.eid (summary d) (by simp)]
@[simp] theorem rollWindow_arb (s : State) (d : Nat) : (rollWindow d s).arb = s.arb := by
  unfold rollWindow; dsimp only; (repeat' split) <;> simp [foldl_keeps State.arb (summary d) (by simp)]
@[simp] theorem rollWindow_grants (s : State) (d : Nat) : (rollWindow d s).grants = s.grants := by
  unfold rollWindow; dsimp only; (repeat' split) <;> simp [foldl_keeps State.grants (summary d) (by simp)]
@[simp] theorem rollWindow_tests (s : State) (d : Nat) : (rollWindow d s).tests = s.tests := by
  unfold rollWindow; dsimp only; (repeat' split) <;> simp [foldl_keeps State.tests (summary d) (by simp)]
@[simp] theorem rollWindow_free (s : State) (d : Nat) : (rollWindow d s).free = s.free := by
  unfold rollWindow; dsimp only; (repeat' split) <;> simp [foldl_keeps State.free (summary d) (by simp)]
@[simp] theorem rollWindow_pending (s : State) (d : Nat) : (rollWindow d s).pending = s.pending := by
  unfold rollWindow; dsimp only; (repeat' split) <;> simp [foldl_keeps State.pending (summary d) (by simp)]

/-! ### recordEvent: R405 step 4: the recorder of one die, and the limits of events. -/

@[simp] theorem recordEvent_id (s : State) (d code : Nat) (x : Detail) : (recordEvent d code x s).id = s.id := by
  unfold recordEvent; dsimp only; (repeat' split) <;> simp
@[simp] theorem recordEvent_clk (s : State) (d code : Nat) (x : Detail) : (recordEvent d code x s).clk = s.clk := by
  unfold recordEvent; dsimp only; (repeat' split) <;> simp
@[simp] theorem recordEvent_rings (s : State) (d code : Nat) (x : Detail) : (recordEvent d code x s).rings = s.rings := by
  unfold recordEvent; dsimp only; (repeat' split) <;> simp
@[simp] theorem recordEvent_cmds (s : State) (d code : Nat) (x : Detail) : (recordEvent d code x s).cmds = s.cmds := by
  unfold recordEvent; dsimp only; (repeat' split) <;> simp
@[simp] theorem recordEvent_seq (s : State) (d code : Nat) (x : Detail) : (recordEvent d code x s).seq = s.seq := by
  unfold recordEvent; dsimp only; (repeat' split) <;> simp
@[simp] theorem recordEvent_cache (s : State) (d code : Nat) (x : Detail) : (recordEvent d code x s).cache = s.cache := by
  unfold recordEvent; dsimp only; (repeat' split) <;> simp
@[simp] theorem recordEvent_mcmds (s : State) (d code : Nat) (x : Detail) : (recordEvent d code x s).mcmds = s.mcmds := by
  unfold recordEvent; dsimp only; (repeat' split) <;> simp
@[simp] theorem recordEvent_destages (s : State) (d code : Nat) (x : Detail) : (recordEvent d code x s).destages = s.destages := by
  unfold recordEvent; dsimp only; (repeat' split) <;> simp
@[simp] theorem recordEvent_uniq (s : State) (d code : Nat) (x : Detail) : (recordEvent d code x s).uniq = s.uniq := by
  unfold recordEvent; dsimp only; (repeat' split) <;> simp
@[simp] theorem recordEvent_pools (s : State) (d code : Nat) (x : Detail) : (recordEvent d code x s).pools = s.pools := by
  unfold recordEvent; dsimp only; (repeat' split) <;> simp
@[simp] theorem recordEvent_vols (s : State) (d code : Nat) (x : Detail) : (recordEvent d code x s).vols = s.vols := by
  unfold recordEvent; dsimp only; (repeat' split) <;> simp
@[simp] theorem recordEvent_tenants (s : State) (d code : Nat) (x : Detail) : (recordEvent d code x s).tenants = s.tenants := by
  unfold recordEvent; dsimp only; (repeat' split) <;> simp
@[simp] theorem recordEvent_buckets (s : State) (d code : Nat) (x : Detail) : (recordEvent d code x s).buckets = s.buckets := by
  unfold recordEvent; dsimp only; (repeat' split) <;> simp
@[simp] theorem recordEvent_nss (s : State) (d code : Nat) (x : Detail) : (recordEvent d code x s).nss = s.nss := by
  unfold recordEvent; dsimp only; (repeat' split) <;> simp
@[simp] theorem recordEvent_refl (s : State) (d code : Nat) (x : Detail) : (recordEvent d code x s).refl = s.refl := by
  unfold recordEvent; dsimp only; (repeat' split) <;> simp
@[simp] theorem recordEvent_pair (s : State) (d code : Nat) (x : Detail) : (recordEvent d code x s).pair = s.pair := by
  unfold recordEvent; dsimp only; (repeat' split) <;> simp
@[simp] theorem recordEvent_pw (s : State) (d code : Nat) (x : Detail) : (recordEvent d code x s).pw = s.pw := by
  unfold recordEvent; dsimp only; (repeat' split) <;> simp
@[simp] theorem recordEvent_run (s : State) (d code : Nat) (x : Detail) : (recordEvent d code x s).run = s.run := by
  unfold recordEvent; dsimp only; (repeat' split) <;> simp
@[simp] theorem recordEvent_fw (s : State) (d code : Nat) (x : Detail) : (recordEvent d code x s).fw = s.fw := by
  unfold recordEvent; dsimp only; (repeat' split) <;> simp
@[simp] theorem recordEvent_log (s : State) (d code : Nat) (x : Detail) : (recordEvent d code x s).log = s.log := by
  unfold recordEvent; dsimp only; (repeat' split) <;> simp
@[simp] theorem recordEvent_meter (s : State) (d code : Nat) (x : Detail) : (recordEvent d code x s).meter = s.meter := by
  unfold recordEvent; dsimp only; (repeat' split) <;> simp
@[simp] theorem recordEvent_feat (s : State) (d code : Nat) (x : Detail) : (recordEvent d code x s).feat = s.feat := by
  unfold recordEvent; dsimp only; (repeat' split) <;> simp
@[simp] theorem recordEvent_fns (s : State) (d code : Nat) (x : Detail) : (recordEvent d code x s).fns = s.fns := by
  unfold recordEvent; dsimp only; (repeat' split) <;> simp
@[simp] theorem recordEvent_out (s : State) (d code : Nat) (x : Detail) : (recordEvent d code x s).out = s.out := by
  unfold recordEvent; dsimp only; (repeat' split) <;> simp
@[simp] theorem recordEvent_reg (s : State) (d code : Nat) (x : Detail) : (recordEvent d code x s).reg = s.reg := by
  unfold recordEvent; dsimp only; (repeat' split) <;> simp
@[simp] theorem recordEvent_nextPlan (s : State) (d code : Nat) (x : Detail) : (recordEvent d code x s).nextPlan = s.nextPlan := by
  unfold recordEvent; dsimp only; (repeat' split) <;> simp
@[simp] theorem recordEvent_uids (s : State) (d code : Nat) (x : Detail) : (recordEvent d code x s).uids = s.uids := by
  unfold recordEvent; dsimp only; (repeat' split) <;> simp
@[simp] theorem recordEvent_eid (s : State) (d code : Nat) (x : Detail) : (recordEvent d code x s).eid = s.eid := by
  unfold recordEvent; dsimp only; (repeat' split) <;> simp
@[simp] theorem recordEvent_arb (s : State) (d code : Nat) (x : Detail) : (recordEvent d code x s).arb = s.arb := by
  unfold recordEvent; dsimp only; (repeat' split) <;> simp
@[simp] theorem recordEvent_grants (s : State) (d code : Nat) (x : Detail) : (recordEvent d code x s).grants = s.grants := by
  unfold recordEvent; dsimp only; (repeat' split) <;> simp
@[simp] theorem recordEvent_tests (s : State) (d code : Nat) (x : Detail) : (recordEvent d code x s).tests = s.tests := by
  unfold recordEvent; dsimp only; (repeat' split) <;> simp
@[simp] theorem recordEvent_free (s : State) (d code : Nat) (x : Detail) : (recordEvent d code x s).free = s.free := by
  unfold recordEvent; dsimp only; (repeat' split) <;> simp
@[simp] theorem recordEvent_pending (s : State) (d code : Nat) (x : Detail) : (recordEvent d code x s).pending = s.pending := by
  unfold recordEvent; dsimp only; (repeat' split) <;> simp

/-! ### raise: R405: an event touches the EVT block and the recorder of its die, and sends a message. -/

@[simp] theorem raise_id (s : State) (d code : Nat) (x : Detail) : (raise d code x s).id = s.id := by
  unfold raise; dsimp only; (repeat' split) <;> simp
@[simp] theorem raise_clk (s : State) (d code : Nat) (x : Detail) : (raise d code x s).clk = s.clk := by
  unfold raise; dsimp only; (repeat' split) <;> simp
@[simp] theorem raise_rings (s : State) (d code : Nat) (x : Detail) : (raise d code x s).rings = s.rings := by
  unfold raise; dsimp only; (repeat' split) <;> simp
@[simp] theorem raise_cmds (s : State) (d code : Nat) (x : Detail) : (raise d code x s).cmds = s.cmds := by
  unfold raise; dsimp only; (repeat' split) <;> simp
@[simp] theorem raise_seq (s : State) (d code : Nat) (x : Detail) : (raise d code x s).seq = s.seq := by
  unfold raise; dsimp only; (repeat' split) <;> simp
@[simp] theorem raise_cache (s : State) (d code : Nat) (x : Detail) : (raise d code x s).cache = s.cache := by
  unfold raise; dsimp only; (repeat' split) <;> simp
@[simp] theorem raise_mcmds (s : State) (d code : Nat) (x : Detail) : (raise d code x s).mcmds = s.mcmds := by
  unfold raise; dsimp only; (repeat' split) <;> simp
@[simp] theorem raise_destages (s : State) (d code : Nat) (x : Detail) : (raise d code x s).destages = s.destages := by
  unfold raise; dsimp only; (repeat' split) <;> simp
@[simp] theorem raise_uniq (s : State) (d code : Nat) (x : Detail) : (raise d code x s).uniq = s.uniq := by
  unfold raise; dsimp only; (repeat' split) <;> simp
@[simp] theorem raise_pools (s : State) (d code : Nat) (x : Detail) : (raise d code x s).pools = s.pools := by
  unfold raise; dsimp only; (repeat' split) <;> simp
@[simp] theorem raise_vols (s : State) (d code : Nat) (x : Detail) : (raise d code x s).vols = s.vols := by
  unfold raise; dsimp only; (repeat' split) <;> simp
@[simp] theorem raise_tenants (s : State) (d code : Nat) (x : Detail) : (raise d code x s).tenants = s.tenants := by
  unfold raise; dsimp only; (repeat' split) <;> simp
@[simp] theorem raise_buckets (s : State) (d code : Nat) (x : Detail) : (raise d code x s).buckets = s.buckets := by
  unfold raise; dsimp only; (repeat' split) <;> simp
@[simp] theorem raise_nss (s : State) (d code : Nat) (x : Detail) : (raise d code x s).nss = s.nss := by
  unfold raise; dsimp only; (repeat' split) <;> simp
@[simp] theorem raise_refl (s : State) (d code : Nat) (x : Detail) : (raise d code x s).refl = s.refl := by
  unfold raise; dsimp only; (repeat' split) <;> simp
@[simp] theorem raise_pair (s : State) (d code : Nat) (x : Detail) : (raise d code x s).pair = s.pair := by
  unfold raise; dsimp only; (repeat' split) <;> simp
@[simp] theorem raise_pw (s : State) (d code : Nat) (x : Detail) : (raise d code x s).pw = s.pw := by
  unfold raise; dsimp only; (repeat' split) <;> simp
@[simp] theorem raise_run (s : State) (d code : Nat) (x : Detail) : (raise d code x s).run = s.run := by
  unfold raise; dsimp only; (repeat' split) <;> simp
@[simp] theorem raise_fw (s : State) (d code : Nat) (x : Detail) : (raise d code x s).fw = s.fw := by
  unfold raise; dsimp only; (repeat' split) <;> simp
@[simp] theorem raise_log (s : State) (d code : Nat) (x : Detail) : (raise d code x s).log = s.log := by
  unfold raise; dsimp only; (repeat' split) <;> simp
@[simp] theorem raise_meter (s : State) (d code : Nat) (x : Detail) : (raise d code x s).meter = s.meter := by
  unfold raise; dsimp only; (repeat' split) <;> simp
@[simp] theorem raise_feat (s : State) (d code : Nat) (x : Detail) : (raise d code x s).feat = s.feat := by
  unfold raise; dsimp only; (repeat' split) <;> simp
@[simp] theorem raise_fns (s : State) (d code : Nat) (x : Detail) : (raise d code x s).fns = s.fns := by
  unfold raise; dsimp only; (repeat' split) <;> simp
@[simp] theorem raise_out (s : State) (d code : Nat) (x : Detail) : (raise d code x s).out = s.out := by
  unfold raise; dsimp only; (repeat' split) <;> simp
@[simp] theorem raise_reg (s : State) (d code : Nat) (x : Detail) : (raise d code x s).reg = s.reg := by
  unfold raise; dsimp only; (repeat' split) <;> simp
@[simp] theorem raise_nextPlan (s : State) (d code : Nat) (x : Detail) : (raise d code x s).nextPlan = s.nextPlan := by
  unfold raise; dsimp only; (repeat' split) <;> simp
@[simp] theorem raise_uids (s : State) (d code : Nat) (x : Detail) : (raise d code x s).uids = s.uids := by
  unfold raise; dsimp only; (repeat' split) <;> simp
@[simp] theorem raise_eid (s : State) (d code : Nat) (x : Detail) : (raise d code x s).eid = s.eid := by
  unfold raise; dsimp only; (repeat' split) <;> simp
@[simp] theorem raise_arb (s : State) (d code : Nat) (x : Detail) : (raise d code x s).arb = s.arb := by
  unfold raise; dsimp only; (repeat' split) <;> simp
@[simp] theorem raise_grants (s : State) (d code : Nat) (x : Detail) : (raise d code x s).grants = s.grants := by
  unfold raise; dsimp only; (repeat' split) <;> simp
@[simp] theorem raise_tests (s : State) (d code : Nat) (x : Detail) : (raise d code x s).tests = s.tests := by
  unfold raise; dsimp only; (repeat' split) <;> simp
@[simp] theorem raise_free (s : State) (d code : Nat) (x : Detail) : (raise d code x s).free = s.free := by
  unfold raise; dsimp only; (repeat' split) <;> simp
@[simp] theorem raise_pending (s : State) (d code : Nat) (x : Detail) : (raise d code x s).pending = s.pending := by
  unfold raise; dsimp only; (repeat' split) <;> simp

/-! ### raisePkg: R406: an event of the package. -/

@[simp] theorem raisePkg_id (s : State) (code : Nat) (x : Detail) : (raisePkg code x s).id = s.id := by simp [raisePkg]
@[simp] theorem raisePkg_clk (s : State) (code : Nat) (x : Detail) : (raisePkg code x s).clk = s.clk := by simp [raisePkg]
@[simp] theorem raisePkg_rings (s : State) (code : Nat) (x : Detail) : (raisePkg code x s).rings = s.rings := by simp [raisePkg]
@[simp] theorem raisePkg_cmds (s : State) (code : Nat) (x : Detail) : (raisePkg code x s).cmds = s.cmds := by simp [raisePkg]
@[simp] theorem raisePkg_seq (s : State) (code : Nat) (x : Detail) : (raisePkg code x s).seq = s.seq := by simp [raisePkg]
@[simp] theorem raisePkg_cache (s : State) (code : Nat) (x : Detail) : (raisePkg code x s).cache = s.cache := by simp [raisePkg]
@[simp] theorem raisePkg_mcmds (s : State) (code : Nat) (x : Detail) : (raisePkg code x s).mcmds = s.mcmds := by simp [raisePkg]
@[simp] theorem raisePkg_destages (s : State) (code : Nat) (x : Detail) : (raisePkg code x s).destages = s.destages := by simp [raisePkg]
@[simp] theorem raisePkg_uniq (s : State) (code : Nat) (x : Detail) : (raisePkg code x s).uniq = s.uniq := by simp [raisePkg]
@[simp] theorem raisePkg_pools (s : State) (code : Nat) (x : Detail) : (raisePkg code x s).pools = s.pools := by simp [raisePkg]
@[simp] theorem raisePkg_vols (s : State) (code : Nat) (x : Detail) : (raisePkg code x s).vols = s.vols := by simp [raisePkg]
@[simp] theorem raisePkg_tenants (s : State) (code : Nat) (x : Detail) : (raisePkg code x s).tenants = s.tenants := by simp [raisePkg]
@[simp] theorem raisePkg_buckets (s : State) (code : Nat) (x : Detail) : (raisePkg code x s).buckets = s.buckets := by simp [raisePkg]
@[simp] theorem raisePkg_nss (s : State) (code : Nat) (x : Detail) : (raisePkg code x s).nss = s.nss := by simp [raisePkg]
@[simp] theorem raisePkg_refl (s : State) (code : Nat) (x : Detail) : (raisePkg code x s).refl = s.refl := by simp [raisePkg]
@[simp] theorem raisePkg_pair (s : State) (code : Nat) (x : Detail) : (raisePkg code x s).pair = s.pair := by simp [raisePkg]
@[simp] theorem raisePkg_pw (s : State) (code : Nat) (x : Detail) : (raisePkg code x s).pw = s.pw := by simp [raisePkg]
@[simp] theorem raisePkg_run (s : State) (code : Nat) (x : Detail) : (raisePkg code x s).run = s.run := by simp [raisePkg]
@[simp] theorem raisePkg_fw (s : State) (code : Nat) (x : Detail) : (raisePkg code x s).fw = s.fw := by simp [raisePkg]
@[simp] theorem raisePkg_log (s : State) (code : Nat) (x : Detail) : (raisePkg code x s).log = s.log := by simp [raisePkg]
@[simp] theorem raisePkg_meter (s : State) (code : Nat) (x : Detail) : (raisePkg code x s).meter = s.meter := by simp [raisePkg]
@[simp] theorem raisePkg_feat (s : State) (code : Nat) (x : Detail) : (raisePkg code x s).feat = s.feat := by simp [raisePkg]
@[simp] theorem raisePkg_fns (s : State) (code : Nat) (x : Detail) : (raisePkg code x s).fns = s.fns := by simp [raisePkg]
@[simp] theorem raisePkg_out (s : State) (code : Nat) (x : Detail) : (raisePkg code x s).out = s.out := by simp [raisePkg]
@[simp] theorem raisePkg_reg (s : State) (code : Nat) (x : Detail) : (raisePkg code x s).reg = s.reg := by simp [raisePkg]
@[simp] theorem raisePkg_nextPlan (s : State) (code : Nat) (x : Detail) : (raisePkg code x s).nextPlan = s.nextPlan := by simp [raisePkg]
@[simp] theorem raisePkg_uids (s : State) (code : Nat) (x : Detail) : (raisePkg code x s).uids = s.uids := by simp [raisePkg]
@[simp] theorem raisePkg_eid (s : State) (code : Nat) (x : Detail) : (raisePkg code x s).eid = s.eid := by simp [raisePkg]
@[simp] theorem raisePkg_arb (s : State) (code : Nat) (x : Detail) : (raisePkg code x s).arb = s.arb := by simp [raisePkg]
@[simp] theorem raisePkg_grants (s : State) (code : Nat) (x : Detail) : (raisePkg code x s).grants = s.grants := by simp [raisePkg]
@[simp] theorem raisePkg_tests (s : State) (code : Nat) (x : Detail) : (raisePkg code x s).tests = s.tests := by simp [raisePkg]
@[simp] theorem raisePkg_free (s : State) (code : Nat) (x : Detail) : (raisePkg code x s).free = s.free := by simp [raisePkg]
@[simp] theorem raisePkg_pending (s : State) (code : Nat) (x : Detail) : (raisePkg code x s).pending = s.pending := by simp [raisePkg]

/-! ### ladder: R514: the ladder registers. -/

@[simp] theorem ladder_id (s : State) (st code d : Nat) : (ladder st code d s).id = s.id := by
  unfold ladder; (repeat' split) <;> simp
@[simp] theorem ladder_clk (s : State) (st code d : Nat) : (ladder st code d s).clk = s.clk := by
  unfold ladder; (repeat' split) <;> simp
@[simp] theorem ladder_dies (s : State) (st code d : Nat) : (ladder st code d s).dies = s.dies := by
  unfold ladder; (repeat' split) <;> simp
@[simp] theorem ladder_rings (s : State) (st code d : Nat) : (ladder st code d s).rings = s.rings := by
  unfold ladder; (repeat' split) <;> simp
@[simp] theorem ladder_fns (s : State) (st code d : Nat) : (ladder st code d s).fns = s.fns := by
  unfold ladder; (repeat' split) <;> simp
@[simp] theorem ladder_cmds (s : State) (st code d : Nat) : (ladder st code d s).cmds = s.cmds := by
  unfold ladder; (repeat' split) <;> simp
@[simp] theorem ladder_seq (s : State) (st code d : Nat) : (ladder st code d s).seq = s.seq := by
  unfold ladder; (repeat' split) <;> simp
@[simp] theorem ladder_cache (s : State) (st code d : Nat) : (ladder st code d s).cache = s.cache := by
  unfold ladder; (repeat' split) <;> simp
@[simp] theorem ladder_mcmds (s : State) (st code d : Nat) : (ladder st code d s).mcmds = s.mcmds := by
  unfold ladder; (repeat' split) <;> simp
@[simp] theorem ladder_destages (s : State) (st code d : Nat) : (ladder st code d s).destages = s.destages := by
  unfold ladder; (repeat' split) <;> simp
@[simp] theorem ladder_uniq (s : State) (st code d : Nat) : (ladder st code d s).uniq = s.uniq := by
  unfold ladder; (repeat' split) <;> simp
@[simp] theorem ladder_pools (s : State) (st code d : Nat) : (ladder st code d s).pools = s.pools := by
  unfold ladder; (repeat' split) <;> simp
@[simp] theorem ladder_vols (s : State) (st code d : Nat) : (ladder st code d s).vols = s.vols := by
  unfold ladder; (repeat' split) <;> simp
@[simp] theorem ladder_tenants (s : State) (st code d : Nat) : (ladder st code d s).tenants = s.tenants := by
  unfold ladder; (repeat' split) <;> simp
@[simp] theorem ladder_buckets (s : State) (st code d : Nat) : (ladder st code d s).buckets = s.buckets := by
  unfold ladder; (repeat' split) <;> simp
@[simp] theorem ladder_nss (s : State) (st code d : Nat) : (ladder st code d s).nss = s.nss := by
  unfold ladder; (repeat' split) <;> simp
@[simp] theorem ladder_refl (s : State) (st code d : Nat) : (ladder st code d s).refl = s.refl := by
  unfold ladder; (repeat' split) <;> simp
@[simp] theorem ladder_pair (s : State) (st code d : Nat) : (ladder st code d s).pair = s.pair := by
  unfold ladder; (repeat' split) <;> simp
@[simp] theorem ladder_pw (s : State) (st code d : Nat) : (ladder st code d s).pw = s.pw := by
  unfold ladder; (repeat' split) <;> simp
@[simp] theorem ladder_run (s : State) (st code d : Nat) : (ladder st code d s).run = s.run := by
  unfold ladder; (repeat' split) <;> simp
@[simp] theorem ladder_fw (s : State) (st code d : Nat) : (ladder st code d s).fw = s.fw := by
  unfold ladder; (repeat' split) <;> simp
@[simp] theorem ladder_log (s : State) (st code d : Nat) : (ladder st code d s).log = s.log := by
  unfold ladder; (repeat' split) <;> simp
@[simp] theorem ladder_meter (s : State) (st code d : Nat) : (ladder st code d s).meter = s.meter := by
  unfold ladder; (repeat' split) <;> simp
@[simp] theorem ladder_feat (s : State) (st code d : Nat) : (ladder st code d s).feat = s.feat := by
  unfold ladder; (repeat' split) <;> simp
@[simp] theorem ladder_nextPlan (s : State) (st code d : Nat) : (ladder st code d s).nextPlan = s.nextPlan := by
  unfold ladder; (repeat' split) <;> simp
@[simp] theorem ladder_uids (s : State) (st code d : Nat) : (ladder st code d s).uids = s.uids := by
  unfold ladder; (repeat' split) <;> simp
@[simp] theorem ladder_eid (s : State) (st code d : Nat) : (ladder st code d s).eid = s.eid := by
  unfold ladder; (repeat' split) <;> simp
@[simp] theorem ladder_msixSent (s : State) (st code d : Nat) : (ladder st code d s).msixSent = s.msixSent := by
  unfold ladder; (repeat' split) <;> simp
@[simp] theorem ladder_arb (s : State) (st code d : Nat) : (ladder st code d s).arb = s.arb := by
  unfold ladder; (repeat' split) <;> simp
@[simp] theorem ladder_grants (s : State) (st code d : Nat) : (ladder st code d s).grants = s.grants := by
  unfold ladder; (repeat' split) <;> simp
@[simp] theorem ladder_tests (s : State) (st code d : Nat) : (ladder st code d s).tests = s.tests := by
  unfold ladder; (repeat' split) <;> simp
@[simp] theorem ladder_out (s : State) (st code d : Nat) : (ladder st code d s).out = s.out := by
  unfold ladder; (repeat' split) <;> simp
@[simp] theorem ladder_free (s : State) (st code d : Nat) : (ladder st code d s).free = s.free := by
  unfold ladder; (repeat' split) <;> simp
@[simp] theorem ladder_pending (s : State) (st code d : Nat) : (ladder st code d s).pending = s.pending := by
  unfold ladder; (repeat' split) <;> simp

/-! ### holdFault: R110: FAULT_N. -/

@[simp] theorem holdFault_id (s : State) (why : Nat) : (holdFault why s).id = s.id := by simp [holdFault]
@[simp] theorem holdFault_clk (s : State) (why : Nat) : (holdFault why s).clk = s.clk := by simp [holdFault]
@[simp] theorem holdFault_dies (s : State) (why : Nat) : (holdFault why s).dies = s.dies := by simp [holdFault]
@[simp] theorem holdFault_rings (s : State) (why : Nat) : (holdFault why s).rings = s.rings := by simp [holdFault]
@[simp] theorem holdFault_fns (s : State) (why : Nat) : (holdFault why s).fns = s.fns := by simp [holdFault]
@[simp] theorem holdFault_cmds (s : State) (why : Nat) : (holdFault why s).cmds = s.cmds := by simp [holdFault]
@[simp] theorem holdFault_seq (s : State) (why : Nat) : (holdFault why s).seq = s.seq := by simp [holdFault]
@[simp] theorem holdFault_cache (s : State) (why : Nat) : (holdFault why s).cache = s.cache := by simp [holdFault]
@[simp] theorem holdFault_mcmds (s : State) (why : Nat) : (holdFault why s).mcmds = s.mcmds := by simp [holdFault]
@[simp] theorem holdFault_destages (s : State) (why : Nat) : (holdFault why s).destages = s.destages := by simp [holdFault]
@[simp] theorem holdFault_uniq (s : State) (why : Nat) : (holdFault why s).uniq = s.uniq := by simp [holdFault]
@[simp] theorem holdFault_pools (s : State) (why : Nat) : (holdFault why s).pools = s.pools := by simp [holdFault]
@[simp] theorem holdFault_vols (s : State) (why : Nat) : (holdFault why s).vols = s.vols := by simp [holdFault]
@[simp] theorem holdFault_tenants (s : State) (why : Nat) : (holdFault why s).tenants = s.tenants := by simp [holdFault]
@[simp] theorem holdFault_buckets (s : State) (why : Nat) : (holdFault why s).buckets = s.buckets := by simp [holdFault]
@[simp] theorem holdFault_nss (s : State) (why : Nat) : (holdFault why s).nss = s.nss := by simp [holdFault]
@[simp] theorem holdFault_refl (s : State) (why : Nat) : (holdFault why s).refl = s.refl := by simp [holdFault]
@[simp] theorem holdFault_pair (s : State) (why : Nat) : (holdFault why s).pair = s.pair := by simp [holdFault]
@[simp] theorem holdFault_pw (s : State) (why : Nat) : (holdFault why s).pw = s.pw := by simp [holdFault]
@[simp] theorem holdFault_fw (s : State) (why : Nat) : (holdFault why s).fw = s.fw := by simp [holdFault]
@[simp] theorem holdFault_log (s : State) (why : Nat) : (holdFault why s).log = s.log := by simp [holdFault]
@[simp] theorem holdFault_meter (s : State) (why : Nat) : (holdFault why s).meter = s.meter := by simp [holdFault]
@[simp] theorem holdFault_feat (s : State) (why : Nat) : (holdFault why s).feat = s.feat := by simp [holdFault]
@[simp] theorem holdFault_reg (s : State) (why : Nat) : (holdFault why s).reg = s.reg := by simp [holdFault]
@[simp] theorem holdFault_nextPlan (s : State) (why : Nat) : (holdFault why s).nextPlan = s.nextPlan := by simp [holdFault]
@[simp] theorem holdFault_uids (s : State) (why : Nat) : (holdFault why s).uids = s.uids := by simp [holdFault]
@[simp] theorem holdFault_eid (s : State) (why : Nat) : (holdFault why s).eid = s.eid := by simp [holdFault]
@[simp] theorem holdFault_msixSent (s : State) (why : Nat) : (holdFault why s).msixSent = s.msixSent := by simp [holdFault]
@[simp] theorem holdFault_arb (s : State) (why : Nat) : (holdFault why s).arb = s.arb := by simp [holdFault]
@[simp] theorem holdFault_grants (s : State) (why : Nat) : (holdFault why s).grants = s.grants := by simp [holdFault]
@[simp] theorem holdFault_tests (s : State) (why : Nat) : (holdFault why s).tests = s.tests := by simp [holdFault]
@[simp] theorem holdFault_out (s : State) (why : Nat) : (holdFault why s).out = s.out := by simp [holdFault]
@[simp] theorem holdFault_free (s : State) (why : Nat) : (holdFault why s).free = s.free := by simp [holdFault]
@[simp] theorem holdFault_pending (s : State) (why : Nat) : (holdFault why s).pending = s.pending := by simp [holdFault]

/-! ### writeNote: R102, R103: a note moves its notification ring, or raises 4003h. -/

@[simp] theorem writeNote_id (s : State) (r : Ring) (c : Cmd) (st : W16) (fl : Byte) : (writeNote r c st fl s).id = s.id := by
  unfold writeNote; (repeat' split) <;> simp
@[simp] theorem writeNote_clk (s : State) (r : Ring) (c : Cmd) (st : W16) (fl : Byte) : (writeNote r c st fl s).clk = s.clk := by
  unfold writeNote; (repeat' split) <;> simp
@[simp] theorem writeNote_cmds (s : State) (r : Ring) (c : Cmd) (st : W16) (fl : Byte) : (writeNote r c st fl s).cmds = s.cmds := by
  unfold writeNote; (repeat' split) <;> simp
@[simp] theorem writeNote_seq (s : State) (r : Ring) (c : Cmd) (st : W16) (fl : Byte) : (writeNote r c st fl s).seq = s.seq := by
  unfold writeNote; (repeat' split) <;> simp
@[simp] theorem writeNote_cache (s : State) (r : Ring) (c : Cmd) (st : W16) (fl : Byte) : (writeNote r c st fl s).cache = s.cache := by
  unfold writeNote; (repeat' split) <;> simp
@[simp] theorem writeNote_mcmds (s : State) (r : Ring) (c : Cmd) (st : W16) (fl : Byte) : (writeNote r c st fl s).mcmds = s.mcmds := by
  unfold writeNote; (repeat' split) <;> simp
@[simp] theorem writeNote_destages (s : State) (r : Ring) (c : Cmd) (st : W16) (fl : Byte) : (writeNote r c st fl s).destages = s.destages := by
  unfold writeNote; (repeat' split) <;> simp
@[simp] theorem writeNote_uniq (s : State) (r : Ring) (c : Cmd) (st : W16) (fl : Byte) : (writeNote r c st fl s).uniq = s.uniq := by
  unfold writeNote; (repeat' split) <;> simp
@[simp] theorem writeNote_pools (s : State) (r : Ring) (c : Cmd) (st : W16) (fl : Byte) : (writeNote r c st fl s).pools = s.pools := by
  unfold writeNote; (repeat' split) <;> simp
@[simp] theorem writeNote_vols (s : State) (r : Ring) (c : Cmd) (st : W16) (fl : Byte) : (writeNote r c st fl s).vols = s.vols := by
  unfold writeNote; (repeat' split) <;> simp
@[simp] theorem writeNote_tenants (s : State) (r : Ring) (c : Cmd) (st : W16) (fl : Byte) : (writeNote r c st fl s).tenants = s.tenants := by
  unfold writeNote; (repeat' split) <;> simp
@[simp] theorem writeNote_buckets (s : State) (r : Ring) (c : Cmd) (st : W16) (fl : Byte) : (writeNote r c st fl s).buckets = s.buckets := by
  unfold writeNote; (repeat' split) <;> simp
@[simp] theorem writeNote_nss (s : State) (r : Ring) (c : Cmd) (st : W16) (fl : Byte) : (writeNote r c st fl s).nss = s.nss := by
  unfold writeNote; (repeat' split) <;> simp
@[simp] theorem writeNote_refl (s : State) (r : Ring) (c : Cmd) (st : W16) (fl : Byte) : (writeNote r c st fl s).refl = s.refl := by
  unfold writeNote; (repeat' split) <;> simp
@[simp] theorem writeNote_pair (s : State) (r : Ring) (c : Cmd) (st : W16) (fl : Byte) : (writeNote r c st fl s).pair = s.pair := by
  unfold writeNote; (repeat' split) <;> simp
@[simp] theorem writeNote_pw (s : State) (r : Ring) (c : Cmd) (st : W16) (fl : Byte) : (writeNote r c st fl s).pw = s.pw := by
  unfold writeNote; (repeat' split) <;> simp
@[simp] theorem writeNote_run (s : State) (r : Ring) (c : Cmd) (st : W16) (fl : Byte) : (writeNote r c st fl s).run = s.run := by
  unfold writeNote; (repeat' split) <;> simp
@[simp] theorem writeNote_fw (s : State) (r : Ring) (c : Cmd) (st : W16) (fl : Byte) : (writeNote r c st fl s).fw = s.fw := by
  unfold writeNote; (repeat' split) <;> simp
@[simp] theorem writeNote_log (s : State) (r : Ring) (c : Cmd) (st : W16) (fl : Byte) : (writeNote r c st fl s).log = s.log := by
  unfold writeNote; (repeat' split) <;> simp
@[simp] theorem writeNote_meter (s : State) (r : Ring) (c : Cmd) (st : W16) (fl : Byte) : (writeNote r c st fl s).meter = s.meter := by
  unfold writeNote; (repeat' split) <;> simp
@[simp] theorem writeNote_feat (s : State) (r : Ring) (c : Cmd) (st : W16) (fl : Byte) : (writeNote r c st fl s).feat = s.feat := by
  unfold writeNote; (repeat' split) <;> simp
@[simp] theorem writeNote_fns (s : State) (r : Ring) (c : Cmd) (st : W16) (fl : Byte) : (writeNote r c st fl s).fns = s.fns := by
  unfold writeNote; (repeat' split) <;> simp
@[simp] theorem writeNote_reg (s : State) (r : Ring) (c : Cmd) (st : W16) (fl : Byte) : (writeNote r c st fl s).reg = s.reg := by
  unfold writeNote; (repeat' split) <;> simp
@[simp] theorem writeNote_nextPlan (s : State) (r : Ring) (c : Cmd) (st : W16) (fl : Byte) : (writeNote r c st fl s).nextPlan = s.nextPlan := by
  unfold writeNote; (repeat' split) <;> simp
@[simp] theorem writeNote_uids (s : State) (r : Ring) (c : Cmd) (st : W16) (fl : Byte) : (writeNote r c st fl s).uids = s.uids := by
  unfold writeNote; (repeat' split) <;> simp
@[simp] theorem writeNote_eid (s : State) (r : Ring) (c : Cmd) (st : W16) (fl : Byte) : (writeNote r c st fl s).eid = s.eid := by
  unfold writeNote; (repeat' split) <;> simp
@[simp] theorem writeNote_arb (s : State) (r : Ring) (c : Cmd) (st : W16) (fl : Byte) : (writeNote r c st fl s).arb = s.arb := by
  unfold writeNote; (repeat' split) <;> simp
@[simp] theorem writeNote_grants (s : State) (r : Ring) (c : Cmd) (st : W16) (fl : Byte) : (writeNote r c st fl s).grants = s.grants := by
  unfold writeNote; (repeat' split) <;> simp
@[simp] theorem writeNote_tests (s : State) (r : Ring) (c : Cmd) (st : W16) (fl : Byte) : (writeNote r c st fl s).tests = s.tests := by
  unfold writeNote; (repeat' split) <;> simp
@[simp] theorem writeNote_free (s : State) (r : Ring) (c : Cmd) (st : W16) (fl : Byte) : (writeNote r c st fl s).free = s.free := by
  unfold writeNote; (repeat' split) <;> simp
@[simp] theorem writeNote_pending (s : State) (r : Ring) (c : Cmd) (st : W16) (fl : Byte) : (writeNote r c st fl s).pending = s.pending := by
  unfold writeNote; (repeat' split) <;> simp

/-! ### meterCompletion: R449: the counters of one tenant. -/

@[simp] theorem meterCompletion_id (s : State) (c : Cmd) : (meterCompletion c s).id = s.id := by
  unfold meterCompletion; (repeat' split) <;> simp
@[simp] theorem meterCompletion_clk (s : State) (c : Cmd) : (meterCompletion c s).clk = s.clk := by
  unfold meterCompletion; (repeat' split) <;> simp
@[simp] theorem meterCompletion_dies (s : State) (c : Cmd) : (meterCompletion c s).dies = s.dies := by
  unfold meterCompletion; (repeat' split) <;> simp
@[simp] theorem meterCompletion_rings (s : State) (c : Cmd) : (meterCompletion c s).rings = s.rings := by
  unfold meterCompletion; (repeat' split) <;> simp
@[simp] theorem meterCompletion_fns (s : State) (c : Cmd) : (meterCompletion c s).fns = s.fns := by
  unfold meterCompletion; (repeat' split) <;> simp
@[simp] theorem meterCompletion_cmds (s : State) (c : Cmd) : (meterCompletion c s).cmds = s.cmds := by
  unfold meterCompletion; (repeat' split) <;> simp
@[simp] theorem meterCompletion_seq (s : State) (c : Cmd) : (meterCompletion c s).seq = s.seq := by
  unfold meterCompletion; (repeat' split) <;> simp
@[simp] theorem meterCompletion_cache (s : State) (c : Cmd) : (meterCompletion c s).cache = s.cache := by
  unfold meterCompletion; (repeat' split) <;> simp
@[simp] theorem meterCompletion_mcmds (s : State) (c : Cmd) : (meterCompletion c s).mcmds = s.mcmds := by
  unfold meterCompletion; (repeat' split) <;> simp
@[simp] theorem meterCompletion_destages (s : State) (c : Cmd) : (meterCompletion c s).destages = s.destages := by
  unfold meterCompletion; (repeat' split) <;> simp
@[simp] theorem meterCompletion_uniq (s : State) (c : Cmd) : (meterCompletion c s).uniq = s.uniq := by
  unfold meterCompletion; (repeat' split) <;> simp
@[simp] theorem meterCompletion_pools (s : State) (c : Cmd) : (meterCompletion c s).pools = s.pools := by
  unfold meterCompletion; (repeat' split) <;> simp
@[simp] theorem meterCompletion_vols (s : State) (c : Cmd) : (meterCompletion c s).vols = s.vols := by
  unfold meterCompletion; (repeat' split) <;> simp
@[simp] theorem meterCompletion_buckets (s : State) (c : Cmd) : (meterCompletion c s).buckets = s.buckets := by
  unfold meterCompletion; (repeat' split) <;> simp
@[simp] theorem meterCompletion_nss (s : State) (c : Cmd) : (meterCompletion c s).nss = s.nss := by
  unfold meterCompletion; (repeat' split) <;> simp
@[simp] theorem meterCompletion_refl (s : State) (c : Cmd) : (meterCompletion c s).refl = s.refl := by
  unfold meterCompletion; (repeat' split) <;> simp
@[simp] theorem meterCompletion_pair (s : State) (c : Cmd) : (meterCompletion c s).pair = s.pair := by
  unfold meterCompletion; (repeat' split) <;> simp
@[simp] theorem meterCompletion_pw (s : State) (c : Cmd) : (meterCompletion c s).pw = s.pw := by
  unfold meterCompletion; (repeat' split) <;> simp
@[simp] theorem meterCompletion_run (s : State) (c : Cmd) : (meterCompletion c s).run = s.run := by
  unfold meterCompletion; (repeat' split) <;> simp
@[simp] theorem meterCompletion_fw (s : State) (c : Cmd) : (meterCompletion c s).fw = s.fw := by
  unfold meterCompletion; (repeat' split) <;> simp
@[simp] theorem meterCompletion_log (s : State) (c : Cmd) : (meterCompletion c s).log = s.log := by
  unfold meterCompletion; (repeat' split) <;> simp
@[simp] theorem meterCompletion_meter (s : State) (c : Cmd) : (meterCompletion c s).meter = s.meter := by
  unfold meterCompletion; (repeat' split) <;> simp
@[simp] theorem meterCompletion_feat (s : State) (c : Cmd) : (meterCompletion c s).feat = s.feat := by
  unfold meterCompletion; (repeat' split) <;> simp
@[simp] theorem meterCompletion_reg (s : State) (c : Cmd) : (meterCompletion c s).reg = s.reg := by
  unfold meterCompletion; (repeat' split) <;> simp
@[simp] theorem meterCompletion_nextPlan (s : State) (c : Cmd) : (meterCompletion c s).nextPlan = s.nextPlan := by
  unfold meterCompletion; (repeat' split) <;> simp
@[simp] theorem meterCompletion_uids (s : State) (c : Cmd) : (meterCompletion c s).uids = s.uids := by
  unfold meterCompletion; (repeat' split) <;> simp
@[simp] theorem meterCompletion_eid (s : State) (c : Cmd) : (meterCompletion c s).eid = s.eid := by
  unfold meterCompletion; (repeat' split) <;> simp
@[simp] theorem meterCompletion_msixSent (s : State) (c : Cmd) : (meterCompletion c s).msixSent = s.msixSent := by
  unfold meterCompletion; (repeat' split) <;> simp
@[simp] theorem meterCompletion_arb (s : State) (c : Cmd) : (meterCompletion c s).arb = s.arb := by
  unfold meterCompletion; (repeat' split) <;> simp
@[simp] theorem meterCompletion_grants (s : State) (c : Cmd) : (meterCompletion c s).grants = s.grants := by
  unfold meterCompletion; (repeat' split) <;> simp
@[simp] theorem meterCompletion_tests (s : State) (c : Cmd) : (meterCompletion c s).tests = s.tests := by
  unfold meterCompletion; (repeat' split) <;> simp
@[simp] theorem meterCompletion_out (s : State) (c : Cmd) : (meterCompletion c s).out = s.out := by
  unfold meterCompletion; (repeat' split) <;> simp
@[simp] theorem meterCompletion_free (s : State) (c : Cmd) : (meterCompletion c s).free = s.free := by
  unfold meterCompletion; (repeat' split) <;> simp
@[simp] theorem meterCompletion_pending (s : State) (c : Cmd) : (meterCompletion c s).pending = s.pending := by
  unfold meterCompletion; (repeat' split) <;> simp

/-! ### complete: R85, R86: a completion ends its command, moves a notification ring, counts for a tenant and is put out. -/

@[simp] theorem complete_id (s : State) (ref : CmdRef) (st : W16) (v : Res) : (complete ref st v s).id = s.id := by
  unfold complete writeRecord; (repeat' split) <;> simp [State.endCmd]
@[simp] theorem complete_clk (s : State) (ref : CmdRef) (st : W16) (v : Res) : (complete ref st v s).clk = s.clk := by
  unfold complete writeRecord; (repeat' split) <;> simp [State.endCmd]
@[simp] theorem complete_seq (s : State) (ref : CmdRef) (st : W16) (v : Res) : (complete ref st v s).seq = s.seq := by
  unfold complete writeRecord; (repeat' split) <;> simp [State.endCmd]
@[simp] theorem complete_cache (s : State) (ref : CmdRef) (st : W16) (v : Res) : (complete ref st v s).cache = s.cache := by
  unfold complete writeRecord; (repeat' split) <;> simp [State.endCmd]
@[simp] theorem complete_destages (s : State) (ref : CmdRef) (st : W16) (v : Res) : (complete ref st v s).destages = s.destages := by
  unfold complete writeRecord; (repeat' split) <;> simp [State.endCmd]
@[simp] theorem complete_uniq (s : State) (ref : CmdRef) (st : W16) (v : Res) : (complete ref st v s).uniq = s.uniq := by
  unfold complete writeRecord; (repeat' split) <;> simp [State.endCmd]
@[simp] theorem complete_pools (s : State) (ref : CmdRef) (st : W16) (v : Res) : (complete ref st v s).pools = s.pools := by
  unfold complete writeRecord; (repeat' split) <;> simp [State.endCmd]
@[simp] theorem complete_vols (s : State) (ref : CmdRef) (st : W16) (v : Res) : (complete ref st v s).vols = s.vols := by
  unfold complete writeRecord; (repeat' split) <;> simp [State.endCmd]
@[simp] theorem complete_buckets (s : State) (ref : CmdRef) (st : W16) (v : Res) : (complete ref st v s).buckets = s.buckets := by
  unfold complete writeRecord; (repeat' split) <;> simp [State.endCmd]
@[simp] theorem complete_nss (s : State) (ref : CmdRef) (st : W16) (v : Res) : (complete ref st v s).nss = s.nss := by
  unfold complete writeRecord; (repeat' split) <;> simp [State.endCmd]
@[simp] theorem complete_refl (s : State) (ref : CmdRef) (st : W16) (v : Res) : (complete ref st v s).refl = s.refl := by
  unfold complete writeRecord; (repeat' split) <;> simp [State.endCmd]
@[simp] theorem complete_pair (s : State) (ref : CmdRef) (st : W16) (v : Res) : (complete ref st v s).pair = s.pair := by
  unfold complete writeRecord; (repeat' split) <;> simp [State.endCmd]
@[simp] theorem complete_pw (s : State) (ref : CmdRef) (st : W16) (v : Res) : (complete ref st v s).pw = s.pw := by
  unfold complete writeRecord; (repeat' split) <;> simp [State.endCmd]
@[simp] theorem complete_run (s : State) (ref : CmdRef) (st : W16) (v : Res) : (complete ref st v s).run = s.run := by
  unfold complete writeRecord; (repeat' split) <;> simp [State.endCmd]
@[simp] theorem complete_fw (s : State) (ref : CmdRef) (st : W16) (v : Res) : (complete ref st v s).fw = s.fw := by
  unfold complete writeRecord; (repeat' split) <;> simp [State.endCmd]
@[simp] theorem complete_log (s : State) (ref : CmdRef) (st : W16) (v : Res) : (complete ref st v s).log = s.log := by
  unfold complete writeRecord; (repeat' split) <;> simp [State.endCmd]
@[simp] theorem complete_meter (s : State) (ref : CmdRef) (st : W16) (v : Res) : (complete ref st v s).meter = s.meter := by
  unfold complete writeRecord; (repeat' split) <;> simp [State.endCmd]
@[simp] theorem complete_feat (s : State) (ref : CmdRef) (st : W16) (v : Res) : (complete ref st v s).feat = s.feat := by
  unfold complete writeRecord; (repeat' split) <;> simp [State.endCmd]
@[simp] theorem complete_fns (s : State) (ref : CmdRef) (st : W16) (v : Res) : (complete ref st v s).fns = s.fns := by
  unfold complete writeRecord; (repeat' split) <;> simp [State.endCmd]
@[simp] theorem complete_reg (s : State) (ref : CmdRef) (st : W16) (v : Res) : (complete ref st v s).reg = s.reg := by
  unfold complete writeRecord; (repeat' split) <;> simp [State.endCmd]
@[simp] theorem complete_nextPlan (s : State) (ref : CmdRef) (st : W16) (v : Res) : (complete ref st v s).nextPlan = s.nextPlan := by
  unfold complete writeRecord; (repeat' split) <;> simp [State.endCmd]
@[simp] theorem complete_uids (s : State) (ref : CmdRef) (st : W16) (v : Res) : (complete ref st v s).uids = s.uids := by
  unfold complete writeRecord; (repeat' split) <;> simp [State.endCmd]
@[simp] theorem complete_eid (s : State) (ref : CmdRef) (st : W16) (v : Res) : (complete ref st v s).eid = s.eid := by
  unfold complete writeRecord; (repeat' split) <;> simp [State.endCmd]
@[simp] theorem complete_arb (s : State) (ref : CmdRef) (st : W16) (v : Res) : (complete ref st v s).arb = s.arb := by
  unfold complete writeRecord; (repeat' split) <;> simp [State.endCmd]
@[simp] theorem complete_grants (s : State) (ref : CmdRef) (st : W16) (v : Res) : (complete ref st v s).grants = s.grants := by
  unfold complete writeRecord; (repeat' split) <;> simp [State.endCmd]
@[simp] theorem complete_tests (s : State) (ref : CmdRef) (st : W16) (v : Res) : (complete ref st v s).tests = s.tests := by
  unfold complete writeRecord; (repeat' split) <;> simp [State.endCmd]
@[simp] theorem complete_free (s : State) (ref : CmdRef) (st : W16) (v : Res) : (complete ref st v s).free = s.free := by
  unfold complete writeRecord; (repeat' split) <;> simp [State.endCmd]
@[simp] theorem complete_pending (s : State) (ref : CmdRef) (st : W16) (v : Res) : (complete ref st v s).pending = s.pending := by
  unfold complete writeRecord; (repeat' split) <;> simp [State.endCmd]

/-! ### fail: A completion with a status alone. -/

@[simp] theorem fail_id (s : State) (ref : CmdRef) (st : W16) : (fail ref st s).id = s.id := by simp [fail]
@[simp] theorem fail_clk (s : State) (ref : CmdRef) (st : W16) : (fail ref st s).clk = s.clk := by simp [fail]
@[simp] theorem fail_seq (s : State) (ref : CmdRef) (st : W16) : (fail ref st s).seq = s.seq := by simp [fail]
@[simp] theorem fail_cache (s : State) (ref : CmdRef) (st : W16) : (fail ref st s).cache = s.cache := by simp [fail]
@[simp] theorem fail_destages (s : State) (ref : CmdRef) (st : W16) : (fail ref st s).destages = s.destages := by simp [fail]
@[simp] theorem fail_uniq (s : State) (ref : CmdRef) (st : W16) : (fail ref st s).uniq = s.uniq := by simp [fail]
@[simp] theorem fail_pools (s : State) (ref : CmdRef) (st : W16) : (fail ref st s).pools = s.pools := by simp [fail]
@[simp] theorem fail_vols (s : State) (ref : CmdRef) (st : W16) : (fail ref st s).vols = s.vols := by simp [fail]
@[simp] theorem fail_buckets (s : State) (ref : CmdRef) (st : W16) : (fail ref st s).buckets = s.buckets := by simp [fail]
@[simp] theorem fail_nss (s : State) (ref : CmdRef) (st : W16) : (fail ref st s).nss = s.nss := by simp [fail]
@[simp] theorem fail_refl (s : State) (ref : CmdRef) (st : W16) : (fail ref st s).refl = s.refl := by simp [fail]
@[simp] theorem fail_pair (s : State) (ref : CmdRef) (st : W16) : (fail ref st s).pair = s.pair := by simp [fail]
@[simp] theorem fail_pw (s : State) (ref : CmdRef) (st : W16) : (fail ref st s).pw = s.pw := by simp [fail]
@[simp] theorem fail_run (s : State) (ref : CmdRef) (st : W16) : (fail ref st s).run = s.run := by simp [fail]
@[simp] theorem fail_fw (s : State) (ref : CmdRef) (st : W16) : (fail ref st s).fw = s.fw := by simp [fail]
@[simp] theorem fail_log (s : State) (ref : CmdRef) (st : W16) : (fail ref st s).log = s.log := by simp [fail]
@[simp] theorem fail_meter (s : State) (ref : CmdRef) (st : W16) : (fail ref st s).meter = s.meter := by simp [fail]
@[simp] theorem fail_feat (s : State) (ref : CmdRef) (st : W16) : (fail ref st s).feat = s.feat := by simp [fail]
@[simp] theorem fail_fns (s : State) (ref : CmdRef) (st : W16) : (fail ref st s).fns = s.fns := by simp [fail]
@[simp] theorem fail_reg (s : State) (ref : CmdRef) (st : W16) : (fail ref st s).reg = s.reg := by simp [fail]
@[simp] theorem fail_nextPlan (s : State) (ref : CmdRef) (st : W16) : (fail ref st s).nextPlan = s.nextPlan := by simp [fail]
@[simp] theorem fail_uids (s : State) (ref : CmdRef) (st : W16) : (fail ref st s).uids = s.uids := by simp [fail]
@[simp] theorem fail_eid (s : State) (ref : CmdRef) (st : W16) : (fail ref st s).eid = s.eid := by simp [fail]
@[simp] theorem fail_arb (s : State) (ref : CmdRef) (st : W16) : (fail ref st s).arb = s.arb := by simp [fail]
@[simp] theorem fail_grants (s : State) (ref : CmdRef) (st : W16) : (fail ref st s).grants = s.grants := by simp [fail]
@[simp] theorem fail_tests (s : State) (ref : CmdRef) (st : W16) : (fail ref st s).tests = s.tests := by simp [fail]
@[simp] theorem fail_free (s : State) (ref : CmdRef) (st : W16) : (fail ref st s).free = s.free := by simp [fail]
@[simp] theorem fail_pending (s : State) (ref : CmdRef) (st : W16) : (fail ref st s).pending = s.pending := by simp [fail]

/-! ### ok: A completion with 0000h. -/

@[simp] theorem ok_id (s : State) (ref : CmdRef) (n : Nat) : (ok ref n s).id = s.id := by simp [ok]
@[simp] theorem ok_clk (s : State) (ref : CmdRef) (n : Nat) : (ok ref n s).clk = s.clk := by simp [ok]
@[simp] theorem ok_seq (s : State) (ref : CmdRef) (n : Nat) : (ok ref n s).seq = s.seq := by simp [ok]
@[simp] theorem ok_cache (s : State) (ref : CmdRef) (n : Nat) : (ok ref n s).cache = s.cache := by simp [ok]
@[simp] theorem ok_destages (s : State) (ref : CmdRef) (n : Nat) : (ok ref n s).destages = s.destages := by simp [ok]
@[simp] theorem ok_uniq (s : State) (ref : CmdRef) (n : Nat) : (ok ref n s).uniq = s.uniq := by simp [ok]
@[simp] theorem ok_pools (s : State) (ref : CmdRef) (n : Nat) : (ok ref n s).pools = s.pools := by simp [ok]
@[simp] theorem ok_vols (s : State) (ref : CmdRef) (n : Nat) : (ok ref n s).vols = s.vols := by simp [ok]
@[simp] theorem ok_buckets (s : State) (ref : CmdRef) (n : Nat) : (ok ref n s).buckets = s.buckets := by simp [ok]
@[simp] theorem ok_nss (s : State) (ref : CmdRef) (n : Nat) : (ok ref n s).nss = s.nss := by simp [ok]
@[simp] theorem ok_refl (s : State) (ref : CmdRef) (n : Nat) : (ok ref n s).refl = s.refl := by simp [ok]
@[simp] theorem ok_pair (s : State) (ref : CmdRef) (n : Nat) : (ok ref n s).pair = s.pair := by simp [ok]
@[simp] theorem ok_pw (s : State) (ref : CmdRef) (n : Nat) : (ok ref n s).pw = s.pw := by simp [ok]
@[simp] theorem ok_run (s : State) (ref : CmdRef) (n : Nat) : (ok ref n s).run = s.run := by simp [ok]
@[simp] theorem ok_fw (s : State) (ref : CmdRef) (n : Nat) : (ok ref n s).fw = s.fw := by simp [ok]
@[simp] theorem ok_log (s : State) (ref : CmdRef) (n : Nat) : (ok ref n s).log = s.log := by simp [ok]
@[simp] theorem ok_meter (s : State) (ref : CmdRef) (n : Nat) : (ok ref n s).meter = s.meter := by simp [ok]
@[simp] theorem ok_feat (s : State) (ref : CmdRef) (n : Nat) : (ok ref n s).feat = s.feat := by simp [ok]
@[simp] theorem ok_fns (s : State) (ref : CmdRef) (n : Nat) : (ok ref n s).fns = s.fns := by simp [ok]
@[simp] theorem ok_reg (s : State) (ref : CmdRef) (n : Nat) : (ok ref n s).reg = s.reg := by simp [ok]
@[simp] theorem ok_nextPlan (s : State) (ref : CmdRef) (n : Nat) : (ok ref n s).nextPlan = s.nextPlan := by simp [ok]
@[simp] theorem ok_uids (s : State) (ref : CmdRef) (n : Nat) : (ok ref n s).uids = s.uids := by simp [ok]
@[simp] theorem ok_eid (s : State) (ref : CmdRef) (n : Nat) : (ok ref n s).eid = s.eid := by simp [ok]
@[simp] theorem ok_arb (s : State) (ref : CmdRef) (n : Nat) : (ok ref n s).arb = s.arb := by simp [ok]
@[simp] theorem ok_grants (s : State) (ref : CmdRef) (n : Nat) : (ok ref n s).grants = s.grants := by simp [ok]
@[simp] theorem ok_tests (s : State) (ref : CmdRef) (n : Nat) : (ok ref n s).tests = s.tests := by simp [ok]
@[simp] theorem ok_free (s : State) (ref : CmdRef) (n : Nat) : (ok ref n s).free = s.free := by simp [ok]
@[simp] theorem ok_pending (s : State) (ref : CmdRef) (n : Nat) : (ok ref n s).pending = s.pending := by simp [ok]

/-! ### busy: A completion with 0402h. -/

@[simp] theorem busy_id (s : State) (ref : CmdRef) : (busy ref s).id = s.id := by simp [busy]
@[simp] theorem busy_clk (s : State) (ref : CmdRef) : (busy ref s).clk = s.clk := by simp [busy]
@[simp] theorem busy_seq (s : State) (ref : CmdRef) : (busy ref s).seq = s.seq := by simp [busy]
@[simp] theorem busy_cache (s : State) (ref : CmdRef) : (busy ref s).cache = s.cache := by simp [busy]
@[simp] theorem busy_destages (s : State) (ref : CmdRef) : (busy ref s).destages = s.destages := by simp [busy]
@[simp] theorem busy_uniq (s : State) (ref : CmdRef) : (busy ref s).uniq = s.uniq := by simp [busy]
@[simp] theorem busy_pools (s : State) (ref : CmdRef) : (busy ref s).pools = s.pools := by simp [busy]
@[simp] theorem busy_vols (s : State) (ref : CmdRef) : (busy ref s).vols = s.vols := by simp [busy]
@[simp] theorem busy_buckets (s : State) (ref : CmdRef) : (busy ref s).buckets = s.buckets := by simp [busy]
@[simp] theorem busy_nss (s : State) (ref : CmdRef) : (busy ref s).nss = s.nss := by simp [busy]
@[simp] theorem busy_refl (s : State) (ref : CmdRef) : (busy ref s).refl = s.refl := by simp [busy]
@[simp] theorem busy_pair (s : State) (ref : CmdRef) : (busy ref s).pair = s.pair := by simp [busy]
@[simp] theorem busy_pw (s : State) (ref : CmdRef) : (busy ref s).pw = s.pw := by simp [busy]
@[simp] theorem busy_run (s : State) (ref : CmdRef) : (busy ref s).run = s.run := by simp [busy]
@[simp] theorem busy_fw (s : State) (ref : CmdRef) : (busy ref s).fw = s.fw := by simp [busy]
@[simp] theorem busy_log (s : State) (ref : CmdRef) : (busy ref s).log = s.log := by simp [busy]
@[simp] theorem busy_meter (s : State) (ref : CmdRef) : (busy ref s).meter = s.meter := by simp [busy]
@[simp] theorem busy_feat (s : State) (ref : CmdRef) : (busy ref s).feat = s.feat := by simp [busy]
@[simp] theorem busy_fns (s : State) (ref : CmdRef) : (busy ref s).fns = s.fns := by simp [busy]
@[simp] theorem busy_reg (s : State) (ref : CmdRef) : (busy ref s).reg = s.reg := by simp [busy]
@[simp] theorem busy_nextPlan (s : State) (ref : CmdRef) : (busy ref s).nextPlan = s.nextPlan := by simp [busy]
@[simp] theorem busy_uids (s : State) (ref : CmdRef) : (busy ref s).uids = s.uids := by simp [busy]
@[simp] theorem busy_eid (s : State) (ref : CmdRef) : (busy ref s).eid = s.eid := by simp [busy]
@[simp] theorem busy_arb (s : State) (ref : CmdRef) : (busy ref s).arb = s.arb := by simp [busy]
@[simp] theorem busy_grants (s : State) (ref : CmdRef) : (busy ref s).grants = s.grants := by simp [busy]
@[simp] theorem busy_tests (s : State) (ref : CmdRef) : (busy ref s).tests = s.tests := by simp [busy]
@[simp] theorem busy_free (s : State) (ref : CmdRef) : (busy ref s).free = s.free := by simp [busy]
@[simp] theorem busy_pending (s : State) (ref : CmdRef) : (busy ref s).pending = s.pending := by simp [busy]

/-! ### failIo: A completion of an I/O command that failed a check. -/

@[simp] theorem failIo_id (s : State) (ref : CmdRef) (st : W16) : (failIo ref st s).id = s.id := by simp [failIo]
@[simp] theorem failIo_clk (s : State) (ref : CmdRef) (st : W16) : (failIo ref st s).clk = s.clk := by simp [failIo]
@[simp] theorem failIo_seq (s : State) (ref : CmdRef) (st : W16) : (failIo ref st s).seq = s.seq := by simp [failIo]
@[simp] theorem failIo_cache (s : State) (ref : CmdRef) (st : W16) : (failIo ref st s).cache = s.cache := by simp [failIo]
@[simp] theorem failIo_destages (s : State) (ref : CmdRef) (st : W16) : (failIo ref st s).destages = s.destages := by simp [failIo]
@[simp] theorem failIo_uniq (s : State) (ref : CmdRef) (st : W16) : (failIo ref st s).uniq = s.uniq := by simp [failIo]
@[simp] theorem failIo_pools (s : State) (ref : CmdRef) (st : W16) : (failIo ref st s).pools = s.pools := by simp [failIo]
@[simp] theorem failIo_vols (s : State) (ref : CmdRef) (st : W16) : (failIo ref st s).vols = s.vols := by simp [failIo]
@[simp] theorem failIo_buckets (s : State) (ref : CmdRef) (st : W16) : (failIo ref st s).buckets = s.buckets := by simp [failIo]
@[simp] theorem failIo_nss (s : State) (ref : CmdRef) (st : W16) : (failIo ref st s).nss = s.nss := by simp [failIo]
@[simp] theorem failIo_refl (s : State) (ref : CmdRef) (st : W16) : (failIo ref st s).refl = s.refl := by simp [failIo]
@[simp] theorem failIo_pair (s : State) (ref : CmdRef) (st : W16) : (failIo ref st s).pair = s.pair := by simp [failIo]
@[simp] theorem failIo_pw (s : State) (ref : CmdRef) (st : W16) : (failIo ref st s).pw = s.pw := by simp [failIo]
@[simp] theorem failIo_run (s : State) (ref : CmdRef) (st : W16) : (failIo ref st s).run = s.run := by simp [failIo]
@[simp] theorem failIo_fw (s : State) (ref : CmdRef) (st : W16) : (failIo ref st s).fw = s.fw := by simp [failIo]
@[simp] theorem failIo_log (s : State) (ref : CmdRef) (st : W16) : (failIo ref st s).log = s.log := by simp [failIo]
@[simp] theorem failIo_meter (s : State) (ref : CmdRef) (st : W16) : (failIo ref st s).meter = s.meter := by simp [failIo]
@[simp] theorem failIo_feat (s : State) (ref : CmdRef) (st : W16) : (failIo ref st s).feat = s.feat := by simp [failIo]
@[simp] theorem failIo_fns (s : State) (ref : CmdRef) (st : W16) : (failIo ref st s).fns = s.fns := by simp [failIo]
@[simp] theorem failIo_reg (s : State) (ref : CmdRef) (st : W16) : (failIo ref st s).reg = s.reg := by simp [failIo]
@[simp] theorem failIo_nextPlan (s : State) (ref : CmdRef) (st : W16) : (failIo ref st s).nextPlan = s.nextPlan := by simp [failIo]
@[simp] theorem failIo_uids (s : State) (ref : CmdRef) (st : W16) : (failIo ref st s).uids = s.uids := by simp [failIo]
@[simp] theorem failIo_eid (s : State) (ref : CmdRef) (st : W16) : (failIo ref st s).eid = s.eid := by simp [failIo]
@[simp] theorem failIo_arb (s : State) (ref : CmdRef) (st : W16) : (failIo ref st s).arb = s.arb := by simp [failIo]
@[simp] theorem failIo_grants (s : State) (ref : CmdRef) (st : W16) : (failIo ref st s).grants = s.grants := by simp [failIo]
@[simp] theorem failIo_tests (s : State) (ref : CmdRef) (st : W16) : (failIo ref st s).tests = s.tests := by simp [failIo]
@[simp] theorem failIo_free (s : State) (ref : CmdRef) (st : W16) : (failIo ref st s).free = s.free := by simp [failIo]
@[simp] theorem failIo_pending (s : State) (ref : CmdRef) (st : W16) : (failIo ref st s).pending = s.pending := by simp [failIo]

/-! ### okBuffer: A completion with an output buffer. -/

@[simp] theorem okBuffer_id (s : State) (c : Cmd) (b : Bytes) (n m : Nat) : (okBuffer c b n m s).id = s.id := by simp [okBuffer]
@[simp] theorem okBuffer_clk (s : State) (c : Cmd) (b : Bytes) (n m : Nat) : (okBuffer c b n m s).clk = s.clk := by simp [okBuffer]
@[simp] theorem okBuffer_seq (s : State) (c : Cmd) (b : Bytes) (n m : Nat) : (okBuffer c b n m s).seq = s.seq := by simp [okBuffer]
@[simp] theorem okBuffer_cache (s : State) (c : Cmd) (b : Bytes) (n m : Nat) : (okBuffer c b n m s).cache = s.cache := by simp [okBuffer]
@[simp] theorem okBuffer_destages (s : State) (c : Cmd) (b : Bytes) (n m : Nat) : (okBuffer c b n m s).destages = s.destages := by simp [okBuffer]
@[simp] theorem okBuffer_uniq (s : State) (c : Cmd) (b : Bytes) (n m : Nat) : (okBuffer c b n m s).uniq = s.uniq := by simp [okBuffer]
@[simp] theorem okBuffer_pools (s : State) (c : Cmd) (b : Bytes) (n m : Nat) : (okBuffer c b n m s).pools = s.pools := by simp [okBuffer]
@[simp] theorem okBuffer_vols (s : State) (c : Cmd) (b : Bytes) (n m : Nat) : (okBuffer c b n m s).vols = s.vols := by simp [okBuffer]
@[simp] theorem okBuffer_buckets (s : State) (c : Cmd) (b : Bytes) (n m : Nat) : (okBuffer c b n m s).buckets = s.buckets := by simp [okBuffer]
@[simp] theorem okBuffer_nss (s : State) (c : Cmd) (b : Bytes) (n m : Nat) : (okBuffer c b n m s).nss = s.nss := by simp [okBuffer]
@[simp] theorem okBuffer_refl (s : State) (c : Cmd) (b : Bytes) (n m : Nat) : (okBuffer c b n m s).refl = s.refl := by simp [okBuffer]
@[simp] theorem okBuffer_pair (s : State) (c : Cmd) (b : Bytes) (n m : Nat) : (okBuffer c b n m s).pair = s.pair := by simp [okBuffer]
@[simp] theorem okBuffer_pw (s : State) (c : Cmd) (b : Bytes) (n m : Nat) : (okBuffer c b n m s).pw = s.pw := by simp [okBuffer]
@[simp] theorem okBuffer_run (s : State) (c : Cmd) (b : Bytes) (n m : Nat) : (okBuffer c b n m s).run = s.run := by simp [okBuffer]
@[simp] theorem okBuffer_fw (s : State) (c : Cmd) (b : Bytes) (n m : Nat) : (okBuffer c b n m s).fw = s.fw := by simp [okBuffer]
@[simp] theorem okBuffer_log (s : State) (c : Cmd) (b : Bytes) (n m : Nat) : (okBuffer c b n m s).log = s.log := by simp [okBuffer]
@[simp] theorem okBuffer_meter (s : State) (c : Cmd) (b : Bytes) (n m : Nat) : (okBuffer c b n m s).meter = s.meter := by simp [okBuffer]
@[simp] theorem okBuffer_feat (s : State) (c : Cmd) (b : Bytes) (n m : Nat) : (okBuffer c b n m s).feat = s.feat := by simp [okBuffer]
@[simp] theorem okBuffer_fns (s : State) (c : Cmd) (b : Bytes) (n m : Nat) : (okBuffer c b n m s).fns = s.fns := by simp [okBuffer]
@[simp] theorem okBuffer_reg (s : State) (c : Cmd) (b : Bytes) (n m : Nat) : (okBuffer c b n m s).reg = s.reg := by simp [okBuffer]
@[simp] theorem okBuffer_nextPlan (s : State) (c : Cmd) (b : Bytes) (n m : Nat) : (okBuffer c b n m s).nextPlan = s.nextPlan := by simp [okBuffer]
@[simp] theorem okBuffer_uids (s : State) (c : Cmd) (b : Bytes) (n m : Nat) : (okBuffer c b n m s).uids = s.uids := by simp [okBuffer]
@[simp] theorem okBuffer_eid (s : State) (c : Cmd) (b : Bytes) (n m : Nat) : (okBuffer c b n m s).eid = s.eid := by simp [okBuffer]
@[simp] theorem okBuffer_arb (s : State) (c : Cmd) (b : Bytes) (n m : Nat) : (okBuffer c b n m s).arb = s.arb := by simp [okBuffer]
@[simp] theorem okBuffer_grants (s : State) (c : Cmd) (b : Bytes) (n m : Nat) : (okBuffer c b n m s).grants = s.grants := by simp [okBuffer]
@[simp] theorem okBuffer_tests (s : State) (c : Cmd) (b : Bytes) (n m : Nat) : (okBuffer c b n m s).tests = s.tests := by simp [okBuffer]
@[simp] theorem okBuffer_free (s : State) (c : Cmd) (b : Bytes) (n m : Nat) : (okBuffer c b n m s).free = s.free := by simp [okBuffer]
@[simp] theorem okBuffer_pending (s : State) (c : Cmd) (b : Bytes) (n m : Nat) : (okBuffer c b n m s).pending = s.pending := by simp [okBuffer]

/-! ### charge: R441: the buckets of one tenant. -/

@[simp] theorem charge_id (s : State) (r : Ring) (op : Op) (e : Entry) : (charge r op e s).id = s.id := by
  unfold charge; (repeat' split) <;> simp [setBucket]
@[simp] theorem charge_clk (s : State) (r : Ring) (op : Op) (e : Entry) : (charge r op e s).clk = s.clk := by
  unfold charge; (repeat' split) <;> simp [setBucket]
@[simp] theorem charge_dies (s : State) (r : Ring) (op : Op) (e : Entry) : (charge r op e s).dies = s.dies := by
  unfold charge; (repeat' split) <;> simp [setBucket]
@[simp] theorem charge_rings (s : State) (r : Ring) (op : Op) (e : Entry) : (charge r op e s).rings = s.rings := by
  unfold charge; (repeat' split) <;> simp [setBucket]
@[simp] theorem charge_fns (s : State) (r : Ring) (op : Op) (e : Entry) : (charge r op e s).fns = s.fns := by
  unfold charge; (repeat' split) <;> simp [setBucket]
@[simp] theorem charge_cmds (s : State) (r : Ring) (op : Op) (e : Entry) : (charge r op e s).cmds = s.cmds := by
  unfold charge; (repeat' split) <;> simp [setBucket]
@[simp] theorem charge_seq (s : State) (r : Ring) (op : Op) (e : Entry) : (charge r op e s).seq = s.seq := by
  unfold charge; (repeat' split) <;> simp [setBucket]
@[simp] theorem charge_cache (s : State) (r : Ring) (op : Op) (e : Entry) : (charge r op e s).cache = s.cache := by
  unfold charge; (repeat' split) <;> simp [setBucket]
@[simp] theorem charge_mcmds (s : State) (r : Ring) (op : Op) (e : Entry) : (charge r op e s).mcmds = s.mcmds := by
  unfold charge; (repeat' split) <;> simp [setBucket]
@[simp] theorem charge_destages (s : State) (r : Ring) (op : Op) (e : Entry) : (charge r op e s).destages = s.destages := by
  unfold charge; (repeat' split) <;> simp [setBucket]
@[simp] theorem charge_uniq (s : State) (r : Ring) (op : Op) (e : Entry) : (charge r op e s).uniq = s.uniq := by
  unfold charge; (repeat' split) <;> simp [setBucket]
@[simp] theorem charge_pools (s : State) (r : Ring) (op : Op) (e : Entry) : (charge r op e s).pools = s.pools := by
  unfold charge; (repeat' split) <;> simp [setBucket]
@[simp] theorem charge_vols (s : State) (r : Ring) (op : Op) (e : Entry) : (charge r op e s).vols = s.vols := by
  unfold charge; (repeat' split) <;> simp [setBucket]
@[simp] theorem charge_tenants (s : State) (r : Ring) (op : Op) (e : Entry) : (charge r op e s).tenants = s.tenants := by
  unfold charge; (repeat' split) <;> simp [setBucket]
@[simp] theorem charge_nss (s : State) (r : Ring) (op : Op) (e : Entry) : (charge r op e s).nss = s.nss := by
  unfold charge; (repeat' split) <;> simp [setBucket]
@[simp] theorem charge_refl (s : State) (r : Ring) (op : Op) (e : Entry) : (charge r op e s).refl = s.refl := by
  unfold charge; (repeat' split) <;> simp [setBucket]
@[simp] theorem charge_pair (s : State) (r : Ring) (op : Op) (e : Entry) : (charge r op e s).pair = s.pair := by
  unfold charge; (repeat' split) <;> simp [setBucket]
@[simp] theorem charge_pw (s : State) (r : Ring) (op : Op) (e : Entry) : (charge r op e s).pw = s.pw := by
  unfold charge; (repeat' split) <;> simp [setBucket]
@[simp] theorem charge_run (s : State) (r : Ring) (op : Op) (e : Entry) : (charge r op e s).run = s.run := by
  unfold charge; (repeat' split) <;> simp [setBucket]
@[simp] theorem charge_fw (s : State) (r : Ring) (op : Op) (e : Entry) : (charge r op e s).fw = s.fw := by
  unfold charge; (repeat' split) <;> simp [setBucket]
@[simp] theorem charge_log (s : State) (r : Ring) (op : Op) (e : Entry) : (charge r op e s).log = s.log := by
  unfold charge; (repeat' split) <;> simp [setBucket]
@[simp] theorem charge_meter (s : State) (r : Ring) (op : Op) (e : Entry) : (charge r op e s).meter = s.meter := by
  unfold charge; (repeat' split) <;> simp [setBucket]
@[simp] theorem charge_feat (s : State) (r : Ring) (op : Op) (e : Entry) : (charge r op e s).feat = s.feat := by
  unfold charge; (repeat' split) <;> simp [setBucket]
@[simp] theorem charge_reg (s : State) (r : Ring) (op : Op) (e : Entry) : (charge r op e s).reg = s.reg := by
  unfold charge; (repeat' split) <;> simp [setBucket]
@[simp] theorem charge_nextPlan (s : State) (r : Ring) (op : Op) (e : Entry) : (charge r op e s).nextPlan = s.nextPlan := by
  unfold charge; (repeat' split) <;> simp [setBucket]
@[simp] theorem charge_uids (s : State) (r : Ring) (op : Op) (e : Entry) : (charge r op e s).uids = s.uids := by
  unfold charge; (repeat' split) <;> simp [setBucket]
@[simp] theorem charge_eid (s : State) (r : Ring) (op : Op) (e : Entry) : (charge r op e s).eid = s.eid := by
  unfold charge; (repeat' split) <;> simp [setBucket]
@[simp] theorem charge_msixSent (s : State) (r : Ring) (op : Op) (e : Entry) : (charge r op e s).msixSent = s.msixSent := by
  unfold charge; (repeat' split) <;> simp [setBucket]
@[simp] theorem charge_arb (s : State) (r : Ring) (op : Op) (e : Entry) : (charge r op e s).arb = s.arb := by
  unfold charge; (repeat' split) <;> simp [setBucket]
@[simp] theorem charge_grants (s : State) (r : Ring) (op : Op) (e : Entry) : (charge r op e s).grants = s.grants := by
  unfold charge; (repeat' split) <;> simp [setBucket]
@[simp] theorem charge_tests (s : State) (r : Ring) (op : Op) (e : Entry) : (charge r op e s).tests = s.tests := by
  unfold charge; (repeat' split) <;> simp [setBucket]
@[simp] theorem charge_out (s : State) (r : Ring) (op : Op) (e : Entry) : (charge r op e s).out = s.out := by
  unfold charge; (repeat' split) <;> simp [setBucket]
@[simp] theorem charge_free (s : State) (r : Ring) (op : Op) (e : Entry) : (charge r op e s).free = s.free := by
  unfold charge; (repeat' split) <;> simp [setBucket]
@[simp] theorem charge_pending (s : State) (r : Ring) (op : Op) (e : Entry) : (charge r op e s).pending = s.pending := by
  unfold charge; (repeat' split) <;> simp [setBucket]

/-! ### advanceRings: R92, R100: only the rings and the places in the rounds change. -/

@[simp] theorem advanceRings_id (s : State) (r : Ring) (op : Op) (e : Entry) : (advanceRings r op e s).id = s.id := rfl
@[simp] theorem advanceRings_clk (s : State) (r : Ring) (op : Op) (e : Entry) : (advanceRings r op e s).clk = s.clk := rfl
@[simp] theorem advanceRings_dies (s : State) (r : Ring) (op : Op) (e : Entry) : (advanceRings r op e s).dies = s.dies := rfl
@[simp] theorem advanceRings_fns (s : State) (r : Ring) (op : Op) (e : Entry) : (advanceRings r op e s).fns = s.fns := rfl
@[simp] theorem advanceRings_seq (s : State) (r : Ring) (op : Op) (e : Entry) : (advanceRings r op e s).seq = s.seq := rfl
@[simp] theorem advanceRings_cache (s : State) (r : Ring) (op : Op) (e : Entry) : (advanceRings r op e s).cache = s.cache := rfl
@[simp] theorem advanceRings_mcmds (s : State) (r : Ring) (op : Op) (e : Entry) : (advanceRings r op e s).mcmds = s.mcmds := rfl
@[simp] theorem advanceRings_destages (s : State) (r : Ring) (op : Op) (e : Entry) : (advanceRings r op e s).destages = s.destages := rfl
@[simp] theorem advanceRings_uniq (s : State) (r : Ring) (op : Op) (e : Entry) : (advanceRings r op e s).uniq = s.uniq := rfl
@[simp] theorem advanceRings_pools (s : State) (r : Ring) (op : Op) (e : Entry) : (advanceRings r op e s).pools = s.pools := rfl
@[simp] theorem advanceRings_vols (s : State) (r : Ring) (op : Op) (e : Entry) : (advanceRings r op e s).vols = s.vols := rfl
@[simp] theorem advanceRings_tenants (s : State) (r : Ring) (op : Op) (e : Entry) : (advanceRings r op e s).tenants = s.tenants := rfl
@[simp] theorem advanceRings_nss (s : State) (r : Ring) (op : Op) (e : Entry) : (advanceRings r op e s).nss = s.nss := rfl
@[simp] theorem advanceRings_refl (s : State) (r : Ring) (op : Op) (e : Entry) : (advanceRings r op e s).refl = s.refl := rfl
@[simp] theorem advanceRings_pair (s : State) (r : Ring) (op : Op) (e : Entry) : (advanceRings r op e s).pair = s.pair := rfl
@[simp] theorem advanceRings_pw (s : State) (r : Ring) (op : Op) (e : Entry) : (advanceRings r op e s).pw = s.pw := rfl
@[simp] theorem advanceRings_run (s : State) (r : Ring) (op : Op) (e : Entry) : (advanceRings r op e s).run = s.run := rfl
@[simp] theorem advanceRings_fw (s : State) (r : Ring) (op : Op) (e : Entry) : (advanceRings r op e s).fw = s.fw := rfl
@[simp] theorem advanceRings_log (s : State) (r : Ring) (op : Op) (e : Entry) : (advanceRings r op e s).log = s.log := rfl
@[simp] theorem advanceRings_meter (s : State) (r : Ring) (op : Op) (e : Entry) : (advanceRings r op e s).meter = s.meter := rfl
@[simp] theorem advanceRings_feat (s : State) (r : Ring) (op : Op) (e : Entry) : (advanceRings r op e s).feat = s.feat := rfl
@[simp] theorem advanceRings_reg (s : State) (r : Ring) (op : Op) (e : Entry) : (advanceRings r op e s).reg = s.reg := rfl
@[simp] theorem advanceRings_nextPlan (s : State) (r : Ring) (op : Op) (e : Entry) : (advanceRings r op e s).nextPlan = s.nextPlan := rfl
@[simp] theorem advanceRings_uids (s : State) (r : Ring) (op : Op) (e : Entry) : (advanceRings r op e s).uids = s.uids := rfl
@[simp] theorem advanceRings_eid (s : State) (r : Ring) (op : Op) (e : Entry) : (advanceRings r op e s).eid = s.eid := rfl
@[simp] theorem advanceRings_msixSent (s : State) (r : Ring) (op : Op) (e : Entry) : (advanceRings r op e s).msixSent = s.msixSent := rfl
@[simp] theorem advanceRings_grants (s : State) (r : Ring) (op : Op) (e : Entry) : (advanceRings r op e s).grants = s.grants := rfl
@[simp] theorem advanceRings_tests (s : State) (r : Ring) (op : Op) (e : Entry) : (advanceRings r op e s).tests = s.tests := rfl
@[simp] theorem advanceRings_out (s : State) (r : Ring) (op : Op) (e : Entry) : (advanceRings r op e s).out = s.out := rfl
@[simp] theorem advanceRings_free (s : State) (r : Ring) (op : Op) (e : Entry) : (advanceRings r op e s).free = s.free := rfl
@[simp] theorem advanceRings_pending (s : State) (r : Ring) (op : Op) (e : Entry) : (advanceRings r op e s).pending = s.pending := rfl
@[simp] theorem advanceRings_cmds (s : State) (r : Ring) (op : Op) (e : Entry) : (advanceRings r op e s).cmds = s.cmds := rfl
@[simp] theorem advanceRings_buckets (s : State) (r : Ring) (op : Op) (e : Entry) : (advanceRings r op e s).buckets = s.buckets := rfl

/-! ### dispatched: R92: dispatch moves the ring, charges a bucket and adds the command. -/

@[simp] theorem dispatched_id (s : State) (r : Ring) (op : Op) (p : Post) : (dispatched r op p s).id = s.id := by simp [dispatched]
@[simp] theorem dispatched_clk (s : State) (r : Ring) (op : Op) (p : Post) : (dispatched r op p s).clk = s.clk := by simp [dispatched]
@[simp] theorem dispatched_dies (s : State) (r : Ring) (op : Op) (p : Post) : (dispatched r op p s).dies = s.dies := by simp [dispatched]
@[simp] theorem dispatched_fns (s : State) (r : Ring) (op : Op) (p : Post) : (dispatched r op p s).fns = s.fns := by simp [dispatched]
@[simp] theorem dispatched_seq (s : State) (r : Ring) (op : Op) (p : Post) : (dispatched r op p s).seq = s.seq := by simp [dispatched]
@[simp] theorem dispatched_cache (s : State) (r : Ring) (op : Op) (p : Post) : (dispatched r op p s).cache = s.cache := by simp [dispatched]
@[simp] theorem dispatched_mcmds (s : State) (r : Ring) (op : Op) (p : Post) : (dispatched r op p s).mcmds = s.mcmds := by simp [dispatched]
@[simp] theorem dispatched_destages (s : State) (r : Ring) (op : Op) (p : Post) : (dispatched r op p s).destages = s.destages := by simp [dispatched]
@[simp] theorem dispatched_uniq (s : State) (r : Ring) (op : Op) (p : Post) : (dispatched r op p s).uniq = s.uniq := by simp [dispatched]
@[simp] theorem dispatched_pools (s : State) (r : Ring) (op : Op) (p : Post) : (dispatched r op p s).pools = s.pools := by simp [dispatched]
@[simp] theorem dispatched_vols (s : State) (r : Ring) (op : Op) (p : Post) : (dispatched r op p s).vols = s.vols := by simp [dispatched]
@[simp] theorem dispatched_tenants (s : State) (r : Ring) (op : Op) (p : Post) : (dispatched r op p s).tenants = s.tenants := by simp [dispatched]
@[simp] theorem dispatched_nss (s : State) (r : Ring) (op : Op) (p : Post) : (dispatched r op p s).nss = s.nss := by simp [dispatched]
@[simp] theorem dispatched_refl (s : State) (r : Ring) (op : Op) (p : Post) : (dispatched r op p s).refl = s.refl := by simp [dispatched]
@[simp] theorem dispatched_pair (s : State) (r : Ring) (op : Op) (p : Post) : (dispatched r op p s).pair = s.pair := by simp [dispatched]
@[simp] theorem dispatched_pw (s : State) (r : Ring) (op : Op) (p : Post) : (dispatched r op p s).pw = s.pw := by simp [dispatched]
@[simp] theorem dispatched_run (s : State) (r : Ring) (op : Op) (p : Post) : (dispatched r op p s).run = s.run := by simp [dispatched]
@[simp] theorem dispatched_fw (s : State) (r : Ring) (op : Op) (p : Post) : (dispatched r op p s).fw = s.fw := by simp [dispatched]
@[simp] theorem dispatched_log (s : State) (r : Ring) (op : Op) (p : Post) : (dispatched r op p s).log = s.log := by simp [dispatched]
@[simp] theorem dispatched_meter (s : State) (r : Ring) (op : Op) (p : Post) : (dispatched r op p s).meter = s.meter := by simp [dispatched]
@[simp] theorem dispatched_feat (s : State) (r : Ring) (op : Op) (p : Post) : (dispatched r op p s).feat = s.feat := by simp [dispatched]
@[simp] theorem dispatched_reg (s : State) (r : Ring) (op : Op) (p : Post) : (dispatched r op p s).reg = s.reg := by simp [dispatched]
@[simp] theorem dispatched_nextPlan (s : State) (r : Ring) (op : Op) (p : Post) : (dispatched r op p s).nextPlan = s.nextPlan := by simp [dispatched]
@[simp] theorem dispatched_uids (s : State) (r : Ring) (op : Op) (p : Post) : (dispatched r op p s).uids = s.uids := by simp [dispatched]
@[simp] theorem dispatched_eid (s : State) (r : Ring) (op : Op) (p : Post) : (dispatched r op p s).eid = s.eid := by simp [dispatched]
@[simp] theorem dispatched_msixSent (s : State) (r : Ring) (op : Op) (p : Post) : (dispatched r op p s).msixSent = s.msixSent := by simp [dispatched]
@[simp] theorem dispatched_grants (s : State) (r : Ring) (op : Op) (p : Post) : (dispatched r op p s).grants = s.grants := by simp [dispatched]
@[simp] theorem dispatched_tests (s : State) (r : Ring) (op : Op) (p : Post) : (dispatched r op p s).tests = s.tests := by simp [dispatched]
@[simp] theorem dispatched_out (s : State) (r : Ring) (op : Op) (p : Post) : (dispatched r op p s).out = s.out := by simp [dispatched]
@[simp] theorem dispatched_free (s : State) (r : Ring) (op : Op) (p : Post) : (dispatched r op p s).free = s.free := by simp [dispatched]
@[simp] theorem dispatched_pending (s : State) (r : Ring) (op : Op) (p : Post) : (dispatched r op p s).pending = s.pending := by simp [dispatched]

end Sys2Proof.Machine
end

