-- ==== Sys2Proof/Laws/Commands.lean ====
section
/-! SUPPORT. Dispatch and completion: the command that a taken entry becomes, and what its completion puts out. -/

namespace Sys2Proof.Machine
set_option Elab.async false
set_option linter.unusedTactic false
set_option linter.unreachableTactic false
set_option linter.unusedSimpArgs false
set_option linter.unusedVariables false

/-! ### What is put out only grows -/

/-- What s has put out stands at the front of what t has put out. -/
def Grows (s t : State) : Prop := ∃ b, t.out = s.out ++ b

theorem Grows.refl (s : State) : Grows s s := ⟨[], by simp⟩

theorem Grows.trans {s t u : State} (h : Grows s t) (k : Grows t u) : Grows s u := by
  obtain ⟨a, ha⟩ := h
  obtain ⟨b, hb⟩ := k
  exact ⟨a ++ b, by simp [hb, ha]⟩

theorem Grows.of_eq {s t : State} (h : t.out = s.out) : Grows s t := ⟨[], by simp [h]⟩

theorem emit_grows (s : State) (o : Out) : Grows s (s.emit o) := ⟨[o], rfl⟩

theorem updFn_grows (s : State) (d f : Nat) (g : FnSt → FnSt) : Grows s (s.updFn d f g) := .of_eq (by simp)

theorem raise_grows (s : State) (d code : Nat) (x : Detail) : Grows s (raise d code x s) := .of_eq (by simp)

theorem writeNote_grows (s : State) (r : Ring) (c : Cmd) (st : W16) (fl : Byte) : Grows s (writeNote r c st fl s) := by
  unfold writeNote
  repeat' split
  · exact .refl _
  · exact .refl _
  · exact (Grows.of_eq (by simp)).trans (emit_grows ..)
  · exact (Grows.of_eq (by simp)).trans (raise_grows ..)

/-! ### Completion -/

/-- R85: a command in flight on a ring of a die whose link is up, in a package not HALTED, can be completed. -/
structure Completable (ref : CmdRef) (s : State) : Prop where
  cmd : (s.cmd? ref).isSome
  ring : (s.ring? ref.die ref.ring).isSome
  runs : s.run.halted = false
  link : (s.die? ref.die).any (·.linkUp) = true

theorem updRing_ring? (s : State) (d i : Nat) (f : Ring → Ring) (h : ∀ r, (f r).die = r.die ∧ (f r).idx = r.idx)
    (e j : Nat) : (s.updRing d i f).ring? e j = (s.ring? e j).map fun r => if r.die == d && r.idx == i then f r else r := by
  simp only [State.updRing, State.ring?, updIf]
  induction s.rings with
  | nil => rfl
  | cons r l ih =>
    simp only [List.map_cons, List.find?_cons]
    have hk : ((if (r.die == d && r.idx == i) = true then f r else r).die == e &&
        (if (r.die == d && r.idx == i) = true then f r else r).idx == j) = (r.die == e && r.idx == j) := by
      split <;> simp [h r]
    rw [hk]
    cases hm : (r.die == e && r.idx == j)
    · simpa using ih
    · simp

theorem endCmd_cmd? (s : State) (ref : CmdRef) : (s.endCmd ref).cmd? ref = none := by
  simp [State.endCmd, State.cmd?, List.find?_eq_none]

theorem complete_cmds (s : State) (ref : CmdRef) (st : W16) (v : Res) :
    (complete ref st v s).cmds = s.cmds.filter fun x => x.ref != ref := by
  unfold complete
  (repeat' split) <;> simp [State.endCmd, writeRecord]

/-- R86: a completed command is no longer in flight. -/
theorem complete_cmd? (s : State) (ref : CmdRef) (st : W16) (v : Res) : (complete ref st v s).cmd? ref = none := by
  simp [State.cmd?, complete_cmds, List.find?_eq_none]

/-- R48, R85: what a command in flight is completed from. -/
theorem Completable.parts {s : State} {ref : CmdRef} (h : Completable ref s) :
    ∃ c r, s.cmd? ref = some c ∧ s.ring? ref.die ref.ring = some r ∧ c.ref = ref ∧ r.die = ref.die ∧ r.idx = ref.ring := by
  obtain ⟨c, hc⟩ := Option.isSome_iff_exists.1 h.cmd
  obtain ⟨r, hr⟩ := Option.isSome_iff_exists.1 h.ring
  have h1 : c.ref = ref := by simpa using List.find?_some hc
  have h2 := List.find?_some hr
  simp only [Bool.and_eq_true, beq_iff_eq] at h2
  exact ⟨c, r, hc, hr, h1, h2.1, h2.2⟩

/-- R85: a completion whose command its ring's own die carried out puts its record out with what it says, and ends the command. -/
theorem complete_writes {s : State} {ref : CmdRef} (h : Completable ref s) (st : W16) (v : Res)
    (ha : (s.cmd? ref).any Cmd.away = false) :
    (∃ r : Completion, r.status = st ∧ r.result = v.result ∧ r.ndone = BitVec.ofNat 32 v.ndone ∧ r.part = v.part ∧
      r.retry = v.retry ∧ r.extra = v.extra ∧ Puts s (complete ref st v s) (.completion ref r)) := by
  obtain ⟨c, r, hc, hr, hcr, -, -⟩ := h.parts
  simp only [hc, Option.any_some] at ha
  unfold complete
  simp only [hc, hr, h.runs, h.link, ha, Bool.false_or, Bool.not_true, Bool.false_eq_true, if_false, writeRecord, hcr]
  have grow (x : State) : Grows x (sendMsix r.die r.fn r.vector (meterCompletion c
      (writeNote r c st (cflags v.part v.retry c.late) (x.emit (.own ref (ctrlOf c.entry)))))) :=
    (emit_grows x (.own ref (ctrlOf c.entry))).trans ((writeNote_grows _ r c st (cflags v.part v.retry c.late)).trans
      (Grows.of_eq (by simp)))
  let rec1 : Completion :=
    { status := st, head := r.index r.head, result := v.result, ndone := BitVec.ofNat 32 v.ndone,
      lat := BitVec.ofNat 32 (min top32 (s.clk.tick - c.bell)), tstamp := s.clk.optime, part := v.part,
      retry := v.retry, late := c.late, extra := v.extra }
  obtain ⟨b, hb⟩ := grow ((s.endCmd ref).emit (.completion ref rec1))
  exact ⟨rec1, rfl, rfl, rfl, rfl, rfl, rfl, [], b, by
    simp only [State.endCmd, State.emit] at hb ⊢
    rw [hb]; simp⟩

/-- R48: a completion whose command another die carried out sets out for the ring's die with what it says. -/
theorem complete_returns {s : State} {ref : CmdRef} (h : Completable ref s) (st : W16) (v : Res)
    (ha : (s.cmd? ref).any Cmd.away = true) : SentBack s (complete ref st v s) ref st v := by
  obtain ⟨c, r, hc, hr, hcr, hd, hi⟩ := h.parts
  refine ⟨ha, ?_⟩
  simp only [hc, Option.any_some] at ha
  unfold complete
  simp only [hc, hr, h.runs, h.link, ha, Bool.false_or, Bool.not_true, Bool.false_eq_true, if_false, if_true]
  refine ⟨{ r with backs := r.backs ++ [⟨c, st, v, s.clk.tick⟩] }, ⟨c, st, v, s.clk.tick⟩, ?_, by simp, hcr, rfl, rfl, rfl⟩
  rw [updRing_ring? (s.endCmd ref) r.die r.idx (fun x => { x with backs := x.backs ++ [⟨c, st, v, s.clk.tick⟩] })
    (fun _ => ⟨rfl, rfl⟩)]
  have hr' : (s.endCmd ref).ring? ref.die ref.ring = some r := hr
  simp [hr']

/-- R48, R85: a completion ends its command with what it says. -/
theorem complete_completes {s : State} {ref : CmdRef} (h : Completable ref s) (st : W16) (v : Res) :
    Completes s (complete ref st v s) ref st v := by
  refine ⟨?_, complete_cmd? ..⟩
  cases ha : (s.cmd? ref).any Cmd.away
  · exact .inl (complete_writes h st v ha)
  · exact .inr (complete_returns h st v ha)

/-! ### Dispatch -/

@[simp] theorem newRound_die (r : Ring) : (newRound r).die = r.die := rfl
@[simp] theorem newRound_idx (r : Ring) : (newRound r).idx = r.idx := rfl

@[simp] theorem advance_die (s : State) (r : Ring) : (advance s r).die = r.die := by
  unfold advance; cases h : (classTurn s r).2 <;> simp [h]

@[simp] theorem advance_idx (s : State) (r : Ring) : (advance s r).idx = r.idx := by
  unfold advance; cases h : (classTurn s r).2 <;> simp [h]

/-- R92, R100: a ring moves on where it stands. -/
theorem advanceRings_ring? (s : State) (r : Ring) (op : Op) (e : Entry) :
    (advanceRings r op e s).ring? r.die r.idx = (s.ring? r.die r.idx).map fun _ => advance s r := by
  simp only [advanceRings, State.ring?]
  induction s.rings with
  | nil => rfl
  | cons q l ih =>
    simp only [List.map_cons, List.find?_cons]
    cases hq : (q.die == r.die && q.idx == r.idx)
    · have key (b : Bool) : ((if b = true then newRound q else q).die == r.die && (if b = true then newRound q else q).idx == r.idx) = false := by
        cases b <;> exact hq
      simp only [Bool.false_eq_true, if_false, key]
      exact ih
    · simp

theorem ring?_some {s : State} {d i : Nat} {r : Ring} (h : s.ring? d i = some r) : r.die = d ∧ r.idx = i := by
  have := List.find?_some h
  simpa using this

/-- R92: the command that a taken entry becomes is in flight. -/
theorem Taken.cmd {op : Op} {p : Post} {r : Ring} {s : State} (h : Taken op p r s) :
    (startOf op p r s).cmd? r.ref = some (cmdOf op p r s) := by
  have ht := h.ready
  simp only [takes, Bool.and_eq_true] at ht
  simp only [hasHead, Bool.and_eq_true] at ht
  have hn : s.cmd? r.ref = none := by simpa using ht.1.1.1.1.2.1.2
  simp only [State.cmd?, dispatched, charge_cmds, advanceRings_cmds, List.find?_append] at hn ⊢
  rw [hn]
  simp [newCmd]

theorem charge_rings' (s : State) (r : Ring) (op : Op) (e : Entry) (d i : Nat) : (charge r op e s).ring? d i = s.ring? d i := by
  simp [State.ring?]

/-- R92: the ring of a taken entry has moved past it. -/
theorem Taken.ring_after {op : Op} {p : Post} {r : Ring} {s : State} (h : Taken op p r s) :
    (startOf op p r s).ring? r.die r.idx = some (advance s r) := by
  have hr := h.ring
  obtain ⟨hd, hi⟩ := ring?_some hr
  have hs : (startOf op p r s).ring? r.die r.idx = (advanceRings r op p.entry s).ring? r.die r.idx := by
    simp [State.ring?, dispatched]
  rw [hs, advanceRings_ring?, show s.ring? r.die r.idx = some r by rw [hd, hi]; exact hr]
  rfl

theorem Taken.running {op : Op} {p : Post} {r : Ring} {s : State} (h : Taken op p r s) : s.running = true := by
  have := h.ready
  simp only [takes, dispatching, Bool.and_eq_true] at this
  exact this.1.1.1.1.1.1.1.1.1

theorem Taken.link {op : Op} {p : Post} {r : Ring} {s : State} (h : Taken op p r s) :
    (s.die? r.die).any (·.linkUp) = true := by
  have := h.ready
  simp only [takes, Bool.and_eq_true] at this
  exact this.1.1.1.1.1.2

/-- R85, R92: the command that a taken entry becomes can be completed. -/
theorem Taken.completable {op : Op} {p : Post} {r : Ring} {s : State} (h : Taken op p r s) :
    Completable r.ref (startOf op p r s) where
  cmd := by simp [h.cmd]
  ring := by simp [Ring.ref, h.ring_after]
  runs := by
    have := h.running
    simp only [State.running, Bool.and_eq_true, Bool.not_eq_true'] at this
    simpa using this.1.2
  link := by
    have := h.link
    simpa [State.die?, Ring.ref] using this

/-- R85, R92: every row that posts an entry dispatches it and starts its operation. -/
theorem exec_rowOf (op : Op) (p : Post) (s : State) : exec (rowOf op p) s =
    .next (after op (dispatchEntry op p (beginOp op) s)) := by
  cases op <;> rfl

/-- R96, R108: a taken entry that names its buffer directly starts its command. -/
theorem Direct.dispatch {op : Op} {p : Post} {r : Ring} {s : State} (h : Direct op p r s) (f : CmdRef → State → State) :
    dispatchEntry op p f s = f r.ref (startOf op p r s) := by
  simp [dispatchEntry, h.ring, h.ready, h.good, h.direct]

/-- R478: a permitted control command carries out its body. -/
theorem Permitted.dispatch {op : Op} {p : Post} {r : Ring} {s : State} (h : Permitted op p r s) (f : Cmd → State → State) :
    dispatchEntry op p (control f) s = f (cmdOf op p r s) (startOf op p r s) := by
  rw [h.toDirect.dispatch]
  have hb : ((cmdOf op p r s).bufErr && inputFits (startOf op p r s) (cmdOf op p r s) == some true) = false := h.read
  simp [control, h.toDirect.toTaken.cmd, h.allowed, h.free, hb]

/-- R85, R92: the completion, in a state that changed only in what a completion does not depend on, of a command that a
taken entry became. -/
theorem Taken.completes {op : Op} {p : Post} {r : Ring} {s u : State} (h : Taken op p r s) (st : W16) (v : Res)
    (hc : u.cmds = (startOf op p r s).cmds) (hr : u.rings = (startOf op p r s).rings) (hd : u.dies = s.dies)
    (hh : u.run.halted = s.run.halted) (ho : ∃ a, u.out = s.out ++ a) : Completes s (complete r.ref st v u) r.ref st v := by
  have k := h.completable
  have hcu : u.cmd? r.ref = some (cmdOf op p r s) := by simpa [State.cmd?, hc] using h.cmd
  have ku : Completable r.ref u := ⟨by simp [hcu], by have := k.ring; simpa [State.ring?, hr] using this,
    by have := k.runs; simpa [hh] using this, by have := k.link; simpa [State.die?, hd] using this⟩
  obtain ⟨x, hx⟩ := ho
  obtain ⟨r1, a1, a2, a3, a4, a5, a6, a, b, e⟩ := complete_writes ku st v (by simp [hcu, newCmd, Cmd.away])
  exact ⟨.inl ⟨r1, a1, a2, a3, a4, a5, a6, x ++ a, b, by rw [e, hx]; simp⟩, complete_cmd? ..⟩

end Sys2Proof.Machine
end

