-- ==== Sys2Proof/Laws/Frame.lean ====
section
/-! SUPPORT. Frames: how they compose, and the frames of the shared operations of events, completions and dispatch. -/

namespace Sys2Proof.Machine
set_option Elab.async false
set_option linter.unusedTactic false
set_option linter.unreachableTactic false
set_option linter.unusedSimpArgs false
set_option linter.unusedVariables false

theorem Frame.refl (s : State) (l : List Field) : Frame s s l := ⟨fun f _ => by cases f <;> rfl⟩

theorem Field.same_trans {f : Field} {s t u : State} (h : f.same s t) (k : f.same t u) : f.same s u := by
  cases f <;> exact Eq.trans k h

theorem Frame.trans {s t u : State} {l : List Field} (h : Frame s t l) (k : Frame t u l) : Frame s u l :=
  ⟨fun f n => Field.same_trans (h.same f n) (k.same f n)⟩

theorem Frame.mono {s t : State} {l m : List Field} (h : Frame s t l) (e : ∀ f ∈ l, f ∈ m) : Frame s t m :=
  ⟨fun f n => h.same f fun k => n (e f k)⟩

/-- A change of one of the dies that keeps all but the listed parts. -/
theorem modify_map {β : Type} (g : DieSt → β) (f : DieSt → DieSt) (h : ∀ x, g (f x) = g x) (l : List DieSt) (d : Nat) :
    (l.modify d f).map g = l.map g := by
  induction l generalizing d with
  | nil => cases d <;> rfl
  | cons a l ih =>
    cases d with
    | zero => simp [h]
    | succ n => simp [ih]

theorem updHw_frame (s : State) (d : Nat) (f : HwSt → HwSt) : Frame s (s.updHw d f) [.hw] := by
  refine ⟨fun k hk => ?_⟩
  cases k <;> first | rfl | (refine modify_map _ _ ?_ _ _; intro _; rfl) | simp at hk

theorem updJr_frame (s : State) (d : Nat) (f : JournalSt → JournalSt) : Frame s (s.updJr d f) [.jr] := by
  refine ⟨fun k hk => ?_⟩
  cases k <;> first | rfl | (refine modify_map _ _ ?_ _ _; intro _; rfl) | simp at hk

theorem updRec_frame (s : State) (d : Nat) (f : RecorderSt → RecorderSt) : Frame s (s.updRec d f) [.recd] := by
  refine ⟨fun k hk => ?_⟩
  cases k <;> first | rfl | (refine modify_map _ _ ?_ _ _; intro _; rfl) | simp at hk

theorem updEvt_frame (s : State) (d : Nat) (f : EvtSt → EvtSt) : Frame s (s.updEvt d f) [.evt] := by
  refine ⟨fun k hk => ?_⟩
  cases k <;> first | rfl | (refine modify_map _ _ ?_ _ _; intro _; rfl) | simp at hk

theorem updLink_frame (s : State) (d : Nat) (f : LinkSt → LinkSt) : Frame s (s.updLink d f) [.link] := by
  refine ⟨fun k hk => ?_⟩
  cases k <;> first | rfl | (refine modify_map _ _ ?_ _ _; intro _; rfl) | simp at hk

theorem updFrame_frame (s : State) (d : Nat) (f : FrameSt → FrameSt) : Frame s (s.updFrame d f) [.frame] := by
  refine ⟨fun k hk => ?_⟩
  cases k <;> first | rfl | (refine modify_map _ _ ?_ _ _; intro _; rfl) | simp at hk

theorem updRfl_frame (s : State) (d : Nat) (f : DieRfl → DieRfl) : Frame s (s.updRfl d f) [.rfl] := by
  refine ⟨fun k hk => ?_⟩
  cases k <;> first | rfl | (refine modify_map _ _ ?_ _ _; intro _; rfl) | simp at hk

theorem updFn_frame (s : State) (d f : Nat) (g : FnSt → FnSt) : Frame s (s.updFn d f g) [.fns] := by
  refine ⟨fun k hk => ?_⟩
  unfold State.updFn
  split <;> cases k <;> first | rfl | simp at hk

theorem updRing_frame (s : State) (d i : Nat) (f : Ring → Ring) : Frame s (s.updRing d i f) [.rings] := by
  refine ⟨fun k hk => ?_⟩
  cases k <;> first | rfl | simp at hk

theorem updPool_frame (s : State) (n : Nat) (f : Pool → Pool) : Frame s (s.updPool n f) [.pools] := by
  refine ⟨fun k hk => ?_⟩
  cases k <;> first | rfl | simp at hk

theorem updVol_frame (s : State) (n : Nat) (f : Vol → Vol) : Frame s (s.updVol n f) [.vols] := by
  refine ⟨fun k hk => ?_⟩
  cases k <;> first | rfl | simp at hk

theorem updNs_frame (s : State) (n : Nat) (f : Ns → Ns) : Frame s (s.updNs n f) [.nss] := by
  refine ⟨fun k hk => ?_⟩
  cases k <;> first | rfl | simp at hk

theorem updCmd_frame (s : State) (c : CmdRef) (f : Cmd → Cmd) : Frame s (s.updCmd c f) [.cmds] := by
  refine ⟨fun k hk => ?_⟩
  cases k <;> first | rfl | simp at hk

theorem emit_frame (s : State) (o : Out) : Frame s (s.emit o) [.out] := by
  refine ⟨fun k hk => ?_⟩
  cases k <;> first | rfl | simp at hk

theorem endCmd_frame (s : State) (c : CmdRef) : Frame s (s.endCmd c) [.cmds, .mcmds] := by
  refine ⟨fun k hk => ?_⟩
  cases k <;> first | rfl | simp at hk

theorem updTenant_frame (s : State) (n : Nat) (f : Tenant → Tenant) : Frame s (s.updTenant n f) [.tenants, .meters] := by
  refine ⟨fun k hk => ?_⟩
  cases k <;> first | rfl | simp at hk

theorem updMeters_frame (s : State) (n : Nat) (f : Meters → Meters) : Frame s (s.updMeters n f) [.meters] := by
  refine ⟨fun k hk => ?_⟩
  cases k with
  | meters => simp at hk
  | tenants =>
    simp only [Field.same, State.updMeters, State.updTenant, updIf, List.map_map, List.map_inj_left, Function.comp]
    intro x _
    split <;> rfl
  | _ => rfl

/-- R105: a message is due. -/
theorem sendMsix_frame (d fn vec : Nat) (s : State) : Frame s (sendMsix d fn vec s) [.msixSent] := by
  unfold sendMsix
  repeat' split
  all_goals first
    | exact Frame.refl ..
    | (refine ⟨fun k hk => ?_⟩; cases k <;> first | rfl | (simp at hk; done))

theorem signalEvent_frame (d code : Nat) (s : State) : Frame s (signalEvent d code s) [.evt, .msixSent] := by
  unfold signalEvent
  split
  · exact Frame.refl ..
  · dsimp only
    split
    · exact ((updEvt_frame ..).mono (by decide)).trans ((sendMsix_frame ..).mono (by decide))
    · exact (updEvt_frame ..).mono (by decide)

/-- What the recorder of a die may change: its records, and the pending bits and messages of its own events. -/
abbrev recorded : List Field := [.evt, .recd, .msixSent]

/-- R416: a record programmed, or dropped; the last slot signals 8002h. -/
theorem programRec_frame (d : Nat) (r : Rec) (s : State) : Frame s (programRec d r s) recorded := by
  have e (f) (x : State) : Frame x (x.updRec d f) recorded := (updRec_frame ..).mono (by decide)
  unfold programRec
  split
  · exact Frame.refl ..
  · (repeat' split) <;> first | exact (e ..).trans ((signalEvent_frame ..).mono (by decide)) | exact e ..

theorem placeRec_frame (d : Nat) (r : Rec) (s : State) : Frame s (placeRec d r s) recorded := by
  have e (f) (x : State) : Frame x (x.updRec d f) recorded := (updRec_frame ..).mono (by decide)
  unfold placeRec
  (repeat' split) <;> first | exact e .. | exact programRec_frame ..

theorem summary_frame (d : Nat) (s : State) (r : RateCnt) : Frame s (summary d s r) recorded :=
  ((signalEvent_frame ..).mono (by decide)).trans (placeRec_frame ..)

/-- A fold of changes that each keep a frame keeps it. -/
theorem foldl_frame {α : Type} {l : List Field} (f : State → α → State) (h : ∀ s a, Frame s (f s a) l) (s : State) (as : List α) :
    Frame s (as.foldl f s) l := by
  induction as generalizing s with
  | nil => exact Frame.refl ..
  | cons a as ih => exact (h s a).trans (ih _)

theorem rollWindow_frame (d : Nat) (s : State) : Frame s (rollWindow d s) recorded := by
  unfold rollWindow
  split
  · exact Frame.refl ..
  · dsimp only
    split
    · exact Frame.refl ..
    · exact ((updRec_frame ..).mono (by decide)).trans (foldl_frame _ (fun s r => summary_frame d s r) ..)

theorem recordEvent_frame (d code : Nat) (x : Detail) (s : State) : Frame s (recordEvent d code x s) recorded := by
  unfold recordEvent
  dsimp only
  split
  · exact rollWindow_frame ..
  · refine (rollWindow_frame d s).trans ?_
    have e (f) (x : State) : Frame x (x.updRec d f) recorded := (updRec_frame ..).mono (by decide)
    split
    · exact (e ..).trans (placeRec_frame ..)
    · exact e ..

/-- R405: an event changes the EVT block and the recorder of a die, and sends or holds a message. -/
theorem raise_frame (d code : Nat) (x : Detail) (s : State) : Frame s (raise d code x s) raising := by
  unfold raise
  dsimp only
  have h : Frame s (signalEvent d code s) raising := (signalEvent_frame ..).mono (by decide)
  split
  · exact h.trans ((recordEvent_frame ..).mono (by decide))
  · exact h

theorem raisePkg_frame (code : Nat) (x : Detail) (s : State) : Frame s (raisePkg code x s) raising := raise_frame ..

theorem ladder_frame (step code d : Nat) (s : State) : Frame s (ladder step code d s) [.reg] := by
  unfold ladder
  split
  · refine ⟨fun k hk => ?_⟩
    cases k <;> first | rfl | simp at hk
  · exact Frame.refl ..

theorem writeNote_frame (r : Ring) (c : Cmd) (st : W16) (fl : Byte) (s : State) :
    Frame s (writeNote r c st fl s) (.rings :: raising) := by
  unfold writeNote
  repeat' split
  · exact Frame.refl ..
  · exact Frame.refl ..
  · exact ((updRing_frame ..).mono (by decide)).trans ((emit_frame ..).mono (by decide))
  · exact ((updRing_frame ..).mono (by decide)).trans ((raise_frame ..).mono (by decide))

theorem meterCompletion_frame (c : Cmd) (s : State) : Frame s (meterCompletion c s) [.meters] := by
  unfold meterCompletion
  split
  · exact Frame.refl ..
  · exact updMeters_frame ..

/-- R85, R86: what a written completion can change. -/
theorem writeRecord_frame (r : Ring) (c : Cmd) (st : W16) (v : Res) (s : State) : Frame s (writeRecord r c st v s) ending := by
  have e (x : State) (o : Out) : Frame x (x.emit o) ending := (emit_frame ..).mono (by decide)
  exact ((((e ..).trans (e ..)).trans ((writeNote_frame ..).mono (by decide))).trans
    ((meterCompletion_frame ..).mono (by decide))).trans ((sendMsix_frame ..).mono (by decide))

/-- R85: what a completion can change. -/
theorem complete_frame (ref : CmdRef) (st : W16) (v : Res) (s : State) : Frame s (complete ref st v s) ending := by
  unfold complete
  have h : Frame s (s.endCmd ref) ending := (endCmd_frame ..).mono (by decide)
  split
  · dsimp only
    (repeat' split)
    · exact h
    · exact h.trans ((updRing_frame ..).mono (by decide))
    · exact h.trans (writeRecord_frame ..)
  · exact h

theorem fail_frame (ref : CmdRef) (st : W16) (s : State) : Frame s (fail ref st s) ending := complete_frame ..

theorem ok_frame (ref : CmdRef) (n : Nat) (s : State) : Frame s (ok ref n s) ending := complete_frame ..

theorem busy_frame (ref : CmdRef) (s : State) : Frame s (busy ref s) ending := complete_frame ..

theorem okBuffer_frame (c : Cmd) (b : Bytes) (n m : Nat) (s : State) : Frame s (okBuffer c b n m s) ending :=
  ((emit_frame ..).mono (by decide)).trans (complete_frame ..)

theorem charge_frame (r : Ring) (op : Op) (e : Entry) (s : State) : Frame s (charge r op e s) [.buckets] := by
  unfold charge
  repeat' split
  · exact Frame.refl ..
  · exact Frame.refl ..
  · refine ⟨fun k hk => ?_⟩
    cases k <;> first | rfl | simp at hk

theorem advanceRings_frame (r : Ring) (op : Op) (e : Entry) (s : State) : Frame s (advanceRings r op e s) [.arb, .rings] := by
  refine ⟨fun k hk => ?_⟩
  cases k <;> first | rfl | simp at hk

/-- R92: what the dispatch of an entry changes. -/
theorem dispatched_frame (r : Ring) (op : Op) (p : Post) (s : State) :
    Frame s (dispatched r op p s) [.arb, .rings, .buckets, .cmds] := by
  have h : Frame s (charge r op p.entry (advanceRings r op p.entry s)) [.arb, .rings, .buckets, .cmds] :=
    ((advanceRings_frame ..).mono (by decide)).trans ((charge_frame ..).mono (by decide))
  refine h.trans ?_
  refine ⟨fun k hk => ?_⟩
  cases k <;> first | rfl | simp at hk

end Sys2Proof.Machine
end

