-- ==== Sys2Proof/Laws/Memory.lean ====
section
/-! SUPPORT. The memory operations: they keep the canonical form, a read after a write gives what was written, and a
write leaves every other byte alone. -/

namespace Sys2Proof.Machine
set_option Elab.async false

theorem wfFrom_mono {lo hi : Nat} (h : lo ≤ hi) {m : List Host.Cell} (w : wfFrom hi m = true) : wfFrom lo m = true := by
  cases m with
  | nil => rfl
  | cons c m =>
    simp only [wfFrom, Bool.and_eq_true, decide_eq_true_eq] at w ⊢
    exact ⟨⟨h.trans w.1.1, w.1.2⟩, w.2⟩

theorem writeByte_wfFrom {lo x : Nat} (h : lo ≤ x) (v : Byte) (m : List Host.Cell) (w : wfFrom lo m = true) :
    wfFrom lo (writeByte x v m) = true := by
  induction m generalizing lo with
  | nil =>
    simp only [writeByte]
    split <;> simp_all [wfFrom]
  | cons c m ih =>
    obtain ⟨a, b⟩ := c
    simp only [wfFrom, Bool.and_eq_true, decide_eq_true_eq, bne_iff_ne, ne_eq] at w
    simp only [writeByte]
    repeat' split
    · simp [wfFrom, w]
    · rename_i hx hv
      simp [wfFrom, w, h, hv]
      assumption
    · subst_vars
      exact wfFrom_mono (by omega) w.2
    · rename_i hv
      subst_vars
      simp [wfFrom, w, hv]
    · simp [wfFrom, w, ih (lo := a + 1) (by omega) w.2]

/-- R344: a byte written keeps the canonical form. -/
theorem writeByte_memWf (x : Nat) (v : Byte) {m : List Host.Cell} (w : memWf m = true) : memWf (writeByte x v m) = true :=
  writeByte_wfFrom (Nat.zero_le _) v m w

/-- R344: bytes written keep the canonical form. -/
theorem writeBytes_memWf (x : Nat) (l : Bytes) {m : List Host.Cell} (w : memWf m = true) :
    memWf (writeBytes x l m) = true := by
  induction l generalizing x m with
  | nil => exact w
  | cons v l ih => exact ih _ (writeByte_memWf x v w)

theorem readByte_below {lo x : Nat} (h : x < lo) {m : List Host.Cell} (w : wfFrom lo m = true) : readByte m x = blank := by
  cases m with
  | nil => rfl
  | cons c m =>
    simp only [wfFrom, Bool.and_eq_true, decide_eq_true_eq] at w
    have : x < c.1 := by omega
    simp [readByte, this, Nat.ne_of_lt this]

theorem readByte_writeByte_from {lo : Nat} (x : Nat) (v : Byte) (m : List Host.Cell) (w : wfFrom lo m = true) (y : Nat) :
    readByte (writeByte x v m) y = if y = x then v else readByte m y := by
  induction m generalizing lo with
  | nil =>
    simp only [writeByte]
    split <;> simp_all [readByte]
  | cons c m ih =>
    obtain ⟨a, b⟩ := c
    simp only [wfFrom, Bool.and_eq_true, decide_eq_true_eq] at w
    have below (z : Nat) (hz : z ≤ a) : readByte m z = blank := readByte_below (lo := a + 1) (by omega) w.2
    simp only [writeByte]
    by_cases h1 : x < a
    · simp only [h1, if_true]
      by_cases hv : v = blank
      · simp only [hv, if_true, readByte]
        split <;> split <;> (try split) <;> first | rfl | omega
      · simp only [hv, if_false, readByte]
        repeat' split
        all_goals first | rfl | omega
    · by_cases h2 : x = a
      · subst h2
        simp only [Nat.lt_irrefl, if_false, if_true]
        by_cases hv : v = blank
        · simp only [hv, if_true, readByte]
          by_cases hy : y = x
          · simp [hy, below x (Nat.le_refl _)]
          · simp only [hy, if_false]
            by_cases hl : y < x
            · simp [hl, below y (by omega)]
            · simp [hl]
        · simp only [hv, if_false, readByte]
          repeat' split
          all_goals first | rfl | omega
      · simp only [h1, h2, if_false, readByte]
        by_cases hy : y = a
        · simp [hy, Ne.symm h2]
        · simp only [hy, if_false]
          by_cases hl : y < a
          · have : y ≠ x := by omega
            simp [hl, this]
          · simp [hl, ih w.2]

/-- R344: a byte reads as written, and every other byte as before. -/
theorem readByte_writeByte (x : Nat) (v : Byte) {m : List Host.Cell} (w : memWf m = true) (y : Nat) :
    readByte (writeByte x v m) y = if y = x then v else readByte m y :=
  readByte_writeByte_from x v m w y

/-- R344: bytes written leave every byte outside them as it was. -/
theorem readByte_writeBytes_outside (x : Nat) (l : Bytes) {m : List Host.Cell} (w : memWf m = true) (y : Nat)
    (h : y < x ∨ x + l.length ≤ y) : readByte (writeBytes x l m) y = readByte m y := by
  induction l generalizing x m with
  | nil => rfl
  | cons v l ih =>
    simp only [List.length_cons] at h
    rw [writeBytes, ih (x + 1) (writeByte_memWf x v w) (by omega), readByte_writeByte x v w, if_neg (by omega)]

/-- R344: bytes written read back. -/
theorem readBytes_writeBytes (x : Nat) (l : Bytes) {m : List Host.Cell} (w : memWf m = true) :
    readBytes (writeBytes x l m) x l.length = l := by
  induction l generalizing x m with
  | nil => rfl
  | cons v l ih =>
    have w1 := writeByte_memWf x v w
    simp only [List.length_cons, readBytes, writeBytes]
    rw [ih (x + 1) w1, readByte_writeBytes_outside (x + 1) l w1 x (by omega), readByte_writeByte x v w, if_pos rfl]

end Sys2Proof.Machine
end

