-- ==== Sys2Proof/Laws/Seen.lean ====
section
/-! SUPPORT. What the invariant of a step looks at, and how a change of the state keeps it. -/

namespace Sys2Proof.Machine
set_option Elab.async false
set_option linter.unusedTactic false
set_option linter.unreachableTactic false
set_option linter.unusedSimpArgs false
set_option linter.unusedVariables false

/-- What the invariant, the tick and the queue depend on. -/
structure Seen where
  part : Part
  tick : Nat
  mems : List (List Host.Cell × List Host.Cell)
  halted : Bool
  faultN : List Nat
  regions : List (List Host.Cell)
  wins : List (List Host.Cell)
  pending : List Instr

/-- What is seen of a state. -/
def State.seen (s : State) : Seen :=
  ⟨s.id.part, s.clk.tick, s.dies.map dieMem, s.run.halted, s.run.faultN, s.refl.regions.map (·.mem), s.refl.wins.map (·.mem),
   s.pending⟩

@[simp] theorem seen_mk (id clk dies rings fns cmds seq cache mcmds destages uniq pools vols tenants buckets nss refl pair pw
    run fw log meter feat reg nextPlan uids eid msixSent arb grants tests out free pending) :
    State.seen ⟨id, clk, dies, rings, fns, cmds, seq, cache, mcmds, destages, uniq, pools, vols, tenants, buckets, nss, refl,
      pair, pw, run, fw, log, meter, feat, reg, nextPlan, uids, eid, msixSent, arb, grants, tests, out, free, pending⟩ =
    ⟨id.part, clk.tick, dies.map dieMem, run.halted, run.faultN, refl.regions.map (·.mem), refl.wins.map (·.mem), pending⟩ :=
  rfl

@[simp] theorem seen_fold (s : State) :
    (⟨s.id.part, s.clk.tick, s.dies.map dieMem, s.run.halted, s.run.faultN, s.refl.regions.map (·.mem),
      s.refl.wins.map (·.mem), s.pending⟩ : Seen) = s.seen := rfl

theorem modify_mem (l : List DieSt) (d : Nat) (f : DieSt → DieSt) (h : ∀ x, dieMem (f x) = dieMem x) :
    (l.modify d f).map dieMem = l.map dieMem := by
  induction l generalizing d with
  | nil => cases d <;> rfl
  | cons a l ih =>
    cases d with
    | zero => simp [h]
    | succ n => simp [ih]

theorem map_mem (l : List DieSt) (f : DieSt → DieSt) (h : ∀ x, dieMem (f x) = dieMem x) :
    (l.map f).map dieMem = l.map dieMem := by
  simp [h, Function.comp_def]

theorem zipIdx_mem (l : List DieSt) (n : Nat) (f : DieSt × Nat → DieSt) (h : ∀ x, dieMem (f x) = dieMem x.1) :
    ((l.zipIdx n).map f).map dieMem = l.map dieMem := by
  induction l generalizing n with
  | nil => rfl
  | cons a l ih => simp only [List.zipIdx_cons, List.map_cons, h, ih]

theorem map_comp_mem (f : DieSt → DieSt) (h : ∀ x, dieMem (f x) = dieMem x) (l : List DieSt) :
    l.map (dieMem ∘ f) = l.map dieMem := by rw [← List.map_map, map_mem _ _ h]

theorem zipIdx_comp_mem (f : DieSt × Nat → DieSt) (h : ∀ x, dieMem (f x) = dieMem x.1) (l : List DieSt) (n : Nat) :
    (l.zipIdx n).map (dieMem ∘ f) = l.map dieMem := by rw [← List.map_map, zipIdx_mem _ _ _ h]

theorem updIf_map {α β : Type} (g : α → β) (p : α → Bool) (f : α → α) (h : ∀ x, g (f x) = g x) (l : List α) :
    (updIf p f l).map g = l.map g := by
  simp only [updIf, List.map_map, List.map_inj_left, Function.comp]
  intro x _
  split <;> simp [h]

theorem dies_seen (s : State) (l : List DieSt) (h : l.map dieMem = s.dies.map dieMem) :
    ({ s with dies := l } : State).seen = s.seen := by simp [h]

theorem updDie_seen (s : State) (d : Nat) (f : DieSt → DieSt) (h : ∀ x, dieMem (f x) = dieMem x) :
    (s.updDie d f).seen = s.seen := dies_seen _ _ (modify_mem _ _ _ h)

@[simp] theorem updHw_seen (s : State) (d f) : (s.updHw d f).seen = s.seen := updDie_seen _ _ _ fun _ => rfl
@[simp] theorem updJr_seen (s : State) (d f) : (s.updJr d f).seen = s.seen := updDie_seen _ _ _ fun _ => rfl
@[simp] theorem updRec_seen (s : State) (d f) : (s.updRec d f).seen = s.seen := updDie_seen _ _ _ fun _ => rfl
@[simp] theorem updEvt_seen (s : State) (d f) : (s.updEvt d f).seen = s.seen := updDie_seen _ _ _ fun _ => rfl
@[simp] theorem updLink_seen (s : State) (d f) : (s.updLink d f).seen = s.seen := updDie_seen _ _ _ fun _ => rfl
@[simp] theorem updFrame_seen (s : State) (d f) : (s.updFrame d f).seen = s.seen := updDie_seen _ _ _ fun _ => rfl

@[simp] theorem updRecs_seen (s : State) (f) : (s.updRecs f).seen = s.seen := dies_seen _ _ (map_mem _ _ fun _ => rfl)

theorem updRfl_seen (s : State) (d : Nat) (f : DieRfl → DieRfl)
    (h : ∀ q, (f q).counters = q.counters ∧ (f q).mirror = q.mirror) : (s.updRfl d f).seen = s.seen :=
  updDie_seen _ _ _ fun x => by simp [dieMem, h]

theorem updRefl_seen (s : State) (f : ReflSt → ReflSt) (hr : (f s.refl).regions.map (·.mem) = s.refl.regions.map (·.mem))
    (hw : (f s.refl).wins.map (·.mem) = s.refl.wins.map (·.mem)) : (s.updRefl f).seen = s.seen := by
  simp [State.updRefl, hr, hw]

theorem foldl_seen {α : Type} (g : State → α → State) (h : ∀ s a, (g s a).seen = s.seen) (l : List α) (s : State) :
    (l.foldl g s).seen = s.seen := by
  induction l generalizing s with
  | nil => rfl
  | cons a l ih => simp [ih, h]

theorem foldl_seen_eq {α : Type} (g : State → α → State) (l : List α) (s : State) (z : Seen) (h0 : s.seen = z)
    (h : ∀ s a, (g s a).seen = s.seen) : (l.foldl g s).seen = z := by rw [foldl_seen g h, h0]

theorem snd_seen {α : Type} {p : α × State} {a : α} {t : State} {z : Seen} (e : p = (a, t)) (h : p.2.seen = z) :
    t.seen = z := by rw [← h, e]

@[simp] theorem fresh_seen (s : State) : s.fresh.2.seen = s.seen := rfl

@[simp] theorem freshUid_seen (s : State) : (freshUid s).2.seen = s.seen := rfl

@[simp] theorem engineTest_seen (s : State) : (engineTest s).2.seen = s.seen := rfl

@[simp] theorem nextMsg_seen (d : Nat) (s : State) : (nextMsg d s).2.seen = s.seen := by
  unfold nextMsg
  split
  · exact updRfl_seen _ _ _ fun _ => ⟨rfl, rfl⟩
  · rfl

@[simp] theorem adminTo_seen (ns d : Nat) (a : Admin) (s : State) : (adminTo ns d a s).seen = s.seen := by
  unfold adminTo; split <;> rfl

@[simp] theorem adminFirst_seen (ns : Nat) (a : Admin) (s : State) : (adminFirst ns a s).seen = s.seen := by
  unfold adminFirst; split <;> simp

@[simp] theorem openPath_seen (ns d : Nat) (s : State) : (openPath ns d s).seen = s.seen := by
  unfold openPath
  exact foldl_seen (fun s c => adminTo ns d c s) (fun _ _ => adminTo_seen ..) _ _

@[simp] theorem closePath_seen (ns d : Nat) (s : State) : (closePath ns d s).seen = s.seen := by
  unfold closePath
  exact foldl_seen (fun s i => adminTo ns d (.deleteCq (i + 1)) (adminTo ns d (.deleteSq (i + 1)) s)) (fun _ _ => by simp) _ _

@[simp] theorem registerPaths_seen (ns : Nat) (ds : List Nat) (s : State) : (registerPaths ns ds s).seen = s.seen := by
  unfold registerPaths
  split
  · exact foldl_seen (fun s d => s.emit (.reserve ns d 0 (reserveKey s (pathOn d)))) (fun _ _ => rfl) _ _
  · rfl

@[simp] theorem learnNs_seen (i : NsInfo) (s : State) : (learnNs i s).2.seen = s.seen := by
  unfold learnNs
  split
  · exact (registerPaths_seen ..).trans ((foldl_seen _ (fun _ _ => openPath_seen ..) _ _).trans
      ((foldl_seen _ (fun _ _ => closePath_seen ..) _ _).trans (adminFirst_seen ..)))
  · exact (foldl_seen _ (fun _ _ => openPath_seen ..) _ _).trans rfl

/-! ### The invariant on what is seen -/

/-- The invariant of a step, on what is seen. -/
structure Seen.Ok (z : Seen) : Prop where
  dies : z.mems.length = z.part.dies
  fault : z.halted = true → 0 ∈ z.faultN
  mems : ∀ m ∈ z.mems, memWf m.1 = true ∧ memWf m.2 = true
  regions : ∀ m ∈ z.regions, memWf m = true
  wins : ∀ m ∈ z.wins, memWf m = true

/-- The invariant of a state is the invariant of what is seen of it. -/
theorem inv_seen (s : State) : Inv s ↔ s.seen.Ok := by
  constructor
  · rintro ⟨d, f, m, r, w⟩
    exact ⟨(List.length_map _).trans d, f, List.forall_mem_map.2 m, List.forall_mem_map.2 r, List.forall_mem_map.2 w⟩
  · rintro ⟨d, f, m, r, w⟩
    exact ⟨(List.length_map _).symm.trans d, f, List.forall_mem_map.1 m, List.forall_mem_map.1 r, List.forall_mem_map.1 w⟩

/-- What a command keeps of what is seen: the queue, the part and the invariant; the tick and every byte of memory where
the flags say so. -/
structure Kept (tk mm rm : Bool) (z y : Seen) : Prop where
  pending : y.pending = z.pending
  part : y.part = z.part
  tick : tk = true → y.tick = z.tick
  mem : mm = true → y.mems = z.mems
  refl : rm = true → y.regions = z.regions ∧ y.wins = z.wins
  ok : z.Ok → y.Ok

theorem Kept.rfl' (tk mm rm : Bool) (z : Seen) : Kept tk mm rm z z :=
  ⟨rfl, rfl, fun _ => rfl, fun _ => rfl, fun _ => ⟨rfl, rfl⟩, id⟩

theorem Kept.of_eq {tk mm rm : Bool} {z y x : Seen} (h : Kept tk mm rm z y) (e : x = y) : Kept tk mm rm z x := e ▸ h

/-- Changed memories of the dies keep the invariant if every one stays in its canonical form. -/
theorem mems_kept {tk rm : Bool} {z y : Seen} (h : Kept tk false rm z y) {m : List (List Host.Cell × List Host.Cell)}
    (hm : y.Ok → m.length = y.mems.length ∧ ∀ x ∈ m, memWf x.1 = true ∧ memWf x.2 = true) :
    Kept tk false rm z { y with mems := m } :=
  ⟨h.pending, h.part, h.tick, nofun, h.refl, fun k =>
    have o := h.ok k
    ⟨(hm o).1.trans o.dies, o.fault, (hm o).2, o.regions, o.wins⟩⟩

/-- Changed regions and windows keep the invariant if every memory stays in its canonical form. -/
theorem refl_kept {tk mm : Bool} {z y : Seen} (h : Kept tk mm false z y) {r w : List (List Host.Cell)}
    (hr : y.Ok → ∀ x ∈ r, memWf x = true) (hw : y.Ok → ∀ x ∈ w, memWf x = true) :
    Kept tk mm false z { y with regions := r, wins := w } :=
  ⟨h.pending, h.part, h.tick, h.mem, nofun, fun k =>
    have o := h.ok k
    ⟨o.dies, o.fault, o.mems, hr o, hw o⟩⟩

theorem mem_insNat {n m : Nat} {l : List Nat} : m ∈ insNat n l ↔ m = n ∨ m ∈ l := by
  induction l with
  | nil => simp [insNat]
  | cons x l ih =>
    simp only [insNat]
    repeat' split
    · simp
    · subst_vars; simp
    · simp only [List.mem_cons, ih]; tauto

theorem updIf_mem_wf {α : Type} (g : α → List Host.Cell) (p : α → Bool) (f : α → α) (l : List α)
    (h : ∀ x ∈ l, memWf (g x) = true → memWf (g (f x)) = true) (w : ∀ m ∈ l.map g, memWf m = true) :
    ∀ m ∈ (updIf p f l).map g, memWf m = true := by
  intro m hm
  simp only [updIf, List.map_map, List.mem_map, Function.comp] at hm
  obtain ⟨x, hx, rfl⟩ := hm
  have := w (g x) (List.mem_map_of_mem hx)
  split
  · exact h x hx this
  · exact this

theorem filter_mem_wf {α : Type} (g : α → List Host.Cell) (p : α → Bool) (l : List α)
    (w : ∀ m ∈ l.map g, memWf m = true) : ∀ m ∈ (l.filter p).map g, memWf m = true := by
  intro m hm
  simp only [List.mem_map, List.mem_filter] at hm
  obtain ⟨x, ⟨hx, _⟩, rfl⟩ := hm
  exact w _ (List.mem_map_of_mem hx)

theorem modify_mem_wf (l : List DieSt) (d : Nat) (f : DieSt → DieSt)
    (h : ∀ x, memWf (dieMem x).1 = true ∧ memWf (dieMem x).2 = true →
      memWf (dieMem (f x)).1 = true ∧ memWf (dieMem (f x)).2 = true)
    (w : ∀ m ∈ l.map dieMem, memWf m.1 = true ∧ memWf m.2 = true) :
    ∀ m ∈ (l.modify d f).map dieMem, memWf m.1 = true ∧ memWf m.2 = true := by
  induction l generalizing d with
  | nil => cases d <;> simp
  | cons a l ih =>
    simp only [List.map_cons, List.forall_mem_cons] at w
    cases d with
    | zero => simp only [List.modify_zero_cons, List.map_cons, List.forall_mem_cons]; exact ⟨h a w.1, w.2⟩
    | succ n => simp only [List.modify_succ_cons, List.map_cons, List.forall_mem_cons]; exact ⟨w.1, ih n w.2⟩

/-- A changed memory of a die. -/
theorem updRfl_kept {tk rm : Bool} {z : Seen} (s : State) (d : Nat) (f : DieRfl → DieRfl) (h : Kept tk false rm z s.seen)
    (hf : ∀ q, memWf q.counters = true ∧ memWf q.mirror = true →
      memWf (f q).counters = true ∧ memWf (f q).mirror = true) : Kept tk false rm z (s.updRfl d f).seen :=
  mems_kept h fun o => ⟨(List.length_map _).trans ((List.length_modify ..).trans (List.length_map _).symm),
    modify_mem_wf _ _ _ (fun x w => hf x.rfl w) o.mems⟩

/-- Changed windows and regions. -/
theorem updRefl_kept {tk mm : Bool} {z : Seen} (s : State) (f : ReflSt → ReflSt) (h : Kept tk mm false z s.seen)
    (hr : (∀ m ∈ s.refl.regions.map (·.mem), memWf m = true) → ∀ m ∈ (f s.refl).regions.map (·.mem), memWf m = true)
    (hw : (∀ m ∈ s.refl.wins.map (·.mem), memWf m = true) → ∀ m ∈ (f s.refl).wins.map (·.mem), memWf m = true) :
    Kept tk mm false z (s.updRefl f).seen :=
  refl_kept h (fun o => hr o.regions) (fun o => hw o.wins)

theorem snd_kept {α : Type} {tk mm rm : Bool} {z : Seen} {p : α × State} {a : α} {t : State} (e : p = (a, t))
    (h : Kept tk mm rm z p.2.seen) : Kept tk mm rm z t.seen := by rw [e] at h; exact h

theorem foldl_kept {α : Type} {tk mm rm : Bool} {z : Seen} (g : State → α → State) (l : List α) (s : State)
    (h0 : Kept tk mm rm z s.seen) (h : ∀ s a, Kept tk mm rm z s.seen → Kept tk mm rm z (g s a).seen) :
    Kept tk mm rm z (l.foldl g s).seen := by
  induction l generalizing s with
  | nil => exact h0
  | cons a l ih => exact ih _ (h _ _ h0)

/-- An answer that is a next state with the property. -/
def Ends (P : Seen → Prop) : Host.Outcome State Fault Refusal → Prop
  | .next t => P t.seen
  | _ => False

@[simp] theorem ends_next (P : Seen → Prop) (t : State) : Ends P (.next t) = P t.seen := rfl

end Sys2Proof.Machine
end

