-- ==== Sys2Proof/Laws/Quiet.lean ====
section
/-! SUPPORT. The operations that leave everything the invariant looks at as it was. -/

namespace Sys2Proof.Machine
set_option linter.unusedTactic false
set_option linter.unreachableTactic false
set_option linter.unusedSimpArgs false
set_option linter.unusedVariables false

@[simp] theorem State_updRing_seen (s : State) (d i : Nat) (f : Ring → Ring) :
    (State.updRing s d i f).seen = s.seen := by
  simp [State.updRing]

@[simp] theorem State_updFn_seen (s : State) (d f : Nat) (g : FnSt → FnSt) :
    (State.updFn s d f g).seen = s.seen := by
  unfold State.updFn
  split <;> simp

@[simp] theorem State_updCmd_seen (s : State) (c : CmdRef) (f : Cmd → Cmd) :
    (State.updCmd s c f).seen = s.seen := by
  simp [State.updCmd]

@[simp] theorem State_updPool_seen (s : State) (p : Nat) (f : Pool → Pool) :
    (State.updPool s p f).seen = s.seen := by
  simp [State.updPool]

@[simp] theorem State_updVol_seen (s : State) (v : Nat) (f : Vol → Vol) :
    (State.updVol s v f).seen = s.seen := by
  simp [State.updVol]

@[simp] theorem takeLater_seen (s : State) (f : Later) : (s.takeLater f).seen = s.seen := by
  cases f <;> first | exact updDie_seen _ _ _ (by intro _; rfl) | rfl

@[simp] theorem takeFeats_seen (s : State) : s.takeFeats.seen = s.seen := foldl_seen _ (fun _ _ => takeLater_seen ..) _ _

@[simp] theorem State_updTenant_seen (s : State) (t : Nat) (f : Tenant → Tenant) :
    (State.updTenant s t f).seen = s.seen := by
  simp [State.updTenant]

@[simp] theorem State_updMeters_seen (s : State) (t : Nat) (f : Meters → Meters) :
    (State.updMeters s t f).seen = s.seen := by
  simp [State.updMeters]

@[simp] theorem State_updNs_seen (s : State) (n : Nat) (f : Ns → Ns) :
    (State.updNs s n f).seen = s.seen := by
  simp [State.updNs]

@[simp] theorem State_emit_seen (s : State) (o : Out) :
    (State.emit s o).seen = s.seen := by
  simp [State.emit]

@[simp] theorem sendMsix_seen (d fn vec : Nat) (s : State) :
    (sendMsix d fn vec s).seen = s.seen := by
  unfold sendMsix
  (repeat' split) <;> simp

@[simp] theorem messageOf_seen (x : Nat × Nat × Nat) (s : State) : (messageOf x s).seen = s.seen := by
  unfold messageOf
  repeat' first
    | rfl
    | (simp; done)
    | split
    | (apply foldl_seen_eq <;> intros)
    | simp

@[simp] theorem sendMessages_seen (s : State) : (sendMessages s).seen = s.seen := by
  unfold sendMessages
  repeat' first
    | rfl
    | (simp; done)
    | split
    | (apply foldl_seen_eq <;> intros)
    | simp

@[simp] theorem signalEvent_seen (d code : Nat) (s : State) :
    (signalEvent d code s).seen = s.seen := by
  unfold signalEvent
  repeat' first
    | rfl
    | (simp; done)
    | split
    | (apply foldl_seen_eq <;> intros)
    | simp

@[simp] theorem programRec_seen (d : Nat) (r : Rec) (s : State) :
    (programRec d r s).seen = s.seen := by
  unfold programRec
  (repeat' split) <;> simp

@[simp] theorem placeRec_seen (d : Nat) (r : Rec) (s : State) :
    (placeRec d r s).seen = s.seen := by
  unfold placeRec
  (repeat' split) <;> simp

@[simp] theorem summary_seen (d : Nat) (s : State) (r : RateCnt) :
    (summary d s r).seen = s.seen := by
  unfold summary
  repeat' first
    | rfl
    | (simp; done)
    | split
    | (apply foldl_seen_eq <;> intros)
    | simp

@[simp] theorem rollWindow_seen (d : Nat) (s : State) :
    (rollWindow d s).seen = s.seen := by
  unfold rollWindow
  repeat' first
    | rfl
    | (simp; done)
    | split
    | (apply foldl_seen_eq <;> intros)
    | simp

@[simp] theorem recordEvent_seen (d code : Nat) (det : Detail) (s0 : State) :
    (recordEvent d code det s0).seen = s0.seen := by
  unfold recordEvent
  dsimp only
  (repeat' split) <;> simp

@[simp] theorem raise_seen (d code : Nat) (det : Detail) (s : State) :
    (raise d code det s).seen = s.seen := by
  unfold raise
  repeat' first
    | rfl
    | (simp; done)
    | split
    | (apply foldl_seen_eq <;> intros)
    | simp

@[simp] theorem raisePkg_seen (code : Nat) (det : Detail) (s : State) :
    (raisePkg code det s).seen = s.seen := by
  simp [raisePkg]

@[simp] theorem ladder_seen (step code d : Nat) (s : State) :
    (ladder step code d s).seen = s.seen := by
  unfold ladder
  split <;> simp

@[simp] theorem programSome_seen (n d : Nat) (s : State) : (programSome n d s).seen = s.seen := by
  induction n generalizing s with
  | zero => rfl
  | succ n ih =>
    unfold programSome
    repeat' split
    all_goals simp [ih]

@[simp] theorem programAll_seen (d : Nat) (s : State) :
    (programAll d s).seen = s.seen := by
  simp [programAll]

@[simp] theorem programEvery_seen (s : State) :
    (programEvery s).seen = s.seen := by
  unfold programEvery
  repeat' first
    | rfl
    | (simp; done)
    | split
    | (apply foldl_seen_eq <;> intros)

@[simp] theorem writeHolding_seen (d : Nat) (s : State) :
    (writeHolding d s).seen = s.seen := by
  unfold writeHolding
  repeat' first
    | rfl
    | (simp; done)
    | split
    | (apply foldl_seen_eq <;> intros)

@[simp] theorem thaw_seen (s : State) :
    (thaw s).seen = s.seen := by
  unfold thaw
  repeat' first
    | rfl
    | (simp; done)
    | split
    | (apply foldl_seen_eq <;> intros)
    | simp

@[simp] theorem raiseDirect_seen (d code : Nat) (det : Detail) (s : State) :
    (raiseDirect d code det s).seen = s.seen := by
  unfold raiseDirect
  split <;> simp

@[simp] theorem writeNote_seen (r : Ring) (c : Cmd) (status : W16) (fl : Byte) (s : State) :
    (writeNote r c status fl s).seen = s.seen := by
  unfold writeNote
  (repeat' split) <;> simp

@[simp] theorem meterCompletion_seen (c : Cmd) (s : State) :
    (meterCompletion c s).seen = s.seen := by
  unfold meterCompletion
  split <;> simp

@[simp] theorem State_endCmd_seen (s : State) (ref : CmdRef) :
    (State.endCmd s ref).seen = s.seen := by
  simp [State.endCmd]

@[simp] theorem writeRecord_seen (r : Ring) (c : Cmd) (status : W16) (v : Res) (s : State) :
    (writeRecord r c status v s).seen = s.seen := by
  unfold writeRecord
  repeat' first
    | rfl
    | (simp; done)
    | split
    | (apply foldl_seen_eq <;> intros)
    | simp

@[simp] theorem complete_seen (ref : CmdRef) (status : W16) (v : Res) (s : State) :
    (complete ref status v s).seen = s.seen := by
  unfold complete
  (repeat' split) <;> simp

@[simp] theorem arriveBack_seen (d i : Nat) (b : Back) (s : State) :
    (arriveBack d i b s).seen = s.seen := by
  unfold arriveBack
  repeat' first
    | rfl
    | (simp; done)
    | split
    | (apply foldl_seen_eq <;> intros)
    | simp

@[simp] theorem arriveBacks_seen (s : State) :
    (arriveBacks s).seen = s.seen := by
  unfold arriveBacks
  repeat' first
    | rfl
    | (simp; done)
    | split
    | (apply foldl_seen_eq <;> intros)
    | simp

@[simp] theorem fail_seen (ref : CmdRef) (status : W16) (s : State) :
    (fail ref status s).seen = s.seen := by
  simp [fail]

@[simp] theorem ok_seen (ref : CmdRef) (result : Nat) (s : State) :
    (ok ref result s).seen = s.seen := by
  simp [ok]

@[simp] theorem busy_seen (ref : CmdRef) (s : State) :
    (busy ref s).seen = s.seen := by
  simp [busy]

@[simp] theorem reroute_seen (s : State) : (reroute s).seen = s.seen := by
  unfold reroute
  repeat' first
    | rfl
    | (simp; done)
    | split
    | (apply foldl_seen_eq <;> intros)
    | simp

@[simp] theorem countCut_seen (s : State) : (countCut s).seen = s.seen := by
  exact dies_seen _ _ (zipIdx_mem _ _ _ fun _ => rfl)

@[simp] theorem putFlit_seen (d : Nat) (raw : LinkSt → Bytes) (s : State) :
    (putFlit d raw s).seen = s.seen := by
  unfold putFlit
  repeat' first
    | rfl
    | (simp; done)
    | split
    | (apply foldl_seen_eq <;> intros)
    | simp

@[simp] theorem pumpLink_seen (d n : Nat) (s : State) : (pumpLink d n s).seen = s.seen := by
  induction n generalizing s with
  | zero => rfl
  | succ n ih =>
    unfold pumpLink
    repeat' split
    all_goals simp [ih]

@[simp] theorem drainLink_seen (d : Nat) (s : State) :
    (drainLink d s).seen = s.seen := by
  unfold drainLink
  repeat' first
    | rfl
    | (simp; done)
    | split
    | (apply foldl_seen_eq <;> intros)
    | simp

@[simp] theorem sendFlits_seen (d p : Nat) (b : Bytes) (n : Nat) (s : State) : (sendFlits d p b n s).seen = s.seen := by
  simp [sendFlits]

@[simp] theorem replay_seen (d : Nat) (bs : List Bytes) (seq : BitVec 12) (s : State) :
    (replay d bs seq s).seen = s.seen := by
  unfold replay
  repeat' first
    | rfl
    | (simp; done)
    | split
    | (apply foldl_seen_eq <;> intros)
    | simp

@[simp] theorem sendIdle_seen (d : Nat) (s : State) : (sendIdle d s).seen = s.seen := by
  unfold sendIdle
  repeat' first
    | rfl
    | (simp; done)
    | split
    | (apply foldl_seen_eq <;> intros)
    | simp

@[simp] theorem sendCtl_seen (d sub w : Nat) (s : State) :
    (sendCtl d sub w s).seen = s.seen := by
  unfold sendCtl
  repeat' first
    | rfl
    | (simp; done)
    | split
    | (apply foldl_seen_eq <;> intros)
    | simp

@[simp] theorem sendAlign_seen (d w : Nat) (s : State) :
    (sendAlign d w s).seen = s.seen := by
  unfold sendAlign
  repeat' first
    | rfl
    | (simp; done)
    | split
    | (apply foldl_seen_eq <;> intros)
    | simp

@[simp] theorem sendSegAs_seen (again : Bool) (d : Nat) (g : Seg) (s : State) :
    (sendSegAs again d g s).seen = s.seen := by
  unfold sendSegAs
  repeat' first
    | rfl
    | (simp; done)
    | split
    | (apply foldl_seen_eq <;> intros)
    | simp

@[simp] theorem sendSeg_seen (d : Nat) (g : Seg) (s : State) :
    (sendSeg d g s).seen = s.seen := sendSegAs_seen ..

@[simp] theorem sendSys_seen (d : Nat) (x : Msg) (s : State) :
    (sendSys d x s).seen = s.seen := by
  unfold sendSys
  exact (foldl_seen (fun s g => sendSeg d g s) (fun _ _ => sendSeg_seen ..) _ _).trans (updRfl_seen _ _ _ fun _ => ⟨rfl, rfl⟩)

@[simp] theorem postSystem_seen (d : Nat) (m : W32) (segs : List Seg) (s : State) :
    (postSystem d m segs s).seen = s.seen := by
  unfold postSystem
  dsimp only
  split
  · exact updRfl_seen _ _ _ fun _ => ⟨rfl, rfl⟩
  · simp

@[simp] theorem pumpSystem_seen (d : Nat) (s : State) :
    (pumpSystem d s).seen = s.seen := by
  unfold pumpSystem
  refine (foldl_seen _ (fun s x => ?_) _ _).trans (updRfl_seen _ _ _ fun _ => ⟨rfl, rfl⟩)
  split
  · exact updRfl_seen _ _ _ fun _ => ⟨rfl, rfl⟩
  · simp

@[simp] theorem sendSystem_seen (d p e op key off : Nat) (aux : W32) (noretx : Bool) (data : Bytes) (s : State) :
    (sendSystem d p e op key off aux noretx data s).seen = s.seen := by
  unfold sendSystem
  dsimp only
  split <;> simp

@[simp] theorem sendYield_seen (scope d die cause : Nat) (s : State) :
    (sendYield scope d die cause s).seen = s.seen := by
  unfold sendYield
  split <;> simp

@[simp] theorem noteYield_seen (scope d cause : Nat) (s : State) :
    (noteYield scope d cause s).seen = s.seen := by
  unfold noteYield
  repeat' first
    | rfl
    | (simp; done)
    | split
    | (apply foldl_seen_eq <;> intros)
    | (rw [zipIdx_comp_mem _ (by intro _; (repeat' (first | rfl | split)))])
    | simp

@[simp] theorem setYieldReg_seen (scope d cause : Nat) (s : State) :
    (setYieldReg scope d cause s).seen = s.seen := by
  simp [setYieldReg]

@[simp] theorem startKerf_seen (fault bound : Nat) (pools : List Nat) (s : State) :
    (startKerf fault bound pools s).seen = s.seen := by
  unfold startKerf
  repeat' first
    | rfl
    | (simp; done)
    | split
    | (apply foldl_seen_eq <;> intros)
    | simp

@[simp] theorem openKerf_seen (fault bound : Nat) (pools : List Nat) (s : State) :
    (openKerf fault bound pools s).seen = s.seen := by
  unfold openKerf
  split <;> simp

@[simp] theorem countKerf_seen (n : Nat) (s : State) :
    (countKerf n s).seen = s.seen := by
  simp [countKerf]

@[simp] theorem kerfBrief_seen (bound : Nat) (s : State) :
    (kerfBrief bound s).seen = s.seen := by
  simp [kerfBrief]

@[simp] theorem kerfSwap_seen (s : State) :
    (kerfSwap s).seen = s.seen := by
  simp [kerfSwap]

@[simp] theorem countFaults_seen (d i n : Nat) (s : State) :
    (countFaults d i n s).seen = s.seen := by
  simp [countFaults]

@[simp] theorem countFault_seen (d i : Nat) (s : State) :
    (countFault d i s).seen = s.seen := by
  simp [countFault]

@[simp] theorem markLate_seen (n : Nat) (p : Cmd → Bool) (s : State) :
    (markLate n p s).seen = s.seen := by
  simp [markLate]

@[simp] theorem gapOver_seen (nums : List Nat) (n : Nat) (s : State) :
    (gapOver nums n s).seen = s.seen := by
  unfold gapOver
  repeat' first
    | rfl
    | (simp; done)
    | split
    | (apply foldl_seen_eq <;> intros)
    | simp

@[simp] theorem kerfEnd_seen (nums : List Nat) (s : State) :
    (kerfEnd nums s).seen = s.seen := by
  unfold kerfEnd
  repeat' first
    | rfl
    | (simp; done)
    | split
    | (apply foldl_seen_eq <;> intros)
    | simp

@[simp] theorem kerfOver_seen (nums : List Nat) (s : State) :
    (kerfOver nums s).seen = s.seen := by
  unfold kerfOver
  repeat' first
    | rfl
    | (simp; done)
    | split
    | (apply foldl_seen_eq <;> intros)
    | simp

@[simp] theorem finishTest_seen (test d : Nat) (holder : Option Nat) (faults : Nat) (s : State) :
    (finishTest test d holder faults s).seen = s.seen := by
  unfold finishTest
  repeat' first
    | rfl
    | (simp; done)
    | split
    | (apply foldl_seen_eq <;> intros)

@[simp] theorem wake_seen (s : State) :
    (wake s).seen = s.seen := by
  unfold wake
  split <;> simp

@[simp] theorem notifWrite_seen (r : Ring) (a : Acc) (s : State) :
    (notifWrite r a s).seen = s.seen := by
  unfold notifWrite
  repeat' first
    | rfl
    | (simp; done)
    | split
    | (apply foldl_seen_eq <;> intros)
    | simp

@[simp] theorem intakeRings_seen (costs : List (CmdRef × Nat)) (s : State) :
    (intakeRings costs s).seen = s.seen := by
  unfold intakeRings
  repeat' first
    | rfl
    | (simp; done)
    | split
    | (apply foldl_seen_eq <;> intros)
    | simp

@[simp] theorem takeSetup_seen (s : State) (w : Win) (a : Acc) :
    (takeSetup s w a).seen = s.seen := by
  unfold takeSetup
  (repeat' split) <;> simp

@[simp] theorem enableSetup_seen (d fn : Nat) (s : State) : (enableSetup d fn s).seen = s.seen := by
  unfold enableSetup
  cases s.fn? d fn with
  | none => rfl
  | some f =>
    dsimp only
    cases setupRing s d fn with
    | some r => exact State_updFn_seen ..
    | none =>
      dsimp only
      split
      · split
        · exact State_updFn_seen ..
        · exact State_updFn_seen ..
      · exact State_updFn_seen ..

@[simp] theorem dropSetup_seen (d fn : Nat) (s : State) :
    (dropSetup d fn s).seen = s.seen := by
  unfold dropSetup
  (repeat' split) <;> simp

@[simp] theorem unmask_seen (d fn vec : Nat) (s : State) :
    (unmask d fn vec s).seen = s.seen := by
  unfold unmask
  (repeat' split) <;> simp

@[simp] theorem writeMsix_seen (d fn vec half : Nat) (a : Acc) (s : State) :
    (writeMsix d fn vec half a s).seen = s.seen := by
  unfold writeMsix
  (repeat' split) <;> simp

@[simp] theorem writeWindow_seen (w : Win) (off : Nat) (a : Acc) (s : State) :
    (writeWindow w off a s).seen = s.seen := by
  unfold writeWindow
  (repeat' split) <;> simp

@[simp] theorem plainWrite_seen (port fn off : Nat) (a : Acc) (s : State) :
    (plainWrite port fn off a s).seen = s.seen := by
  unfold plainWrite
  (repeat' split) <;> simp

@[simp] theorem fabricDown_seen (d m : Nat) (s : State) :
    (fabricDown d m s).seen = s.seen := by
  unfold fabricDown
  repeat' first
    | rfl
    | (simp; done)
    | split
    | (apply foldl_seen_eq <;> intros)
    | simp

@[simp] theorem State_dropBlocks_seen (s : State) (p : CBlk → Bool) :
    (State.dropBlocks s p).seen = s.seen := by
  simp [State.dropBlocks]

@[simp] theorem evictOne_seen (d : Nat) (s : State) :
    (evictOne d s).seen = s.seen := by
  unfold evictOne
  dsimp only
  (repeat' split) <;> simp

@[simp] theorem evict_seen (n d k : Nat) (s : State) : (evict n d k s).seen = s.seen := by
  induction n generalizing s with
  | zero => rfl
  | succ n ih =>
    unfold evict
    repeat' split
    all_goals simp [ih]

@[simp] theorem spareChannel_seen (d ch : Nat) (s : State) :
    (spareChannel d ch s).seen = s.seen := by
  simp [spareChannel]

@[simp] theorem ddrError_seen (d ch n : Nat) (s : State) :
    (ddrError d ch n s).seen = s.seen := by
  unfold ddrError
  repeat' first
    | rfl
    | (simp; done)
    | split
    | (apply foldl_seen_eq <;> intros)
    | simp

@[simp] theorem ddrCorrected_seen (l : List (Nat × Nat × Nat)) (s : State) :
    (ddrCorrected l s).seen = s.seen := by
  unfold ddrCorrected
  repeat' first
    | rfl
    | (simp; done)
    | split
    | (apply foldl_seen_eq <;> intros)
    | simp

@[simp] theorem sramCorrected_seen (l : List (Nat × Nat)) (s : State) : (sramCorrected l s).seen = s.seen := by
  unfold sramCorrected
  repeat' first
    | rfl
    | (simp; done)
    | split
    | (apply foldl_seen_eq <;> intros)
    | simp

@[simp] theorem linkDown_seen (d : Nat) (s : State) :
    (linkDown d s).seen = s.seen := by
  simp [linkDown]

@[simp] theorem linkToRecover_seen (d : Nat) (s : State) :
    (linkToRecover d s).seen = s.seen := by
  unfold linkToRecover
  (repeat' split) <;> simp

@[simp] theorem loseReflectLane_seen (d : Nat) (s : State) :
    (loseReflectLane d s).seen = s.seen := by
  unfold loseReflectLane
  repeat' first
    | rfl
    | (simp; done)
    | split
    | (apply foldl_seen_eq <;> intros)
    | simp

@[simp] theorem retireLane_seen (d l : Nat) (l0p : Bool) (s : State) :
    (retireLane d l l0p s).seen = s.seen := by
  unfold retireLane
  repeat' first
    | rfl
    | (simp; done)
    | split
    | (apply foldl_seen_eq <;> intros)
    | simp

@[simp] theorem programJ_seen (d : Nat) (pool : Option Nat) (b : JBody) (s : State) :
    (programJ d pool b s).seen = s.seen := by
  simp [programJ]

@[simp] theorem programAs_seen (d jsn : Nat) (pool : Option Nat) (b : JBody) (s : State) :
    (programAs d jsn pool b s).seen = s.seen := by
  unfold programAs
  repeat' first
    | rfl
    | (simp; done)
    | split
    | (apply foldl_seen_eq <;> intros)
    | simp

@[simp] theorem takeJsn_seen (d : Nat) (s : State) :
    (takeJsn d s).seen = s.seen := by
  unfold takeJsn
  repeat' first
    | rfl
    | (simp; done)
    | split
    | (apply foldl_seen_eq <;> intros)
    | simp

@[simp] theorem dropEntries_seen (d : Nat) (p : JEntry → Bool) (s : State) :
    (dropEntries d p s).seen = s.seen := by
  simp [dropEntries]

@[simp] theorem retireCommits_seen (s : State) :
    (retireCommits s).seen = s.seen := by
  unfold retireCommits
  repeat' first
    | rfl
    | (simp; done)
    | split
    | (apply foldl_seen_eq <;> intros)

@[simp] theorem programAnchor_seen (d : Nat) (s : State) :
    (programAnchor d s).seen = s.seen := by
  unfold programAnchor
  split <;> simp

@[simp] theorem countOverruns_seen (tenants dies : List Nat) (s : State) :
    (countOverruns tenants dies s).seen = s.seen := by
  unfold countOverruns
  repeat' first
    | rfl
    | (simp; done)
    | split
    | (apply foldl_seen_eq <;> intros)
    | simp

@[simp] theorem countUrgent_seen (g : List (Item × Nat)) (s : State) :
    (countUrgent g s).seen = s.seen := by
  unfold countUrgent
  repeat' first
    | rfl
    | (simp; done)
    | split
    | (apply foldl_seen_eq <;> intros)

@[simp] theorem admission_seen (os : List Overrun) (is : List Item) (s : State) :
    (admission os is s).seen = s.seen := by
  unfold admission
  dsimp only
  rw [countUrgent_seen, countOverruns_seen]
  exact dies_seen _ _ (zipIdx_mem _ _ _ fun _ => rfl)

@[simp] theorem evalBudget_seen (d p : Nat) (b : Budget) (s : State) :
    (evalBudget d p b s).seen = s.seen := by
  unfold evalBudget
  repeat' first
    | rfl
    | (simp; done)
    | split
    | (apply foldl_seen_eq <;> intros)
    | simp

@[simp] theorem recount_seen (s : State) :
    (recount s).seen = s.seen := by
  unfold recount
  repeat' first
    | rfl
    | (simp; done)
    | split
    | (apply foldl_seen_eq <;> intros)
    | simp

@[simp] theorem countMiss_seen (d : Nat) (external : Bool) (det : Detail) (s : State) : (countMiss d external det s).seen = s.seen := by
  unfold countMiss
  repeat' first
    | rfl
    | (simp; done)
    | split
    | (apply foldl_seen_eq <;> intros)
    | simp

@[simp] theorem missStage_seen (o : Overrun) (s : State) : (missStage o s).seen = s.seen := by
  unfold missStage
  repeat' first
    | rfl
    | (simp; done)
    | split
    | (apply foldl_seen_eq <;> intros)
    | simp

@[simp] theorem missRow_seen (d row : Nat) (ref : CmdRef) (s : State) : (missRow d row ref s).seen = s.seen := by
  unfold missRow
  repeat' first
    | rfl
    | (simp; done)
    | split
    | (apply foldl_seen_eq <;> intros)
    | simp

@[simp] theorem endShedding_seen (s : State) :
    (endShedding s).seen = s.seen := by
  unfold endShedding
  repeat' first
    | rfl
    | (simp; done)
    | split
    | (apply foldl_seen_eq <;> intros)
    | simp

@[simp] theorem ticksync_seen (o : Option ℤ) (s : State) :
    (ticksync o s).seen = s.seen := by
  unfold ticksync
  (repeat' split) <;> simp

@[simp] theorem setNarrow_seen (p : Nat → Bool) (f : Nat → Nat) (s : State) :
    (setNarrow p f s).seen = s.seen := by
  unfold setNarrow
  repeat' first
    | rfl
    | (simp; done)
    | split
    | (apply foldl_seen_eq <;> intros)
    | (rw [zipIdx_comp_mem _ (by intro _; (repeat' (first | rfl | split)))])
    | simp

@[simp] theorem enforceCap_seen (l0p : List Nat) (s : State) :
    (enforceCap l0p s).seen = s.seen := by
  unfold enforceCap
  repeat' first
    | rfl
    | (simp; done)
    | split
    | (apply foldl_seen_eq <;> intros)
    | simp

@[simp] theorem samplePower_seen (w : Nat) (s : State) :
    (samplePower w s).seen = s.seen := by
  simp [samplePower]

@[simp] theorem sampleTemps_seen (ts : List (BitVec 8)) (s : State) :
    (sampleTemps ts s).seen = s.seen := by
  unfold sampleTemps
  repeat' first
    | rfl
    | (simp; done)
    | split
    | (apply foldl_seen_eq <;> intros)

@[simp] theorem setBucket_seen (b : Bucket) (s : State) :
    (setBucket b s).seen = s.seen := by
  simp [setBucket]

@[simp] theorem charge_seen (r : Ring) (op : Op) (e : Entry) (s : State) :
    (charge r op e s).seen = s.seen := by
  unfold charge
  (repeat' split) <;> simp

@[simp] theorem advanceRings_seen (r : Ring) (op : Op) (e : Entry) (s : State) :
    (advanceRings r op e s).seen = s.seen := by
  unfold advanceRings
  repeat' first
    | rfl
    | (simp; done)
    | split
    | (apply foldl_seen_eq <;> intros)
    | simp

@[simp] theorem dispatched_seen (r : Ring) (op : Op) (p : Post) (s : State) :
    (dispatched r op p s).seen = s.seen := by
  simp [dispatched]

@[simp] theorem okBuffer_seen (c : Cmd) (data : Bytes) (result ndone : Nat) (s : State) :
    (okBuffer c data result ndone s).seen = s.seen := by
  simp [okBuffer]

@[simp] theorem State_updBlk_seen (s : State) (vol lba : Nat) (f : CBlk → CBlk) :
    (State.updBlk s vol lba f).seen = s.seen := by
  simp [State.updBlk]

@[simp] theorem insertClean_seen (b : CBlk) (s : State) :
    (insertClean b s).seen = s.seen := by
  unfold insertClean
  repeat' first
    | rfl
    | (simp; done)
    | split
    | (apply foldl_seen_eq <;> intros)
    | simp

@[simp] theorem touch_seen (vol lba : Nat) (s : State) :
    (touch vol lba s).seen = s.seen := by
  simp [touch]

@[simp] theorem offlinePool_seen (num cause : Nat) (s : State) :
    (offlinePool num cause s).seen = s.seen := by
  unfold offlinePool
  split
  · rfl
  · split
    · rfl
    · apply foldl_seen_eq
      · exact (raise_seen _ _ _ _).trans (State_updPool_seen _ _ _)
      · intros; simp

@[simp] theorem loseBlocks_seen (num vol lba count : Nat) (s : State) :
    (loseBlocks num vol lba count s).seen = s.seen := by
  unfold loseBlocks
  repeat' first
    | rfl
    | (simp; done)
    | split
    | (apply foldl_seen_eq <;> intros)
    | simp

@[simp] theorem loseMany_seen (num : Nat) (l : List (Nat × Nat)) (s : State) :
    (loseMany num l s).seen = s.seen := by
  unfold loseMany
  repeat' first
    | rfl
    | (simp; done)
    | split
    | (apply foldl_seen_eq <;> intros)

@[simp] theorem reinstate_seen (num vol lba count : Nat) (s : State) :
    (reinstate num vol lba count s).seen = s.seen := by
  unfold reinstate
  repeat' first
    | rfl
    | (simp; done)
    | split
    | (apply foldl_seen_eq <;> intros)
    | simp

@[simp] theorem queueStripes_seen (num : Nat) (ns : List Nat) (s : State) :
    (queueStripes num ns s).seen = s.seen := by
  simp [queueStripes]

@[simp] theorem queueBlocks_seen (bs : List (Nat × Nat)) (s : State) :
    (queueBlocks bs s).seen = s.seen := by
  unfold queueBlocks
  repeat' first
    | rfl
    | (simp; done)
    | split
    | (apply foldl_seen_eq <;> intros)

@[simp] theorem queueOldest_seen (d n : Nat) (s : State) : (queueOldest d n s).seen = s.seen := by
  unfold queueOldest
  repeat' first
    | rfl
    | (simp; done)
    | split
    | (apply foldl_seen_eq <;> intros)
    | simp

@[simp] theorem pressure_seen (d : Nat) (s : State) :
    (pressure d s).seen = s.seen := by
  unfold pressure
  repeat' first
    | rfl
    | (simp; done)
    | split
    | (apply foldl_seen_eq <;> intros)
    | simp

@[simp] theorem writeBlock_seen (b : CBlk) (s : State) :
    (writeBlock b s).seen = s.seen := by
  simp [writeBlock]

@[simp] theorem ackBlocks_seen (c : Cmd) (s : State) :
    (ackBlocks c s).seen = s.seen := by
  unfold ackBlocks
  repeat' first
    | rfl
    | (simp; done)
    | split
    | (apply foldl_seen_eq <;> intros)
    | simp

@[simp] theorem mirrorJournal_seen (d : Nat) (s : State) :
    (mirrorJournal d s).seen = s.seen := by
  unfold mirrorJournal
  split
  · rfl
  · dsimp only
    split
    · rfl
    · simp

@[simp] theorem submit_seen (m : MCmd) (s : State) :
    (submit m s).seen = s.seen := by
  simp [submit]

@[simp] theorem readSector_seen (p : Pool) (new : Bool) (stripe pos off : Nat) (why : Purpose) (s : State) :
    (readSector p new stripe pos off why s).seen = s.seen := by
  unfold readSector
  split <;> simp

@[simp] theorem writeSectorTo_seen (p : Pool) (new : Bool) (stripe pos off gen : Nat) (coded : Bytes) (why : Purpose) (x : Nat) (s : State) :
    (writeSectorTo p new stripe pos off gen coded why x s).seen = s.seen := by
  unfold writeSectorTo
  split <;> simp

@[simp] theorem writeSector_seen (p : Pool) (new : Bool) (stripe pos off gen : Nat) (coded : Bytes) (why : Purpose) (s : State) :
    (writeSector p new stripe pos off gen coded why s).seen = s.seen := by
  unfold writeSector
  repeat' first
    | rfl
    | (simp; done)
    | split
    | (apply foldl_seen_eq <;> intros)

@[simp] theorem setGen_seen (num : Nat) (new : Bool) (stripe : Nat) (v : W32) (s : State) :
    (setGen num new stripe v s).seen = s.seen := by
  simp [setGen]

@[simp] theorem holdLast_seen (s : State) : (holdLast s).seen = s.seen := by
  unfold holdLast
  repeat' first
    | rfl
    | (simp; done)
    | split
    | (apply foldl_seen_eq <;> intros)
    | simp

@[simp] theorem repairAt_seen (p : Pool) (new : Bool) (stripe pos off gen : Nat) (coded : Bytes) (s : State) : (repairAt p new stripe pos off gen coded s).seen = s.seen := by
  unfold repairAt
  repeat' first
    | rfl
    | (simp; done)
    | split
    | (apply foldl_seen_eq <;> intros)
    | simp

@[simp] theorem releaseWrites_seen (s : State) : (releaseWrites s).seen = s.seen := by
  unfold releaseWrites
  repeat' first
    | rfl
    | (simp; done)
    | split
    | (apply foldl_seen_eq <;> intros)
    | simp

@[simp] theorem queueRepairs_seen (p : Pool) (new : Bool) (stripe off : Nat) (good : List (Nat × Sector)) (bad : List Nat) (all : List Bytes) (s : State) :
    (queueRepairs p new stripe off good bad all s).seen = s.seen := by
  unfold queueRepairs
  repeat' first
    | rfl
    | (simp; done)
    | split
    | (apply foldl_seen_eq <;> intros)

@[simp] theorem repaired_seen (m : MCmd) (s : State) :
    (repaired m s).seen = s.seen := by
  unfold repaired
  split <;> simp

@[simp] theorem loseMember_seen (num : Nat) (s : State) :
    (loseMember num s).seen = s.seen := by
  unfold loseMember
  repeat' first
    | rfl
    | (simp; done)
    | split
    | (apply foldl_seen_eq <;> intros)
    | simp

@[simp] theorem failMember_seen (ns cause : Nat) (s : State) :
    (failMember ns cause s).seen = s.seen := by
  unfold failMember
  (repeat' split) <;> simp

@[simp] theorem failEvents_seen (p : Pool) (item cause ns : Nat) (slot : Option Nat) (s : State) :
    (failEvents p item cause ns slot s).seen = s.seen := by
  simp [failEvents]

@[simp] theorem settleFailure_seen (num : Nat) (s : State) (x : Nat) :
    (settleFailure num s x).seen = s.seen := by
  unfold settleFailure
  (repeat' split) <;> simp

@[simp] theorem settlePending_seen (num : Nat) (s : State) (i : Nat) :
    (settlePending num s i).seen = s.seen := by
  unfold settlePending
  (repeat' split) <;> simp

@[simp] theorem settleFailures_seen (s : State) :
    (settleFailures s).seen = s.seen := by
  unfold settleFailures
  repeat' first
    | rfl
    | (simp; done)
    | split
    | (apply foldl_seen_eq <;> intros)

@[simp] theorem stageBlocks_seen (ijsn : Nat) (snap : List (CBlk × Nat × Nat)) (s : State) : (stageBlocks ijsn snap s).seen = s.seen := by
  unfold stageBlocks
  repeat' first
    | rfl
    | (simp; done)
    | split
    | (apply foldl_seen_eq <;> intros)
    | simp

@[simp] theorem unstageBlocks_seen (ijsn : Nat) (s : State) : (unstageBlocks ijsn s).seen = s.seen := by
  unfold unstageBlocks
  repeat' first
    | rfl
    | (simp; done)
    | split
    | (apply foldl_seen_eq <;> intros)
    | simp

@[simp] theorem openDestage_seen (p : Pool) (new : Bool) (stripe cls : Nat) (snap : List (CBlk × Nat × Nat)) (s : State) :
    (openDestage p new stripe cls snap s).seen = s.seen := by
  simp [openDestage]

@[simp] theorem openRepair_seen (p : Pool) (jsn stripe : Nat) (new : Bool) (gen : W32) (method first count : Nat) (s : State) :
    (openRepair p jsn stripe new gen method first count s).seen = s.seen := by
  simp [openRepair]

@[simp] theorem issueWrites_seen (p : Pool) (d : Destage) (s : State) :
    (issueWrites p d s).seen = s.seen := by
  unfold issueWrites
  repeat' first
    | rfl
    | (simp; done)
    | split
    | (apply foldl_seen_eq <;> intros)
    | simp

@[simp] theorem State_updDestage_seen (s : State) (i : Nat) (f : Destage → Destage) :
    (State.updDestage s i f).seen = s.seen := by
  simp [State.updDestage]

@[simp] theorem satisfied_seen (vol lba jsn : Nat) (s : State) :
    (satisfied vol lba jsn s).seen = s.seen := by
  simp [satisfied]

@[simp] theorem cleanBlock_seen (c : CBlk) (s : State) :
    (cleanBlock c s).seen = s.seen := by
  unfold cleanBlock
  split <;> simp

@[simp] theorem settleBlock_seen (p : Pool) (new : Bool) (b : CBlk) (s : State) :
    (settleBlock p new b s).seen = s.seen := by
  unfold settleBlock
  repeat' first
    | rfl
    | (simp; done)
    | split
    | (apply foldl_seen_eq <;> intros)
    | simp

@[simp] theorem repairFaults_seen (p : Pool) (d : Destage) (s : State) :
    (repairFaults p d s).seen = s.seen := by
  unfold repairFaults
  repeat' first
    | rfl
    | (simp; done)
    | split
    | (apply foldl_seen_eq <;> intros)
    | simp

@[simp] theorem commitDestage_seen (d : Destage) (s : State) :
    (commitDestage d s).seen = s.seen := by
  unfold commitDestage
  repeat' first
    | rfl
    | (simp; done)
    | split
    | (apply foldl_seen_eq <;> intros)
    | simp

@[simp] theorem pumpDestage_seen (d0 : Destage) (s : State) :
    (pumpDestage d0 s).seen = s.seen := by
  unfold pumpDestage
  repeat' first
    | rfl
    | (simp; done)
    | split
    | (apply foldl_seen_eq <;> intros)
    | simp

@[simp] theorem pumpDestages_seen (s : State) :
    (pumpDestages s).seen = s.seen := by
  unfold pumpDestages
  repeat' first
    | rfl
    | (simp; done)
    | split
    | (apply foldl_seen_eq <;> intros)

@[simp] theorem failIo_seen (ref : CmdRef) (st : W16) (s : State) :
    (failIo ref st s).seen = s.seen := by
  simp [failIo]

@[simp] theorem lend_seen (s : State) :
    (lend s).seen = s.seen := by
  simp [lend]

@[simp] theorem cacheRead_seen (c : Cmd) (v : Vol) (lba : Nat) (data pi : Bytes) (s : State) :
    (cacheRead c v lba data pi s).seen = s.seen := by
  unfold cacheRead
  (repeat' split) <;> simp

@[simp] theorem giveBlock_seen (ref : CmdRef) (v : Vol) (lba : Nat) (coded : Bytes) (s : State) :
    (giveBlock ref v lba coded s).seen = s.seen := by
  unfold giveBlock
  repeat' first
    | rfl
    | (simp; done)
    | split
    | (apply foldl_seen_eq <;> intros)
    | simp

@[simp] theorem giveDirty_seen (ref : CmdRef) (v : Vol) (lba : Nat) (s : State) :
    (giveDirty ref v lba s).seen = s.seen := by
  unfold giveDirty
  repeat' first
    | rfl
    | (simp; done)
    | split
    | (apply foldl_seen_eq <;> intros)
    | simp

@[simp] theorem giveErr_seen (ref : CmdRef) (lba : Nat) (st : W16) (s : State) :
    (giveErr ref lba st s).seen = s.seen := by
  simp [giveErr]

@[simp] theorem failStripe_seen (p : Pool) (v : Vol) (c : Cmd) (f : Fetch) (s : State) :
    (failStripe p v c f s).seen = s.seen := by
  unfold failStripe
  repeat' first
    | rfl
    | (simp; done)
    | split
    | (apply foldl_seen_eq <;> intros)
    | simp

@[simp] theorem resolveCons_seen (p : Pool) (v : Vol) (c : Cmd) (f : Fetch) (s : State) :
    (resolveCons p v c f s).seen = s.seen := by
  unfold resolveCons
  dsimp only
  split
  · simp
  · refine foldl_seen_eq _ _ _ _ ?_ fun s q => ?_
    · split <;> simp
    · repeat' split
      all_goals simp

@[simp] theorem resolveFetch_seen (p : Pool) (v : Vol) (c : Cmd) (f : Fetch) (s : State) :
    (resolveFetch p v c f s).seen = s.seen := by
  unfold resolveFetch
  (repeat' split) <;> simp

@[simp] theorem holdCons_seen (c : CmdRef) (f : Fetch) (s : State) : (holdCons c f s).seen = s.seen := by
  unfold holdCons
  repeat' first
    | rfl
    | (simp; done)
    | split
    | (apply foldl_seen_eq <;> intros)
    | simp

@[simp] theorem wantFetch_seen (p : Pool) (c : CmdRef) (f : Fetch) (s : State) :
    (wantFetch p c f s).seen = s.seen := by
  unfold wantFetch
  repeat' first
    | rfl
    | (simp; done)
    | split
    | (apply foldl_seen_eq <;> intros)

@[simp] theorem meterRead_seen (c : Cmd) (n : Nat) (s : State) :
    (meterRead c n s).seen = s.seen := by
  unfold meterRead
  split <;> simp

@[simp] theorem finishRead_seen (v : Vol) (c : Cmd) (s : State) :
    (finishRead v c s).seen = s.seen := by
  unfold finishRead
  repeat' first
    | rfl
    | (simp; done)
    | split
    | (apply foldl_seen_eq <;> intros)
    | simp

@[simp] theorem pumpRead_seen (ref : CmdRef) (s : State) :
    (pumpRead ref s).seen = s.seen := by
  unfold pumpRead
  repeat' first
    | rfl
    | (simp; done)
    | split
    | (apply foldl_seen_eq <;> intros)
    | simp

@[simp] theorem dropClean_seen (v : Vol) (lba n : Nat) (s : State) :
    (dropClean v lba n s).seen = s.seen := by
  simp [dropClean]

@[simp] theorem touchRange_seen (v : Vol) (lba n : Nat) (s : State) :
    (touchRange v lba n s).seen = s.seen := by
  simp [touchRange]

@[simp] theorem startWork_seen (ref : CmdRef) (s : State) :
    (startWork ref s).seen = s.seen := by
  unfold startWork
  (repeat' split) <;> simp

@[simp] theorem admitCmd_seen (ref : CmdRef) (s : State) :
    (admitCmd ref s).seen = s.seen := by
  have h : ({ s.updCmd ref fun c => { c with seq := s.seq, clamp := true, stage := .stalled } with
      seq := s.seq + 1 } : State).seen = s.seen :=
    State_updCmd_seen s ref fun c => { c with seq := s.seq, clamp := true, stage := .stalled }
  unfold admitCmd
  dsimp only
  split
  · split
    · exact (startWork_seen _ _).trans h
    · exact h
  · exact h

@[simp] theorem sendOver_seen (ref : CmdRef) (s : State) :
    (sendOver ref s).seen = s.seen := by
  unfold sendOver
  repeat' first
    | rfl
    | (simp; done)
    | split
    | (apply foldl_seen_eq <;> intros)
    | simp

@[simp] theorem holdIo_seen (ref : CmdRef) (s : State) :
    (holdIo ref s).seen = s.seen := by
  simp [holdIo]

@[simp] theorem startIo_seen (ref : CmdRef) (s : State) :
    (startIo ref s).seen = s.seen := by
  unfold startIo
  (repeat' split) <;> simp

@[simp] theorem clearUnit_seen (p : Pool) (v : Vol) (c : Cmd) (j : Nat) (s : State) : (clearUnit p v c j s).seen = s.seen := by
  unfold clearUnit
  repeat' first
    | rfl
    | (simp; done)
    | split
    | (apply foldl_seen_eq <;> intros)
    | simp

@[simp] theorem queueFull_seen (p : Pool) (v : Vol) (bs : List Nat) (s : State) :
    (queueFull p v bs s).seen = s.seen := by
  unfold queueFull
  repeat' first
    | rfl
    | (simp; done)
    | split
    | (apply foldl_seen_eq <;> intros)
    | simp

@[simp] theorem markTile_seen (p : Pool) (v : Vol) (i : Nat) (s : State) :
    (markTile p v i s).seen = s.seen := by
  unfold markTile
  repeat' first
    | rfl
    | (simp; done)
    | split
    | (apply foldl_seen_eq <;> intros)

@[simp] theorem meterWrite_seen (c : Cmd) (n : Nat) (s : State) :
    (meterWrite c n s).seen = s.seen := by
  unfold meterWrite
  split <;> simp

@[simp] theorem finishWrite_seen (v : Vol) (c : Cmd) (s : State) :
    (finishWrite v c s).seen = s.seen := by
  simp [finishWrite]

@[simp] theorem markTiles_seen (p : Pool) (v : Vol) (c : Cmd) (s : State) :
    (markTiles p v c s).seen = s.seen := by
  unfold markTiles
  repeat' first
    | rfl
    | (simp; done)
    | split
    | (apply foldl_seen_eq <;> intros)
    | simp

@[simp] theorem allProtected_seen (p : Pool) (v : Vol) (c : Cmd) (s : State) :
    (allProtected p v c s).seen = s.seen := by
  unfold allProtected
  repeat' first
    | rfl
    | (simp; done)
    | split
    | (apply foldl_seen_eq <;> intros)
    | simp

@[simp] theorem mirrorUnit_seen (p : Pool) (v : Vol) (c : Cmd) (s : State) : (mirrorUnit p v c s).seen = s.seen := by
  unfold mirrorUnit
  dsimp only
  refine (postSystem_seen ..).trans ((State_updCmd_seen ..).trans ((nextMsg_seen ..).trans ?_))
  split <;> simp

@[simp] theorem protectUnit_seen (p : Pool) (v : Vol) (c : Cmd) (s : State) : (protectUnit p v c s).seen = s.seen := by
  unfold protectUnit
  extract_lets j jsn bs s1 s2 s3 s4 s5 s6
  have h1 : s1.seen = s.seen := (clearUnit_seen ..).trans (foldl_seen _ (fun _ _ => by simp) _ _)
  have h2 : s2.seen = s.seen := by rw [← h1]; simp only [s2]; split <;> simp
  have h3 : s3.seen = s.seen := by rw [← h2]; exact State_updCmd_seen ..
  have h4 : s4.seen = s.seen := by rw [← h3]; exact queueFull_seen ..
  have h5 : s5.seen = s.seen := by rw [← h4]; simp only [s5]; split <;> simp
  have h6 : s6.seen = s.seen := by rw [← h5]; simp only [s6]; split <;> simp
  split
  · rw [← h6]; exact allProtected_seen ..
  · exact h6

@[simp] theorem askBlock_seen (s : State) (b : CBlk) : (askBlock s b).seen = s.seen := by
  have h : ∀ (u : State) (n : Nat) (l : List CBlk), ({ u with free := n, cache := l } : State).seen = u.seen := fun _ _ _ => rfl
  unfold askBlock
  split
  · split
    · rfl
    · exact (sendSystem_seen ..).trans (h ..)
  · rfl

@[simp] theorem askHeld_seen (s : State) : (askHeld s).seen = s.seen := foldl_seen _ (fun s b => askBlock_seen s b) _ _

@[simp] theorem sendUnits_seen (s : State) :
    (sendUnits s).seen = s.seen := by
  unfold sendUnits
  refine foldl_seen _ (fun s x => ?_) _ _
  repeat' split
  all_goals simp

@[simp] theorem finishFlush_seen (c : Cmd) (s : State) :
    (finishFlush c s).seen = s.seen := by
  unfold finishFlush
  split <;> simp

@[simp] theorem flushOver_seen (c : Cmd) (s : State) :
    (flushOver c s).seen = s.seen := by
  unfold flushOver
  repeat' first
    | rfl
    | (simp; done)
    | split
    | (apply foldl_seen_eq <;> intros)
    | simp

@[simp] theorem startFlush_seen (ref : CmdRef) (s : State) :
    (startFlush ref s).seen = s.seen := by
  unfold startFlush
  (repeat' split) <;> simp

@[simp] theorem background_seen (t : Cmd) (s : State) : (background t s).seen = s.seen := by
  unfold background
  repeat' first
    | rfl
    | (simp; done)
    | split
    | (apply foldl_seen_eq <;> intros)
    | simp

@[simp] theorem dropUnit_seen (t : Cmd) (s : State) :
    (dropUnit t s).seen = s.seen := by
  unfold dropUnit
  split
  · exact updRfl_seen _ _ _ fun _ => ⟨rfl, rfl⟩
  · rfl

@[simp] theorem abortTarget_seen (t : Cmd) (s : State) :
    (abortTarget t s).seen = s.seen := by
  simp [abortTarget]

@[simp] theorem startAbort_seen (ref : CmdRef) (s : State) :
    (startAbort ref s).seen = s.seen := by
  unfold startAbort
  repeat' first
    | rfl
    | (simp; done)
    | split
    | (apply foldl_seen_eq <;> intros)
    | simp

@[simp] theorem createRing_seen (c : Cmd) (s : State) : (createRing c s).seen = s.seen := by
  unfold createRing
  repeat' split
  all_goals simp

@[simp] theorem endDeletion_seen (r : Ring) (s : State) :
    (endDeletion r s).seen = s.seen := by
  unfold endDeletion
  repeat' first
    | rfl
    | (simp; done)
    | split
    | (apply foldl_seen_eq <;> intros)

@[simp] theorem deleteRing_seen (c : Cmd) (s : State) :
    (deleteRing c s).seen = s.seen := by
  unfold deleteRing
  repeat' first
    | rfl
    | (simp; done)
    | split
    | (apply foldl_seen_eq <;> intros)
    | simp

@[simp] theorem setRingWeight_seen (c : Cmd) (s : State) :
    (setRingWeight c s).seen = s.seen := by
  unfold setRingWeight
  repeat' first
    | rfl
    | (simp; done)
    | split
    | (apply foldl_seen_eq <;> intros)
    | simp

@[simp] theorem identify_seen (c : Cmd) (s : State) :
    (identify c s).seen = s.seen := by
  unfold identify
  repeat' first
    | rfl
    | (simp; done)
    | split
    | (apply foldl_seen_eq <;> intros)
    | simp

@[simp] theorem getFeature_seen (c : Cmd) (s : State) :
    (getFeature c s).seen = s.seen := by
  unfold getFeature
  repeat' first
    | rfl
    | (simp; done)
    | split
    | (apply foldl_seen_eq <;> intros)
    | simp

@[simp] theorem setFeats_seen (f : Feats → Feats) (s : State) :
    (setFeats f s).seen = s.seen := by
  simp [setFeats]

@[simp] theorem applyProt_seen (s : State) :
    (applyProt s).seen = s.seen := by
  unfold applyProt
  repeat' first
    | rfl
    | (simp; done)
    | split
    | (apply foldl_seen_eq <;> intros)
    | (refine (updDie_seen _ _ _ (by intro _; rfl)).trans ?_)
    | simp

@[simp] theorem waitFeature_seen (c : Cmd) (fid sel : Nat) (s : State) :
    (waitFeature c fid sel s).seen = s.seen := by
  simp [waitFeature]

@[simp] theorem setProtected_seen (c : Cmd) (sel : Nat) (s : State) :
    (setProtected c sel s).seen = s.seen := by
  unfold setProtected
  extract_lets gib ds asked f s1 s2
  have h : s2.seen = s.seen :=
    (applyProt_seen ..).trans (foldl_seen (fun s d => queueOldest d (dirtyBytes s d - gib * 2 ^ 30) s) (fun _ _ => by simp) _ _)
  (repeat' split) <;> simp [h]

@[simp] theorem setLater_seen (f : Later) (s : State) :
    (setLater f s).seen = s.seen := by
  unfold setLater
  repeat' first
    | rfl
    | (simp; done)
    | split
    | (apply foldl_seen_eq <;> intros)
    | simp

@[simp] theorem dropLater_seen (p : Later → Bool) (s : State) :
    (dropLater p s).seen = s.seen := by
  unfold dropLater
  repeat' first
    | rfl
    | (simp; done)
    | split
    | (apply foldl_seen_eq <;> intros)
    | simp

@[simp] theorem setVault_seen (c : Cmd) (sel : Nat) (s : State) :
    (setVault c sel s).seen = s.seen := by
  unfold setVault
  repeat' first
    | rfl
    | (simp; done)
    | split
    | (apply foldl_seen_eq <;> intros)
    | (refine (updDie_seen _ _ _ (by intro _; rfl)).trans ?_)
    | simp

@[simp] theorem setWitness_seen (c : Cmd) (s : State) :
    (setWitness c s).seen = s.seen := by
  unfold setWitness
  repeat' first
    | rfl
    | (simp; done)
    | split
    | (apply foldl_seen_eq <;> intros)
    | simp

@[simp] theorem setSecret_seen (c : Cmd) (s : State) :
    (setSecret c s).seen = s.seen := by
  unfold setSecret
  repeat' first
    | rfl
    | (simp; done)
    | split
    | (apply foldl_seen_eq <;> intros)
    | simp

@[simp] theorem setLimit_seen (code l : Nat) (s : State) :
    (setLimit code l s).seen = s.seen := by
  unfold setLimit
  repeat' first
    | rfl
    | (simp; done)
    | split
    | (apply foldl_seen_eq <;> intros)
    | simp

theorem setSimple_seen (c : Cmd) (fid sel : Nat) {s t : State} (e : setSimple c fid sel s = .ok t) : t.seen = s.seen := by
  unfold setSimple at e
  dsimp only at e
  repeat' split at e
  all_goals first
    | (simp only [reduceCtorEq] at e; done)
    | (injection e with e; subst e; simp)
    | (injection e with e; subst e; rfl)

@[simp] theorem conclude_seen (ref : CmdRef) (r : W64) (b : Bytes) (s : State) : (conclude ref r b s).seen = s.seen := by
  unfold conclude; split <;> simp

@[simp] theorem changed_seen (ref : CmdRef) (n : Nat) (s : State) : (changed ref n s).seen = s.seen := conclude_seen ..

@[simp] theorem setFeature_seen (c : Cmd) (s : State) : (setFeature c s).seen = s.seen := by
  unfold setFeature
  dsimp only
  repeat' split
  all_goals first
    | (simp; done)
    | (rename_i h _; exact (changed_seen ..).trans (setSimple_seen _ _ _ h))
    | (rename_i h _; exact (ok_seen ..).trans (setSimple_seen _ _ _ h))

@[simp] theorem noteLabel_seen (s : State) (x : Nat × Bytes) :
    (noteLabel s x).seen = s.seen := by
  simp [noteLabel]

@[simp] theorem blankHeader_seen (n : Nat) (s : State) : (blankHeader n s).seen = s.seen := by
  unfold blankHeader
  repeat' first
    | rfl
    | (simp; done)
    | split
    | (apply foldl_seen_eq <;> intros)
    | simp

@[simp] theorem writeHeaders_seen (off : Nat) (l : List (Nat × Bytes)) (s : State) :
    (writeHeaders off l s).seen = s.seen := by
  unfold writeHeaders
  repeat' first
    | rfl
    | (simp; done)
    | split
    | (apply foldl_seen_eq <;> intros)

@[simp] theorem relabel_seen (num : Nat) (s : State) :
    (relabel num s).seen = s.seen := by
  unfold relabel
  repeat' first
    | rfl
    | (simp; done)
    | split
    | (apply foldl_seen_eq <;> intros)
    | simp

@[simp] theorem reserveNs_seen (n : Nat) (s : State) :
    (reserveNs n s).seen = s.seen := by
  unfold reserveNs
  repeat' first
    | rfl
    | (simp; done)
    | split
    | (apply foldl_seen_eq <;> intros)

@[simp] theorem releaseNs_seen (n : Nat) (s : State) :
    (releaseNs n s).seen = s.seen := by
  unfold releaseNs
  repeat' first
    | rfl
    | (simp; done)
    | split
    | (apply foldl_seen_eq <;> intros)

@[simp] theorem startFormat_seen (c : Cmd) (home : Nat) (n : Ns) (s : State) :
    (startFormat c home n s).seen = s.seen := by
  simp [startFormat]

@[simp] theorem formatted_seen (b : Nat) (prot : Bool) (n : Nat) (s : State) :
    (formatted b prot n s).seen = s.seen := by
  simp [formatted]

@[simp] theorem makePool_seen (c : Cmd) (s : State) : (makePool c s).seen = s.seen := by
  unfold makePool
  split
  rename_i uid s0 e
  have h0 : s0.seen = s.seen := snd_seen e (freshUid_seen s)
  extract_lets g age p s1 s2
  have h1 : s1.seen = s.seen := h0
  have h2 : s2.seen = s.seen := (foldl_seen _ (fun _ _ => by simp) _ _).trans ((writeHeaders_seen ..).trans h1)
  exact (conclude_seen ..).trans h2

@[simp] theorem createPool_seen (c : Cmd) (s : State) :
    (createPool c s).seen = s.seen := by
  unfold createPool
  repeat' first
    | rfl
    | (simp; done)
    | split
    | (apply foldl_seen_eq <;> intros)
    | simp

@[simp] theorem endDestroy_seen (c : Cmd) (p : Pool) (s : State) :
    (endDestroy c p s).seen = s.seen := by
  unfold endDestroy
  repeat' first
    | rfl
    | (simp; done)
    | split
    | (apply foldl_seen_eq <;> intros)
    | simp

@[simp] theorem tryDestroy_seen (ref : CmdRef) (s : State) :
    (tryDestroy ref s).seen = s.seen := by
  unfold tryDestroy
  (repeat' split) <;> simp

@[simp] theorem destroyPool_seen (c : Cmd) (s : State) :
    (destroyPool c s).seen = s.seen := by
  unfold destroyPool
  (repeat' split) <;> simp

@[simp] theorem attach_seen (c : Cmd) (s : State) :
    (attach c s).seen = s.seen := by
  unfold attach
  split <;> simp

theorem joinThen_seen (c : Cmd) (p : Pool) (flags : Nat) (go : Cmd → State → State) (h : ∀ c s, (go c s).seen = s.seen)
    (s : State) : (joinThen c p flags go s).seen = s.seen := by
  unfold joinThen
  repeat' split
  all_goals simp [h]

@[simp] theorem addMember_seen (c : Cmd) (s : State) : (addMember c s).seen = s.seen := by
  unfold addMember
  repeat' split
  all_goals first
    | (simp; done)
    | exact joinThen_seen _ _ _ _ (fun _ _ => by simp) _

@[simp] theorem planFor_seen (num n : Nat) (s : State) :
    (planFor num n s).seen = s.seen := by
  unfold planFor
  repeat' first
    | rfl
    | (simp; done)
    | split
    | (apply foldl_seen_eq <;> intros)
    | simp

@[simp] theorem replaceEnd_seen (c : Cmd) (s : State) :
    (replaceEnd c s).seen = s.seen := by
  unfold replaceEnd
  (repeat' split) <;> simp

@[simp] theorem replaceMember_seen (c : Cmd) (s : State) : (replaceMember c s).seen = s.seen := by
  unfold replaceMember
  repeat' split
  all_goals first
    | exact fail_seen ..
    | exact State_updCmd_seen ..
    | exact joinThen_seen _ _ _ _ (fun _ _ => by simp) _

@[simp] theorem afterFormat_seen (c : Cmd) (s : State) :
    (afterFormat c s).seen = s.seen := by
  unfold afterFormat
  split <;> simp

@[simp] theorem formatDone_seen (m : MCmd) (ref : CmdRef) (b : Nat) (prot : Bool) (s : State) :
    (formatDone m ref b prot s).seen = s.seen := by
  unfold formatDone
  repeat' first
    | rfl
    | (simp; done)
    | split
    | (apply foldl_seen_eq <;> intros)
    | simp

@[simp] theorem formatFailed_seen (ref : CmdRef) (s : State) :
    (formatFailed ref s).seen = s.seen := by
  simp [formatFailed]

@[simp] theorem retirePending_seen (c : Cmd) (p : Pool) (i : Nat) (s : State) :
    (retirePending c p i s).seen = s.seen := by
  unfold retirePending
  (repeat' split) <;> simp

@[simp] theorem retireMember_seen (c : Cmd) (s : State) :
    (retireMember c s).seen = s.seen := by
  unfold retireMember
  repeat' first
    | rfl
    | (simp; done)
    | split
    | (apply foldl_seen_eq <;> intros)
    | simp

@[simp] theorem poolStatus_seen (c : Cmd) (s : State) :
    (poolStatus c s).seen = s.seen := by
  unfold poolStatus
  (repeat' split) <;> simp

@[simp] theorem memberStatus_seen (c : Cmd) (s : State) :
    (memberStatus c s).seen = s.seen := by
  unfold memberStatus
  (repeat' split) <;> simp

@[simp] theorem lostBlockList_seen (c : Cmd) (s : State) :
    (lostBlockList c s).seen = s.seen := by
  unfold lostBlockList
  (repeat' split) <;> simp

@[simp] theorem sweepCheckpoint_seen (num st : Nat) (s : State) :
    (sweepCheckpoint num st s).seen = s.seen := by
  unfold sweepCheckpoint
  split <;> simp

@[simp] theorem rebuildControl_seen (c : Cmd) (s : State) :
    (rebuildControl c s).seen = s.seen := by
  unfold rebuildControl
  repeat' first
    | rfl
    | (simp; done)
    | split
    | (apply foldl_seen_eq <;> intros)
    | simp

@[simp] theorem endPass_seen (num : Nat) (s : State) :
    (endPass num s).seen = s.seen := by
  unfold endPass
  (repeat' split) <;> simp

@[simp] theorem startPass_seen (num : Nat) (s : State) :
    (startPass num s).seen = s.seen := by
  unfold startPass
  repeat' first
    | rfl
    | (simp; done)
    | split
    | (apply foldl_seen_eq <;> intros)
    | simp

@[simp] theorem scrubControl_seen (c : Cmd) (s : State) :
    (scrubControl c s).seen = s.seen := by
  unfold scrubControl
  repeat' first
    | rfl
    | (simp; done)
    | split
    | (apply foldl_seen_eq <;> intros)
    | simp

@[simp] theorem writeCopy_seen (p : Pool) (es : List JEntry) (member slot : Nat) (s : State) : (writeCopy p es member slot s).seen = s.seen := by
  unfold writeCopy
  repeat' first
    | rfl
    | (simp; done)
    | split
    | (apply foldl_seen_eq <;> intros)
    | simp

@[simp] theorem spillPool_seen (d pool : Nat) (es : List JEntry) (s : State) :
    (spillPool d pool es s).seen = s.seen := by
  unfold spillPool
  repeat' first
    | rfl
    | (simp; done)
    | split
    | (apply foldl_seen_eq <;> intros)
    | simp

@[simp] theorem replaceCopy_seen (p : Pool) (member : Nat) (s : State) (g : Segment) : (replaceCopy p member s g).seen = s.seen := by
  unfold replaceCopy
  repeat' first
    | rfl
    | (simp; done)
    | split
    | (apply foldl_seen_eq <;> intros)
    | simp

@[simp] theorem newUnitRecords_seen (p : Pool) (vol : Nat) (is : List Nat) (s : State) :
    (newUnitRecords p vol is s).seen = s.seen := by
  unfold newUnitRecords
  repeat' first
    | rfl
    | (simp; done)
    | split
    | (apply foldl_seen_eq <;> intros)
    | simp

@[simp] theorem createVolume_seen (c : Cmd) (s : State) :
    (createVolume c s).seen = s.seen := by
  unfold createVolume
  repeat' first
    | rfl
    | (simp; done)
    | split
    | (apply foldl_seen_eq <;> intros)
    | simp

@[simp] theorem freeUnitRecords_seen (p : Pool) (vol : Nat) (is : List Nat) (s : State) :
    (freeUnitRecords p vol is s).seen = s.seen := by
  unfold freeUnitRecords
  repeat' first
    | rfl
    | (simp; done)
    | split
    | (apply foldl_seen_eq <;> intros)

@[simp] theorem forgetLost_seen (num vol lba : Nat) (s : State) :
    (forgetLost num vol lba s).seen = s.seen := by
  simp [forgetLost]

@[simp] theorem endDelete_seen (v : Vol) (s : State) :
    (endDelete v s).seen = s.seen := by
  unfold endDelete
  split <;> simp

@[simp] theorem tryDelete_seen (ref : CmdRef) (s : State) :
    (tryDelete ref s).seen = s.seen := by
  unfold tryDelete
  (repeat' split) <;> simp

@[simp] theorem deleteVolume_seen (c : Cmd) (s : State) :
    (deleteVolume c s).seen = s.seen := by
  unfold deleteVolume
  split <;> simp

@[simp] theorem resizeVolume_seen (c : Cmd) (s : State) :
    (resizeVolume c s).seen = s.seen := by
  unfold resizeVolume
  repeat' first
    | rfl
    | (simp; done)
    | split
    | (apply foldl_seen_eq <;> intros)
    | simp

@[simp] theorem putSector_seen (d : Nat) (p : Pool) (new : Bool) (st o y : Nat) (x : Nat → Sector) (s : State) :
    (putSector d p new st o y x s).seen = s.seen := by
  unfold putSector
  repeat' first
    | rfl
    | (simp; done)
    | split
    | (apply foldl_seen_eq <;> intros)
    | simp

@[simp] theorem putCoded_seen (d : Nat) (p : Pool) (new : Bool) (st q o gen : Nat) (coded : Bytes) (ys : List Nat) (s : State) :
    (putCoded d p new st q o gen coded ys s).seen = s.seen := by
  unfold putCoded
  repeat' first
    | rfl
    | (simp; done)
    | split
    | (apply foldl_seen_eq <;> intros)
    | simp

@[simp] theorem mendOffset_seen (d : Nat) (p : Pool) (work new : Bool) (st o : Nat) (bad : List Nat) (s : State) :
    (mendOffset d p work new st o bad s).seen = s.seen := by
  unfold mendOffset
  repeat' first
    | rfl
    | (simp; done)
    | split
    | (apply foldl_seen_eq <;> intros)
    | simp

@[simp] theorem countRepair_seen (p : Pool) (new : Bool) (stripe q : Nat) (s : State) :
    (countRepair p new stripe q s).seen = s.seen := by
  unfold countRepair
  split <;> simp

@[simp] theorem foundBad_seen (p : Pool) (new : Bool) (st o q : Nat) (s : State) :
    (foundBad p new st o q s).seen = s.seen := by
  unfold foundBad
  repeat' first
    | rfl
    | (simp; done)
    | split
    | (apply foldl_seen_eq <;> intros)
    | simp

@[simp] theorem foundAll_seen (p : Pool) (new : Bool) (st o : Nat) (bad : List Nat) (s : State) :
    (foundAll p new st o bad s).seen = s.seen := by
  unfold foundAll
  repeat' first
    | rfl
    | (simp; done)
    | split
    | (apply foldl_seen_eq <;> intros)
    | simp

@[simp] theorem mendTile_seen (p : Pool) (new : Bool) (tile : Nat) (bad : List BadOff) (s : State) :
    (mendTile p new tile bad s).seen = s.seen := by
  unfold mendTile
  repeat' first
    | rfl
    | (simp; done)
    | split
    | (apply foldl_seen_eq <;> intros)
    | simp

@[simp] theorem copyBlock_seen (d : Nat) (p : Pool) (new : Bool) (x st q o : Nat) (s : State) :
    (copyBlock d p new x st q o s).seen = s.seen := by
  unfold copyBlock
  repeat' first
    | rfl
    | (simp; done)
    | split
    | (apply foldl_seen_eq <;> intros)
    | simp

@[simp] theorem copyTile_seen (p : Pool) (new : Bool) (x tile : Nat) (s : State) :
    (copyTile p new x tile s).seen = s.seen := by
  unfold copyTile
  repeat' first
    | rfl
    | (simp; done)
    | split
    | (apply foldl_seen_eq <;> intros)
    | simp

@[simp] theorem scrubMend_seen (p : Pool) (st o : Nat) (bad : List Nat) (s : State) :
    (scrubMend p st o bad s).seen = s.seen := by
  unfold scrubMend
  repeat' first
    | rfl
    | (simp; done)
    | split
    | (apply foldl_seen_eq <;> intros)
    | simp

@[simp] theorem scrubParity_seen (p : Pool) (st o : Nat) (s : State) :
    (scrubParity p st o s).seen = s.seen := by
  unfold scrubParity
  repeat' first
    | rfl
    | (simp; done)
    | split
    | (apply foldl_seen_eq <;> intros)
    | simp

@[simp] theorem scrubCopies_seen (p : Pool) (st o : Nat) (bad : List Nat) (s : State) :
    (scrubCopies p st o bad s).seen = s.seen := by
  unfold scrubCopies
  repeat' first
    | rfl
    | (simp; done)
    | split
    | (apply foldl_seen_eq <;> intros)
    | simp

@[simp] theorem reshapePlan_seen (c : Cmd) (s : State) :
    (reshapePlan c s).seen = s.seen := by
  unfold reshapePlan
  (repeat' split) <;> simp

@[simp] theorem writePlans_seen (p : Pool) (r : Reshape) (s : State) :
    (writePlans p r s).seen = s.seen := by
  simp [writePlans]

@[simp] theorem mapSwitch_seen (p : Pool) (r : Reshape) (kind : Nat) (s : State) :
    (mapSwitch p r kind s).seen = s.seen := by
  simp [mapSwitch]

@[simp] theorem reshapeStart_seen (c : Cmd) (s : State) :
    (reshapeStart c s).seen = s.seen := by
  unfold reshapeStart
  repeat' first
    | rfl
    | (simp; done)
    | split
    | (apply foldl_seen_eq <;> intros)

@[simp] theorem reshapeCheckpoint_seen (num st reason : Nat) (s : State) :
    (reshapeCheckpoint num st reason s).seen = s.seen := by
  unfold reshapeCheckpoint
  (repeat' split) <;> simp

@[simp] theorem State_updReshape_seen (s : State) (num : Nat) (f : Reshape → Reshape) :
    (State.updReshape s num f).seen = s.seen := by
  simp [State.updReshape]

@[simp] theorem pauseFor_seen (num reason : Nat) (s : State) :
    (pauseFor num reason s).seen = s.seen := by
  unfold pauseFor
  split <;> simp

@[simp] theorem resumeFrom_seen (num reason : Nat) (s : State) :
    (resumeFrom num reason s).seen = s.seen := by
  unfold resumeFrom
  repeat' first
    | rfl
    | (simp; done)
    | split
    | (apply foldl_seen_eq <;> intros)
    | simp

@[simp] theorem boundary_seen (num : Nat) (s : State) :
    (boundary num s).seen = s.seen := by
  unfold boundary
  repeat' first
    | rfl
    | (simp; done)
    | split
    | (apply foldl_seen_eq <;> intros)

@[simp] theorem reshapeControl_seen (c : Cmd) (s : State) :
    (reshapeControl c s).seen = s.seen := by
  unfold reshapeControl
  (repeat' split) <;> simp

@[simp] theorem oneGeometry_seen (num : Nat) (s : State) :
    (oneGeometry num s).seen = s.seen := by
  simp [oneGeometry]

@[simp] theorem settleHalves_seen (num : Nat) (kept : Bool) (s : State) :
    (settleHalves num kept s).seen = s.seen := by
  unfold settleHalves
  repeat' first
    | rfl
    | (simp; done)
    | split
    | (apply foldl_seen_eq <;> intros)

@[simp] theorem releaseMember_seen (p : Pool) (x : Member × Nat) (s : State) :
    (releaseMember p x s).seen = s.seen := by
  unfold releaseMember
  split <;> simp

@[simp] theorem switchMap_seen (num : Nat) (r : Reshape) (s : State) :
    (switchMap num r s).seen = s.seen := by
  unfold switchMap
  repeat' first
    | rfl
    | (simp; done)
    | split
    | (apply foldl_seen_eq <;> intros)
    | simp

@[simp] theorem completeReshape_seen (num : Nat) (s : State) :
    (completeReshape num s).seen = s.seen := by
  unfold completeReshape
  repeat' first
    | rfl
    | (simp; done)
    | split
    | (apply foldl_seen_eq <;> intros)
    | simp

@[simp] theorem keepMap_seen (num : Nat) (s : State) :
    (keepMap num s).seen = s.seen := by
  unfold keepMap
  repeat' first
    | rfl
    | (simp; done)
    | split
    | (apply foldl_seen_eq <;> intros)
    | simp

@[simp] theorem endCancel_seen (num : Nat) (s : State) :
    (endCancel num s).seen = s.seen := by
  unfold endCancel
  repeat' first
    | rfl
    | (simp; done)
    | split
    | (apply foldl_seen_eq <;> intros)

@[simp] theorem tileWritten_seen (num : Nat) (new : Bool) (t : Nat) (s : State) :
    (tileWritten num new t s).seen = s.seen := by
  unfold tileWritten
  split <;> simp

@[simp] theorem stageStep_seen (p : Pool) (lo hi : Nat) (s : State) :
    (stageStep p lo hi s).seen = s.seen := by
  unfold stageStep
  repeat' first
    | rfl
    | (simp; done)
    | split
    | (apply foldl_seen_eq <;> intros)
    | simp

@[simp] theorem beginStep_seen (p : Pool) (r : Reshape) (s : State) :
    (beginStep p r s).seen = s.seen := by
  unfold beginStep
  repeat' first
    | rfl
    | (simp; done)
    | split
    | (apply foldl_seen_eq <;> intros)
    | simp

@[simp] theorem writeTile_seen (p : Pool) (new : Bool) (tile : Nat) (what : Nat → Option (Bytes × Bytes)) (s : State) :
    (writeTile p new tile what s).seen = s.seen := by
  unfold writeTile
  repeat' first
    | rfl
    | (simp; done)
    | split
    | (apply foldl_seen_eq <;> intros)
    | simp

@[simp] theorem takeAsked_seen (num : Nat) (s : State) :
    (takeAsked num s).seen = s.seen := by
  unfold takeAsked
  repeat' first
    | rfl
    | (simp; done)
    | split
    | (apply foldl_seen_eq <;> intros)
    | simp

@[simp] theorem commitStep_seen (p : Pool) (k : StepLock) (s : State) :
    (commitStep p k s).seen = s.seen := by
  unfold commitStep
  repeat' first
    | rfl
    | (simp; done)
    | split
    | (apply foldl_seen_eq <;> intros)
    | simp

@[simp] theorem writeStep_seen (p : Pool) (k : StepLock) (s : State) :
    (writeStep p k s).seen = s.seen := by
  unfold writeStep
  repeat' first
    | rfl
    | (simp; done)
    | split
    | (apply foldl_seen_eq <;> intros)
    | simp

@[simp] theorem redoStep_seen (num : Nat) (s : State) :
    (redoStep num s).seen = s.seen := by
  unfold redoStep
  repeat' first
    | rfl
    | (simp; done)
    | split
    | (apply foldl_seen_eq <;> intros)
    | simp

@[simp] theorem runStep_seen (p : Pool) (r : Reshape) (s : State) :
    (runStep p r s).seen = s.seen := by
  unfold runStep
  repeat' first
    | rfl
    | (simp; done)
    | split
    | (apply foldl_seen_eq <;> intros)
    | simp

@[simp] theorem mitreStep_seen (num : Nat) (s : State) :
    (mitreStep num s).seen = s.seen := by
  unfold mitreStep
  repeat' first
    | rfl
    | (simp; done)
    | split
    | (apply foldl_seen_eq <;> intros)
    | simp

@[simp] theorem veneerBuild_seen (num : Nat) (s : State) :
    (veneerBuild num s).seen = s.seen := by
  unfold veneerBuild
  repeat' first
    | rfl
    | (simp; done)
    | split
    | (apply foldl_seen_eq <;> intros)
    | simp

@[simp] theorem veneerSwitch_seen (num : Nat) (s : State) :
    (veneerSwitch num s).seen = s.seen := by
  unfold veneerSwitch
  (repeat' split) <;> simp

@[simp] theorem reshapeCancelled_seen (num : Nat) (s : State) :
    (reshapeCancelled num s).seen = s.seen := by
  unfold reshapeCancelled
  (repeat' split) <;> simp

@[simp] theorem dispatchTiles_seen (num : Nat) (s : State) :
    (dispatchTiles num s).seen = s.seen := by
  unfold dispatchTiles
  repeat' first
    | rfl
    | (simp; done)
    | split
    | (apply foldl_seen_eq <;> intros)
    | simp

@[simp] theorem startSweep_seen (num : Nat) (s : State) :
    (startSweep num s).seen = s.seen := by
  unfold startSweep
  repeat' first
    | rfl
    | (simp; done)
    | split
    | (apply foldl_seen_eq <;> intros)
    | simp

@[simp] theorem rebuildStart_seen (num : Nat) (s : State) :
    (rebuildStart num s).seen = s.seen := by
  unfold rebuildStart
  (repeat' split) <;> simp

@[simp] theorem finishMember_seen (num i : Nat) (pend : Bool) (s : State) :
    (finishMember num i pend s).seen = s.seen := by
  unfold finishMember
  repeat' first
    | rfl
    | (simp; done)
    | split
    | (apply foldl_seen_eq <;> intros)
    | simp

@[simp] theorem finishMembers_seen (num : Nat) (s : State) :
    (finishMembers num s).seen = s.seen := by
  unfold finishMembers
  repeat' first
    | rfl
    | (simp; done)
    | split
    | (apply foldl_seen_eq <;> intros)

@[simp] theorem noteUmbra_seen (num : Nat) (s : State) :
    (noteUmbra num s).seen = s.seen := by
  unfold noteUmbra
  repeat' first
    | rfl
    | (simp; done)
    | split
    | (apply foldl_seen_eq <;> intros)
    | simp

@[simp] theorem sweepProgress_seen (num : Nat) (s0 : State) :
    (sweepProgress num s0).seen = s0.seen := by
  unfold sweepProgress
  repeat' first
    | rfl
    | (simp; done)
    | split
    | (apply foldl_seen_eq <;> intros)
    | simp

@[simp] theorem loseTile_seen (p : Pool) (new : Bool) (tile : Nat) (bad : List BadOff) (s : State) :
    (loseTile p new tile bad s).seen = s.seen := by
  unfold loseTile
  repeat' first
    | rfl
    | (simp; done)
    | split
    | (apply foldl_seen_eq <;> intros)

@[simp] theorem workDone_seen (num : Nat) (j : TileJob) (s : State) :
    (workDone num j s).seen = s.seen := by
  unfold workDone
  repeat' first
    | rfl
    | (simp; done)
    | split
    | (apply foldl_seen_eq <;> intros)
    | simp

@[simp] theorem moveStop_seen (num cls : Nat) (new : Bool) (tile : Nat) (s : State) :
    (moveStop num cls new tile s).seen = s.seen := by
  unfold moveStop
  repeat' first
    | rfl
    | (simp; done)
    | split
    | (apply foldl_seen_eq <;> intros)
    | simp

@[simp] theorem addJob_seen (num : Nat) (j : TileJob) (s : State) :
    (addJob num j s).seen = s.seen := by
  unfold addJob
  repeat' first
    | rfl
    | (simp; done)
    | split
    | (apply foldl_seen_eq <;> intros)
    | simp

@[simp] theorem rebuildTile_seen (num tile : Nat) (new : Bool) (bad : List BadOff) (s : State) :
    (rebuildTile num tile new bad s).seen = s.seen := by
  unfold rebuildTile
  repeat' first
    | rfl
    | (simp; done)
    | split
    | (apply foldl_seen_eq <;> intros)
    | simp

@[simp] theorem rebuildResort_seen (num : Nat) (s : State) :
    (rebuildResort num s).seen = s.seen := by
  unfold rebuildResort
  (repeat' split) <;> simp

@[simp] theorem copyBack_seen (num x tile : Nat) (new : Bool) (s : State) :
    (copyBack num x tile new s).seen = s.seen := by
  unfold copyBack
  repeat' first
    | rfl
    | (simp; done)
    | split
    | (apply foldl_seen_eq <;> intros)
    | simp

@[simp] theorem scrubStart_seen (num : Nat) (s : State) :
    (scrubStart num s).seen = s.seen := by
  unfold scrubStart
  repeat' first
    | rfl
    | (simp; done)
    | split
    | (apply foldl_seen_eq <;> intros)
    | simp

@[simp] theorem scrubbed_seen (num n : Nat) (s : State) :
    (scrubbed num n s).seen = s.seen := by
  simp [scrubbed]

@[simp] theorem mismatched_seen (num : Nat) (s : State) :
    (mismatched num s).seen = s.seen := by
  simp [mismatched]

@[simp] theorem scrubOne_seen (p : Pool) (f : ScrubOff) (s : State) :
    (scrubOne p f s).seen = s.seen := by
  unfold scrubOne
  repeat' first
    | rfl
    | (simp; done)
    | split
    | (apply foldl_seen_eq <;> intros)
    | simp

@[simp] theorem noteBehind_seen (num : Nat) (s : State) :
    (noteBehind num s).seen = s.seen := by
  unfold noteBehind
  repeat' first
    | rfl
    | (simp; done)
    | split
    | (apply foldl_seen_eq <;> intros)
    | simp

@[simp] theorem nextPass_seen (num : Nat) (s : State) :
    (nextPass num s).seen = s.seen := by
  unfold nextPass
  repeat' first
    | rfl
    | (simp; done)
    | split
    | (apply foldl_seen_eq <;> intros)
    | simp

@[simp] theorem scrubTile_seen (num tile : Nat) (found : List ScrubOff) (s : State) :
    (scrubTile num tile found s).seen = s.seen := by
  unfold scrubTile
  repeat' first
    | rfl
    | (simp; done)
    | split
    | (apply foldl_seen_eq <;> intros)
    | simp

@[simp] theorem lostWrite_seen (num : Nat) (s : State) :
    (lostWrite num s).seen = s.seen := by
  unfold lostWrite
  repeat' first
    | rfl
    | (simp; done)
    | split
    | (apply foldl_seen_eq <;> intros)
    | simp

@[simp] theorem State_updMcmd_seen (s : State) (i : Nat) (f : MCmd → MCmd) :
    (State.updMcmd s i f).seen = s.seen := by
  simp [State.updMcmd]

@[simp] theorem State_endMcmd_seen (s : State) (i : Nat) :
    (State.endMcmd s i).seen = s.seen := by
  simp [State.endMcmd]

@[simp] theorem State_closeMcmd_seen (s : State) (m : MCmd) : (State.closeMcmd s m).seen = s.seen := by
  unfold State.closeMcmd
  repeat' first
    | rfl
    | (simp; done)
    | split
    | (apply foldl_seen_eq <;> intros)
    | simp

@[simp] theorem resubmit_seen (m : MCmd) (s : State) :
    (resubmit m s).seen = s.seen := by
  simp [resubmit]

@[simp] theorem State_updMember_seen (s : State) (ns : Nat) (f : Member → Member) :
    (State.updMember s ns f).seen = s.seen := by
  simp [State.updMember]

@[simp] theorem recover_seen (ns : Nat) (s : State) :
    (recover ns s).seen = s.seen := by
  unfold recover
  split <;> simp

@[simp] theorem sealFault_seen (m : MCmd) (x : Option Sector) (ok : Bool) (s : State) :
    (sealFault m x ok s).seen = s.seen := by
  unfold sealFault
  split <;> simp

@[simp] theorem fetchGot_seen (ref : CmdRef) (key pos : Nat) (m : MCmd) (x : Option Sector) (s : State) :
    (fetchGot ref key pos m x s).seen = s.seen := by
  simp [fetchGot]

@[simp] theorem destageGot_seen (i pos off : Nat) (m : MCmd) (x : Option Sector) (s : State) :
    (destageGot i pos off m x s).seen = s.seen := by
  simp [destageGot]

@[simp] theorem resubmitLater_seen (m : MCmd) (s : State) :
    (resubmitLater m s).seen = s.seen := by
  unfold resubmitLater
  repeat' first
    | rfl
    | (simp; done)
    | split
    | (apply foldl_seen_eq <;> intros)
    | simp

@[simp] theorem writeFailed_seen (m : MCmd) (s : State) :
    (writeFailed m s).seen = s.seen := by
  unfold writeFailed
  split <;> simp

@[simp] theorem memberOk_seen (m : MCmd) (x : Option Sector) (s : State) :
    (memberOk m x s).seen = s.seen := by
  unfold memberOk
  (repeat' split) <;> simp

@[simp] theorem memberErr_seen (m : MCmd) (sector : Bool) (s : State) :
    (memberErr m sector s).seen = s.seen := by
  unfold memberErr
  (repeat' split) <;> simp

@[simp] theorem attemptAborted_seen (m : MCmd) (s : State) :
    (attemptAborted m s).seen = s.seen := by
  unfold attemptAborted
  repeat' first
    | rfl
    | (simp; done)
    | split
    | (apply foldl_seen_eq <;> intros)
    | simp

@[simp] theorem sectorDone_seen (i : Nat) (s : State) :
    (sectorDone i s).seen = s.seen := by
  unfold sectorDone
  (repeat' split) <;> simp

@[simp] theorem slowRead_seen (m : MCmd) (s : State) :
    (slowRead m s).seen = s.seen := by
  unfold slowRead
  (repeat' split) <;> simp

@[simp] theorem commandRetried_seen (i : Nat) (s : State) :
    (commandRetried i s).seen = s.seen := by
  unfold commandRetried
  (repeat' split) <;> simp

@[simp] theorem memberTimedOut_seen (i : Nat) (s : State) :
    (memberTimedOut i s).seen = s.seen := by
  unfold memberTimedOut
  (repeat' split) <;> simp

@[simp] theorem formatTimedOut_seen (i : Nat) (s : State) :
    (formatTimedOut i s).seen = s.seen := by
  unfold formatTimedOut
  (repeat' split) <;> simp

@[simp] theorem memberGone_seen (ns : Nat) (s : State) :
    (memberGone ns s).seen = s.seen := by
  unfold memberGone
  split <;> simp

@[simp] theorem memberFatal_seen (ns : Nat) (s : State) :
    (memberFatal ns s).seen = s.seen := by
  unfold memberFatal
  split <;> simp

@[simp] theorem healthWarn_seen (ns : Nat) (warn : BitVec 8) (s : State) :
    (healthWarn ns warn s).seen = s.seen := by
  unfold healthWarn
  (repeat' split) <;> simp

@[simp] theorem pathEvent_seen (code ns d : Nat) (s : State) :
    (pathEvent code ns d s).seen = s.seen := by
  unfold pathEvent
  split <;> simp

@[simp] theorem losePath_seen (ns d : Nat) (s : State) :
    (losePath ns d s).seen = s.seen := by
  unfold losePath
  split <;> simp

@[simp] theorem restorePath_seen (ns d : Nat) (s : State) :
    (restorePath ns d s).seen = s.seen := by
  unfold restorePath
  split <;> simp

@[simp] theorem judgeMember_seen (ns : Nat) (s : State) :
    (judgeMember ns s).seen = s.seen := by
  unfold judgeMember
  (repeat' split) <;> simp

@[simp] theorem refusePaths_seen (i : NsInfo) (n : Nat) (s : State) : (refusePaths i n s).seen = s.seen := by
  unfold refusePaths
  repeat' first
    | rfl
    | (simp; done)
    | split
    | (apply foldl_seen_eq <;> intros)
    | simp

@[simp] theorem memberAppears_seen (i : NsInfo) (s : State) :
    (memberAppears i s).seen = s.seen := by
  unfold memberAppears
  split
  · split
    · rfl
    · simp
  · rfl

@[simp] theorem createTenant_seen (c : Cmd) (s : State) :
    (createTenant c s).seen = s.seen := by
  unfold createTenant
  repeat' first
    | rfl
    | (simp; done)
    | split
    | (apply foldl_seen_eq <;> intros)
    | simp

@[simp] theorem deleteTenant_seen (c : Cmd) (s : State) :
    (deleteTenant c s).seen = s.seen := by
  unfold deleteTenant
  (repeat' split) <;> simp

@[simp] theorem bindRing_seen (c : Cmd) (o : Nat) (t : Option Nat) (s : State) :
    (bindRing c o t s).seen = s.seen := by
  unfold bindRing
  repeat' first
    | rfl
    | (simp; done)
    | split
    | (apply foldl_seen_eq <;> intros)
    | simp

@[simp] theorem bindFn_seen (c : Cmd) (o : Nat) (t : Option Nat) (s : State) :
    (bindFn c o t s).seen = s.seen := by
  unfold bindFn
  repeat' first
    | rfl
    | (simp; done)
    | split
    | (apply foldl_seen_eq <;> intros)
    | simp

@[simp] theorem bindEp_seen (c : Cmd) (o : Nat) (t : Option Nat) (s : State) :
    (bindEp c o t s).seen = s.seen := by
  unfold bindEp
  repeat' first
    | rfl
    | (simp; done)
    | split
    | (apply foldl_seen_eq <;> intros)
    | simp

@[simp] theorem bindObject_seen (c : Cmd) (s : State) :
    (bindObject c s).seen = s.seen := by
  unfold bindObject
  repeat' first
    | rfl
    | (simp; done)
    | split
    | (apply foldl_seen_eq <;> intros)
    | simp

@[simp] theorem loadDeviceKey_seen (c : Cmd) (s : State) :
    (loadDeviceKey c s).seen = s.seen := by
  unfold loadDeviceKey
  repeat' first
    | rfl
    | (simp; done)
    | split
    | (apply foldl_seen_eq <;> intros)
    | simp

@[simp] theorem loadTenantKey_seen (c : Cmd) (s : State) :
    (loadTenantKey c s).seen = s.seen := by
  unfold loadTenantKey
  repeat' first
    | rfl
    | (simp; done)
    | split
    | (apply foldl_seen_eq <;> intros)
    | simp

@[simp] theorem loadKey_seen (c : Cmd) (s : State) :
    (loadKey c s).seen = s.seen := by
  unfold loadKey
  split <;> simp

@[simp] theorem endKeyless_seen (s : State) (d : Cmd) :
    (endKeyless s d).seen = s.seen := by
  unfold endKeyless
  (repeat' split) <;> simp

@[simp] theorem eraseKey_seen (c : Cmd) (s : State) :
    (eraseKey c s).seen = s.seen := by
  unfold eraseKey
  repeat' first
    | rfl
    | (simp; done)
    | split
    | (apply foldl_seen_eq <;> intros)
    | simp

@[simp] theorem eraseVol_seen (p : Pool) (v : Vol) (s : State) :
    (eraseVol p v s).seen = s.seen := by
  unfold eraseVol
  repeat' first
    | rfl
    | (simp; done)
    | split
    | (apply foldl_seen_eq <;> intros)

@[simp] theorem eraseMarks_seen (t : Nat) (s : State) :
    (eraseMarks t s).seen = s.seen := by
  unfold eraseMarks
  repeat' first
    | rfl
    | (simp; done)
    | split
    | (apply foldl_seen_eq <;> intros)
    | simp

@[simp] theorem setTenantQos_seen (c : Cmd) (s : State) :
    (setTenantQos c s).seen = s.seen := by
  unfold setTenantQos
  repeat' first
    | rfl
    | (simp; done)
    | split
    | (apply foldl_seen_eq <;> intros)
    | simp

@[simp] theorem redivide_seen (t : Tenant) (s : State) :
    (redivide t s).seen = s.seen := by
  unfold redivide
  repeat' first
    | rfl
    | (simp; done)
    | split
    | (apply foldl_seen_eq <;> intros)

@[simp] theorem capRedivide_seen (s : State) :
    (capRedivide s).seen = s.seen := by
  unfold capRedivide
  repeat' first
    | rfl
    | (simp; done)
    | split
    | (apply foldl_seen_eq <;> intros)

@[simp] theorem meterConfig_seen (c : Cmd) (s : State) :
    (meterConfig c s).seen = s.seen := by
  unfold meterConfig
  repeat' first
    | rfl
    | (simp; done)
    | split
    | (apply foldl_seen_eq <;> intros)
    | simp

@[simp] theorem meterReadCmd_seen (c : Cmd) (s : State) :
    (meterReadCmd c s).seen = s.seen := by
  unfold meterReadCmd
  repeat' first
    | rfl
    | (simp; done)
    | split
    | (apply foldl_seen_eq <;> intros)
    | simp

@[simp] theorem countMinute_seen (s : State) :
    (countMinute s).seen = s.seen := by
  simp [countMinute]

@[simp] theorem deliver_seen (late : Bool) (h : Nat × List (Nat × Meters)) (s : State) : (deliver late h s).seen = s.seen := by
  have k (l : List (Nat × Bytes)) : (l.foldl (fun (s : State) x => s.emit (.meter x.1 x.2)) s).seen = s.seen :=
    foldl_seen _ (fun _ _ => by simp) _ _
  unfold deliver
  split
  · rfl
  dsimp only
  repeat' split
  · exact raisePkg_seen ..
  · exact (raisePkg_seen ..).trans ((sendMsix_seen ..).trans (k _))
  · exact (sendMsix_seen ..).trans (k _)

@[simp] theorem meterSnapshot_seen (late : Bool) (s : State) :
    (meterSnapshot late s).seen = s.seen := by
  unfold meterSnapshot
  dsimp only
  repeat' split
  all_goals simp

@[simp] theorem meterHeadWrite_seen (die : Nat) (a : Acc) (s : State) :
    (meterHeadWrite die a s).seen = s.seen := by
  unfold meterHeadWrite
  repeat' first
    | rfl
    | (simp; done)
    | split
    | (apply foldl_seen_eq <;> intros)
    | simp

/-- Folds that keep the addressed memories of a die keep them from end to end. -/
theorem foldl_mem {α : Type} (f : DieRfl → α → DieRfl) (h : ∀ q a, (f q a).counters = q.counters ∧ (f q a).mirror = q.mirror)
    (l : List α) (q : DieRfl) : (l.foldl f q).counters = q.counters ∧ (l.foldl f q).mirror = q.mirror := by
  induction l generalizing q with
  | nil => exact ⟨rfl, rfl⟩
  | cons a l ih => exact ⟨(ih _).1.trans (h q a).1, (ih _).2.trans (h q a).2⟩

/-- R173: an entry that enters the mirror journal leaves the addressed memories as they were. -/
theorem peerEntry_mem (s : State) (e : JEntry) (q : DieRfl) :
    (peerEntry s e q).counters = q.counters ∧ (peerEntry s e q).mirror = q.mirror := ⟨rfl, rfl⟩

theorem peerUnit_mem (s : State) (e : JEntry) (data : Bytes) (q : DieRfl) :
    (peerUnit s e data q).counters = q.counters ∧ (peerUnit s e data q).mirror = q.mirror := by
  unfold peerUnit
  repeat' split
  all_goals exact ⟨rfl, rfl⟩

/-- R159: a message that enters the mirror journal leaves the addressed memories as they were. -/
theorem peerMessage_mem (s : State) (segs : List Seg) (g : Seg) (q : DieRfl) :
    (peerMessage s segs g q).counters = q.counters ∧ (peerMessage s segs g q).mirror = q.mirror := by
  unfold peerMessage
  dsimp only
  repeat' split
  all_goals first
    | exact peerUnit_mem ..
    | exact foldl_mem _ (fun q e => peerEntry_mem s e q) _ _

@[simp] theorem takePeer_seen (r : PeerRec) (s : State) :
    (takePeer r s).seen = s.seen := by
  unfold takePeer
  repeat' first
    | rfl
    | (simp; done)
    | split
    | (apply foldl_seen_eq <;> intros)
    | simp

@[simp] theorem takeMirror_seen (d : Nat) (g : Seg) (s : State) :
    (takeMirror d g s).seen = s.seen := by
  unfold takeMirror
  dsimp only
  (repeat' split)
  · exact (takePeer_seen ..).trans (updRfl_seen _ _ _ fun _ => peerMessage_mem ..)
  · exact updRfl_seen _ _ _ fun _ => peerMessage_mem ..
  · exact updRfl_seen _ _ _ fun _ => ⟨rfl, rfl⟩

@[simp] theorem takeBlock_seen (d : Nat) (g : Seg) (s : State) : (takeBlock d g s).seen = s.seen := by
  have h : ∀ (u : State) (l : List CBlk), ({ u with cache := l } : State).seen = u.seen := fun _ _ => rfl
  unfold takeBlock
  dsimp only
  (repeat' split)
  · rfl
  · exact (h ..).trans (updRfl_seen _ _ _ fun _ => ⟨rfl, rfl⟩)
  · exact updRfl_seen _ _ _ fun _ => ⟨rfl, rfl⟩

@[simp] theorem beginRejoin_seen (s : State) :
    (beginRejoin s).seen = s.seen := by
  unfold beginRejoin
  repeat' first
    | rfl
    | (simp; done)
    | split
    | (apply foldl_seen_eq <;> intros)
    | simp

@[simp] theorem foldEntry_seen (num : Nat) (s : State) (e : JEntry) :
    (foldEntry num s e).seen = s.seen := by
  unfold foldEntry
  repeat' first
    | rfl
    | (simp; done)
    | split
    | (apply foldl_seen_eq <;> intros)
    | simp

/-- A fold that carries a value beside the state. -/
theorem pair_seen {α β : Type} (f : State × β → α → State × β) (h : ∀ x a, (f x a).1.seen = x.1.seen) (l : List α) (x : State × β) :
    (l.foldl f x).1.seen = x.1.seen := by
  induction l generalizing x with
  | nil => rfl
  | cons a l ih => exact (ih _).trans (h x a)

@[simp] theorem adoptMirror_seen (num d : Nat) (s : State) :
    (adoptMirror num d s).seen = s.seen := by
  unfold adoptMirror
  split
  · dsimp only
    refine (updRfl_seen _ _ _ ?_).trans ?_
    · intro _; exact ⟨rfl, rfl⟩
    · refine (foldl_seen _ (fun s e => foldEntry_seen num s e) _ _).trans ?_
      exact pair_seen _ (fun _ _ => programJ_seen ..) _ _
  · rfl

theorem updRegion_seen (s : State) (d key : Nat) (f : Region → Region) (h : ∀ r, (f r).mem = r.mem) :
    (s.updRegion d key f).seen = s.seen := updRefl_seen _ _ (updIf_map _ _ _ h _) rfl

@[simp] theorem ensureQp_seen (d : Nat) (loc rem : W16) (s : State) :
    (ensureQp d loc rem s).seen = s.seen := by
  unfold ensureQp
  repeat' first
    | rfl
    | (simp; done)
    | split
    | (apply foldl_seen_eq <;> intros)

@[simp] theorem post_seen (m : Msg) (s : State) :
    (post m s).seen = s.seen := by
  unfold post
  repeat' first
    | rfl
    | (simp; done)
    | split
    | (apply foldl_seen_eq <;> intros)

@[simp] theorem failReflect_seen (m : Msg) (st : W16) (result : Nat) (s : State) :
    (failReflect m st result s).seen = s.seen := by
  unfold failReflect
  repeat' first
    | rfl
    | (simp; done)
    | split
    | (apply foldl_seen_eq <;> intros)
    | simp

@[simp] theorem qpError_seen (d : Nat) (loc rem : W16) (s : State) :
    (qpError d loc rem s).seen = s.seen := by
  unfold qpError
  repeat' first
    | rfl
    | (simp; done)
    | split
    | (apply foldl_seen_eq <;> intros)
    | simp

@[simp] theorem unreachable_seen (m : Msg) (s : State) :
    (unreachable m s).seen = s.seen := by
  unfold unreachable
  split <;> simp

@[simp] theorem readWindow_seen (c : Cmd) (s : State) :
    (readWindow c s).seen = s.seen := by
  unfold readWindow
  (repeat' split) <;> simp

@[simp] theorem sendOp_seen (c : Cmd) (s : State) :
    (sendOp c s).seen = s.seen := by
  unfold sendOp
  repeat' first
    | rfl
    | (simp; done)
    | split
    | (apply foldl_seen_eq <;> intros)
    | simp

@[simp] theorem startReflect_seen (ref : CmdRef) (s : State) :
    (startReflect ref s).seen = s.seen := by
  unfold startReflect
  (repeat' split) <;> simp

@[simp] theorem retryReflect_seen (ref : CmdRef) (s : State) :
    (retryReflect ref s).seen = s.seen := by
  unfold retryReflect
  (repeat' split) <;> simp

@[simp] theorem msgDone_seen (m : Msg) (s : State) :
    (msgDone m s).seen = s.seen := by
  unfold msgDone
  repeat' first
    | rfl
    | (simp; done)
    | split
    | (apply foldl_seen_eq <;> intros)
    | simp

@[simp] theorem updMsg_seen (m : Msg) (s : State) :
    (updMsg m s).seen = s.seen := by
  unfold updMsg
  repeat' first
    | rfl
    | (simp; done)
    | split
    | (apply foldl_seen_eq <;> intros)

@[simp] theorem takeAck_seen (d : Nat) (g : Seg) (s : State) :
    (takeAck d g s).seen = s.seen := by
  unfold takeAck
  split
  · simp
  · exact updRfl_seen _ _ _ fun _ => ⟨rfl, rfl⟩

@[simp] theorem dropSystem_seen (d : Nat) (n : W32) (s : State) :
    (dropSystem d n s).seen = s.seen := by
  have h : ∀ (u : State) (k : List CBlk) (l : List Cmd), ({ u with cache := k, cmds := l } : State).seen = u.seen := fun _ _ _ => rfl
  unfold dropSystem
  dsimp only
  refine (h _ _ _).trans ((updJr_seen ..).trans (updRfl_seen _ _ _ ?_))
  intro _; exact ⟨rfl, rfl⟩

@[simp] theorem takeRefuse_seen (d : Nat) (g : Seg) (s : State) :
    (takeRefuse d g s).seen = s.seen := by
  unfold takeRefuse
  repeat' first
    | rfl
    | (simp; done)
    | split
    | (apply foldl_seen_eq <;> intros)
    | simp

@[simp] theorem protoError_seen (d : Nat) (s : State) :
    (protoError d s).seen = s.seen := by
  unfold protoError
  repeat' first
    | rfl
    | (simp; done)
    | split
    | (apply foldl_seen_eq <;> intros)
    | (refine (updRfl_seen _ _ _ (by intro _; exact ⟨rfl, rfl⟩)).trans ?_)
    | simp

@[simp] theorem record_seen (d : Nat) (g : Seg) (outcome : Nat) (value : W64) (s : State) :
    (record d g outcome value s).seen = s.seen := by
  unfold record
  repeat' first
    | rfl
    | (simp; done)
    | split
    | (apply foldl_seen_eq <;> intros)
    | (refine (updRfl_seen _ _ _ (by intro _; exact ⟨rfl, rfl⟩)).trans ?_)
    | simp

@[simp] theorem reOutcome_seen (d : Nat) (g : Seg) (outcome : Nat) (value : W64) (s : State) :
    (reOutcome d g outcome value s).seen = s.seen := by
  unfold reOutcome
  repeat' first
    | rfl
    | (simp; done)
    | split
    | (apply foldl_seen_eq <;> intros)
    | (refine (updRfl_seen _ _ _ (by intro _; exact ⟨rfl, rfl⟩)).trans ?_)
    | simp

@[simp] theorem sendAck_seen (d : Nat) (g : Seg) (s : State) :
    (sendAck d g s).seen = s.seen := by
  simp [sendAck]

@[simp] theorem oweAck_seen (d : Nat) (g : Seg) (s : State) :
    (oweAck d g s).seen = s.seen := by
  refine updRfl_seen _ _ _ fun q => ?_
  split <;> exact ⟨rfl, rfl⟩

@[simp] theorem sendAcks_seen (d : Nat) (s : State) :
    (sendAcks d s).seen = s.seen := by
  unfold sendAcks
  split
  · rfl
  · exact (foldl_seen (fun s g => sendAck d g s) (fun _ _ => sendAck_seen ..) _ _).trans (updRfl_seen _ _ _ fun _ => ⟨rfl, rfl⟩)

@[simp] theorem sendRefuse_seen (d : Nat) (g : Seg) (st : Nat) (s : State) :
    (sendRefuse d g st s).seen = s.seen := by
  simp [sendRefuse]

@[simp] theorem respond_seen (d : Nat) (g : Seg) (op : Nat) (b : Bytes) (s : State) :
    (respond d g op b s).seen = s.seen := by
  simp [respond]

@[simp] theorem takeRecord_seen (d : Nat) (r : YRec) (s : State) :
    (takeRecord d r s).seen = s.seen := by
  unfold takeRecord
  repeat' first
    | rfl
    | (simp; done)
    | split
    | (apply foldl_seen_eq <;> intros)
    | (refine (updRfl_seen _ _ _ (by intro _; exact ⟨rfl, rfl⟩)).trans ?_)
    | simp

@[simp] theorem applyHeart_seen (d : Nat) (g : Seg) (s : State) :
    (applyHeart d g s).seen = s.seen := by
  unfold applyHeart
  repeat' first
    | rfl
    | (simp; done)
    | split
    | (apply foldl_seen_eq <;> intros)
    | (refine (updRfl_seen _ _ _ (by intro _; exact ⟨rfl, rfl⟩)).trans ?_)
    | simp

@[simp] theorem applyResp_seen (d : Nat) (g : Seg) (s : State) :
    (applyResp d g s).seen = s.seen := by
  unfold applyResp
  (repeat' split) <;> simp

@[simp] theorem refuseSeg_seen (d : Nat) (g : Seg) (st : Nat) (s : State) :
    (refuseSeg d g st s).seen = s.seen := by
  unfold refuseSeg
  repeat' first
    | rfl
    | (simp; done)
    | split
    | (apply foldl_seen_eq <;> intros)
    | (refine (updRfl_seen _ _ _ (by intro _; exact ⟨rfl, rfl⟩)).trans ?_)
    | simp

@[simp] theorem duplicate_seen (d : Nat) (g : Seg) (e : FEntry) (s : State) :
    (duplicate d g e s).seen = s.seen := by
  unfold duplicate
  (repeat' split) <;> simp

@[simp] theorem retransmit_seen (d : Nat) (n : W32) (segno : Nat) (s : State) :
    (retransmit d n segno s).seen = s.seen := by
  unfold retransmit
  split
  · rfl
  · dsimp only
    refine (foldl_seen (fun s g => sendSegAs true d g s) (fun _ _ => sendSegAs_seen ..) _ _).trans ((updRfl_seen _ _ _ ?_).trans ?_)
    · intro _; exact ⟨rfl, rfl⟩
    · exact updRefl_seen _ _ rfl rfl

@[simp] theorem notReached_seen (d : Nat) (n : W32) (s : State) :
    (notReached d n s).seen = s.seen := by
  unfold notReached
  split
  · rfl
  · dsimp only
    have h : ((s.refl.msgs.filter fun m => m.die == d && lostMsg s n m).foldl (fun s m => unreachable m s) s).seen = s.seen :=
      foldl_seen _ (fun _ _ => unreachable_seen ..) _ _
    split
    · exact (dropSystem_seen ..).trans h
    · exact h

@[simp] theorem expireHeld_seen (d : Nat) (s : State) :
    (expireHeld d s).seen = s.seen := by
  unfold expireHeld
  repeat' first
    | rfl
    | (simp; done)
    | split
    | (apply foldl_seen_eq <;> intros)
    | (refine (updRfl_seen _ _ _ (by intro _; exact ⟨rfl, rfl⟩)).trans ?_)
    | simp

@[simp] theorem expireFilter_seen (d : Nat) (s : State) :
    (expireFilter d s).seen = s.seen := by
  unfold expireFilter
  repeat' first
    | rfl
    | (simp; done)
    | split
    | (apply foldl_seen_eq <;> intros)
    | (refine (updRfl_seen _ _ _ (by intro _; exact ⟨rfl, rfl⟩)).trans ?_)
    | simp

@[simp] theorem revoke_seen (d key : Nat) (ref : CmdRef) (s : State) : (revoke d key ref s).seen = s.seen :=
  updRegion_seen _ _ _ _ fun _ => rfl

@[simp] theorem revokeRegion_seen (c : Cmd) (s : State) :
    (revokeRegion c s).seen = s.seen := by
  unfold revokeRegion
  (repeat' split) <;> simp

@[simp] theorem finishClose_seen (c : CmdRef) (s : State) :
    (finishClose c s).seen = s.seen := by
  unfold finishClose
  repeat' first
    | rfl
    | (simp; done)
    | split
    | (apply foldl_seen_eq <;> intros)
    | simp

@[simp] theorem discardFlit_seen (d : Nat) (k : LinkSt) (s : State) :
    (discardFlit d k s).seen = s.seen := by
  unfold discardFlit
  split <;> simp

@[simp] theorem takeFlit_seen (d : Nat) (f : Flit) (k : LinkSt) (s : State) :
    (takeFlit d f k s).seen = s.seen := by
  unfold takeFlit
  (repeat' split) <;> simp

@[simp] theorem holdDown_seen (d : Nat) (s : State) :
    (holdDown d s).seen = s.seen := by
  simp [holdDown]

@[simp] theorem takeAlign_seen (d : Nat) (c : Ctl) (k : LinkSt) (s : State) :
    (takeAlign d c k s).seen = s.seen := by
  unfold takeAlign
  repeat' first
    | rfl
    | (simp; done)
    | split
    | (apply foldl_seen_eq <;> intros)
    | simp

@[simp] theorem takeConfig_seen (d : Nat) (c : Ctl) (k : LinkSt) (s : State) :
    (takeConfig d c k s).seen = s.seen := by
  unfold takeConfig
  repeat' first
    | rfl
    | (simp; done)
    | split
    | (apply foldl_seen_eq <;> intros)
    | simp

@[simp] theorem replayDue_seen (d : Nat) (s : State) :
    (replayDue d s).seen = s.seen := by
  unfold replayDue
  repeat' first
    | rfl
    | (simp; done)
    | split
    | (apply foldl_seen_eq <;> intros)
    | simp

@[simp] theorem activate_seen (d : Nat) (k : LinkSt) (s : State) :
    (activate d k s).seen = s.seen := by
  unfold activate
  repeat' first
    | rfl
    | (simp; done)
    | split
    | (apply foldl_seen_eq <;> intros)
    | simp

@[simp] theorem retireUnlocked_seen (d : Nat) (locked : List Nat) (s : State) :
    (retireUnlocked d locked s).seen = s.seen := by
  unfold retireUnlocked
  repeat' first
    | rfl
    | (simp; done)
    | split
    | (apply foldl_seen_eq <;> intros)
    | simp

@[simp] theorem endEqualise_seen (d n : Nat) (s : State) :
    (endEqualise d n s).seen = s.seen := by
  unfold endEqualise
  repeat' first
    | rfl
    | (simp; done)
    | split
    | (apply foldl_seen_eq <;> intros)
    | simp

@[simp] theorem equaliseFails_seen (d : Nat) (locked : List Nat) (s : State) :
    (equaliseFails d locked s).seen = s.seen := by
  unfold equaliseFails
  repeat' first
    | rfl
    | (simp; done)
    | split
    | (apply foldl_seen_eq <;> intros)
    | simp

@[simp] theorem linkFails_seen (d : Nat) (k : LinkSt) (s : State) :
    (linkFails d k s).seen = s.seen := by
  unfold linkFails
  (repeat' split) <;> simp

@[simp] theorem moveEntries_seen (num d h : Nat) (gone : Bool) (s : State) :
    (moveEntries num d h gone s).seen = s.seen := by
  unfold moveEntries
  dsimp only
  have h (es : List JEntry) (x : State × List (Nat × Nat)) :
      (es.foldl (fun (x : State × List (Nat × Nat)) e => (programJ h (some num) (e.body.remap x.2) x.1, (e.jsn, nextJsn x.1 h) :: x.2)) x).1.seen = x.1.seen := by
    induction es generalizing x with
    | nil => rfl
    | cons e es ih => simp [ih]
  refine Eq.trans rfl ((dropEntries_seen ..).trans (h _ (s, [])))

@[simp] theorem stopWork_seen (num : Nat) (s : State) :
    (stopWork num s).seen = s.seen := by
  simp [stopWork]

@[simp] theorem repairIntents_seen (num : Nat) (s : State) :
    (repairIntents num s).seen = s.seen := by
  unfold repairIntents
  repeat' first
    | rfl
    | (simp; done)
    | split
    | (apply foldl_seen_eq <;> intros)
    | simp

@[simp] theorem loseDirtyOf_seen (f : CBlk → Bool) (num : Nat) (s : State) : (loseDirtyOf f num s).seen = s.seen := by
  unfold loseDirtyOf
  dsimp only
  split <;> simp

@[simp] theorem loseSingle_seen (num : Nat) (s : State) : (loseSingle num s).seen = s.seen := loseDirtyOf_seen ..

@[simp] theorem loseRemote_seen (e : Option Nat) (num : Nat) (s : State) : (loseRemote e num s).seen = s.seen := loseDirtyOf_seen ..

@[simp] theorem leaveAtPartner_seen (num d : Nat) (s : State) : (leaveAtPartner num d s).seen = s.seen := by
  unfold leaveAtPartner; dsimp only; split <;> rfl

@[simp] theorem makeSingle_seen (num : Nat) (s : State) :
    (makeSingle num s).seen = s.seen := by
  simp [makeSingle]

@[simp] theorem makeMirrored_seen (num : Nat) (s : State) :
    (makeMirrored num s).seen = s.seen := by
  unfold makeMirrored
  (repeat' split) <;> simp

@[simp] theorem settleHome_seen (num h0 : Nat) (s : State) :
    (settleHome num h0 s).seen = s.seen := by
  simp [settleHome]

@[simp] theorem noFlight_seen (num : Nat) (s : State) :
    (noFlight num s).seen = s.seen := by
  unfold noFlight
  repeat' first
    | rfl
    | (simp; done)
    | split
    | (apply foldl_seen_eq <;> intros)
    | simp

@[simp] theorem takePool_seen (num d h : Nat) (lose : Bool) (s : State) :
    (takePool num d h lose s).seen = s.seen := by
  unfold takePool
  extract_lets s1 s2 s3
  have h1 : s1.seen = s.seen := by simp only [s1]; split <;> simp
  have h2 : s2.seen = s.seen := by simp [s2, h1]
  have h3 : s3.seen = s.seen := by
    simp only [s3]
    split
    · exact (pauseFor_seen ..).trans h2
    · exact h2
  simp [h3]

@[simp] theorem endReason_seen (num : Nat) (s : State) :
    (endReason num s).seen = s.seen := by
  unfold endReason
  (repeat' split) <;> simp

@[simp] theorem preemptOn_seen (num h x ns : Nat) (k : W64) (s : State) :
    (preemptOn num h x ns k s).seen = s.seen := by
  unfold preemptOn
  repeat' first
    | rfl
    | (simp; done)
    | split
    | (apply foldl_seen_eq <;> intros)
    | simp

@[simp] theorem preempt_seen (num h0 : Nat) (keys : List W64) (s : State) :
    (preempt num h0 keys s).seen = s.seen := by
  unfold preempt
  repeat' first
    | rfl
    | (simp; done)
    | split
    | (apply foldl_seen_eq <;> intros)

@[simp] theorem fence_seen (d : Nat) (s : State) :
    (fence d s).seen = s.seen := by
  unfold fence
  repeat' first
    | rfl
    | (simp; done)
    | split
    | (apply foldl_seen_eq <;> intros)
    | simp

@[simp] theorem silence_seen (d : Nat) (s : State) :
    (silence d s).seen = s.seen := by
  unfold silence
  repeat' first
    | rfl
    | (simp; done)
    | split
    | (apply foldl_seen_eq <;> intros)
    | (refine (updDie_seen _ _ _ (by intro _; rfl)).trans ?_)
    | simp

@[simp] theorem reshadow_seen (d : Nat) (s : State) :
    (reshadow d s).seen = s.seen := by
  unfold reshadow
  repeat' first
    | rfl
    | (simp; done)
    | split
    | (apply foldl_seen_eq <;> intros)

@[simp] theorem partnerDieLost_seen (d : Nat) (s : State) :
    (partnerDieLost d s).seen = s.seen := by
  refine (foldl_seen _ (fun _ _ => ?_) _ _).trans ((foldl_seen _ (fun _ _ => loseRemote_seen ..) _ _).trans ?_) <;> simp

@[simp] theorem partnerLost_seen (s : State) :
    (partnerLost s).seen = s.seen := by
  simp [partnerLost]

@[simp] theorem heartFault_seen (ds : List Nat) (s : State) :
    (heartFault ds s).seen = s.seen := by
  exact foldl_seen _ (fun _ _ => countFault_seen ..) _ _

@[simp] theorem heartbeatLost_seen (peer : HbPeer) (s : State) :
    (heartbeatLost peer s).seen = s.seen := by
  unfold heartbeatLost
  (repeat' split) <;> simp

@[simp] theorem mirrorAll_seen  (s : State) :
    (mirrorAll s).seen = s.seen := by
  exact foldl_seen _ (fun _ _ => makeMirrored_seen ..) _ _

@[simp] theorem setPair_seen (x : PairState) (s : State) :
    (setPair x s).seen = s.seen := by
  simp [setPair]

@[simp] theorem keepOld_seen (num : Nat) (s : State) :
    (keepOld num s).seen = s.seen := by
  unfold keepOld
  repeat' first
    | rfl
    | (simp; done)
    | split
    | (apply foldl_seen_eq <;> intros)
    | simp

@[simp] theorem separate_seen (s : State) :
    (separate s).seen = s.seen := by
  unfold separate
  repeat' first
    | rfl
    | (simp; done)
    | split
    | (apply foldl_seen_eq <;> intros)

@[simp] theorem remirror_seen (s : State) : (remirror s).seen = s.seen := by
  unfold remirror
  repeat' first
    | rfl
    | (simp; done)
    | split
    | (apply foldl_seen_eq <;> intros)
    | simp

@[simp] theorem preemptPartner_seen (s : State) :
    (preemptPartner s).seen = s.seen := by
  unfold preemptPartner
  repeat' first
    | rfl
    | (simp; done)
    | split
    | (apply foldl_seen_eq <;> intros)

@[simp] theorem endTakeover_seen (s : State) :
    (endTakeover s).seen = s.seen := by
  unfold endTakeover
  repeat' first
    | rfl
    | (simp; done)
    | split
    | (apply foldl_seen_eq <;> intros)
    | simp

@[simp] theorem partnerKerf_seen (fault bound : Nat) (s : State) :
    (partnerKerf fault bound s).seen = s.seen := by
  unfold partnerKerf
  repeat' first
    | rfl
    | (simp; done)
    | split
    | (apply foldl_seen_eq <;> intros)
    | simp

@[simp] theorem witnessAcquire_seen (s : State) :
    (witnessAcquire s).seen = s.seen := by
  unfold witnessAcquire
  (repeat' split) <;> simp

@[simp] theorem releaseWitness_seen (s : State) :
    (releaseWitness s).seen = s.seen := by
  unfold releaseWitness
  (repeat' split) <;> simp

@[simp] theorem endWaiters_seen (p : Nat → Nat → Bool) (s : State) :
    (endWaiters p s).seen = s.seen := by
  unfold endWaiters
  repeat' first
    | rfl
    | (simp; done)
    | split
    | (apply foldl_seen_eq <;> intros)

@[simp] theorem witnessMeasure_seen (latency : Nat) (s : State) :
    (witnessMeasure latency s).seen = s.seen := by
  unfold witnessMeasure
  (repeat' split) <;> simp

@[simp] theorem holdWireCleared_seen (s : State) :
    (holdWireCleared s).seen = s.seen := by
  unfold holdWireCleared
  split <;> simp

@[simp] theorem pairRejoin_seen (s : State) :
    (pairRejoin s).seen = s.seen := by
  unfold pairRejoin
  split <;> simp

@[simp] theorem ackRejoin_seen (d : Nat) (g : Seg) (s : State) :
    (ackRejoin d g s).seen = s.seen := by
  unfold ackRejoin
  split <;> simp

@[simp] theorem exchange_seen (s : State) :
    (exchange s).seen = s.seen := by
  unfold exchange
  repeat' first
    | rfl
    | (simp; done)
    | split
    | (apply foldl_seen_eq <;> intros)
    | simp

@[simp] theorem rejoinTick_seen (s : State) :
    (rejoinTick s).seen = s.seen := by
  unfold rejoinTick
  (repeat' split)
  · rfl
  · rfl
  · simp only [raisePkg_seen, exchange_seen, mirrorAll_seen]
    have h : (releaseWitness (setPair .paired s)).seen = s.seen := by simp
    rw [← h]
    simp only [State.seen]
    rw [map_mem _ (fun x => { x with rfl := dropStale x.rfl }) (fun _ => rfl)]

@[simp] theorem handBack_seen (num : Nat) (s : State) :
    (handBack num s).seen = s.seen := by
  unfold handBack
  repeat' first
    | rfl
    | (simp; done)
    | split
    | (apply foldl_seen_eq <;> intros)

@[simp] theorem beginHandback_seen (ref : CmdRef) (s : State) :
    (beginHandback ref s).seen = s.seen := by
  simp [beginHandback]

@[simp] theorem endTold_seen (s : State) : (endTold s).seen = s.seen := by
  unfold endTold
  refine foldl_seen _ (fun s c => ?_) _ _
  split <;> simp

@[simp] theorem endHandback_seen (s : State) :
    (endHandback s).seen = s.seen := by
  unfold endHandback
  split
  · rfl
  · dsimp only
    (repeat' split)
    · simp
    · rfl
    · simp only [ok_seen, raisePkg_seen, releaseWitness_seen]
      exact (foldl_seen _ (fun _ _ => handBack_seen ..) _ _).trans (by simp)

@[simp] theorem logFreeze_seen (c : Cmd) (s : State) :
    (logFreeze c s).seen = s.seen := by
  unfold logFreeze
  split <;> simp

@[simp] theorem logThaw_seen (c : Cmd) (s : State) :
    (logThaw c s).seen = s.seen := by
  unfold logThaw
  split <;> simp

@[simp] theorem logRead_seen (c : Cmd) (s : State) :
    (logRead c s).seen = s.seen := by
  unfold logRead
  (repeat' split) <;> simp

@[simp] theorem logClearChallenge_seen (c : Cmd) (s : State) :
    (logClearChallenge c s).seen = s.seen := by
  unfold logClearChallenge
  repeat' first
    | rfl
    | (simp; done)
    | split
    | (apply foldl_seen_eq <;> intros)

@[simp] theorem clearLog_seen (at_ : Nat) (s : State) :
    (clearLog at_ s).seen = s.seen := by
  unfold clearLog
  repeat' first
    | rfl
    | (simp; done)
    | split
    | (apply foldl_seen_eq <;> intros)

@[simp] theorem clearRefused_seen (c : Cmd) (s : State) :
    (clearRefused c s).seen = s.seen := by
  simp [clearRefused]

@[simp] theorem logClear_seen (c : Cmd) (s : State) :
    (logClear c s).seen = s.seen := by
  unfold logClear
  (repeat' split) <;> simp

@[simp] theorem timeAnchor_seen (c : Cmd) (s : State) :
    (timeAnchor c s).seen = s.seen := by
  simp [timeAnchor]

@[simp] theorem healthReport_seen (c : Cmd) (s : State) :
    (healthReport c s).seen = s.seen := by
  unfold healthReport
  split <;> simp

@[simp] theorem healthWrite_seen (s : State) :
    (healthWrite s).seen = s.seen := by
  unfold healthWrite
  split <;> simp

@[simp] theorem selfTest_seen (c : Cmd) (s : State) :
    (selfTest c s).seen = s.seen := by
  unfold selfTest
  repeat' first
    | rfl
    | (simp; done)
    | split
    | (apply foldl_seen_eq <;> intros)
    | simp

@[simp] theorem engineOut_seen (c : Cmd) (d u : Nat) (s : State) :
    (engineOut c d u s).seen = s.seen := by
  unfold engineOut
  repeat' first
    | rfl
    | (simp; done)
    | split
    | (apply foldl_seen_eq <;> intros)
    | simp

@[simp] theorem tickBudgetReport_seen (c : Cmd) (s : State) :
    (tickBudgetReport c s).seen = s.seen := by
  unfold tickBudgetReport
  repeat' first
    | rfl
    | (simp; done)
    | split
    | (apply foldl_seen_eq <;> intros)
    | simp

@[simp] theorem unstage_seen (s : State) :
    (unstage s).seen = s.seen := by
  simp [unstage]

@[simp] theorem firmwareDownload_seen (c : Cmd) (s : State) :
    (firmwareDownload c s).seen = s.seen := by
  unfold firmwareDownload
  repeat' first
    | rfl
    | (simp; done)
    | split
    | (apply foldl_seen_eq <;> intros)
    | simp

@[simp] theorem programImage_seen (c : CmdRef) (b : Bytes) (readbackOk : Bool) (s : State) :
    (programImage c b readbackOk s).seen = s.seen := by
  unfold programImage
  split <;> simp

@[simp] theorem firmwareProgrammed_seen (readbackOk : Bool) (s : State) :
    (firmwareProgrammed readbackOk s).seen = s.seen := by
  unfold firmwareProgrammed
  repeat' first
    | rfl
    | (simp; done)
    | split
    | (apply foldl_seen_eq <;> intros)
    | simp

@[simp] theorem runImage_seen (i : Image) (s : State) :
    (runImage i s).seen = s.seen := by
  simp [runImage]

@[simp] theorem firmwareActivate_seen (c : Cmd) (s : State) :
    (firmwareActivate c s).seen = s.seen := by
  unfold firmwareActivate
  (repeat' split) <;> simp

@[simp] theorem firmwareLoadDone_seen (s : State) :
    (firmwareLoadDone s).seen = s.seen := by
  unfold firmwareLoadDone
  split <;> simp

@[simp] theorem flipKerf_seen (n : Nat) (s : State) :
    (flipKerf n s).seen = s.seen := by
  unfold flipKerf
  split <;> simp

@[simp] theorem endActivation_seen (s : State) :
    (endActivation s).seen = s.seen := by
  simp [endActivation]

@[simp] theorem slotFallback_seen (n : Nat) (s : State) :
    (slotFallback n s).seen = s.seen := by
  unfold slotFallback
  repeat' first
    | rfl
    | (simp; done)
    | split
    | (apply foldl_seen_eq <;> intros)
    | simp

@[simp] theorem activated_seen (s : State) :
    (activated s).seen = s.seen := by
  unfold activated
  (repeat' split) <;> simp

@[simp] theorem firmwareFlip_seen (answerOk : Bool) (s : State) :
    (firmwareFlip answerOk s).seen = s.seen := by
  unfold firmwareFlip
  repeat' first
    | rfl
    | (simp; done)
    | split
    | (apply foldl_seen_eq <;> intros)
    | simp

@[simp] theorem startChange_seen (s : State) :
    (startChange s).seen = s.seen := by
  unfold startChange
  (repeat' split) <;> simp

@[simp] theorem setPowerState_seen (c : Cmd) (s : State) :
    (setPowerState c s).seen = s.seen := by
  unfold setPowerState
  repeat' first
    | rfl
    | (simp; done)
    | split
    | (apply foldl_seen_eq <;> intros)
    | simp

@[simp] theorem enterState_seen (target cap : Nat) (s : State) :
    (enterState target cap s).seen = s.seen := by
  simp [enterState]

@[simp] theorem changeDone_seen (s : State) :
    (changeDone s).seen = s.seen := by
  unfold changeDone
  repeat' first
    | rfl
    | (simp; done)
    | split
    | (apply foldl_seen_eq <;> intros)
    | simp

@[simp] theorem changeTimeout_seen (s : State) :
    (changeTimeout s).seen = s.seen := by
  unfold changeTimeout
  (repeat' split) <;> simp

@[simp] theorem stateRaised_seen (s : State) :
    (stateRaised s).seen = s.seen := by
  unfold stateRaised
  split <;> simp

@[simp] theorem stopCmd_seen (st : W16) (c : Cmd) (s : State) :
    (stopCmd st c s).seen = s.seen := by
  unfold stopCmd
  split <;> simp

@[simp] theorem dropRings_seen (d f : Nat) (s : State) :
    (dropRings d f s).seen = s.seen := by
  simp [dropRings]

@[simp] theorem powerHold_seen (mode d : Nat) (s : State) :
    (powerHold mode d s).seen = s.seen := by
  unfold powerHold
  repeat' first
    | rfl
    | (simp; done)
    | split
    | (apply foldl_seen_eq <;> intros)
    | (refine snd_seen (by assumption) ?_)
    | simp

@[simp] theorem powerHolds_seen (mode : DieSt → Nat) (s : State) :
    (powerHolds mode s).seen = s.seen := by
  unfold powerHolds
  repeat' first
    | rfl
    | (simp; done)
    | split
    | (apply foldl_seen_eq <;> intros)

@[simp] theorem failPower_seen (s : State) :
    (failPower s).seen = s.seen := by
  unfold failPower
  repeat' first
    | rfl
    | (simp; done)
    | split
    | (apply foldl_seen_eq <;> intros)

@[simp] theorem pfail_seen (s : State) :
    (pfail s).seen = s.seen := by
  unfold pfail
  split <;> simp

@[simp] theorem sequenceEnd_seen (s : State) :
    (sequenceEnd s).seen = s.seen := by
  unfold sequenceEnd
  split <;> simp

@[simp] theorem backupEnRaise_seen (s : State) :
    (backupEnRaise s).seen = s.seen := by
  unfold backupEnRaise
  (repeat' split) <;> simp

@[simp] theorem writeImage_seen (d : Nat) (s : State) :
    (writeImage d s).seen = s.seen := by
  unfold writeImage
  repeat' first
    | rfl
    | (simp; done)
    | split
    | (apply foldl_seen_eq <;> intros)
    | simp

@[simp] theorem vaultDone_seen (d : Nat) (s : State) :
    (vaultDone d s).seen = s.seen := by
  unfold vaultDone
  repeat' first
    | rfl
    | (simp; done)
    | split
    | (apply foldl_seen_eq <;> intros)

@[simp] theorem pfailDeassert_seen (s : State) :
    (pfailDeassert s).seen = s.seen := by
  unfold pfailDeassert
  split <;> simp

@[simp] theorem resumeService_seen (s : State) :
    (resumeService s).seen = s.seen := by
  simp [resumeService]

@[simp] theorem vaultRate_seen (d v vr : Nat) (s : State) :
    (vaultRate d v vr s).seen = s.seen := by
  have h : (s.updDie d fun x => { x with rateV := v, rateVr := vr }).seen = s.seen := updDie_seen _ _ _ fun _ => rfl
  unfold vaultRate
  split
  · rfl
  · split
    · rfl
    · dsimp only
      refine (endWaiters_seen _ _).trans ?_
      split
      · exact (raise_seen _ _ _ _).trans h
      · exact h

@[simp] theorem toPhase_seen (n : Nat) (s : State) :
    (toPhase n s).seen = s.seen := by
  simp [toPhase]

@[simp] theorem readBoard_seen (i : PhaseIn) (s : State) :
    (readBoard i s).seen = s.seen := by
  simp [readBoard]

@[simp] theorem portFns_seen (s : State) :
    (portFns s).seen = s.seen := by
  simp [portFns]

@[simp] theorem powerOnTime_seen (s : State) :
    (powerOnTime s).seen = s.seen := by
  unfold powerOnTime
  repeat' first
    | rfl
    | (simp; done)
    | split
    | (apply foldl_seen_eq <;> intros)
    | (rw [map_comp_mem _ (by intro _; (repeat' (first | rfl | split)))])
    | simp

@[simp] theorem finishClear_seen (s : State) :
    (finishClear s).seen = s.seen := by
  unfold finishClear
  split <;> simp

@[simp] theorem noteFallback_seen (s : State) :
    (noteFallback s).seen = s.seen := by
  unfold noteFallback
  split <;> simp

@[simp] theorem linkBothEnds_seen (s : State) : (linkBothEnds s).seen = s.seen := by
  exact dies_seen _ _ (zipIdx_mem _ _ _ fun _ => rfl)

@[simp] theorem trainDdr_seen (i : PhaseIn) (d : Nat) (s : State) : (trainDdr i d s).seen = s.seen := by
  unfold trainDdr
  extract_lets again s1 s2 s3
  have h1 : s1.seen = s.seen := updHw_seen ..
  have h2 : s2.seen = s.seen := by
    simp only [s2]
    split
    · exact h1
    · repeat' split
      all_goals simp [h1]
  have h3 : s3.seen = s.seen := (foldl_seen _ (fun _ _ => by simp) _ _).trans h2
  refine (updDie_seen _ _ _ fun x => ?_).trans h3
  split <;> rfl

@[simp] theorem phase3_seen (i : PhaseIn) (s : State) : (phase3 i s).seen = s.seen := by
  have h : (s.aliveDies.foldl (fun s d => trainDdr i d s) s).seen = s.seen := foldl_seen _ (fun _ _ => trainDdr_seen ..) _ _
  simp only [State.seen, Seen.mk.injEq] at h
  unfold phase3
  rw [toPhase_seen]
  simp only [State.seen, Seen.mk.injEq]
  simp [h]

@[simp] theorem loseDirty_seen (d : Nat) (s : State) :
    (loseDirty d s).seen = s.seen := by
  unfold loseDirty
  repeat' first
    | rfl
    | (simp; done)
    | split
    | (apply foldl_seen_eq <;> intros)

@[simp] theorem restoreDie_seen (i : PhaseIn) (d : Nat) (s : State) :
    (restoreDie i d s).seen = s.seen := by
  unfold restoreDie
  repeat' first
    | rfl
    | (simp; done)
    | split
    | (apply foldl_seen_eq <;> intros)

@[simp] theorem phase4_seen (i : PhaseIn) (s : State) :
    (phase4 i s).seen = s.seen := by
  unfold phase4
  repeat' first
    | rfl
    | (simp; done)
    | split
    | (apply foldl_seen_eq <;> intros)

@[simp] theorem calibrate_seen (i : PhaseIn) (s : State) :
    (calibrate i s).seen = s.seen := by
  unfold calibrate
  extract_lets set die
  split
  · exact (recount_seen _).trans (dies_seen _ _ (zipIdx_mem _ _ _ fun x => by dsimp only; split <;> rfl))
  · rfl

@[simp] theorem heldByPartner_seen (num : Nat) (s : State) :
    (heldByPartner num s).seen = s.seen := by
  unfold heldByPartner
  (repeat' split) <;> simp

@[simp] theorem adoptPools_seen (s : State) :
    (adoptPools s).seen = s.seen := by
  unfold adoptPools
  repeat' first
    | rfl
    | (simp; done)
    | split
    | (apply foldl_seen_eq <;> intros)

@[simp] theorem newShadows_seen (s : State) :
    (newShadows s).seen = s.seen := by
  simp [newShadows]

@[simp] theorem discardBroken_seen (bad : List Nat) (d : Nat) (s : State) :
    (discardBroken bad d s).seen = s.seen := by
  unfold discardBroken
  repeat' first
    | rfl
    | (simp; done)
    | split
    | (apply foldl_seen_eq <;> intros)
    | simp

@[simp] theorem phase5_seen (i : PhaseIn) (s : State) :
    (phase5 i s).seen = s.seen := by
  unfold phase5
  repeat' first
    | rfl
    | (simp; done)
    | split
    | (apply foldl_seen_eq <;> intros)

@[simp] theorem restored_seen (s : State) :
    (restored s).seen = s.seen := by
  unfold restored
  repeat' first
    | rfl
    | (simp; done)
    | split
    | (apply foldl_seen_eq <;> intros)
    | simp

@[simp] theorem phase6_seen (i : PhaseIn) (s : State) :
    (phase6 i s).seen = s.seen := by
  unfold phase6
  split
  · rfl
  · dsimp only
    refine (toPhase_seen ..).trans ((foldl_seen _ (fun _ _ => programAnchor_seen ..) _ _).trans ?_)
    refine (foldl_seen _ (fun _ _ => dropEntries_seen ..) _ _).trans ((foldl_seen _ (fun _ _ => offlinePool_seen ..) _ _).trans ?_)
    exact (restored_seen ..).trans (foldl_seen _ (fun _ _ => makeSingle_seen ..) _ _)

@[simp] theorem sendReadiness_seen (s : State) :
    (sendReadiness s).seen = s.seen := by
  unfold sendReadiness
  repeat' first
    | rfl
    | (simp; done)
    | split
    | (apply foldl_seen_eq <;> intros)

@[simp] theorem perstUp_seen (d : Nat) (s : State) : (perstUp d s).seen = s.seen := by
  unfold perstUp
  split
  · rfl
  · extract_lets up s1
    have h1 : s1.seen = s.seen := updDie_seen _ _ _ fun x => by simp only [up]; split <;> simp [trainPort, dieMem]
    split
    · exact (State_emit_seen ..).trans h1
    · exact h1

@[simp] theorem restage_seen (pool stripe : Nat) (s : State) :
    (restage pool stripe s).seen = s.seen := by
  simp [restage]

@[simp] theorem loseUnit_seen (d : Nat) (b : CBlk) (s : State) :
    (loseUnit d b s).seen = s.seen := by
  simp [loseUnit]

@[simp] theorem pumpReads_seen (s : State) :
    (pumpReads s).seen = s.seen := by
  unfold pumpReads
  repeat' first
    | rfl
    | (simp; done)
    | split
    | (apply foldl_seen_eq <;> intros)

@[simp] theorem startOne_seen (ref : CmdRef) (s : State) :
    (startOne ref s).seen = s.seen := by
  unfold startOne
  (repeat' split) <;> simp

@[simp] theorem startStalled_seen (s : State) :
    (startStalled s).seen = s.seen := by
  unfold startStalled
  repeat' first
    | rfl
    | (simp; done)
    | split
    | (apply foldl_seen_eq <;> intros)

@[simp] theorem endDurable_seen (ref : CmdRef) (s : State) :
    (endDurable ref s).seen = s.seen := by
  unfold endDurable
  repeat' first
    | rfl
    | (simp; done)
    | split
    | (apply foldl_seen_eq <;> intros)
    | simp

@[simp] theorem endFlush_seen (ref : CmdRef) (s : State) :
    (endFlush ref s).seen = s.seen := by
  unfold endFlush
  repeat' first
    | rfl
    | (simp; done)
    | split
    | (apply foldl_seen_eq <;> intros)
    | simp

@[simp] theorem endWaits_seen (s : State) :
    (endWaits s).seen = s.seen := by
  unfold endWaits
  repeat' first
    | rfl
    | (simp; done)
    | split
    | (apply foldl_seen_eq <;> intros)

@[simp] theorem endRebuilds_seen (s : State) : (endRebuilds s).seen = s.seen := by
  unfold endRebuilds
  repeat' first
    | rfl
    | (simp; done)
    | split
    | (apply foldl_seen_eq <;> intros)
    | simp

@[simp] theorem endRings_seen (s : State) :
    (endRings s).seen = s.seen := by
  unfold endRings
  repeat' first
    | rfl
    | (simp; done)
    | split
    | (apply foldl_seen_eq <;> intros)

@[simp] theorem endSetups_seen (s : State) :
    (endSetups s).seen = s.seen := by
  unfold endSetups
  repeat' first
    | rfl
    | (simp; done)
    | split
    | (apply foldl_seen_eq <;> intros)

@[simp] theorem endObjects_seen (s : State) :
    (endObjects s).seen = s.seen := by
  unfold endObjects
  repeat' first
    | rfl
    | (simp; done)
    | split
    | (apply foldl_seen_eq <;> intros)

@[simp] theorem endProt_seen (s : State) :
    (endProt s).seen = s.seen := by
  unfold endProt
  repeat' first
    | rfl
    | (simp; done)
    | split
    | (apply foldl_seen_eq <;> intros)
    | simp

@[simp] theorem chargeFrags_seen (r : Ring) (c : Cmd) (s : State) :
    (chargeFrags r c s).seen = s.seen := by
  unfold chargeFrags
  (repeat' split) <;> simp

@[simp] theorem transferError_seen (ref : CmdRef) (s : State) :
    (transferError ref s).seen = s.seen := by
  unfold transferError
  (repeat' split) <;> simp

@[simp] theorem unitDone_seen (ref : CmdRef) (s : State) :
    (unitDone ref s).seen = s.seen := by
  unfold unitDone
  (repeat' split) <;> simp

@[simp] theorem ageLimit_seen (num n : Nat) (s : State) :
    (ageLimit num n s).seen = s.seen := by
  unfold ageLimit
  repeat' first
    | rfl
    | (simp; done)
    | split
    | (apply foldl_seen_eq <;> intros)
    | simp

@[simp] theorem destageStart_seen (num n : Nat) (s : State) :
    (destageStart num n s).seen = s.seen := by
  unfold destageStart
  repeat' first
    | rfl
    | (simp; done)
    | split
    | (apply foldl_seen_eq <;> intros)
    | simp

@[simp] theorem zeroFill_seen (vol i : Nat) (s : State) :
    (zeroFill vol i s).seen = s.seen := by
  unfold zeroFill
  repeat' first
    | rfl
    | (simp; done)
    | split
    | (apply foldl_seen_eq <;> intros)
    | simp

@[simp] theorem noteStalls_seen (s : State) :
    (noteStalls s).seen = s.seen := by
  unfold noteStalls
  repeat' first
    | rfl
    | (simp; done)
    | split
    | (apply foldl_seen_eq <;> intros)
    | simp

@[simp] theorem lateEntries_seen (slow : List CmdRef) (d : Nat) (s : State) :
    (lateEntries slow d s).seen = s.seen := by
  unfold lateEntries
  repeat' first
    | rfl
    | (simp; done)
    | split
    | (apply foldl_seen_eq <;> intros)
    | simp

@[simp] theorem countHeads_seen (s : State) :
    (countHeads s).seen = s.seen := by
  unfold countHeads
  repeat' first
    | rfl
    | (simp; done)
    | split
    | (apply foldl_seen_eq <;> intros)
    | simp

@[simp] theorem lateBack_seen (s : State) (r : Ring) (b : Back) :
    (lateBack s r b).seen = s.seen := by
  unfold lateBack
  repeat' first
    | rfl
    | (simp; done)
    | split
    | (apply foldl_seen_eq <;> intros)
    | simp

@[simp] theorem lateBacks_seen (s : State) :
    (lateBacks s).seen = s.seen := by
  unfold lateBacks
  refine foldl_seen _ (fun s r => ?_) _ _
  exact foldl_seen _ (fun _ _ => lateBack_seen ..) _ _

@[simp] theorem deadlines_seen (slow : List CmdRef) (s : State) :
    (deadlines slow s).seen = s.seen := by
  unfold deadlines
  split
  · rfl
  · dsimp only
    refine foldl_seen_eq _ _ _ _ ?_ fun s c => foldl_seen _ (fun _ _ => missRow_seen ..) _ _
    refine (noteStalls_seen ..).trans ?_
    exact (foldl_seen _ (fun _ _ => lateEntries_seen ..) _ _).trans ((lateBacks_seen ..).trans (countHeads_seen ..))

@[simp] theorem sendIdles_seen (s : State) :
    (sendIdles s).seen = s.seen := by
  unfold sendIdles
  repeat' first
    | rfl
    | (simp; done)
    | split
    | (apply foldl_seen_eq <;> intros)
    | simp

@[simp] theorem tellOf_seen (s : State) (c : Cmd) : (tellOf s c).seen = s.seen := by
  have h : ∀ (u : State) (n : Nat), ({ u with free := n } : State).seen = u.seen := fun _ _ => rfl
  exact (sendSystem_seen ..).trans ((h _ _).trans (State_updCmd_seen ..))

@[simp] theorem tellPartner_seen (s : State) : (tellPartner s).seen = s.seen := by
  unfold tellPartner; split
  · exact foldl_seen _ (fun s c => tellOf_seen s c) _ _
  · rfl

@[simp] theorem mirrorShadows_seen (d : Nat) (s : State) :
    (mirrorShadows d s).seen = s.seen := by
  unfold mirrorShadows
  refine dies_seen _ _ (zipIdx_mem _ _ _ fun x => ?_)
  dsimp only
  split <;> rfl

@[simp] theorem sendCopy_seen (d : Nat) (s : State) (b : CBlk) :
    (sendCopy d s b).seen = s.seen := by
  unfold sendCopy
  repeat' first
    | rfl
    | (simp; done)
    | split
    | (apply foldl_seen_eq <;> intros)
    | simp

@[simp] theorem sendCopies_seen (s : State) :
    (sendCopies s).seen = s.seen := by
  unfold sendCopies
  repeat' first
    | rfl
    | (simp; done)
    | split
    | (apply foldl_seen_eq <;> intros)
    | simp

@[simp] theorem takeCopies_seen (s : State) :
    (takeCopies s).seen = s.seen := by
  unfold takeCopies
  repeat' first
    | rfl
    | (simp; done)
    | split
    | (apply foldl_seen_eq <;> intros)
    | simp

@[simp] theorem shadowCopies_seen (s : State) :
    (shadowCopies s).seen = s.seen := by
  unfold shadowCopies
  repeat' first
    | rfl
    | (simp; done)
    | split
    | (apply foldl_seen_eq <;> intros)
    | simp

@[simp] theorem copyRetiring_seen (s : State) :
    (copyRetiring s).seen = s.seen := by
  unfold copyRetiring
  repeat' first
    | rfl
    | (simp; done)
    | split
    | (apply foldl_seen_eq <;> intros)
    | simp

@[simp] theorem endSteps_seen (s : State) :
    (endSteps s).seen = s.seen := by
  unfold endSteps
  repeat' first
    | rfl
    | (simp; done)
    | split
    | (apply foldl_seen_eq <;> intros)
    | simp

@[simp] theorem endBuilds_seen (s : State) :
    (endBuilds s).seen = s.seen := by
  unfold endBuilds
  repeat' first
    | rfl
    | (simp; done)
    | split
    | (apply foldl_seen_eq <;> intros)
    | simp

@[simp] theorem endTile_seen (num : Nat) (j : TileJob) (s : State) :
    (endTile num j s).seen = s.seen := by
  unfold endTile
  repeat' first
    | rfl
    | (simp; done)
    | split
    | (apply foldl_seen_eq <;> intros)
    | simp

@[simp] theorem endCopy_seen (num x : Nat) (j : TileJob) (s : State) :
    (endCopy num x j s).seen = s.seen := by
  unfold endCopy
  repeat' first
    | rfl
    | (simp; done)
    | split
    | (apply foldl_seen_eq <;> intros)
    | simp

@[simp] theorem endJobs_seen (s : State) :
    (endJobs s).seen = s.seen := by
  unfold endJobs
  repeat' first
    | rfl
    | (simp; done)
    | split
    | (apply foldl_seen_eq <;> intros)
    | simp

@[simp] theorem eventWarn_seen (ns : Nat) (warn : BitVec 8) (s : State) :
    (eventWarn ns warn s).seen = s.seen := by
  unfold eventWarn
  repeat' first
    | rfl
    | (simp; done)
    | split
    | (apply foldl_seen_eq <;> intros)
    | simp

@[simp] theorem drainRegions_seen (s : State) :
    (drainRegions s).seen = s.seen := by
  unfold drainRegions
  exact updRefl_seen _ _ (updIf_map (β := List Host.Cell) Region.mem _ (fun r => Region.mk r.die r.ep r.key r.gen r.host r.len r.canRead r.canWrite r.canAtomic r.revoking r.revokedAt true r.waiters r.mem r.bad) (fun _ => rfl) _) rfl

@[simp] theorem takeCtlHeader_seen (d : Nat) (raw : Bytes) (s : State) :
    (takeCtlHeader d raw s).seen = s.seen := by
  unfold takeCtlHeader
  repeat' first
    | rfl
    | (simp; done)
    | split
    | (apply foldl_seen_eq <;> intros)
    | simp

@[simp] theorem dropOld_seen (s : State) :
    (dropOld s).seen = s.seen := by
  unfold dropOld
  repeat' first
    | rfl
    | (simp; done)
    | split
    | (apply foldl_seen_eq <;> intros)
    | simp

@[simp] theorem beginLeaving_seen (ref : CmdRef) (s : State) :
    (beginLeaving ref s).seen = s.seen := by
  unfold beginLeaving
  repeat' first
    | rfl
    | (simp; done)
    | split
    | (apply foldl_seen_eq <;> intros)
    | simp

@[simp] theorem flipBack_seen (s : State) :
    (flipBack s).seen = s.seen := by
  unfold flipBack
  repeat' first
    | rfl
    | (simp; done)
    | split
    | (apply foldl_seen_eq <;> intros)
    | simp

@[simp] theorem lastHolds_seen (s : State) :
    (lastHolds s).seen = s.seen := by
  unfold lastHolds
  repeat' first
    | rfl
    | (simp; done)
    | split
    | (apply foldl_seen_eq <;> intros)
    | simp

@[simp] theorem loseMirror_seen (d vol lba : Nat) (s : State) :
    (loseMirror d vol lba s).seen = s.seen := by
  unfold loseMirror
  split
  · rfl
  · exact updRfl_seen _ _ _ fun _ => ⟨rfl, rfl⟩

@[simp] theorem endFill_seen (vol i : Nat) (s : State) :
    (endFill vol i s).seen = s.seen := by
  unfold endFill
  repeat' first
    | rfl
    | (simp; done)
    | split
    | (apply foldl_seen_eq <;> intros)
    | simp

@[simp] theorem endFills_seen (s : State) :
    (endFills s).seen = s.seen := by
  unfold endFills
  repeat' first
    | rfl
    | (simp; done)
    | split
    | (apply foldl_seen_eq <;> intros)
    | simp

@[simp] theorem tapShift_seen (i : TapIns) (s : State) :
    (tapShift i s).seen = s.seen := by
  unfold tapShift
  repeat' first
    | rfl
    | (simp; done)
    | split
    | (apply foldl_seen_eq <;> intros)
    | simp

@[simp] theorem sendMirrors_seen (s : State) :
    (sendMirrors s).seen = s.seen := by
  unfold sendMirrors
  split
  · rfl
  · dsimp only
    have h : (s.aliveDies.foldl (fun s d => mirrorShadows d (mirrorJournal d (sendAcks d (pumpSystem d s)))) s).seen = s.seen :=
      foldl_seen _ (fun s d => by simp) _ _
    split
    · exact h
    · simp [h]

@[simp] theorem applyRemaps_seen (s : State) :
    (applyRemaps s).seen = s.seen := by
  unfold applyRemaps
  repeat' first
    | rfl
    | (simp; done)
    | split
    | (apply foldl_seen_eq <;> intros)
    | simp

@[simp] theorem applyFeats_seen (s : State) :
    (applyFeats s).seen = s.seen := by
  unfold applyFeats
  (repeat' split) <;> simp

@[simp] theorem applyQos_seen (s : State) :
    (applyQos s).seen = s.seen := by
  simp [applyQos]

@[simp] theorem refill_seen (s : State) :
    (refill s).seen = s.seen := by
  simp [refill]

@[simp] theorem releaseSteps_seen (s : State) : (releaseSteps s).seen = s.seen := by
  unfold releaseSteps
  repeat' first
    | rfl
    | (simp; done)
    | split
    | (apply foldl_seen_eq <;> intros)
    | simp

@[simp] theorem lookAtNew_seen (s : State) :
    (lookAtNew s).seen = s.seen := by
  unfold lookAtNew
  repeat' first
    | rfl
    | (simp; done)
    | split
    | (apply foldl_seen_eq <;> intros)
    | simp

@[simp] theorem notePartner_seen (s : State) :
    (notePartner s).seen = s.seen := by
  unfold notePartner
  (repeat' split) <;> simp

@[simp] theorem sampleBeats_seen (s : State) :
    (sampleBeats s).seen = s.seen := by
  unfold sampleBeats
  repeat' first
    | rfl
    | (simp; done)
    | split
    | (apply foldl_seen_eq <;> intros)
    | (rw [map_comp_mem _ (by intro _; (repeat' (first | rfl | split)))])
    | simp

@[simp] theorem beatOwn_seen (d : Nat) (s : State) :
    (beatOwn d s).seen = s.seen := by
  unfold beatOwn
  repeat' first
    | rfl
    | (simp; done)
    | split
    | (apply foldl_seen_eq <;> intros)
    | (rw [zipIdx_comp_mem _ (by intro _; (repeat' (first | rfl | split)))])
    | simp

@[simp] theorem beatPartner_seen (d : Nat) (s : State) :
    (beatPartner d s).seen = s.seen := by
  unfold beatPartner
  split <;> simp

@[simp] theorem sendBeats_seen (silent : List Nat) (s : State) :
    (sendBeats silent s).seen = s.seen := by
  unfold sendBeats
  repeat' first
    | rfl
    | (simp; done)
    | split
    | (apply foldl_seen_eq <;> intros)

@[simp] theorem refreshHolds_seen (silent : List Nat) (s : State) :
    (refreshHolds silent s).seen = s.seen := by
  unfold refreshHolds
  repeat' first
    | rfl
    | (simp; done)
    | split
    | (apply foldl_seen_eq <;> intros)
    | (rw [zipIdx_comp_mem _ (by intro _; (repeat' (first | rfl | split)))])
    | simp

@[simp] theorem checkWire_seen (holdIn : Bool) (s : State) :
    (checkWire holdIn s).seen = s.seen := by
  unfold checkWire
  repeat' first
    | rfl
    | (simp; done)
    | split
    | (apply foldl_seen_eq <;> intros)
    | simp

@[simp] theorem dropRejoin_seen (s : State) :
    (dropRejoin s).seen = s.seen := by
  unfold dropRejoin
  (repeat' split) <;> simp

@[simp] theorem heardAgain_seen  (s : State) :
    (heardAgain s).seen = s.seen := by
  refine foldl_seen _ (fun _ _ => ?_) _ _
  exact (foldl_seen _ (fun _ _ => endReason_seen ..) _ _).trans (by simp)

@[simp] theorem followPartner_seen (s : State) :
    (followPartner s).seen = s.seen := by
  unfold followPartner
  repeat' first
    | rfl
    | (simp; done)
    | split
    | (apply foldl_seen_eq <;> intros)
    | simp

@[simp] theorem guardPair_seen (t : TickIn) (s : State) :
    (guardPair t s).seen = s.seen := by
  unfold guardPair
  split <;> simp

@[simp] theorem noteFault_seen (test d : Nat) (s : State) :
    (noteFault test d s).seen = s.seen := by
  unfold noteFault
  repeat' first
    | rfl
    | (simp; done)
    | split
    | (apply foldl_seen_eq <;> intros)

@[simp] theorem passesDone_seen (s : State) :
    (passesDone s).seen = s.seen := by
  unfold passesDone
  repeat' first
    | rfl
    | (simp; done)
    | split
    | (apply foldl_seen_eq <;> intros)

@[simp] theorem powerWork_seen (t : TickIn) (s : State) :
    (powerWork t s).seen = s.seen := by
  unfold powerWork
  split <;> simp

@[simp] theorem giveUpProt_seen (s : State) :
    (giveUpProt s).seen = s.seen := by
  unfold giveUpProt
  repeat' first
    | rfl
    | (simp; done)
    | split
    | (apply foldl_seen_eq <;> intros)
    | simp

@[simp] theorem notePower_seen (p3 : Bool) (s : State) :
    (notePower p3 s).seen = s.seen := by
  unfold notePower
  repeat' first
    | rfl
    | (simp; done)
    | split
    | (apply foldl_seen_eq <;> intros)
    | simp

@[simp] theorem holdAges_seen (s : State) :
    (holdAges s).seen = s.seen := by
  unfold holdAges
  repeat' first
    | rfl
    | (simp; done)
    | split
    | (apply foldl_seen_eq <;> intros)
    | simp

@[simp] theorem pressureAll_seen (s : State) :
    (pressureAll s).seen = s.seen := by
  unfold pressureAll
  repeat' first
    | rfl
    | (simp; done)
    | split
    | (apply foldl_seen_eq <;> intros)

@[simp] theorem xchWrite_seen (q : Nat) (x : XchReq) (s : State) :
    (xchWrite q x s).seen = s.seen := by
  unfold xchWrite
  split <;> simp

@[simp] theorem sidebandError_seen (s : State) :
    (sidebandError s).seen = s.seen := by
  simp [sidebandError]

@[simp] theorem controlAnswer_seen (known : Bytes) (s : State) :
    (controlAnswer known s).seen = s.seen := by
  simp [controlAnswer]

@[simp] theorem replyWith_seen (cmd cc : Byte) (data : Bytes) (s : State) :
    (replyWith cmd cc data s).seen = s.seen := by
  simp [replyWith]

@[simp] theorem healthAnswer_seen (off : Nat) (s : State) :
    (healthAnswer off s).seen = s.seen := by
  unfold healthAnswer
  split <;> simp

@[simp] theorem pendingAnswer_seen (die : Nat) (s : State) :
    (pendingAnswer die s).seen = s.seen := by
  unfold pendingAnswer
  split <;> simp

@[simp] theorem clearAnswer_seen (die source : Nat) (s : State) :
    (clearAnswer die source s).seen = s.seen := by
  unfold clearAnswer
  split <;> simp

@[simp] theorem recordsAnswer_seen (pos : Nat) (s : State) :
    (recordsAnswer pos s).seen = s.seen := by
  unfold recordsAnswer
  split <;> simp

@[simp] theorem State_withFetchWord_seen (s : State) (nbits w : Nat) :
    (State.withFetchWord s nbits w).seen = s.seen := by
  unfold State.withFetchWord
  repeat' first
    | rfl
    | (simp; done)
    | split
    | (apply foldl_seen_eq <;> intros)

end Sys2Proof.Machine
end

