-- ==== Sys2Proof/Laws/Kept.lean ====
section
/-! SUPPORT. The operations that change something of what the invariant looks at, and every command: what they keep. -/

namespace Sys2Proof.Machine
set_option linter.unusedTactic false
set_option linter.unreachableTactic false
set_option linter.unusedSimpArgs false
set_option linter.unusedVariables false

theorem holdFault_kept {tk mm rm : Bool} {z : Seen} (why : Nat) (s : State) (h : Kept tk mm rm z s.seen) :
    Kept tk mm rm z (holdFault why s).seen :=
  ⟨h.pending, h.part, h.tick, h.mem, h.refl, fun k =>
    have o := h.ok k
    ⟨o.dies, fun e => mem_insNat.2 (.inr (o.fault e)), o.mems, o.regions, o.wins⟩⟩

theorem control_kept {tk mm rm : Bool} {z : Seen} (f : Cmd → State → State) (ref : CmdRef) (s : State)
    (h : Kept tk mm rm z s.seen) (hf : ∀ c s, Kept tk mm rm z s.seen → Kept tk mm rm z (f c s).seen) :
    Kept tk mm rm z (control f ref s).seen := by
  unfold control
  repeat' split
  all_goals first
    | (simpa using h)
    | exact hf _ _ h

theorem sideband_kept {tk mm rm : Bool} {z : Seen} (m : Mctp) (f : State → State) (s : State)
    (h : Kept tk mm rm z s.seen) (hf : ∀ s, Kept tk mm rm z s.seen → Kept tk mm rm z (f s).seen) :
    Kept tk mm rm z (sideband m f s).seen := by
  unfold sideband
  repeat' split
  · exact h
  · exact hf _ h
  · simpa using h

theorem enterHalt_kept {tk mm rm : Bool} {z : Seen} (i : HaltInfo) (d cause : Nat) (s : State) (h : Kept tk mm rm z s.seen) :
    Kept tk mm rm z (enterHalt i d cause s).seen := by
  have k : Kept tk mm rm z (sendMessages s).seen := h.of_eq (by simp)
  unfold enterHalt
  generalize sendMessages s = t at k
  have e : (t.dies.map fun x => { x with hold := false }).map dieMem = t.dies.map dieMem := map_mem _ _ fun _ => rfl
  refine ⟨k.pending, k.part, k.tick, fun m => e.trans (k.mem m), k.refl, fun c => ?_⟩
  have o := k.ok c
  simp only [seen_mk, e]
  exact ⟨o.dies, fun _ => mem_insNat.2 (.inl rfl), o.mems, o.regions, o.wins⟩

theorem packageYield_kept {tk mm rm : Bool} {z : Seen} (d cause : Nat) (i : HaltInfo) (s : State) (h : Kept tk mm rm z s.seen) :
    Kept tk mm rm z (packageYield d cause i s).seen := by
  unfold packageYield
  split
  · exact h
  · extract_lets s1 s2 s3 s4
    have h3 : s3.seen = s.seen := (foldl_seen _ (fun _ _ => sendYield_seen ..) _ _).trans (by simp [s2, s1])
    have h4 : s4.seen = s.seen := by simp only [s4]; split <;> simp [h3]
    exact enterHalt_kept _ _ _ _ (h.of_eq ((noteYield_seen ..).trans h4))

theorem malformed_kept {tk mm rm : Bool} {z : Seen} (d : Nat) (i : HaltInfo) (s : State) (h : Kept tk mm rm z s.seen) :
    Kept tk mm rm z (malformed d i s).seen := by
  unfold malformed
  split
  · exact h
  · exact packageYield_kept _ _ _ _ (h.of_eq (by simp))

theorem dispatchEntry_kept {tk mm rm : Bool} {z : Seen} (op : Op) (p : Post) (f : CmdRef → State → State) (s : State)
    (h : Kept tk mm rm z s.seen) (hf : ∀ c s, Kept tk mm rm z s.seen → Kept tk mm rm z (f c s).seen) :
    Kept tk mm rm z (dispatchEntry op p f s).seen := by
  have k (r : Ring) : Kept tk mm rm z (dispatched r op p s).seen := h.of_eq (by simp)
  unfold dispatchEntry
  repeat' split
  all_goals first
    | exact h
    | exact malformed_kept _ _ _ h
    | exact k _
    | exact hf _ _ (k _)

theorem dieYield_kept {tk mm rm : Bool} {z : Seen} (d cause : Nat) (s : State) (h : Kept tk mm rm z s.seen) :
    Kept tk mm rm z (dieYield d cause s).seen := by
  have key (x : State) (k : x.seen = s.seen) : Kept tk mm rm z (if x.aliveDies.isEmpty then packageYield d 0x09 {} x
      else if x.pools.any fun p => p.home == d && !p.away && !standIn x p then packageYield d 0x0A {} x else x).seen := by
    repeat' split
    · exact packageYield_kept _ _ _ _ (h.of_eq k)
    · exact packageYield_kept _ _ _ _ (h.of_eq k)
    · exact h.of_eq k
  unfold dieYield
  split
  · exact h
  · refine key _ ?_
    rw [openKerf_seen]
    simp only [seen_mk, seen_fold, fence_seen]
    rw [updDie_seen _ _ _ (by intro _; rfl)]
    simp

theorem coreFail_kept {tk mm rm : Bool} {z : Seen} (d i : Nat) (s : State)
    (h : Kept tk mm rm z s.seen) : Kept tk mm rm z (coreFail d i s).seen := by
  unfold coreFail
  repeat' first
    | assumption
    | apply dieYield_kept
    | split
    | simp

theorem coresFail_kept {tk mm rm : Bool} {z : Seen} (d : Nat) (is : List Nat) (s : State)
    (h : Kept tk mm rm z s.seen) : Kept tk mm rm z (coresFail d is s).seen := by
  unfold coresFail
  repeat' first
    | assumption
    | apply coreFail_kept
    | split
    | (apply foldl_kept <;> intros)
    | simp

theorem gfOut_kept {tk mm rm : Bool} {z : Seen} (d u : Nat) (s : State)
    (h : Kept tk mm rm z s.seen) : Kept tk mm rm z (gfOut d u s).seen := by
  unfold gfOut
  repeat' first
    | assumption
    | apply dieYield_kept
    | split
    | simp

theorem aesOut_kept {tk mm rm : Bool} {z : Seen} (d u : Nat) (s : State)
    (h : Kept tk mm rm z s.seen) : Kept tk mm rm z (aesOut d u s).seen := by
  unfold aesOut
  repeat' first
    | assumption
    | apply dieYield_kept
    | split
    | simp

theorem moverOut_kept {tk mm rm : Bool} {z : Seen} (d u : Nat) (s : State)
    (h : Kept tk mm rm z s.seen) : Kept tk mm rm z (moverOut d u s).seen := by
  unfold moverOut
  repeat' first
    | assumption
    | apply dieYield_kept
    | split
    | (apply foldl_kept <;> intros)
    | simp

theorem execDoorbell_kept {tk mm rm : Bool} {z : Seen} (w : Win) (a : Acc) (s : State)
    (h : Kept tk mm rm z s.seen) : Ends (Kept tk mm rm z) (execDoorbell w a s) := by
  unfold execDoorbell
  repeat' first
    | assumption
    | split
    | simp

theorem execNotificationDoorbell_kept {tk mm rm : Bool} {z : Seen} (w : Win) (a : Acc) (s : State)
    (h : Kept tk mm rm z s.seen) : Ends (Kept tk mm rm z) (execNotificationDoorbell w a s) := by
  unfold execNotificationDoorbell
  (repeat' split) <;> simpa using h

theorem execClearOvf_kept {tk mm rm : Bool} {z : Seen} (w : Win) (a : Acc) (s : State)
    (h : Kept tk mm rm z s.seen) : Ends (Kept tk mm rm z) (execClearOvf w a s) := by
  unfold execClearOvf
  (repeat' split) <;> simpa using h

theorem execInvalidate_kept {tk mm rm : Bool} {z : Seen} (w : Win) (a : Acc) (s : State)
    (h : Kept tk mm rm z s.seen) : Ends (Kept tk mm rm z) (execInvalidate w a s) := by
  unfold execInvalidate
  (repeat' split) <;> simpa using h

theorem execSetupRingEnable_kept {tk mm rm : Bool} {z : Seen} (w : Win) (a : Acc) (s : State)
    (h : Kept tk mm rm z s.seen) : Ends (Kept tk mm rm z) (execSetupRingEnable w a s) := by
  unfold execSetupRingEnable
  repeat' first
    | assumption
    | split
    | simp

theorem execSetupRingDisable_kept {tk mm rm : Bool} {z : Seen} (w : Win) (a : Acc) (s : State)
    (h : Kept tk mm rm z s.seen) : Ends (Kept tk mm rm z) (execSetupRingDisable w a s) := by
  unfold execSetupRingDisable
  (repeat' split) <;> simpa using h

theorem execLadderAck_kept {tk mm rm : Bool} {z : Seen} (port : Nat) (a : Acc) (s : State)
    (h : Kept tk mm rm z s.seen) : Ends (Kept tk mm rm z) (execLadderAck port a s) := by
  unfold execLadderAck
  split <;> simpa using h

theorem execEvtPendClear_kept {tk mm rm : Bool} {z : Seen} (die i : Nat) (a : Acc) (s : State)
    (h : Kept tk mm rm z s.seen) : Ends (Kept tk mm rm z) (execEvtPendClear die i a s) := by
  unfold execEvtPendClear
  split <;> simpa using h

theorem execMsixVectorUnmask_kept {tk mm rm : Bool} {z : Seen} (die fn vec : Nat) (s : State)
    (h : Kept tk mm rm z s.seen) : Ends (Kept tk mm rm z) (execMsixVectorUnmask die fn vec s) := by
  unfold execMsixVectorUnmask
  split <;> simpa using h

theorem execRingFetchError_kept {tk mm rm : Bool} {z : Seen} (die ring : Nat) (s : State)
    (h : Kept tk mm rm z s.seen) : Ends (Kept tk mm rm z) (execRingFetchError die ring s) := by
  unfold execRingFetchError
  (repeat' split) <;> simpa using h

theorem execLockstepMismatch_kept {tk mm rm : Bool} {z : Seen} (die : Nat) (cores : List Nat) (s : State)
    (h : Kept tk mm rm z s.seen) : Ends (Kept tk mm rm z) (execLockstepMismatch die cores s) := by
  unfold execLockstepMismatch
  repeat' first
    | assumption
    | apply coresFail_kept
    | split
    | (apply foldl_kept <;> intros)
    | simp

theorem gfFault_kept {tk mm rm : Bool} {z : Seen} (d u : Nat) (s : State)
    (h : Kept tk mm rm z s.seen) : Kept tk mm rm z (gfFault d u s).seen := by
  unfold gfFault
  repeat' first
    | assumption
    | apply gfOut_kept
    | split
    | (apply foldl_kept <;> intros)
    | simp

theorem aesFault_kept {tk mm rm : Bool} {z : Seen} (d u : Nat) (s : State)
    (h : Kept tk mm rm z s.seen) : Kept tk mm rm z (aesFault d u s).seen := by
  unfold aesFault
  repeat' first
    | assumption
    | apply aesOut_kept
    | split
    | (apply foldl_kept <;> intros)
    | simp

theorem execGfResidueFault_kept {tk mm rm : Bool} {z : Seen} (die unit : Nat) (run : GfRun) (s : State)
    (h : Kept tk mm rm z s.seen) : Ends (Kept tk mm rm z) (execGfResidueFault die unit run s) := by
  unfold execGfResidueFault
  repeat' first
    | assumption
    | apply gfFault_kept
    | split
    | (apply foldl_kept <;> intros)
    | simp

theorem execAesCheckFault_kept {tk mm rm : Bool} {z : Seen} (die unit : Nat) (run : AesTry) (s : State)
    (h : Kept tk mm rm z s.seen) : Ends (Kept tk mm rm z) (execAesCheckFault die unit run s) := by
  unfold execAesCheckFault
  repeat' first
    | assumption
    | apply aesFault_kept
    | split
    | (apply foldl_kept <;> intros)
    | simp

theorem driveOut_kept {tk mm rm : Bool} {z : Seen} (d port : Nat) (s : State)
    (h : Kept tk mm rm z s.seen) : Kept tk mm rm z (driveOut d port s).seen := by
  unfold driveOut
  repeat' first
    | assumption
    | apply dieYield_kept
    | split
    | (apply foldl_kept <;> intros)
    | simp

theorem moduleOut_kept {tk mm rm : Bool} {z : Seen} (d m : Nat) (s : State)
    (h : Kept tk mm rm z s.seen) : Kept tk mm rm z (moduleOut d m s).seen := by
  unfold moduleOut
  repeat' first
    | assumption
    | apply dieYield_kept
    | split
    | (apply foldl_kept <;> intros)
    | simp

theorem unitOut_kept {tk mm rm : Bool} {z : Seen} (d unit port : Nat) (s : State)
    (h : Kept tk mm rm z s.seen) : Kept tk mm rm z (unitOut d unit port s).seen := by
  unfold unitOut
  repeat' first
    | assumption
    | apply aesOut_kept
    | apply dieYield_kept
    | apply driveOut_kept
    | apply gfOut_kept
    | apply moduleOut_kept
    | apply moverOut_kept
    | split
    | (apply foldl_kept <;> intros)
    | simp

theorem execDatapathCrcError_kept {tk mm rm : Bool} {z : Seen} (die unit : Nat) (move : XferTry) (s : State)
    (h : Kept tk mm rm z s.seen) : Ends (Kept tk mm rm z) (execDatapathCrcError die unit move s) := by
  unfold execDatapathCrcError
  repeat' first
    | assumption
    | apply unitOut_kept
    | split
    | (apply foldl_kept <;> intros)
    | simp

theorem execNvUnitRetired_kept {tk mm rm : Bool} {z : Seen} (die : Nat) (s : State)
    (h : Kept tk mm rm z s.seen) : Ends (Kept tk mm rm z) (execNvUnitRetired die s) := by
  unfold execNvUnitRetired
  repeat' first
    | assumption
    | apply dieYield_kept
    | split
    | simp

theorem execSramPatrol_kept {tk mm rm : Bool} {z : Seen} (die corrected : Nat) (s : State)
    (h : Kept tk mm rm z s.seen) : Ends (Kept tk mm rm z) (execSramPatrol die corrected s) := by
  unfold execSramPatrol
  split <;> simpa using h

theorem execDdrPatrol_kept {tk mm rm : Bool} {z : Seen} (die : Nat) (corrected : List Nat) (s : State)
    (h : Kept tk mm rm z s.seen) : Ends (Kept tk mm rm z) (execDdrPatrol die corrected s) := by
  unfold execDdrPatrol
  repeat' first
    | assumption
    | apply tick_kept
    | split
    | (apply foldl_kept <;> intros)
    | simp

theorem execDdrZqCalibration_kept {tk mm rm : Bool} {z : Seen} (die channel : Nat) (s : State)
    (h : Kept tk mm rm z s.seen) : Ends (Kept tk mm rm z) (execDdrZqCalibration die channel s) := by
  unfold execDdrZqCalibration
  split <;> simpa using h

theorem execDdrChannelSpared_kept {tk mm rm : Bool} {z : Seen} (die channel : Nat) (s : State)
    (h : Kept tk mm rm z s.seen) : Ends (Kept tk mm rm z) (execDdrChannelSpared die channel s) := by
  unfold execDdrChannelSpared
  split <;> simpa using h

theorem execDdrRetrained_kept {tk mm rm : Bool} {z : Seen} (die channel : Nat) (ok : Bool) (s : State)
    (h : Kept tk mm rm z s.seen) : Ends (Kept tk mm rm z) (execDdrRetrained die channel ok s) := by
  unfold execDdrRetrained
  (repeat' split) <;> simpa using h

theorem execEyeMeasure_kept {tk mm rm : Bool} {z : Seen} (die lane : Nat) (eye : EyeSeen) (s : State)
    (h : Kept tk mm rm z s.seen) : Ends (Kept tk mm rm z) (execEyeMeasure die lane eye s) := by
  unfold execEyeMeasure
  repeat' first
    | assumption
    | split
    | (apply foldl_kept <;> intros)
    | simp

theorem execFabricLinkDown_kept {tk mm rm : Bool} {z : Seen} (die module : Nat) (s : State)
    (h : Kept tk mm rm z s.seen) : Ends (Kept tk mm rm z) (execFabricLinkDown die module s) := by
  unfold execFabricLinkDown
  split <;> simpa using h

theorem execDieSelfRetire_kept {tk mm rm : Bool} {z : Seen} (die : Nat) (s : State)
    (h : Kept tk mm rm z s.seen) : Ends (Kept tk mm rm z) (execDieSelfRetire die s) := by
  unfold execDieSelfRetire
  repeat' first
    | assumption
    | apply dieYield_kept
    | split

theorem execDieHoldDrop_kept {tk mm rm : Bool} {z : Seen} (die : Nat) (s : State)
    (h : Kept tk mm rm z s.seen) : Ends (Kept tk mm rm z) (execDieHoldDrop die s) := by
  unfold execDieHoldDrop
  repeat' first
    | assumption
    | apply dieYield_kept
    | split
    | (apply foldl_kept <;> intros)
    | (rw [updDie_seen _ _ _ (by intro _; rfl)])
    | simp

theorem execLeadDieMove_kept {tk mm rm : Bool} {z : Seen} (s : State)
    (h : Kept tk mm rm z s.seen) : Ends (Kept tk mm rm z) (execLeadDieMove s) := by
  unfold execLeadDieMove
  (repeat' split) <;> simpa using h

theorem execIndexRebuilt_kept {tk mm rm : Bool} {z : Seen} (s : State)
    (h : Kept tk mm rm z s.seen) : Ends (Kept tk mm rm z) (execIndexRebuilt s) := by
  simpa [execIndexRebuilt] using h

theorem execThermalWarning_kept {tk mm rm : Bool} {z : Seen} (die : Nat) (temp : BitVec 8) (s : State)
    (h : Kept tk mm rm z s.seen) : Ends (Kept tk mm rm z) (execThermalWarning die temp s) := by
  have e : (raise die 0x6002 { arg0 := temp.toNat } (s.updHw die fun x => { x with temp := temp })).seen = s.seen :=
    (raise_seen _ _ _ _).trans (updHw_seen _ _ _)
  rw [← e] at h
  unfold execThermalWarning
  split
  · dsimp only
    split <;> exact h
  · rw [e] at h
    exact h

theorem execThermalCapStep_kept {tk mm rm : Bool} {z : Seen} (s : State)
    (h : Kept tk mm rm z s.seen) : Ends (Kept tk mm rm z) (execThermalCapStep s) := by
  unfold execThermalCapStep
  split <;> simpa using h

theorem execThermalCapLifted_kept {tk mm rm : Bool} {z : Seen} (s : State)
    (h : Kept tk mm rm z s.seen) : Ends (Kept tk mm rm z) (execThermalCapLifted s) := by
  unfold execThermalCapLifted
  split <;> simpa using h

theorem execAnchor_kept {tk mm rm : Bool} {z : Seen} (die : Nat) (s : State)
    (h : Kept tk mm rm z s.seen) : Ends (Kept tk mm rm z) (execAnchor die s) := by
  unfold execAnchor
  (repeat' split) <;> simpa using h

theorem execJournalSpill_kept {tk mm rm : Bool} {z : Seen} (die : Nat) (s : State)
    (h : Kept tk mm rm z s.seen) : Ends (Kept tk mm rm z) (execJournalSpill die s) := by
  unfold execJournalSpill
  repeat' first
    | assumption
    | split
    | (apply foldl_kept <;> intros)
    | simp

theorem execJournalFullCleared_kept {tk mm rm : Bool} {z : Seen} (die : Nat) (s : State)
    (h : Kept tk mm rm z s.seen) : Ends (Kept tk mm rm z) (execJournalFullCleared die s) := by
  unfold execJournalFullCleared
  (repeat' split) <;> simpa using h

theorem execSpillCopyReplaced_kept {tk mm rm : Bool} {z : Seen} (pool member : Nat) (s : State)
    (h : Kept tk mm rm z s.seen) : Ends (Kept tk mm rm z) (execSpillCopyReplaced pool member s) := by
  unfold execSpillCopyReplaced
  repeat' first
    | assumption
    | split
    | (apply foldl_kept <;> intros)
    | simp

theorem execConfigFold_kept {tk mm rm : Bool} {z : Seen} (die : Nat) (s : State)
    (h : Kept tk mm rm z s.seen) : Ends (Kept tk mm rm z) (execConfigFold die s) := by
  unfold execConfigFold
  split <;> simpa using h

theorem execNvVerifyPass_kept {tk mm rm : Bool} {z : Seen} (die : Nat) (bad : List Nat) (s : State)
    (h : Kept tk mm rm z s.seen) : Ends (Kept tk mm rm z) (execNvVerifyPass die bad s) := by
  unfold execNvVerifyPass
  repeat' first
    | assumption
    | split
    | (apply foldl_kept <;> intros)
    | simp

theorem badFetch_kept {tk mm rm : Bool} {z : Seen} (b : BadFetch) (s : State)
    (h : Kept tk mm rm z s.seen) : Kept tk mm rm z (badFetch b s).seen := by
  unfold badFetch
  repeat' first
    | assumption
    | apply malformed_kept
    | split

theorem execRateWindow_kept {tk mm rm : Bool} {z : Seen} (die : Nat) (s : State)
    (h : Kept tk mm rm z s.seen) : Ends (Kept tk mm rm z) (execRateWindow die s) := by
  unfold execRateWindow
  split <;> simpa using h

theorem execOptimeSave_kept {tk mm rm : Bool} {z : Seen} (die : Nat) (s : State)
    (h : Kept tk mm rm z s.seen) : Ends (Kept tk mm rm z) (execOptimeSave die s) := by
  unfold execOptimeSave
  repeat' first
    | assumption
    | split
    | (apply foldl_kept <;> intros)
    | (rw [updDie_seen _ _ _ (by intro _; rfl)])
    | simp

theorem execFreezeExpired_kept {tk mm rm : Bool} {z : Seen} (s : State)
    (h : Kept tk mm rm z s.seen) : Ends (Kept tk mm rm z) (execFreezeExpired s) := by
  unfold execFreezeExpired
  split <;> simpa using h

theorem execChallengeExpired_kept {tk mm rm : Bool} {z : Seen} (s : State)
    (h : Kept tk mm rm z s.seen) : Ends (Kept tk mm rm z) (execChallengeExpired s) := by
  unfold execChallengeExpired
  (repeat' split) <;> simpa using h

theorem recorderFailed_kept {tk mm rm : Bool} {z : Seen} (d cause slot : Nat) (s : State)
    (h : Kept tk mm rm z s.seen) : Kept tk mm rm z (recorderFailed d cause slot s).seen := by
  unfold recorderFailed
  repeat' first
    | assumption
    | apply holdFault_kept
    | split
    | simp

theorem execBudgetWindow_kept {tk mm rm : Bool} {z : Seen} (die : Nat) (percentiles : List Nat) (s : State)
    (h : Kept tk mm rm z s.seen) : Ends (Kept tk mm rm z) (execBudgetWindow die percentiles s) := by
  unfold execBudgetWindow
  repeat' first
    | assumption
    | split
    | (apply foldl_kept <;> intros)
    | simp

theorem execFrameOverrun_kept {tk mm rm : Bool} {z : Seen} (die : Nat) (s : State)
    (h : Kept tk mm rm z s.seen) : Ends (Kept tk mm rm z) (execFrameOverrun die s) := by
  unfold execFrameOverrun
  (repeat' split) <;> simpa using h

theorem execFrameRecovered_kept {tk mm rm : Bool} {z : Seen} (die : Nat) (s : State)
    (h : Kept tk mm rm z s.seen) : Ends (Kept tk mm rm z) (execFrameRecovered die s) := by
  unfold execFrameRecovered
  (repeat' split) <;> simpa using h

theorem execFrameNotRecovered_kept {tk mm rm : Bool} {z : Seen} (die : Nat) (s : State)
    (h : Kept tk mm rm z s.seen) : Ends (Kept tk mm rm z) (execFrameNotRecovered die s) := by
  unfold execFrameNotRecovered
  repeat' first
    | assumption
    | apply dieYield_kept
    | split

theorem execTicksyncAlign_kept {tk mm rm : Bool} {z : Seen} (cycles : Nat) (s : State)
    (h : Kept tk mm rm z s.seen) : Ends (Kept tk mm rm z) (execTicksyncAlign cycles s) := by
  unfold execTicksyncAlign
  split <;> simpa using h

theorem execTicksyncLost_kept {tk mm rm : Bool} {z : Seen} (s : State)
    (h : Kept tk mm rm z s.seen) : Ends (Kept tk mm rm z) (execTicksyncLost s) := by
  unfold execTicksyncLost
  split <;> simpa using h

theorem memberDone_kept {tk mm rm : Bool} {z : Seen} (i : Nat) (r : MemResult) (s : State)
    (h : Kept tk mm rm z s.seen) : Kept tk mm rm z (memberDone i r s).seen := by
  unfold memberDone
  repeat' first
    | assumption
    | apply packageYield_kept
    | split
    | simp

theorem execCapRedivide_kept {tk mm rm : Bool} {z : Seen} (s : State)
    (h : Kept tk mm rm z s.seen) : Ends (Kept tk mm rm z) (execCapRedivide s) := by
  simpa [execCapRedivide] using h

theorem execMeterSnapshot_kept {tk mm rm : Bool} {z : Seen} (late : Bool) (s : State)
    (h : Kept tk mm rm z s.seen) : Ends (Kept tk mm rm z) (execMeterSnapshot late s) := by
  simpa [execMeterSnapshot] using h

theorem execMeterHeadWrite_kept {tk mm rm : Bool} {z : Seen} (die : Nat) (a : Acc) (s : State)
    (h : Kept tk mm rm z s.seen) : Ends (Kept tk mm rm z) (execMeterHeadWrite die a s) := by
  simpa [execMeterHeadWrite] using h

theorem applyWindow_kept {tk mm : Bool} {z : Seen} (d : Nat) (g : Seg) (s : State) (h : Kept tk mm false z s.seen) :
    Kept tk mm false z (applyWindow d g s).seen := by
  unfold applyWindow
  extract_lets s1 last put s2
  have h1 : Kept tk mm false z s1.seen := by
    simp only [s1]
    split
    · exact h
    · rw [evict_seen]
      refine updRefl_kept _ _ h id fun w m hm => ?_
      simp only [List.map_append, List.mem_append, List.map_cons, List.map_nil, List.mem_singleton] at hm
      rcases hm with hm | rfl
      · exact w m hm
      · rfl
  have h2 : Kept tk mm false z s2.seen :=
    updRefl_kept _ _ h1 id (updIf_mem_wf _ _ _ _ fun x _ w => writeBytes_memWf _ _ w)
  split
  · rw [sendMsix_seen]; exact h2
  · exact h2

theorem updRegion_kept {tk mm : Bool} {z : Seen} (s : State) (d key : Nat) (f : Region → Region) (h : Kept tk mm false z s.seen)
    (hf : ∀ r ∈ s.refl.regions, memWf r.mem = true → memWf (f r).mem = true) :
    Kept tk mm false z (s.updRegion d key f).seen :=
  updRefl_kept _ _ h (updIf_mem_wf _ _ _ _ hf) id

theorem region?_mem {s : State} {d key : Nat} {r : Region} (e : s.region? d key = some r) : r ∈ s.refl.regions :=
  List.mem_of_find?_eq_some e

theorem atomicOn_memWf (g : Seg) {m : List Host.Cell} (w : memWf m = true) : memWf (atomicOn g m).2 = true :=
  writeBytes_memWf _ _ w

/-- A region's memory replaced by one in the canonical form. -/
theorem setRegion_kept {tk mm : Bool} {z : Seen} {s : State} {d key : Nat} {r : Region} (e : s.region? d key = some r)
    (f : List Host.Cell → List Host.Cell) (hf : ∀ m, memWf m = true → memWf (f m) = true) (h : Kept tk mm false z s.seen) :
    Kept tk mm false z (s.updRegion d key fun x => { x with mem := f r.mem }).seen :=
  refl_kept h
    (fun o => updIf_mem_wf _ _ _ _ (fun _ _ _ => hf _ (o.regions _ (List.mem_map_of_mem (region?_mem e)))) o.regions)
    (fun o => o.wins)

theorem applyRegion_kept {tk mm : Bool} {z : Seen} (d key : Nat) (g : Seg) (host : Bytes) (s : State)
    (h : Kept tk mm false z s.seen) : Kept tk mm false z (applyRegion d key g host s).2.seen := by
  unfold applyRegion
  split
  · exact h
  · rename_i r e
    split
    · dsimp only
      split
      · simpa using h
      · exact updRegion_kept _ _ _ _ h fun _ _ w => writeBytes_memWf _ _ w
    · split
      · simpa using h
      · dsimp only
        rw [respond_seen]
        exact setRegion_kept e (fun m => (atomicOn g m).2) (fun _ w => atomicOn_memWf g w) h

theorem applySeg_kept {tk : Bool} {z : Seen} (d : Nat) (g : Seg) (t : Target) (host : Bytes) (s : State)
    (h : Kept tk false false z s.seen) : Kept tk false false z (applySeg d g t host s).2.seen := by
  unfold applySeg
  split
  · simpa using h
  · split
    · simpa using h
    · split
      · exact h
      · rename_i x e
        dsimp only
        rw [respond_seen]
        refine mems_kept h fun o => ⟨(List.length_map _).trans ((List.length_modify ..).trans (List.length_map _).symm), ?_⟩
        have w := o.mems _ (List.mem_map_of_mem (List.mem_of_getElem? e))
        exact modify_mem_wf _ _ _ (fun _ v => ⟨atomicOn_memWf g w.1, v.2⟩) o.mems
    · split
      · simpa using h
      · rw [takeMirror_seen]
        exact updRfl_kept _ _ _ h fun _ w => ⟨w.1, writeBytes_memWf _ _ w.2⟩
    · exact updRefl_kept _ _ h id (filter_mem_wf _ _ _)
    · exact applyWindow_kept _ _ _ h
    · exact applyRegion_kept _ _ _ _ _ h

theorem applyNow_kept {tk : Bool} {z : Seen} (d : Nat) (g : Seg) (t : Target) (host : Bytes) (s : State)
    (h : Kept tk false false z s.seen) : Kept tk false false z (applyNow d g t host s).seen := by
  unfold applyNow
  split
  rw [oweAck_seen, record_seen]
  exact snd_kept (by assumption) (applySeg_kept _ _ _ _ _ h)

theorem releaseHeld_kept {tk : Bool} {z : Seen} (d : Nat) (g : Seg) (s : State) (h : Kept tk false false z s.seen) :
    Kept tk false false z (releaseHeld d g s).seen := by
  unfold releaseHeld
  split
  · exact h
  · split
    · exact h
    · rename_i x _ _
      extract_lets s1
      have h1 : Kept tk false false z s1.seen := h.of_eq (updRfl_seen _ _ _ fun _ => ⟨rfl, rfl⟩)
      split
      rw [oweAck_seen, reOutcome_seen]
      exact snd_kept (by assumption) (applySeg_kept _ _ _ _ _ h1)

theorem takeSeg_kept {tk : Bool} {z : Seen} (d : Nat) (g : Seg) (t : Target) (host : Bytes) (s : State)
    (h : Kept tk false false z s.seen) : Kept tk false false z (takeSeg d g t host s).seen := by
  unfold takeSeg
  repeat' first
    | assumption
    | apply applyNow_kept
    | apply releaseHeld_kept
    | split
    | (apply foldl_kept <;> intros)
    | (rw [updRfl_seen _ _ _ (by intro _; exact ⟨rfl, rfl⟩)])
    | simp

theorem arrive_kept {tk : Bool} {z : Seen} (op : Byte) (d : Nat) (g : Seg) (host : Bytes) (s : State)
    (h : Kept tk false false z s.seen) : Kept tk false false z (arrive op d g host s).seen := by
  unfold arrive
  repeat' first
    | assumption
    | apply takeSeg_kept
    | split
    | (apply foldl_kept <;> intros)
    | (rw [updRfl_seen _ _ _ (by intro _; exact ⟨rfl, rfl⟩)])
    | simp

theorem registerRegion_kept {tk mm : Bool} {z : Seen} (c : Cmd) (s : State) (h : Kept tk mm false z s.seen) :
    Kept tk mm false z (registerRegion c s).seen := by
  unfold registerRegion
  extract_lets e p len ddr
  split
  · rw [fail_seen]; exact h
  split
  · rw [fail_seen]; exact h
  split
  · rw [fail_seen]; exact h
  split
  · rw [fail_seen]; exact h
  split
  · rw [fail_seen]; exact h
  extract_lets r
  rw [ok_seen, evict_seen]
  refine updRefl_kept _ _ h (fun w m hm => ?_) id
  simp only [List.map_append, List.mem_append, List.map_cons, List.map_nil, List.mem_singleton] at hm
  rcases hm with hm | rfl
  · exact w m hm
  · rfl

theorem freeQp_kept {tk mm : Bool} {z : Seen} (q : Qp) (s : State) (h : Kept tk mm false z s.seen) :
    Kept tk mm false z (freeQp q s).seen := by
  unfold freeQp
  extract_lets s1
  have h1 : Kept tk mm false z s1.seen := h.of_eq (updRefl_seen _ _ rfl rfl)
  split
  · exact updRefl_kept _ _ h1 id (filter_mem_wf _ _ _)
  · rw [sendSystem_seen]; exact h1

theorem revokeDone_kept {tk mm : Bool} {z : Seen} (d key : Nat) (s : State) (h : Kept tk mm false z s.seen) :
    Kept tk mm false z (revokeDone d key s).seen := by
  unfold revokeDone
  split
  · exact h
  split
  · exact h
  · extract_lets g order s1
    exact foldl_kept _ _ _ (updRefl_kept _ _ h (filter_mem_wf _ _ _) id) fun s c k => k.of_eq (finishClose_seen ..)

theorem closeEp_kept {tk mm : Bool} {z : Seen} (c : Cmd) (e : Ep) (s : State) (h : Kept tk mm false z s.seen) :
    Kept tk mm false z (closeEp c e s).seen := by
  unfold closeEp
  extract_lets a mine msgs s1 s2 s3 s4
  have h1 : s1.seen = s.seen := foldl_seen _ (fun _ _ => failReflect_seen ..) _ _
  have h2 : Kept tk mm false z s2.seen := foldl_kept _ _ _ (h.of_eq h1) fun s q k => freeQp_kept q s k
  have h3 : Kept tk mm false z s3.seen := updRefl_kept _ _ h2 id (filter_mem_wf _ _ _)
  have h4 : s4.seen = s3.seen := foldl_seen _ (fun _ _ => revoke_seen ..) _ _
  exact h3.of_eq ((finishClose_seen ..).trans ((State_updCmd_seen ..).trans h4))

theorem endpointStatus_kept {tk mm : Bool} {z : Seen} (c : Cmd) (s : State)
    (h : Kept tk mm false z s.seen) : Kept tk mm false z (endpointStatus c s).seen := by
  unfold endpointStatus
  repeat' first
    | assumption
    | apply closeEp_kept
    | split
    | simp

theorem execPayloadFlit_kept {tk mm rm : Bool} {z : Seen} (die : Nat) (raw : Bytes) (s : State)
    (h : Kept tk mm rm z s.seen) : Ends (Kept tk mm rm z) (execPayloadFlit die raw s) := by
  unfold execPayloadFlit
  (repeat' split) <;> simpa using h

theorem execAlignFlit_kept {tk mm rm : Bool} {z : Seen} (die : Nat) (raw : Bytes) (s : State)
    (h : Kept tk mm rm z s.seen) : Ends (Kept tk mm rm z) (execAlignFlit die raw s) := by
  unfold execAlignFlit
  (repeat' split) <;> simpa using h

theorem execConfigFlit_kept {tk mm rm : Bool} {z : Seen} (die : Nat) (raw : Bytes) (s : State)
    (h : Kept tk mm rm z s.seen) : Ends (Kept tk mm rm z) (execConfigFlit die raw s) := by
  unfold execConfigFlit
  (repeat' split) <;> simpa using h

theorem execConfigAckFlit_kept {tk mm rm : Bool} {z : Seen} (die : Nat) (raw : Bytes) (s : State)
    (h : Kept tk mm rm z s.seen) : Ends (Kept tk mm rm z) (execConfigAckFlit die raw s) := by
  unfold execConfigAckFlit
  (repeat' split) <;> simpa using h

theorem execRecoverFlit_kept {tk mm rm : Bool} {z : Seen} (got : FlitIn) (s : State)
    (h : Kept tk mm rm z s.seen) : Ends (Kept tk mm rm z) (execRecoverFlit got s) := by
  unfold execRecoverFlit
  repeat' first
    | assumption
    | split
    | (apply foldl_kept <;> intros)
    | simp

theorem execLinkRecover_kept {tk mm rm : Bool} {z : Seen} (die : Nat) (s : State)
    (h : Kept tk mm rm z s.seen) : Ends (Kept tk mm rm z) (execLinkRecover die s) := by
  unfold execLinkRecover
  (repeat' split) <;> simpa using h

theorem execLinkDetect_kept {tk mm rm : Bool} {z : Seen} (die : Nat) (s : State)
    (h : Kept tk mm rm z s.seen) : Ends (Kept tk mm rm z) (execLinkDetect die s) := by
  unfold execLinkDetect
  repeat' first
    | assumption
    | split
    | (apply foldl_kept <;> intros)
    | (rw [updDie_seen _ _ _ (by intro _; rfl)])
    | simp

theorem execEqualisationLock_kept {tk mm rm : Bool} {z : Seen} (die : Nat) (lanes : List Nat) (s : State)
    (h : Kept tk mm rm z s.seen) : Ends (Kept tk mm rm z) (execEqualisationLock die lanes s) := by
  unfold execEqualisationLock
  split
  · split
    · exact h
    · refine h.of_eq ?_
      split <;> simp
  · exact h

theorem execLinkStateTimeout_kept {tk mm rm : Bool} {z : Seen} (die : Nat) (s : State)
    (h : Kept tk mm rm z s.seen) : Ends (Kept tk mm rm z) (execLinkStateTimeout die s) := by
  unfold execLinkStateTimeout
  (repeat' split) <;> simpa using h

theorem shadowPools_kept {tk mm rm : Bool} {z : Seen} (d : Nat) (l : List Nat) (s : State) (h : Kept tk mm rm z s.seen) :
    Kept tk mm rm z (shadowPools d l s).seen := by
  induction l generalizing s with
  | nil => exact h
  | cons n l ih =>
    unfold shadowPools
    split
    · exact ih _ h
    · split
      · exact packageYield_kept _ _ _ _ h
      · exact ih _ (h.of_eq (by simp))

theorem shadowTakeover_kept {tk mm rm : Bool} {z : Seen} (d : Nat) (s : State)
    (h : Kept tk mm rm z s.seen) : Kept tk mm rm z (shadowTakeover d s).seen := by
  unfold shadowTakeover
  split
  · exact h
  dsimp only
  split
  · exact h
  split
  · exact h.of_eq (wake_seen _)
  have h1 : Kept tk mm rm z (shadowPools d (poolsOn s d) (silence d s)).seen := shadowPools_kept _ _ _ (h.of_eq (silence_seen ..))
  split
  · exact h1
  split
  · exact h1.of_eq ((foldl_seen _ (fun _ _ => endReason_seen ..) _ _).trans ((kerfOver_seen ..).trans (reshadow_seen ..)))
  · exact h1.of_eq ((raise_seen ..).trans ((foldl_seen _ (fun _ _ => endReason_seen ..) _ _).trans
      ((kerfOver_seen ..).trans (reshadow_seen ..))))

theorem finishRetire_kept {tk mm rm : Bool} {z : Seen} (d : Nat) (s : State)
    (h : Kept tk mm rm z s.seen) : Kept tk mm rm z (finishRetire d s).seen := by
  unfold finishRetire
  repeat' first
    | assumption
    | apply dieYield_kept
    | split
    | (apply foldl_kept <;> intros)
    | (rw [updDie_seen _ _ _ (by intro _; rfl)])
    | simp

theorem dieRetireMigrated_kept {tk mm rm : Bool} {z : Seen} (num : Nat) (s : State) (h : Kept tk mm rm z s.seen) :
    Kept tk mm rm z (dieRetireMigrated num s).seen := by
  unfold dieRetireMigrated
  split
  · exact h
  split
  · exact h
  split
  · exact h
  · exact finishRetire_kept _ _ (h.of_eq (by rw [endReason_seen, kerfOver_seen, makeMirrored_seen, takePool_seen, startKerf_seen]))

theorem importPools_kept {tk mm rm : Bool} {z : Seen} (s : State) (h : Kept tk mm rm z s.seen) :
    Kept tk mm rm z (importPools s).seen := by
  unfold importPools
  refine foldl_kept _ _ _ h fun s p k => ?_
  split
  · exact k
  split
  · exact packageYield_kept _ _ _ _ k
  · exact k.of_eq (by rw [makeMirrored_seen, takePool_seen, adoptMirror_seen, State_updPool_seen])

theorem dropPartnerQps_kept {tk mm : Bool} {z : Seen} (s : State)
    (h : Kept tk mm false z s.seen) : Kept tk mm false z (dropPartnerQps s).seen := by
  have e : Kept tk mm false z ({ s with
      dies := s.dies.map fun x => { x with
        rfl := { x.rfl with sys := x.rfl.sys.filter fun m => epPkg m.dst == s.id.pkgid
                            sysWait := x.rfl.sysWait.filter fun m => epPkg m.dst == s.id.pkgid }
        jr := { x.jr with sentIn := [] } }
      cmds := s.cmds.map Cmd.unmirrored
      refl := { s.refl with wins := s.refl.wins.filter fun w => epPkg w.writer == s.id.pkgid } } : State).seen := by
    have k := refl_kept h (r := s.seen.regions) (w := (s.refl.wins.filter fun w => epPkg w.writer == s.id.pkgid).map (·.mem))
      (fun o => o.regions) (fun o => filter_mem_wf Exch.mem _ s.refl.wins o.wins)
    refine k.of_eq ?_
    simp only [State.seen]
    congr 1
    exact map_mem _ _ fun _ => rfl
  unfold dropPartnerQps
  exact e.of_eq (foldl_seen _ (fun _ _ => qpError_seen ..) _ _)

theorem beginTakeover_kept {tk mm : Bool} {z : Seen} (s : State)
    (h : Kept tk mm false z s.seen) : Kept tk mm false z (beginTakeover s).seen := by
  unfold beginTakeover
  refine importPools_kept _ (Kept.of_eq (dropPartnerQps_kept _ (h.of_eq ((raisePkg_seen ..).trans ((dropOld_seen _).trans ?_))))
    ((remirror_seen _).trans (foldl_seen _ (fun _ _ => loseRemote_seen ..) _ _)))
  exact setPair_seen .survivor s

theorem takeOver_kept {tk mm : Bool} {z : Seen} (fault : Nat) (s : State)
    (h : Kept tk mm false z s.seen) : Kept tk mm false z (takeOver fault s).seen := by
  unfold takeOver
  extract_lets s1
  have h1 : Kept tk mm false z s1.seen := beginTakeover_kept _ (h.of_eq (partnerKerf_seen ..))
  split
  · exact h1
  · exact h1.of_eq (endTakeover_seen _)

theorem contestWitness_kept {tk mm : Bool} {z : Seen} (f : Nat) (s : State)
    (h : Kept tk mm false z s.seen) : Kept tk mm false z (contestWitness f s).seen := by
  unfold contestWitness
  split
  · refine h.of_eq ?_
    split <;> simp
  · extract_lets s1
    have h1 : Kept tk mm false z s1.seen := beginTakeover_kept _ (h.of_eq (partnerKerf_seen ..))
    split
    · exact h1
    · simpa using h1

theorem decideLost_kept {tk mm : Bool} {z : Seen} (holdIn : Bool) (s : State)
    (h : Kept tk mm false z s.seen) : Kept tk mm false z (decideLost holdIn s).seen := by
  unfold decideLost
  split
  · refine h.of_eq ?_
    split <;> simp
  split
  · refine h.of_eq ((wake_seen _).trans ?_)
    (repeat' split) <;> simp
  split
  · exact takeOver_kept _ _ h
  · exact contestWitness_kept _ _ h

theorem takeoverDecision_kept {tk mm : Bool} {z : Seen} (holdIn : Bool) (s : State)
    (h : Kept tk mm false z s.seen) : Kept tk mm false z (takeoverDecision holdIn s).seen := by
  unfold takeoverDecision
  repeat' first
    | assumption
    | apply decideLost_kept
    | split

theorem witnessDone_kept {tk mm rm : Bool} {z : Seen} (conflict : Bool) (s : State)
    (h : Kept tk mm rm z s.seen) : Kept tk mm rm z (witnessDone conflict s).seen := by
  unfold witnessDone
  repeat' first
    | assumption
    | apply packageYield_kept
    | split
    | simp

theorem partnerAbsent_kept {tk mm : Bool} {z : Seen} (s : State)
    (h : Kept tk mm false z s.seen) : Kept tk mm false z (partnerAbsent s).seen := by
  unfold partnerAbsent
  repeat' first
    | assumption
    | apply contestWitness_kept
    | split

theorem endLeaving_kept {tk mm rm : Bool} {z : Seen} (s : State)
    (h : Kept tk mm rm z s.seen) : Kept tk mm rm z (endLeaving s).seen := by
  unfold endLeaving
  repeat' first
    | assumption
    | apply packageYield_kept
    | split
    | (apply foldl_kept <;> intros)
    | simp

theorem partnerControl_kept {tk mm : Bool} {z : Seen} (c : Cmd) (s : State) (h : Kept tk mm false z s.seen) :
    Kept tk mm false z (partnerControl c s).seen := by
  have two (b : Prop) [Decidable b] (x y : State) (hx : Kept tk mm false z x.seen) (hy : Kept tk mm false z y.seen) :
      Kept tk mm false z (if b then x else y).seen := by split <;> assumption
  have fails (st : W16) : Kept tk mm false z (fail c.ref st s).seen := h.of_eq (fail_seen ..)
  have waits : Kept tk mm false z (busy c.ref s).seen := h.of_eq (busy_seen ..)
  unfold partnerControl
  refine two _ _ _ (fails _) (two _ _ _ waits ?_)
  split
  · refine h.of_eq ((ok_seen ..).trans ?_)
    split
    · exact separate_seen _
    · rfl
  · exact h.of_eq (ok_seen ..)
  · exact two _ _ _ (endLeaving_kept _ (h.of_eq (beginLeaving_seen ..))) waits
  · exact two _ _ _ (h.of_eq ((endHandback_seen _).trans (beginHandback_seen ..))) waits
  · exact two _ _ _ waits (by rw [ok_seen]; exact takeOver_kept _ _ h)

theorem dryMismatch_kept {tk mm rm : Bool} {z : Seen} (d h : Nat) (s : State)
    (k : Kept tk mm rm z s.seen) : Kept tk mm rm z (dryMismatch d h s).seen := by
  unfold dryMismatch
  dsimp only
  have e (f : DieRfl → DieRfl) (hf : ∀ q, (f q).counters = q.counters ∧ (f q).mirror = q.mirror) : (s.updRfl h f).seen = s.seen :=
    updRfl_seen _ _ _ hf
  have k1 (x : State) (hx : x.seen = s.seen) : Kept tk mm rm z (raise d 0x0046 { item := h } x).seen := k.of_eq ((raise_seen ..).trans hx)
  (repeat' split)
  · exact dieYield_kept _ _ _ (k1 _ (by simp))
  · exact dieYield_kept _ _ _ (k1 _ (by rw [updHw_seen]; exact e _ fun _ => ⟨rfl, rfl⟩))
  · exact k1 _ (by simp)
  · exact k1 _ (by rw [updHw_seen]; exact e _ fun _ => ⟨rfl, rfl⟩)

theorem dryTakeover_kept {tk mm rm : Bool} {z : Seen} (d h0 : Nat) (good : Bool) (s : State)
    (h : Kept tk mm rm z s.seen) : Kept tk mm rm z (dryTakeover d h0 good s).seen := by
  unfold dryTakeover
  repeat' first
    | assumption
    | apply dryMismatch_kept
    | split
    | simp

theorem execHoldWireCleared_kept {tk mm rm : Bool} {z : Seen} (s : State)
    (h : Kept tk mm rm z s.seen) : Ends (Kept tk mm rm z) (execHoldWireCleared s) := by
  simpa [execHoldWireCleared] using h

theorem execWitnessAcquire_kept {tk mm rm : Bool} {z : Seen} (s : State)
    (h : Kept tk mm rm z s.seen) : Ends (Kept tk mm rm z) (execWitnessAcquire s) := by
  simpa [execWitnessAcquire] using h

theorem execPairRejoin_kept {tk mm rm : Bool} {z : Seen} (s : State)
    (h : Kept tk mm rm z s.seen) : Ends (Kept tk mm rm z) (execPairRejoin s) := by
  simpa [execPairRejoin] using h

theorem execWitnessMeasure_kept {tk mm rm : Bool} {z : Seen} (latency : Nat) (s : State)
    (h : Kept tk mm rm z s.seen) : Ends (Kept tk mm rm z) (execWitnessMeasure latency s) := by
  simpa [execWitnessMeasure] using h

theorem execHealthReportWrite_kept {tk mm rm : Bool} {z : Seen} (s : State)
    (h : Kept tk mm rm z s.seen) : Ends (Kept tk mm rm z) (execHealthReportWrite s) := by
  simpa [execHealthReportWrite] using h

theorem engineIn_kept {tk mm rm : Bool} {z : Seen} (c : Cmd) (d u : Nat) (s : State)
    (h : Kept tk mm rm z s.seen) : Kept tk mm rm z (engineIn c d u s).seen := by
  unfold engineIn
  repeat' first
    | assumption
    | apply dieYield_kept
    | split
    | (apply foldl_kept <;> intros)
    | (refine snd_kept (by assumption) ?_)
    | simp

theorem engineSwap_kept {tk mm rm : Bool} {z : Seen} (c : Cmd) (s : State)
    (h : Kept tk mm rm z s.seen) : Kept tk mm rm z (engineSwap c s).seen := by
  unfold engineSwap
  repeat' first
    | assumption
    | apply engineIn_kept
    | split
    | simp

theorem dieRetire_kept {tk mm rm : Bool} {z : Seen} (c : Cmd) (s : State) (h : Kept tk mm rm z s.seen) :
    Kept tk mm rm z (dieRetire c s).seen := by
  have two (b : Prop) [Decidable b] (x y : State) (hx : Kept tk mm rm z x.seen) (hy : Kept tk mm rm z y.seen) :
      Kept tk mm rm z (if b then x else y).seen := by split <;> assumption
  have fails (st : W16) : Kept tk mm rm z (fail c.ref st s).seen := h.of_eq (fail_seen ..)
  have waits : Kept tk mm rm z (busy c.ref s).seen := h.of_eq (busy_seen ..)
  unfold dieRetire
  refine two _ _ _ (fails _) (two _ _ _ ?_ (two _ _ _ (fails _) (two _ _ _ waits (two _ _ _ (fails _) ?_))))
  · exact h.of_eq ((ok_seen ..).trans (updDie_seen _ _ _ (by intro x; split <;> rfl)))
  · exact finishRetire_kept _ _ (h.of_eq ((updDie_seen _ _ _ (by intro _; rfl)).trans (State_updCmd_seen ..)))

theorem execFirmwareLoadDone_kept {tk mm rm : Bool} {z : Seen} (s : State)
    (h : Kept tk mm rm z s.seen) : Ends (Kept tk mm rm z) (execFirmwareLoadDone s) := by
  simpa [execFirmwareLoadDone] using h

theorem execFirmwareProgrammed_kept {tk mm rm : Bool} {z : Seen} (readbackOk : Bool) (s : State)
    (h : Kept tk mm rm z s.seen) : Ends (Kept tk mm rm z) (execFirmwareProgrammed readbackOk s) := by
  simpa [execFirmwareProgrammed] using h

theorem dropEps_kept {tk mm : Bool} {z : Seen} (d f : Nat) (s : State) (h : Kept tk mm false z s.seen) :
    Kept tk mm false z (dropEps d f s).seen := by
  unfold dropEps
  extract_lets eps addr mine qs s1 s2 close
  have h1 : s1.seen = s.seen := foldl_seen _ (fun _ _ => by split <;> simp) _ _
  have h2 : Kept tk mm false z s2.seen := foldl_kept _ _ _ (h.of_eq h1) fun s q k => freeQp_kept q s k
  refine updRefl_kept _ _ h2 (fun w m hm => ?_) (filter_mem_wf _ _ _)
  refine w m ?_
  have e : ∀ x, (close x).mem = x.mem := fun x => by simp only [close]; split <;> rfl
  simpa [Function.comp_def, e] using hm

theorem reinitFn_kept {tk mm : Bool} {z : Seen} (d f : Nat) (s : State)
    (h : Kept tk mm false z s.seen) : Kept tk mm false z (reinitFn d f s).seen := by
  unfold reinitFn
  repeat' first
    | assumption
    | apply dropEps_kept
    | split
    | (apply foldl_kept <;> intros)
    | simp

theorem functionReinit_kept {tk mm : Bool} {z : Seen} (c : Cmd) (s : State)
    (h : Kept tk mm false z s.seen) : Kept tk mm false z (functionReinit c s).seen := by
  unfold functionReinit
  repeat' first
    | assumption
    | apply reinitFn_kept
    | split
    | simp

theorem flrFn_kept {tk mm : Bool} {z : Seen} (d f : Nat) (s : State)
    (h : Kept tk mm false z s.seen) : Kept tk mm false z (flrFn d f s).seen := by
  unfold flrFn
  repeat' first
    | assumption
    | apply reinitFn_kept
    | split
    | simp

theorem flr_kept {tk mm : Bool} {z : Seen} (d f : Nat) (s : State)
    (h : Kept tk mm false z s.seen) : Kept tk mm false z (flr d f s).seen := by
  unfold flr
  repeat' first
    | assumption
    | apply flrFn_kept
    | split

theorem perstPort_kept {tk mm : Bool} {z : Seen} (d : Nat) (s : State) (h : Kept tk mm false z s.seen) :
    Kept tk mm false z (perstPort d s).seen := by
  unfold perstPort
  extract_lets fs s1
  have h1 : Kept tk mm false z s1.seen := foldl_kept _ _ _ h fun s f k => flrFn_kept _ _ _ k
  exact h1.of_eq (updDie_seen _ _ _ fun _ => rfl)

theorem perstN_kept {tk mm : Bool} {z : Seen} (d : Nat) (s : State)
    (h : Kept tk mm false z s.seen) : Kept tk mm false z (perstN d s).seen := by
  unfold perstN
  repeat' first
    | assumption
    | apply perstPort_kept
    | split

theorem restart_kept {tk mm : Bool} {z : Seen} (s : State) (h : Kept tk mm false z s.seen) : Kept tk mm false z (restart s).seen := by
  have e : (s.dies.map resetDie).map dieMem = s.dies.map dieMem := map_mem _ _ fun _ => rfl
  refine ⟨h.pending, h.part, h.tick, fun m => e.trans (h.mem m), nofun, fun k => ?_⟩
  have o := h.ok k
  unfold restart
  simp only [seen_mk, e]
  exact ⟨o.dies, nofun, o.mems, nofun, nofun⟩

theorem deviceReset_kept {tk mm : Bool} {z : Seen} (s : State) (h : Kept tk mm false z s.seen) :
    Kept tk mm false z (deviceReset s).seen := by
  unfold deviceReset
  extract_lets s1 s2
  have h1 : s1.seen = s.seen := (foldl_seen _ (fun _ _ => stopCmd_seen ..) _ _).trans (takeFeats_seen _)
  have h2 : s2.seen = s.seen := (sendMessages_seen _).trans ((programEvery_seen ..).trans (by split <;> simp [h1]))
  refine restart_kept _ (h.of_eq ?_)
  split
  · exact (powerHolds_seen ..).trans h2
  · exact h2

theorem resetN_kept {tk mm : Bool} {z : Seen} (s : State)
    (h : Kept tk mm false z s.seen) : Kept tk mm false z (resetN s).seen := by
  have k : Kept tk mm false z (if s.run.powered ∧ s.run.pfail.isNone then deviceReset s else s).seen := by
    split
    · exact deviceReset_kept _ h
    · exact h
  exact k

theorem execResetN_kept {tk mm : Bool} {z : Seen} (s : State)
    (h : Kept tk mm false z s.seen) : Ends (Kept tk mm false z) (execResetN s) := by
  unfold execResetN
  repeat' first
    | assumption
    | apply resetN_kept
    | split

theorem execGctlReset_kept {tk mm : Bool} {z : Seen} (port : Nat) (a : Acc) (s : State)
    (h : Kept tk mm false z s.seen) : Ends (Kept tk mm false z) (execGctlReset port a s) := by
  unfold execGctlReset
  repeat' first
    | assumption
    | apply deviceReset_kept
    | split

theorem execPerstN_kept {tk mm : Bool} {z : Seen} (port : Nat) (s : State)
    (h : Kept tk mm false z s.seen) : Ends (Kept tk mm false z) (execPerstN port s) := by
  unfold execPerstN
  repeat' first
    | assumption
    | apply perstN_kept
    | split

theorem execFlr_kept {tk mm : Bool} {z : Seen} (port fn : Nat) (s : State)
    (h : Kept tk mm false z s.seen) : Ends (Kept tk mm false z) (execFlr port fn s) := by
  unfold execFlr
  repeat' first
    | assumption
    | apply flr_kept
    | split

theorem powerReturned_kept {tk mm : Bool} {z : Seen} (s : State)
    (h : Kept tk mm false z s.seen) : Kept tk mm false z (powerReturned s).seen := by
  unfold powerReturned
  repeat' first
    | assumption
    | apply restart_kept
    | split
    | simp

theorem darken_kept {z : Seen} (s : State) (h : Kept false false false z s.seen) : Kept false false false z (darken s).seen := by
  refine ⟨h.pending, h.part, nofun, nofun, nofun, fun k => ?_⟩
  have o := h.ok k
  refine ⟨?_, nofun, ?_, nofun, nofun⟩
  · exact (congrArg _ List.map_map).trans (((List.length_map _).trans (List.length_map _).symm).trans o.dies)
  · intro m hm
    have hm : m ∈ (s.dies.map (darkDie s.run.backupEn)).map dieMem := hm
    simp only [List.map_map, List.mem_map, Function.comp] at hm
    obtain ⟨x, hx, rfl⟩ := hm
    have w := o.mems _ (List.mem_map_of_mem hx)
    refine ⟨rfl, ?_⟩
    simp only [darkDie, dieMem]
    split
    · exact w.2
    · rfl

theorem powerLoss_kept {z : Seen} (s : State) (h : Kept false false false z s.seen) : Kept false false false z (powerLoss s).seen := by
  unfold powerLoss
  split
  · exact darken_kept _ (h.of_eq (takeFeats_seen _))
  · exact h

theorem powerUp_kept {mm rm : Bool} {z : Seen} (s : State) (h : Kept false mm rm z s.seen) :
    Kept false mm rm z (powerUp s).seen := by
  unfold powerUp
  split
  · exact h
  · exact ⟨h.pending, h.part, nofun, h.mem, h.refl, fun k => have o := h.ok k; ⟨o.dies, nofun, o.mems, o.regions, o.wins⟩⟩

theorem thermalTrip_kept {tk mm rm : Bool} {z : Seen} (d : Nat) (s : State)
    (h : Kept tk mm rm z s.seen) : Kept tk mm rm z (thermalTrip d s).seen := by
  unfold thermalTrip
  repeat' first
    | assumption
    | apply packageYield_kept
    | split
    | simp

theorem tripTick_kept {tk mm rm : Bool} {z : Seen} (s : State)
    (h : Kept tk mm rm z s.seen) : Kept tk mm rm z (tripTick s).seen := by
  unfold tripTick
  repeat' first
    | assumption
    | apply packageYield_kept
    | split
    | simp only [ends_next]

theorem execPowerStateRaised_kept {tk mm rm : Bool} {z : Seen} (s : State)
    (h : Kept tk mm rm z s.seen) : Ends (Kept tk mm rm z) (execPowerStateRaised s) := by
  simpa [execPowerStateRaised] using h

theorem execPfail_kept {tk mm rm : Bool} {z : Seen} (s : State)
    (h : Kept tk mm rm z s.seen) : Ends (Kept tk mm rm z) (execPfail s) := by
  simpa [execPfail] using h

theorem execBackupEnRaise_kept {tk mm rm : Bool} {z : Seen} (s : State)
    (h : Kept tk mm rm z s.seen) : Ends (Kept tk mm rm z) (execBackupEnRaise s) := by
  simpa [execBackupEnRaise] using h

theorem execVaultDone_kept {tk mm rm : Bool} {z : Seen} (die : Nat) (s : State)
    (h : Kept tk mm rm z s.seen) : Ends (Kept tk mm rm z) (execVaultDone die s) := by
  simpa [execVaultDone] using h

theorem execPfailDeassert_kept {tk mm rm : Bool} {z : Seen} (s : State)
    (h : Kept tk mm rm z s.seen) : Ends (Kept tk mm rm z) (execPfailDeassert s) := by
  simpa [execPfailDeassert] using h

theorem execPowerLoss_kept {z : Seen} (s : State)
    (h : Kept false false false z s.seen) : Ends (Kept false false false z) (execPowerLoss s) := by
  unfold execPowerLoss
  repeat' first
    | assumption
    | apply powerLoss_kept
    | split

theorem execPowerUp_kept {mm rm : Bool} {z : Seen} (s : State)
    (h : Kept false mm rm z s.seen) : Ends (Kept false mm rm z) (execPowerUp s) := by
  unfold execPowerUp
  repeat' first
    | assumption
    | apply powerUp_kept
    | split

theorem execThermalTrip_kept {tk mm rm : Bool} {z : Seen} (die : Nat) (s : State)
    (h : Kept tk mm rm z s.seen) : Ends (Kept tk mm rm z) (execThermalTrip die s) := by
  unfold execThermalTrip
  repeat' first
    | assumption
    | apply thermalTrip_kept
    | split

theorem execVaultRateMeasure_kept {tk mm rm : Bool} {z : Seen} (die v vr : Nat) (s : State)
    (h : Kept tk mm rm z s.seen) : Ends (Kept tk mm rm z) (execVaultRateMeasure die v vr s) := by
  simpa [execVaultRateMeasure] using h

theorem linkRates_mem (i : PhaseIn) (m d : Nat) (x : DieSt) : dieMem (linkRates i m d x) = dieMem x := by
  rfl

theorem port_mem (y : DieSt) : dieMem (if y.perst then trainPort y else y) = dieMem y := by
  split <;> rfl

theorem phase1_kept {tk mm rm : Bool} {z : Seen} (i : PhaseIn) (s : State) (h : Kept tk mm rm z s.seen) :
    Kept tk mm rm z (phase1 i s).seen := by
  unfold phase1
  split
  · exact holdFault_kept _ _ h
  · refine h.of_eq ((toPhase_seen ..).trans ((dies_seen _ _ (zipIdx_mem _ _ _ ?_)).trans ?_))
    · exact fun x => (port_mem _).trans (linkRates_mem ..)
    · dsimp only
      split <;> split <;> simp

theorem recorderFault_kept {tk mm rm : Bool} {z : Seen} (s : State) (h : Kept tk mm rm z s.seen) :
    Kept tk mm rm z (recorderFault s).seen := by
  unfold recorderFault
  split
  · exact h
  · refine ⟨h.pending, h.part, h.tick, h.mem, h.refl, fun k => ?_⟩
    have o := h.ok k
    exact ⟨o.dies, fun e => List.mem_filter.2 ⟨o.fault e, rfl⟩, o.mems, o.regions, o.wins⟩

theorem phase2_kept {tk mm rm : Bool} {z : Seen} (i : PhaseIn) (s : State) (h : Kept tk mm rm z s.seen) :
    Kept tk mm rm z (phase2 i s).seen := by
  have e : ({ s with dies := s.dies.zipIdx.map fun (x, d) => testDie i (s.portMode d) d x } : State).seen = s.seen :=
    dies_seen _ _ (zipIdx_mem _ _ _ fun x => rfl)
  have h1 := recorderFault_kept _ (h.of_eq e)
  unfold phase2
  extract_lets s1
  split
  · refine ⟨h.pending, h.part, h.tick, h.mem, h.refl, fun k => ?_⟩
    have o := h.ok k
    refine ⟨o.dies, fun c => mem_insNat.2 (.inr ((h1.ok k).fault c)), o.mems, o.regions, o.wins⟩
  · refine h1.of_eq ((toPhase_seen ..).trans ((noteFallback_seen ..).trans ((finishClear_seen ..).trans ?_)))
    split
    · exact (powerOnTime_seen _).trans (linkBothEnds_seen _)
    · exact linkBothEnds_seen _

theorem becomeReady_kept {tk mm rm : Bool} {z : Seen} (i : PhaseIn) (s : State) (h : Kept tk mm rm z s.seen) :
    Kept tk mm rm z (becomeReady i s).seen := by
  have e : (s.dies.map raiseHold).map dieMem = s.dies.map dieMem := map_mem _ _ fun x => by unfold raiseHold; split <;> rfl
  have key (x : State) (k : x.seen = s.seen) : Kept tk mm rm z
      (if x.pools.any fun p => !p.away && !x.alive p.home then packageYield x.id.lead 0x0A {} x else x).seen := by
    split
    · exact packageYield_kept _ _ _ _ (h.of_eq k)
    · exact h.of_eq k
  unfold becomeReady
  refine key _ ((sendReadiness_seen _).trans ?_)
  split
  · simp [e]
  · simp [e]

theorem phase7_kept {tk mm rm : Bool} {z : Seen} (i : PhaseIn) (s : State)
    (h : Kept tk mm rm z s.seen) : Kept tk mm rm z (phase7 i s).seen := by
  unfold phase7
  repeat' first
    | assumption
    | apply becomeReady_kept
    | split
    | (apply foldl_kept <;> intros)
    | simp

theorem phaseDone_kept {tk mm rm : Bool} {z : Seen} (i : PhaseIn) (s : State) (h : Kept tk mm rm z s.seen) :
    Kept tk mm rm z (phaseDone i s).seen := by
  unfold phaseDone
  split
  · exact h
  · split
    · exact phase1_kept _ _ h
    · exact phase2_kept _ _ h
    · exact h.of_eq (phase3_seen ..)
    · exact h.of_eq (phase4_seen ..)
    · exact h.of_eq (phase5_seen ..)
    · exact h.of_eq (phase6_seen ..)
    · first | exact h.of_eq (phase7_seen ..) | exact phase7_kept _ _ h
    · exact h

theorem execPerstNDeasserted_kept {tk mm rm : Bool} {z : Seen} (port : Nat) (s : State)
    (h : Kept tk mm rm z s.seen) : Ends (Kept tk mm rm z) (execPerstNDeasserted port s) := by
  simpa [execPerstNDeasserted] using h

theorem sramReact_kept {tk mm rm : Bool} {z : Seen} (d : Nat) (loc : SramLoc) (s : State)
    (h : Kept tk mm rm z s.seen) : Kept tk mm rm z (sramReact d loc s).seen := by
  unfold sramReact
  split
  · exact coresFail_kept _ _ _ h
  · simpa using h
  · exact h
  · exact h.of_eq (updRfl_seen _ _ _ fun _ => ⟨rfl, rfl⟩)
  · simpa using h
  · exact dieYield_kept _ _ _ h
  · simpa using h

theorem sramBad_kept {tk mm rm : Bool} {z : Seen} (d : Nat) (patrol : Bool) (loc : SramLoc) (s : State)
    (h : Kept tk mm rm z s.seen) : Kept tk mm rm z (sramBad d patrol loc s).seen := by
  unfold sramBad
  repeat' first
    | assumption
    | apply sramReact_kept
    | split
    | (apply foldl_kept <;> intros)
    | simp

theorem ddrReact_kept {tk mm rm : Bool} {z : Seen} (d : Nat) (loc : DdrLoc) (s : State) (h : Kept tk mm rm z s.seen) :
    Kept tk mm rm z (ddrReact d loc s).seen := by
  unfold ddrReact
  split
  · split
    · split
      · exact h
      · exact h.of_eq (loseUnit_seen ..)
    · exact h
  · exact h.of_eq (loseMirror_seen ..)
  · split
    · exact h
    · exact dieYield_kept _ _ _ h
  · exact h.of_eq (State_dropBlocks_seen ..)
  · exact h.of_eq (updRefl_seen _ _ (by rfl) (by exact updIf_map _ _ _ (by intro _; rfl) _))
  · exact h.of_eq (updRefl_seen _ _ (by exact updIf_map _ _ _ (by intro _; rfl) _) (by rfl))

theorem ddrBad_kept {tk mm rm : Bool} {z : Seen} (d ch : Nat) (how : Found) (loc : DdrLoc) (s : State)
    (h : Kept tk mm rm z s.seen) : Kept tk mm rm z (ddrBad d ch how loc s).seen := by
  unfold ddrBad
  repeat' first
    | assumption
    | apply ddrReact_kept
    | split
    | (apply foldl_kept <;> intros)
    | simp

theorem beginOp_kept {tk mm : Bool} {z : Seen} (op : Op) (c : CmdRef) (s : State) (h : Kept tk mm false z s.seen) :
    Kept tk mm false z (beginOp op c s).seen := by
  have q (f : Cmd → State → State) (hf : ∀ c s, (f c s).seen = s.seen) : Kept tk mm false z (control f c s).seen :=
    control_kept _ _ _ h fun c s k => k.of_eq (hf c s)
  cases op
  all_goals first
    | exact control_kept _ _ _ h fun c s k => by first
        | exact registerRegion_kept _ _ k
        | exact endpointStatus_kept _ _ k
        | exact functionReinit_kept _ _ k
        | exact engineSwap_kept _ _ k
        | exact dieRetire_kept _ _ k
        | exact selfTest_kept _ _ k
        | exact partnerControl_kept _ _ k
    | (refine q _ ?_; intro _ _; simp; done)
    | (refine h.of_eq ?_; simp [beginOp]; done)

theorem retryOne_kept {tk mm : Bool} {z : Seen} (ref : CmdRef) (s : State)
    (h : Kept tk mm false z s.seen) : Kept tk mm false z (retryOne ref s).seen := by
  unfold retryOne
  repeat' first
    | assumption
    | apply beginOp_kept
    | split
    | simp

theorem retryHeld_kept {tk mm : Bool} {z : Seen} (s : State)
    (h : Kept tk mm false z s.seen) : Kept tk mm false z (retryHeld s).seen := by
  unfold retryHeld
  repeat' first
    | assumption
    | apply retryOne_kept
    | split
    | (apply foldl_kept <;> intros)
    | simp

@[simp] theorem giveShadows_seen (s : State) : (giveShadows s).seen = s.seen :=
  foldl_seen _ (fun _ _ => (makeMirrored_seen ..).trans (State_updPool_seen ..)) _ _

theorem settleRun_kept {tk mm : Bool} {z : Seen} (s : State)
    (h : Kept tk mm false z s.seen) : Kept tk mm false z (settleRun s).seen := by
  unfold settleRun
  rw [startChange_seen, lend_seen]
  refine retryHeld_kept _ (Kept.of_eq (y := State.seen (endLeaving _)) ?_ (endTold_seen _))
  exact endLeaving_kept _ (h.of_eq (by simp))

theorem settle_kept {tk mm : Bool} {z : Seen} (s : State) (h : Kept tk mm false z s.seen) :
    Kept tk mm false z (settle s).seen := by
  unfold settle
  extract_lets s1
  have h1 : Kept tk mm false z s1.seen := h.of_eq (by simp only [s1]; split <;> simp)
  split
  · exact settleRun_kept _ h1
  · exact h1

theorem execCreateRing_kept {tk mm rm : Bool} {z : Seen} (p : Post) (s : State)
    (h : Kept tk mm rm z s.seen) : Ends (Kept tk mm rm z) (execCreateRing p s) := by
  unfold execCreateRing
  repeat' first
    | assumption
    | (apply control_kept <;> intros)
    | (apply dispatchEntry_kept <;> intros)
    | split
    | simp

theorem execDeleteRing_kept {tk mm rm : Bool} {z : Seen} (p : Post) (s : State)
    (h : Kept tk mm rm z s.seen) : Ends (Kept tk mm rm z) (execDeleteRing p s) := by
  unfold execDeleteRing
  repeat' first
    | assumption
    | (apply control_kept <;> intros)
    | (apply dispatchEntry_kept <;> intros)
    | split
    | simp

theorem execSetRingWeight_kept {tk mm rm : Bool} {z : Seen} (p : Post) (s : State)
    (h : Kept tk mm rm z s.seen) : Ends (Kept tk mm rm z) (execSetRingWeight p s) := by
  unfold execSetRingWeight
  repeat' first
    | assumption
    | (apply control_kept <;> intros)
    | (apply dispatchEntry_kept <;> intros)
    | split
    | simp

theorem execAbort_kept {tk mm : Bool} {z : Seen} (p : Post) (s : State)
    (h : Kept tk mm false z s.seen) : Ends (Kept tk mm false z) (execAbort p s) := by
  unfold execAbort
  repeat' first
    | assumption
    | (apply dispatchEntry_kept <;> intros)
    | apply settle_kept
    | split
    | simp

theorem execIdentify_kept {tk mm rm : Bool} {z : Seen} (p : Post) (s : State)
    (h : Kept tk mm rm z s.seen) : Ends (Kept tk mm rm z) (execIdentify p s) := by
  unfold execIdentify
  repeat' first
    | assumption
    | (apply control_kept <;> intros)
    | (apply dispatchEntry_kept <;> intros)
    | split
    | simp

theorem execGetFeature_kept {tk mm rm : Bool} {z : Seen} (p : Post) (s : State)
    (h : Kept tk mm rm z s.seen) : Ends (Kept tk mm rm z) (execGetFeature p s) := by
  unfold execGetFeature
  repeat' first
    | assumption
    | (apply control_kept <;> intros)
    | (apply dispatchEntry_kept <;> intros)
    | split
    | simp

theorem execSetFeature_kept {tk mm rm : Bool} {z : Seen} (p : Post) (s : State)
    (h : Kept tk mm rm z s.seen) : Ends (Kept tk mm rm z) (execSetFeature p s) := by
  unfold execSetFeature
  repeat' first
    | assumption
    | (apply control_kept <;> intros)
    | (apply dispatchEntry_kept <;> intros)
    | split
    | simp

theorem execSetPowerState_kept {tk mm rm : Bool} {z : Seen} (p : Post) (s : State)
    (h : Kept tk mm rm z s.seen) : Ends (Kept tk mm rm z) (execSetPowerState p s) := by
  unfold execSetPowerState
  repeat' first
    | assumption
    | (apply control_kept <;> intros)
    | (apply dispatchEntry_kept <;> intros)
    | split
    | simp

theorem execFunctionReinit_kept {tk mm : Bool} {z : Seen} (p : Post) (s : State)
    (h : Kept tk mm false z s.seen) : Ends (Kept tk mm false z) (execFunctionReinit p s) := by
  unfold execFunctionReinit
  repeat' first
    | assumption
    | (apply control_kept <;> intros)
    | (apply dispatchEntry_kept <;> intros)
    | apply functionReinit_kept
    | apply settle_kept
    | split

theorem tableRead_kept {tk mm : Bool} {z : Seen} (ref : CmdRef) (frags : List Frag) (buf : Bytes) (s : State)
    (h : Kept tk mm false z s.seen) : Kept tk mm false z (tableRead ref frags buf s).seen := by
  unfold tableRead
  repeat' first
    | assumption
    | apply beginOp_kept
    | apply malformed_kept
    | split
    | simp

theorem execFragmentTableRead_kept {tk mm : Bool} {z : Seen} (c : CmdRef) (frags : List Frag) (buf : Bytes) (s : State)
    (h : Kept tk mm false z s.seen) : Ends (Kept tk mm false z) (execFragmentTableRead c frags buf s) := by
  unfold execFragmentTableRead
  repeat' first
    | assumption
    | apply tableRead_kept
    | split

theorem execHostTransferError_kept {tk mm : Bool} {z : Seen} (c : CmdRef) (s : State)
    (h : Kept tk mm false z s.seen) : Ends (Kept tk mm false z) (execHostTransferError c s) := by
  unfold execHostTransferError
  repeat' first
    | assumption
    | apply settle_kept
    | split
    | simp

theorem execUnitProtected_kept {tk mm : Bool} {z : Seen} (c : CmdRef) (s : State)
    (h : Kept tk mm false z s.seen) : Ends (Kept tk mm false z) (execUnitProtected c s) := by
  unfold execUnitProtected
  repeat' first
    | assumption
    | apply settle_kept
    | split
    | simp

theorem execStripeAgeLimit_kept {tk mm rm : Bool} {z : Seen} (pool stripe : Nat) (s : State)
    (h : Kept tk mm rm z s.seen) : Ends (Kept tk mm rm z) (execStripeAgeLimit pool stripe s) := by
  simpa [execStripeAgeLimit] using h

theorem execDestageStart_kept {tk mm : Bool} {z : Seen} (pool stripe : Nat) (s : State)
    (h : Kept tk mm false z s.seen) : Ends (Kept tk mm false z) (execDestageStart pool stripe s) := by
  unfold execDestageStart
  repeat' first
    | assumption
    | apply settle_kept
    | split
    | simp

theorem execZeroFill_kept {tk mm : Bool} {z : Seen} (vol unit : Nat) (s : State)
    (h : Kept tk mm false z s.seen) : Ends (Kept tk mm false z) (execZeroFill vol unit s) := by
  unfold execZeroFill
  repeat' first
    | assumption
    | apply settle_kept
    | split
    | (apply foldl_kept <;> intros)
    | simp

theorem execMemberCompletion_kept {tk mm : Bool} {z : Seen} (id : Nat) (r : MemResult) (s : State)
    (h : Kept tk mm false z s.seen) : Ends (Kept tk mm false z) (execMemberCompletion id r s) := by
  unfold execMemberCompletion
  repeat' first
    | assumption
    | apply memberDone_kept
    | apply settle_kept
    | split

theorem execSectorRepaired_kept {tk mm : Bool} {z : Seen} (id : Nat) (s : State)
    (h : Kept tk mm false z s.seen) : Ends (Kept tk mm false z) (execSectorRepaired id s) := by
  unfold execSectorRepaired
  repeat' first
    | assumption
    | apply settle_kept
    | split
    | simp

theorem execMemberCommandRetried_kept {tk mm : Bool} {z : Seen} (id : Nat) (s : State)
    (h : Kept tk mm false z s.seen) : Ends (Kept tk mm false z) (execMemberCommandRetried id s) := by
  unfold execMemberCommandRetried
  repeat' first
    | assumption
    | apply settle_kept
    | split
    | simp

theorem execMemberTimeout_kept {tk mm : Bool} {z : Seen} (id : Nat) (s : State)
    (h : Kept tk mm false z s.seen) : Ends (Kept tk mm false z) (execMemberTimeout id s) := by
  unfold execMemberTimeout
  repeat' first
    | assumption
    | apply settle_kept
    | split
    | simp

theorem execMemberRemoved_kept {tk mm : Bool} {z : Seen} (nsid : Nat) (s : State)
    (h : Kept tk mm false z s.seen) : Ends (Kept tk mm false z) (execMemberRemoved nsid s) := by
  unfold execMemberRemoved
  repeat' first
    | assumption
    | apply settle_kept
    | split
    | simp

theorem execControllerFatal_kept {tk mm : Bool} {z : Seen} (nsid : Nat) (s : State)
    (h : Kept tk mm false z s.seen) : Ends (Kept tk mm false z) (execControllerFatal nsid s) := by
  unfold execControllerFatal
  repeat' first
    | assumption
    | apply settle_kept
    | split
    | simp

theorem execAsyncEvent_kept {tk mm : Bool} {z : Seen} (nsid : Nat) (warn : BitVec 8) (s : State)
    (h : Kept tk mm false z s.seen) : Ends (Kept tk mm false z) (execAsyncEvent nsid warn s) := by
  unfold execAsyncEvent
  repeat' first
    | assumption
    | apply settle_kept
    | split
    | simp

theorem execSmartPoll_kept {tk mm : Bool} {z : Seen} (nsid : Nat) (warn : BitVec 8) (s : State)
    (h : Kept tk mm false z s.seen) : Ends (Kept tk mm false z) (execSmartPoll nsid warn s) := by
  unfold execSmartPoll
  repeat' first
    | assumption
    | apply settle_kept
    | split
    | simp

theorem execPathLost_kept {tk mm : Bool} {z : Seen} (nsid die : Nat) (s : State)
    (h : Kept tk mm false z s.seen) : Ends (Kept tk mm false z) (execPathLost nsid die s) := by
  unfold execPathLost
  repeat' first
    | assumption
    | apply settle_kept
    | split
    | simp

theorem execPathRestored_kept {tk mm rm : Bool} {z : Seen} (nsid die : Nat) (s : State)
    (h : Kept tk mm rm z s.seen) : Ends (Kept tk mm rm z) (execPathRestored nsid die s) := by
  simpa [execPathRestored] using h

theorem execMemberAppearsOnPath_kept {tk mm : Bool} {z : Seen} (n : NsInfo) (s : State)
    (h : Kept tk mm false z s.seen) : Ends (Kept tk mm false z) (execMemberAppearsOnPath n s) := by
  unfold execMemberAppearsOnPath
  repeat' first
    | assumption
    | apply settle_kept
    | split
    | simp

theorem execFormatNvmTimeout_kept {tk mm : Bool} {z : Seen} (id : Nat) (s : State)
    (h : Kept tk mm false z s.seen) : Ends (Kept tk mm false z) (execFormatNvmTimeout id s) := by
  unfold execFormatNvmTimeout
  repeat' first
    | assumption
    | apply settle_kept
    | split
    | simp

theorem execNop_kept {tk mm rm : Bool} {z : Seen} (p : Post) (s : State)
    (h : Kept tk mm rm z s.seen) : Ends (Kept tk mm rm z) (execNop p s) := by
  unfold execNop
  repeat' first
    | assumption
    | (apply dispatchEntry_kept <;> intros)
    | split
    | simp

theorem execRead_kept {tk mm rm : Bool} {z : Seen} (p : Post) (s : State)
    (h : Kept tk mm rm z s.seen) : Ends (Kept tk mm rm z) (execRead p s) := by
  unfold execRead
  repeat' first
    | assumption
    | (apply dispatchEntry_kept <;> intros)
    | split
    | simp

theorem execWrite_kept {tk mm rm : Bool} {z : Seen} (p : Post) (s : State)
    (h : Kept tk mm rm z s.seen) : Ends (Kept tk mm rm z) (execWrite p s) := by
  unfold execWrite
  repeat' first
    | assumption
    | (apply dispatchEntry_kept <;> intros)
    | split
    | simp

theorem execFlush_kept {tk mm rm : Bool} {z : Seen} (p : Post) (s : State)
    (h : Kept tk mm rm z s.seen) : Ends (Kept tk mm rm z) (execFlush p s) := by
  unfold execFlush
  repeat' first
    | assumption
    | (apply dispatchEntry_kept <;> intros)
    | split
    | simp

theorem execFlushMedia_kept {tk mm rm : Bool} {z : Seen} (p : Post) (s : State)
    (h : Kept tk mm rm z s.seen) : Ends (Kept tk mm rm z) (execFlushMedia p s) := by
  unfold execFlushMedia
  repeat' first
    | assumption
    | (apply dispatchEntry_kept <;> intros)
    | split
    | simp

theorem execWriteZeroes_kept {tk mm rm : Bool} {z : Seen} (p : Post) (s : State)
    (h : Kept tk mm rm z s.seen) : Ends (Kept tk mm rm z) (execWriteZeroes p s) := by
  unfold execWriteZeroes
  repeat' first
    | assumption
    | (apply dispatchEntry_kept <;> intros)
    | split
    | simp

theorem execDeallocate_kept {tk mm rm : Bool} {z : Seen} (p : Post) (s : State)
    (h : Kept tk mm rm z s.seen) : Ends (Kept tk mm rm z) (execDeallocate p s) := by
  unfold execDeallocate
  repeat' first
    | assumption
    | (apply dispatchEntry_kept <;> intros)
    | split
    | simp

theorem execVerify_kept {tk mm rm : Bool} {z : Seen} (p : Post) (s : State)
    (h : Kept tk mm rm z s.seen) : Ends (Kept tk mm rm z) (execVerify p s) := by
  unfold execVerify
  repeat' first
    | assumption
    | (apply dispatchEntry_kept <;> intros)
    | split
    | simp

theorem execFirmwareDownload_kept {tk mm rm : Bool} {z : Seen} (p : Post) (s : State)
    (h : Kept tk mm rm z s.seen) : Ends (Kept tk mm rm z) (execFirmwareDownload p s) := by
  unfold execFirmwareDownload
  repeat' first
    | assumption
    | (apply control_kept <;> intros)
    | (apply dispatchEntry_kept <;> intros)
    | split
    | simp

theorem execFirmwareActivate_kept {tk mm rm : Bool} {z : Seen} (p : Post) (s : State)
    (h : Kept tk mm rm z s.seen) : Ends (Kept tk mm rm z) (execFirmwareActivate p s) := by
  unfold execFirmwareActivate
  repeat' first
    | assumption
    | (apply control_kept <;> intros)
    | (apply dispatchEntry_kept <;> intros)
    | split
    | simp

theorem execLogFreeze_kept {tk mm rm : Bool} {z : Seen} (p : Post) (s : State)
    (h : Kept tk mm rm z s.seen) : Ends (Kept tk mm rm z) (execLogFreeze p s) := by
  unfold execLogFreeze
  repeat' first
    | assumption
    | (apply control_kept <;> intros)
    | (apply dispatchEntry_kept <;> intros)
    | split
    | simp

theorem execLogThaw_kept {tk mm rm : Bool} {z : Seen} (p : Post) (s : State)
    (h : Kept tk mm rm z s.seen) : Ends (Kept tk mm rm z) (execLogThaw p s) := by
  unfold execLogThaw
  repeat' first
    | assumption
    | (apply control_kept <;> intros)
    | (apply dispatchEntry_kept <;> intros)
    | split
    | simp

theorem execLogRead_kept {tk mm rm : Bool} {z : Seen} (p : Post) (s : State)
    (h : Kept tk mm rm z s.seen) : Ends (Kept tk mm rm z) (execLogRead p s) := by
  unfold execLogRead
  repeat' first
    | assumption
    | (apply control_kept <;> intros)
    | (apply dispatchEntry_kept <;> intros)
    | split
    | simp

theorem execLogClearChallenge_kept {tk mm rm : Bool} {z : Seen} (p : Post) (s : State)
    (h : Kept tk mm rm z s.seen) : Ends (Kept tk mm rm z) (execLogClearChallenge p s) := by
  unfold execLogClearChallenge
  repeat' first
    | assumption
    | (apply control_kept <;> intros)
    | (apply dispatchEntry_kept <;> intros)
    | split
    | simp

theorem execLogClear_kept {tk mm rm : Bool} {z : Seen} (p : Post) (s : State)
    (h : Kept tk mm rm z s.seen) : Ends (Kept tk mm rm z) (execLogClear p s) := by
  unfold execLogClear
  repeat' first
    | assumption
    | (apply control_kept <;> intros)
    | (apply dispatchEntry_kept <;> intros)
    | split
    | simp

theorem execHealthReport_kept {tk mm rm : Bool} {z : Seen} (p : Post) (s : State)
    (h : Kept tk mm rm z s.seen) : Ends (Kept tk mm rm z) (execHealthReport p s) := by
  unfold execHealthReport
  repeat' first
    | assumption
    | (apply control_kept <;> intros)
    | (apply dispatchEntry_kept <;> intros)
    | split
    | simp

theorem execSelfTest_kept {tk mm rm : Bool} {z : Seen} (p : Post) (s : State)
    (h : Kept tk mm rm z s.seen) : Ends (Kept tk mm rm z) (execSelfTest p s) := by
  unfold execSelfTest
  repeat' first
    | assumption
    | (apply control_kept <;> intros)
    | (apply dispatchEntry_kept <;> intros)
    | split
    | simp

theorem execEngineSwap_kept {tk mm rm : Bool} {z : Seen} (p : Post) (s : State)
    (h : Kept tk mm rm z s.seen) : Ends (Kept tk mm rm z) (execEngineSwap p s) := by
  unfold execEngineSwap
  repeat' first
    | assumption
    | (apply control_kept <;> intros)
    | (apply dispatchEntry_kept <;> intros)
    | apply engineSwap_kept
    | split

theorem execDieRetire_kept {tk mm : Bool} {z : Seen} (p : Post) (s : State)
    (h : Kept tk mm false z s.seen) : Ends (Kept tk mm false z) (execDieRetire p s) := by
  unfold execDieRetire
  repeat' first
    | assumption
    | (apply control_kept <;> intros)
    | apply dieRetire_kept
    | (apply dispatchEntry_kept <;> intros)
    | apply settle_kept
    | split

theorem execTimeAnchor_kept {tk mm rm : Bool} {z : Seen} (p : Post) (s : State)
    (h : Kept tk mm rm z s.seen) : Ends (Kept tk mm rm z) (execTimeAnchor p s) := by
  unfold execTimeAnchor
  repeat' first
    | assumption
    | (apply control_kept <;> intros)
    | (apply dispatchEntry_kept <;> intros)
    | split
    | simp

theorem execPartnerControl_kept {tk mm : Bool} {z : Seen} (p : Post) (s : State)
    (h : Kept tk mm false z s.seen) : Ends (Kept tk mm false z) (execPartnerControl p s) := by
  unfold execPartnerControl
  repeat' first
    | assumption
    | (apply control_kept <;> intros)
    | (apply dispatchEntry_kept <;> intros)
    | apply partnerControl_kept
    | apply settle_kept
    | split

theorem execTickBudgetReport_kept {tk mm rm : Bool} {z : Seen} (p : Post) (s : State)
    (h : Kept tk mm rm z s.seen) : Ends (Kept tk mm rm z) (execTickBudgetReport p s) := by
  unfold execTickBudgetReport
  repeat' first
    | assumption
    | (apply control_kept <;> intros)
    | (apply dispatchEntry_kept <;> intros)
    | split
    | simp

theorem execHeartbeatLost_kept {tk mm : Bool} {z : Seen} (peer : HbPeer) (s : State)
    (h : Kept tk mm false z s.seen) : Ends (Kept tk mm false z) (execHeartbeatLost peer s) := by
  unfold execHeartbeatLost
  repeat' first
    | assumption
    | apply settle_kept
    | split
    | simp

theorem execShadowTakeover_kept {tk mm : Bool} {z : Seen} (die : Nat) (s : State)
    (h : Kept tk mm false z s.seen) : Ends (Kept tk mm false z) (execShadowTakeover die s) := by
  unfold execShadowTakeover
  repeat' first
    | assumption
    | apply settle_kept
    | apply shadowTakeover_kept
    | split

theorem execTakeoverDecision_kept {tk mm : Bool} {z : Seen} (holdIn : Bool) (s : State)
    (h : Kept tk mm false z s.seen) : Ends (Kept tk mm false z) (execTakeoverDecision holdIn s) := by
  unfold execTakeoverDecision
  repeat' first
    | assumption
    | apply settle_kept
    | apply takeoverDecision_kept
    | split

theorem execWitnessAcquireDone_kept {tk mm : Bool} {z : Seen} (conflict : Bool) (s : State)
    (h : Kept tk mm false z s.seen) : Ends (Kept tk mm false z) (execWitnessAcquireDone conflict s) := by
  unfold execWitnessAcquireDone
  repeat' first
    | assumption
    | apply settle_kept
    | apply witnessDone_kept
    | split

theorem execRejoinTick_kept {tk mm : Bool} {z : Seen} (s : State)
    (h : Kept tk mm false z s.seen) : Ends (Kept tk mm false z) (execRejoinTick s) := by
  unfold execRejoinTick
  repeat' first
    | assumption
    | apply settle_kept
    | split
    | (apply foldl_kept <;> intros)
    | simp

theorem execPartnerAbsentTimeout_kept {tk mm : Bool} {z : Seen} (s : State)
    (h : Kept tk mm false z s.seen) : Ends (Kept tk mm false z) (execPartnerAbsentTimeout s) := by
  unfold execPartnerAbsentTimeout
  repeat' first
    | assumption
    | apply partnerAbsent_kept
    | apply settle_kept
    | split

theorem execDryTakeover_kept {tk mm : Bool} {z : Seen} (die holder : Nat) (ok : Bool) (s : State)
    (h : Kept tk mm false z s.seen) : Ends (Kept tk mm false z) (execDryTakeover die holder ok s) := by
  unfold execDryTakeover
  repeat' first
    | assumption
    | apply dryTakeover_kept
    | apply settle_kept
    | split

theorem execDieRetireMigrated_kept {tk mm : Bool} {z : Seen} (pool : Nat) (s : State)
    (h : Kept tk mm false z s.seen) : Ends (Kept tk mm false z) (execDieRetireMigrated pool s) := by
  unfold execDieRetireMigrated
  repeat' first
    | assumption
    | apply dieRetireMigrated_kept
    | apply settle_kept
    | split

theorem execCreatePool_kept {tk mm rm : Bool} {z : Seen} (p : Post) (s : State)
    (h : Kept tk mm rm z s.seen) : Ends (Kept tk mm rm z) (execCreatePool p s) := by
  unfold execCreatePool
  repeat' first
    | assumption
    | (apply control_kept <;> intros)
    | (apply dispatchEntry_kept <;> intros)
    | split
    | simp

theorem execDestroyPool_kept {tk mm : Bool} {z : Seen} (p : Post) (s : State)
    (h : Kept tk mm false z s.seen) : Ends (Kept tk mm false z) (execDestroyPool p s) := by
  unfold execDestroyPool
  repeat' first
    | assumption
    | (apply control_kept <;> intros)
    | (apply dispatchEntry_kept <;> intros)
    | apply settle_kept
    | split
    | simp

theorem execAddMember_kept {tk mm rm : Bool} {z : Seen} (p : Post) (s : State)
    (h : Kept tk mm rm z s.seen) : Ends (Kept tk mm rm z) (execAddMember p s) := by
  unfold execAddMember
  repeat' first
    | assumption
    | (apply control_kept <;> intros)
    | (apply dispatchEntry_kept <;> intros)
    | split
    | simp

theorem execRetireMember_kept {tk mm : Bool} {z : Seen} (p : Post) (s : State)
    (h : Kept tk mm false z s.seen) : Ends (Kept tk mm false z) (execRetireMember p s) := by
  unfold execRetireMember
  repeat' first
    | assumption
    | (apply control_kept <;> intros)
    | (apply dispatchEntry_kept <;> intros)
    | apply settle_kept
    | split
    | simp

theorem execReplaceMember_kept {tk mm rm : Bool} {z : Seen} (p : Post) (s : State)
    (h : Kept tk mm rm z s.seen) : Ends (Kept tk mm rm z) (execReplaceMember p s) := by
  unfold execReplaceMember
  repeat' first
    | assumption
    | (apply control_kept <;> intros)
    | (apply dispatchEntry_kept <;> intros)
    | split
    | simp

theorem execCreateVolume_kept {tk mm rm : Bool} {z : Seen} (p : Post) (s : State)
    (h : Kept tk mm rm z s.seen) : Ends (Kept tk mm rm z) (execCreateVolume p s) := by
  unfold execCreateVolume
  repeat' first
    | assumption
    | (apply control_kept <;> intros)
    | (apply dispatchEntry_kept <;> intros)
    | split
    | simp

theorem execDeleteVolume_kept {tk mm rm : Bool} {z : Seen} (p : Post) (s : State)
    (h : Kept tk mm rm z s.seen) : Ends (Kept tk mm rm z) (execDeleteVolume p s) := by
  unfold execDeleteVolume
  repeat' first
    | assumption
    | (apply control_kept <;> intros)
    | (apply dispatchEntry_kept <;> intros)
    | split
    | simp

theorem execResizeVolume_kept {tk mm : Bool} {z : Seen} (p : Post) (s : State)
    (h : Kept tk mm false z s.seen) : Ends (Kept tk mm false z) (execResizeVolume p s) := by
  unfold execResizeVolume
  repeat' first
    | assumption
    | (apply control_kept <;> intros)
    | (apply dispatchEntry_kept <;> intros)
    | apply settle_kept
    | split
    | simp

theorem execReshapePlan_kept {tk mm rm : Bool} {z : Seen} (p : Post) (s : State)
    (h : Kept tk mm rm z s.seen) : Ends (Kept tk mm rm z) (execReshapePlan p s) := by
  unfold execReshapePlan
  repeat' first
    | assumption
    | (apply control_kept <;> intros)
    | (apply dispatchEntry_kept <;> intros)
    | split
    | simp

theorem execReshapeStart_kept {tk mm rm : Bool} {z : Seen} (p : Post) (s : State)
    (h : Kept tk mm rm z s.seen) : Ends (Kept tk mm rm z) (execReshapeStart p s) := by
  unfold execReshapeStart
  repeat' first
    | assumption
    | (apply control_kept <;> intros)
    | (apply dispatchEntry_kept <;> intros)
    | split
    | simp

theorem execReshapeControl_kept {tk mm rm : Bool} {z : Seen} (p : Post) (s : State)
    (h : Kept tk mm rm z s.seen) : Ends (Kept tk mm rm z) (execReshapeControl p s) := by
  unfold execReshapeControl
  repeat' first
    | assumption
    | (apply control_kept <;> intros)
    | (apply dispatchEntry_kept <;> intros)
    | split
    | simp

theorem execRebuildControl_kept {tk mm rm : Bool} {z : Seen} (p : Post) (s : State)
    (h : Kept tk mm rm z s.seen) : Ends (Kept tk mm rm z) (execRebuildControl p s) := by
  unfold execRebuildControl
  repeat' first
    | assumption
    | (apply control_kept <;> intros)
    | (apply dispatchEntry_kept <;> intros)
    | split
    | simp

theorem execScrubControl_kept {tk mm rm : Bool} {z : Seen} (p : Post) (s : State)
    (h : Kept tk mm rm z s.seen) : Ends (Kept tk mm rm z) (execScrubControl p s) := by
  unfold execScrubControl
  repeat' first
    | assumption
    | (apply control_kept <;> intros)
    | (apply dispatchEntry_kept <;> intros)
    | split
    | simp

theorem execPoolStatus_kept {tk mm rm : Bool} {z : Seen} (p : Post) (s : State)
    (h : Kept tk mm rm z s.seen) : Ends (Kept tk mm rm z) (execPoolStatus p s) := by
  unfold execPoolStatus
  repeat' first
    | assumption
    | (apply control_kept <;> intros)
    | (apply dispatchEntry_kept <;> intros)
    | split
    | simp

theorem execMemberStatus_kept {tk mm rm : Bool} {z : Seen} (p : Post) (s : State)
    (h : Kept tk mm rm z s.seen) : Ends (Kept tk mm rm z) (execMemberStatus p s) := by
  unfold execMemberStatus
  repeat' first
    | assumption
    | (apply control_kept <;> intros)
    | (apply dispatchEntry_kept <;> intros)
    | split
    | simp

theorem execLostBlockList_kept {tk mm rm : Bool} {z : Seen} (p : Post) (s : State)
    (h : Kept tk mm rm z s.seen) : Ends (Kept tk mm rm z) (execLostBlockList p s) := by
  unfold execLostBlockList
  repeat' first
    | assumption
    | (apply control_kept <;> intros)
    | (apply dispatchEntry_kept <;> intros)
    | split
    | simp

theorem execRebuildStarted_kept {tk mm rm : Bool} {z : Seen} (pool : Nat) (s : State)
    (h : Kept tk mm rm z s.seen) : Ends (Kept tk mm rm z) (execRebuildStarted pool s) := by
  simpa [execRebuildStarted] using h

theorem execRebuildTileDone_kept {tk mm : Bool} {z : Seen} (pool tile : Nat) (new : Bool) (bad : List BadOff) (s : State)
    (h : Kept tk mm false z s.seen) : Ends (Kept tk mm false z) (execRebuildTileDone pool tile new bad s) := by
  unfold execRebuildTileDone
  repeat' first
    | assumption
    | apply settle_kept
    | split
    | simp

theorem execRebuildResorted_kept {tk mm rm : Bool} {z : Seen} (pool : Nat) (s : State)
    (h : Kept tk mm rm z s.seen) : Ends (Kept tk mm rm z) (execRebuildResorted pool s) := by
  simpa [execRebuildResorted] using h

theorem execLostListWrite_kept {tk mm rm : Bool} {z : Seen} (pool : Nat) (s : State)
    (h : Kept tk mm rm z s.seen) : Ends (Kept tk mm rm z) (execLostListWrite pool s) := by
  simpa [execLostListWrite] using h

theorem execCopyBackTile_kept {tk mm : Bool} {z : Seen} (pool member tile : Nat) (new : Bool) (s : State)
    (h : Kept tk mm false z s.seen) : Ends (Kept tk mm false z) (execCopyBackTile pool member tile new s) := by
  unfold execCopyBackTile
  repeat' first
    | assumption
    | apply settle_kept
    | split
    | simp

theorem execScrubPassStart_kept {tk mm rm : Bool} {z : Seen} (pool : Nat) (s : State)
    (h : Kept tk mm rm z s.seen) : Ends (Kept tk mm rm z) (execScrubPassStart pool s) := by
  simpa [execScrubPassStart] using h

theorem execScrubTile_kept {tk mm : Bool} {z : Seen} (pool tile : Nat) (found : List ScrubOff) (s : State)
    (h : Kept tk mm false z s.seen) : Ends (Kept tk mm false z) (execScrubTile pool tile found s) := by
  unfold execScrubTile
  repeat' first
    | assumption
    | apply settle_kept
    | split
    | simp

theorem execMitreStep_kept {tk mm : Bool} {z : Seen} (pool : Nat) (s : State)
    (h : Kept tk mm false z s.seen) : Ends (Kept tk mm false z) (execMitreStep pool s) := by
  unfold execMitreStep
  repeat' first
    | assumption
    | apply settle_kept
    | split
    | simp

theorem execVeneerBuild_kept {tk mm : Bool} {z : Seen} (pool : Nat) (s : State)
    (h : Kept tk mm false z s.seen) : Ends (Kept tk mm false z) (execVeneerBuild pool s) := by
  unfold execVeneerBuild
  repeat' first
    | assumption
    | apply settle_kept
    | split
    | simp

theorem execVeneerSwitch_kept {tk mm : Bool} {z : Seen} (pool : Nat) (s : State)
    (h : Kept tk mm false z s.seen) : Ends (Kept tk mm false z) (execVeneerSwitch pool s) := by
  unfold execVeneerSwitch
  repeat' first
    | assumption
    | apply settle_kept
    | split
    | simp

theorem execReshapeCancelled_kept {tk mm : Bool} {z : Seen} (pool : Nat) (s : State)
    (h : Kept tk mm false z s.seen) : Ends (Kept tk mm false z) (execReshapeCancelled pool s) := by
  unfold execReshapeCancelled
  repeat' first
    | assumption
    | apply settle_kept
    | split
    | simp

theorem execEraseMarksApply_kept {tk mm : Bool} {z : Seen} (tenant : Nat) (s : State)
    (h : Kept tk mm false z s.seen) : Ends (Kept tk mm false z) (execEraseMarksApply tenant s) := by
  unfold execEraseMarksApply
  repeat' first
    | assumption
    | apply settle_kept
    | split
    | simp

theorem execStartupPhaseDone_kept {tk mm : Bool} {z : Seen} (i : PhaseIn) (s : State)
    (h : Kept tk mm false z s.seen) : Ends (Kept tk mm false z) (execStartupPhaseDone i s) := by
  unfold execStartupPhaseDone
  repeat' first
    | assumption
    | apply phaseDone_kept
    | apply settle_kept
    | split

theorem execPowerReturned_kept {tk mm : Bool} {z : Seen} (s : State)
    (h : Kept tk mm false z s.seen) : Ends (Kept tk mm false z) (execPowerReturned s) := by
  unfold execPowerReturned
  repeat' first
    | assumption
    | apply powerReturned_kept
    | apply settle_kept
    | split

theorem execPowerStateChangeDone_kept {tk mm : Bool} {z : Seen} (s : State)
    (h : Kept tk mm false z s.seen) : Ends (Kept tk mm false z) (execPowerStateChangeDone s) := by
  unfold execPowerStateChangeDone
  repeat' first
    | assumption
    | apply settle_kept
    | split
    | simp

theorem execPowerStateTimeout_kept {tk mm : Bool} {z : Seen} (s : State)
    (h : Kept tk mm false z s.seen) : Ends (Kept tk mm false z) (execPowerStateTimeout s) := by
  unfold execPowerStateTimeout
  repeat' first
    | assumption
    | apply settle_kept
    | split
    | simp

theorem execFirmwareClassFlip_kept {tk mm : Bool} {z : Seen} (answerOk : Bool) (s : State)
    (h : Kept tk mm false z s.seen) : Ends (Kept tk mm false z) (execFirmwareClassFlip answerOk s) := by
  unfold execFirmwareClassFlip
  repeat' first
    | assumption
    | apply settle_kept
    | split
    | simp

theorem execSramUncorrectable_kept {tk mm : Bool} {z : Seen} (die : Nat) (hit : SramHit) (s : State)
    (h : Kept tk mm false z s.seen) : Ends (Kept tk mm false z) (execSramUncorrectable die hit s) := by
  unfold execSramUncorrectable
  repeat' first
    | assumption
    | apply settle_kept
    | apply sramBad_kept
    | split
    | (apply foldl_kept <;> intros)
    | simp

theorem execDdrUncorrectable_kept {tk mm : Bool} {z : Seen} (die : Nat) (hit : DdrHit) (loc : DdrLoc) (s : State)
    (h : Kept tk mm false z s.seen) : Ends (Kept tk mm false z) (execDdrUncorrectable die hit loc s) := by
  unfold execDdrUncorrectable
  repeat' first
    | assumption
    | apply ddrBad_kept
    | apply settle_kept
    | split
    | (apply foldl_kept <;> intros)
    | simp

theorem execReflectWrite_kept {tk mm rm : Bool} {z : Seen} (p : Post) (s : State)
    (h : Kept tk mm rm z s.seen) : Ends (Kept tk mm rm z) (execReflectWrite p s) := by
  unfold execReflectWrite
  repeat' first
    | assumption
    | (apply dispatchEntry_kept <;> intros)
    | split
    | simp

theorem execReflectRead_kept {tk mm rm : Bool} {z : Seen} (p : Post) (s : State)
    (h : Kept tk mm rm z s.seen) : Ends (Kept tk mm rm z) (execReflectRead p s) := by
  unfold execReflectRead
  repeat' first
    | assumption
    | (apply dispatchEntry_kept <;> intros)
    | split
    | simp

theorem execReflectAdd_kept {tk mm rm : Bool} {z : Seen} (p : Post) (s : State)
    (h : Kept tk mm rm z s.seen) : Ends (Kept tk mm rm z) (execReflectAdd p s) := by
  unfold execReflectAdd
  repeat' first
    | assumption
    | (apply dispatchEntry_kept <;> intros)
    | split
    | simp

theorem execReflectCas_kept {tk mm rm : Bool} {z : Seen} (p : Post) (s : State)
    (h : Kept tk mm rm z s.seen) : Ends (Kept tk mm rm z) (execReflectCas p s) := by
  unfold execReflectCas
  repeat' first
    | assumption
    | (apply dispatchEntry_kept <;> intros)
    | split
    | simp

theorem execRegisterRegion_kept {tk mm : Bool} {z : Seen} (p : Post) (s : State)
    (h : Kept tk mm false z s.seen) : Ends (Kept tk mm false z) (execRegisterRegion p s) := by
  unfold execRegisterRegion
  repeat' first
    | assumption
    | (apply control_kept <;> intros)
    | (apply dispatchEntry_kept <;> intros)
    | apply registerRegion_kept
    | split

theorem execRevokeRegion_kept {tk mm rm : Bool} {z : Seen} (p : Post) (s : State)
    (h : Kept tk mm rm z s.seen) : Ends (Kept tk mm rm z) (execRevokeRegion p s) := by
  unfold execRevokeRegion
  repeat' first
    | assumption
    | (apply control_kept <;> intros)
    | (apply dispatchEntry_kept <;> intros)
    | split
    | simp

theorem execEndpointStatus_kept {tk mm : Bool} {z : Seen} (p : Post) (s : State)
    (h : Kept tk mm false z s.seen) : Ends (Kept tk mm false z) (execEndpointStatus p s) := by
  unfold execEndpointStatus
  repeat' first
    | assumption
    | (apply control_kept <;> intros)
    | (apply dispatchEntry_kept <;> intros)
    | apply endpointStatus_kept
    | apply settle_kept
    | split

theorem execSegWrite_kept {tk : Bool} {z : Seen} (die : Nat) (g : Seg) (s : State)
    (h : Kept tk false false z s.seen) : Ends (Kept tk false false z) (execSegWrite die g s) := by
  unfold execSegWrite
  repeat' first
    | assumption
    | apply arrive_kept
    | apply settle_kept
    | split

theorem execSegReadRequest_kept {tk : Bool} {z : Seen} (die : Nat) (g : Seg) (host : Bytes) (s : State)
    (h : Kept tk false false z s.seen) : Ends (Kept tk false false z) (execSegReadRequest die g host s) := by
  unfold execSegReadRequest
  repeat' first
    | assumption
    | apply arrive_kept
    | apply settle_kept
    | split

theorem execSegReadData_kept {tk : Bool} {z : Seen} (die : Nat) (g : Seg) (s : State)
    (h : Kept tk false false z s.seen) : Ends (Kept tk false false z) (execSegReadData die g s) := by
  unfold execSegReadData
  repeat' first
    | assumption
    | apply arrive_kept
    | apply settle_kept
    | split

theorem execSegAdd_kept {tk : Bool} {z : Seen} (die : Nat) (g : Seg) (s : State)
    (h : Kept tk false false z s.seen) : Ends (Kept tk false false z) (execSegAdd die g s) := by
  unfold execSegAdd
  repeat' first
    | assumption
    | apply arrive_kept
    | apply settle_kept
    | split

theorem execSegCas_kept {tk : Bool} {z : Seen} (die : Nat) (g : Seg) (s : State)
    (h : Kept tk false false z s.seen) : Ends (Kept tk false false z) (execSegCas die g s) := by
  unfold execSegCas
  repeat' first
    | assumption
    | apply arrive_kept
    | apply settle_kept
    | split

theorem execSegAtomicResult_kept {tk : Bool} {z : Seen} (die : Nat) (g : Seg) (s : State)
    (h : Kept tk false false z s.seen) : Ends (Kept tk false false z) (execSegAtomicResult die g s) := by
  unfold execSegAtomicResult
  repeat' first
    | assumption
    | apply arrive_kept
    | apply settle_kept
    | split

theorem answerSeg_kept {tk mm rm : Bool} {z : Seen} (op : Byte) (d : Nat) (g : Seg) (f : State → State) (s : State)
    (hf : (f s).seen = s.seen) (h : Kept tk mm rm z s.seen) : Kept tk mm rm z (answerSeg op d g f s).seen := by
  unfold answerSeg
  split
  · exact h
  split
  · exact h.of_eq hf
  · exact h.of_eq (protoError_seen ..)

theorem execSegAck_kept {tk mm : Bool} {z : Seen} (die : Nat) (g : Seg) (s : State)
    (h : Kept tk mm false z s.seen) : Ends (Kept tk mm false z) (execSegAck die g s) := by
  exact settle_kept _ (answerSeg_kept _ _ _ _ _ (by simp) h)

theorem execSegRefuse_kept {tk mm : Bool} {z : Seen} (die : Nat) (g : Seg) (s : State)
    (h : Kept tk mm false z s.seen) : Ends (Kept tk mm false z) (execSegRefuse die g s) := by
  exact settle_kept _ (answerSeg_kept _ _ _ _ _ (by simp) h)

theorem execSegmentRetransmit_kept {tk mm rm : Bool} {z : Seen} (die : Nat) (msgno : W32) (segno : Nat) (s : State)
    (h : Kept tk mm rm z s.seen) : Ends (Kept tk mm rm z) (execSegmentRetransmit die msgno segno s) := by
  simpa [execSegmentRetransmit] using h

theorem execReflectUnreachable_kept {tk mm : Bool} {z : Seen} (die : Nat) (msgno : W32) (s : State)
    (h : Kept tk mm false z s.seen) : Ends (Kept tk mm false z) (execReflectUnreachable die msgno s) := by
  unfold execReflectUnreachable
  repeat' first
    | assumption
    | apply settle_kept
    | split
    | simp

theorem execFlaggedSegmentExpired_kept {tk mm rm : Bool} {z : Seen} (die : Nat) (s : State)
    (h : Kept tk mm rm z s.seen) : Ends (Kept tk mm rm z) (execFlaggedSegmentExpired die s) := by
  simpa [execFlaggedSegmentExpired] using h

theorem execFilterEntryExpired_kept {tk mm rm : Bool} {z : Seen} (die : Nat) (s : State)
    (h : Kept tk mm rm z s.seen) : Ends (Kept tk mm rm z) (execFilterEntryExpired die s) := by
  simpa [execFilterEntryExpired] using h

theorem execRevokeComplete_kept {tk mm : Bool} {z : Seen} (die key : Nat) (s : State)
    (h : Kept tk mm false z s.seen) : Ends (Kept tk mm false z) (execRevokeComplete die key s) := by
  unfold execRevokeComplete
  repeat' first
    | assumption
    | apply revokeDone_kept
    | apply settle_kept
    | split

theorem nextTick_kept {mm rm : Bool} {z : Seen} (s : State) (h : Kept false mm rm z s.seen) :
    Kept false mm rm z (nextTick s).seen := by
  have h1 : Kept false mm rm z ((sendMessages (sendIdles (sendMirrors (drainRegions s)))).emit .ticksync).seen := h.of_eq (by simp)
  have k : Kept false mm rm z { ((sendMessages (sendIdles (sendMirrors (drainRegions s)))).emit .ticksync).seen with tick := s.clk.tick + 1 } :=
    ⟨h1.pending, h1.part, nofun, h1.mem, h1.refl, fun k => have o := h1.ok k; ⟨o.dies, o.fault, o.mems, o.regions, o.wins⟩⟩
  refine k.of_eq ?_
  unfold nextTick
  simp only [seen_mk]
  rw [map_mem _ _ (by intro _; rfl)]
  rfl

theorem boundaryWork_kept {mm rm : Bool} {z : Seen} (s : State)
    (h : Kept false mm rm z s.seen) : Kept false mm rm z (boundaryWork s).seen := by
  unfold boundaryWork
  rw [flipBack_seen, endShedding_seen, releaseSteps_seen, refill_seen, applyQos_seen, applyFeats_seen, applyRemaps_seen, takeFeats_seen]
  exact nextTick_kept _ h

theorem frameWork_kept {tk mm rm : Bool} {z : Seen} (t : TickIn) (s : State)
    (h : Kept tk mm rm z s.seen) : Kept tk mm rm z (frameWork t s).seen := by
  unfold frameWork
  extract_lets s0 s1 os s2 trim
  have h0 : Kept tk mm rm z s0.seen := h.of_eq (by simp only [s0]; split <;> simp)
  have h1 : Kept tk mm rm z s1.seen := foldl_kept _ _ _ (h0.of_eq (intakeRings_seen ..)) fun _ _ k => badFetch_kept _ _ k
  have h2 : s2.seen = s1.seen := (foldl_seen (fun s o => missStage o s) (fun _ _ => missStage_seen ..) _ _).trans (admission_seen ..)
  split
  · exact h1
  · exact h1.of_eq ((dies_seen _ _ (map_mem _ _ (by intro _; rfl))).trans h2)

theorem spareFails_kept {tk mm rm : Bool} {z : Seen} (d i : Nat) (s : State)
    (h : Kept tk mm rm z s.seen) : Kept tk mm rm z (spareFails d i s).seen := by
  unfold spareFails
  repeat' first
    | assumption
    | apply coreFail_kept
    | split
    | simp

theorem checkerReact_kept {tk mm rm : Bool} {z : Seen} (d : Nat) (u : Checked) (s : State)
    (h : Kept tk mm rm z s.seen) : Kept tk mm rm z (checkerReact d u s).seen := by
  unfold checkerReact
  repeat' first
    | assumption
    | apply aesOut_kept
    | apply coreFail_kept
    | apply dieYield_kept
    | apply driveOut_kept
    | apply gfOut_kept
    | apply moverOut_kept
    | apply unitOut_kept
    | split
    | simp

theorem checkerFails_kept {tk mm rm : Bool} {z : Seen} (d : Nat) (u : Checked) (s : State)
    (h : Kept tk mm rm z s.seen) : Kept tk mm rm z (checkerFails d u s).seen := by
  unfold checkerFails
  repeat' first
    | assumption
    | apply checkerReact_kept
    | split
    | simp

theorem selfTests_kept {tk mm rm : Bool} {z : Seen} (t : TickIn) (s : State)
    (h : Kept tk mm rm z s.seen) : Kept tk mm rm z (selfTests t s).seen := by
  unfold selfTests
  repeat' first
    | assumption
    | apply checkerFails_kept
    | apply spareFails_kept
    | split
    | (apply foldl_kept <;> intros)
    | simp

theorem recordWork_kept {tk mm rm : Bool} {z : Seen} (t : TickIn) (s : State)
    (h : Kept tk mm rm z s.seen) : Kept tk mm rm z (recordWork t s).seen := by
  unfold recordWork
  repeat' first
    | assumption
    | apply recorderFailed_kept
    | split
    | (apply foldl_kept <;> intros)
    | simp

theorem tick_kept {mm rm : Bool} {z : Seen} (t : TickIn) (s : State)
    (h : Kept false mm rm z s.seen) : Kept false mm rm z (tick t s).seen := by
  unfold tick
  split
  · exact h
  extract_lets s1 s2
  have h0 : Kept false mm rm z (settleFailures (deadlines t.slowReads s)).seen :=
    h.of_eq ((settleFailures_seen ..).trans (deadlines_seen ..))
  have h3 : Kept false mm rm z (lastHolds (settleFailures (deadlines t.slowReads s))).seen := h0.of_eq (lastHolds_seen _)
  have h1 : Kept false mm rm z s1.seen :=
    frameWork_kept _ _ ((boundaryWork_kept _ h3).of_eq ((holdAges_seen ..).trans (notePower_seen ..)))
  have h2 : Kept false mm rm z s2.seen :=
    selfTests_kept _ _ (h1.of_eq ((guardPair_seen ..).trans ((countCut_seen ..).trans (ticksync_seen ..))))
  refine tripTick_kept _ (recordWork_kept _ _ (h2.of_eq ?_))
  simp

theorem execTick_kept {mm : Bool} {z : Seen} (t : TickIn) (s : State)
    (h : Kept false mm false z s.seen) : Ends (Kept false mm false z) (execTick t s) := by
  unfold execTick
  repeat' first
    | assumption
    | apply settle_kept
    | apply tick_kept
    | split

theorem execXchIdentify_kept {tk mm rm : Bool} {z : Seen} (x : XchReq) (s : State)
    (h : Kept tk mm rm z s.seen) : Ends (Kept tk mm rm z) (execXchIdentify x s) := by
  simpa [execXchIdentify] using h

theorem execXchPoolStatus_kept {tk mm rm : Bool} {z : Seen} (x : XchReq) (s : State)
    (h : Kept tk mm rm z s.seen) : Ends (Kept tk mm rm z) (execXchPoolStatus x s) := by
  simpa [execXchPoolStatus] using h

theorem execXchMemberStatus_kept {tk mm rm : Bool} {z : Seen} (x : XchReq) (s : State)
    (h : Kept tk mm rm z s.seen) : Ends (Kept tk mm rm z) (execXchMemberStatus x s) := by
  simpa [execXchMemberStatus] using h

theorem execXchHealthReport_kept {tk mm rm : Bool} {z : Seen} (x : XchReq) (s : State)
    (h : Kept tk mm rm z s.seen) : Ends (Kept tk mm rm z) (execXchHealthReport x s) := by
  simpa [execXchHealthReport] using h

theorem execXchLogRead_kept {tk mm rm : Bool} {z : Seen} (x : XchReq) (s : State)
    (h : Kept tk mm rm z s.seen) : Ends (Kept tk mm rm z) (execXchLogRead x s) := by
  simpa [execXchLogRead] using h

theorem execXchMeterRead_kept {tk mm rm : Bool} {z : Seen} (x : XchReq) (s : State)
    (h : Kept tk mm rm z s.seen) : Ends (Kept tk mm rm z) (execXchMeterRead x s) := by
  simpa [execXchMeterRead] using h

theorem execRegisterWrite_kept {tk mm rm : Bool} {z : Seen} (port fn off : Nat) (a : Acc) (s : State)
    (h : Kept tk mm rm z s.seen) : Ends (Kept tk mm rm z) (execRegisterWrite port fn off a s) := by
  unfold execRegisterWrite
  (repeat' split) <;> simpa using h

theorem execSetEndpointId_kept {tk mm rm : Bool} {z : Seen} (m : Mctp) (eid : BitVec 8) (s : State)
    (h : Kept tk mm rm z s.seen) : Ends (Kept tk mm rm z) (execSetEndpointId m eid s) := by
  unfold execSetEndpointId
  repeat' first
    | assumption
    | (apply sideband_kept <;> intros)
    | split

theorem execGetEndpointId_kept {tk mm rm : Bool} {z : Seen} (m : Mctp) (s : State)
    (h : Kept tk mm rm z s.seen) : Ends (Kept tk mm rm z) (execGetEndpointId m s) := by
  unfold execGetEndpointId
  repeat' first
    | assumption
    | (apply sideband_kept <;> intros)
    | split

theorem execGetMctpVersionSupport_kept {tk mm rm : Bool} {z : Seen} (m : Mctp) (s : State)
    (h : Kept tk mm rm z s.seen) : Ends (Kept tk mm rm z) (execGetMctpVersionSupport m s) := by
  unfold execGetMctpVersionSupport
  repeat' first
    | assumption
    | (apply sideband_kept <;> intros)
    | split

theorem execGetMessageTypeSupport_kept {tk mm rm : Bool} {z : Seen} (m : Mctp) (s : State)
    (h : Kept tk mm rm z s.seen) : Ends (Kept tk mm rm z) (execGetMessageTypeSupport m s) := by
  unfold execGetMessageTypeSupport
  repeat' first
    | assumption
    | (apply sideband_kept <;> intros)
    | split

theorem execGetEndpointUuid_kept {tk mm rm : Bool} {z : Seen} (m : Mctp) (s : State)
    (h : Kept tk mm rm z s.seen) : Ends (Kept tk mm rm z) (execGetEndpointUuid m s) := by
  unfold execGetEndpointUuid
  repeat' first
    | assumption
    | (apply sideband_kept <;> intros)
    | split

theorem execAlertResponse_kept {tk mm rm : Bool} {z : Seen} (s : State)
    (h : Kept tk mm rm z s.seen) : Ends (Kept tk mm rm z) (execAlertResponse s) := by
  unfold execAlertResponse
  split <;> simpa using h

theorem execGetStatus_kept {tk mm rm : Bool} {z : Seen} (m : Mctp) (s : State)
    (h : Kept tk mm rm z s.seen) : Ends (Kept tk mm rm z) (execGetStatus m s) := by
  unfold execGetStatus
  repeat' first
    | assumption
    | (apply sideband_kept <;> intros)
    | split

theorem execGetHealth_kept {tk mm rm : Bool} {z : Seen} (m : Mctp) (off : Nat) (s : State)
    (h : Kept tk mm rm z s.seen) : Ends (Kept tk mm rm z) (execGetHealth m off s) := by
  unfold execGetHealth
  repeat' first
    | assumption
    | (apply sideband_kept <;> intros)
    | split
    | simp

theorem execGetPending_kept {tk mm rm : Bool} {z : Seen} (m : Mctp) (die : Nat) (s : State)
    (h : Kept tk mm rm z s.seen) : Ends (Kept tk mm rm z) (execGetPending m die s) := by
  unfold execGetPending
  repeat' first
    | assumption
    | (apply sideband_kept <;> intros)
    | split
    | simp

theorem execClearPending_kept {tk mm rm : Bool} {z : Seen} (m : Mctp) (die source : Nat) (s : State)
    (h : Kept tk mm rm z s.seen) : Ends (Kept tk mm rm z) (execClearPending m die source s) := by
  unfold execClearPending
  repeat' first
    | assumption
    | (apply sideband_kept <;> intros)
    | split
    | simp

theorem execGetRecords_kept {tk mm rm : Bool} {z : Seen} (m : Mctp) (pos : Nat) (s : State)
    (h : Kept tk mm rm z s.seen) : Ends (Kept tk mm rm z) (execGetRecords m pos s) := by
  unfold execGetRecords
  repeat' first
    | assumption
    | (apply sideband_kept <;> intros)
    | split
    | simp

theorem execSmbusBusHeldLow_kept {tk mm rm : Bool} {z : Seen} (s : State)
    (h : Kept tk mm rm z s.seen) : Ends (Kept tk mm rm z) (execSmbusBusHeldLow s) := by
  unfold execSmbusBusHeldLow
  split <;> simpa using h

theorem execCreateTenant_kept {tk mm rm : Bool} {z : Seen} (p : Post) (s : State)
    (h : Kept tk mm rm z s.seen) : Ends (Kept tk mm rm z) (execCreateTenant p s) := by
  unfold execCreateTenant
  repeat' first
    | assumption
    | (apply control_kept <;> intros)
    | (apply dispatchEntry_kept <;> intros)
    | split
    | simp

theorem execDeleteTenant_kept {tk mm rm : Bool} {z : Seen} (p : Post) (s : State)
    (h : Kept tk mm rm z s.seen) : Ends (Kept tk mm rm z) (execDeleteTenant p s) := by
  unfold execDeleteTenant
  repeat' first
    | assumption
    | (apply control_kept <;> intros)
    | (apply dispatchEntry_kept <;> intros)
    | split
    | simp

theorem execBind_kept {tk mm rm : Bool} {z : Seen} (p : Post) (s : State)
    (h : Kept tk mm rm z s.seen) : Ends (Kept tk mm rm z) (execBind p s) := by
  unfold execBind
  repeat' first
    | assumption
    | (apply control_kept <;> intros)
    | (apply dispatchEntry_kept <;> intros)
    | split
    | simp

theorem execLoadKey_kept {tk mm rm : Bool} {z : Seen} (p : Post) (s : State)
    (h : Kept tk mm rm z s.seen) : Ends (Kept tk mm rm z) (execLoadKey p s) := by
  unfold execLoadKey
  repeat' first
    | assumption
    | (apply control_kept <;> intros)
    | (apply dispatchEntry_kept <;> intros)
    | split
    | simp

theorem execEraseKey_kept {tk mm : Bool} {z : Seen} (p : Post) (s : State)
    (h : Kept tk mm false z s.seen) : Ends (Kept tk mm false z) (execEraseKey p s) := by
  unfold execEraseKey
  repeat' first
    | assumption
    | (apply control_kept <;> intros)
    | (apply dispatchEntry_kept <;> intros)
    | apply settle_kept
    | split
    | simp

theorem execSetTenantQos_kept {tk mm rm : Bool} {z : Seen} (p : Post) (s : State)
    (h : Kept tk mm rm z s.seen) : Ends (Kept tk mm rm z) (execSetTenantQos p s) := by
  unfold execSetTenantQos
  repeat' first
    | assumption
    | (apply control_kept <;> intros)
    | (apply dispatchEntry_kept <;> intros)
    | split
    | simp

theorem execMeterConfig_kept {tk mm rm : Bool} {z : Seen} (p : Post) (s : State)
    (h : Kept tk mm rm z s.seen) : Ends (Kept tk mm rm z) (execMeterConfig p s) := by
  unfold execMeterConfig
  repeat' first
    | assumption
    | (apply control_kept <;> intros)
    | (apply dispatchEntry_kept <;> intros)
    | split
    | simp

theorem execMeterRead_kept {tk mm rm : Bool} {z : Seen} (p : Post) (s : State)
    (h : Kept tk mm rm z s.seen) : Ends (Kept tk mm rm z) (execMeterRead p s) := by
  unfold execMeterRead
  repeat' first
    | assumption
    | (apply control_kept <;> intros)
    | (apply dispatchEntry_kept <;> intros)
    | split
    | simp

end Sys2Proof.Machine
end

