-- ==== Sys2Proof/WellFormed.lean ====
section
/-! DEFINITION. Which operands a command can carry: die, ring, function, pool, volume and tenant numbers within the
limits of R6, R16, R76, R434 and R506. The machine is total and does not depend on it; the statements about syntax do. -/

namespace Sys2Proof

/-- R16: a die index of the largest part. -/
def dieOk (d : Nat) : Bool := decide (d < 8)

/-- R506: the physical function or one of 63 virtual functions. -/
def fnOk (f : Nat) : Bool := decide (f < 64)

/-- R76: 512 local ring indices a die. -/
def ringOk (r : Nat) : Bool := decide (r < 512)

/-- R488: pool numbers are below 256. -/
def poolOk (p : Nat) : Bool := decide (p < 256)

/-- R491: volume numbers are below 4,096. -/
def volOk (v : Nat) : Bool := decide (v < 4096)

/-- R434: tenant numbers are below 1,024. -/
def tenantOk (t : Nat) : Bool := decide (t < 1024)

/-- A dispatch names a die and a local ring index. -/
def Post.wf (p : Post) : Bool := dieOk p.die && ringOk p.ring

/-- A command in flight came from an index below the largest ring size (R76). -/
def CmdRef.wf (c : CmdRef) : Bool := dieOk c.die && ringOk c.ring && decide (c.index < 65536)

/-- A window of a function's BAR0 (R505, R506). -/
def Win.wf (w : Win) : Bool := dieOk w.port && fnOk w.fn && decide (w.window < if w.fn = 0 ∨ w.fn = 32 then 512 else 32)

/-- A write is 8, 16, 32 or 64 bits wide, and only a 32-bit write can go to the upper half (R507). -/
def Acc.wf (a : Acc) : Bool := (a.width == 8 || a.width == 16 || a.width == 32 || a.width == 64) && (!a.upper || a.width == 32)

/-- Four result windows of a physical function, two of a virtual function (R519). -/
def XchReq.wf (x : XchReq) : Bool := dieOk x.port && fnOk x.fn && decide (x.window < if x.fn = 0 ∨ x.fn = 32 then 4 else 2)

/-- A fragment table holds 1 to 4,096 fragments (R95). -/
def fragsOk (f : List Frag) : Bool := decide (f.length ≤ 4096)

/-- The check of one command's operands. -/
def Instr.wf : Instr → Bool
  | .nop p | .read p | .write p | .flush p | .flushMedia p | .writeZeroes p | .deallocate p | .verify p => p.wf
  | .fragmentTableRead c f _ => c.wf && fragsOk f
  | .hostTransferError c => c.wf
  | .createRing p | .deleteRing p | .setRingWeight p | .abort p | .identify p | .getFeature p | .setFeature p
  | .setPowerState p | .functionReinit p => p.wf
  | .createPool p | .destroyPool p | .addMember p | .retireMember p | .replaceMember p | .createVolume p
  | .deleteVolume p | .resizeVolume p | .reshapePlan p | .reshapeStart p | .reshapeControl p | .rebuildControl p
  | .scrubControl p | .poolStatus p | .memberStatus p | .lostBlockList p => p.wf
  | .createTenant p | .deleteTenant p | .bind p | .loadKey p | .eraseKey p => p.wf
  | .eraseMarksApply t => tenantOk t
  | .setTenantQos p | .meterConfig p | .meterRead p | .reflectWrite p | .reflectRead p | .reflectAdd p
  | .reflectCas p | .registerRegion p | .revokeRegion p => p.wf
  | .revokeComplete d k => dieOk d && decide (k < 65536)
  | .endpointStatus p | .firmwareDownload p | .firmwareActivate p => p.wf
  | .firmwareProgrammed _ | .firmwareLoadDone | .firmwareClassFlip _ => true
  | .logFreeze p | .logThaw p | .logRead p | .logClearChallenge p | .logClear p | .healthReport p | .selfTest p
  | .engineSwap p | .dieRetire p | .timeAnchor p | .partnerControl p | .tickBudgetReport p => p.wf
  | .freezeExpired | .challengeExpired => true
  | .dieRetireMigrated p => poolOk p
  | .doorbell w a | .notificationDoorbell w a | .clearOvf w a | .invalidate w a | .setupRingEnable w a
  | .setupRingDisable w a => w.wf && a.wf
  | .gctlReset d a | .ladderAck d a | .meterHeadWrite d a => dieOk d && a.wf
  | .evtPendClear d i a => dieOk d && decide (i < 4) && a.wf
  | .xchIdentify x | .xchPoolStatus x | .xchMemberStatus x | .xchHealthReport x | .xchLogRead x | .xchMeterRead x => x.wf
  | .msixVectorUnmask d f v => dieOk d && fnOk f && decide (v < 1024)
  | .registerWrite d f o a => dieOk d && fnOk f && decide (o < 1048576) && a.wf
  | .tick t => t.silent.all dieOk
  | .frameOverrun d | .frameRecovered d | .frameNotRecovered d | .budgetWindow d _ => dieOk d
  | .ticksyncAlign c => decide (c < 6400)
  | .ticksyncLost | .powerUp | .startupPhaseDone _ | .resetN => true
  | .perstN d | .perstNDeasserted d => dieOk d
  | .flr d f => dieOk d && fnOk f
  | .pfail | .backupEnRaise | .pfailDeassert | .powerReturned => true
  | .vaultDone d | .thermalWarning d _ | .thermalTrip d => dieOk d
  | .thermalCapStep | .thermalCapLifted | .powerStateChangeDone | .powerStateTimeout | .powerStateRaised => true
  | .lockstepMismatch d c => dieOk d && c.all (fun i => decide (i < 24))
  | .gfResidueFault d u _ => dieOk d && decide (u < 2)
  | .aesCheckFault d u _ => dieOk d && decide (u < 4)
  | .ddrUncorrectable d h _ => dieOk d && decide (h.channel < 4)
  | .datapathCrcError d _ _ | .sramUncorrectable d _ | .nvUnitRetired d | .sramPatrol d _
  | .nvVerifyPass d _ | .ddrPatrol d _ => dieOk d
  | .ddrZqCalibration d c | .ddrRetrained d c _ | .ddrChannelSpared d c => dieOk d && decide (c < 4)
  | .eyeMeasure d l _ => dieOk d && decide (l < 56)
  | .fabricLinkDown d m => dieOk d && decide (m < 3)
  | .dieSelfRetire d | .dieHoldDrop d | .shadowTakeover d => dieOk d
  | .leadDieMove | .indexRebuilt | .takeoverDecision _ | .witnessAcquire | .witnessAcquireDone _ | .holdWireCleared
  | .pairRejoin | .rejoinTick | .partnerAbsentTimeout | .witnessMeasure _ | .healthReportWrite => true
  | .heartbeatLost p => match p with
    | .die d | .partnerDie d => dieOk d
    | .partner => true
  | .dryTakeover d h _ => dieOk d && dieOk h
  | .unitProtected c => c.wf
  | .stripeAgeLimit p _ | .destageStart p _ | .spillCopyReplaced p _ => poolOk p
  | .zeroFill v _ => volOk v
  | .anchor d | .journalSpill d | .journalFullCleared d | .configFold d | .vaultRateMeasure d _ _ => dieOk d
  | .memberCompletion _ _ | .sectorRepaired _ | .memberCommandRetried _ | .memberTimeout _ | .memberRemoved _
  | .controllerFatal _ | .asyncEvent _ _ | .smartPoll _ _ | .pathLost _ _ | .pathRestored _ _ => true
  | .rebuildStarted p | .rebuildTileDone p _ _ _ | .rebuildResorted p | .lostListWrite p | .copyBackTile p _ _ _
  | .scrubPassStart p | .scrubTile p _ _ | .mitreStep p | .veneerBuild p | .veneerSwitch p
  | .reshapeCancelled p => poolOk p
  | .segWrite d _ | .segReadRequest d _ _ | .segReadData d _ | .segAdd d _ | .segCas d _ | .segAtomicResult d _
  | .segAck d _ | .segRefuse d _ | .segmentRetransmit d _ _ | .reflectUnreachable d _ | .flaggedSegmentExpired d
  | .filterEntryExpired d | .linkRecover d | .linkDetect d | .linkStateTimeout d => dieOk d
  | .payloadFlit d b | .alignFlit d b | .configFlit d b | .configAckFlit d b | .recoverFlit ⟨d, b⟩ =>
    dieOk d && decide (b.length = 256)
  | .meterSnapshot _ | .capRedivide => true
  | .rateWindow d | .optimeSave d => dieOk d
  | .setEndpointId _ _ | .getEndpointId _ | .getMctpVersionSupport _ | .getMessageTypeSupport _ | .getEndpointUuid _
  | .alertResponse | .getStatus _ | .getHealth _ _ | .getRecords _ _ => true
  | .getPending _ d => dieOk d
  | .clearPending _ d s => dieOk d && decide (s < 256)
  | .ringFetchError d r => dieOk d && ringOk r
  | .powerLoss | .memberAppearsOnPath _ | .formatNvmTimeout _ | .smbusBusHeldLow => true
  | .equalisationLock d l => dieOk d && l.all (· < 16)

end Sys2Proof
end

