-- ==== Sys2Proof/Tests/Slice0.lean ====
section
/-! SUPPORT. Small tests, and witnesses for the hypotheses of the statements. -/

namespace Sys2Proof.Tests
set_option Elab.async false
set_option linter.unusedVariables false
open Sys2Proof Sys2Proof.Machine

/-! ### Small states -/

/-- Parameter bytes of an entry: (byte, value). -/
def par (l : List (Nat × Nat)) : BitVec 160 := BitVec.ofNat 160 (l.map fun x => x.2 * 256 ^ (x.1 - 44)).sum

/-- A control entry with parameters and a buffer length. -/
def ent (l : List (Nat × Nat)) (dlen : W32 := 0) : Entry := { tail := par l, dlen := dlen }

/-- The dispatch of an entry at the head of ring 1 of die 0. -/
def post (e : Entry) (b : Bytes := []) : Post := { die := 0, ring := 1, entry := e, buf := b }

/-- Ring i of die 0 with one posted entry. -/
def ring (i : Nat) : Ring :=
  { die := 0, idx := i, fn := 0, window := i, notif := false, setup := false, cls := 1, weight := 1, burst := 1, size := 16,
    base := 0x1000, vector := 0, tenant := none, state := .enabled, tail := 1, bells := [0] }

/-- A die in service, its host link up. -/
def upDie (x : DieSt) : DieSt := { x with linkUp := true, perst := true, hold := true, hw := { x.hw with hostWidth := 16 } }

/-- A package that is ready, with one ring on die 0, at tick 16,000,000. -/
def up : State :=
  { State.reset with
    run := { RunSt.reset with phase := 8 }, dies := [upDie DieSt.reset, upDie DieSt.reset], rings := [ring 1]
    clk := { State.reset.clk with tick := 16000000, optime := 16000000 }, pair := { PairSt.reset with armed := true } }

/-- A geometry of four members, two data strips and one parity strip, four tiles. -/
def geo : Geom := { n := 4, k := 2, m := 1, s := 0, strip := 14, big := true, seed := 1, uid := 7, z := 256 + 16384 + 1024 }

/-- Pool 3 on die 0. -/
def pool : Pool :=
  { num := 3, home := 0, shadow := some 1, geom := geo, age := 250
    members := [{ state := .online, ns := 10 }, { state := .online, ns := 11 }, { state := .online, ns := 12 }, { state := .online, ns := 13 }]
    scrub := ⟨true, 151200000000, false, 0, 0, 0, 0, 0, 0, false⟩ }

/-- Volume 5 of pool 3: two tiles, of which nothing was ever written. -/
def vol : Vol :=
  { num := 5, pool := 3, tenant := none, enc := false, dz := false, wt := false, pif := 0, pitype := 0, big := true, blocks := 1024, x := 512
    extents := [0, 1], zero := [0, 1] }

/-- A namespace that every die reaches. -/
def nsp (i : Nat) : Ns :=
  { id := i, info := { nguid := BitVec.ofNat 128 i, capacity := 20000, cur := 4096, offers := [4096], dies := [0, 1] }, up := [0, 1], reserved := true }

/-- The ready package with the pool and its volume. -/
def full : State := { up with pools := [pool], vols := [vol], nss := [nsp 10, nsp 11, nsp 12, nsp 13], uniq := 14, uids := [7] }

def sf (l : List (Nat×Nat)) (n : W32 := 0) (b : Bytes := []) : Post := { die := 0, ring := 1, entry := ent l n, buf := b }
def desc (i : Nat) : Bytes := le 16 i ++ [2] ++ zeros 15
def g5 : Geom := {geo with n := 5, s := 1}
def on (i : Nat) : Member := { state := .online, ns := i }
def pool5 : Pool := {pool with geom := g5, members := [on 10, on 11, on 12, on 13, on 14]}
def full5 : State := {full with pools := [pool5], vols := [{vol with zero := []}], nss := full.nss ++ [nsp 14, nsp 20]}
def cw (op : Op) : Cmd := { ref := ⟨0,1,0⟩, op := op, entry := {}, buf := [], fn := 0, tenant := none, cls := 1, bell := 0, at_ := 0, stage := .waiting}
def wait (op : Op) (s : State) : State := {s with rings := [{ring 1 with head := 1}], cmds := [cw op]}
def cb (v l : Nat) : CBlk := { vol := v, lba := l, data := zeros 4096, pi := [], dirty := true, mirrored := false, jsn := 1, since := 0, used := 0 }
def R := ring 1

/-! ### Premises from their parts -/

theorem taken_of {op : Op} {p : Post} {r : Ring} {s : State}
    (h : s.ring? p.die p.ring = some r ∧ takes s r op p.entry = true ∧ headCause r op p.entry = none) : Taken op p r s :=
  ⟨h.1, h.2.1, h.2.2⟩

theorem direct_of {op : Op} {p : Post} {r : Ring} {s : State}
    (h : (s.ring? p.die p.ring = some r ∧ takes s r op p.entry = true ∧ headCause r op p.entry = none) ∧
      p.entry.ind = false) : Direct op p r s :=
  ⟨taken_of h.1, h.2⟩

theorem permitted_of {op : Op} {p : Post} {r : Ring} {s : State}
    (h : ((s.ring? p.die p.ring = some r ∧ takes s r op p.entry = true ∧ headCause r op p.entry = none) ∧
      p.entry.ind = false) ∧ permission (startOf op p r s) (cmdOf op p r s) = none ∧
      heldBack (startOf op p r s) (cmdOf op p r s) = false ∧ (p.bufErr && inputFits (startOf op p r s) (cmdOf op p r s) == some true) = false) : Permitted op p r s :=
  ⟨direct_of h.1, h.2.1, h.2.2.1, h.2.2.2⟩

theorem arrives_of {op : Byte} {d : Nat} {g : Seg} {s : State}
    (h : reflectRuns s d = true ∧ segGood op g = true ∧ g.noretx = false ∧
      (∀ e ∈ ((s.die? d).map (·.rfl.filter)).getD [], sameSeg g e = false) ∧
      (((s.die? d).map (·.rfl.filter)).getD []).length < 131072) : Arrives op d g s :=
  ⟨h.1, h.2.1, h.2.2.1, h.2.2.2.1, h.2.2.2.2⟩

theorem alone_of {d : Nat} {g : Seg} {s : State} (h : g.nseg = 1 ∧ ∀ h ∈ heldOn s d, sameMsg h.seg g = false) :
    Alone d g s :=
  ⟨h.1, h.2⟩

theorem serves_of {s : State} {ns x : Nat} {p : Pool}
    (h : s.pools.find? (fun q => (q.members ++ q.pending).any fun m => m.ns == ns && m.state != .failed) = some p ∧
      s.pool? p.num = some p ∧ p.members.findIdx? (fun m => m.ns == ns) = some x) : Serves s ns p x := h

theorem inv_of {s : State} (h : s.dies.length = s.id.part.dies ∧ (s.run.halted = true → 0 ∈ s.run.faultN) ∧
    (∀ x ∈ s.dies, memWf x.rfl.counters = true ∧ memWf x.rfl.mirror = true) ∧
    (∀ r ∈ s.refl.regions, memWf r.mem = true) ∧ ∀ w ∈ s.refl.wins, memWf w.mem = true) : Inv s :=
  ⟨h.1, h.2.1, h.2.2⟩

theorem getElem_all {α : Type} {l : List α} {P : Nat → α → Prop} (h : ∀ x ∈ l.zipIdx, P x.2 x.1) (j : Nat) (y : α)
    (e : l[j]? = some y) : P j y :=
  h (y, j) (List.mem_zipIdx_iff_getElem?.2 e)

theorem got {α : Type} {o : Option α} (h : o.isSome = true) : o = some (o.get h) := (Option.some_get h).symm

namespace Entries

def cT : Cmd := { ref := ⟨0,1,0⟩, op := .nop, entry := { ind := true, dlen := 1 }, buf := [], fn := 0, tenant := none, cls := 1, bell := 0, at_ := 0, stage := .table}
def cm : Cmd := { ref := ⟨0,2,5⟩, op := .write, entry := {vol := 5, tag := 77, nblk := 2}, buf := [], fn := 0, tenant := none, cls := 1, bell := 0, at_ := 0, stage := .stalled}
def rp (l : List (Nat×Nat)) (n : W32) := post (ent l n)
def wit1 : Post := post { ind := true, dlen := 16, tail := par [(44,0)] }
def wit2 : State := { up with rings := [{ ring 1 with head := 1 }], cmds := [{cT with op := .identify}] }
def wit6 : State := { up with rings := [{ ring 1 with head := 1 }], cmds := [cT] }
def wit9 : Post := post (ent [(44,2),(46,1),(47,1),(48,3),(50,0xFFFF),(52,0x4000)])
def wit12 : State := {up with rings := [ring 1, ring 2]}
def wit14 : Post := post (ent [(44,2),(46,255),(47,64),(48,0x82)])
def wit16 : Post := post (ent [(44,2),(46,77)])
def wit18 : State := {full with rings := [ring 1, ring 2], cmds := [{cm with past := true}]}
def wit21 : State := {full with rings := [ring 1, ring 2], cmds := [cm]}
def wit26 : State := {full with pools := [{pool with lost := [⟨5,1,2⟩,⟨5,7,2⟩]}]}
def wit28 : State := {full with tenants := [{num := 9}]}

end Entries

namespace Settings

def w1 : Win := ⟨0,0,1⟩
def nr : Ring := {ring 1 with notif := true, head := 5, notes := 5, ovf := true, bells := [], tail := 0}
def ev (s : State) : State := {s with dies := s.dies.map fun x => {x with evt := {x.evt with pend := [1,65,66]}}}
def xq (sel : W16) (arg : W32) : XchReq := ⟨0,0,1,9,sel,arg⟩
def wit1 : Post := sf [(44,1),(46,12),(48,25)]
def wit2 : Post := sf [(44,2),(48,1),(49,2),(50,3)]
def wit3 : Post := sf [(44,3),(48,100),(49,25)]
def wit4 : Post := sf [(44,4),(46,1),(48,96)]
def wit6 : Post := sf [(44,5),(46,1),(52,9)] 128 (zeros 128)
def wit8 : Post := sf [(44,7)] 32 (zeros 32)
def wit9 : Post := sf [(44,8),(46,0x4002),(48,255)]
def wit10 : Post := sf [(44,9),(46,5),(48,1)]
def wit12 : Post := sf [(44,10),(46,3),(48,65535)]
def wit14 : Post := sf [(44,11)] 64 (zeros 64)
def wit15 : State := {full with pw := {full.pw with chg := some ⟨3,0,0,some 0,none⟩}}
def wit18 : State := wait .setPowerState {full with pw := {full.pw with chg := some ⟨3,0,0,none,some ⟨0,1,0⟩⟩}}
def wit21 : State := {full with rings := [ring 1, {ring 1 with die := 1}], refl := {full.refl with eps := [{die := 1, ep := 3, fn := 0, tenant := none, vector := 0}]}}
def wit22 : State := {full with rings := [ring 1, {ring 1 with die := 1}], refl := {full.refl with eps := [{die := 0, ep := 3, fn := 0, tenant := none, vector := 0}]}}
def wit23 : State := {full with dies := [upDie DieSt.reset, DieSt.reset]}
def wit25 : Sys2Proof.Acc := {value := 0x20002}
def wit27 : Sys2Proof.Acc := {value := 0x50001}
def wit28 : Sys2Proof.Acc := {value := 5}
def wit29 : State := {full with rings := [nr]}
def wit31 : Sys2Proof.Acc := {value := 0x80000003}
def wit32 : Sys2Proof.Acc := {value := 6}
def wit33 : Sys2Proof.Acc := {value := 0x07200000}
def wit34 : State := {full with rings := [{ring 1 with head := 2, tail := 5}]}
def wit36 : Sys2Proof.Acc := {value := 0x07000000}
def wit37 : Sys2Proof.Acc := {value := 0x1C}
def wit39 : Sys2Proof.Acc := {value := 0x1D}
def wit40 : Sys2Proof.Acc := {value := 0x0C}
def wit41 : State := {full with fns := [{ die := 0, fn := 0, setupEn := true }], rings := [{ring 0 with setup := true}]}
def wit44 : Sys2Proof.Acc := {value := 0xD1E50001}
def wit45 : Sys2Proof.Acc := {value := 0x8000000000000000}
def wit47 : State := {full with fns := [{ die := 0, fn := 0, pba := [3] }]}
def wit49 : Sys2Proof.Acc := {value := 0xC0010005}
def wit52 : State := {full with tenants := [{num := 3}]}

end Settings

namespace Pooling

def cpBuf : Bytes := [0,0,0,1] ++ le 2 4 ++ [2,1,0,14,0] ++ zeros 5 ++ le 8 1 ++ zeros 40 ++ desc 20 ++ desc 21 ++ desc 22 ++ desc 23
def nss2 : State := {full with nss := full.nss ++ [nsp 20, nsp 21, nsp 22, nsp 23]}
def fail5 (f : Pool → Pool) : State := {full5 with pools := [f {pool5 with members := [on 10, on 11, {state := .failed, ns := 12, slot := some 0, cause := 1}, on 13, on 14]}]}
def late : State := {full5 with pools := [{pool5 with scrub := {pool5.scrub with period := 250000}}]}
def pl : Plan := { num := 9, geom := g5, remove := [], mitre := true, down := false, ot := geo.tb, nt := g5.tb, oldCap := geo.cap, newCap := g5.cap, highest := 1024, steps := 4, need := 0, avail := 0, copyBytes := 512*4096, copyLimit := 2^34, stepTicks := 1, moveBytes := 0}
def poolP : Pool := {pool with pending := [on 14], plan := some pl}
def rs (m : Bool) : Reshape := { plan := {pl with mitre := m, copyBytes := 0}, uid := 77, newNs := [10,11,12,13,14], beta := 0, endAt := geo.cap, startBeta := 0, startDown := false, down := false, undo := false, skipped := 0, reasons := [], tables := if m then [] else [(5,[2,3])], built := [], cancelling := false, cancellers := []}
def shp (y : Reshape) : State := {full5 with pools := [{poolP with reshape := some y}], vols := [vol]}
def wit1 : State := {full with vols := []}
def wit4 : Post := sf [(44,3)] 32 (desc 20)
def wit8 : Post := sf [(44,3),(46,1),(48,1)]
def wit12 : State := {full5 with pools := [{pool5 with pending := [on 20]}]}
def wit15 : Post := sf [(44,3),(46,2)] 32 (desc 20)
def wit27 : State := {full with cache := [cb 5 0, cb 5 700]}
def wit30 : State := fail5 fun q => {q with rebuild := {running := true}}
def wit32 : State := fail5 fun q => {q with rebuild := {running := true, paused := true}}
def wit36 : State := fail5 fun q => {q with rebuild := {running := true, resort := true}}
def wit39 : State := fail5 fun q => {q with listDirty := true, lost := [⟨5,0,3⟩]}
def wit41 : State := {fail5 id with pools := [{pool5 with members := [on 10, on 11, {state := .replacing, ns := 12, slot := some 0}, on 13, on 14], rebuild := {done := [(false,2,0),(false,2,1)]}}]}
def wit43 : Post := sf [(44,3),(46,3),(56,250000)]
def wit47 : State := {late with pools := [{pool5 with scrub := {pool5.scrub with period := 250000, running := true}}]}
def wit51 : State := shp {rs true with reasons := [0]}
def wit58 : State := shp {rs false with built := [2,3]}
def wit61 : State := shp {rs true with cancelling := true, undo := true, down := true, endAt := 0}

end Pooling

namespace Growing

def pl : Plan := { num := 9, geom := g5, remove := [], mitre := true, down := false, ot := geo.tb, nt := g5.tb, oldCap := geo.cap, newCap := g5.cap, highest := 1024, steps := 4, need := 0, avail := 0, copyBytes := 512*4096, copyLimit := 2^34, stepTicks := 1, moveBytes := 0}
def poolP : Pool := {pool with pending := [on 14], plan := some pl}
def wit1 : State := {full5 with pools := [poolP], vols := [vol]}

end Growing

namespace Planning

def fail5 (f : Pool → Pool) : State := {full5 with pools := [f {pool5 with members := [on 10, on 11, {state := .failed, ns := 12, slot := some 0, cause := 1}, on 13, on 14]}]}
def plBuf : Bytes := le 2 5 ++ [2,1,1,14] ++ zeros 506
def pl : Plan := { num := 9, geom := g5, remove := [], mitre := true, down := false, ot := geo.tb, nt := g5.tb, oldCap := geo.cap, newCap := g5.cap, highest := 1024, steps := 4, need := 0, avail := 0, copyBytes := 512*4096, copyLimit := 2^34, stepTicks := 1, moveBytes := 0}
def poolP : Pool := {pool with pending := [on 14], plan := some pl}
def rs (m : Bool) : Reshape := { plan := {pl with mitre := m, copyBytes := 0}, uid := 77, newNs := [10,11,12,13,14], beta := 0, endAt := geo.cap, startBeta := 0, startDown := false, down := false, undo := false, skipped := 0, reasons := [], tables := if m then [] else [(5,[2,3])], built := [], cancelling := false, cancellers := []}
def shp (y : Reshape) : State := {full5 with pools := [{poolP with reshape := some y}], vols := [vol]}
def img (n : Nat) : Bytes := zeros 20 ++ le 4 n ++ zeros 4072
def wit1 : State := {fail5 id with vols := [{vol with zero := []}], pw := {full.pw with pstate := 3}}
def wit2 : Post := sf [(44,6),(46,3),(48,0xFFFF),(52,1),(56,600)]
def wit5 : State := {full5 with pools := [{pool with pending := [on 14]}]}
def wit9 : Post := sf [(48,0)] 4096 (img 8192)
def wit10 : Post := sf [(48,0)] 4096 (img 4096)
def wit11 : Instr := .getEndpointUuid {}

end Planning

namespace Holders

def tn (s : State) : State := {s with tenants := [{num := 9}]}
def ep3 : Ep := {die := 0, ep := 3, fn := 0, tenant := none, vector := 0}
def A : W16 := epAddr 0 0 3
def B : W16 := epAddr 0 1 4
def eps (s : State) : State := {s with refl := {s.refl with eps := [ep3]}}
def rf (l : List (Nat×Nat)) (n : W32 := 0) (b : Bytes := []) : Post := sf ([(44,A.toNat),(46,B.toNat),(50,1)] ++ l) n b
def rg : Region := { die := 0, ep := 3, key := 1, gen := 255, host := none, len := 64, canRead := true, canWrite := true, canAtomic := true, revoking := false, waiters := [], mem := []}
def regs (l : List Region) (s : State) : State := {s with refl := {s.refl with regions := l}}
def qp : Qp := ⟨0, A, B, true⟩
def qps (s : State) : State := {s with refl := {s.refl with qps := [qp]}}
def im : Image := ⟨7,0,0⟩
def fwp (s : State) : State := {s with fw := {s.fw with imgB := some im, pend := some true}}
def fwa (n : Nat) (l : Bool) : State := {wait .firmwareActivate full with fw := {(fwp full).fw with active := true, loaded := l, flipped := n, cmd := some ⟨0,1,0⟩}}
def hold1 (x : DieSt) : DieSt := {x with recd := {x.recd with prewrite := [mkRec full 0 0x1200 {}], holding := []}}
def hold2 (x : DieSt) : DieSt := {x with recd := {x.recd with holding := [mkRec full 0 0x1200 {}], freezeOvf := 1}}
def frz : State := {full with dies := full.dies.map hold2, log := {full.log with frozen := true}}
def sec (s : State) : State := {s with log := {s.log with secret := some (zeros 32)}}
def chl (k : Nat) : State := {full with log := {full.log with secret := some (zeros 32), challenge := some ⟨5,1,1,0⟩, failures := k}}
def wit2 : State := {tn full with vols := [{vol with tenant := some 9}]}
def wit4 : Post := sf [(44,9),(46,0),(48,2)]
def wit5 : State := {tn full with rings := [ring 1, ring 2]}
def wit7 : Post := sf [(44,9),(46,1),(48,63)]
def wit8 : State := {tn full with rings := [ring 1, {ring 2 with fn := 63}]}
def wit9 : Post := sf [(44,9),(46,2),(48,A.toNat)]
def wit11 : Post := sf [(44,9),(48,2),(49,1),(50,1),(52,1),(56,77),(60,88)]
def wit13 : Post := sf [(44,3),(45,5),(46,3),(48,4096),(56,14999999)]
def wit14 : State := {tn full with vols := [{vol with enc := true, tenant := some 9}], cache := [cb 5 0]}
def wit16 : State := {tn full with tenants := [{num := 9, erasing := true}], vols := [{vol with enc := true, tenant := some 9, zero := []}], cache := [cb 5 0]}
def wit19 : Post := rf [(48,0),(52,262140)] 4
def wit20 : State := {eps full with refl := {(eps full).refl with wins := [{die := 0, reader := A, writer := B, arrivals := 0, mem := [(262141, 7)]}]}}
def wit22 : Post := rf [(48,0xFFFB)] 8192 (zeros 8192)
def wit23 : State := {eps full with dies := [upDie DieSt.reset, {upDie DieSt.reset with healthy := false}]}
def wit24 : Post := sf [(44,A.toNat),(46,15),(56,2^26)]
def wit26 : Post := sf [(44,A.toNat),(46,1)]
def wit28 : Post := sf [(44,A.toNat),(46,0),(50,5)]
def wit29 : State := regs [rg] (qps (eps full))
def wit30 : Post := sf [(44,A.toNat),(46,2)] 96
def wit31 : Post := sf [(44,A.toNat),(46,3),(48,B.toNat)]
def wit33 : State := regs [{rg with revoking := true, waiters := [⟨0,1,0⟩]}] (wait .revokeRegion (eps full))
def wit37 : State := {wait .firmwareDownload full with fw := {full.fw with loader := some ⟨0,1,0⟩, staged := [(0, zeros 4096)]}}
def wit44 : State := {full with dies := full.dies.map hold1}

end Holders

namespace Service

def pr (st : PairState) (s : State) : State := {s with id := {s.id with inPair := true}, pair := {s.pair with state := st, hbOk := true, holdIn := false}}
def rt (s : State) : State := {s with dies := s.dies.mapIdx fun i x => {x with retiring := i == 1}}
def wit1 : Post := sf [(44,1),(45,0x21),(46,1)]
def wit3 : Post := sf [(44,1),(45,0x21),(46,0)]
def wit5 : State := {full with dies := full.dies.map fun x => {x with hw := {x.hw with gf := [false,true]}}}
def wit7 : Post := sf [(44,1),(45,0x2B),(46,1)]
def wit9 : State := {full with dies := [upDie DieSt.reset, {upDie DieSt.reset with healthy := false, retired := true, keepRetired := true}]}
def wit11 : State := {full with pools := [{pool with home := 1, shadow := some 0}]}
def wit13 : State := {full with pools := [{pool with shadow := none}]}
def wit15 : State := {pr .separated full with pair := {(pr .separated full).pair with awaiting := true}}
def wit16 : State := rt {full with pools := [{pool with home := 1, shadow := some 0}, {pool with num := 4, home := 1, shadow := some 0}]}
def wit20 : State := {full with dies := full.dies.map fun x => {x with unrefreshed := 2}}
def wit22 : State := {full with dies := [{upDie DieSt.reset with healthy := false}, upDie DieSt.reset]}

end Service

namespace Windows

def D0 : DieSt := upDie DieSt.reset
def mst (m : MeterSt) : State := {full with clk := {full.clk with optime := 15000000}, tenants := [{num := 9}], vols := [{vol with tenant := some 9}], meter := m}
def m1 := mst {full.meter with ring := some (0x1000, 16)}

end Windows

namespace Ticking

def fol : State := {up with id := {up.id with pkgid := 1, inPair := true}}
def bst : State := {full with clk := {full.clk with tick := 16000000}, tenants := [{num := 9, qos := {opsRate := 1000, byteRate := 7, opsBurst := 64}}], rings := [ring 1, {ring 2 with tenant := some 9}, {ring 3 with die := 1, tenant := some 9}], buckets := [⟨0,9,5,6,7,8,9,10,400⟩, ⟨1,9,5,6,7,8,9,10,0⟩]}
def xs (f : FrameSt) : DieSt := {upDie DieSt.reset with frame := f}
def fs : FrameSt := DieSt.reset.frame
def xst (f : FrameSt) : State := {full with dies := [xs f, upDie DieSt.reset]}
def wit1 : State := xst {fs with intMiss := List.replicate 65 15999000}
def wit2 : DieSt := xs {fs with intMiss := List.replicate 65 15999000}
def wit3 : FrameSt := {fs with intMiss := List.replicate 65 15999000}
def wit4 : State := xst {fs with shed := true, intMiss := List.replicate 16 15900000}
def wit6 : State := xst {fs with shed := true, intMiss := List.replicate 66 15900000}
def wit8 : State := {fol with pair := {up.pair with state := .paired}, clk := {up.clk with noPulse := 4}}

end Ticking

namespace Starting

def D0 : DieSt := upDie DieSt.reset
def img : Image := ⟨7,0,3⟩
def ph (n : Nat) (s : State := full) : State := {s with run := {RunSt.reset with phase := n, fromPower := true}}
def je (b : JBody) : JEntry := ⟨1, 0, some 3, b⟩
def pf (s : State := full) (v := false) : State := {s with dies := [{D0 with vault := v, jr := {D0.jr with entries := [je (.powerHold (if v then 1 else 0) 0 0 0 0)]}}, D0], run := {full.run with pfail := some 15999950, pfReady := true}}
def ret (b : Bool) : State := {pf with run := {pf.run with pfReady := b, pfOff := some 15999740, pfEnd := some 15999750}, cmds := [cw .write], rings := [{ring 1 with head := 1}]}
def wit1 : State := {full with run := {RunSt.reset with powered := false}}
def wit4 : PhaseIn := {slotsOk := [false,false]}
def wit5 : State := {ph 1 with fw := {full.fw with imgA := some img}}
def wit6 : PhaseIn := {failedDies := [0]}
def wit8 : PhaseIn := {failedDies := [0,1]}
def wit9 : State := {full with cache := [cb 5 0]}
def wit15 : State := {full with pw := {full.pw with icap := 7, cool := 2500}}

end Starting

namespace Units

def D0 : DieSt := upDie DieSt.reset
def hwd (h : HwSt) : State := {full with dies := [{D0 with hw := h}, D0]}
def wit2 : State := hwd {D0.hw with nvSpare := 0, retrainFails := [1,0,1,0], sramCe := top32 }
def wit4 : State := hwd {D0.hw with nvSpare := 0, nvNone := true}

end Units

namespace Spares

def D0 : DieSt := upDie DieSt.reset
def hwd (h : HwSt) : State := {full with dies := [{D0 with hw := h}, D0]}
def noSp : State := hwd {D0.hw with cores := D0.hw.cores.map (fun j => if j = 9 then 0x0F else j)}
def ms : State := {full with  cache := [{cb 5 0 with mirrored := true}, cb 5 1, {cb 5 2 with dirty := false}], refl := {full.refl with regions := [{ die := 0, ep := 3, key := 1, gen := 255, host := none, len := 64, canRead := true, canWrite := true, canAtomic := true, revoking := false, waiters := [], mem := []}], wins := [{die := 0, reader := 3, writer := 4, arrivals := 0, mem := [(1,1)]}]}}

end Spares

namespace Pairing

def D0 : DieSt := upDie DieSt.reset
def silent (l : List Nat) (x : DieSt) : DieSt := {x with rfl := {x.rfl with hb := (List.range 8).map fun i => ⟨0,0,0,if l.contains i then 2 else 0⟩}}
def pr (p : PairSt) (a b : DieSt := D0) (s : State := full) : State := {s with dies := [a,b], id := {full.id with inPair := true}, pair := p}
def P0 : PairSt := {full.pair with state := .paired, hbOk := true, holdIn := true}
def lost0 : State := {full with dies := [{D0 with hold := false, yielded := some 2}, D0], cache := [{cb 5 0 with mirrored := true}], run := {full.run with phase := 8}}
def P1 : PairSt := {P0 with hbOk := false, lostAt := some 15999990}
def P2 : PairSt := {P1 with state := .survivor, shut := true, witness := some 13, contest := some 15999990}
def P3 : PairSt := {P0 with state := .survivor, okTicks := 25000, shut := true, witnessHeld := true}
def P4 : PairSt := {P1 with state := .survivor, holdIn := false, shut := false}
def sf3 (s : State) : State := {s with run := {s.run with readyAt := 15000000}}
def Dd : DieSt := {D0 with hw := {D0.hw with dryFails := [(1,1)]}}
def wit1 : State := {full with dies := [silent [1] D0, D0]}
def wit2 : State := pr P0 (silent [0] D0) (silent [1] D0)
def wit3 : State := pr P0 (silent [0] D0) D0 {full with cache := [cb 5 0]}
def wit4 : State := {lost0 with pw := {full.pw with pstate := 2}}
def wit7 : State := pr {P1 with yieldSeen := true}
def wit8 : State := pr {P1 with witness := some 13}
def wit11 : State := pr {P2 with acquiring := true}
def wit12 : State := pr {P1 with wireFault := true, wireAgree := 250000}
def wit13 : State := pr {P3 with rejoinAt := some 15999999}
def wit15 : State := sf3 (pr {P4 with witness := some 13})
def wit17 : State := {full with dies := [Dd, D0]}
def wit19 : State := pr {P0 with witness := some 13}
def wit20 : State := {full with feat := {full.feat with healthAddr := 0x1000}}

end Pairing

namespace Caching

def wk (n : Nat) (e : Entry := {vol := 5, nblk := 2}) (op : Op := .write) : Cmd := { ref := ⟨0,1,0⟩, op := op, entry := {e with nblk := BitVec.ofNat 32 n}, buf := List.replicate (n*4096) 7, fn := 0, tenant := none, cls := 1, bell := 0, at_ := 0, stage := .working, clamp := true, seq := 0}
def wst (c : Cmd) (s : State := full) : State := {s with rings := [{ring 1 with head := 1}], cmds := [c]}

end Caching

namespace Writing

def D0 : DieSt := upDie DieSt.reset
def pq : Pool := {pool with queued := [0, 4, 7]}
def dn : State := {full with cache := [cb 5 0, {cb 5 1 with since := 15999750}], vols := [{vol with zero := [1]}], pools := [pq]}
def je (j : Nat) (b : JBody) (p : Option Nat := some 3) : JEntry := ⟨j, 0, p, b⟩
def uc := JBody.unitCommit 5 1 0 1 1 0 1 2 0
def Dj (l : List JEntry) (f : JournalSt → JournalSt := id) : DieSt := {D0 with jr := f {D0.jr with entries := l, next := 344070}}
def jst (x : DieSt) : State := {full with dies := [x, D0]}
def xa : DieSt := Dj [je 5 uc, je 6 (.anchor 1 1 0 0) none, je 7 uc]
def sg (i : Nat) : Segment := ⟨3, i, 1, 2, [0,1,2], [0,0,0], []⟩
def mc (p : Purpose) (w : Bool) : MCmd := { id := 9, ns := 11, pool := some 3, member := 1, path := 0, isWrite := w, lba := 33000, data := [], purpose := p, at_ := 1 }
def mst (m : MCmd) (s : State := full) : State := {s with mcmds := [m]}
def ft : Fetch := { key := 2, lba := 0, stripe := 0, newGeom := false, pos := 1, off := 0, cons := false, good := [], bad := [] }
def rdc : Cmd := { ref := ⟨0,1,0⟩, op := .read, entry := {vol := 5, nblk := 1}, buf := [], fn := 0, tenant := none, cls := 1, bell := 0, at_ := 0, stage := .working, clamp := true, fetches := [ft] }
def fst_ : State := mst (mc (.fetch ⟨0,1,0⟩ 2 1) false) {full with rings := [{ring 1 with head := 1}], cmds := [rdc], vols := [{vol with zero := []}]}
def wit1 : State := {dn with vols := [vol], cache := [cb 5 600]}
def wit3 : State := jst (Dj [je 5 uc, je 7 uc] fun j => {j with segs := (List.range 64).map sg})
def wit5 : State := jst (Dj [je 5 uc, je 7 uc] fun j => {j with segs := (List.range 48).map sg, full := true})
def wit9 : State := {jst {D0 with vault := true, rateV := 5, holdUp := 100} with cache := [cb 5 0]}
def wit11 : State := {jst (Dj [je 5 uc, je 7 uc] fun j => {j with segs := [sg 0]}) with pools := [{pool with members := pool.members.set 1 {on 11 with state := .failed}}]}
def wit12 : Pool := {pool with members := pool.members.set 1 {on 11 with state := .failed}}
def wit15 : State := {full with clk := {full.clk with optime := 29999000}}

end Writing

namespace Driving

def mc (p : Purpose) (w : Bool) : MCmd := { id := 9, ns := 11, pool := some 3, member := 1, path := 0, isWrite := w, lba := 33000, data := [], purpose := p, at_ := 1 }
def mst (m : MCmd) (s : State := full) : State := {s with mcmds := [m]}
def ft : Fetch := { key := 2, lba := 0, stripe := 0, newGeom := false, pos := 1, off := 0, cons := false, good := [], bad := [] }
def rdc : Cmd := { ref := ⟨0,1,0⟩, op := .read, entry := {vol := 5, nblk := 1}, buf := [], fn := 0, tenant := none, cls := 1, bell := 0, at_ := 0, stage := .working, clamp := true, fetches := [ft] }
def fst_ : State := mst (mc (.fetch ⟨0,1,0⟩ 2 1) false) {full with rings := [{ring 1 with head := 1}], cmds := [rdc], vols := [{vol with zero := []}]}
def ds : Destage := { id := 4, pool := 3, newGeom := false, stripe := 0, jsn := 1, gen := 1, method := 0, recon := false, repair := false, first := 0, count := 1, snap := [(cb 5 0,0,0)], absent := [], reading := true, got := [], bad := [], asked := [(0,0)], cls := 1 }
def wst_ : State := mst (mc (.destage 4 0 0) true)
def I11 : NsInfo := (nsp 11).info
def wit3 : State := {mst (mc (.destage 4 0 0) false) with destages := [ds]}
def wit6 : State := mst (mc (.repair false 1 2 3) true)
def wit8 : State := mst (mc (.format ⟨0,1,0⟩ 1 false) true) (wait .createPool full)
def wit11 : State := {full with nss := [{nsp 11 with up := [1]}]}
def wit13 : NsInfo := {I11 with nguid := 77}

end Driving

namespace Segments

def A : W16 := epAddr 0 0 3
def B : W16 := epAddr 0 1 4
def epl : List Ep := [{die := 0, ep := 3, fn := 0, tenant := none, vector := 0},{die := 1, ep := 4, fn := 0, tenant := none, vector := 0}]
def rg : Region := { die := 0, ep := 3, key := 1, gen := 1, host := none, len := 64, canRead := true, canWrite := true, canAtomic := true, revoking := false, waiters := [], mem := [(0,5),(8,1),(63,9)]}
def wn : Exch := { die := 0, reader := A, writer := B, arrivals := 2^64-1, mem := [(3,1)] }
def rs (r : Region := rg) : State := {full with refl := {full.refl with eps := epl, regions := [r], wins := [wn], qps := [⟨0, A, B, false⟩]}}
def sg (op : Byte) (pl : Bytes) (off : W64 := 0) (key : W16 := 1) : Seg := { op := op, src := B, dst := A, key := key, offset := off, payload := pl, notify := true }
def w8 := sg 1 [1,2,3,4,5,6,7,8] 56
def r8 : Seg := {sg 2 [] 0 with aux := 64}
def ad : Seg := sg 4 (le 8 (2^64-1)) 0
def cd : Seg := {sg 4 (le 8 3) 8 0xFFFC with dst := epAddr 0 0 0, src := epAddr 1 0 0}
def prs (s : State) : State := {s with id := {s.id with inPair := true}}
def wd : Seg := sg 1 [9,9,9,9] 0 0
def hb : Seg := {sg 4 (le 8 1) 16 0xFFFE with dst := epAddr 0 0 0, src := epAddr 1 1 0, noretx := true, aux := 5}
def rc (op : Op) (n : W32) : Cmd := {cw op with stage := .working, entry := {dlen := n, tail := par [(52, n.toNat)]}}
def msg (op : Nat) (n : Nat) : Msg := { die := 0, msgno := 7, cmd := some ⟨0,1,0⟩, isResp := false, op := op, src := A, dst := B, segs := [{sg (BitVec.ofNat 8 op) [] with src := A, dst := B, msgno := 7, aux := BitVec.ofNat 32 n}], acked := [0], first := 1, again := [], resp := [], respN := 0, answered := false, result := 0 }
def ws (op : Op) (m : Msg) (n : W32) : State := {rs with rings := [{ring 1 with head := 1}], cmds := [rc op n], refl := {rs.refl with msgs := [m], qps := [⟨0,A,B,false⟩]}}
def rd3 : Seg := { sg 3 (zeros 64) with resp := true, msgno := 7 }
def mu (op n : Nat) : Msg := {msg op n with acked := []}
def ac (l : Bytes) (n : Nat := 0) : Seg := {sg 8 l with msgno := 7, segno := n}
def rf (a : W32) : Seg := {sg 9 [] with msgno := 7, aux := a}
def m2 : Msg := {mu 1 64 with segs := List.replicate 3 {sg 1 [] with src := A, dst := B, msgno := 7}}
def wit1 : Instr := .segWrite 0 (sg 1 (zeros 7) 60)
def wit3 : State := rs {rg with host := some 0x1000}
def wit9 : State := ws .reflectRead (msg 2 64) 64
def wit11 : Seg := {sg 6 (le 8 99) with resp := true, msgno := 7}
def wit12 : State := ws .reflectAdd (msg 4 8) 0
def wit14 : State := ws .reflectWrite (mu 1 64) 64
def wit18 : State := ws .reflectWrite {m2 with isResp := true, cmd := none} 64

end Segments

namespace Links

def D0 : DieSt := upDie DieSt.reset
def A : W16 := epAddr 0 0 3
def B : W16 := epAddr 0 1 4
def sg (op : Byte) (pl : Bytes) (off : W64 := 0) (key : W16 := 1) : Seg := { op := op, src := B, dst := A, key := key, offset := off, payload := pl, notify := true }
def lk (f : LinkSt → LinkSt) : State := {full with dies := [{D0 with link := f D0.link}, D0]}
def act (l : LinkSt) : LinkSt := {l with state := .active, width := 16, lanes := 16, rxNext := 5, txNext := 9, kept := List.replicate 4 [], credits := 3}
def fl : Flit := { idle := false, fseq := 5, ackseq := 6, nak := true, cred := 2, crcOk := true }
def ct : Ctl := {lane := 15, pkgid := 1, die := 0, width := 4, version := 1, credits := 99}
def old (st : LinkState) (n : Nat) (l : LinkSt) : LinkSt := {l with state := st, since := 1, alignTries := n, width := 8}
def wit1 : Instr := .segWrite 0 (sg 1 (zeros 8) 60)
def wit4 : State := lk fun l => {act l with naks := 16}
def wit6 : State := lk fun l => {l with state := .align, aligned := List.range 14}
def wit8 : Ctl := {ct with pkgid := 0}
def wit9 : State := lk fun l => {l with state := .align, aligned := List.range 15}
def wit11 : State := lk fun l => {l with state := .config, aligned := List.range 16}
def wit13 : State := lk fun l => {l with state := .recover, aligned := List.range 16, gotConfig := true}
def wit15 : Ctl := {ct with width := 7}
def wit16 : State := lk fun l => {l with state := .config, aligned := List.range 16, gotConfig := true}
def wit18 : State := lk fun l => {act l with lanes := 3}

end Links

namespace Sending

def D0 : DieSt := upDie DieSt.reset
def M : Mctp := {}
def al : State := {full with dies := [D0, {D0 with evt := {D0.evt with pend := [3,200], routes := [{src := 3, alerten := true}]}}]}
def wit1 : Mctp := {good := false}
def wit2 : Instr := .getStatus {good := false}

end Sending

namespace Bounds

def D0 : DieSt := upDie DieSt.reset
def hwd (h : HwSt) : State := {full with dies := [{D0 with hw := h}, D0]}
def vf1 : State := {up with rings := [{ring 1 with fn := 1}], fns := up.fns ++ [{die := 0, fn := 1}]}
def io (l n : Nat) : Post := post {vol := 5, lba := BitVec.ofNat 64 l, nblk := BitVec.ofNat 32 n, dlen := BitVec.ofNat 32 (n * 4096)}
def iz (l n : Nat) : Post := post {vol := 5, lba := BitVec.ofNat 64 l, nblk := BitVec.ofNat 32 n}
def vfx : State := {full with fns := full.fns ++ [{die := 0, fn := 1}]}
def fol : State := {up with id := {up.id with pkgid := 1, inPair := true}}
def ph (n : Nat) (s : State := full) : State := {s with run := {RunSt.reset with phase := n, fromPower := true}}
def ds : Destage := { id := 4, pool := 3, newGeom := false, stripe := 0, jsn := 1, gen := 1, method := 0, recon := false, repair := true, first := 0, count := 1, snap := [], absent := [], reading := true, got := [], bad := [], asked := [(0,0)], cls := 1 }
def je (b : JBody) : JEntry := ⟨1, 0, some 3, b⟩
def pfv : State := {full with dies := [{D0 with vault := true, jr := {D0.jr with entries := [je (.powerHold 1 0 0 0 0)]}}, D0], run := {full.run with pfail := some 15999997, pfReady := true}}
def Df : DieSt := {D0 with recd := {D0.recd with faultArea := [⟨0x3001,1,0,{},false,false,1,1,1⟩,⟨0x3002,1,0,{},false,false,1,1,2⟩], fdrop := 255}}
def pq : Pool := {pool with queued := [0, 4, 7]}
def cx : CBlk := {cb 5 1 with since := 15999750, data := []}
def dn : State := {full with cache := [{cb 5 0 with data := []}, cx], vols := [{vol with zero := [1]}], pools := [pq]}
def wit1 : Post := post { own := false }
def wit2 : Machine.Ring := {ring 1 with fn := 1}
def wit3 : Post := post {}
def wit4 : Post := post {vol := 0xFFFF}
def wit5 : Sys2Proof.Acc := {width := 32, value := 3}
def wit6 : State := {full with meter := {full.meter with ring := some (0x1000, 16), dhead := 3}}
def wit7 : Sys2Proof.Acc := {width := 32, value := 4}
def wit8 : XchReq := {port := 0, fn := 1, window := 0, seq := 9, sel := 3, arg := 0}
def wit9 : Instr := .xchPoolStatus {port := 0, fn := 1, window := 0, seq := 9, sel := 3, arg := 0}
def wit10 : State := {fol with pair := {up.pair with state := .paired}, clk := {up.clk with noPulse := 4}}
def wit11 : State := {ph 6 with destages := [ds]}
def wit14 : State := hwd {D0.hw with gf := [false,true]}
def wit16 : State := hwd {D0.hw with aes := [false,false,true,false]}
def wit20 : State := hwd {D0.hw with eye := [(3,3),(4,2)]}
def wit24 : State := {full with dies := [Df, D0]}
def wit26 : State := hwd {D0.hw with retrainFails := [1,0,1,0]}
def wit28 : State := {full with dies := [{D0 with link := {D0.link with state := .equalise}}, D0]}

end Bounds


namespace More

def abt : Post := post { ent [(44,1),(46,77)] with tag := 77 }
def D0 : DieSt := upDie DieSt.reset
def cutDie : State := { full with dies := [D0, { D0 with hw := { D0.hw with cut := 2 } }] }
def tab : State :=
  { full with rings := [{ ring 1 with head := 1 }], cmds := [{ Entries.cT with op := .write, entry := { ind := true, dlen := 1, vol := 5, lba := 1023, nblk := 1 } }] }
def inStep : State := { Bounds.wit10 with clk := { Bounds.wit10.clk with seen := true } }
def hdr : Flit := { idle := true, fseq := 0, ackseq := 0, nak := false, cred := 0, crcOk := true }
def nine : State := { full with nss := full.nss ++ [nsp 20] }
def pending : Pool := { pool with pending := [on 14] }
def pend : State := { full with nss := full.nss ++ [nsp 14], pools := [pending] }
def drains : State := { full with fns := [{ die := 0, fn := 0 }], rings := [{ ring 0 with setup := true, state := .disabled, tail := 3, head := 1 }] }
def dark : State := { full with run := { full.run with phase := 2 } }
def standby : State := { Pairing.lost0 with pools := [{ pool with home := 1, shadow := some 0 }] }
def nowhere : State := { Pairing.lost0 with dies := Pairing.lost0.dies.map fun x => { x with hold := false }, pools := [{ pool with shadow := none }], nss := full.nss.map fun n => { n with up := [0] } }
def wr : Post := { Bounds.io 1022 2 with buf := List.replicate 8192 7 }
def dzed : State := { full with vols := [{ vol with dz := true }] }
def behind : State := { full with seq := 1, rings := [ring 1, { ring 2 with head := 1 }], cmds := [{ cw .write with ref := ⟨0, 2, 0⟩, entry := { vol := 5, lba := 1023, nblk := 1 }, stage := .working, clamp := true }] }
def jfull : State := { full with dies := [{ D0 with jr := { D0.jr with full := true } }, D0] }

end More

namespace Fresh

def away : Pool := { pool with home := 1, shadow := some 0 }
def awayS : State := { full with pools := [away] }
def tabT : State := { More.tab with pools := [away] }
def tabC : State := { Entries.wit6 with cmds := [{ Entries.cT with op := .createPool, fn := 5 }] }
def wrOut : State :=
  { Segments.ws .reflectWrite (Segments.mu 1 64) 64 with rings := [{ ring 1 with head := 1 }], refl := { Segments.rs.refl with msgs := [Segments.mu 1 64] } }
def msgs64 : State := { Holders.eps full with refl := { (Holders.eps full).refl with msgs := List.replicate 64 { Segments.mu 1 8 with die := 0, src := Holders.A, dst := Holders.B } } }
def own (s : State) : State := { s with dies := s.dies.map fun x => { x with rfl := { x.rfl with sys := [{ Segments.m2 with cmd := none }] } } }
def act (s : State) : State := { s with dies := s.dies.map fun x => { x with link := Links.act x.link } }
def rebS : State :=
  Pooling.fail5 fun q => { q with rebuild := { running := true, records := [⟨[(false, 2, 0), (false, 2, 1), (false, 2, 2), (false, 2, 3)], [], 0, 0, 0⟩] } }
def locked (s : State) : State :=
  { s with pools := s.pools.map fun q => { q with lock := some { lo := 0, hi := 512, since := 15999999, cls := 3, tile := 0, new := true, jsn := 0, done := false, hold := 0 } } }
def bare (s : State) : State := { s with vols := [] }
def live : State := { full with fw := { full.fw with active := true } }
def handS : State := { full with pools := [{ pool with taken := true }], cmds := [{ Entries.cm with past := true }] }
def toldC (m : Option W32) : Cmd := { Entries.cm with ref := ⟨0, 1, 5⟩, stage := .waiting, op := .createTenant, told := some ⟨7, [1], m⟩ }
def toldS (st : PairState) (m : Option W32) : State := { Service.pr st full with cmds := [toldC m] }
def remB (m : Option W32) : CBlk := { cb 5 0 with data := zeros 8, remote := some 0, asked := m }
def remS (m : Option W32) : State := act { Service.pr .paired Writing.dn with cache := [remB m] }
def remG : Seg := { Segments.rd3 with src := epAddr 1 0 0, dst := epAddr 0 0 0, payload := zeros 8 }

def backS : State :=
  { up with rings := [ring 1, { ring 2 with backs := [⟨{ Entries.cm with ref := ⟨0, 2, 5⟩ }, 0, {}, 16000000⟩] }] }
def fillV : Vol := { vol with zero := [1], filling := [1] }
def fillS : State := { full with vols := [fillV], pools := [Writing.pq] }
def big : Ns := { nsp 20 with info := { (nsp 20).info with capacity := 2 ^ 30 } }
def bigS : State := { full with nss := full.nss ++ [big] }
def oneWay : State := { full with nss := full.nss ++ [{ nsp 20 with info := { (nsp 20).info with dies := [0] }, up := [0] }] }
def tenR : Machine.Ring := { ring 1 with tenant := some 9 }
def tenS : State := { full with tenants := [{ num := 9 }], rings := [tenR] }
def backs (k : Nat) : State := { Holders.fwa 8 true with fw := { (Holders.fwa 8 true).fw with back := some (0, k) } }
def lostP : Pool := { pool with home := 1, shadow := some 0 }
def lostS : State := { full with pools := [lostP], pair := { full.pair with lostOwn := [1] } }
def narrow : State :=
  { full with dies := [{ Bounds.D0 with link := { Bounds.D0.link with state := .equalise }, hw := { Bounds.D0.hw with lanesRetired := (List.range 13).map (40 + ·) } }, Bounds.D0] }
def failing : State := { full with run := { full.run with pfail := some 15999999 } }
def at2 (s : State) : State := { s with run := { s.run with pfail := some 15999998 } }
def chgS : State := { full with pw := { full.pw with chg := some ⟨3, 0, 0, none, some ⟨0, 1, 9⟩⟩ } }
def noWork : State := { full5 with pools := [{ pool5 with rebuild := { running := true, resort := true } }] }
def copying : State :=
  { Pooling.wit41 with pools := Pooling.wit41.pools.map fun q => { q with rebuild := { q.rebuild with jobs := [⟨false, 1, some 2, [], []⟩] } } }
def badWin : State :=
  { Holders.wit20 with refl := { Holders.wit20.refl with wins := Holders.wit20.refl.wins.map fun w => { w with bad := true } } }
def drained : State := Holders.regs [{ Holders.rg with revoking := true, drained := true, waiters := [⟨0, 1, 0⟩] }] (wait .revokeRegion (Holders.eps full))
def written : State :=
  { locked (Pooling.shp (Pooling.rs true)) with pools := (locked (Pooling.shp (Pooling.rs true))).pools.map fun q => { q with lock := q.lock.map fun k => { k with written := true } } }
def lastTile : State := { Pooling.wit47 with pools := Pooling.wit47.pools.map fun q => { q with scrub := { q.scrub with tile := 1 } } }
def shutG : Seg := { Links.sg 3 (zeros 8) 60 with resp := true, src := epAddr 1 0 3 }
def shutS : State := { act (Segments.prs full) with pair := { full.pair with shut := true } }
def coldLoss : State := { Pairing.wit7 with pw := { full.pw with pstate := 2 } }
def xfer (k : Nat) : Xfer := { origin := .host 5 0, data := [], crc := internalCrc (.host 5 0) [] + k }
def run (k : Nat) : AesRun :=
  { key := [], vol := 5, lba := 0, enc := true, output := [], crc := internalCrc (.host 5 0) (Config.decrypt [] 0 5 []) + k }

end Fresh

/-! ### Witnesses: each statement's hypotheses, clause by clause, met by concrete values -/

/-- Obligations.AbortAnswers. -/
theorem witness_AbortAnswers :
    (∃ (p : Post) (r x : Machine.Ring) (s : State), Direct Op.abort p r s ∧ s.ring? (bits (arg p 44 2) 11 0 / 512) (bits
      (arg p 44 2) 11 0 % 512) = some x ∧ x.fn = r.fn ∧ x.die = r.die ∧ x.notif = false ∧ (∀ c ∈ s.cmds, c.ref.die = x.die →
      c.ref.ring = x.idx → c.entry.tag.toNat ≠ arg p 46 2) ∧ (x.idx ≠ r.idx ∨ p.entry.tag.toNat ≠ arg p 46 2) ∧ ∀ b ∈
      x.backs, b.cmd.entry.tag.toNat ≠ arg p 46 2) ∧
    (∃ (p : Post) (r x : Machine.Ring) (s : State) (b : Back), Direct Op.abort p r s ∧ s.ring? (bits (arg p 44 2) 11 0 /
      512) (bits (arg p 44 2) 11 0 % 512) = some x ∧ List.find? (fun b => b.cmd.entry.tag.toNat == arg p 46 2) x.backs = some
      b ∧ x.fn = r.fn ∧ x.die = r.die ∧ x.notif = false ∧ (∀ c ∈ s.cmds, c.ref.die = x.die → c.ref.ring = x.idx →
      c.entry.tag.toNat ≠ arg p 46 2) ∧ (x.idx ≠ r.idx ∨ p.entry.tag.toNat ≠ arg p 46 2)) ∧
    (∃ (p : Post) (r x : Machine.Ring) (s : State), Direct Op.abort p r s ∧ s.ring? (bits (arg p 44 2) 11 0 / 512) (bits
      (arg p 44 2) 11 0 % 512) = some x ∧ x.fn = r.fn ∧ x.die = r.die ∧ x.notif = false ∧ (∀ c ∈ s.cmds, c.ref.die = x.die →
      c.ref.ring = x.idx → c.entry.tag.toNat ≠ arg p 46 2) ∧ x.idx = r.idx ∧ p.entry.tag.toNat = arg p 46 2) ∧
    (∃ (p : Post) (r x : Machine.Ring) (s : State) (c : Cmd), Direct Op.abort p r s ∧ s.ring? (bits (arg p 44 2) 11 0 /
      512) (bits (arg p 44 2) 11 0 % 512) = some x ∧ List.find? (fun d => d.ref.die == x.die && d.ref.ring == x.idx &&
      d.entry.tag.toNat == arg p 46 2) s.cmds = some c ∧ x.fn = r.fn ∧ x.die = r.die ∧ x.notif = false ∧ c.past = true) ∧
    (∃ (p : Post) (r x : Machine.Ring) (s : State) (c : Cmd), Direct Op.abort p r s ∧ s.ring? (bits (arg p 44 2) 11 0 /
      512) (bits (arg p 44 2) 11 0 % 512) = some x ∧ List.find? (fun d => d.ref.die == x.die && d.ref.ring == x.idx &&
      d.entry.tag.toNat == arg p 46 2) s.cmds = some c ∧ x.fn = r.fn ∧ x.die = r.die ∧ x.notif = false ∧ c.past = false) :=
  ⟨⟨Entries.wit16, (ring 1), _, Entries.wit12, direct_of (by decide +kernel), got (by decide +kernel), by decide +kernel⟩,
   ⟨Entries.wit16, (ring 1), _, Fresh.backS, _, direct_of (by decide +kernel), got (by decide +kernel), got
    (by decide +kernel), by decide +kernel⟩,
   ⟨More.abt, (ring 1), _, up, direct_of (by decide +kernel), got (by decide +kernel), by decide +kernel⟩,
   ⟨Entries.wit16, (ring 1), _, Entries.wit18, _, direct_of (by decide +kernel), got (by decide +kernel), got
    (by decide +kernel), by decide +kernel⟩,
   ⟨Entries.wit16, (ring 1), _, Entries.wit21, _, direct_of (by decide +kernel), got (by decide +kernel), got
    (by decide +kernel), by decide +kernel⟩⟩

/-- Obligations.CacheWorks. -/
theorem witness_CacheWorks :
    (∃ (c : CmdRef) (s : State) (k : Cmd) (v : Vol) (p : Pool) (j : Nat) (bs : List Nat), s.cmd? c = some k ∧ s.vol?
      (k.entry.vol.toNat) = some v ∧ unitJsn s p k = j ∧ unitBlocks p v k k.units = bs ∧ s.pool? v.pool = some p ∧ mayProtect
      s p v k = true) ∧
    (∃ (s : State) (p : Pool) (n : Nat) (b : CBlk × Nat × Nat), s.pool? p.num = some p ∧ canDestage s p = true ∧ b ∈
      stripeDirty s p (decide (2 ^ 47 ≤ n)) (n % 2 ^ 47) ∧ b.1.since + p.age ≤ s.clk.tick) ∧
    (∃ (s : State) (p : Pool) (n : Nat) (new : Bool) (st : Nat) (snap : List (CBlk × Nat × Nat)), decide (2 ^ 47 ≤ n) = new
      ∧ n % 2 ^ 47 = st ∧ stripeDirty s p new st = snap ∧ s.pool? p.num = some p ∧ canDestage s p = true ∧ n < 2 ^ 48 ∧
      s.pw.pstate < 2 ∧ s.pair.contest = none ∧ n ∈ p.queued ∧ intentsOf s p.home < 16384 ∧ (∀ d ∈ s.destages, ¬(d.pool =
      p.num ∧ d.newGeom = new ∧ d.stripe = st)) ∧ stripeHeld s p new st snap = false ∧ journalRoom s p.home = true ∧ snap =
      []) ∧
    (∃ (s : State) (p : Pool) (n : Nat) (new : Bool) (st : Nat) (snap : List (CBlk × Nat × Nat)) (x : CBlk × Nat × Nat) (e
      : Nat), decide (2 ^ 47 ≤ n) = new ∧ n % 2 ^ 47 = st ∧ stripeDirty s p new st = snap ∧ s.pool? p.num = some p ∧
      canDestage s p = true ∧ n < 2 ^ 48 ∧ s.pw.pstate < 2 ∧ s.pair.contest = none ∧ n ∈ p.queued ∧ intentsOf s p.home <
      16384 ∧ (∀ d ∈ s.destages, ¬(d.pool = p.num ∧ d.newGeom = new ∧ d.stripe = st)) ∧ stripeHeld s p new st snap = false ∧
      journalRoom s p.home = true ∧ snap = [x] ∧ x.1.remote = some e ∧ x.1.asked = none ∧ s.pair.state = PairState.paired ∧ e
      ∉ s.pair.lostDies ∧ x.1 ∈ s.cache ∧ homeOfBlk s x.1 = some p.home ∧ sendsTo s (epAddr s.partner e 0) = true ∧ msgsFull
      s p.home (epAddr s.id.pkgid p.home 0) (epAddr s.partner e 0) = false ∧ ∀ (y : DieSt), s.die? p.home = some y →
      y.rfl.sysWait = []) ∧
    (∃ (s : State) (p : Pool) (n : Nat) (new : Bool) (st : Nat) (snap : List (CBlk × Nat × Nat)), decide (2 ^ 47 ≤ n) = new
      ∧ n % 2 ^ 47 = st ∧ stripeDirty s p new st = snap ∧ s.pool? p.num = some p ∧ canDestage s p = true ∧ n < 2 ^ 48 ∧
      s.pw.pstate < 2 ∧ s.pair.contest = none ∧ n ∈ p.queued ∧ intentsOf s p.home < 16384 ∧ (∀ d ∈ s.destages, ¬(d.pool =
      p.num ∧ d.newGeom = new ∧ d.stripe = st)) ∧ stripeHeld s p new st snap = false ∧ journalRoom s p.home = true ∧ snap ≠
      [] ∧ ∀ x ∈ snap, x.1.remote = none) ∧
    (∃ (s : State) (p : Pool) (v : Vol) (i : Nat), s.pool? p.num = some p ∧ canDestage s p = true ∧ s.vol? v.num = some v ∧
      v.pool = p.num ∧ mayFill s p v i = true) ∧
    (∃ (s : State) (p : Pool) (v : Vol) (i : Nat), s.pool? p.num = some p ∧ canDestage s p = true ∧ s.vol? v.num = some v ∧
      v.pool = p.num ∧ s.vols = [v] ∧ v.filling = [i] ∧ filled s v i = true) :=
  ⟨⟨⟨0,1,0⟩, (Caching.wst (Caching.wk 1)), _, _, pool, _, _, got (by decide +kernel), got (by decide +kernel), rfl, rfl,
    by decide +kernel⟩,
   ⟨Bounds.dn, Bounds.pq, 0, (Bounds.cx, 0, 1), by decide +kernel⟩,
   ⟨Writing.dn, Writing.pq, 7, _, _, _, rfl, rfl, rfl, by decide +kernel⟩,
   ⟨(Fresh.remS none), Writing.pq, 0, _, _, _, (Fresh.remB none, 0, 0), 0, rfl, rfl, rfl, by decide +kernel⟩,
   ⟨Writing.dn, Writing.pq, 0, _, _, _, rfl, rfl, rfl, by decide +kernel⟩,
   ⟨Writing.wit1, Writing.pq, vol, 1, by decide +kernel⟩,
   ⟨Fresh.fillS, Writing.pq, Fresh.fillV, 1, by decide +kernel⟩⟩

/-- Obligations.CapsGivenWhole. -/
theorem witness_CapsGivenWhole :
    ∃ (cap : Nat) (l : List (Nat × Nat)) (x : Nat × Nat), l ≠ [] ∧ l.length ≤ 16 ∧ (List.map (fun x => x.1) l).Nodup ∧ x ∈
      divideCap cap l ∧ l.length * ((cap + 15) / 16) ≤ cap :=
  ⟨1000, [(0,5),(1,0),(2,7)], (1,63), by decide +kernel⟩

/-- Obligations.CreateRingMakesRing. -/
theorem witness_CreateRingMakesRing :
    ∃ (p : Post) (r : Machine.Ring) (s : State) (i w : Nat), Permitted Op.createRing p r s ∧ freeIndex s r.die r.fn = some
      i ∧ freeWindow (startOf Op.createRing p r s) r.die r.fn i = some w ∧ ringFieldsOk (startOf Op.createRing p r s) (cmdOf
      Op.createRing p r s) = true :=
  ⟨Entries.wit9, (ring 1), up, _, _, permitted_of (by decide +kernel), got (by decide +kernel), got (by decide +kernel),
    by decide +kernel⟩

/-- Obligations.DeallocateWithoutZeros. -/
theorem witness_DeallocateWithoutZeros :
    (∃ (p : Post) (r : Machine.Ring) (s : State) (v : Vol) (q : Pool), Direct Op.deallocate p r s ∧ s.vol?
      (p.entry.vol.toNat) = some v ∧ v.deleting = none ∧ v.dz = false ∧ s.pool? v.pool = some q ∧ permits (cmdOf
      Op.deallocate p r s) v = true ∧ ioCheck s (cmdOf Op.deallocate p r s) v = none ∧ q.home = r.die ∧ mayGo s (cmdOf
      Op.deallocate p r s) = true ∧ journalFull s q.home = false ∧ poolHeld s q = false ∧ (∀ d ∈ s.cmds, d.clamp = true →
      d.entry.vol ≠ p.entry.vol) ∧ ∀ (k : StepLock), q.lock = some k → inRange v (cmdOf Op.deallocate p r s) k.lo k.hi =
      false) ∧
    (∃ (p : Post) (r : Machine.Ring) (s : State) (v : Vol) (q : Pool), Direct Op.deallocate p r s ∧ s.vol?
      (p.entry.vol.toNat) = some v ∧ v.deleting = none ∧ v.dz = false ∧ s.pool? v.pool = some q ∧ permits (cmdOf
      Op.deallocate p r s) v = true ∧ ioCheck s (cmdOf Op.deallocate p r s) v = none ∧ q.home ≠ r.die ∧ ringBehind s (cmdOf
      Op.deallocate p r s) = false) :=
  ⟨⟨(Bounds.iz 1023 1), R, full, vol, pool, direct_of (by decide +kernel), by decide +kernel⟩,
   ⟨(Bounds.iz 1023 1), R, Fresh.awayS, vol, Fresh.away, direct_of (by decide +kernel), by decide +kernel⟩⟩

/-- Obligations.DeleteRingRemoves. -/
theorem witness_DeleteRingRemoves :
    ∃ (p : Post) (r x : Machine.Ring) (s : State), Permitted Op.deleteRing p r s ∧ s.ring? (arg p 44 2 / 512) (arg p 44 2 %
      512) = some x ∧ x.fn = r.fn ∧ x.die = r.die ∧ x.setup = false ∧ x.idx ≠ r.idx ∧ x.state = RingState.enabled ∧ x.notif =
      false ∧ x.deleters = [] ∧ inflight s x = 0 :=
  ⟨(post (ent [(44,2)])), (ring 1), _, Entries.wit12, permitted_of (by decide +kernel), got (by decide +kernel),
    by decide +kernel⟩

/-- Obligations.DieMemoryKept. -/
theorem witness_DieMemoryKept :
    ∃ (c : Instr) (s t : State), exec c s = Host.Outcome.next t :=
  ⟨.indexRebuilt, up, up, rfl⟩

/-- Obligations.DiesLeave. -/
theorem witness_DiesLeave :
    (∃ (s : State) (n h : Nat) (q : Pool), s.pool? n = some q ∧ moveTo s q = some h ∧ s.on = true ∧ s.running = true ∧
      q.away = false ∧ Option.any (fun x => x.retiring) (s.die? q.home) = true ∧ (Option.any s.alive q.shadow = true →
      copiedOut s q = true) ∧ (∃ k ∈ poolsOn s q.home, k ≠ n) ∧ h ≠ q.home) ∧
    (∃ (s : State) (d : Nat) (x : DieSt), s.die? d = some x ∧ s.on = true ∧ x.alive = true ∧ s.run.halted = false ∧ 2 ≤
      x.hw.cut ∧ 2 < s.run.phase) ∧
    (∃ (s : State) (d : Nat) (x : DieSt), s.die? d = some x ∧ s.on = true ∧ x.alive = true ∧ s.run.halted = false ∧ x.hold
      = true ∧ 2 ≤ x.unrefreshed) ∧
    (∃ (s : State) (d : Nat) (x : DieSt), s.die? d = some x ∧ s.on = true ∧ x.alive = true ∧ s.run.halted = false ∧ x.hold
      = true ∧ x.unrefreshed < 2) ∧
    (∃ (s : State) (d : Nat), s.aliveDies.head? = some d ∧ s.on = true ∧ s.alive s.id.lead = false ∧ 2 < s.run.phase) :=
  ⟨⟨Service.wit16, 3, _, _, got (by decide +kernel), got (by decide +kernel), by decide +kernel⟩,
   ⟨More.cutDie, 1, _, got (by decide +kernel), by decide +kernel⟩,
   ⟨Service.wit20, 1, _, got (by decide +kernel), by decide +kernel⟩,
   ⟨full, 1, _, got (by decide +kernel), by decide +kernel⟩,
   ⟨Service.wit22, _, got (by decide +kernel), by decide +kernel⟩⟩

/-- Obligations.DoorbellsTaken. -/
theorem witness_DoorbellsTaken :
    (∃ (w : Win) (a : Sys2Proof.Acc) (r : Machine.Ring) (s : State), winRing s w = some r ∧ s.ring? r.die r.idx = some r ∧
      actsAll s w.port = true ∧ a.whole = true ∧ r.state = RingState.enabled ∧ r.notif = false ∧ doorbellOk r (a.field 31 31
      == 1) (a.field 19 17) (a.field 16 16) (a.field 15 0) = true) ∧
    (∃ (w : Win) (a : Sys2Proof.Acc) (r : Machine.Ring) (s : State), winRing s w = some r ∧ s.ring? r.die r.idx = some r ∧
      actsAll s w.port = true ∧ a.whole = true ∧ r.state = RingState.enabled ∧ r.notif = false ∧ doorbellOk r (a.field 31 31
      == 1) (a.field 19 17) (a.field 16 16) (a.field 15 0) = false) ∧
    (∃ (w : Win) (a : Sys2Proof.Acc) (r : Machine.Ring) (s : State) (used : Nat), winRing s w = some r ∧ distance r.size
      ((r.head + 2 * r.size - r.notes) % (2 * r.size)) (a.field 16 16 * r.size + a.field 15 0) = used ∧ s.ring? r.die r.idx =
      some r ∧ actsAll s w.port = true ∧ a.whole = true ∧ r.state = RingState.enabled ∧ r.notif = true ∧ a.field 15 0 <
      r.size ∧ a.field 19 17 = 0 ∧ used ≤ r.notes ∧ a.field 31 31 = 0) ∧
    (∃ (w : Win) (a : Sys2Proof.Acc) (r : Machine.Ring) (s : State) (used : Nat), winRing s w = some r ∧ distance r.size
      ((r.head + 2 * r.size - r.notes) % (2 * r.size)) (a.field 16 16 * r.size + a.field 15 0) = used ∧ s.ring? r.die r.idx =
      some r ∧ actsAll s w.port = true ∧ a.whole = true ∧ r.state = RingState.enabled ∧ r.notif = true ∧ a.field 15 0 <
      r.size ∧ a.field 19 17 = 0 ∧ used ≤ r.notes ∧ a.field 31 31 = 1) ∧
    (∃ (w : Win) (a : Sys2Proof.Acc) (r : Machine.Ring) (s : State) (used : Nat), winRing s w = some r ∧ distance r.size
      ((r.head + 2 * r.size - r.notes) % (2 * r.size)) (a.field 16 16 * r.size + a.field 15 0) = used ∧ s.ring? r.die r.idx =
      some r ∧ actsAll s w.port = true ∧ a.whole = true ∧ r.state = RingState.enabled ∧ r.notif = true ∧ r.notes < used) :=
  ⟨⟨Settings.w1, Settings.wit25, _, full, got (by decide +kernel), by decide +kernel⟩,
   ⟨Settings.w1, Settings.wit27, _, full, got (by decide +kernel), by decide +kernel⟩,
   ⟨Settings.w1, Settings.wit28, _, Settings.wit29, _, got (by decide +kernel), rfl, by decide +kernel⟩,
   ⟨Settings.w1, Settings.wit31, _, Settings.wit29, _, got (by decide +kernel), rfl, by decide +kernel⟩,
   ⟨Settings.w1, Settings.wit32, _, Settings.wit29, _, got (by decide +kernel), rfl, by decide +kernel⟩⟩

/-- Obligations.EveryCommandRuns. -/
theorem witness_EveryCommandRuns :
    ∃ (s : State), Machine.Inv s :=
  ⟨full, inv_of (by decide +kernel)⟩

/-- Obligations.ExchangeAnswers. -/
theorem witness_ExchangeAnswers :
    (∃ (x : XchReq) (s : State), actsSome s x.port = true ∧ x.window < xchWindows s x.port x.fn ∧ x.sel = 0 ∧ x.arg = 0) ∧
    (∃ (x : XchReq) (s : State) (q : Pool), s.pool? (x.sel.toNat) = some q ∧ actsSome s x.port = true ∧ x.window <
      xchWindows s x.port x.fn ∧ s.isPf x.port x.fn = true ∧ (x.arg = 0 ∨ x.arg = 256)) ∧
    (∃ (x : XchReq) (s : State) (q : Pool), s.pool? (x.sel.toNat) = some q ∧ actsSome s x.port = true ∧ x.window <
      xchWindows s x.port x.fn ∧ s.isPf x.port x.fn = true ∧ x.arg.toNat < 65536) ∧
    (∃ (x : XchReq) (s : State), actsSome s x.port = true ∧ x.window < xchWindows s x.port x.fn ∧ s.isPf x.port x.fn = true
      ∧ x.sel = 0 ∧ x.arg.toNat % 256 = 0 ∧ x.arg.toNat < 4096) ∧
    (∃ (x : XchReq) (s : State), actsSome s x.port = true ∧ x.window < xchWindows s x.port x.fn ∧ s.isPf x.port x.fn = true
      ∧ x.sel = 0 ∧ s.log.indexing = false) ∧
    (∃ (x : XchReq) (s : State) (m : Tenant), s.tenant? (x.sel.toNat) = some m ∧ actsSome s x.port = true ∧ x.window <
      xchWindows s x.port x.fn ∧ x.arg = 0 ∧ (s.isPf x.port x.fn = true ∨ ((s.fn? x.port x.fn).bind fun x => x.tenant) = some
      (x.sel.toNat))) ∧
    (∃ (x : XchReq) (s : State) (c : Instr), actsSome s x.port = true ∧ x.window < xchWindows s x.port x.fn ∧ s.isPf x.port
      x.fn = false ∧ c ∈ [Instr.xchPoolStatus x, Instr.xchMemberStatus x, Instr.xchHealthReport x, Instr.xchLogRead x]) :=
  ⟨⟨(Settings.xq 0 0), full, by decide +kernel⟩,
   ⟨(Settings.xq 3 256), full, _, got (by decide +kernel), by decide +kernel⟩,
   ⟨(Settings.xq 3 256), full, _, got (by decide +kernel), by decide +kernel⟩,
   ⟨(Settings.xq 0 0), full, by decide +kernel⟩,
   ⟨(Settings.xq 0 0), full, by decide +kernel⟩,
   ⟨(Settings.xq 3 0), Settings.wit52, _, got (by decide +kernel), by decide +kernel⟩,
   ⟨Bounds.wit8, Bounds.vfx, Bounds.wit9, by decide +kernel⟩⟩

/-- Obligations.FeaturesSet, part 1. -/
theorem witness_FeaturesSet_1 :
    (∃ (p : Post) (r : Machine.Ring) (s : State) (f : Feats), Permitted Op.setFeature p r s ∧ s.feat.next.getD s.feat.now =
      f ∧ arg p 44 1 = 1 ∧ arg p 46 2 < 13 ∧ arg p 48 1 ≤ 25) ∧
    (∃ (p : Post) (r : Machine.Ring) (s : State) (f : Feats), Permitted Op.setFeature p r s ∧ s.feat.next.getD s.feat.now =
      f ∧ arg p 44 1 = 1 ∧ arg p 46 2 = 65535 ∧ arg p 48 1 ≤ 25) ∧
    (∃ (p : Post) (r : Machine.Ring) (s : State) (f : Feats), Permitted Op.setFeature p r s ∧ s.feat.next.getD s.feat.now =
      f ∧ arg p 44 1 = 2 ∧ arg p 46 2 = 0 ∧ 1 ≤ arg p 48 1 ∧ 1 ≤ arg p 49 1 ∧ 1 ≤ arg p 50 1) ∧
    (∃ (p : Post) (r : Machine.Ring) (s : State) (f : Feats), Permitted Op.setFeature p r s ∧ s.feat.next.getD s.feat.now =
      f ∧ arg p 44 1 = 3 ∧ arg p 46 2 = 0 ∧ arg p 48 1 ≤ 100 ∧ 1 ≤ arg p 49 1 ∧ arg p 49 1 ≤ 25) ∧
    (∃ (p : Post) (r : Machine.Ring) (s : State) (x : DieSt), Permitted Op.setFeature p r s ∧ s.die? (arg p 46 2) = some x
      ∧ arg p 44 1 = 4 ∧ arg p 46 2 ≠ 65535 ∧ 1 ≤ arg p 48 2 ∧ arg p 48 2 ≤ 3 * ddrGib x / 8 ∧ dirtyBytes s (arg p 46 2) ≤
      arg p 48 2 * 2 ^ 30) ∧
    (∃ (p : Post) (r : Machine.Ring) (s : State), Permitted Op.setFeature p r s ∧ (∀ (d : Nat) (x : DieSt), s.die? d = some
      x → arg p 48 2 ≤ 3 * ddrGib x / 8 ∧ dirtyBytes s d ≤ arg p 48 2 * 2 ^ 30) ∧ arg p 44 1 = 4 ∧ arg p 46 2 = 65535 ∧
      s.dies ≠ [] ∧ 1 ≤ arg p 48 2) ∧
    (∃ (p : Post) (r : Machine.Ring) (s : State) (ds : List Nat), Permitted Op.setFeature p r s ∧ (if arg p 46 2 = 65535
      then s.dieIdx else [arg p 46 2]) = ds ∧ arg p 44 1 = 5 ∧ ds ≠ [] ∧ (∀ d ∈ ds, (s.die? d).isSome = true) ∧
      p.entry.dlen.toNat = 128 ∧ arg p 48 1 = 0 ∧ arg p 49 1 = 0 ∧ ∀ i < 4, fieldAt (slice p.buf (32 * i) 32) 16 1 = 0) ∧
    (∃ (p : Post) (r : Machine.Ring) (s : State) (ds : List Nat) (l : List Bytes) (ns : List Ns), Permitted Op.setFeature p
      r s ∧ (if arg p 46 2 = 65535 then s.dieIdx else [arg p 46 2]) = ds ∧ List.filter (fun b => fieldAt b 16 1 != 0)
      (List.map (fun i => slice p.buf (32 * i) 32) (List.range 4)) = l ∧ arg p 44 1 = 5 ∧ ds ≠ [] ∧ (∀ d ∈ ds, (s.die?
      d).isSome = true) ∧ p.entry.dlen.toNat = 128 ∧ arg p 48 1 = 1 ∧ 64 < arg p 52 4 ∧ l ≠ [] ∧ l.length = arg p 49 1 ∧ (∀ b
      ∈ l, fieldAt b 16 1 ≤ 2) ∧ List.map (findNs s) l = List.map some ns ∧ ∀ d ∈ ds, ∀ n ∈ ns, nsUse s (vaultReach s d) 3
      (some n) = none ∧ (Option.map (fun x => x.protGib * 2 ^ 30 + 2 ^ 25) (s.die? d)).getD 0 ≤ nsBytes n) ∧
    (∃ (p : Post) (r : Machine.Ring) (s : State), Permitted Op.setFeature p r s ∧ arg p 44 1 = 6 ∧ arg p 46 2 = 0 ∧ arg p
      48 8 % 4096 = 0) ∧
    (∃ (p : Post) (r : Machine.Ring) (s : State), Permitted Op.setFeature p r s ∧ arg p 44 1 = 7 ∧ arg p 46 2 = 0 ∧
      p.entry.dlen.toNat = 32 ∧ fieldAt p.buf 16 1 = 0) ∧
    (∃ (p : Post) (r : Machine.Ring) (s : State) (n : Ns), Permitted Op.setFeature p r s ∧ findNs s p.buf = some n ∧ arg p
      44 1 = 7 ∧ arg p 46 2 = 0 ∧ p.entry.dlen.toNat = 32 ∧ 1 ≤ fieldAt p.buf 16 1 ∧ fieldAt p.buf 16 1 ≤ 2 ∧ nsUse s [] 4
      (some n) = none ∧ 2 ≤ (List.filter n.reaches s.dieIdx).length) ∧
    (∃ (p : Post) (r : Machine.Ring) (s : State) (n : Ns), Permitted Op.setFeature p r s ∧ findNs s p.buf = some n ∧ arg p
      44 1 = 7 ∧ arg p 46 2 = 0 ∧ p.entry.dlen.toNat = 32 ∧ 1 ≤ fieldAt p.buf 16 1 ∧ fieldAt p.buf 16 1 ≤ 2 ∧ nsUse s [] 4
      (some n) = none ∧ (List.filter n.reaches s.dieIdx).length < 2) :=
  ⟨⟨Settings.wit1, (ring 1), full, _, permitted_of (by decide +kernel), rfl, by decide +kernel⟩,
   ⟨(sf [(44,1),(46,65535),(48,25)]), (ring 1), full, _, permitted_of (by decide +kernel), rfl, by decide +kernel⟩,
   ⟨Settings.wit2, (ring 1), full, _, permitted_of (by decide +kernel), rfl, by decide +kernel⟩,
   ⟨Settings.wit3, (ring 1), full, _, permitted_of (by decide +kernel), rfl, by decide +kernel⟩,
   ⟨Settings.wit4, (ring 1), full, _, permitted_of (by decide +kernel), got (by decide +kernel), by decide +kernel⟩,
   ⟨(sf [(44,4),(46,65535),(48,96)]), (ring 1), full, permitted_of (by decide +kernel), getElem_all (by decide +kernel),
    by decide +kernel⟩,
   ⟨Settings.wit6, (ring 1), full, _, permitted_of (by decide +kernel), rfl, by decide +kernel⟩,
   ⟨(sf [(44,5),(48,1),(49,1),(52,100)] 128 (desc 20 ++ zeros 96)), (ring 1), Fresh.bigS, _, _, [Fresh.big], permitted_of
    (by decide +kernel), rfl, rfl, by decide +kernel⟩,
   ⟨(sf [(44,6),(48,4096)]), (ring 1), full, permitted_of (by decide +kernel), by decide +kernel⟩,
   ⟨Settings.wit8, (ring 1), full, permitted_of (by decide +kernel), by decide +kernel⟩,
   ⟨(sf [(44,7)] 32 (desc 20)), (ring 1), full5, _, permitted_of (by decide +kernel), got (by decide +kernel),
    by decide +kernel⟩,
   ⟨(sf [(44,7)] 32 (desc 20)), (ring 1), Fresh.oneWay, _, permitted_of (by decide +kernel), got (by decide +kernel),
    by decide +kernel⟩⟩

/-- Obligations.FeaturesSet, part 2. -/
theorem witness_FeaturesSet_2 :
    (∃ (p : Post) (r : Machine.Ring) (s : State), Permitted Op.setFeature p r s ∧ arg p 44 1 = 8 ∧ unlimited (arg p 46 2) =
      false) ∧
    (∃ (p : Post) (r : Machine.Ring) (s : State) (v : Vol), Permitted Op.setFeature p r s ∧ s.vol? (arg p 46 2) = some v ∧
      arg p 44 1 = 9 ∧ permits (cmdOf Op.setFeature p r s) v = true ∧ arg p 48 1 ≤ 1) ∧
    (∃ (p : Post) (r : Machine.Ring) (s : State) (v : Vol), Permitted Op.setFeature p r s ∧ s.vol? (arg p 46 2) = some v ∧
      arg p 44 1 = 9 ∧ permits (cmdOf Op.setFeature p r s) v = false) ∧
    (∃ (p : Post) (r : Machine.Ring) (s : State), Permitted Op.setFeature p r s ∧ arg p 44 1 = 10 ∧ (s.pool? (arg p 46
      2)).isSome = true ∧ 1 ≤ arg p 48 2) ∧
    (∃ (p : Post) (r : Machine.Ring) (s : State) (good : Bool), Permitted Op.setFeature p r s ∧
      (match s.log.secret with | none => slice p.buf 32 32 == zeros 32 && s.isPf r.die r.fn && (s.ringTenant r).isNone | some k => slice p.buf 32 32 == Config.hmac k (slice p.buf 0 32))
      = good ∧ arg p 44 1 = 11 ∧ arg p 46 2 = 0 ∧ p.entry.dlen.toNat = 64 ∧ good = true) ∧
    (∃ (p : Post) (r : Machine.Ring) (s : State) (good : Bool), Permitted Op.setFeature p r s ∧ arg p 44 1 = 11 ∧ arg p 46
      2 = 0 ∧ p.entry.dlen.toNat = 64 ∧
      (match s.log.secret with | none => slice p.buf 32 32 == zeros 32 && s.isPf r.die r.fn && (s.ringTenant r).isNone | some k => slice p.buf 32 32 == Config.hmac k (slice p.buf 0 32))
      = good ∧ good = false) ∧
    (∃ (p : Post) (r : Machine.Ring) (s : State), Permitted Op.setFeature p r s ∧ ((arg p 44 1 = 0 ∨ 11 < arg p 44 1) ∨ arg
      p 44 1 = 1 ∧ (13 ≤ arg p 46 2 ∧ arg p 46 2 ≠ 65535 ∨ 25 < arg p 48 1) ∨ arg p 44 1 = 2 ∧ (arg p 46 2 ≠ 0 ∨ arg p 48 1 =
      0 ∨ arg p 49 1 = 0 ∨ arg p 50 1 = 0) ∨ arg p 44 1 = 3 ∧ (arg p 46 2 ≠ 0 ∨ 100 < arg p 48 1 ∨ arg p 49 1 = 0 ∨ 25 < arg
      p 49 1) ∨ arg p 44 1 = 4 ∧ arg p 48 2 = 0 ∨ arg p 44 1 = 6 ∧ (arg p 46 2 ≠ 0 ∨ arg p 48 8 % 4096 ≠ 0) ∨ arg p 44 1 = 8
      ∧ unlimited (arg p 46 2) = true ∨ arg p 44 1 = 9 ∧ s.vol? (arg p 46 2) = none ∨ arg p 44 1 = 10 ∧ (s.pool? (arg p 46 2)
      = none ∨ arg p 48 2 = 0))) :=
  ⟨⟨Settings.wit9, (ring 1), full, permitted_of (by decide +kernel), by decide +kernel⟩,
   ⟨Settings.wit10, (ring 1), full, _, permitted_of (by decide +kernel), got (by decide +kernel), by decide +kernel⟩,
   ⟨Settings.wit10, Fresh.tenR, Fresh.tenS, _, permitted_of (by decide +kernel), got (by decide +kernel), by decide +kernel⟩,
   ⟨Settings.wit12, (ring 1), full, permitted_of (by decide +kernel), by decide +kernel⟩,
   ⟨Settings.wit14, (ring 1), full, _, permitted_of (by decide +kernel), rfl, by decide +kernel⟩,
   ⟨(sf [(44,11)] 64 (zeros 32 ++ List.replicate 32 1)), (ring 1), full, false, permitted_of (by decide +kernel),
    by decide +kernel⟩,
   ⟨(sf [(44,0)]), (ring 1), full, permitted_of (by decide +kernel), by decide +kernel⟩⟩

/-- Obligations.FirmwareAdvances. -/
theorem witness_FirmwareAdvances :
    (∃ (p : Post) (r : Machine.Ring) (s : State) (old all : List (Nat × Bytes)) (got lim : Nat), Permitted
      Op.firmwareDownload p r s ∧ (if arg p 48 4 = 0 then [] else s.fw.staged) = old ∧ old ++ [(arg p 48 4, padTo
      (p.entry.dlen.toNat) p.buf)] = all ∧ contiguous all.length all 0 = got ∧ (stagedLength all).getD imageMax = lim ∧ arg p
      48 4 % 4096 = 0 ∧ 4 ≤ p.entry.dlen.toNat ∧ p.entry.dlen.toNat ≤ 1048576 ∧ s.fw.loader = none ∧ lim ≤ imageMax ∧
      disagrees old (arg p 48 4) (padTo (p.entry.dlen.toNat) p.buf) = false ∧ (∀ x ∈ all, x.1 + List.length x.2 ≤ lim) ∧
      stagedLength all ≠ some got) ∧
    (∃ (p : Post) (r : Machine.Ring) (s : State) (old all : List (Nat × Bytes)) (got lim : Nat), Permitted
      Op.firmwareDownload p r s ∧ (if arg p 48 4 = 0 then [] else s.fw.staged) = old ∧ old ++ [(arg p 48 4, padTo
      (p.entry.dlen.toNat) p.buf)] = all ∧ contiguous all.length all 0 = got ∧ (stagedLength all).getD imageMax = lim ∧ arg p
      48 4 % 4096 = 0 ∧ 4 ≤ p.entry.dlen.toNat ∧ p.entry.dlen.toNat ≤ 1048576 ∧ s.fw.loader = none ∧ lim ≤ imageMax ∧
      disagrees old (arg p 48 4) (padTo (p.entry.dlen.toNat) p.buf) = false ∧ (∀ x ∈ all, x.1 + List.length x.2 ≤ lim) ∧
      stagedLength all = some got) ∧
    (∃ (p : Post) (r : Machine.Ring) (s : State) (b : Bool), Permitted Op.firmwareActivate p r s ∧ s.fw.pend = some b ∧
      s.fw.active = false ∧ bits (arg p 44 1) 0 0 = 1) ∧
    (∃ (p : Post) (r : Machine.Ring) (s : State) (i : Image), Permitted Op.firmwareActivate p r s ∧ s.fw.pendImg = some i ∧
      s.fw.active = false ∧ bits (arg p 44 1) 0 0 = 0 ∧ s.pw.pstate < 2 ∧ s.pair.state ≠ PairState.separated ∧ s.pair.kerf =
      none ∧ i.compat.toNat ≤ s.id.runVer.toNat) ∧
    (∃ (s : State) (c : CmdRef) (b : Bytes) (st : W16), s.fw.loader = some c ∧ stagedBytes s.fw.staged 0 (contiguous
      s.fw.staged.length s.fw.staged 0) = b ∧ imageStatus (s.fw.minSvn.toNat) b = some st ∧ s.running = true ∧ (s.die?
      s.id.lead).isSome = true ∧ s.fw.active = false ∧ (s.cmd? c).isSome = true ∧ (s.ring? c.die c.ring).isSome = true ∧
      Option.any (fun x => x.linkUp) (s.die? c.die) = true) ∧
    (∃ (s : State), s.running = true ∧ (s.die? s.id.lead).isSome = true ∧ s.fw.active = true ∧ s.fw.loaded = false) ∧
    (∃ (s : State), s.running = true ∧ (s.die? s.id.lead).isSome = true ∧ s.fw.active = true ∧ s.fw.loaded = true ∧
      s.fw.back = none ∧ s.fw.flipBase + 4 * s.fw.flipped ≤ s.clk.tick ∧ (0 < s.fw.flipped → s.fw.flipAt < s.clk.tick) ∧
      s.fw.flipped < 9) ∧
    (∃ (s : State) (b : Bool) (i : Image), s.fw.pend = some b ∧ s.fw.slot b = some i ∧ s.running = true ∧ (s.die?
      s.id.lead).isSome = true ∧ s.fw.active = true ∧ s.fw.loaded = true ∧ s.fw.back = none ∧ s.fw.flipBase + 4 *
      s.fw.flipped ≤ s.clk.tick ∧ (0 < s.fw.flipped → s.fw.flipAt < s.clk.tick) ∧ s.fw.flipped = 9) ∧
    (∃ (s : State) (n k : Nat), s.running = true ∧ (s.die? s.id.lead).isSome = true ∧ s.fw.back = some (n, k) ∧ 1 < k) ∧
    (∃ (s : State) (n k : Nat) (b : Bool) (c : CmdRef), s.fw.pend = some b ∧ s.fw.cmd = some c ∧ s.running = true ∧ (s.die?
      s.id.lead).isSome = true ∧ s.fw.back = some (n, k) ∧ k ≤ 1 ∧ (s.cmd? c).isSome = true ∧ (s.ring? c.die c.ring).isSome =
      true ∧ Option.any (fun x => x.linkUp) (s.die? c.die) = true) :=
  ⟨⟨Planning.wit9, R, full, _, _, _, _, permitted_of (by decide +kernel), rfl, rfl, rfl, rfl, by decide +kernel⟩,
   ⟨Planning.wit10, R, full, _, _, _, _, permitted_of (by decide +kernel), rfl, rfl, rfl, rfl, by decide +kernel⟩,
   ⟨(sf [(44,1)]), R, (Holders.fwp full), _, permitted_of (by decide +kernel), got (by decide +kernel), by decide +kernel⟩,
   ⟨(sf [(44,0)]), R, (Holders.fwp full), _, permitted_of (by decide +kernel), got (by decide +kernel), by decide +kernel⟩,
   ⟨Holders.wit37, _, _, _, got (by decide +kernel), rfl, got (by decide +kernel), by decide +kernel⟩,
   ⟨(Holders.fwa 0 false), by decide +kernel⟩,
   ⟨(Holders.fwa 8 true), by decide +kernel⟩,
   ⟨(Holders.fwa 9 true), _, _, got (by decide +kernel), got (by decide +kernel), by decide +kernel⟩,
   ⟨(Fresh.backs 3), 0, 3, by decide +kernel⟩,
   ⟨(Fresh.backs 1), 0, 1, _, _, got (by decide +kernel), got (by decide +kernel), by decide +kernel⟩⟩

/-- Obligations.FlushWithNothingDirty. -/
theorem witness_FlushWithNothingDirty :
    (∃ (op : Op) (p : Post) (r : Machine.Ring) (s : State), Direct op p r s ∧ (op = Op.flush ∨ op = Op.flushMedia) ∧
      p.entry.vol = 65535 ∧ (∀ b ∈ s.cache, b.dirty = false) ∧ (∀ q ∈ s.pools, q.offline = none) ∧ ∀ q ∈ s.pools, poolHeld s
      q = false) ∧
    (∃ (op : Op) (p : Post) (r : Machine.Ring) (s : State) (q : Pool), Direct op p r s ∧ (op = Op.flush ∨ op =
      Op.flushMedia) ∧ p.entry.vol = 65535 ∧ q ∈ s.pools ∧ poolHeld s q = true ∧ ∃ v ∈ s.vols, v.pool = q.num ∧ v.deleting =
      none ∧ ((s.ringTenant r).isSome = true → v.tenant = s.ringTenant r)) :=
  ⟨⟨.flush, Bounds.wit4, R, full, direct_of (by decide +kernel), by decide +kernel⟩,
   ⟨.flush, Bounds.wit4, R, Fresh.lostS, Fresh.lostP, direct_of (by decide +kernel), by decide +kernel⟩⟩

/-- Obligations.ForbiddenControlFails. -/
theorem witness_ForbiddenControlFails :
    ∃ (op : Op) (p : Post) (r : Machine.Ring) (s : State) (st : W16), Direct op p r s ∧ isControl op = true ∧ permission
      (startOf op p r s) (cmdOf op p r s) = some st :=
  ⟨.createTenant, (post (ent [(44,9)])), Bounds.wit2, Bounds.vf1, 0x101, direct_of (by decide +kernel), by decide +kernel⟩

/-- Obligations.FragmentTables. -/
theorem witness_FragmentTables :
    (∃ (ref : CmdRef) (c : Cmd) (r : Machine.Ring) (s : State) (frags : List Frag) (buf : Bytes) (d : Cmd) (k : Nat),
      s.cmd? ref = some c ∧ s.ring? ref.die ref.ring = some r ∧ { c with buf := buf, frags := frags, stage := Stage.planned }
      = d ∧ tableCause c.entry frags = some k ∧ s.running = true ∧ Option.any (fun x => x.linkUp) (s.die? ref.die) = true ∧
      c.stage = Stage.table ∧ frags.length = c.entry.dlen.toNat) ∧
    (∃ (ref : CmdRef) (c : Cmd) (r : Machine.Ring) (s : State) (frags : List Frag) (buf : Bytes) (d : Cmd), s.cmd? ref =
      some c ∧ s.ring? ref.die ref.ring = some r ∧ { c with buf := buf, frags := frags, stage := Stage.planned } = d ∧
      s.running = true ∧ Option.any (fun x => x.linkUp) (s.die? ref.die) = true ∧ c.stage = Stage.table ∧ frags.length =
      c.entry.dlen.toNat ∧ tableCause c.entry frags = none ∧ c.op = Op.nop) ∧
    (∃ (ref : CmdRef) (c : Cmd) (r : Machine.Ring) (s : State) (frags : List Frag) (buf : Bytes) (d : Cmd) (st : W16),
      s.cmd? ref = some c ∧ s.ring? ref.die ref.ring = some r ∧ { c with buf := buf, frags := frags, stage := Stage.planned }
      = d ∧ permission s d = some st ∧ s.running = true ∧ Option.any (fun x => x.linkUp) (s.die? ref.die) = true ∧ c.stage =
      Stage.table ∧ frags.length = c.entry.dlen.toNat ∧ tableCause c.entry frags = none ∧ isControl c.op = true) ∧
    (∃ (ref : CmdRef) (c : Cmd) (r : Machine.Ring) (s : State) (frags : List Frag) (buf : Bytes) (d : Cmd) (v : Vol) (q :
      Pool), s.cmd? ref = some c ∧ s.ring? ref.die ref.ring = some r ∧
      { c with buf := buf, frags := frags, stage := Stage.planned } = d ∧ s.pool? v.pool = some q ∧ s.running = true ∧
      Option.any (fun x => x.linkUp) (s.die? ref.die) = true ∧ c.stage = Stage.table ∧ frags.length = c.entry.dlen.toNat ∧
      tableCause c.entry frags = none ∧ (c.op = Op.write ∨ c.op = Op.writeZeroes ∨ c.op = Op.deallocate ∧ v.dz = true) ∧
      s.vol? (c.entry.vol.toNat) = some v ∧ v.deleting = none ∧ permits d v = true ∧ ioCheck s d v = none ∧ (c.op = Op.write
      → writeCheck d v = none) ∧ q.home = ref.die ∧ mayGo s d = true ∧ journalFull s q.home = false ∧ poolHeld s q = false ∧
      clampHolds q v (clampedIn d s) s = false) ∧
    (∃ (ref : CmdRef) (c : Cmd) (r : Machine.Ring) (s : State) (frags : List Frag) (buf : Bytes) (d : Cmd) (v : Vol) (q :
      Pool), s.cmd? ref = some c ∧ s.ring? ref.die ref.ring = some r ∧
      { c with buf := buf, frags := frags, stage := Stage.planned } = d ∧ s.pool? v.pool = some q ∧ s.running = true ∧
      Option.any (fun x => x.linkUp) (s.die? ref.die) = true ∧ c.stage = Stage.table ∧ frags.length = c.entry.dlen.toNat ∧
      tableCause c.entry frags = none ∧ (c.op = Op.write ∨ c.op = Op.writeZeroes ∨ c.op = Op.deallocate ∧ v.dz = true) ∧
      s.vol? (c.entry.vol.toNat) = some v ∧ v.deleting = none ∧ permits d v = true ∧ ioCheck s d v = none ∧ (c.op = Op.write
      → writeCheck d v = none) ∧ q.home ≠ ref.die ∧ ringBehind s d = false ∧ c.sent = none) ∧
    (∃ (ref : CmdRef) (c : Cmd) (r : Machine.Ring) (s : State), s.cmd? ref = some c ∧ s.ring? ref.die ref.ring = some r ∧
      s.running = true ∧ Option.any (fun x => x.linkUp) (s.die? ref.die) = true ∧ (beforeData c = true ∨ (c.op =
      Op.reflectWrite ∨ c.op = Op.reflectRead) ∧ c.stage = Stage.stalled)) ∧
    (∃ (ref : CmdRef) (c : Cmd) (r : Machine.Ring) (s : State) (m : Msg), s.cmd? ref = some c ∧ s.ring? ref.die ref.ring =
      some r ∧ s.running = true ∧ Option.any (fun x => x.linkUp) (s.die? ref.die) = true ∧ opMsg s ref = some m ∧ (c.op =
      Op.reflectWrite ∨ c.op = Op.reflectRead) ∧ c.stage = Stage.working) :=
  ⟨⟨⟨0,1,0⟩, _, _, Entries.wit2, [⟨0x1001, 16, true, 0⟩], [], _, _, got (by decide +kernel), got (by decide +kernel), rfl,
    got (by decide +kernel), by decide +kernel⟩,
   ⟨⟨0,1,0⟩, _, _, Entries.wit6, [⟨0x1000, 16, true, 0⟩], [], _, got (by decide +kernel), got (by decide +kernel), rfl,
    by decide +kernel⟩,
   ⟨⟨0,1,0⟩, _, _, Fresh.tabC, [⟨0x1000, 16, true, 0⟩], [], _, _, got (by decide +kernel), got (by decide +kernel), rfl, got
    (by decide +kernel), by decide +kernel⟩,
   ⟨⟨0,1,0⟩, _, _, More.tab, [⟨0x1000, 4096, true, 0⟩], (zeros 4096), _, vol, _, got (by decide +kernel), got
    (by decide +kernel), rfl, got (by decide +kernel), by decide +kernel⟩,
   ⟨⟨0,1,0⟩, _, _, Fresh.tabT, [⟨0x1000, 4096, true, 0⟩], (zeros 4096), _, vol, _, got (by decide +kernel), got
    (by decide +kernel), rfl, got (by decide +kernel), by decide +kernel⟩,
   ⟨⟨0,1,0⟩, _, _, (Caching.wst (Caching.wk 1)), got (by decide +kernel), got (by decide +kernel), by decide +kernel⟩,
   ⟨⟨0,1,0⟩, _, _, Fresh.wrOut, (Segments.mu 1 64), got (by decide +kernel), got (by decide +kernel), by decide +kernel⟩⟩

/-- Obligations.FramesAndAlignment. -/
theorem witness_FramesAndAlignment :
    (∃ (d : Nat) (s : State) (x : DieSt) (f : FrameSt), s.running = true ∧ s.die? d = some x ∧ x.alive = true ∧ x.frame = f
      ∧ f.shed = false ∧ 64 < (inWindow s.clk.tick 250000 f.intMiss).length) ∧
    (∃ (d : Nat) (s : State) (x : DieSt) (f : FrameSt), s.die? d = some x ∧ x.frame = f ∧ s.running = true ∧ x.alive = true
      ∧ f.shed = true ∧ f.recovering = false ∧ (inWindow s.clk.tick 250000 f.intMiss).length ≤ 16 ∧ inWindow s.clk.tick 2500
      f.intMiss = []) ∧
    (∃ (d : Nat) (s : State) (x : DieSt) (f : FrameSt), s.die? d = some x ∧ x.frame = f ∧ s.running = true ∧ x.alive = true
      ∧ f.shed = true ∧ f.recovering = false ∧ f.shedTick + 250000 ≤ s.clk.tick ∧ 64 < (inWindow s.clk.tick 250000
      f.intMiss).length) ∧
    (∃ (s : State) (n : Nat), follower s = true ∧ s.on = true ∧ n < 6400 ∧ mustAlign s = true) ∧
    (∃ (s : State) (n : Nat), follower s = true ∧ s.on = true ∧ n < 6400 ∧ mustAlign s = false) ∧
    (∃ (s : State), follower s = true ∧ s.on = true ∧ s.clk.syncLost = false ∧ (4 ≤ s.clk.noPulse ∨ 16 ≤ s.clk.farPulse) ∧
      (s.die? s.id.lead).isSome = true) :=
  ⟨⟨0, Ticking.wit1, Ticking.wit2, Ticking.wit3, by decide +kernel⟩,
   ⟨0, Ticking.wit4, _, _, got (by decide +kernel), rfl, by decide +kernel⟩,
   ⟨0, Ticking.wit6, _, _, got (by decide +kernel), rfl, by decide +kernel⟩,
   ⟨Bounds.wit10, 6399, by decide +kernel⟩,
   ⟨More.inStep, 6399, by decide +kernel⟩,
   ⟨Ticking.wit8, by decide +kernel⟩⟩

/-- Obligations.FreezeEnds. -/
theorem witness_FreezeEnds :
    ∃ (s : State) (x : DieSt), s.die? s.id.lead = some x ∧ s.on = true ∧ s.log.frozen = true ∧ s.log.frozenAt + 15000000 ≤
      s.clk.tick ∧ ∀ y ∈ s.dies, y.recd.clearPending = none :=
  ⟨Holders.frz, _, got (by decide +kernel), by decide +kernel⟩

/-- Obligations.FunctionsRestart. -/
theorem witness_FunctionsRestart :
    (∃ (p : Post) (r : Machine.Ring) (s : State) (d f : Nat), Permitted Op.functionReinit p r s ∧ bits (arg p 44 1) 2 0 = d
      ∧ arg p 45 1 = f ∧ (s.die? d).isSome = true ∧ f ≤ 63 ∧ (d ≠ r.die ∨ f ≠ r.fn) ∧ ∀ m ∈ s.refl.msgs, m.cmd ≠ some r.ref) ∧
    (∃ (d : Nat) (s : State), s.on = true ∧ s.alive d = true ∧ 0 < s.run.phase ∧ Option.any (fun x => x.linkUp) (s.die? d)
      = true) ∧
    (∃ (d : Nat) (x : DieSt) (s : State), s.die? d = some x ∧ s.run.powered = true ∧ x.perst = false ∧ x.alive = true ∧ 1 <
      s.run.phase) :=
  ⟨⟨(sf [(44,1),(45,0)]), (ring 1), Settings.wit21, _, _, permitted_of (by decide +kernel), rfl, rfl, by decide +kernel⟩,
   ⟨0, Settings.wit22, by decide +kernel⟩,
   ⟨1, _, Settings.wit23, got (by decide +kernel), by decide +kernel⟩⟩

/-- Obligations.HeatLimits. -/
theorem witness_HeatLimits :
    (∃ (d : Nat) (g : BitVec 8) (s : State), checksRun s d = true ∧ s.run.halted = false ∧ 100 ≤ degrees g) ∧
    (∃ (s : State), s.on = true ∧ s.pw.icap ≠ 0 ∧ s.pw.icapAt + 2500 ≤ s.clk.tick) ∧
    (∃ (s : State), s.on = true ∧ s.pw.icap ≠ 0 ∧ 2500 ≤ s.pw.cool) ∧
    (∃ (d : Nat) (s : State), checksRun s d = true ∧ s.pw.trip = false) :=
  ⟨⟨0, 100, full, by decide +kernel⟩,
   ⟨Starting.wit15, by decide +kernel⟩,
   ⟨Starting.wit15, by decide +kernel⟩,
   ⟨1, full, by decide +kernel⟩⟩

/-- Obligations.IndirectEntryWaits. -/
theorem witness_IndirectEntryWaits :
    ∃ (op : Op) (p : Post) (r : Machine.Ring) (s : State), Taken op p r s ∧ p.entry.ind = true :=
  ⟨.identify, Entries.wit1, (ring 1), up, taken_of (by decide +kernel), by decide +kernel⟩

/-- Obligations.JournalWorks. -/
theorem witness_JournalWorks :
    (∃ (d : Nat) (s : State) (x : DieSt) (l : List JEntry) (k : Nat) (b : JBody), s.die? d = some x ∧ JBody.anchor k
      (l.length + 1) x.jr.segs.length (openIntents x.jr) = b ∧ s.running = true ∧ x.alive = true ∧ journalRoom s d = true ∧
      (x.jr.anchorTick + 2500 ≤ s.clk.tick ∨ x.jr.anchorTail + 4096 ≤ x.jr.tail) ∧ List.filter
      (fun e => match e.body with | JBody.anchor tail live segs intents => false | x => true) x.jr.entries = l ∧ (Option.map
      (fun x => x.jsn) l.head?).getD x.jr.next = k) ∧
    (∃ (d : Nat) (s : State) (x : DieSt) (old : List JEntry) (ps : List Nat), s.die? d = some x ∧ List.filter (fun e =>
      decide (e.jsn < x.jr.tail + 4096)) x.jr.entries = old ∧ List.foldl (fun (l : List Nat) (p : Nat) => insNat p l) []
      (List.filterMap (fun x => x.pool) old) = ps ∧ s.running = true ∧ x.alive = true ∧ 344064 ≤ x.jr.next - x.jr.tail ∧ 64 <
      x.jr.segs.length + ps.length ∧ x.jr.full = false) ∧
    (∃ (d : Nat) (s : State) (x : DieSt) (old : List JEntry) (ps : List Nat), s.die? d = some x ∧ List.filter (fun e =>
      decide (e.jsn < x.jr.tail + 4096)) x.jr.entries = old ∧ List.foldl (fun (l : List Nat) (p : Nat) => insNat p l) []
      (List.filterMap (fun x => x.pool) old) = ps ∧ s.running = true ∧ x.alive = true ∧ 344064 ≤ x.jr.next - x.jr.tail ∧
      x.jr.segs.length + ps.length ≤ 64 ∧ (∀ e ∈ x.jr.entries, staysLive e.body = true) ∧ ∀ g ∈ x.jr.segs, ∃ e ∈ g.entries,
      e.pool = some g.pool) ∧
    (∃ (d : Nat) (s : State) (x : DieSt), s.die? d = some x ∧ s.running = true ∧ x.alive = true ∧ x.jr.full = true ∧
      x.jr.segs.length ≤ 48) ∧
    (∃ (d : Nat) (s : State) (x : DieSt), s.die? d = some x ∧ s.running = true ∧ x.alive = true ∧ x.vault = true) ∧
    (∃ (s : State) (p : Pool) (m : Nat) (y : Member) (x : DieSt) (g : Segment), s.die? p.home = some x ∧ p.members[m]? =
      some y ∧ s.running = true ∧ s.pool? p.num = some p ∧ s.serves p.home = true ∧ g ∈ x.jr.segs ∧ g.pool = p.num ∧ m ∈
      g.copies ∧ y.state = MState.failed ∧ ∀ h ∈ x.jr.segs, h.pool = p.num → h.copies.Nodup) ∧
    (∃ (d : Nat) (s : State) (x : DieSt), s.die? d = some x ∧ s.on = true ∧ 2 < s.run.phase ∧ nextSave s.clk.optime ≤
      s.clk.optime + 2500 ∧ ∀ (v : Nat), savedOf x = some v → v < nextSave s.clk.optime) :=
  ⟨⟨0, (Writing.jst Writing.xa), _, [Writing.je 5 Writing.uc, Writing.je 7 Writing.uc], 5, _, got (by decide +kernel), rfl,
    by decide +kernel⟩,
   ⟨0, Writing.wit3, _, _, _, got (by decide +kernel), rfl, rfl, by decide +kernel⟩,
   ⟨0, (Writing.jst Writing.xa), _, _, _, got (by decide +kernel), rfl, rfl, by decide +kernel⟩,
   ⟨0, Writing.wit5, _, got (by decide +kernel), by decide +kernel⟩,
   ⟨0, Writing.wit9, _, got (by decide +kernel), by decide +kernel⟩,
   ⟨Writing.wit11, Writing.wit12, 1, _, _, (Writing.sg 0), got (by decide +kernel), got (by decide +kernel),
    by decide +kernel⟩,
   ⟨0, Writing.wit15, _, got (by decide +kernel), by decide +kernel⟩⟩

/-- Obligations.KeysChange. -/
theorem witness_KeysChange :
    (∃ (p : Post) (r : Machine.Ring) (s : State) (x : Tenant), Permitted Op.eraseKey p r s ∧ s.tenant? (arg p 44 2) = some
      x ∧ (s.die? s.id.lead).isSome = true) ∧
    (∃ (s : State) (n : Nat) (x : Tenant), s.tenant? n = some x ∧ (s.die? s.id.lead).isSome = true ∧ s.running = true ∧
      x.erasing = true ∧ ∀ v ∈ encVols s n, ∀ (q : Pool), s.pool? v.pool = some q → q.reshape = none) :=
  ⟨⟨(sf [(44,9)]), R, Holders.wit14, _, permitted_of (by decide +kernel), got (by decide +kernel), by decide +kernel⟩,
   ⟨Holders.wit16, 9, _, got (by decide +kernel), by decide +kernel⟩⟩

/-- Obligations.LinksTrain, part 1. -/
theorem witness_LinksTrain_1 :
    (∃ (d : Nat) (s : State) (x : DieSt) (k : LinkSt) (raw : Bytes) (f : Flit) (u : LinkSt), s.die? d = some x ∧ x.link = k
      ∧ readFlit raw = f ∧ takeHeader f k = u ∧ linkRuns s d = true ∧ k.state = LinkState.active ∧ f.crcOk = true ∧ f.nak =
      false ∧ k.queue = [] ∧ f.idle = true) ∧
    (∃ (d : Nat) (s : State) (x : DieSt) (k : LinkSt) (raw : Bytes) (f : Flit) (u : LinkSt), s.die? d = some x ∧ x.link = k
      ∧ readFlit raw = f ∧ takeHeader f k = u ∧ linkRuns s d = true ∧ k.state = LinkState.active ∧ f.crcOk = true ∧ f.nak =
      false ∧ k.queue = [] ∧ f.idle = false ∧ f.fseq = k.rxNext) ∧
    (∃ (d : Nat) (s : State) (x : DieSt) (k : LinkSt) (raw : Bytes) (f : Flit) (u : LinkSt), s.die? d = some x ∧ x.link = k
      ∧ readFlit raw = f ∧ takeHeader f k = u ∧ linkRuns s d = true ∧ k.state = LinkState.active ∧ f.crcOk = true ∧ f.nak =
      false ∧ k.queue = [] ∧ f.idle = false ∧ f.fseq ≠ k.rxNext ∧ k.discarding = true) ∧
    (∃ (d : Nat) (s : State) (x : DieSt) (k : LinkSt) (raw : Bytes) (f : Flit) (u r : LinkSt), s.die? d = some x ∧ x.link =
      k ∧ readFlit raw = f ∧ takeHeader f k = u ∧ { u with discarding := true, nakDue := true } = r ∧ linkRuns s d = true ∧
      k.state = LinkState.active ∧ f.crcOk = true ∧ f.nak = false ∧ k.queue = [] ∧ f.idle = false ∧ f.fseq ≠ k.rxNext ∧
      k.discarding = false ∧ k.naks < 16) ∧
    (∃ (d : Nat) (s : State) (x : DieSt) (k : LinkSt) (raw : Bytes) (f : Flit) (u : LinkSt), s.die? d = some x ∧ x.link = k
      ∧ readFlit raw = f ∧ takeHeader f k = u ∧ linkRuns s d = true ∧ k.state = LinkState.active ∧ f.crcOk = true ∧ (f.idle =
      true ∨ f.fseq = k.rxNext)) ∧
    (∃ (d : Nat) (s : State) (x : DieSt) (k : LinkSt) (raw : Bytes) (f : Flit) (u r : LinkSt), s.die? d = some x ∧ x.link =
      k ∧ readFlit raw = f ∧ takeHeader f k = u ∧ { k with discarding := true, nakDue := true } = r ∧ linkRuns s d = true ∧
      k.state = LinkState.active ∧ f.crcOk = false ∧ k.naks < 16) ∧
    (∃ (d : Nat) (s : State) (x : DieSt) (k : LinkSt) (raw : Bytes) (f : Flit) (u r q : LinkSt), s.die? d = some x ∧ x.link
      = k ∧ readFlit raw = f ∧ takeHeader f k = u ∧ { k with discarding := true, nakDue := true } = r ∧
      ({ r.sentHeader.sentCtl with state := LinkState.recover, since := s.clk.tick, aligned := [], gotConfig := false }) = q
      ∧ linkRuns s d = true ∧ k.state = LinkState.active ∧ f.crcOk = false ∧ 16 ≤ k.naks ∧ 4 ≤ k.lanes) ∧
    (∃ (d : Nat) (s : State) (x : DieSt) (k : LinkSt) (raw : Bytes) (f : Flit) (u r : LinkSt), s.die? d = some x ∧ x.link =
      k ∧ readFlit raw = f ∧ takeHeader f k = u ∧ { k with discarding := true, nakDue := true } = r ∧ linkRuns s d = true ∧
      k.state = LinkState.active ∧ f.crcOk = false ∧ 16 ≤ k.naks ∧ k.lanes < 4) ∧
    (∃ (d : Nat) (s : State) (x : DieSt) (k : LinkSt) (raw : Bytes) (c : Ctl) (j : LinkSt), s.die? d = some x ∧ x.link = k
      ∧ LinkSt.tookCtl raw k = j ∧ ctlOf 1 raw = some c ∧ linkRuns s d = true ∧ (k.state = LinkState.align ∨ k.state =
      LinkState.recover) ∧ c.lane.toNat < 16 ∧ miswired s d c = true) ∧
    (∃ (d : Nat) (s : State) (x : DieSt) (k : LinkSt) (raw : Bytes) (c : Ctl) (j : LinkSt) (l : List Nat), s.die? d = some
      x ∧ x.link = k ∧ LinkSt.tookCtl raw k = j ∧ ctlOf 1 raw = some c ∧ insNat c.lane.toNat k.aligned = l ∧ linkRuns s d =
      true ∧ (k.state = LinkState.align ∨ k.state = LinkState.recover) ∧ c.lane.toNat < 16 ∧ miswired s d c = false ∧
      l.length < k.lanes) ∧
    (∃ (d : Nat) (s : State) (x : DieSt) (k : LinkSt) (raw : Bytes) (c : Ctl) (j : LinkSt) (l : List Nat) (r : LinkSt),
      s.die? d = some x ∧ x.link = k ∧ LinkSt.tookCtl raw k = j ∧ ctlOf 1 raw = some c ∧ insNat c.lane.toNat k.aligned = l ∧
      (if k.state = LinkState.align then
      { j with state := LinkState.config, since := s.clk.tick, alignTries := 0, aligned := l, gotConfig := false } else
      { j with aligned := l }) = r ∧ linkRuns s d = true ∧ (k.state = LinkState.align ∨ k.state = LinkState.recover) ∧
      c.lane.toNat < 16 ∧ miswired s d c = false ∧ k.lanes ≤ l.length) ∧
    (∃ (d : Nat) (s : State) (x : DieSt) (k : LinkSt) (raw : Bytes) (c : Ctl) (j : LinkSt), s.die? d = some x ∧ x.link = k
      ∧ LinkSt.tookCtl raw k = j ∧ linkRuns s d = true ∧ inConfig k = true ∧ miswired s d c = true ∧ ctlOf 2 raw = some c ∧
      c.version = 1) :=
  ⟨⟨0, (Links.lk Links.act), _, _, (flitOf (flitHdr 0 { Links.fl with nak := false }) []), _, _, got (by decide +kernel),
    rfl, rfl, rfl, by decide +kernel⟩,
   ⟨0, (Links.lk Links.act), _, _, (flitOf (flitHdr 1 { Links.fl with nak := false }) []), _, _, got (by decide +kernel),
    rfl, rfl, rfl, by decide +kernel⟩,
   ⟨0, (Links.lk fun l => { Links.act l with discarding := true }), _, _, (flitOf (flitHdr 1
    { Links.fl with nak := false, fseq := 7 }) []), _, _, got (by decide +kernel), rfl, rfl, rfl, by decide +kernel⟩,
   ⟨0, (Links.lk Links.act), _, _, (flitOf (flitHdr 1 { Links.fl with nak := false, fseq := 7 }) []), _, _, _, got
    (by decide +kernel), rfl, rfl, rfl, rfl, by decide +kernel⟩,
   ⟨0, (Links.lk Links.act), _, _, (flitOf (flitHdr 1 Links.fl) []), _, _, got (by decide +kernel), rfl, rfl, rfl,
    by decide +kernel⟩,
   ⟨0, (Links.lk Links.act), _, _, (zeros 256), _, _, _, got (by decide +kernel), rfl, rfl, rfl, rfl, by decide +kernel⟩,
   ⟨0, Links.wit4, _, _, (zeros 256), _, _, _, _, got (by decide +kernel), rfl, rfl, rfl, rfl, rfl, by decide +kernel⟩,
   ⟨0, (Links.lk fun l => { Links.act l with naks := 16, lanes := 3 }), _, _, (zeros 256), _, _, _, got (by decide +kernel),
    rfl, rfl, rfl, rfl, by decide +kernel⟩,
   ⟨0, Links.wit6, _, _, (ctlFlit 1 Links.wit8 More.hdr), _, _, got (by decide +kernel), rfl, rfl, got (by decide +kernel),
    by decide +kernel⟩,
   ⟨0, Links.wit6, _, _, (ctlFlit 1 Links.ct More.hdr), _, _, _, got (by decide +kernel), rfl, rfl, got (by decide +kernel),
    rfl, by decide +kernel⟩,
   ⟨0, Links.wit9, _, _, (ctlFlit 1 Links.ct More.hdr), _, _, _, _, got (by decide +kernel), rfl, rfl, got
    (by decide +kernel), rfl, rfl, by decide +kernel⟩,
   ⟨0, Links.wit11, _, _, (ctlFlit 2 Links.wit8 More.hdr), Links.wit8, _, got (by decide +kernel), rfl, rfl,
    by decide +kernel⟩⟩

/-- Obligations.LinksTrain, part 2. -/
theorem witness_LinksTrain_2 :
    (∃ (d : Nat) (s : State) (x : DieSt) (k : LinkSt) (raw : Bytes) (c : Ctl) (j : LinkSt), s.die? d = some x ∧ x.link = k
      ∧ LinkSt.tookCtl raw k = j ∧ linkRuns s d = true ∧ inConfig k = true ∧ miswired s d c = true ∧ ctlOf 3 raw = some c ∧
      k.gotConfig = true) ∧
    (∃ (d : Nat) (s : State) (x : DieSt) (k : LinkSt) (raw : Bytes) (c : Ctl) (j : LinkSt) (w : Nat) (r : LinkSt), s.die? d
      = some x ∧ x.link = k ∧ LinkSt.tookCtl raw k = j ∧ configWidth c k = w ∧
      { j with width := w, gotConfig := true, credits := if k.state = LinkState.config then c.credits.toNat else j.credits }
      = r ∧ linkRuns s d = true ∧ inConfig k = true ∧ miswired s d c = false ∧ ctlOf 2 raw = some c ∧ c.version = 1 ∧ w ≠ 0) ∧
    (∃ (d : Nat) (s : State) (x : DieSt) (k : LinkSt) (raw : Bytes) (c : Ctl) (j r : LinkSt), s.die? d = some x ∧ x.link =
      k ∧ LinkSt.tookCtl raw k = j ∧ { j with state := LinkState.active, since := s.clk.tick, trained := k.width } = r ∧
      linkRuns s d = true ∧ inConfig k = true ∧ miswired s d c = false ∧ ctlOf 3 raw = some c ∧ k.gotConfig = true ∧ k.state
      = LinkState.recover ∧ j.replayFrom = none ∧ k.queue = [] ∧ k.trained ≤ k.width) ∧
    (∃ (d : Nat) (s : State) (x : DieSt) (k : LinkSt) (raw : Bytes) (c : Ctl) (j r : LinkSt), s.die? d = some x ∧ x.link =
      k ∧ LinkSt.tookCtl raw k = j ∧ { j with state := LinkState.active, since := s.clk.tick, trained := k.width } = r ∧
      linkRuns s d = true ∧ inConfig k = true ∧ miswired s d c = false ∧ ctlOf 3 raw = some c ∧ k.gotConfig = true ∧ k.state
      = LinkState.recover ∧ j.replayFrom = none ∧ k.queue = [] ∧ k.width < k.trained) ∧
    (∃ (d : Nat) (s : State) (x : DieSt) (k : LinkSt) (raw : Bytes) (c : Ctl) (j r : LinkSt) (n : BitVec 12), s.die? d =
      some x ∧ x.link = k ∧ LinkSt.tookCtl raw k = j ∧
      { j with state := LinkState.active, since := s.clk.tick, trained := k.width } = r ∧ j.replayFrom = some n ∧ linkRuns s
      d = true ∧ inConfig k = true ∧ miswired s d c = false ∧ ctlOf 3 raw = some c ∧ k.gotConfig = true ∧ k.state =
      LinkState.recover) ∧
    (∃ (d : Nat) (s : State) (x : DieSt) (k : LinkSt) (raw : Bytes) (c : Ctl) (j r : LinkSt), s.die? d = some x ∧ x.link =
      k ∧ LinkSt.tookCtl raw k = j ∧ { j with state := LinkState.active, since := s.clk.tick, trained := k.width } = r ∧
      linkRuns s d = true ∧ inConfig k = true ∧ miswired s d c = false ∧ ctlOf 3 raw = some c ∧ k.gotConfig = true ∧ k.state
      = LinkState.config ∧ k.queue = []) ∧
    (∃ (d : Nat) (s : State) (x : DieSt) (k : LinkSt) (raw : Bytes) (c : Ctl) (j r : LinkSt), s.die? d = some x ∧ x.link =
      k ∧ LinkSt.tookCtl raw k = j ∧ ctlOf 4 raw = some c ∧
      { j with state := LinkState.recover, since := s.clk.tick, aligned := [], gotConfig := false } = r ∧ linkRuns s d = true
      ∧ k.state = LinkState.active ∧ 4 ≤ k.lanes) ∧
    (∃ (d : Nat) (s : State) (x : DieSt) (k : LinkSt) (raw : Bytes) (c : Ctl) (j : LinkSt), s.die? d = some x ∧ x.link = k
      ∧ LinkSt.tookCtl raw k = j ∧ ctlOf 4 raw = some c ∧ linkRuns s d = true ∧ k.state ≠ LinkState.active ∧ 4 ≤ k.lanes) ∧
    (∃ (d : Nat) (s : State) (x : DieSt) (k : LinkSt) (raw : Bytes) (c : Ctl) (j : LinkSt), s.die? d = some x ∧ x.link = k
      ∧ LinkSt.tookCtl raw k = j ∧ ctlOf 4 raw = some c ∧ linkRuns s d = true ∧ k.state ≠ LinkState.down ∧ k.lanes < 4) ∧
    (∃ (d : Nat) (s : State) (x : DieSt) (k r : LinkSt), s.die? d = some x ∧ x.link = k ∧
      ({ k.sentCtl with state := LinkState.recover, since := s.clk.tick, aligned := [], gotConfig := false }) = r ∧ linkRuns
      s d = true ∧ k.state = LinkState.active ∧ 4 ≤ k.lanes) ∧
    (∃ (d : Nat) (s : State) (x : DieSt) (k : LinkSt), s.die? d = some x ∧ x.link = k ∧ linkRuns s d = true ∧ k.state =
      LinkState.detect) ∧
    (∃ (d : Nat) (s : State) (x : DieSt) (k : LinkSt) (l m : List Nat) (n : Nat), s.die? d = some x ∧ x.link = k ∧
      List.foldl (fun (r : List Nat) (i : Nat) => insNat i r) k.locked l = m ∧ reflectLanes x = n ∧ linkRuns s d = true ∧
      k.state = LinkState.equalise ∧ lockedAll x m = false) :=
  ⟨⟨0, Links.wit13, _, _, (ctlFlit 3 { Links.wit15 with pkgid := 0 } More.hdr), { Links.wit15 with pkgid := 0 }, _, got
    (by decide +kernel), rfl, rfl, by decide +kernel⟩,
   ⟨0, Links.wit11, _, _, (ctlFlit 2 Links.ct More.hdr), Links.ct, _, _, _, got (by decide +kernel), rfl, rfl, rfl, rfl,
    by decide +kernel⟩,
   ⟨0, (Links.lk fun l =>
    { l with state := .recover, aligned := List.range 16, gotConfig := true, width := 16, trained := 16 }), _, _, (ctlFlit 3
    Links.wit15 More.hdr), Links.wit15, _, _, got (by decide +kernel), rfl, rfl, rfl, by decide +kernel⟩,
   ⟨0, Links.wit13, _, _, (ctlFlit 3 Links.wit15 More.hdr), Links.wit15, _, _, got (by decide +kernel), rfl, rfl, rfl,
    by decide +kernel⟩,
   ⟨0, Links.wit13, _, _, (ctlFlit 3 Links.wit15 { More.hdr with nak := true }), Links.wit15, _, _, _, got
    (by decide +kernel), rfl, rfl, rfl, got (by decide +kernel), by decide +kernel⟩,
   ⟨0, Links.wit16, _, _, (ctlFlit 3 Links.ct More.hdr), Links.ct, _, _, got (by decide +kernel), rfl, rfl, rfl,
    by decide +kernel⟩,
   ⟨0, (Links.lk Links.act), _, _, (ctlFlit 4 Links.ct More.hdr), _, _, _, got (by decide +kernel), rfl, rfl, got
    (by decide +kernel), rfl, by decide +kernel⟩,
   ⟨0, (Links.lk fun l => { Links.act l with state := .recover }), _, _, (ctlFlit 4 Links.ct More.hdr), _, _, got
    (by decide +kernel), rfl, rfl, got (by decide +kernel), by decide +kernel⟩,
   ⟨0, Links.wit18, _, _, (ctlFlit 4 Links.ct More.hdr), _, _, got (by decide +kernel), rfl, rfl, got (by decide +kernel),
    by decide +kernel⟩,
   ⟨0, (Links.lk Links.act), _, _, _, got (by decide +kernel), rfl, rfl, by decide +kernel⟩,
   ⟨0, full, _, _, got (by decide +kernel), rfl, by decide +kernel⟩,
   ⟨0, Bounds.wit28, _, _, [0, 1, 2], _, _, got (by decide +kernel), rfl, rfl, rfl, by decide +kernel⟩⟩

/-- Obligations.LinksTrain, part 3. -/
theorem witness_LinksTrain_3 :
    (∃ (d : Nat) (s : State) (x : DieSt) (k : LinkSt) (l m : List Nat) (n : Nat), s.die? d = some x ∧ x.link = k ∧
      List.foldl (fun (r : List Nat) (i : Nat) => insNat i r) k.locked l = m ∧ reflectLanes x = n ∧ linkRuns s d = true ∧
      k.state = LinkState.equalise ∧ lockedAll x m = true ∧ n < 4) ∧
    (∃ (d : Nat) (s : State) (x : DieSt) (k : LinkSt) (l m : List Nat) (n : Nat) (r : LinkSt), s.die? d = some x ∧ x.link =
      k ∧ List.foldl (fun (r : List Nat) (i : Nat) => insNat i r) k.locked l = m ∧ reflectLanes x = n ∧
      { k with state := LinkState.align, since := s.clk.tick, lanes := n, aligned := [], locked := m } = r ∧ linkRuns s d =
      true ∧ k.state = LinkState.equalise ∧ lockedAll x m = true ∧ 4 ≤ n) ∧
    (∃ (d : Nat) (s : State) (x : DieSt) (k : LinkSt) (b : Nat), s.die? d = some x ∧ x.link = k ∧ linkBound k.state = some
      b ∧ linkRuns s d = true ∧ k.since + b ≤ s.clk.tick) ∧
    (∃ (d : Nat) (s : State) (x : DieSt) (k : LinkSt) (b : Nat), s.die? d = some x ∧ x.link = k ∧ linkBound k.state = some
      b ∧ linkRuns s d = true ∧ s.clk.tick < k.since + b) :=
  ⟨⟨0, Fresh.narrow, _, _, (List.range 16), _, _, got (by decide +kernel), rfl, rfl, rfl, by decide +kernel⟩,
   ⟨0, Bounds.wit28, _, _, (List.range 16), _, _, _, got (by decide +kernel), rfl, rfl, rfl, rfl, by decide +kernel⟩,
   ⟨0, (Links.lk (Links.old .equalise 0)), _, _, _, got (by decide +kernel), rfl, got (by decide +kernel),
    by decide +kernel⟩,
   ⟨0, (Links.lk fun l => { l with state := .equalise, since := 15999999 }), _, _, _, got (by decide +kernel), rfl, got
    (by decide +kernel), by decide +kernel⟩⟩

/-- Obligations.MaintenanceCommands, part 1. -/
theorem witness_MaintenanceCommands_1 :
    (∃ (p : Post) (r : Machine.Ring) (s : State) (c : Cmd), Permitted Op.selfTest p r s ∧ cmdOf Op.selfTest p r s = c ∧
      (s.die? s.id.lead).isSome = true ∧ bits (arg p 44 1) 2 0 ≠ 0 ∧ bits (arg p 44 1) 2 0 ≤ 5 ∧ (arg p 46 1 = 255 ∨ s.alive
      (arg p 46 1) = true) ∧ (∀ x ∈ testsOf s c, ∀ y ∈ s.tests, ¬(y.test = x.test ∧ y.die = x.die)) ∧ List.filter (fun x =>
      x.test != 3 || !x.left.isEmpty) (testsOf s c) ≠ []) ∧
    (∃ (p : Post) (r : Machine.Ring) (s : State) (d u : Nat) (x : DieSt), Permitted Op.engineSwap p r s ∧ bits (arg p 44 1)
      2 0 = d ∧ arg p 45 1 = u ∧ s.die? d = some x ∧ (s.die? s.id.lead).isSome = true ∧ s.alive d = true ∧ 32 ≤ u ∧ u < 34 ∧
      (x.hw.gf.set (u - 32) false).any id = true ∧ bits (arg p 46 1) 0 0 = 1) ∧
    (∃ (p : Post) (r : Machine.Ring) (s : State) (d u : Nat) (x : DieSt), Permitted Op.engineSwap p r s ∧ bits (arg p 44 1)
      2 0 = d ∧ arg p 45 1 = u ∧ s.die? d = some x ∧ (s.die? s.id.lead).isSome = true ∧ s.alive d = true ∧ 32 ≤ u ∧ u < 34 ∧
      (x.hw.gf.set (u - 32) false).any id = true ∧ bits (arg p 46 1) 0 0 = 0) ∧
    (∃ (p : Post) (r : Machine.Ring) (s : State) (d u : Nat) (x : DieSt), Permitted Op.engineSwap p r s ∧ bits (arg p 44 1)
      2 0 = d ∧ arg p 45 1 = u ∧ s.die? d = some x ∧ (s.die? s.id.lead).isSome = true ∧ s.alive d = true ∧ 32 ≤ u ∧ u < 34 ∧
      (x.hw.gf.set (u - 32) false).any id = false ∧ bits (arg p 46 1) 0 0 = 1) ∧
    (∃ (p : Post) (r : Machine.Ring) (s : State) (d u : Nat) (x : DieSt), Permitted Op.engineSwap p r s ∧ bits (arg p 44 1)
      2 0 = d ∧ arg p 45 1 = u ∧ s.die? d = some x ∧ (s.die? s.id.lead).isSome = true ∧ s.alive d = true ∧ 40 ≤ u ∧ u < 44 ∧
      (x.hw.aes.set (u - 40) false).any id = true ∧ bits (arg p 46 1) 0 0 = 1) ∧
    (∃ (p : Post) (r : Machine.Ring) (s : State), Permitted Op.timeAnchor p r s ∧ (s.die? s.id.lead).isSome = true) ∧
    (∃ (p : Post) (r : Machine.Ring) (s : State) (d : Nat) (x : DieSt), Permitted Op.dieRetire p r s ∧ bits (arg p 44 1) 2
      0 = d ∧ s.die? d = some x ∧ (s.die? s.id.lead).isSome = true ∧ d ≠ r.die ∧ bits (arg p 45 1) 0 0 = 1) ∧
    (∃ (p : Post) (r : Machine.Ring) (s : State) (d : Nat) (x : DieSt), Permitted Op.dieRetire p r s ∧ bits (arg p 44 1) 2
      0 = d ∧ s.die? d = some x ∧ (s.die? s.id.lead).isSome = true ∧ d ≠ r.die ∧ bits (arg p 45 1) 0 0 = 0 ∧ s.alive d = true
      ∧ s.pair.kerf = none ∧ (∀ y ∈ s.dies, y.retiring = false) ∧ (∀ n ∈ poolsOn s d, ∀ (q : Pool), s.pool? n = some q →
      retirable s q d = true) ∧ poolsOn s d ≠ []) ∧
    (∃ (p : Post) (r : Machine.Ring) (s : State) (d : Nat) (x : DieSt), Permitted Op.dieRetire p r s ∧ bits (arg p 44 1) 2
      0 = d ∧ s.die? d = some x ∧ (s.die? s.id.lead).isSome = true ∧ d ≠ r.die ∧ bits (arg p 45 1) 0 0 = 0 ∧ s.alive d = true
      ∧ s.pair.kerf = none ∧ (∀ y ∈ s.dies, y.retiring = false) ∧ (∀ n ∈ poolsOn s d, ∀ (q : Pool), s.pool? n = some q →
      retirable s q d = true) ∧ poolsOn s d = []) ∧
    (∃ (p : Post) (r : Machine.Ring) (s : State), Permitted Op.partnerControl p r s ∧ (s.die? s.id.lead).isSome = true ∧
      s.id.inPair = true ∧ s.pair.kerf = none ∧ s.pair.contest = none ∧ s.pair.handing = none ∧ s.pair.leaving = none ∧ bits
      (arg p 44 1) 2 0 = 0 ∧ s.pair.state = PairState.paired) ∧
    (∃ (p : Post) (r : Machine.Ring) (s : State), Permitted Op.partnerControl p r s ∧ (s.die? s.id.lead).isSome = true ∧
      s.id.inPair = true ∧ s.pair.kerf = none ∧ s.pair.contest = none ∧ s.pair.handing = none ∧ s.pair.leaving = none ∧ bits
      (arg p 44 1) 2 0 = 0 ∧ s.pair.state ≠ PairState.paired) ∧
    (∃ (p : Post) (r : Machine.Ring) (s : State), Permitted Op.partnerControl p r s ∧ (s.die? s.id.lead).isSome = true ∧
      s.id.inPair = true ∧ s.pair.kerf = none ∧ s.pair.contest = none ∧ s.pair.handing = none ∧ s.pair.leaving = none ∧ bits
      (arg p 44 1) 2 0 = 1) :=
  ⟨⟨(sf [(44,5),(46,0xFF)]), R, full, _, permitted_of (by decide +kernel), rfl, by decide +kernel⟩,
   ⟨Service.wit1, R, full, _, _, _, permitted_of (by decide +kernel), rfl, rfl, got (by decide +kernel), by decide +kernel⟩,
   ⟨Service.wit3, R, full, _, _, _, permitted_of (by decide +kernel), rfl, rfl, got (by decide +kernel), by decide +kernel⟩,
   ⟨Service.wit1, R, Service.wit5, _, _, _, permitted_of (by decide +kernel), rfl, rfl, got (by decide +kernel),
    by decide +kernel⟩,
   ⟨Service.wit7, R, full, _, _, _, permitted_of (by decide +kernel), rfl, rfl, got (by decide +kernel), by decide +kernel⟩,
   ⟨(sf [(44,0)]), R, full, permitted_of (by decide +kernel), by decide +kernel⟩,
   ⟨(sf [(44,1),(45,1)]), R, Service.wit9, _, _, permitted_of (by decide +kernel), rfl, got (by decide +kernel),
    by decide +kernel⟩,
   ⟨(sf [(44,1),(45,0)]), R, Service.wit11, _, _, permitted_of (by decide +kernel), rfl, got (by decide +kernel),
    by decide +kernel⟩,
   ⟨(sf [(44,1),(45,0)]), R, Service.wit13, _, _, permitted_of (by decide +kernel), rfl, got (by decide +kernel),
    by decide +kernel⟩,
   ⟨(sf [(44,0)]), R, (Service.pr .paired full), permitted_of (by decide +kernel), by decide +kernel⟩,
   ⟨(sf [(44,0)]), R, (Service.pr .separated full), permitted_of (by decide +kernel), by decide +kernel⟩,
   ⟨(sf [(44,1)]), R, (Service.pr .separated full), permitted_of (by decide +kernel), by decide +kernel⟩⟩

/-- Obligations.MaintenanceCommands, part 2. -/
theorem witness_MaintenanceCommands_2 :
    (∃ (p : Post) (r : Machine.Ring) (s : State), Permitted Op.partnerControl p r s ∧ (s.die? s.id.lead).isSome = true ∧
      s.id.inPair = true ∧ s.pair.kerf = none ∧ s.pair.contest = none ∧ s.pair.handing = none ∧ s.pair.leaving = none ∧ (bits
      (arg p 44 1) 2 0 = 2 ∨ bits (arg p 44 1) 2 0 = 3) ∧ s.pair.state ≠ PairState.paired) ∧
    (∃ (p : Post) (r : Machine.Ring) (s : State), Permitted Op.partnerControl p r s ∧ (s.die? s.id.lead).isSome = true ∧
      s.id.inPair = true ∧ s.pair.kerf = none ∧ s.pair.contest = none ∧ s.pair.handing = none ∧ s.pair.leaving = none ∧ bits
      (arg p 44 1) 2 0 = 2 ∧ s.pair.state = PairState.paired ∧ singleLeft s = true) ∧
    (∃ (p : Post) (r : Machine.Ring) (s : State), Permitted Op.partnerControl p r s ∧ (s.die? s.id.lead).isSome = true ∧
      s.id.inPair = true ∧ s.pair.kerf = none ∧ s.pair.contest = none ∧ s.pair.handing = none ∧ s.pair.leaving = none ∧ bits
      (arg p 44 1) 2 0 = 2 ∧ s.pair.state = PairState.paired ∧ singleLeft s = false) ∧
    (∃ (p : Post) (r : Machine.Ring) (s : State), Permitted Op.partnerControl p r s ∧ (s.die? s.id.lead).isSome = true ∧
      s.id.inPair = true ∧ s.pair.kerf = none ∧ s.pair.contest = none ∧ s.pair.handing = none ∧ s.pair.leaving = none ∧ bits
      (arg p 44 1) 2 0 = 3 ∧ s.pair.state = PairState.paired ∧ ∀ q ∈ s.pools, q.taken = false) ∧
    (∃ (p : Post) (r : Machine.Ring) (s : State), Permitted Op.partnerControl p r s ∧ (s.die? s.id.lead).isSome = true ∧
      s.id.inPair = true ∧ s.pair.kerf = none ∧ s.pair.contest = none ∧ s.pair.handing = none ∧ s.pair.leaving = none ∧ bits
      (arg p 44 1) 2 0 = 3 ∧ s.pair.state = PairState.paired ∧ ∀ c ∈ s.cmds, ∀ q ∈ s.pools, q.taken = true → halfDone s q.num
      c = false) ∧
    (∃ (p : Post) (r : Machine.Ring) (s : State), Permitted Op.partnerControl p r s ∧ (s.die? s.id.lead).isSome = true ∧
      s.id.inPair = true ∧ s.pair.kerf = none ∧ s.pair.contest = none ∧ s.pair.handing = none ∧ s.pair.leaving = none ∧ bits
      (arg p 44 1) 2 0 = 3 ∧ s.pair.state = PairState.paired ∧ ∃ c ∈ s.cmds, ∃ q ∈ s.pools, q.taken = true ∧ halfDone s q.num
      c = true) ∧
    (∃ (p : Post) (r : Machine.Ring) (s : State), Permitted Op.partnerControl p r s ∧ (s.die? s.id.lead).isSome = true ∧
      s.id.inPair = true ∧ s.pair.kerf = none ∧ s.pair.contest = none ∧ s.pair.handing = none ∧ s.pair.leaving = none ∧ bits
      (arg p 44 1) 2 0 = 4 ∧ s.pair.awaiting = true ∧ s.pair.holdIn = false ∧ ∀ m ∈ s.refl.msgs, m.cmd ≠ some r.ref) :=
  ⟨⟨(sf [(44, 2)]), R, (Service.pr .separated full), permitted_of (by decide +kernel), by decide +kernel⟩,
   ⟨(sf [(44,2)]), R, (Service.pr .paired { full with cache := [cb 5 0] }), permitted_of (by decide +kernel),
    by decide +kernel⟩,
   ⟨(sf [(44,2)]), R, (Service.pr .paired { full with pools := [{ pool with taken := true }] }), permitted_of
    (by decide +kernel), by decide +kernel⟩,
   ⟨(sf [(44, 3)]), R, (Service.pr .paired full), permitted_of (by decide +kernel), by decide +kernel⟩,
   ⟨(sf [(44,3)]), R, (Service.pr .paired up), permitted_of (by decide +kernel), by decide +kernel⟩,
   ⟨(sf [(44,3)]), R, (Service.pr .paired Fresh.handS), permitted_of (by decide +kernel), by decide +kernel⟩,
   ⟨(sf [(44,4)]), R, Service.wit15, permitted_of (by decide +kernel), by decide +kernel⟩⟩

/-- Obligations.MalformedEntryHalts. -/
theorem witness_MalformedEntryHalts :
    ∃ (op : Op) (p : Post) (r : Machine.Ring) (s : State) (k : Nat), s.ring? p.die p.ring = some r ∧ takes s r op p.entry =
      true ∧ headCause r op p.entry = some k :=
  ⟨.nop, Bounds.wit1, R, up, 7, by decide +kernel⟩

/-- Obligations.MemberCommandsEnd, part 1. -/
theorem witness_MemberCommandsEnd_1 :
    (∃ (i : Nat) (s : State) (m : MCmd) (nx : Nat) (c : CmdRef) (key pos : Nat) (k : Cmd), s.mcmd? i = some m ∧ (Option.map
      (fun n => nextPath n m.path) (s.ns? m.ns)).getD m.path = nx ∧ s.cmd? c = some k ∧ s.drives = true ∧ m.unsent s.clk.tick
      = false ∧ m.isWrite = false ∧ m.purpose = Purpose.fetch c key pos) ∧
    (∃ (i : Nat) (s : State) (m : MCmd) (nx : Nat) (c : CmdRef) (key pos : Nat) (k : Cmd) (e : MemErr), s.mcmd? i = some m
      ∧ (Option.map (fun n => nextPath n m.path) (s.ns? m.ns)).getD m.path = nx ∧ s.cmd? c = some k ∧ s.drives = true ∧
      m.unsent s.clk.tick = false ∧ m.isWrite = false ∧ m.purpose = Purpose.fetch c key pos ∧ (e = MemErr.unrecovered ∨ e =
      MemErr.e2e)) ∧
    (∃ (i : Nat) (s : State) (m : MCmd) (nx j pos off : Nat), s.mcmd? i = some m ∧ (Option.map (fun n => nextPath n m.path)
      (s.ns? m.ns)).getD m.path = nx ∧ s.drives = true ∧ m.unsent s.clk.tick = false ∧ m.isWrite = false ∧ m.purpose =
      Purpose.destage j pos off) ∧
    (∃ (i : Nat) (s : State) (m : MCmd) (nx : Nat), s.mcmd? i = some m ∧ (Option.map (fun n => nextPath n m.path) (s.ns?
      m.ns)).getD m.path = nx ∧ (∀ (c : CmdRef) (b : Nat) (e : Bool), m.purpose ≠ Purpose.format c b e) ∧ (∀ (l : List (Nat ×
      Nat)), m.purpose ≠ Purpose.dealloc l) ∧ s.drives = true ∧ m.unsent s.clk.tick = false ∧ m.isWrite = false) ∧
    (∃ (i : Nat) (s : State) (m : MCmd) (nx : Nat), s.mcmd? i = some m ∧ (Option.map (fun n => nextPath n m.path) (s.ns?
      m.ns)).getD m.path = nx ∧ ((∃ (j : Nat) (pos : Nat) (off : Nat), m.purpose = Purpose.destage j pos off) ∨ (∃ (l : List
      (Nat × Nat)), m.purpose = Purpose.dealloc l) ∨ (∃ (l : W64), m.purpose = Purpose.preempt l) ∨ (∃ (n : Bool) (st : Nat),
      m.purpose = Purpose.work n st) ∨ m.purpose = Purpose.spill ∨ m.purpose = Purpose.spent) ∧ s.drives = true ∧ m.unsent
      s.clk.tick = false ∧ m.isWrite = true) ∧
    (∃ (i : Nat) (s : State) (m : MCmd) (nx : Nat) (e : MemErr), s.mcmd? i = some m ∧ (Option.map (fun n => nextPath n
      m.path) (s.ns? m.ns)).getD m.path = nx ∧ s.drives = true ∧ m.unsent s.clk.tick = false ∧ m.isWrite = true ∧ m.purpose =
      Purpose.spent ∧ (e = MemErr.other ∨ e = MemErr.aborted)) ∧
    (∃ (i : Nat) (s : State) (m : MCmd) (nx : Nat), s.mcmd? i = some m ∧ (Option.map (fun n => nextPath n m.path) (s.ns?
      m.ns)).getD m.path = nx ∧ (∀ (c : CmdRef) (b : Nat) (e : Bool), m.purpose ≠ Purpose.format c b e) ∧ (∀ (l : List (Nat ×
      Nat)), m.purpose ≠ Purpose.dealloc l) ∧ s.drives = true ∧ m.unsent s.clk.tick = false ∧ m.isWrite = true ∧ m.purpose ≠
      Purpose.spent ∧ m.fails = 0) ∧
    (∃ (i : Nat) (s : State) (m : MCmd) (nx : Nat) (p : Pool) (x : Nat), s.mcmd? i = some m ∧ (Option.map (fun n =>
      nextPath n m.path) (s.ns? m.ns)).getD m.path = nx ∧ (∀ (c : CmdRef) (b : Nat) (e : Bool), m.purpose ≠ Purpose.format c
      b e) ∧ (∀ (l : List (Nat × Nat)), m.purpose ≠ Purpose.dealloc l) ∧ Serves s m.ns p x ∧ s.drives = true ∧ m.unsent
      s.clk.tick = false ∧ m.isWrite = true ∧ m.purpose ≠ Purpose.spent ∧ 1 ≤ m.fails) ∧
    (∃ (i : Nat) (s : State) (m : MCmd) (nx : Nat) (p : Pool) (x : Nat), s.mcmd? i = some m ∧ (Option.map (fun n =>
      nextPath n m.path) (s.ns? m.ns)).getD m.path = nx ∧ Serves s m.ns p x ∧ s.drives = true ∧ m.unsent s.clk.tick = false ∧
      m.isWrite = true ∧ m.pool.isSome = true) ∧
    (∃ (i : Nat) (s : State) (m : MCmd) (nx : Nat) (p : Pool) (x : Nat), s.mcmd? i = some m ∧ (Option.map (fun n =>
      nextPath n m.path) (s.ns? m.ns)).getD m.path = nx ∧ Serves s m.ns p x ∧ s.drives = true ∧ m.unsent s.clk.tick = false ∧
      m.pool.isSome = true ∧ m.done = false ∧ m.at_ + 750000 ≤ s.clk.tick) ∧
    (∃ (i : Nat) (s : State) (m : MCmd) (nx n : Nat) (p : Pool), s.mcmd? i = some m ∧ (Option.map (fun n => nextPath n
      m.path) (s.ns? m.ns)).getD m.path = nx ∧ (∃ (new : Bool) (st : Nat) (pos : Nat) (off : Nat), m.purpose = Purpose.repair
      new st pos off) ∧ s.drives = true ∧ m.unsent s.clk.tick = false ∧ m.pool = some n ∧ s.pool? n = some p ∧ (s.die?
      p.home).isSome = true) ∧
    (∃ (i : Nat) (s : State) (m : MCmd) (nx n : Nat) (p : Pool), s.mcmd? i = some m ∧ (Option.map (fun n => nextPath n
      m.path) (s.ns? m.ns)).getD m.path = nx ∧ s.drives = true ∧ m.unsent s.clk.tick = false ∧ m.pool = some n ∧ s.pool? n =
      some p ∧ (s.die? p.home).isSome = true ∧ m.done = false ∧ m.at_ + 6250 * m.tries ≤ s.clk.tick) :=
  ⟨⟨9, Driving.fst_, _, _, ⟨0,1,0⟩, 2, 1, _, got (by decide +kernel), rfl, got (by decide +kernel), by decide +kernel⟩,
   ⟨9, Driving.fst_, _, _, ⟨0,1,0⟩, 2, 1, _, .e2e, got (by decide +kernel), rfl, got (by decide +kernel), by decide +kernel⟩,
   ⟨9, Driving.wit3, _, _, 4, 0, 0, got (by decide +kernel), rfl, by decide +kernel⟩,
   ⟨9, Writing.fst_, _, _, got (by decide +kernel), rfl, nofun, nofun, by decide +kernel⟩,
   ⟨9, Driving.wst_, _, _, got (by decide +kernel), rfl, Or.inl ⟨_, _, _, rfl⟩, by decide +kernel⟩,
   ⟨9, (Driving.mst (Driving.mc .spent true)), _, _, .other, got (by decide +kernel), rfl, by decide +kernel⟩,
   ⟨9, Driving.wst_, _, _, got (by decide +kernel), rfl, nofun, nofun, by decide +kernel⟩,
   ⟨9, (Driving.mst { Driving.mc (.destage 4 0 0) true with fails := 1 }), _, _, pool, 1, got (by decide +kernel), rfl,
    nofun, nofun, serves_of (by decide +kernel), by decide +kernel⟩,
   ⟨9, Driving.wst_, _, _, pool, 1, got (by decide +kernel), rfl, serves_of (by decide +kernel), by decide +kernel⟩,
   ⟨9, Driving.fst_, _, _, pool, 1, got (by decide +kernel), rfl, serves_of (by decide +kernel), by decide +kernel⟩,
   ⟨9, Driving.wit6, _, _, 3, pool, got (by decide +kernel), rfl, ⟨_, _, _, _, rfl⟩, by decide +kernel⟩,
   ⟨9, Driving.fst_, _, _, 3, pool, got (by decide +kernel), rfl, by decide +kernel⟩⟩

/-- Obligations.MemberCommandsEnd, part 2. -/
theorem witness_MemberCommandsEnd_2 :
    ∃ (i : Nat) (s : State) (m : MCmd) (nx : Nat) (c : CmdRef) (b : Nat) (e : Bool), s.mcmd? i = some m ∧ (Option.map (fun
      n => nextPath n m.path) (s.ns? m.ns)).getD m.path = nx ∧ s.drives = true ∧ m.unsent s.clk.tick = false ∧ m.purpose =
      Purpose.format c b e ∧ m.at_ + 15000000 ≤ s.clk.tick ∧ (s.cmd? c).isSome = true ∧ (s.ring? c.die c.ring).isSome = true
      ∧ Option.any (fun x => x.linkUp) (s.die? c.die) = true :=
  ⟨9, Driving.wit8, _, _, ⟨0,1,0⟩, 1, false, got (by decide +kernel), rfl, by decide +kernel⟩

/-- Obligations.MembersReport. -/
theorem witness_MembersReport :
    (∃ (s : State) (ns : Nat) (w : BitVec 8) (c : Instr), s.drives = true ∧ (c = Instr.asyncEvent ns w ∨ c =
      Instr.smartPoll ns w) ∧ w.getLsbD 3 = false) ∧
    (∃ (s : State) (ns : Nat) (w : BitVec 8) (c : Instr) (p : Pool) (x : Nat), Serves s ns p x ∧ s.drives = true ∧ (c =
      Instr.asyncEvent ns w ∨ c = Instr.smartPoll ns w) ∧ w.getLsbD 3 = true ∧ memberOf s ns = some (p, x)) ∧
    (∃ (s : State) (ns d : Nat) (n : Ns), s.ns? ns = some n ∧ s.drives = true ∧ s.alive (pathOn d) = true ∧ d ∈ n.up) ∧
    (∃ (s : State) (ns d : Nat) (n : Ns), s.ns? ns = some n ∧ s.drives = true ∧ s.alive (pathOn d) = true ∧ d ∈ usableDies
      n.info ∧ d ∉ n.up) ∧
    (∃ (s : State) (i : NsInfo) (t0 : Nat), s.run.pfail = some t0 ∧ s.on = true ∧ 3 < s.run.phase ∧ s.run.halted = false ∧
      (i.nguid ≠ 0 ∨ i.eui ≠ 0)) ∧
    (∃ (s : State) (i : NsInfo), s.on = true ∧ 3 < s.run.phase ∧ s.run.halted = false ∧ s.run.pfail = none ∧ (i.nguid ≠ 0 ∨
      i.eui ≠ 0) ∧ List.find? (fun n => sameNs n.info i) s.nss = none ∧ memberOf s s.uniq = none) ∧
    (∃ (s : State) (i : NsInfo) (n : Ns), (memberOf s n.id = none ∨ ∃ (p : Pool) (x : Nat), memberOf s n.id = some (p, x) ∧
      unfit p x i = none) ∧ s.on = true ∧ 3 < s.run.phase ∧ s.run.halted = false ∧ s.run.pfail = none ∧ (i.nguid ≠ 0 ∨ i.eui
      ≠ 0) ∧ List.find? (fun n => sameNs n.info i) s.nss = some n) ∧
    (∃ (s : State) (i : NsInfo) (n : Ns) (p : Pool) (x : Nat) (m : Member), p.pending[x]? = some m ∧ s.on = true ∧ 3 <
      s.run.phase ∧ s.run.halted = false ∧ s.run.pfail = none ∧ (i.nguid ≠ 0 ∨ i.eui ≠ 0) ∧ List.find? (fun n => sameNs
      n.info i) s.nss = some n ∧ memberOf s n.id = some (p, 32768 + x) ∧ p.members.length ≤ 32768 ∧ m.state ≠ MState.failed ∧
      unfit p (32768 + x) i = some 8 ∧ s.pool? p.num = some p ∧ List.find? (fun q => (q.members ++ q.pending).any fun y =>
      y.ns == n.id && y.state != MState.failed) s.pools = some p) ∧
    (∃ (s : State) (i : NsInfo) (n : Ns) (p : Pool) (x : Nat) (m : Member) (k : Nat), Serves s n.id p x ∧ p.members[x]? =
      some m ∧ s.on = true ∧ 3 < s.run.phase ∧ s.run.halted = false ∧ s.run.pfail = none ∧ (i.nguid ≠ 0 ∨ i.eui ≠ 0) ∧
      List.find? (fun n => sameNs n.info i) s.nss = some n ∧ memberOf s n.id = some (p, x) ∧ m.state ≠ MState.failed ∧ x <
      32768 ∧ unfit p x i = some k ∧ (s.die? p.home).isSome = true) :=
  ⟨⟨full, 11, 4, .asyncEvent 11 4, by decide +kernel⟩,
   ⟨full, 11, 8, .asyncEvent 11 8, pool, 1, serves_of (by decide +kernel), by decide +kernel⟩,
   ⟨full, 11, 1, _, got (by decide +kernel), by decide +kernel⟩,
   ⟨Driving.wit11, 11, 0, _, got (by decide +kernel), by decide +kernel⟩,
   ⟨Fresh.failing, Driving.wit13, _, got (by decide +kernel), by decide +kernel⟩,
   ⟨full, Driving.wit13, by decide +kernel⟩,
   ⟨More.nine, (nsp 20).info, (nsp 20), Or.inl (by decide +kernel), by decide +kernel⟩,
   ⟨More.pend, { (nsp 14).info with cur := 512 }, (nsp 14), More.pending, 0, _, got (by decide +kernel), by decide +kernel⟩,
   ⟨full, Driving.I11, (nsp 11), pool, 1, _, 6, serves_of (by decide +kernel), got (by decide +kernel), by decide +kernel⟩⟩

/-- Obligations.MemoriesWatched, part 1. -/
theorem witness_MemoriesWatched_1 :
    (∃ (d : Nat) (s : State) (x : DieSt), s.die? d = some x ∧ checksRun s d = true ∧ s.run.halted = false) ∧
    (∃ (d : Nat) (s : State) (x : DieSt), s.die? d = some x ∧ checksRun s d = true ∧ s.run.halted = false) ∧
    (∃ (d : Nat) (s : State) (x : DieSt), s.die? d = some x ∧ checksRun s d = true ∧ s.run.halted = false) ∧
    (∃ (d : Nat) (s : State) (x : DieSt) (i : Nat), s.die? d = some x ∧ checksRun s d = true ∧ s.run.halted = false ∧ i <
      x.recd.faultArea.length) ∧
    (∃ (d : Nat) (s : State) (x : DieSt) (c job j : Nat) (l : List Nat), s.die? d = some x ∧ x.hw.cores[c]? = some job ∧
      checksRun s d = true ∧ s.run.halted = false ∧ job < 9 ∧ x.hw.spares = j :: l) ∧
    (∃ (d : Nat) (s : State) (x : DieSt), s.die? d = some x ∧ checksRun s d = true ∧ s.run.halted = false ∧ refreshed s d =
      false) ∧
    (∃ (d : Nat) (s : State) (x : DieSt), s.die? d = some x ∧ checksRun s d = true ∧ s.run.halted = false ∧ refreshed s d =
      false) ∧
    (∃ (d : Nat) (s : State) (x : DieSt) (v l : Nat) (good : Bool) (b : CBlk), s.die? d = some x ∧ s.cached? v l = some b ∧
      checksRun s d = true ∧ s.run.halted = false ∧ refreshed s d = false ∧ b.dirty = true ∧ (good && b.mirrored) = true) ∧
    (∃ (d : Nat) (s : State) (x : DieSt) (v l : Nat) (good : Bool) (b : CBlk), s.die? d = some x ∧ s.cached? v l = some b ∧
      checksRun s d = true ∧ s.run.halted = false ∧ refreshed s d = false ∧ b.dirty = true ∧ (good && b.mirrored) = false) ∧
    (∃ (d : Nat) (s : State) (x : DieSt), s.die? d = some x ∧ checksRun s d = true ∧ s.run.halted = false ∧ 0 <
      x.hw.nvSpare) ∧
    (∃ (d : Nat) (s : State) (x : DieSt), s.die? d = some x ∧ checksRun s d = true ∧ s.run.halted = false ∧ x.hw.nvSpare =
      0 ∧ x.hw.nvNone = false) ∧
    (∃ (d : Nat) (s : State) (x : DieSt), s.die? d = some x ∧ checksRun s d = true ∧ s.run.halted = false ∧ x.hw.nvSpare =
      0 ∧ x.hw.nvNone = true) :=
  ⟨⟨0, full, _, got (by decide +kernel), by decide +kernel⟩,
   ⟨0, full, _, got (by decide +kernel), by decide +kernel⟩,
   ⟨0, full, _, got (by decide +kernel), by decide +kernel⟩,
   ⟨0, Bounds.wit24, _, 1, got (by decide +kernel), by decide +kernel⟩,
   ⟨0, (wait .write full), _, 0, _, 21, [22,23], got (by decide +kernel), got (by decide +kernel), by decide +kernel⟩,
   ⟨0, full, _, got (by decide +kernel), by decide +kernel⟩,
   ⟨0, full, _, got (by decide +kernel), by decide +kernel⟩,
   ⟨0, Spares.ms, _, 5, 0, true, _, got (by decide +kernel), got (by decide +kernel), by decide +kernel⟩,
   ⟨0, Spares.ms, _, 5, 1, true, _, got (by decide +kernel), got (by decide +kernel), by decide +kernel⟩,
   ⟨0, full, _, got (by decide +kernel), by decide +kernel⟩,
   ⟨0, Units.wit2, _, got (by decide +kernel), by decide +kernel⟩,
   ⟨0, Units.wit4, _, got (by decide +kernel), by decide +kernel⟩⟩

/-- Obligations.MemoriesWatched, part 2. -/
theorem witness_MemoriesWatched_2 :
    (∃ (d : Nat) (s : State) (x : DieSt) (bad hit : List Nat), s.die? d = some x ∧ List.filter (fun j => x.jr.entries.any
      fun e => e.jsn == j) bad = hit ∧ checksRun s d = true ∧ s.run.halted = false) ∧
    (∃ (d : Nat) (s : State) (x : DieSt), s.die? d = some x ∧ checksRun s d = true ∧ s.run.halted = false ∧ refreshed s d =
      false) ∧
    (∃ (d : Nat) (s : State) (x : DieSt) (ch n : Nat), s.die? d = some x ∧ checksRun s d = true ∧ s.run.halted = false ∧
      refreshed s d = false ∧ x.hw.ddr[ch]? = some true ∧ 64 < n) ∧
    (∃ (d : Nat) (s : State) (x : DieSt) (ch : Nat), s.die? d = some x ∧ checksRun s d = true ∧ s.run.halted = false ∧
      refreshed s d = false ∧ x.hw.ddr[ch]? = some true ∧ x.hw.retrainFails[ch]? = some 0) ∧
    (∃ (d : Nat) (s : State) (x : DieSt) (ch : Nat), s.die? d = some x ∧ checksRun s d = true ∧ s.run.halted = false ∧
      refreshed s d = false ∧ x.hw.ddr[ch]? = some true ∧ x.hw.retrainFails[ch]? = some 1) :=
  ⟨⟨0, full, _, [5], _, got (by decide +kernel), rfl, by decide +kernel⟩,
   ⟨0, full, _, got (by decide +kernel), by decide +kernel⟩,
   ⟨0, full, _, 3, 65, got (by decide +kernel), by decide +kernel⟩,
   ⟨0, full, _, 3, got (by decide +kernel), by decide +kernel⟩,
   ⟨0, Bounds.wit26, _, 2, got (by decide +kernel), by decide +kernel⟩⟩

/-- Obligations.NopAnswers. -/
theorem witness_NopAnswers :
    ∃ (p : Post) (r : Machine.Ring) (s : State), Direct Op.nop p r s :=
  ⟨Bounds.wit3, R, up, direct_of (by decide +kernel)⟩

/-- Obligations.OnlyTickCounts. -/
theorem witness_OnlyTickCounts :
    ∃ (c : Instr) (s t : State), exec c s = Host.Outcome.next t ∧ (∀ (i : TickIn), c ≠ Instr.tick i) ∧ c ≠ Instr.powerUp ∧
      c ≠ Instr.powerLoss :=
  ⟨.indexRebuilt, up, up, rfl, nofun, by decide +kernel⟩

/-- Obligations.PairKeepsHouse. -/
theorem witness_PairKeepsHouse :
    (∃ (s : State) (c : Cmd) (w : Told), (s.pair.state ≠ PairState.paired ∨ ∃ (m : W32), w.msg = some m ∧ ∀ (x : DieSt),
      s.die? c.ref.die = some x → ∀ q ∈ x.rfl.sys, q.msgno ≠ m) ∧ List.filter (fun x => x.told.isSome) s.cmds = [c] ∧ c.told
      = some w ∧ s.cmd? c.ref = some c ∧ (s.ring? c.ref.die c.ref.ring).isSome = true ∧ s.run.halted = false ∧ Option.any
      (fun x => x.linkUp) (s.die? c.ref.die) = true) ∧
    (∃ (s : State) (c : Cmd) (w : Told), (∀ (m : W32), w.msg = some m → ∃ (x : DieSt), s.die? c.ref.die = some x ∧ ∃ q ∈
      x.rfl.sys, q.msgno = m) ∧ List.filter (fun x => x.told.isSome) s.cmds = [c] ∧ c.told = some w ∧ s.cmd? c.ref = some c ∧
      (s.ring? c.ref.die c.ref.ring).isSome = true ∧ s.run.halted = false ∧ Option.any (fun x => x.linkUp) (s.die? c.ref.die)
      = true ∧ s.pair.state = PairState.paired) ∧
    (∃ (s : State), (s.die? s.id.lead).isSome = true ∧ s.pair.wireFault = true ∧ 250000 ≤ s.pair.wireAgree) ∧
    (∃ (s : State), (s.die? s.id.lead).isSome = true ∧ s.running = true ∧ mayRejoin s = true ∧ s.id.pkgid = 0 ∧
      s.pair.rejoinAt = none ∧ s.pair.contest = none ∧ 25000 ≤ s.pair.okTicks) ∧
    (∃ (s : State) (t0 : Nat), s.pair.rejoinAt = some t0 ∧ (s.die? s.id.lead).isSome = true ∧ s.running = true ∧ mayRejoin
      s = true ∧ s.pair.rejoinMsg = none ∧ t0 ≤ s.clk.tick) ∧
    (∃ (s : State), (s.die? s.id.lead).isSome = true ∧ s.running = true ∧ s.id.inPair = true ∧ s.pair.hbOk = false ∧
      s.pair.lastHb < s.run.readyAt ∧ holdSeen s s.pair.holdIn = false ∧ s.pair.contest = none ∧ s.pair.awaiting = false ∧
      s.pair.shut = false ∧ s.run.readyAt + 250000 ≤ s.clk.tick ∧ s.pair.witness = none) ∧
    (∃ (s : State), (s.die? s.id.lead).isSome = true ∧ s.running = true ∧ s.id.inPair = true ∧ s.pair.hbOk = false ∧
      s.pair.lastHb < s.run.readyAt ∧ holdSeen s s.pair.holdIn = false ∧ s.pair.contest = none ∧ s.pair.awaiting = false ∧
      s.pair.shut = false ∧ s.run.readyAt + 250000 ≤ s.clk.tick ∧ s.pair.witness.isSome = true) ∧
    (∃ (s : State) (d h : Nat) (x : DieSt), s.die? d = some x ∧ (s.die? s.id.lead).isSome = true ∧ s.running = true ∧
      x.alive = true ∧ dryHolder s d h = true ∧ dryEqual s d h = true) ∧
    (∃ (s : State) (d h : Nat) (x : DieSt) (fold : Bool), s.die? d = some x ∧ (s.die? s.id.lead).isSome = true ∧ s.running
      = true ∧ x.alive = true ∧ dryHolder s d h = true ∧ (fold && dryEqual s d h) = false ∧ ∀ f ∈ x.hw.dryFails, f.1 ≠ h) ∧
    (∃ (s : State) (d h : Nat) (x : DieSt) (fold : Bool) (n : Nat), s.die? d = some x ∧ (s.die? s.id.lead).isSome = true ∧
      s.running = true ∧ x.alive = true ∧ dryHolder s d h = true ∧ (fold && dryEqual s d h) = false ∧ h ≠ d ∧ s.alive h =
      true ∧ 1 ≤ n ∧ List.find? (fun f => f.1 == h) x.hw.dryFails = some (h, n)) ∧
    (∃ (s : State), (s.die? s.id.lead).isSome = true ∧ s.running = true ∧ s.pair.witness.isSome = true) ∧
    (∃ (s : State) (b : Bytes), healthBytes s (s.feat.healthSeq + 2) = b ∧ (s.die? s.id.lead).isSome = true ∧ s.running =
      true ∧ s.feat.healthAddr ≠ 0) :=
  ⟨⟨(Fresh.toldS .separated none), (Fresh.toldC none), ⟨7, [1], none⟩, Or.inl (by decide +kernel), by decide +kernel⟩,
   ⟨(Fresh.toldS .paired none), (Fresh.toldC none), ⟨7, [1], none⟩, (fun _ h => nomatch h), by decide +kernel⟩,
   ⟨Pairing.wit12, by decide +kernel⟩,
   ⟨(Pairing.pr Pairing.P3), by decide +kernel⟩,
   ⟨Pairing.wit13, _, got (by decide +kernel), by decide +kernel⟩,
   ⟨(Pairing.sf3 (Pairing.pr Pairing.P4)), by decide +kernel⟩,
   ⟨Pairing.wit15, by decide +kernel⟩,
   ⟨(Pairing.pr Pairing.P0), 0, 0, _, got (by decide +kernel), by decide +kernel⟩,
   ⟨(Pairing.pr Pairing.P0), 0, 0, _, false, got (by decide +kernel), by decide +kernel⟩,
   ⟨Pairing.wit17, 0, 1, _, false, 1, got (by decide +kernel), by decide +kernel⟩,
   ⟨Pairing.wit19, by decide +kernel⟩,
   ⟨Pairing.wit20, _, rfl, by decide +kernel⟩⟩

/-- Obligations.PoolsAndMembers. -/
theorem witness_PoolsAndMembers :
    (∃ (p : Post) (r : Machine.Ring) (s : State) (c : Cmd) (u : State), cmdOf Op.createPool p r s = c ∧ startOf
      Op.createPool p r s = u ∧ Permitted Op.createPool p r s ∧ s.pair.state ≠ PairState.separated ∧ poolCheckCreate u c =
      none ∧ ∀ n ∈ poolNs u c, nsFit u (poolB u c) (bitAt (fieldAt p.buf 10 1) 0) (bitAt (fieldAt p.buf 10 1) 1) (fun n =>
      ({ poolGeom u c 0 with z := nsBlocks (poolB u c) n }).nrows == 0) n = Except.ok false) ∧
    (∃ (p : Post) (r : Machine.Ring) (s : State) (q : Pool), Permitted Op.destroyPool p r s ∧ s.pool? (arg p 44 2) = some q
      ∧ ∀ v ∈ s.vols, v.pool ≠ q.num) ∧
    (∃ (p : Post) (r : Machine.Ring) (s : State) (q : Pool), Permitted Op.destroyPool p r s ∧ s.pool? (arg p 44 2) = some q
      ∧ (∃ v ∈ s.vols, v.pool = q.num) ∧ q.offline = none) ∧
    (∃ (p : Post) (r : Machine.Ring) (s : State) (q : Pool) (n : Ns), Permitted Op.addMember p r s ∧ s.pool? (arg p 44 2) =
      some q ∧ q.reshape = none ∧ p.entry.dlen.toNat = 32 ∧ (fieldAt p.buf 16 1 = 1 ∨ fieldAt p.buf 16 1 = 2) ∧ (∀ d ∈ q.home
      :: q.shadow.toList, reaches s d < 256) ∧ joinCheck (startOf Op.addMember p r s) (cmdOf Op.addMember p r s) q (arg p 46
      1) = Except.ok (n, false)) ∧
    (∃ (p : Post) (r : Machine.Ring) (s : State) (q : Pool) (m : Member), Permitted Op.retireMember p r s ∧ s.pool? (arg p
      44 2) = some q ∧ q.members[arg p 46 2]? = some m ∧ (∀ (j : Nat) (y : Member), q.members[j]? = some y → y.ns = m.ns → j
      = arg p 46 2) ∧ arg p 46 2 < 32768 ∧ (m.state = MState.online ∨ m.state = MState.suspect) ∧ bitAt (arg p 48 1) 0 =
      false ∧ ∀ x ∈ s.pools, x.num ≠ q.num → ∀ y ∈ x.members ++ x.pending, y.ns ≠ m.ns) ∧
    (∃ (p : Post) (r : Machine.Ring) (s : State) (q : Pool) (m : Member) (k : Nat), Permitted Op.retireMember p r s ∧
      s.pool? (arg p 44 2) = some q ∧ q.members[arg p 46 2]? = some m ∧ freeSlot q.geom.s q.members = some k ∧ arg p 46 2 <
      32768 ∧ (m.state = MState.online ∨ m.state = MState.suspect) ∧ bitAt (arg p 48 1) 0 = true ∧ q.reshape = none) ∧
    (∃ (p : Post) (r : Machine.Ring) (s : State) (q : Pool) (m : Member), Permitted Op.retireMember p r s ∧ s.pool? (arg p
      44 2) = some q ∧ q.pending[arg p 46 2 - 32768]? = some m ∧ 32768 ≤ arg p 46 2 ∧ q.reshape = none ∧ bitAt (arg p 48 1) 0
      = false) ∧
    (∃ (p : Post) (r : Machine.Ring) (s : State) (q : Pool) (m : Member) (n : Ns), Permitted Op.replaceMember p r s ∧
      s.pool? (arg p 44 2) = some q ∧ q.members[arg p 46 2]? = some m ∧ p.entry.dlen.toNat = 32 ∧ (fieldAt p.buf 16 1 = 1 ∨
      fieldAt p.buf 16 1 = 2) ∧ arg p 46 2 < q.geom.n ∧ m.state = MState.failed ∧ q.unsettled = false ∧ joinCheck (startOf
      Op.replaceMember p r s) (cmdOf Op.replaceMember p r s) q (arg p 48 1) = Except.ok (n, false)) :=
  ⟨⟨(sf [(44,4)] 192 Pooling.cpBuf), (ring 1), Pooling.nss2, _, _, rfl, rfl, permitted_of (by decide +kernel),
    by decide +kernel⟩,
   ⟨(sf [(44,3)]), (ring 1), Pooling.wit1, _, permitted_of (by decide +kernel), got (by decide +kernel), by decide +kernel⟩,
   ⟨(sf [(44,3)]), (ring 1), full, _, permitted_of (by decide +kernel), got (by decide +kernel), by decide +kernel⟩,
   ⟨Pooling.wit4, (ring 1), Pooling.nss2, _, (nsp 20), permitted_of (by decide +kernel), got (by decide +kernel),
    by decide +kernel⟩,
   ⟨(sf [(44,3),(46,1)]), (ring 1), full, _, _, permitted_of (by decide +kernel), got (by decide +kernel), got
    (by decide +kernel), getElem_all (by decide +kernel), by decide +kernel⟩,
   ⟨Pooling.wit8, (ring 1), full5, _, _, _, permitted_of (by decide +kernel), got (by decide +kernel), got
    (by decide +kernel), got (by decide +kernel), by decide +kernel⟩,
   ⟨(sf [(44,3),(46,0x8000)]), (ring 1), Pooling.wit12, _, _, permitted_of (by decide +kernel), got (by decide +kernel), got
    (by decide +kernel), by decide +kernel⟩,
   ⟨Pooling.wit15, (ring 1), (Pooling.fail5 id), _, _, (nsp 20), permitted_of (by decide +kernel), got (by decide +kernel),
    got (by decide +kernel), by decide +kernel⟩⟩

/-- Obligations.PowerFails. -/
theorem witness_PowerFails :
    (∃ (s : State), s.run.powered = true ∧ s.run.pfail = none) ∧
    (∃ (s : State) (t0 d : Nat) (x : DieSt), s.run.pfail = some t0 ∧ s.die? d = some x ∧ s.run.powered = true ∧ s.clk.tick
      = t0 + 2 ∧ 4 < s.run.phase ∧ x.alive = true ∧ ∀ q ∈ s.pools, q.unsettled = false) ∧
    (∃ (s : State) (t0 : Nat), s.run.pfail = some t0 ∧ s.run.powered = true ∧ s.run.backupEn = false ∧ anyHold s = true ∧
      t0 + 50 ≤ s.clk.tick) ∧
    (∃ (s : State) (t0 d : Nat) (x : DieSt), s.run.pfail = some t0 ∧ s.die? d = some x ∧ s.run.powered = true ∧ d ∈
      vaultsLeft s ∧ t0 + 3 + vaultTicks s d ≤ s.clk.tick) ∧
    (∃ (s : State) (t0 : Nat), s.run.pfail = some t0 ∧ s.run.powered = true ∧ s.run.pfOff = none) ∧
    (∃ (s : State) (o e : Nat), s.run.pfOff = some o ∧ s.run.pfEnd = some e ∧ s.run.powered = true ∧ s.pw.trip = false ∧
      max o e + 250 ≤ s.clk.tick ∧ s.run.pfReady = true ∧ (s.die? s.id.lead).isSome = true) ∧
    (∃ (s : State) (o e : Nat), s.run.pfOff = some o ∧ s.run.pfEnd = some e ∧ s.run.powered = true ∧ s.pw.trip = false ∧
      max o e + 250 ≤ s.clk.tick ∧ s.run.pfReady = false) :=
  ⟨⟨Starting.wit9, by decide +kernel⟩,
   ⟨(Fresh.at2 Starting.pf), _, 0, _, got (by decide +kernel), got (by decide +kernel), by decide +kernel⟩,
   ⟨Starting.pf, _, got (by decide +kernel), by decide +kernel⟩,
   ⟨Bounds.pfv, _, 0, _, got (by decide +kernel), got (by decide +kernel), by decide +kernel⟩,
   ⟨Starting.pf, _, got (by decide +kernel), by decide +kernel⟩,
   ⟨(Starting.ret true), _, _, got (by decide +kernel), got (by decide +kernel), by decide +kernel⟩,
   ⟨(Starting.ret false), _, _, got (by decide +kernel), got (by decide +kernel), by decide +kernel⟩⟩

/-- Obligations.PowerStatesChange. -/
theorem witness_PowerStatesChange :
    (∃ (p : Post) (r : Machine.Ring) (s : State) (st cap : Nat), Permitted Op.setPowerState p r s ∧ arg p 44 1 = st ∧ arg p
      48 4 = cap ∧ s.fw.active = false ∧ (3 < st ∨ badCap s st cap = true)) ∧
    (∃ (p : Post) (r : Machine.Ring) (s : State) (st cap : Nat), Permitted Op.setPowerState p r s ∧ arg p 44 1 = st ∧ arg p
      48 4 = cap ∧ s.fw.active = false ∧ st ≤ 3 ∧ badCap s st cap = false ∧ Option.any (fun g => g.cmd.isSome) s.pw.chg =
      true) ∧
    (∃ (p : Post) (r : Machine.Ring) (s : State) (st cap : Nat), Permitted Op.setPowerState p r s ∧ arg p 44 1 = st ∧ arg p
      48 4 = cap ∧ s.fw.active = false ∧ st ≤ 3 ∧ badCap s st cap = false ∧ s.pw.pstate = st ∧ (st = 1 → s.pw.cap = cap) ∧
      s.pw.chg = none) ∧
    (∃ (p : Post) (r : Machine.Ring) (s : State) (st cap : Nat), Permitted Op.setPowerState p r s ∧ arg p 44 1 = st ∧ arg p
      48 4 = cap ∧ s.fw.active = false ∧ st ≤ 3 ∧ badCap s st cap = false ∧ (s.pw.pstate ≠ st ∨ st = 1 ∧ s.pw.cap ≠ cap) ∧
      s.pw.chg = none ∧ refusedState s st = true) ∧
    (∃ (p : Post) (r : Machine.Ring) (s : State) (st cap : Nat), Permitted Op.setPowerState p r s ∧ arg p 44 1 = st ∧ arg p
      48 4 = cap ∧ s.fw.active = false ∧ st ≤ 3 ∧ badCap s st cap = false ∧ (s.pw.pstate ≠ st ∨ st = 1 ∧ s.pw.cap ≠ cap) ∧
      s.pw.chg = none ∧ refusedState s st = false) ∧
    (∃ (p : Post) (r : Machine.Ring) (s : State) (st cap : Nat), Permitted Op.setPowerState p r s ∧ arg p 44 1 = st ∧ arg p
      48 4 = cap ∧ s.fw.active = false ∧ st ≤ 3 ∧ badCap s st cap = false ∧ (s.pw.pstate ≠ st ∨ st = 1 ∧ s.pw.cap ≠ cap) ∧
      s.pw.chg = none ∧ st < 2) ∧
    (∃ (p : Post) (r : Machine.Ring) (s : State) (st cap : Nat), Permitted Op.setPowerState p r s ∧ arg p 44 1 = st ∧ arg p
      48 4 = cap ∧ s.fw.active = true) ∧
    (∃ (s : State) (g : PChange) (t0 : Nat), s.pw.chg = some g ∧ g.started = some t0 ∧ s.running = true ∧ t0 + changeTicks
      s.pw.pstate g.target ≤ s.clk.tick ∧ (s.die? s.id.lead).isSome = true) ∧
    (∃ (s : State) (g : PChange) (c : CmdRef), s.pw.chg = some g ∧ g.cmd = some c ∧ s.running = true ∧ g.started = none ∧
      s.fw.active = false ∧ g.asked + 250000 ≤ s.clk.tick ∧ (s.cmd? c).isSome = true ∧ (s.ring? c.die c.ring).isSome = true ∧
      Option.any (fun x => x.linkUp) (s.die? c.die) = true) ∧
    (∃ (s : State), s.running = true ∧ s.pw.pstate = 3 ∧ s.pw.chg = none ∧ urgentWork s = true ∧ (s.die? s.id.lead).isSome
      = true) :=
  ⟨⟨(sf [(44, 4)]), (ring 1), full, _, _, permitted_of (by decide +kernel), rfl, rfl, by decide +kernel⟩,
   ⟨(sf [(44,1),(48,60)]), (ring 1), Fresh.chgS, _, _, permitted_of (by decide +kernel), rfl, rfl, by decide +kernel⟩,
   ⟨(sf [(44,0)]), (ring 1), full, _, _, permitted_of (by decide +kernel), rfl, rfl, by decide +kernel⟩,
   ⟨(sf [(44, 2)]), (ring 1), (Service.pr .separated full), _, _, permitted_of (by decide +kernel), rfl, rfl,
    by decide +kernel⟩,
   ⟨(sf [(44,1),(48,60)]), (ring 1), full, _, _, permitted_of (by decide +kernel), rfl, rfl, by decide +kernel⟩,
   ⟨(sf [(44,1),(48,60)]), (ring 1), full, _, _, permitted_of (by decide +kernel), rfl, rfl, by decide +kernel⟩,
   ⟨(sf [(44,0)]), (ring 1), Fresh.live, _, _, permitted_of (by decide +kernel), rfl, rfl, by decide +kernel⟩,
   ⟨Settings.wit15, _, _, got (by decide +kernel), got (by decide +kernel), by decide +kernel⟩,
   ⟨Settings.wit18, _, _, got (by decide +kernel), got (by decide +kernel), by decide +kernel⟩,
   ⟨Planning.wit1, by decide +kernel⟩⟩

/-- Obligations.PowerStatesKeepKeys. -/
theorem witness_PowerStatesKeepKeys :
    ∃ (c : Instr), c ∈ [Instr.powerStateChangeDone, Instr.powerStateTimeout] :=
  ⟨.powerStateTimeout, by decide +kernel⟩

/-- Obligations.ReadOfZeroBlocks. -/
theorem witness_ReadOfZeroBlocks :
    (∃ (op : Op) (p : Post) (r : Machine.Ring) (s : State) (v : Vol) (q : Pool), Direct op p r s ∧ (op = Op.read ∨ op =
      Op.verify) ∧ s.vol? (p.entry.vol.toNat) = some v ∧ v.deleting = none ∧ v.pif = 0 ∧ s.pool? v.pool = some q ∧ permits
      (cmdOf op p r s) v = true ∧ ioCheck s (cmdOf op p r s) v = none ∧ q.home = r.die ∧ mayGo s (cmdOf op p r s) = true ∧
      poolHeld s q = false ∧ 0 < p.entry.nblk.toNat ∧ (∀ d ∈ s.cmds, d.clamp = true → d.entry.vol ≠ p.entry.vol) ∧ (∀ b ∈
      s.cache, b.vol ≠ v.num) ∧ (isCons s (cmdOf op p r s) v = true → ∀ (k : StepLock), q.lock = some k → inRange v (cmdOf op
      p r s) k.lo k.hi = false) ∧ ∀ (l : Nat), p.entry.lba.toNat ≤ l → l < p.entry.lba.toNat + p.entry.nblk.toNat → v.isZero
      l = true ∧ q.isLost v.num l = false) ∧
    (∃ (op : Op) (p : Post) (r : Machine.Ring) (s : State) (v : Vol) (q : Pool), Direct op p r s ∧ (op = Op.read ∨ op =
      Op.verify) ∧ s.vol? (p.entry.vol.toNat) = some v ∧ v.deleting = none ∧ v.pif = 0 ∧ s.pool? v.pool = some q ∧ permits
      (cmdOf op p r s) v = true ∧ ioCheck s (cmdOf op p r s) v = none ∧ q.home ≠ r.die ∧ ringBehind s (cmdOf op p r s) =
      false) :=
  ⟨⟨.read, (Bounds.io 1022 2), R, full, vol, pool, direct_of (by decide +kernel), by decide +kernel⟩,
   ⟨.read, (Bounds.io 1022 2), R, Fresh.awayS, vol, Fresh.away, direct_of (by decide +kernel), by decide +kernel⟩⟩

/-- Obligations.RebuildsAdvance. -/
theorem witness_RebuildsAdvance :
    (∃ (p : Post) (r : Machine.Ring) (s : State) (q : Pool), Permitted Op.rebuildControl p r s ∧ s.pool? (arg p 44 2) =
      some q ∧ q.rebuild.running = true ∧ arg p 46 1 = 0) ∧
    (∃ (p : Post) (r : Machine.Ring) (s : State) (q : Pool), Permitted Op.rebuildControl p r s ∧ s.pool? (arg p 44 2) =
      some q ∧ q.rebuild.running = true ∧ arg p 46 1 = 1) ∧
    (∃ (p : Post) (r : Machine.Ring) (s : State) (q : Pool), Permitted Op.rebuildControl p r s ∧ s.pool? (arg p 44 2) =
      some q ∧ q.rebuild.running = false ∧ arg p 46 1 ≤ 1) ∧
    (∃ (n : Nat) (q : Pool) (s : State), s.pool? n = some q ∧ poolRuns s q = true ∧ q.unsettled = false ∧ q.rebuild.running
      = false ∧ sweepAllowed s q = true ∧ copiesOwed s q = false) ∧
    (∃ (n : Nat) (q : Pool) (s : State), s.pool? n = some q ∧ poolRuns s q = true ∧ q.unsettled = false ∧ q.rebuild.running
      = true ∧ q.rebuild.resort = true ∧ q.rebuild.flight = [] ∧ workLeft s q ≠ []) ∧
    (∃ (n : Nat) (q : Pool) (s : State), s.pool? n = some q ∧ poolRuns s q = true ∧ q.unsettled = false ∧ q.rebuild.running
      = true ∧ q.rebuild.resort = true ∧ q.rebuild.flight = [] ∧ workLeft s q = []) ∧
    (∃ (n : Nat) (q : Pool) (s : State) (tile : Nat) (new : Bool), s.pool? n = some q ∧ poolRuns s q = true ∧
      q.rebuild.running = true ∧ (new, tile) ∈ q.rebuild.flight ∧ heldWork s (Work.rebuild n) = false ∧ tileHeld s q new tile
      = false) ∧
    (∃ (n : Nat) (q : Pool) (s : State) (tile : Nat) (new : Bool), s.pool? n = some q ∧ poolRuns s q = true ∧
      q.rebuild.running = true ∧ (new, tile) ∈ q.rebuild.flight ∧ heldWork s (Work.rebuild n) = false ∧ tileHeld s q new tile
      = false ∧ ∀ st ∈ (q.geomOf new).stripesOf tile, q.lack new st ≤ (q.geomOf new).m) ∧
    (∃ (n : Nat) (q : Pool) (s : State) (j : TileJob) (x : Nat), s.pool? n = some q ∧ poolRuns s q = true ∧ j ∈
      q.rebuild.jobs ∧ j.copy = none ∧ (x, false) ∈ j.work ∧ x ∉ j.again ∧ q.owes j.new x j.tile = true ∧ q.stateAt j.new x ≠
      some MState.replacing ∧ ∀ m ∈ q.members ++ q.pending, m.state ≠ MState.draining ∧ m.state ≠ MState.replacing) ∧
    (∃ (n : Nat) (q : Pool) (s : State), s.pool? n = some q ∧ poolRuns s q = true ∧ q.listDirty = true) ∧
    (∃ (n : Nat) (q : Pool) (s : State) (x tile : Nat) (new : Bool) (j : TileJob), s.pool? n = some q ∧ (∃ (tile' : Nat),
      tile' ≠ j.tile ∧ tile' ∈ workTiles s q new ∧ q.owesCopy new x tile' = true) ∧ poolRuns s q = true ∧ (List.map (fun x =>
      x.2.2) (List.filter (fun w => w.1 == new && w.2.1 == x) (copyLeft s q))).min? = some tile ∧ tileHeld s q new tile =
      false ∧ heldWork s (Work.copyBack n) = false ∧ powerStops s 5 = false ∧ j ∈ q.rebuild.jobs ∧ j.new = new ∧ j.copy =
      some x ∧ q.owesCopy new x j.tile = true ∧ (List.map (fun x => x.ns) (q.members ++ q.pending)).Nodup ∧ (∀ m ∈ q.members
      ++ q.pending, m.state ≠ MState.draining) ∧ q.reshape = none) :=
  ⟨⟨(sf [(44,3),(46,0)]), (ring 1), Pooling.wit30, _, permitted_of (by decide +kernel), got (by decide +kernel),
    by decide +kernel⟩,
   ⟨(sf [(44,3),(46,1)]), (ring 1), Pooling.wit32, _, permitted_of (by decide +kernel), got (by decide +kernel),
    by decide +kernel⟩,
   ⟨(sf [(44,3),(46,1)]), (ring 1), (Pooling.fail5 id), _, permitted_of (by decide +kernel), got (by decide +kernel),
    by decide +kernel⟩,
   ⟨3, _, (Pooling.fail5 id), got (by decide +kernel), by decide +kernel⟩,
   ⟨3, _, Pooling.wit36, got (by decide +kernel), by decide +kernel⟩,
   ⟨3, _, Fresh.noWork, got (by decide +kernel), by decide +kernel⟩,
   ⟨3, _, (Pooling.fail5 fun q => { q with rebuild := { running := true, flight := [(false, 0)] } }), 0, false, got
    (by decide +kernel), by decide +kernel⟩,
   ⟨3, _, (Pooling.fail5 fun q => { q with rebuild := { running := true, flight := [(false, 0)] } }), 0, false, got
    (by decide +kernel), by decide +kernel⟩,
   ⟨3, _, (Pooling.fail5 fun q => { q with rebuild := { running := true, jobs := [⟨false, 0, none, [(2, false)], []⟩] } }),
    ⟨false, 0, none, [(2, false)], []⟩, 2, got (by decide +kernel), by decide +kernel⟩,
   ⟨3, _, Pooling.wit39, got (by decide +kernel), by decide +kernel⟩,
   ⟨3, _, Fresh.copying, 2, 0, false, ⟨false, 1, some 2, [], []⟩, got (by decide +kernel), ⟨0, by decide +kernel⟩,
    by decide +kernel⟩⟩

/-- Obligations.RecorderCommands. -/
theorem witness_RecorderCommands :
    (∃ (p : Post) (r : Machine.Ring) (s : State), Permitted Op.logFreeze p r s ∧ s.log.frozen = false) ∧
    (∃ (p : Post) (r : Machine.Ring) (s : State), Permitted Op.logFreeze p r s ∧ s.log.frozen = true) ∧
    (∃ (p : Post) (r : Machine.Ring) (s : State), Permitted Op.logThaw p r s ∧ ∀ x ∈ s.dies, x.recd.clearPending = none) ∧
    (∃ (p : Post) (r : Machine.Ring) (s : State), Permitted Op.logClearChallenge p r s ∧ s.log.secret = none) ∧
    (∃ (p : Post) (r : Machine.Ring) (s : State), Permitted Op.logClearChallenge p r s ∧ s.log.secret.isSome = true ∧
      s.log.busyUntil ≤ s.clk.tick) ∧
    (∃ (p : Post) (r : Machine.Ring) (s : State), Permitted Op.logClear p r s ∧ p.entry.dlen.toNat = 32 ∧ s.log.challenge =
      none) ∧
    (∃ (s : State), s.on = true ∧ s.log.frozen = true ∧ s.log.frozenAt + 15000000 ≤ s.clk.tick ∧ (s.die? s.id.lead).isSome
      = true) ∧
    (∃ (s : State) (h : Challenge), s.log.challenge = some h ∧ s.on = true ∧ h.at_ + 15000000 ≤ s.clk.tick) :=
  ⟨⟨(sf []), R, Holders.wit44, permitted_of (by decide +kernel), by decide +kernel⟩,
   ⟨(sf []), R, Holders.frz, permitted_of (by decide +kernel), by decide +kernel⟩,
   ⟨(sf []), R, Holders.frz, permitted_of (by decide +kernel), by decide +kernel⟩,
   ⟨(sf []), R, full, permitted_of (by decide +kernel), by decide +kernel⟩,
   ⟨(sf []), R, (Holders.sec full), permitted_of (by decide +kernel), by decide +kernel⟩,
   ⟨(sf [] 32 (zeros 32)), R, (Holders.sec full), permitted_of (by decide +kernel), by decide +kernel⟩,
   ⟨Holders.frz, by decide +kernel⟩,
   ⟨(Holders.chl 0), _, got (by decide +kernel), by decide +kernel⟩⟩

/-- Obligations.ReflectPosts. -/
theorem witness_ReflectPosts :
    (∃ (op : Op) (p : Post) (r : Machine.Ring) (s : State) (c : Cmd) (st : W16), Direct op p r s ∧ cmdOf op p r s = c ∧
      reflectCheck s c = some st ∧ op ∈ [Op.reflectWrite, Op.reflectRead, Op.reflectAdd, Op.reflectCas]) ∧
    (∃ (op : Op) (p : Post) (r : Machine.Ring) (s : State) (c : Cmd) (w : Exch), Direct op p r s ∧ cmdOf op p r s = c ∧
      s.win? r.die c.lep c.rep = some w ∧ op ∈ [Op.reflectWrite, Op.reflectRead, Op.reflectAdd, Op.reflectCas] ∧ reflectCheck
      s c = none ∧ op = Op.reflectRead ∧ c.key = 0 ∧ c.gen = 1 ∧ c.roff + p.entry.dlen.toNat ≤ 262144 ∧ w.bad = false) ∧
    (∃ (op : Op) (p : Post) (r : Machine.Ring) (s : State) (c : Cmd), Direct op p r s ∧ cmdOf op p r s = c ∧ op ∈
      [Op.reflectWrite, Op.reflectRead, Op.reflectAdd, Op.reflectCas] ∧ reflectCheck s c = none ∧ op = Op.reflectRead ∧ c.key
      = 0 ∧ (s.win? r.die c.lep c.rep = none ∨ c.gen = 1 ∧ (s.win? r.die c.lep c.rep).isSome = true ∧ 262144 < c.roff +
      p.entry.dlen.toNat)) ∧
    (∃ (op : Op) (p : Post) (r : Machine.Ring) (s : State) (c : Cmd) (w : Exch), Direct op p r s ∧ cmdOf op p r s = c ∧
      s.win? r.die c.lep c.rep = some w ∧ op ∈ [Op.reflectWrite, Op.reflectRead, Op.reflectAdd, Op.reflectCas] ∧ reflectCheck
      s c = none ∧ op = Op.reflectRead ∧ c.key = 0 ∧ c.gen ≠ 1) ∧
    (∃ (op : Op) (p : Post) (r : Machine.Ring) (s : State) (c : Cmd) (w : Exch), Direct op p r s ∧ cmdOf op p r s = c ∧
      s.win? r.die c.lep c.rep = some w ∧ op ∈ [Op.reflectWrite, Op.reflectRead, Op.reflectAdd, Op.reflectCas] ∧ reflectCheck
      s c = none ∧ op = Op.reflectRead ∧ c.key = 0 ∧ c.gen = 1 ∧ c.roff + p.entry.dlen.toNat ≤ 262144 ∧ w.bad = true) ∧
    (∃ (op : Op) (p : Post) (r : Machine.Ring) (s : State) (c : Cmd), Direct op p r s ∧ cmdOf op p r s = c ∧ op ∈
      [Op.reflectWrite, Op.reflectRead, Op.reflectAdd, Op.reflectCas] ∧ reflectCheck s c = none ∧ (¬(op = Op.reflectRead ∧
      c.key = 0)) ∧ outstanding s r.die (some (c.lep, c.rep)) < 64 ∧ outstanding s r.die none < 4096 ∧ routeUp s r.die c.rep
      = true) ∧
    (∃ (op : Op) (p : Post) (r : Machine.Ring) (s : State) (c : Cmd), Direct op p r s ∧ cmdOf op p r s = c ∧ op ∈
      [Op.reflectWrite, Op.reflectRead, Op.reflectAdd, Op.reflectCas] ∧ reflectCheck s c = none ∧ (¬(op = Op.reflectRead ∧
      c.key = 0)) ∧ outstanding s r.die (some (c.lep, c.rep)) < 64 ∧ outstanding s r.die none < 4096 ∧ routeUp s r.die c.rep
      = false) ∧
    (∃ (op : Op) (p : Post) (r : Machine.Ring) (s : State) (c : Cmd), Direct op p r s ∧ cmdOf op p r s = c ∧ op ∈
      [Op.reflectWrite, Op.reflectRead, Op.reflectAdd, Op.reflectCas] ∧ reflectCheck s c = none ∧ (¬(op = Op.reflectRead ∧
      c.key = 0)) ∧ (64 ≤ outstanding s r.die (some (c.lep, c.rep)) ∨ 4096 ≤ outstanding s r.die none)) :=
  ⟨⟨.reflectRead, (Holders.rf [(48,1),(52,1)] 4), R, (Holders.eps full), _, _, direct_of (by decide +kernel), rfl, got
    (by decide +kernel), by decide +kernel⟩,
   ⟨.reflectRead, Holders.wit19, R, Holders.wit20, _, _, direct_of (by decide +kernel), rfl, got (by decide +kernel),
    by decide +kernel⟩,
   ⟨.reflectRead, Holders.wit19, R, (Holders.eps full), _, direct_of (by decide +kernel), rfl, by decide +kernel⟩,
   ⟨.reflectRead, (Holders.rf [(48,0),(50,1),(52,262140)] 4), R, Holders.wit20, _, _, direct_of (by decide +kernel), rfl,
    got (by decide +kernel), by decide +kernel⟩,
   ⟨.reflectRead, Holders.wit19, R, Fresh.badWin, _, _, direct_of (by decide +kernel), rfl, got (by decide +kernel),
    by decide +kernel⟩,
   ⟨.reflectWrite, Holders.wit22, R, (Holders.eps full), _, direct_of (by decide +kernel), rfl, by decide +kernel⟩,
   ⟨.reflectWrite, Holders.wit22, R, Holders.wit23, _, direct_of (by decide +kernel), rfl, by decide +kernel⟩,
   ⟨.reflectWrite, Holders.wit22, R, Fresh.msgs64, _, direct_of (by decide +kernel), rfl, by decide +kernel⟩⟩

/-- Obligations.RegionsAndEndpoints. -/
theorem witness_RegionsAndEndpoints :
    (∃ (p : Post) (r : Machine.Ring) (s : State) (x : Ep) (c : Cmd) (k : Nat), Permitted Op.registerRegion p r s ∧ cmdOf
      Op.registerRegion p r s = c ∧ freeKey s r.die = some k ∧ localEp s c c.lep = some x ∧ epPermits c x = true ∧ (bitAt
      (arg p 46 1) 2 = true → bitAt (arg p 46 1) 3 = true) ∧ 1 ≤ arg p 56 4 ∧ arg p 56 4 % 8 = 0 ∧ (bitAt (arg p 46 1) 3 =
      true → arg p 56 4 ≤ 2 ^ 26 ∧ ddrRegions s r.die + arg p 56 4 ≤ 2 ^ 28) ∧ (List.filter (fun g => g.die == r.die)
      s.refl.regions).length < 1024) ∧
    (∃ (p : Post) (r : Machine.Ring) (s : State) (x : Ep) (c : Cmd) (g : Region), Permitted Op.revokeRegion p r s ∧ cmdOf
      Op.revokeRegion p r s = c ∧ s.region? r.die (arg p 46 2) = some g ∧ localEp s c c.lep = some x ∧ epPermits c x = true ∧
      g.ep = x.ep) ∧
    (∃ (p : Post) (r : Machine.Ring) (s : State) (c : Cmd) (a : W16), cmdOf Op.endpointStatus p r s = c ∧ c.lep = a ∧
      Permitted Op.endpointStatus p r s ∧ epNum a ≠ 0 ∧ epAddr s.id.pkgid r.die (epNum a) = a ∧ bits (arg p 46 1) 1 0 = 0 ∧
      s.ep? r.die (epNum a) = none ∧ bits (arg p 50 2) 10 0 < vectorsOf s r.die r.fn) ∧
    (∃ (p : Post) (r : Machine.Ring) (s : State) (x : Ep) (c : Cmd) (a : W16), cmdOf Op.endpointStatus p r s = c ∧ c.lep =
      a ∧ Permitted Op.endpointStatus p r s ∧ epNum a ≠ 0 ∧ epAddr s.id.pkgid r.die (epNum a) = a ∧ s.ep? r.die (epNum a) =
      some x ∧ x.fn = r.fn ∧ epPermits c x = true ∧ bits (arg p 46 1) 1 0 = 1 ∧ x.closing = false ∧ (∀ m ∈ s.refl.msgs, m.cmd
      ≠ some r.ref) ∧ (∀ g ∈ s.refl.regions, r.ref ∉ g.waiters) ∧ ∀ g ∈ s.refl.regions, g.die = r.die → g.ep ≠ x.ep) ∧
    (∃ (p : Post) (r : Machine.Ring) (s : State) (x : Ep) (c : Cmd) (a : W16), cmdOf Op.endpointStatus p r s = c ∧ c.lep =
      a ∧ Permitted Op.endpointStatus p r s ∧ epNum a ≠ 0 ∧ epAddr s.id.pkgid r.die (epNum a) = a ∧ s.ep? r.die (epNum a) =
      some x ∧ x.fn = r.fn ∧ epPermits c x = true ∧ bits (arg p 46 1) 1 0 = 1 ∧ x.closing = false ∧ (∀ m ∈ s.refl.msgs, m.cmd
      ≠ some r.ref) ∧ (∀ g ∈ s.refl.regions, r.ref ∉ g.waiters) ∧ ∃ g ∈ s.refl.regions, g.die = r.die ∧ g.ep = x.ep) ∧
    (∃ (p : Post) (r : Machine.Ring) (s : State) (x : Ep) (c : Cmd) (a : W16), cmdOf Op.endpointStatus p r s = c ∧ c.lep =
      a ∧ Permitted Op.endpointStatus p r s ∧ epNum a ≠ 0 ∧ epAddr s.id.pkgid r.die (epNum a) = a ∧ s.ep? r.die (epNum a) =
      some x ∧ x.fn = r.fn ∧ epPermits c x = true ∧ bits (arg p 46 1) 1 0 = 2 ∧ 64 ≤ p.entry.dlen.toNat ∧ p.entry.dlen.toNat
      % 32 = 0) ∧
    (∃ (p : Post) (r : Machine.Ring) (s : State) (x : Ep) (c : Cmd) (a : W16) (q : Qp), cmdOf Op.endpointStatus p r s = c ∧
      c.lep = a ∧ Permitted Op.endpointStatus p r s ∧ s.qp? r.die a (BitVec.ofNat 16 (arg p 48 2)) = some q ∧ epNum a ≠ 0 ∧
      epAddr s.id.pkgid r.die (epNum a) = a ∧ s.ep? r.die (epNum a) = some x ∧ x.fn = r.fn ∧ epPermits c x = true ∧ bits (arg
      p 46 1) 1 0 = 3 ∧ x.closing = false) ∧
    (∃ (d key : Nat) (g : Region) (s : State), s.region? d key = some g ∧ g.drained = false) ∧
    (∃ (d key : Nat) (g : Region) (s : State), s.region? d key = some g ∧ g.drained = true) :=
  ⟨⟨Holders.wit24, R, (Holders.eps full), Holders.ep3, _, _, permitted_of (by decide +kernel), rfl, got (by decide +kernel),
    by decide +kernel⟩,
   ⟨Holders.wit26, R, (Holders.regs [Holders.rg] (Holders.eps full)), Holders.ep3, _, _, permitted_of (by decide +kernel),
    rfl, got (by decide +kernel), by decide +kernel⟩,
   ⟨Holders.wit28, R, full, _, _, rfl, rfl, permitted_of (by decide +kernel), by decide +kernel⟩,
   ⟨Holders.wit26, R, (Holders.qps (Holders.eps full)), Holders.ep3, _, _, rfl, rfl, permitted_of (by decide +kernel),
    by decide +kernel⟩,
   ⟨Holders.wit26, R, Holders.wit29, Holders.ep3, _, _, rfl, rfl, permitted_of (by decide +kernel), by decide +kernel⟩,
   ⟨Holders.wit30, R, (Holders.qps (Holders.eps full)), Holders.ep3, _, _, rfl, rfl, permitted_of (by decide +kernel),
    by decide +kernel⟩,
   ⟨Holders.wit31, R, (Holders.qps (Holders.eps full)), Holders.ep3, _, _, _, rfl, rfl, permitted_of (by decide +kernel),
    got (by decide +kernel), by decide +kernel⟩,
   ⟨0, 1, _, Holders.wit33, got (by decide +kernel), by decide +kernel⟩,
   ⟨0, 1, _, Fresh.drained, got (by decide +kernel), by decide +kernel⟩⟩

/-- Obligations.RegistersWritten. -/
theorem witness_RegistersWritten :
    (∃ (port : Nat) (a : Sys2Proof.Acc) (s : State), actsReset s port = true ∧ a.whole = true ∧ a.field 31 16 = 53733 ∧
      a.field 0 0 = 1) ∧
    (∃ (s : State), s.run.powered = true ∧ s.run.pfail = none) ∧
    (∃ (port : Nat) (a : Sys2Proof.Acc) (s : State), actsSome s port = true ∧ a.high = true ∧ a.field 63 63 = 1) ∧
    (∃ (d : Nat) (x : DieSt) (s : State), s.die? d = some x ∧ actsSome s d = true) ∧
    (∃ (d n : Nat) (b : W64) (a : Sys2Proof.Acc) (s : State), actsSome s d = true ∧ d = s.id.lead ∧ a.low = true ∧
      s.meter.ring = some (b, n) ∧ 0 < n ∧ a.field 15 0 < n ∧ distance n (meterHeadPos n s.meter.head) (meterHeadPos n
      (BitVec.ofNat 17 (a.field 16 0))) ≤ distance n (meterHeadPos n s.meter.head) s.meter.dhead) ∧
    (∃ (d n : Nat) (b : W64) (a : Sys2Proof.Acc) (s : State), actsSome s d = true ∧ d = s.id.lead ∧ a.low = true ∧
      s.meter.ring = some (b, n) ∧ 0 < n ∧ a.field 15 0 < n ∧ distance n (meterHeadPos n s.meter.head) s.meter.dhead <
      distance n (meterHeadPos n s.meter.head) (meterHeadPos n (BitVec.ofNat 17 (a.field 16 0)))) ∧
    (∃ (d fn vec : Nat) (f : FnSt) (s : State), s.fn? d fn = some f ∧ actsAll s d = true ∧ vec < vectorsOf s d fn) ∧
    (∃ (port fn off : Nat) (a : Sys2Proof.Acc) (s : State) (x : DieSt), s.die? port = some x ∧ s.isPf port fn = true ∧
      a.width = 64 ∧ off % 8 = 0 ∧ actsSome s port = true ∧ 12288 ≤ off ∧ off < 14336) ∧
    (∃ (port fn off : Nat) (a : Sys2Proof.Acc) (s : State) (f : FnSt), s.fn? port fn = some f ∧ s.isPf port fn = true ∧
      a.width = 64 ∧ off % 8 = 0 ∧ actsAll s port = true ∧ off = 131104 ∧ setupRing s port fn = none) ∧
    (∃ (port fn off : Nat) (a : Sys2Proof.Acc) (s : State) (f : FnSt), s.fn? port fn = some f ∧ s.isPf port fn = true ∧
      a.width = 64 ∧ off % 8 = 0 ∧ actsAll s port = true ∧ 65536 ≤ off ∧ (off - 65536) / 16 < vectorsOf s port fn ∧ off <
      81920 ∧ (off - 65536) % 16 = 0) ∧
    (∃ (port fn off : Nat) (a : Sys2Proof.Acc) (s : State), s.isPf port fn = true ∧ a.width = 64 ∧ off % 8 = 0 ∧ (off <
      12288 ∨ 32768 ≤ off ∧ off < 65536)) :=
  ⟨⟨0, Settings.wit44, full, by decide +kernel⟩,
   ⟨full, by decide +kernel⟩,
   ⟨0, Settings.wit45, full, by decide +kernel⟩,
   ⟨0, _, (Settings.ev full), got (by decide +kernel), by decide +kernel⟩,
   ⟨0, 16, 0x1000, Bounds.wit5, Bounds.wit6, by decide +kernel⟩,
   ⟨0, 16, 0x1000, Bounds.wit7, Bounds.wit6, by decide +kernel⟩,
   ⟨0, 0, 3, _, Settings.wit47, got (by decide +kernel), by decide +kernel⟩,
   ⟨0, 0, 0x3010, Settings.wit49, (Settings.ev full), _, got (by decide +kernel), by decide +kernel⟩,
   ⟨0, 0, 0x20020, Settings.wit49, full, _, got (by decide +kernel), by decide +kernel⟩,
   ⟨0, 0, 0x10010, Settings.wit49, full, _, got (by decide +kernel), by decide +kernel⟩,
   ⟨0, 0, 0x8000, Settings.wit49, full, by decide +kernel⟩⟩

/-- Obligations.ReportsAnswer, part 1. -/
theorem witness_ReportsAnswer_1 :
    (∃ (p : Post) (r : Machine.Ring) (s : State), Permitted Op.identify p r s ∧ 4096 ≤ p.entry.dlen.toNat ∧ arg p 44 1 = 0) ∧
    (∃ (p : Post) (r : Machine.Ring) (s : State) (l : List Nat), Permitted Op.identify p r s ∧ sortNat (List.map (fun x =>
      x.num) (List.filter (fun v => v.deleting.isNone && permits (cmdOf Op.identify p r s) v) s.vols)) = l ∧ 4096 ≤
      p.entry.dlen.toNat ∧ arg p 44 1 = 1) ∧
    (∃ (p : Post) (r : Machine.Ring) (s : State) (v : Vol), Permitted Op.identify p r s ∧ s.vol? (arg p 46 2) = some v ∧
      4096 ≤ p.entry.dlen.toNat ∧ arg p 44 1 = 2 ∧ v.deleting = none ∧ permits (cmdOf Op.identify p r s) v = true) ∧
    (∃ (p : Post) (r : Machine.Ring) (s : State), Permitted Op.identify p r s ∧ 4096 ≤ p.entry.dlen.toNat ∧ s.isPf r.die
      r.fn = true ∧ arg p 44 1 = 3) ∧
    (∃ (p : Post) (r : Machine.Ring) (s : State) (l : List Ns), Permitted Op.identify p r s ∧ List.take 63 (List.drop (arg
      p 48 4) s.nss) = l ∧ 4096 ≤ p.entry.dlen.toNat ∧ s.isPf r.die r.fn = true ∧ arg p 44 1 = 4) ∧
    (∃ (p : Post) (r : Machine.Ring) (s : State) (q : Pool), Permitted Op.poolStatus p r s ∧ s.pool? (arg p 44 2) = some q
      ∧ 512 ≤ p.entry.dlen.toNat) ∧
    (∃ (p : Post) (r : Machine.Ring) (s : State) (q : Pool) (l : List Bytes), Permitted Op.memberStatus p r s ∧ s.pool?
      (arg p 44 2) = some q ∧ List.take (p.entry.dlen.toNat / 64) (memberEntries s q (arg p 46 2)) = l ∧ 64 ≤
      p.entry.dlen.toNat) ∧
    (∃ (p : Post) (r : Machine.Ring) (s : State) (q : Pool), Permitted Op.lostBlockList p r s ∧ s.pool? (arg p 44 2) = some
      q ∧ 16 ≤ p.entry.dlen.toNat) ∧
    (∃ (p : Post) (r : Machine.Ring) (s : State) (x : Tenant), Permitted Op.meterRead p r s ∧ s.tenant? (arg p 44 2) = some
      x ∧ (s.ringTenant r = none ∨ s.ringTenant r = some x.num) ∧ 128 ≤ p.entry.dlen.toNat) ∧
    (∃ (p : Post) (r : Machine.Ring) (s : State) (x : DieSt), Permitted Op.tickBudgetReport p r s ∧ s.die? (bits (arg p 44
      1) 2 0) = some x ∧ 256 ≤ p.entry.dlen.toNat ∧ p.entry.dlen.toNat % 32 = 0) ∧
    (∃ (p : Post) (r : Machine.Ring) (s : State) (l : List Rec), Permitted Op.logRead p r s ∧ List.take
      ((p.entry.dlen.toNat - 128) / 64) (List.drop (arg p 48 4) (combined s)) = l ∧ s.log.indexing = false ∧ 128 ≤
      p.entry.dlen.toNat ∧ p.entry.dlen.toNat % 64 = 0) ∧
    (∃ (p : Post) (r : Machine.Ring) (s : State), Permitted Op.healthReport p r s ∧ 4096 ≤ p.entry.dlen.toNat) :=
  ⟨⟨(Entries.rp [(44,0)] 4096), (ring 1), full, permitted_of (by decide +kernel), by decide +kernel⟩,
   ⟨(Entries.rp [(44,1)] 4096), (ring 1), full, _, permitted_of (by decide +kernel), rfl, by decide +kernel⟩,
   ⟨(Entries.rp [(44,2),(46,5)] 4096), (ring 1), full, _, permitted_of (by decide +kernel), got (by decide +kernel),
    by decide +kernel⟩,
   ⟨(Entries.rp [(44,3)] 4096), (ring 1), full, permitted_of (by decide +kernel), by decide +kernel⟩,
   ⟨(Entries.rp [(44,4)] 4096), (ring 1), full, _, permitted_of (by decide +kernel), rfl, by decide +kernel⟩,
   ⟨(Entries.rp [(44,3)] 512), (ring 1), full, _, permitted_of (by decide +kernel), got (by decide +kernel),
    by decide +kernel⟩,
   ⟨(Entries.rp [(44,3)] 128), (ring 1), full, _, _, permitted_of (by decide +kernel), got (by decide +kernel), rfl,
    by decide +kernel⟩,
   ⟨(Entries.rp [(44,3)] 16), (ring 1), Entries.wit26, _, permitted_of (by decide +kernel), got (by decide +kernel),
    by decide +kernel⟩,
   ⟨(Entries.rp [(44,9)] 128), (ring 1), Entries.wit28, _, permitted_of (by decide +kernel), got (by decide +kernel),
    by decide +kernel⟩,
   ⟨(Entries.rp [(44,1)] 288), (ring 1), Entries.wit28, _, permitted_of (by decide +kernel), got (by decide +kernel),
    by decide +kernel⟩,
   ⟨(Entries.rp [] 192), (ring 1), full, _, permitted_of (by decide +kernel), rfl, by decide +kernel⟩,
   ⟨(Entries.rp [] 4096), (ring 1), full, permitted_of (by decide +kernel), by decide +kernel⟩⟩

/-- Obligations.ReportsAnswer, part 2. -/
theorem witness_ReportsAnswer_2 :
    (∃ (p : Post) (r : Machine.Ring) (s : State) (v : Bytes), Permitted Op.getFeature p r s ∧ featureValue s (arg p 44 1)
      (arg p 46 2) = some v ∧ (arg p 44 1 = 9 → ∀ (x : Vol), s.vol? (arg p 46 2) = some x → permits (cmdOf Op.getFeature p r
      s) x = true) ∧ featureBuffer s (arg p 44 1) (arg p 46 2) = none) ∧
    (∃ (p : Post) (r : Machine.Ring) (s : State) (v b : Bytes), Permitted Op.getFeature p r s ∧ featureValue s (arg p 44 1)
      (arg p 46 2) = some v ∧ featureBuffer s (arg p 44 1) (arg p 46 2) = some b ∧ (arg p 44 1 = 9 → ∀ (x : Vol), s.vol? (arg
      p 46 2) = some x → permits (cmdOf Op.getFeature p r s) x = true) ∧ List.length b ≤ p.entry.dlen.toNat) :=
  ⟨⟨(Entries.rp [(44,1)] 0), (ring 1), full, _, permitted_of (by decide +kernel), got (by decide +kernel),
    by decide +kernel⟩,
   ⟨(Entries.rp [(44,5)] 128), (ring 1), full, _, _, permitted_of (by decide +kernel), got (by decide +kernel), got
    (by decide +kernel), by decide +kernel⟩⟩

/-- Obligations.ResetState. -/
theorem witness_ResetState :
    ∃ (x : DieSt), x ∈ State.reset.dies :=
  ⟨DieSt.reset, by decide +kernel⟩

/-- Obligations.ReshapesAdvance, part 1. -/
theorem witness_ReshapesAdvance_1 :
    (∃ (p : Post) (r : Machine.Ring) (s : State) (q : Pool) (mitre : Bool) (x : Plan), s.pool? (arg p 44 2) = some q ∧
      Permitted Op.reshapePlan p r s ∧ makePlan (cmdOf Op.reshapePlan p r s) q mitre s = x ∧ planCheck (cmdOf Op.reshapePlan
      p r s) q = Except.ok mitre) ∧
    (∃ (p : Post) (r : Machine.Ring) (s : State) (q : Pool) (x : Plan), s.pool? (arg p 44 2) = some q ∧ Permitted
      Op.reshapeStart p r s ∧ startCheck s q (arg p 48 4) = Except.ok x ∧ s.alive q.home = true) ∧
    (∃ (p : Post) (r : Machine.Ring) (s : State) (q : Pool) (y : Reshape), s.pool? (arg p 44 2) = some q ∧ Permitted
      Op.reshapeControl p r s ∧ q.reshape = some y ∧ s.alive q.home = true ∧ arg p 46 1 = 0 ∧ 0 ∉ y.reasons ∧ stepOpen q =
      false) ∧
    (∃ (p : Post) (r : Machine.Ring) (s : State) (q : Pool) (y : Reshape), s.pool? (arg p 44 2) = some q ∧ Permitted
      Op.reshapeControl p r s ∧ q.reshape = some y ∧ s.alive q.home = true ∧ arg p 46 1 = 0 ∧ 0 ∉ y.reasons ∧ stepOpen q =
      true) ∧
    (∃ (p : Post) (r : Machine.Ring) (s : State) (q : Pool) (y : Reshape), s.pool? (arg p 44 2) = some q ∧ Permitted
      Op.reshapeControl p r s ∧ q.reshape = some y ∧ s.alive q.home = true ∧ arg p 46 1 = 0 ∧ 0 ∈ y.reasons) ∧
    (∃ (p : Post) (r : Machine.Ring) (s : State) (q : Pool) (y : Reshape), s.pool? (arg p 44 2) = some q ∧ Permitted
      Op.reshapeControl p r s ∧ q.reshape = some y ∧ s.alive q.home = true ∧ arg p 46 1 = 1 ∧ 0 ∈ y.reasons) ∧
    (∃ (p : Post) (r : Machine.Ring) (s : State) (q : Pool) (y : Reshape), s.pool? (arg p 44 2) = some q ∧ Permitted
      Op.reshapeControl p r s ∧ q.reshape = some y ∧ s.alive q.home = true ∧ arg p 46 1 = 1 ∧ 0 ∉ y.reasons) ∧
    (∃ (p : Post) (r : Machine.Ring) (s : State) (q : Pool) (y : Reshape), s.pool? (arg p 44 2) = some q ∧ Permitted
      Op.reshapeControl p r s ∧ q.reshape = some y ∧ s.alive q.home = true ∧ arg p 46 1 = 2 ∧ y.cancelling = false ∧
      y.cancelAsked = none ∧ stepOpen q = false) ∧
    (∃ (p : Post) (r : Machine.Ring) (s : State) (q : Pool) (y : Reshape), s.pool? (arg p 44 2) = some q ∧ Permitted
      Op.reshapeControl p r s ∧ q.reshape = some y ∧ s.alive q.home = true ∧ arg p 46 1 = 2 ∧ y.cancelling = false ∧
      y.cancelAsked = none ∧ stepOpen q = true) ∧
    (∃ (p : Post) (r : Machine.Ring) (s : State) (q : Pool) (y : Reshape), s.pool? (arg p 44 2) = some q ∧ Permitted
      Op.reshapeControl p r s ∧ q.reshape = some y ∧ s.alive q.home = true ∧ arg p 46 1 = 2 ∧ (y.cancelling = true ∨
      y.cancelAsked.isSome = true)) ∧
    (∃ (n : Nat) (q : Pool) (y : Reshape) (s : State) (tile lo hi : Nat), s.pool? n = some q ∧ q.reshape = some y ∧
      stepRange q y = (tile, lo, hi) ∧ y.plan.mitre = true ∧ reshapeRuns s q = true ∧ y.reasons = [] ∧ reasonsNow s q y = []
      ∧ (mirrorPeer s q).isSome = true ∧ atEnd y = false ∧ q.lock = none ∧ stepHeld s q tile lo hi = false ∧ ((ownedRanges s
      q.num).any fun x => decide (x.1 < hi) && decide (lo < x.2)) = true) ∧
    (∃ (n : Nat) (q : Pool) (y : Reshape) (s : State) (tile lo hi : Nat), s.pool? n = some q ∧ q.reshape = some y ∧
      stepRange q y = (tile, lo, hi) ∧ y.plan.mitre = true ∧ reshapeRuns s q = true ∧ y.reasons = [] ∧ reasonsNow s q y = []
      ∧ (mirrorPeer s q).isSome = true ∧ atEnd y = false ∧ q.lock = none ∧ stepHeld s q tile lo hi = false ∧ ((ownedRanges s
      q.num).any fun x => decide (x.1 < hi) && decide (lo < x.2)) = false) :=
  ⟨⟨(sf [(44,3)] 512 Planning.plBuf), (ring 1), Planning.wit5, _, true, _, got (by decide +kernel), permitted_of
    (by decide +kernel), rfl, by decide +kernel⟩,
   ⟨(sf [(44,3),(48,9)]), (ring 1), Growing.wit1, _, Growing.pl, got (by decide +kernel), permitted_of (by decide +kernel),
    by decide +kernel⟩,
   ⟨(sf [(44,3),(46,0)]), (ring 1), (Pooling.shp (Pooling.rs true)), _, _, got (by decide +kernel), permitted_of
    (by decide +kernel), got (by decide +kernel), by decide +kernel⟩,
   ⟨(sf [(44,3),(46,0)]), (ring 1), (Fresh.locked (Pooling.shp (Pooling.rs true))), _, _, got (by decide +kernel),
    permitted_of (by decide +kernel), got (by decide +kernel), by decide +kernel⟩,
   ⟨(sf [(44,3),(46,0)]), (ring 1), Pooling.wit51, _, _, got (by decide +kernel), permitted_of (by decide +kernel), got
    (by decide +kernel), by decide +kernel⟩,
   ⟨(sf [(44,3),(46,1)]), (ring 1), Pooling.wit51, _, _, got (by decide +kernel), permitted_of (by decide +kernel), got
    (by decide +kernel), by decide +kernel⟩,
   ⟨(sf [(44, 3), (46, 1)]), (ring 1), (Pooling.shp (Pooling.rs true)), _, _, got (by decide +kernel), permitted_of
    (by decide +kernel), got (by decide +kernel), by decide +kernel⟩,
   ⟨(sf [(44,3),(46,2)]), (ring 1), (Pooling.shp (Pooling.rs true)), _, _, got (by decide +kernel), permitted_of
    (by decide +kernel), got (by decide +kernel), by decide +kernel⟩,
   ⟨(sf [(44,3),(46,2)]), (ring 1), (Fresh.locked (Pooling.shp (Pooling.rs true))), _, _, got (by decide +kernel),
    permitted_of (by decide +kernel), got (by decide +kernel), by decide +kernel⟩,
   ⟨(sf [(44,3),(46,2)]), (ring 1), Pooling.wit61, _, _, got (by decide +kernel), permitted_of (by decide +kernel), got
    (by decide +kernel), by decide +kernel⟩,
   ⟨3, _, _, (Pooling.shp (Pooling.rs true)), _, _, _, got (by decide +kernel), got (by decide +kernel), rfl,
    by decide +kernel⟩,
   ⟨3, _, _, (Fresh.bare (Pooling.shp (Pooling.rs true))), _, _, _, got (by decide +kernel), got (by decide +kernel), rfl,
    by decide +kernel⟩⟩

/-- Obligations.ReshapesAdvance, part 2. -/
theorem witness_ReshapesAdvance_2 :
    (∃ (n : Nat) (q : Pool) (y : Reshape) (s : State) (tile lo hi : Nat) (k : StepLock), s.pool? n = some q ∧ q.reshape =
      some y ∧ stepRange q y = (tile, lo, hi) ∧ q.lock = some k ∧ y.plan.mitre = true ∧ reshapeRuns s q = true ∧ k.done =
      false ∧ k.written = false ∧ k.since < s.clk.tick ∧ stagedMirrored s q k.lo k.hi = true ∧ mirroredAt s q.home k.jsn =
      true) ∧
    (∃ (n : Nat) (q : Pool) (y : Reshape) (s : State) (k : StepLock), s.pool? n = some q ∧ q.reshape = some y ∧ q.lock =
      some k ∧ k.written = true ∧ k.done = false ∧ s.pools = [q] ∧ s.serves q.home = true ∧ q.away = false ∧ journalRoom s
      q.home = true ∧ workOpen s q k.new k.tile = false) ∧
    (∃ (n : Nat) (q : Pool) (y : Reshape) (s : State) (tile vol lba : Nat), s.pool? n = some q ∧ q.reshape = some y ∧
      y.plan.mitre = false ∧ y.cancelling = false ∧ y.reasons = [] ∧ reasonsNow s q y = [] ∧ reshapeRuns s q = true ∧
      nextBuild y = some (tile, vol, lba) ∧ y.building = none ∧ buildHeld s q vol lba y.plan.nt = false) ∧
    (∃ (n : Nat) (q : Pool) (y : Reshape) (s : State) (tile : Nat), s.pool? n = some q ∧ q.reshape = some y ∧ y.building =
      some tile ∧ s.pools = [q] ∧ s.serves q.home = true ∧ q.away = false ∧ journalRoom s q.home = true ∧ workOpen s q true
      tile = false) ∧
    (∃ (n : Nat) (q : Pool) (y : Reshape) (s : State), s.pool? n = some q ∧ q.reshape = some y ∧ y.plan.mitre = false ∧
      y.cancelling = false ∧ y.reasons = [] ∧ reshapeRuns s q = true ∧ nextBuild y = none ∧ (∀ d ∈ s.destages, d.pool ≠ n) ∧
      ∀ c ∈ s.cmds, c.fetches = []) ∧
    (∃ (n : Nat) (q : Pool) (y : Reshape) (s : State), s.pool? n = some q ∧ q.reshape = some y ∧ cancelReady s q y = true) :=
  ⟨⟨3, _, _, (Fresh.locked (Pooling.shp (Pooling.rs true))), _, _, _, _, got (by decide +kernel), got (by decide +kernel),
    rfl, got (by decide +kernel), by decide +kernel⟩,
   ⟨3, _, _, Fresh.written, _, got (by decide +kernel), got (by decide +kernel), got (by decide +kernel), by decide +kernel⟩,
   ⟨3, _, _, (Planning.shp (Planning.rs false)), 2, 5, 0, got (by decide +kernel), got (by decide +kernel),
    by decide +kernel⟩,
   ⟨3, _, _, (Pooling.shp { Pooling.rs false with building := some 2 }), 2, got (by decide +kernel), got
    (by decide +kernel), by decide +kernel⟩,
   ⟨3, _, _, Pooling.wit58, got (by decide +kernel), got (by decide +kernel), by decide +kernel⟩,
   ⟨3, _, _, Pooling.wit61, got (by decide +kernel), got (by decide +kernel), by decide +kernel⟩⟩

/-- Obligations.RingRegisters. -/
theorem witness_RingRegisters :
    (∃ (w : Win) (a : Sys2Proof.Acc) (r : Machine.Ring) (s : State), winRing s w = some r ∧ s.ring? r.die r.idx = some r ∧
      actsAll s w.port = true ∧ a.whole = true ∧ r.notif = false ∧ 1 ≤ a.field 21 16 ∧ a.field 21 16 ≤ 32 ∧ a.field 15 0 <
      r.size) ∧
    (∃ (w : Win) (a : Sys2Proof.Acc) (r : Machine.Ring) (s : State), winRing s w = some r ∧ s.ring? r.die r.idx = some r ∧
      actsAll s w.port = true ∧ a.whole = true ∧ r.notif = false ∧ (a.field 21 16 = 0 ∨ 32 < a.field 21 16 ∨ r.size ≤ a.field
      15 0)) ∧
    (∃ (w : Win) (a : Sys2Proof.Acc) (f : FnSt) (s : State) (v : Nat), s.fn? w.port w.fn = some f ∧ BitVec.toNat (a.merge
      (setupCfg f)) = v ∧ actsAll s w.port = true ∧ w.window = 0 ∧ a.low = true ∧ f.setupEn = false ∧ bitAt v 4 = true ∧
      setupRing s w.port w.fn = none ∧ s.isPf w.port w.fn = true ∧ bits v 3 0 ≤ 12 ∧ bits v 26 16 < vectorsOf s w.port w.fn) ∧
    (∃ (w : Win) (a : Sys2Proof.Acc) (f : FnSt) (s : State) (v : Nat), s.fn? w.port w.fn = some f ∧ BitVec.toNat (a.merge
      (setupCfg f)) = v ∧ actsAll s w.port = true ∧ w.window = 0 ∧ a.low = true ∧ f.setupEn = false ∧ bitAt v 4 = true ∧
      setupRing s w.port w.fn = none ∧ s.isPf w.port w.fn = true ∧ (12 < bits v 3 0 ∨ vectorsOf s w.port w.fn ≤ bits v 26
      16)) ∧
    (∃ (w : Win) (a : Sys2Proof.Acc) (f : FnSt) (s : State) (v : Nat) (x : Machine.Ring), s.fn? w.port w.fn = some f ∧
      BitVec.toNat (a.merge (setupCfg f)) = v ∧ setupRing s w.port w.fn = some x ∧ actsAll s w.port = true ∧ w.window = 0 ∧
      a.low = true ∧ f.setupEn = false ∧ bitAt v 4 = true ∧ s.ring? x.die x.idx = some x) ∧
    (∃ (w : Win) (a : Sys2Proof.Acc) (f : FnSt) (s : State) (v : Nat) (x : Machine.Ring), s.fn? w.port w.fn = some f ∧
      BitVec.toNat (a.merge (setupCfg f)) = v ∧ setupRing s w.port w.fn = some x ∧ actsAll s w.port = true ∧ w.window = 0 ∧
      a.low = true ∧ f.setupEn = true ∧ bitAt v 4 = false ∧ inflight s x = 0) ∧
    (∃ (r : Machine.Ring) (s : State), s.ring? r.die r.idx = some r ∧ s.running = true ∧ s.alive r.die = true ∧ canDispatch
      s r = true) :=
  ⟨⟨Settings.w1, Settings.wit33, _, Settings.wit34, got (by decide +kernel), by decide +kernel⟩,
   ⟨Settings.w1, Settings.wit36, _, Settings.wit34, got (by decide +kernel), by decide +kernel⟩,
   ⟨⟨0,0,0⟩, Settings.wit37, _, full, _, got (by decide +kernel), rfl, by decide +kernel⟩,
   ⟨⟨0,0,0⟩, Settings.wit39, _, full, _, got (by decide +kernel), rfl, by decide +kernel⟩,
   ⟨⟨0,0,0⟩, Settings.wit37, _, More.drains, _, _, got (by decide +kernel), rfl, got (by decide +kernel), by decide +kernel⟩,
   ⟨⟨0,0,0⟩, Settings.wit40, _, Settings.wit41, _, _, got (by decide +kernel), rfl, got (by decide +kernel),
    by decide +kernel⟩,
   ⟨(ring 1), full, by decide +kernel⟩⟩

/-- Obligations.ScrubsAdvance. -/
theorem witness_ScrubsAdvance :
    (∃ (p : Post) (r : Machine.Ring) (s : State) (q : Pool), Permitted Op.scrubControl p r s ∧ s.pool? (arg p 44 2) = some
      q ∧ arg p 46 1 ≤ 3 ∧ (arg p 56 8 = 0 ∨ 250000 ≤ arg p 56 8) ∧ (arg p 46 1 = 2 → q.scrub.running = true ∨ q.reshape ≠
      none)) ∧
    (∃ (p : Post) (r : Machine.Ring) (s : State) (q : Pool), Permitted Op.scrubControl p r s ∧ s.pool? (arg p 44 2) = some
      q ∧ arg p 46 1 ≤ 3 ∧ (arg p 56 8 = 0 ∨ 250000 ≤ arg p 56 8) ∧ arg p 46 1 = 2 ∧ q.scrub.running = false ∧ q.reshape =
      none ∧ q.offline = none ∧ workTiles s q false ≠ []) ∧
    (∃ (n : Nat) (q : Pool) (s : State), s.pool? n = some q ∧ poolRuns s q = true ∧ q.scrub.on = true ∧ q.scrub.started +
      q.scrub.period ≤ s.clk.tick ∧ q.reshape = none ∧ q.scrub.running = false ∧ powerStops s 5 = false ∧ workTiles s q false
      ≠ []) ∧
    (∃ (n : Nat) (q : Pool) (s : State), s.pool? n = some q ∧ poolRuns s q = true ∧ q.scrub.on = true ∧ q.scrub.started +
      q.scrub.period ≤ s.clk.tick ∧ (q.reshape ≠ none ∨ (q.scrub.running = true ∨ powerStops s 5 = true) ∧ q.scrub.behind =
      false)) ∧
    (∃ (n : Nat) (q : Pool) (s : State) (tile : Nat), s.pool? n = some q ∧ (∃ (tile' : Nat), tile < tile' ∧ tile' ∈
      workTiles s q false) ∧ poolRuns s q = true ∧ q.scrub.on = true ∧ q.scrub.running = true ∧ q.reshape = none ∧ scrubNext
      s q = some tile ∧ tileHeld s q false tile = false ∧ heldWork s (Work.scrub n) = false ∧ powerStops s 5 = false) ∧
    (∃ (n : Nat) (q : Pool) (s : State) (tile : Nat), s.pool? n = some q ∧ poolRuns s q = true ∧ q.scrub.on = true ∧
      q.scrub.running = true ∧ q.reshape = none ∧ scrubNext s q = some tile ∧ tileHeld s q false tile = false ∧ heldWork s
      (Work.scrub n) = false ∧ powerStops s 5 = false ∧ ∀ tile' ∈ workTiles s q false, tile' ≤ tile) :=
  ⟨⟨Pooling.wit43, (ring 1), full5, _, permitted_of (by decide +kernel), got (by decide +kernel), by decide +kernel⟩,
   ⟨(sf [(44,3),(46,2)]), (ring 1), full5, _, permitted_of (by decide +kernel), got (by decide +kernel), by decide +kernel⟩,
   ⟨3, _, Pooling.late, got (by decide +kernel), by decide +kernel⟩,
   ⟨3, _, Pooling.wit47, got (by decide +kernel), by decide +kernel⟩,
   ⟨3, _, Pooling.wit47, 0, got (by decide +kernel), ⟨1, by decide +kernel⟩, by decide +kernel⟩,
   ⟨3, _, Fresh.lastTile, 1, got (by decide +kernel), by decide +kernel⟩⟩

/-- Obligations.SegmentsArrive, part 1. -/
theorem witness_SegmentsArrive_1 :
    (∃ (d : Nat) (g : Seg) (host : Bytes) (s : State) (op : Byte) (c : Instr) (st : W16), Arrives op d g s ∧ (op, c) ∈ [(1,
      Instr.segWrite d g), (2, Instr.segReadRequest d g host), (4, Instr.segAdd d g), (5, Instr.segCas d g)] ∧ g.resp = false
      ∧ segCheck s d g = Except.error st ∧ idleRejoin s g = false ∧ (∀ h ∈ heldOn s d, sameMsg h.seg g = false) ∧ sendsTo s
      g.src = true) ∧
    (∃ (d : Nat) (g : Seg) (s : State) (op : Byte) (c : Instr), Arrives op d g s ∧ (op, c) ∈ [(3, Instr.segReadData d g),
      (6, Instr.segAtomicResult d g)] ∧ g.resp = true ∧ s.pair.shut = true ∧ epPkg g.src ≠ s.id.pkgid ∧ (∀ h ∈ heldOn s d,
      sameMsg h.seg g = false) ∧ sendsTo s g.src = true) ∧
    (∃ (d : Nat) (g : Seg) (host : Bytes) (s : State) (op : Byte) (c : Instr), (op, c) ∈ [(1, Instr.segWrite d g), (2,
      Instr.segReadRequest d g host), (3, Instr.segReadData d g), (4, Instr.segAdd d g), (5, Instr.segCas d g), (6,
      Instr.segAtomicResult d g), (8, Instr.segAck d g), (9, Instr.segRefuse d g)] ∧ reflectRuns s d = true ∧ segGood op g =
      false) ∧
    (∃ (d : Nat) (g : Seg) (s : State) (k : Nat) (r : Region) (a : Nat), Alone d g s ∧ s.region? d k = some r ∧ Arrives 1 d
      g s ∧ g.resp = false ∧ segCheck s d g = Except.ok (Target.region k) ∧ g.offset.toNat = a ∧ r.host = none ∧ memWf r.mem
      = true) ∧
    (∃ (d : Nat) (g : Seg) (s : State) (k : Nat) (r : Region) (a : Nat) (h : W64), Alone d g s ∧ s.region? d k = some r ∧
      Arrives 1 d g s ∧ r.host = some h ∧ g.resp = false ∧ segCheck s d g = Except.ok (Target.region k) ∧ g.offset.toNat = a) ∧
    (∃ (d : Nat) (g : Seg) (s : State) (k : Nat) (r : Region) (a : Nat), Alone d g s ∧ s.region? d k = some r ∧ Arrives 2 d
      g s ∧ g.resp = false ∧ segCheck s d g = Except.ok (Target.region k) ∧ g.offset.toNat = a ∧ r.host = none ∧ sendsTo s
      g.src = true) ∧
    (∃ (d : Nat) (g : Seg) (s : State) (k : Nat) (r : Region) (a : Nat) (op : Byte) (c : Instr) (old : BitVec 64), Alone d
      g s ∧ Arrives op d g s ∧ BitVec.ofNat 64 (leNat (readBytes r.mem a 8)) = old ∧ g.resp = false ∧ segCheck s d g =
      Except.ok (Target.region k) ∧ s.region? d k = some r ∧ g.offset.toNat = a ∧ (op, c) ∈ [(4, Instr.segAdd d g), (5,
      Instr.segCas d g)] ∧ r.host = none ∧ memWf r.mem = true ∧ sendsTo s g.src = true) ∧
    (∃ (d : Nat) (g : Seg) (s : State) (x : DieSt) (old : BitVec 64), Alone d g s ∧ Arrives 4 d g s ∧ s.die? d = some x ∧
      BitVec.ofNat 64 (leNat (readBytes x.rfl.counters (g.offset.toNat) 8)) = old ∧ g.resp = false ∧ segCheck s d g =
      Except.ok Target.counters ∧ memWf x.rfl.counters = true ∧ sendsTo s g.src = true) ∧
    (∃ (d : Nat) (g : Seg) (s : State) (w : Exch), Alone d g s ∧ Arrives 1 d g s ∧ s.win? d g.dst g.src = some w ∧ g.resp =
      false ∧ segCheck s d g = Except.ok Target.window ∧ memWf w.mem = true) ∧
    (∃ (d : Nat) (g : Seg) (s : State) (x : DieSt), s.die? d = some x ∧ reflectRuns s d = true ∧ segGood 4 g = true ∧
      g.noretx = true ∧ epNum g.dst = 0 ∧ g.key = 65534 ∧ epDie g.dst = d) ∧
    (∃ (d : Nat) (g : Seg) (s : State) (m : Msg) (c : CmdRef) (k : Cmd), s.cmd? c = some k ∧ Alone d g s ∧ Arrives 3 d g s
      ∧ m.cmd = some c ∧ (s.ring? c.die c.ring).isSome = true ∧ Option.any (fun x => x.linkUp) (s.die? c.die) = true ∧
      List.find? (fun m => m.die == d && m.msgno == g.msgno && !m.isResp && m.src == g.dst && m.dst == g.src) s.refl.msgs =
      some m ∧ m.acked.contains (m.segs.length - 1) = true ∧ g.resp = true ∧ (s.pair.shut = true → epPkg g.src = s.id.pkgid)) ∧
    (∃ (d : Nat) (g : Seg) (s : State) (m : Msg) (c : CmdRef) (k : Cmd), s.cmd? c = some k ∧ Alone d g s ∧ Arrives 6 d g s
      ∧ m.cmd = some c ∧ (s.ring? c.die c.ring).isSome = true ∧ Option.any (fun x => x.linkUp) (s.die? c.die) = true ∧
      List.find? (fun m => m.die == d && m.msgno == g.msgno && !m.isResp && m.src == g.dst && m.dst == g.src) s.refl.msgs =
      some m ∧ m.acked.contains (m.segs.length - 1) = true ∧ g.resp = true ∧ (s.pair.shut = true → epPkg g.src = s.id.pkgid)) :=
  ⟨⟨0, (Links.sg 1 (zeros 8) 60), [], full, 1, Links.wit1, 0x0701, arrives_of (by decide +kernel), by decide +kernel⟩,
   ⟨0, Fresh.shutG, Fresh.shutS, 3, .segReadData 0 Fresh.shutG, arrives_of (by decide +kernel), by decide +kernel⟩,
   ⟨0, (Segments.sg 1 (zeros 7) 60), [], Segments.rs, 1, Segments.wit1, by decide +kernel⟩,
   ⟨0, Segments.w8, Segments.rs, 1, _, 56, alone_of (by decide +kernel), got (by decide +kernel), arrives_of
    (by decide +kernel), by decide +kernel⟩,
   ⟨0, Segments.w8, Segments.wit3, 1, _, 56, _, alone_of (by decide +kernel), got (by decide +kernel), arrives_of
    (by decide +kernel), got (by decide +kernel), by decide +kernel⟩,
   ⟨0, Segments.r8, Segments.rs, 1, _, 0, alone_of (by decide +kernel), got (by decide +kernel), arrives_of
    (by decide +kernel), by decide +kernel⟩,
   ⟨0, Segments.ad, Segments.rs, 1, Segments.rg, 0, 4, .segAdd 0 Segments.ad, _, alone_of (by decide +kernel), arrives_of
    (by decide +kernel), rfl, by decide +kernel⟩,
   ⟨0, Segments.cd, (Fresh.act (Segments.prs Segments.rs)), _, _, alone_of (by decide +kernel), arrives_of
    (by decide +kernel), got (by decide +kernel), rfl, by decide +kernel⟩,
   ⟨0, Segments.wd, Segments.rs, _, alone_of (by decide +kernel), arrives_of (by decide +kernel), got (by decide +kernel),
    by decide +kernel⟩,
   ⟨0, Segments.hb, Segments.rs, _, got (by decide +kernel), by decide +kernel⟩,
   ⟨0, Segments.rd3, Segments.wit9, (Segments.msg 2 64), ⟨0,1,0⟩, _, got (by decide +kernel), alone_of (by decide +kernel),
    arrives_of (by decide +kernel), by decide +kernel⟩,
   ⟨0, Segments.wit11, Segments.wit12, (Segments.msg 4 8), ⟨0,1,0⟩, _, got (by decide +kernel), alone_of
    (by decide +kernel), arrives_of (by decide +kernel), by decide +kernel⟩⟩

/-- Obligations.SegmentsArrive, part 2. -/
theorem witness_SegmentsArrive_2 :
    (∃ (d : Nat) (g : Seg) (s : State) (m : Msg) (c : CmdRef) (k : Cmd), s.cmd? c = some k ∧ m.cmd = some c ∧ (s.ring?
      c.die c.ring).isSome = true ∧ Option.any (fun x => x.linkUp) (s.die? c.die) = true ∧ reflectRuns s d = true ∧ answersTo
      s d g = some m ∧ segGood 8 g = true ∧ m.op = 1 ∧ m.segs.length = 1 ∧ g.segno = 0 ∧ bitAt (leNat (padTo 8 g.payload)) 0
      = true) ∧
    (∃ (d : Nat) (g : Seg) (s : State) (m : Msg) (c : CmdRef) (k : Cmd), s.cmd? c = some k ∧ m.cmd = some c ∧ (s.ring?
      c.die c.ring).isSome = true ∧ Option.any (fun x => x.linkUp) (s.die? c.die) = true ∧ reflectRuns s d = true ∧ answersTo
      s d g = some m ∧ segGood 9 g = true ∧ BitVec.ofNat 16 (bits (g.aux.toNat) 15 0) = 1794) ∧
    (∃ (d : Nat) (g : Seg) (s : State) (m : Msg) (c : CmdRef) (k : Cmd), s.cmd? c = some k ∧ m.cmd = some c ∧ (s.ring?
      c.die c.ring).isSome = true ∧ Option.any (fun x => x.linkUp) (s.die? c.die) = true ∧ reflectRuns s d = true ∧ answersTo
      s d g = some m ∧ segGood 9 g = true ∧ m.isResp = false ∧ bits (g.aux.toNat) 15 0 ≠ 1794) ∧
    (∃ (d : Nat) (g : Seg) (s : State) (x : DieSt) (b : CBlk), s.die? d = some x ∧ Arrives 3 d g s ∧ Alone d g s ∧
      x.rfl.parts = [] ∧ b ∈ s.cache ∧ b.asked = some g.msgno ∧ homeOfBlk s b = some d ∧ epNum g.dst = 0 ∧ g.resp = true ∧
      s.pair.shut = false ∧ List.find? (fun m => m.die == d && m.msgno == g.msgno && !m.isResp && m.src == g.dst && m.dst ==
      g.src) s.refl.msgs = none) ∧
    (∃ (d : Nat) (g : Seg) (s : State) (x : DieSt), s.die? d = some x ∧ reflectRuns s d = true ∧ segGood 8 g = true ∧
      answersTo s d g = none) ∧
    (∃ (d : Nat) (g : Seg) (s : State) (x : DieSt), s.die? d = some x ∧ reflectRuns s d = true ∧ segGood 9 g = true ∧
      answersTo s d g = none ∧ x.rfl.sys.any (sysAnswer g) = true) ∧
    (∃ (d : Nat) (g : Seg) (s : State) (m : Msg) (l : List Nat), reflectRuns s d = true ∧ segGood 8 g = true ∧ answersTo s
      d g = some m ∧ l = List.foldl (fun (l : List Nat) (n : Nat) => insNat n l) m.acked (List.filterMap (fun i => if (bitAt
      (leNat (padTo 8 g.payload)) i && decide (g.segno + i < m.segs.length)) = true then some (g.segno + i) else none)
      (List.range 64)) ∧ msgWhole { m with acked := l } = false) :=
  ⟨⟨0, { Segments.ac (le 8 1) with nseg := 1 }, Segments.wit14, (Segments.mu 1 64), ⟨0,1,0⟩, _, got (by decide +kernel),
    by decide +kernel⟩,
   ⟨0, { Segments.rf 0x0702 with payload := zeros 8 }, Segments.wit14, (Segments.mu 1 64), ⟨0,1,0⟩, _, got
    (by decide +kernel), by decide +kernel⟩,
   ⟨0, { Segments.rf 0x0703 with payload := zeros 8 }, Segments.wit14, (Segments.mu 1 64), ⟨0,1,0⟩, _, got
    (by decide +kernel), by decide +kernel⟩,
   ⟨0, Fresh.remG, (Fresh.remS (some 7)), _, (Fresh.remB (some 7)), got (by decide +kernel), arrives_of (by decide +kernel),
    alone_of (by decide +kernel), by decide +kernel⟩,
   ⟨0, (Segments.ac (le 8 1)), Segments.rs, _, got (by decide +kernel), by decide +kernel⟩,
   ⟨0, { Segments.rf 0x0702 with payload := zeros 8 }, (Fresh.own Segments.rs), _, got (by decide +kernel),
    by decide +kernel⟩,
   ⟨0, (Segments.ac (le 8 3) 0), (Segments.ws .reflectWrite Segments.m2 64), Segments.m2, [0,1], by decide +kernel⟩⟩

/-- Obligations.SegmentsExpire. -/
theorem witness_SegmentsExpire :
    (∃ (d i k : Nat) (s : State) (m : Msg) (g : Seg), m.segs[i]? = some g ∧ m.tries i = k ∧ m ∈ msgsOf s d ∧ i ∉ m.acked ∧
      reflectRuns s d = true ∧ k < 4 ∧ m.first + 8 * (k + 1) ≤ s.clk.tick ∧ sendsTo s g.dst = true) ∧
    (∃ (d : Nat) (s : State) (m : Msg), reflectRuns s d = true ∧ m ∈ s.refl.msgs ∧ m.die = d ∧ (m.acked.length <
      m.segs.length ∧ m.first + 40 ≤ s.clk.tick ∨ msgWhole m = false ∧ routeUp s d m.dst = false) ∧ m.isResp = true ∧ (∀ y ∈
      s.refl.msgs, y.die = d → y.msgno = m.msgno → y.isResp = true ∧ y.cmd = none) ∧ ∀ (x : DieSt), s.die? d = some x → ∀ y ∈
      x.rfl.sys, y.msgno ≠ m.msgno) ∧
    (∃ (d : Nat) (s : State) (m : Msg), reflectRuns s d = true ∧ m ∈ s.refl.msgs ∧ m.die = d ∧ (m.acked.length <
      m.segs.length ∧ m.first + 40 ≤ s.clk.tick ∨ msgWhole m = false ∧ routeUp s d m.dst = false) ∧ m.isResp = false) ∧
    (∃ (d : Nat) (s : State) (x : DieSt) (m : Msg), s.die? d = some x ∧ reflectRuns s d = true ∧ m ∈ x.rfl.sys ∧
      (m.acked.length < m.segs.length ∧ m.first + 40 ≤ s.clk.tick ∨ msgWhole m = false ∧ routeUp s m.die m.dst = false)) :=
  ⟨⟨0, 2, _, (Segments.ws .reflectWrite Segments.m2 64), Segments.m2, _, got (by decide +kernel), rfl, by decide +kernel⟩,
   ⟨0, Segments.wit18, { Segments.m2 with isResp := true, cmd := none }, by decide +kernel⟩,
   ⟨0, (Segments.ws .reflectWrite Segments.m2 64), Segments.m2, by decide +kernel⟩,
   ⟨0, (Fresh.own full), _, { Segments.m2 with cmd := none }, got (by decide +kernel), by decide +kernel⟩⟩

/-- Obligations.SetRingWeightSets. -/
theorem witness_SetRingWeightSets :
    ∃ (p : Post) (r x : Machine.Ring) (s : State), Permitted Op.setRingWeight p r s ∧ s.ring? (arg p 44 2 / 512) (arg p 44
      2 % 512) = some x ∧ x.fn = r.fn ∧ x.die = r.die ∧ x.setup = false ∧ x.notif = false ∧ 1 ≤ arg p 46 1 ∧ 1 ≤ arg p 47 1 ∧
      arg p 47 1 ≤ 64 ∧ (bitAt (arg p 48 1) 7 = true → ∀ (m : Tenant), (s.ringTenant r).bind s.tenant? = some m →
      m.qos.maxClass ≤ bits (arg p 48 1) 1 0) :=
  ⟨Entries.wit14, (ring 1), _, Entries.wit12, permitted_of (by decide +kernel), got (by decide +kernel), by decide +kernel⟩

/-- Obligations.SidebandAnswers. -/
theorem witness_SidebandAnswers :
    (∃ (s : State) (m : Mctp) (e : BitVec 8) (off d src pos : Nat) (c : Instr), sidebandUp s = false ∧ c ∈
      [Instr.setEndpointId m e, Instr.getEndpointId m, Instr.getMctpVersionSupport m, Instr.getMessageTypeSupport m,
      Instr.getEndpointUuid m, Instr.getStatus m, Instr.getHealth m off, Instr.getPending m d, Instr.clearPending m d src,
      Instr.getRecords m pos, Instr.alertResponse, Instr.smbusBusHeldLow]) ∧
    (∃ (s : State) (m : Mctp) (e : BitVec 8) (off d src pos : Nat) (c : Instr), sidebandUp s = true ∧ c ∈
      [Instr.setEndpointId m e, Instr.getEndpointId m, Instr.getMctpVersionSupport m, Instr.getMessageTypeSupport m,
      Instr.getEndpointUuid m, Instr.getStatus m, Instr.getHealth m off, Instr.getPending m d, Instr.clearPending m d src,
      Instr.getRecords m pos, Instr.smbusBusHeldLow] ∧ (m.good = false ∨ c = Instr.smbusBusHeldLow) ∧ (s.die?
      s.id.lead).isSome = true) ∧
    (∃ (s : State), sidebandUp s = true ∧ alertN s = true) ∧
    (∃ (s : State), sidebandUp s = true ∧ alertN s = false) ∧
    (∃ (s : State) (m : Mctp) (rest : Bytes), Config.freeSideband s.free = rest ∧ sidebandUp s = true ∧ m.good = true) ∧
    (∃ (s : State) (m : Mctp) (rest : Bytes) (c : Instr), Config.freeSideband s.free = rest ∧ sidebandUp s = true ∧ m.good
      = true ∧ (c = Instr.getMctpVersionSupport m ∨ c = Instr.getEndpointUuid m)) ∧
    (∃ (s : State) (m : Mctp) (rest : Bytes), Config.freeSideband s.free = rest ∧ sidebandUp s = true ∧ m.good = true) ∧
    (∃ (s : State) (m : Mctp) (rest : Bytes) (d : Nat), Config.freeSideband s.free = rest ∧ sidebandUp s = true ∧ m.good =
      true ∧ s.die? d = none) ∧
    (∃ (s : State) (m : Mctp) (rest : Bytes) (d src : Nat), Config.freeSideband s.free = rest ∧ sidebandUp s = true ∧
      m.good = true ∧ (s.die? d = none ∨ 256 ≤ src)) ∧
    (∃ (s : State) (m : Mctp) (rest : Bytes) (d src : Nat) (x : DieSt), Config.freeSideband s.free = rest ∧ s.die? d = some
      x ∧ sidebandUp s = true ∧ m.good = true ∧ src < 256) ∧
    (∃ (s : State) (m : Mctp) (rest : Bytes), Config.freeSideband s.free = rest ∧ sidebandUp s = true ∧ m.good = true) :=
  ⟨⟨More.dark, Sending.wit1, 0, 0, 0, 0, 0, Sending.wit2, by decide +kernel⟩,
   ⟨full, Sending.wit1, 0, 0, 0, 0, 0, Sending.wit2, by decide +kernel⟩,
   ⟨Sending.al, by decide +kernel⟩,
   ⟨full, by decide +kernel⟩,
   ⟨full, {}, _, rfl, by decide +kernel⟩,
   ⟨full, {}, _, Planning.wit11, rfl, by decide +kernel⟩,
   ⟨full, {}, _, rfl, by decide +kernel⟩,
   ⟨Sending.al, Sending.M, _, 2, rfl, by decide +kernel⟩,
   ⟨Sending.al, Sending.M, _, 1, 256, rfl, by decide +kernel⟩,
   ⟨Sending.al, Sending.M, _, 1, 3, _, rfl, got (by decide +kernel), by decide +kernel⟩,
   ⟨full, {}, _, rfl, by decide +kernel⟩⟩

/-- Obligations.StartupAdvances. -/
theorem witness_StartupAdvances :
    (∃ (s : State), s.run.powered = false) ∧
    (∃ (i : PhaseIn) (s : State) (b : Bool) (g : Image), bootSlot i s = some b ∧ s.fw.slot b = some g ∧ s.run.powered =
      true ∧ s.run.pfail = none ∧ s.run.phase = 1) ∧
    (∃ (i : PhaseIn) (s : State), s.run.powered = true ∧ s.run.pfail = none ∧ s.run.phase = 1 ∧ bootSlot i s = none) ∧
    (∃ (i : PhaseIn) (s u : State) (l : Nat), u = linkBothEnds
      { s with dies := List.map (fun x => match x with | (x, d) => testDie i (s.portMode d) d x) s.dies.zipIdx } ∧ electLead
      u = some l ∧ s.run.powered = true ∧ s.run.pfail = none ∧ s.run.phase = 2) ∧
    (∃ (i : PhaseIn) (s u : State), u = linkBothEnds
      { s with dies := List.map (fun x => match x with | (x, d) => testDie i (s.portMode d) d x) s.dies.zipIdx } ∧
      s.run.powered = true ∧ s.run.pfail = none ∧ s.run.phase = 2 ∧ electLead u = none) ∧
    (∃ (s : State), s.run.powered = true ∧ s.run.pfail = none ∧ s.run.phase = 3) ∧
    (∃ (s : State), s.run.powered = true ∧ s.run.pfail = none ∧ s.run.phase = 4) ∧
    (∃ (s : State), s.run.powered = true ∧ s.run.pfail = none ∧ s.run.phase = 5) ∧
    (∃ (s : State), s.run.powered = true ∧ s.run.pfail = none ∧ s.run.phase = 6 ∧ s.destages = []) ∧
    (∃ (s : State), s.run.powered = true ∧ s.run.pfail = none ∧ s.run.phase = 6 ∧ s.destages ≠ []) ∧
    (∃ (s : State), s.run.powered = true ∧ s.run.pfail = none ∧ s.run.phase = 7) :=
  ⟨⟨Starting.wit1, by decide +kernel⟩,
   ⟨{}, (Starting.ph 1), _, _, got (by decide +kernel), got (by decide +kernel), by decide +kernel⟩,
   ⟨Starting.wit4, Starting.wit5, by decide +kernel⟩,
   ⟨Starting.wit6, (Starting.ph 2), _, _, rfl, got (by decide +kernel), by decide +kernel⟩,
   ⟨Starting.wit8, (Starting.ph 2), _, rfl, by decide +kernel⟩,
   ⟨(Starting.ph 3), by decide +kernel⟩,
   ⟨(Starting.ph 4), by decide +kernel⟩,
   ⟨(Starting.ph 5), by decide +kernel⟩,
   ⟨(Starting.ph 6), by decide +kernel⟩,
   ⟨Bounds.wit11, by decide +kernel⟩,
   ⟨(Starting.ph 7), by decide +kernel⟩⟩

/-- Obligations.StepKeepsInv. -/
theorem witness_StepKeepsInv :
    ∃ (s t : State), Machine.Inv s ∧ step s = Host.Outcome.next t :=
  ⟨full, full, inv_of (by decide +kernel), rfl⟩

/-- Obligations.StepTakesFront. -/
theorem witness_StepTakesFront :
    ∃ (s : State), s.pending = [] :=
  ⟨full, by decide +kernel⟩

/-- Obligations.TakeoversRun, part 1. -/
theorem witness_TakeoversRun_1 :
    (∃ (s : State) (e : Nat), s.on = true ∧ s.run.halted = false ∧ (s.die? s.id.lead).isSome = true ∧ e ∉ s.pair.lostOwn ∧
      (∃ k ∈ s.aliveDies, k ≠ e) ∧ ∀ k ∈ s.aliveDies, k ≠ e → silentAt s k e = true) ∧
    (∃ (s : State), s.on = true ∧ s.run.halted = false ∧ (s.die? s.id.lead).isSome = true ∧ s.id.inPair = true ∧
      s.pair.hbOk = true ∧ partnerSilent s = true) ∧
    (∃ (s : State) (e : Nat), s.on = true ∧ s.run.halted = false ∧ (s.die? s.id.lead).isSome = true ∧ s.id.inPair = true ∧
      s.pair.state = PairState.paired ∧ s.pair.hbOk = true ∧ s.pair.holdIn = true ∧ e ∉ s.pair.lostDies ∧ (silentAt s e e =
      true ∨ partnerDieYielded s e = true) ∧ partnerSilent s = false) ∧
    (∃ (s : State) (d : Nat) (x : DieSt), s.die? d = some x ∧ s.running = true ∧ (s.die? s.id.lead).isSome = true ∧ x.hold
      = false ∧ dieLost s d = true ∧ (poolsOn s d ≠ [] ∨ shadowedOn s d ≠ [] ∨ s.alive d = true) ∧ 2 ≤ s.pw.pstate) ∧
    (∃ (s : State) (d : Nat) (x : DieSt), s.die? d = some x ∧ s.running = true ∧ (s.die? s.id.lead).isSome = true ∧ x.hold
      = false ∧ dieLost s d = true ∧ (poolsOn s d ≠ [] ∨ shadowedOn s d ≠ [] ∨ s.alive d = true) ∧ s.pw.pstate < 2 ∧ poolsOn
      s d = []) ∧
    (∃ (s : State) (d : Nat) (x : DieSt) (n : Nat) (q : Pool), s.die? d = some x ∧ s.pool? n = some q ∧ s.running = true ∧
      (s.die? s.id.lead).isSome = true ∧ x.hold = false ∧ dieLost s d = true ∧ (poolsOn s d ≠ [] ∨ shadowedOn s d ≠ [] ∨
      s.alive d = true) ∧ s.pw.pstate < 2 ∧ poolsOn s d = [n] ∧ q.home = d ∧ q.away = false ∧ newHome (silence d s) q
      q.shadow = none) ∧
    (∃ (s : State) (d : Nat) (x : DieSt) (n : Nat) (q : Pool) (h : Nat), s.die? d = some x ∧ s.pool? n = some q ∧ newHome
      (silence d s) q q.shadow = some h ∧ s.running = true ∧ (s.die? s.id.lead).isSome = true ∧ x.hold = false ∧ dieLost s d
      = true ∧ (poolsOn s d ≠ [] ∨ shadowedOn s d ≠ [] ∨ s.alive d = true) ∧ s.pw.pstate < 2 ∧ poolsOn s d = [n] ∧ q.home = d
      ∧ q.away = false) ∧
    (∃ (s : State), s.running = true ∧ (s.die? s.id.lead).isSome = true ∧ s.pair.hbOk = true) ∧
    (∃ (s : State) (h : Bool), s.running = true ∧ (s.die? s.id.lead).isSome = true ∧ s.id.inPair = true ∧ s.pair.hbOk =
      false ∧ s.pair.contest = none ∧ s.pair.awaiting = false ∧ decisionDue s = true ∧ s.pair.state = PairState.paired ∧
      holdSeen s h = true) ∧
    (∃ (s : State) (h : Bool), s.running = true ∧ (s.die? s.id.lead).isSome = true ∧ s.id.inPair = true ∧ s.pair.hbOk =
      false ∧ s.pair.contest = none ∧ s.pair.awaiting = false ∧ decisionDue s = true ∧ s.pair.state = PairState.paired ∧
      holdSeen s h = false ∧ 2 ≤ s.pw.pstate) ∧
    (∃ (s : State) (h : Bool), s.running = true ∧ (s.die? s.id.lead).isSome = true ∧ s.id.inPair = true ∧ s.pair.hbOk =
      false ∧ s.pair.contest = none ∧ s.pair.awaiting = false ∧ decisionDue s = true ∧ s.pair.state = PairState.paired ∧
      holdSeen s h = false ∧ s.pw.pstate < 2 ∧ s.pair.yieldSeen = true) ∧
    (∃ (s : State) (h : Bool), s.running = true ∧ (s.die? s.id.lead).isSome = true ∧ s.id.inPair = true ∧ s.pair.hbOk =
      false ∧ s.pair.contest = none ∧ s.pair.awaiting = false ∧ decisionDue s = true ∧ s.pair.state = PairState.paired ∧
      holdSeen s h = false ∧ s.pw.pstate < 2 ∧ s.pair.yieldSeen = false ∧ s.pair.witness = none) :=
  ⟨⟨Pairing.wit1, 1, by decide +kernel⟩,
   ⟨Pairing.wit2, by decide +kernel⟩,
   ⟨Pairing.wit3, 0, by decide +kernel⟩,
   ⟨Pairing.wit4, 0, _, got (by decide +kernel), by decide +kernel⟩,
   ⟨More.standby, 0, _, got (by decide +kernel), by decide +kernel⟩,
   ⟨More.nowhere, 0, _, 3, _, got (by decide +kernel), got (by decide +kernel), by decide +kernel⟩,
   ⟨Pairing.lost0, 0, _, 3, _, _, got (by decide +kernel), got (by decide +kernel), got (by decide +kernel),
    by decide +kernel⟩,
   ⟨(Pairing.pr Pairing.P0), by decide +kernel⟩,
   ⟨(Pairing.pr Pairing.P1), true, by decide +kernel⟩,
   ⟨Fresh.coldLoss, false, by decide +kernel⟩,
   ⟨Pairing.wit7, false, by decide +kernel⟩,
   ⟨(Pairing.pr Pairing.P1), false, by decide +kernel⟩⟩

/-- Obligations.TakeoversRun, part 2. -/
theorem witness_TakeoversRun_2 :
    (∃ (s : State) (h : Bool), s.running = true ∧ (s.die? s.id.lead).isSome = true ∧ s.id.inPair = true ∧ s.pair.hbOk =
      false ∧ s.pair.contest = none ∧ s.pair.awaiting = false ∧ decisionDue s = true ∧ s.pair.state = PairState.paired ∧
      holdSeen s h = false ∧ s.pw.pstate < 2 ∧ s.pair.yieldSeen = false ∧ s.pair.witness.isSome = true) ∧
    (∃ (s : State) (f w : Nat), s.pair.contest = some f ∧ s.pair.witness = some w ∧ s.running = true ∧ (s.die?
      s.id.lead).isSome = true ∧ s.pair.acquiring = false ∧ acquireAt s f ≤ s.clk.tick) ∧
    (∃ (s : State), s.running = true ∧ (s.die? s.id.lead).isSome = true ∧ s.pair.acquiring = true ∧ s.pair.contest.isSome =
      true) :=
  ⟨⟨Pairing.wit8, false, by decide +kernel⟩,
   ⟨(Pairing.pr Pairing.P2), _, _, got (by decide +kernel), got (by decide +kernel), by decide +kernel⟩,
   ⟨Pairing.wit11, by decide +kernel⟩⟩

/-- Obligations.TenantsChange. -/
theorem witness_TenantsChange :
    (∃ (p : Post) (r : Machine.Ring) (s : State) (n : Nat), arg p 44 2 = n ∧ Permitted Op.createTenant p r s ∧ s.pair.state
      ≠ PairState.separated ∧ n < 1024 ∧ s.tenant? n = none ∧ s.tenants.length < 1024) ∧
    (∃ (p : Post) (r : Machine.Ring) (s : State) (n : Nat) (x : Tenant), arg p 44 2 = n ∧ Permitted Op.deleteTenant p r s ∧
      s.tenant? n = some x ∧ tenantBusy s x = false) ∧
    (∃ (p : Post) (r : Machine.Ring) (s : State) (n : Nat) (x : Tenant), arg p 44 2 = n ∧ Permitted Op.deleteTenant p r s ∧
      s.tenant? n = some x ∧ tenantBusy s x = true) ∧
    (∃ (p : Post) (r : Machine.Ring) (s : State) (n o : Nat) (w : Option Nat) (x : Machine.Ring), arg p 44 2 = n ∧
      Permitted Op.bind p r s ∧ arg p 48 2 = o ∧ s.ring? (o / 512) (o % 512) = some x ∧ (n = 65535 ∧ w = none ∨ w = some n ∧
      n ≠ 65535 ∧ (s.tenant? n).isSome = true) ∧ bits (arg p 46 1) 1 0 = 0 ∧ x.notif = false ∧ (x.setup = true → s.isPf x.die
      x.fn = false) ∧ (((s.fn? x.die x.fn).bind fun x => x.tenant) = none ∨ ((s.fn? x.die x.fn).bind fun x => x.tenant) = w)) ∧
    (∃ (p : Post) (r : Machine.Ring) (s : State) (n o : Nat) (w : Option Nat), arg p 44 2 = n ∧ Permitted Op.bind p r s ∧
      arg p 48 2 = o ∧ (n = 65535 ∧ w = none ∨ w = some n ∧ n ≠ 65535 ∧ (s.tenant? n).isSome = true) ∧ bits (arg p 46 1) 1 0
      = 1 ∧ bits o 10 8 * 256 + bits o 5 0 = o ∧ bits o 5 0 ≠ 0 ∧ (s.die? (bits o 10 8)).isSome = true) ∧
    (∃ (p : Post) (r : Machine.Ring) (s : State) (n o : Nat) (w : Option Nat) (e : Ep), arg p 44 2 = n ∧ Permitted Op.bind
      p r s ∧ arg p 48 2 = o ∧ s.ep? (epDie (BitVec.ofNat 16 o)) (epNum (BitVec.ofNat 16 o)) = some e ∧ (n = 65535 ∧ w = none
      ∨ w = some n ∧ n ≠ 65535 ∧ (s.tenant? n).isSome = true) ∧ bits (arg p 46 1) 1 0 = 2 ∧ epAddr s.id.pkgid (epDie
      (BitVec.ofNat 16 o)) (epNum (BitVec.ofNat 16 o)) = BitVec.ofNat 16 o ∧ epPkg (BitVec.ofNat 16 o) = s.id.pkgid) ∧
    (∃ (p : Post) (r : Machine.Ring) (s : State) (n : Nat) (x : Tenant), arg p 44 2 = n ∧ Permitted Op.setTenantQos p r s ∧
      s.tenant? n = some x ∧ 1 ≤ arg p 50 2 ∧ 1 ≤ arg p 52 2) ∧
    (∃ (p : Post) (r : Machine.Ring) (s : State) (n : Nat), arg p 44 2 = n ∧ Permitted Op.meterConfig p r s ∧ (bitAt (arg p
      44 1) 0 = true → bits (arg p 45 1) 2 0 ≤ 5 ∧ bits (arg p 46 2) 10 0 < 1024 ∧ arg p 48 8 % 4096 = 0) ∧ (bitAt (arg p 44
      1) 1 = true → arg p 56 4 ≤ 14999999 ∧ ¬(s.pair.state = PairState.paired ∧ s.id.pkgid = 1))) :=
  ⟨⟨(sf [(44,1023)]), R, full, _, rfl, permitted_of (by decide +kernel), by decide +kernel⟩,
   ⟨(sf [(44,9)]), R, (Holders.tn full), _, _, rfl, permitted_of (by decide +kernel), got (by decide +kernel),
    by decide +kernel⟩,
   ⟨(sf [(44,9)]), R, Holders.wit2, _, _, rfl, permitted_of (by decide +kernel), got (by decide +kernel), by decide +kernel⟩,
   ⟨Holders.wit4, R, Holders.wit5, _, _, (some 9), _, rfl, permitted_of (by decide +kernel), rfl, got (by decide +kernel),
    by decide +kernel⟩,
   ⟨Holders.wit7, R, Holders.wit8, _, _, (some 9), rfl, permitted_of (by decide +kernel), rfl, by decide +kernel⟩,
   ⟨Holders.wit9, R, (Holders.eps (Holders.tn full)), _, _, (some 9), _, rfl, permitted_of (by decide +kernel), rfl, got
    (by decide +kernel), by decide +kernel⟩,
   ⟨Holders.wit11, R, (Holders.tn full), _, _, rfl, permitted_of (by decide +kernel), got (by decide +kernel),
    by decide +kernel⟩,
   ⟨Holders.wit13, R, (Holders.tn full), _, rfl, permitted_of (by decide +kernel), by decide +kernel⟩⟩

/-- Obligations.TicksAdvance. -/
theorem witness_TicksAdvance :
    (∃ (s : State), s.run.powered = true) ∧
    (∃ (d : Nat) (s : State) (x : DieSt), s.running = true ∧ s.die? d = some x ∧ x.alive = true ∧ (List.map (fun x =>
      x.kind) x.frame.budgets).Nodup ∧ x.frame.window < s.clk.tick / 65536) ∧
    (∃ (s : State), s.running = true ∧ s.clk.tick % 256 = 0 ∧ (List.map (fun x => x.num) s.tenants).Nodup) ∧
    (∃ (d : Nat) (s : State) (x : DieSt), s.on = true ∧ s.die? d = some x ∧ x.recd.window < windowAt s.clk.optime) ∧
    (∃ (s u : State) (k : Nat), countMinute s = u ∧ (tenantsInOrder s).length + 1 = k ∧ s.ready = true ∧ s.run.halted =
      false ∧ (s.clk.optime + 15000000 - s.meter.phase) % 15000000 = 0 ∧ s.meter.last ≠ some s.clk.optime ∧ (s.die?
      s.id.lead).isSome = true) :=
  ⟨⟨full, by decide +kernel⟩,
   ⟨0, full, Windows.D0, by decide +kernel⟩,
   ⟨Ticking.bst, by decide +kernel⟩,
   ⟨0, full, Windows.D0, by decide +kernel⟩,
   ⟨Windows.m1, _, _, rfl, rfl, by decide +kernel⟩⟩

/-- Obligations.UnitsLeaveService, part 1. -/
theorem witness_UnitsLeaveService_1 :
    (∃ (d : Nat) (s : State) (x : DieSt) (i job j : Nat) (l : List Nat), s.die? d = some x ∧ x.hw.cores[i]? = some job ∧
      checksRun s d = true ∧ s.run.halted = false ∧ job ≠ 15 ∧ job ≠ 9 ∧ x.hw.spares = j :: l) ∧
    (∃ (d : Nat) (s : State) (x : DieSt) (i job : Nat), s.die? d = some x ∧ x.hw.cores[i]? = some job ∧ checksRun s d =
      true ∧ s.run.halted = false ∧ job ≠ 15 ∧ job ≠ 9 ∧ x.hw.spares = []) ∧
    (∃ (d : Nat) (s : State) (x : DieSt) (i job : Nat), s.die? d = some x ∧ x.hw.cores[i]? = some job ∧ checksRun s d =
      true ∧ s.run.halted = false ∧ job ≠ 15 ∧ job = 9) ∧
    (∃ (d : Nat) (s : State) (x : DieSt) (u : Nat) (p : List GfBeat), s.die? d = some x ∧ checksRun s d = true ∧
      s.run.halted = false ∧ x.hw.gf[u]? = some true ∧ passOk p = true) ∧
    (∃ (d : Nat) (s : State) (x : DieSt) (u : Nat) (p a : List GfBeat), s.die? d = some x ∧ checksRun s d = true ∧
      s.run.halted = false ∧ x.hw.gf[u]? = some true ∧ passOk p = false ∧ passOk a = true ∧ (x.hw.gf.set u false).any id =
      true) ∧
    (∃ (d : Nat) (s : State) (x : DieSt) (u : Nat) (p : List GfBeat), s.die? d = some x ∧ checksRun s d = true ∧
      s.run.halted = false ∧ x.hw.gf[u]? = some true ∧ passOk p = false ∧ (x.hw.gf.set u false).any id = false) ∧
    (∃ (d : Nat) (s : State) (x : DieSt) (u : Nat) (p a : List GfBeat), s.die? d = some x ∧ checksRun s d = true ∧
      s.run.halted = false ∧ x.hw.gf[u]? = some true ∧ passOk p = false ∧ passOk a = false ∧ x.hw.gf = [true, true]) ∧
    (∃ (d : Nat) (s : State) (x : DieSt) (u port : Nat) (p : Xfer), s.die? d = some x ∧ checksRun s d = true ∧ s.run.halted
      = false ∧ unitServes s d u port = true ∧ xferOk p = true) ∧
    (∃ (d : Nat) (s : State) (x : DieSt) (u port : Nat) (p a : Xfer), s.die? d = some x ∧ checksRun s d = true ∧
      s.run.halted = false ∧ unitServes s d u port = true ∧ xferOk p = false ∧ xferOk a = true) ∧
    (∃ (d : Nat) (s : State) (x : DieSt) (u port : Nat) (p a : Xfer) (m : Nat), s.die? d = some x ∧ checksRun s d = true ∧
      s.run.halted = false ∧ unitServes s d u port = true ∧ xferOk p = false ∧ xferOk a = false ∧ u = 48 + m ∧ m < 16 ∧
      (x.hw.movers.set m false).any id = true) ∧
    (∃ (d : Nat) (s : State) (x : DieSt) (u port : Nat) (p a : Xfer) (m : Nat), s.die? d = some x ∧ checksRun s d = true ∧
      s.run.halted = false ∧ unitServes s d u port = true ∧ xferOk p = false ∧ xferOk a = false ∧ u = 48 + m ∧ m < 16 ∧
      (x.hw.movers.set m false).any id = false) ∧
    (∃ (d : Nat) (s : State) (x : DieSt) (u port : Nat) (p a : Xfer), s.die? d = some x ∧ checksRun s d = true ∧
      s.run.halted = false ∧ unitServes s d u port = true ∧ xferOk p = false ∧ xferOk a = false ∧ u = 64) :=
  ⟨⟨0, full, _, 3, _, 21, [22,23], got (by decide +kernel), got (by decide +kernel), by decide +kernel⟩,
   ⟨0, Spares.noSp, _, 0, _, got (by decide +kernel), got (by decide +kernel), by decide +kernel⟩,
   ⟨0, full, _, 23, _, got (by decide +kernel), got (by decide +kernel), by decide +kernel⟩,
   ⟨0, full, _, 1, [], got (by decide +kernel), by decide +kernel⟩,
   ⟨0, full, _, 1, [⟨[[0]], [[1]], [[1]]⟩], [], got (by decide +kernel), by decide +kernel⟩,
   ⟨0, Bounds.wit14, _, 1, [⟨[[0]], [[1]], [[1]]⟩], got (by decide +kernel), by decide +kernel⟩,
   ⟨0, full, _, 1, [⟨[[0]], [[1]], [[1]]⟩], [⟨[[0]], [[1]], [[1]]⟩], got (by decide +kernel), by decide +kernel⟩,
   ⟨0, full, _, 32, 0, (Fresh.xfer 0), got (by decide +kernel), by decide +kernel⟩,
   ⟨0, full, _, 32, 0, (Fresh.xfer 1), (Fresh.xfer 0), got (by decide +kernel), by decide +kernel⟩,
   ⟨0, full, _, 48, 0, (Fresh.xfer 1), (Fresh.xfer 1), 0, got (by decide +kernel), by decide +kernel⟩,
   ⟨0, (Units.hwd { Units.D0.hw with movers := true :: List.replicate 15 false }), _, 48, 0, (Fresh.xfer 1), (Fresh.xfer 1),
    0, got (by decide +kernel), by decide +kernel⟩,
   ⟨0, full, _, 64, 0, (Fresh.xfer 1), (Fresh.xfer 1), got (by decide +kernel), by decide +kernel⟩⟩

/-- Obligations.UnitsLeaveService, part 2. -/
theorem witness_UnitsLeaveService_2 :
    (∃ (d : Nat) (s : State) (x : DieSt) (u port : Nat) (p a : Xfer) (h : HwSt), s.die? d = some x ∧ portOut (s.portMode d)
      port x.hw = h ∧ checksRun s d = true ∧ s.run.halted = false ∧ unitServes s d u port = true ∧ xferOk p = false ∧ xferOk
      a = false ∧ u = 65 ∧ h.driveLanes ≠ 0) ∧
    (∃ (d : Nat) (s : State) (x : DieSt) (u port : Nat) (p a : Xfer) (h : HwSt), s.die? d = some x ∧ portOut (s.portMode d)
      port x.hw = h ∧ checksRun s d = true ∧ s.run.halted = false ∧ unitServes s d u port = true ∧ xferOk p = false ∧ xferOk
      a = false ∧ u = 65 ∧ h.driveLanes = 0) ∧
    (∃ (d : Nat) (s : State) (x : DieSt) (m e n : Nat), s.die? d = some x ∧ checksRun s d = true ∧ s.run.halted = false ∧
      x.hw.fabric[m]? = some true ∧ fabricPeer s.id.part d m = some (e, n) ∧ e ≠ d) ∧
    (∃ (d : Nat) (s : State) (x : DieSt) (lane n : Nat), s.die? d = some x ∧ checksRun s d = true ∧ s.run.halted = false ∧
      lane ∉ x.hw.lanesRetired ∧ (Option.map (fun x => x.2) (List.find? (fun x => x.1 == lane) x.hw.eye)).getD 0 = n ∧ n < 3) ∧
    (∃ (d : Nat) (s : State) (x : DieSt) (lane n : Nat), s.die? d = some x ∧ checksRun s d = true ∧ s.run.halted = false ∧
      lane ∉ x.hw.lanesRetired ∧ (Option.map (fun x => x.2) (List.find? (fun x => x.1 == lane) x.hw.eye)).getD 0 = n ∧ 3 ≤ n) :=
  ⟨⟨0, full, _, 65, 0, (Fresh.xfer 1), (Fresh.xfer 1), _, got (by decide +kernel), rfl, by decide +kernel⟩,
   ⟨0, (Units.hwd { Units.D0.hw with driveLanes := 4 }), _, 65, 0, (Fresh.xfer 1), (Fresh.xfer 1), _, got
    (by decide +kernel), rfl, by decide +kernel⟩,
   ⟨0, full, _, 2, 1, 2, got (by decide +kernel), by decide +kernel⟩,
   ⟨0, Bounds.wit20, _, 4, 2, got (by decide +kernel), by decide +kernel⟩,
   ⟨0, Bounds.wit20, _, 3, 3, got (by decide +kernel), by decide +kernel⟩⟩

/-- Obligations.VolumesChange. -/
theorem witness_VolumesChange :
    (∃ (p : Post) (r : Machine.Ring) (s : State) (v : Vol) (q : Pool) (us : List Nat) (e : Nat), volumeOf (cmdOf
      Op.createVolume p r s) = v ∧ Permitted Op.createVolume p r s ∧ s.pool? v.pool = some q ∧ allocate s q q.geom.tb
      (ceilDiv v.blocks q.geom.tb) = some us ∧ s.pair.state ≠ PairState.separated ∧ volFieldsOk s v = true ∧ s.vol? v.num =
      none ∧ v.big = q.geom.big ∧ q.reshape = none ∧ poolCheck (some q) = none ∧ e ∈ us) ∧
    (∃ (p : Post) (r : Machine.Ring) (s : State) (v : Vol), Permitted Op.deleteVolume p r s ∧ s.vol? (arg p 44 2) = some v
      ∧ volBusy s v.num = false ∧ ∀ x ∈ s.vols, x.deleting ≠ some r.ref) ∧
    (∃ (p : Post) (r : Machine.Ring) (s : State) (v : Vol) (q : Pool) (n w : Nat) (us : List Nat), Permitted
      Op.resizeVolume p r s ∧ s.vol? (arg p 44 2) = some v ∧ s.pool? v.pool = some q ∧ arg p 56 8 = n ∧ ceilDiv n v.x = w ∧
      allocate s q v.x (w - v.extents.length) = some us ∧ q.reshape = none ∧ 1 ≤ n ∧ v.extents.length < w) ∧
    (∃ (p : Post) (r : Machine.Ring) (s : State) (v : Vol) (q : Pool) (n w : Nat), Permitted Op.resizeVolume p r s ∧ s.vol?
      (arg p 44 2) = some v ∧ s.pool? v.pool = some q ∧ arg p 56 8 = n ∧ ceilDiv n v.x = w ∧ q.reshape = none ∧ 1 ≤ n ∧ w ≤
      v.extents.length ∧ v.blocks ≤ n) ∧
    (∃ (p : Post) (r : Machine.Ring) (s : State) (v : Vol) (q : Pool) (n w : Nat), Permitted Op.resizeVolume p r s ∧ s.vol?
      (arg p 44 2) = some v ∧ s.pool? v.pool = some q ∧ arg p 56 8 = n ∧ ceilDiv n v.x = w ∧ q.reshape = none ∧ 1 ≤ n ∧ w ≤
      v.extents.length ∧ n < v.blocks) :=
  ⟨⟨Planning.wit2, (ring 1), full, _, _, _, 2, rfl, permitted_of (by decide +kernel), got (by decide +kernel), got
    (by decide +kernel), by decide +kernel⟩,
   ⟨(sf [(44,5)]), (ring 1), full, _, permitted_of (by decide +kernel), got (by decide +kernel), by decide +kernel⟩,
   ⟨(sf [(44,5),(56,1536)]), (ring 1), full, _, _, _, _, _, permitted_of (by decide +kernel), got (by decide +kernel), got
    (by decide +kernel), rfl, rfl, got (by decide +kernel), by decide +kernel⟩,
   ⟨(sf [(44,5),(56,1024)]), (ring 1), full, _, _, _, _, permitted_of (by decide +kernel), got (by decide +kernel), got
    (by decide +kernel), rfl, rfl, by decide +kernel⟩,
   ⟨(sf [(44,5),(56,1)]), (ring 1), Pooling.wit27, _, _, _, _, permitted_of (by decide +kernel), got (by decide +kernel),
    got (by decide +kernel), rfl, rfl, by decide +kernel⟩⟩

/-- Obligations.WriteKindAdmitted. -/
theorem witness_WriteKindAdmitted :
    (∃ (op : Op) (p : Post) (r : Machine.Ring) (s : State) (v : Vol) (q : Pool), Direct op p r s ∧ (op = Op.write ∨ op =
      Op.writeZeroes ∨ op = Op.deallocate ∧ v.dz = true) ∧ s.vol? (p.entry.vol.toNat) = some v ∧ v.deleting = none ∧ s.pool?
      v.pool = some q ∧ permits (cmdOf op p r s) v = true ∧ ioCheck s (cmdOf op p r s) v = none ∧ (op = Op.write → writeCheck
      (cmdOf op p r s) v = none) ∧ q.home = r.die ∧ mayGo s (cmdOf op p r s) = true ∧ journalFull s q.home = false ∧ poolHeld
      s q = false ∧ clampHolds q v (admittedCmd op p r s) s = false ∧ op = Op.write) ∧
    (∃ (op : Op) (p : Post) (r : Machine.Ring) (s : State) (v : Vol) (q : Pool), Direct op p r s ∧ (op = Op.write ∨ op =
      Op.writeZeroes ∨ op = Op.deallocate ∧ v.dz = true) ∧ s.vol? (p.entry.vol.toNat) = some v ∧ v.deleting = none ∧ s.pool?
      v.pool = some q ∧ permits (cmdOf op p r s) v = true ∧ ioCheck s (cmdOf op p r s) v = none ∧ (op = Op.write → writeCheck
      (cmdOf op p r s) v = none) ∧ q.home = r.die ∧ mayGo s (cmdOf op p r s) = true ∧ journalFull s q.home = false ∧ poolHeld
      s q = false ∧ clampHolds q v (admittedCmd op p r s) s = false ∧ op = Op.writeZeroes) ∧
    (∃ (op : Op) (p : Post) (r : Machine.Ring) (s : State) (v : Vol) (q : Pool), Direct op p r s ∧ (op = Op.write ∨ op =
      Op.writeZeroes ∨ op = Op.deallocate ∧ v.dz = true) ∧ s.vol? (p.entry.vol.toNat) = some v ∧ v.deleting = none ∧ s.pool?
      v.pool = some q ∧ permits (cmdOf op p r s) v = true ∧ ioCheck s (cmdOf op p r s) v = none ∧ (op = Op.write → writeCheck
      (cmdOf op p r s) v = none) ∧ q.home = r.die ∧ mayGo s (cmdOf op p r s) = true ∧ journalFull s q.home = false ∧ poolHeld
      s q = false ∧ clampHolds q v (admittedCmd op p r s) s = false ∧ op = Op.deallocate) ∧
    (∃ (op : Op) (p : Post) (r : Machine.Ring) (s : State) (v : Vol) (q : Pool), Direct op p r s ∧ (op = Op.write ∨ op =
      Op.writeZeroes ∨ op = Op.deallocate ∧ v.dz = true) ∧ s.vol? (p.entry.vol.toNat) = some v ∧ v.deleting = none ∧ s.pool?
      v.pool = some q ∧ permits (cmdOf op p r s) v = true ∧ ioCheck s (cmdOf op p r s) v = none ∧ (op = Op.write → writeCheck
      (cmdOf op p r s) v = none) ∧ q.home = r.die ∧ mayGo s (cmdOf op p r s) = true ∧ journalFull s q.home = false ∧ poolHeld
      s q = false ∧ clampHolds q v (admittedCmd op p r s) s = true) ∧
    (∃ (op : Op) (p : Post) (r : Machine.Ring) (s : State) (v : Vol) (q : Pool), Direct op p r s ∧ (op = Op.write ∨ op =
      Op.writeZeroes ∨ op = Op.deallocate ∧ v.dz = true) ∧ s.vol? (p.entry.vol.toNat) = some v ∧ v.deleting = none ∧ s.pool?
      v.pool = some q ∧ permits (cmdOf op p r s) v = true ∧ ioCheck s (cmdOf op p r s) v = none ∧ (op = Op.write → writeCheck
      (cmdOf op p r s) v = none) ∧ (q.home = r.die ∧ (homeSheds s (cmdOf op p r s) = true ∨ journalFull s q.home = true ∨
      poolHeld s q = true) ∨ ringBehind s (cmdOf op p r s) = true)) ∧
    (∃ (op : Op) (p : Post) (r : Machine.Ring) (s : State) (v : Vol) (q : Pool), Direct op p r s ∧ (op = Op.write ∨ op =
      Op.writeZeroes ∨ op = Op.deallocate ∧ v.dz = true) ∧ s.vol? (p.entry.vol.toNat) = some v ∧ v.deleting = none ∧ s.pool?
      v.pool = some q ∧ permits (cmdOf op p r s) v = true ∧ ioCheck s (cmdOf op p r s) v = none ∧ (op = Op.write → writeCheck
      (cmdOf op p r s) v = none) ∧ q.home ≠ r.die ∧ ringBehind s (cmdOf op p r s) = false) ∧
    (∃ (op : Op) (p : Post) (r : Machine.Ring) (s : State) (v : Vol) (q : Pool), Direct op p r s ∧ (op = Op.write ∨ op =
      Op.writeZeroes ∨ op = Op.deallocate ∧ v.dz = true) ∧ s.vol? (p.entry.vol.toNat) = some v ∧ v.deleting = none ∧ s.pool?
      v.pool = some q ∧ permits (cmdOf op p r s) v = true ∧ ioCheck s (cmdOf op p r s) v = none ∧ (op = Op.write → writeCheck
      (cmdOf op p r s) v = none)) :=
  ⟨⟨.write, More.wr, R, full, vol, pool, direct_of (by decide +kernel), by decide +kernel⟩,
   ⟨.writeZeroes, (Bounds.iz 1023 1), R, full, vol, pool, direct_of (by decide +kernel), by decide +kernel⟩,
   ⟨.deallocate, (Bounds.iz 1023 1), R, More.dzed, { vol with dz := true }, pool, direct_of (by decide +kernel),
    by decide +kernel⟩,
   ⟨.writeZeroes, (Bounds.iz 1023 1), R, More.behind, vol, pool, direct_of (by decide +kernel), by decide +kernel⟩,
   ⟨.writeZeroes, (Bounds.iz 1023 1), R, More.jfull, vol, pool, direct_of (by decide +kernel), by decide +kernel⟩,
   ⟨.writeZeroes, (Bounds.iz 1023 1), R, Fresh.awayS, vol, Fresh.away, direct_of (by decide +kernel), by decide +kernel⟩,
   ⟨.writeZeroes, (Bounds.iz 1023 1), R, full, vol, pool, direct_of (by decide +kernel), by decide +kernel⟩⟩

/-! ### Witnesses that rest on an open value

The premises of these clauses name what an uninterpreted function answers, so each witness assumes one such answer. -/

/-- A dirty block of n bytes. -/
def heavy (n : Nat) : State := { full with cache := [{ cb 5 0 with data := List.replicate n 0 }] }

theorem heavy_dirty (n : Nat) : dirtyBytes (heavy n) 0 = n := by
  have e : (heavy n).cache.filter (fun b => b.dirty && homeOf (heavy n) b.vol == some 0) =
      [{ cb 5 0 with data := List.replicate n 0 }] := by
    have h : (homeOf (heavy n) 5 == some 0) = true := rfl
    simp [heavy, cb] at h ⊢
    exact h
  simp [dirtyBytes, e]

/-- Obligations.FeaturesSet, the clause of a region that does not fit yet (4.2): a block of more than 1 GiB. -/
theorem witness_FeaturesSet_waits :
    ∃ (p : Post) (r : Ring) (s : State) (x : DieSt), Permitted .setFeature p r s ∧ arg p 44 1 = 4 ∧ arg p 46 2 ≠ 0xFFFF ∧
      s.die? (arg p 46 2) = some x ∧ 1 ≤ arg p 48 2 ∧ arg p 48 2 ≤ 3 * ddrGib x / 8 ∧
      arg p 48 2 * 2 ^ 30 < dirtyBytes s (arg p 46 2) := by
  have e : arg (sf [(44, 4), (48, 1)]) 46 2 = 0 ∧ arg (sf [(44, 4), (48, 1)]) 48 2 = 1 := by decide +kernel
  obtain ⟨n, hn⟩ : ∃ n : Nat, 2 ^ 30 < n := ⟨_, Nat.lt_succ_self _⟩
  refine ⟨sf [(44, 4), (48, 1)], R, heavy n, upDie DieSt.reset, permitted_of ⟨⟨⟨rfl, rfl, rfl⟩, rfl⟩, rfl, rfl, rfl⟩,
    by decide +kernel, by decide +kernel, ?_, by decide +kernel, by decide +kernel, ?_⟩
  · rw [e.1]; rfl
  · rw [e.1, e.2, heavy_dirty]; omega

/-- A package with an owner secret of zeros. -/
def secured : State := { full with log := { full.log with secret := some (zeros 32) } }

/-- A package with a device key of zeros and a tenant. -/
def keyed : State := { full with feat := { full.feat with devKey := some (zeros 32) }, tenants := [{ num := 9 }] }

/-- Obligations.KeysChange, the first device key (1.1): the MAC of the buffer is taken to be zeros. -/
theorem witness_KeysChange_first (h : Config.hmac (zeros 32) (zeros 32) = zeros 32) :
    ∃ (p : Post) (r : Ring) (s : State) (k : Bytes), (s.die? s.id.lead).isSome = true ∧ Permitted .loadKey p r s ∧
      bitAt (arg p 46 1) 0 = true ∧ arg p 44 2 = 0xFFFF ∧ s.feat.devKey = none ∧ p.entry.dlen.toNat = 64 ∧
      s.log.secret = some k ∧ Config.hmac k (slice p.buf 0 32) = slice p.buf 32 32 :=
  have e : slice (zeros 64) 0 32 = zeros 32 ∧ slice (zeros 64) 32 32 = zeros 32 := by decide +kernel
  ⟨sf [(44, 0xFFFF), (46, 1)] 64 (zeros 64), R, secured, zeros 32, by decide +kernel, permitted_of (by decide +kernel),
    by decide +kernel, by decide +kernel, rfl, rfl, rfl, by
      show Config.hmac (zeros 32) (slice (zeros 64) 0 32) = slice (zeros 64) 32 32
      rw [e.1, e.2, h]⟩

/-- Obligations.KeysChange, a later device key (1.2): the wrapped key is taken to unwrap to zeros. -/
theorem witness_KeysChange_next (h : Config.unwrap (zeros 32) (padTo 40 (zeros 40)) = some (zeros 32)) :
    ∃ (p : Post) (r : Ring) (s : State) (old new : Bytes), (s.die? s.id.lead).isSome = true ∧ Permitted .loadKey p r s ∧
      bitAt (arg p 46 1) 0 = true ∧ arg p 44 2 = 0xFFFF ∧ s.feat.devKey = some old ∧ p.entry.dlen.toNat = 40 ∧
      Config.unwrap old (padTo 40 p.buf) = some new :=
  ⟨sf [(44, 0xFFFF), (46, 1)] 40 (zeros 40), R, keyed, zeros 32, zeros 32, by decide +kernel, permitted_of (by decide +kernel),
    by decide +kernel, by decide +kernel, rfl, rfl, h⟩

/-- Obligations.KeysChange, a tenant key (1.3): the wrapped key is taken to unwrap to two different halves. -/
theorem witness_KeysChange_tenant
    (h : Config.unwrap (zeros 32) (padTo 72 (zeros 72)) = some (zeros 32 ++ List.replicate 32 1)) :
    ∃ (p : Post) (r : Ring) (s : State) (x : Tenant) (k key : Bytes), (s.die? s.id.lead).isSome = true ∧
      Permitted .loadKey p r s ∧ bitAt (arg p 46 1) 0 = false ∧ s.tenant? (arg p 44 2) = some x ∧ p.entry.dlen.toNat = 72 ∧
      s.feat.devKey = some k ∧ Config.unwrap k (padTo 72 p.buf) = some key ∧ slice key 0 32 ≠ slice key 32 32 ∧
      x.erasing = false ∧ x.wrapped = none :=
  ⟨sf [(44, 9)] 72 (zeros 72), R, keyed, { num := 9 }, zeros 32, zeros 32 ++ List.replicate 32 1, by decide +kernel,
    permitted_of (by decide +kernel), by decide +kernel, by decide +kernel, rfl, rfl, h, by decide +kernel, rfl, rfl⟩

/-- A staged image that waits for its programming. -/
def staged (b : Bytes) : State :=
  { wait .firmwareDownload full with fw := { full.fw with loader := some ⟨0, 1, 0⟩, staged := [(0, b)] } }

/-- Obligations.FirmwareAdvances, an image that passes its checks (2.1.1): the checks are taken to pass. -/
theorem witness_FirmwareAdvances_good (b : Bytes) (hb : stagedBytes [(0, b)] 0 (contiguous 1 [(0, b)] 0) = b)
    (h : imageStatus 0 b = none) :
    ∃ (s : State) (c : CmdRef) (y : Bytes), s.running = true ∧ (s.die? s.id.lead).isSome = true ∧ s.fw.loader = some c ∧
      s.fw.active = false ∧ stagedBytes s.fw.staged 0 (contiguous s.fw.staged.length s.fw.staged 0) = y ∧
      (s.cmd? c).isSome = true ∧ (s.ring? c.die c.ring).isSome = true ∧ (s.die? c.die).any (·.linkUp) = true ∧
      imageStatus s.fw.minSvn.toNat y = none :=
  ⟨staged b, ⟨0, 1, 0⟩, b, rfl, rfl, rfl, rfl, hb, rfl, rfl, rfl, h⟩

/-- A package with a live challenge. -/
def challenged : State :=
  { full with log := { full.log with secret := some (zeros 32), challenge := some ⟨5, 1, 1, 0⟩, failures := 6 } }

/-- Obligations.RecorderCommands, LOG CLEAR with the right MAC (1.5.2.1) or a wrong one (1.5.2.2): one of them holds,
whatever the MAC is. -/
theorem witness_RecorderCommands_clear :
    ∃ (p : Post) (r : Ring) (s : State) (h : Challenge) (k : Bytes), Permitted .logClear p r s ∧ p.entry.dlen.toNat = 32 ∧
      s.log.challenge = some h ∧ s.log.secret = some k ∧
      ((∃ x, Config.hmac k (clearMessage h) = padTo 32 p.buf ∧ s.log.frozen = false ∧ s.die? s.id.lead = some x ∧
          x.recd.failed = false) ∨
        (Config.hmac k (clearMessage h) ≠ padTo 32 p.buf ∧ (s.die? s.id.lead).isSome = true)) := by
  refine ⟨sf [] 32 (zeros 32), R, challenged, ⟨5, 1, 1, 0⟩, zeros 32, permitted_of (by decide +kernel), rfl, rfl, rfl, ?_⟩
  by_cases e : Config.hmac (zeros 32) (clearMessage ⟨5, 1, 1, 0⟩) = padTo 32 (sf [] 32 (zeros 32)).buf
  · exact Or.inl ⟨upDie DieSt.reset, e, rfl, rfl, rfl⟩
  · exact Or.inr ⟨e, rfl⟩

/-- Obligations.UnitsLeaveService, the AES engines (2.2): a block whose check passes, and one whose check fails, whatever the cipher
answers. -/
theorem witness_UnitsLeaveService_aes :
    aesRunOk (Fresh.run 0) = true ∧ aesRunOk (Fresh.run 1) = false ∧
    (∃ x, full.die? 0 = some x ∧ checksRun full 0 = true ∧ full.run.halted = false ∧ x.hw.aes[3]? = some true ∧
      (x.hw.aes.set 3 false).any id = true) ∧
    ∃ x, Bounds.wit16.die? 0 = some x ∧ checksRun Bounds.wit16 0 = true ∧ Bounds.wit16.run.halted = false ∧
      x.hw.aes[2]? = some true ∧ (x.hw.aes.set 2 false).any id = false :=
  ⟨by simp [aesRunOk, Fresh.run], by simp [aesRunOk, Fresh.run],
    ⟨_, got (by decide +kernel), by decide +kernel⟩, _, got (by decide +kernel), by decide +kernel⟩

/-! ### Operands out of range are refused, one for each check -/

theorem test_wf_good : (Instr.nop (post {})).wf = true := by decide
theorem test_wf_die : (Instr.nop { die := 8, ring := 1, entry := {} }).wf = false := by decide
theorem test_wf_ring : (Instr.ringFetchError 7 512).wf = false := by decide
theorem test_wf_index : (Instr.hostTransferError ⟨0, 1, 65536⟩).wf = false := by decide
theorem test_wf_frags :
    (Instr.fragmentTableRead ⟨0, 1, 0⟩ (List.replicate 4097 ⟨0, 16, false, 0⟩) []).wf = false := by decide +kernel
theorem test_wf_fn : (Instr.flr 0 64).wf = false := by decide
theorem test_wf_window : (Instr.doorbell ⟨0, 1, 32⟩ { value := 0 }).wf = false := by decide
theorem test_wf_width : (Instr.gctlReset 0 { width := 24, value := 0 }).wf = false := by decide
theorem test_wf_upper : (Instr.gctlReset 0 { width := 64, upper := true, value := 0 }).wf = false := by decide
theorem test_wf_xch :
    (Instr.xchIdentify { port := 0, fn := 1, window := 2, seq := 0, sel := 0, arg := 0 }).wf = false := by decide
theorem test_wf_tenant : (Instr.eraseMarksApply 1024).wf = false := by decide
theorem test_wf_key : (Instr.revokeComplete 0 65536).wf = false := by decide
theorem test_wf_pool : (Instr.dieRetireMigrated 256).wf = false := by decide
theorem test_wf_pend : (Instr.evtPendClear 0 4 { value := 0 }).wf = false := by decide
theorem test_wf_vector : (Instr.msixVectorUnmask 0 0 1024).wf = false := by decide
theorem test_wf_offset : (Instr.registerWrite 0 0 1048576 { value := 0 }).wf = false := by decide
theorem test_wf_silent : (Instr.tick { silent := [8] }).wf = false := by decide
theorem test_wf_pulse : (Instr.ticksyncAlign 6400).wf = false := by decide
theorem test_wf_core : (Instr.lockstepMismatch 0 [24]).wf = false := by decide
theorem test_wf_gf : (Instr.gfResidueFault 0 2 ⟨[], []⟩).wf = false := by decide
theorem test_wf_aes : (Instr.aesCheckFault 0 4 ⟨Fresh.run 1, Fresh.run 1⟩).wf = false := by decide
theorem test_wf_channel : (Instr.ddrZqCalibration 0 4).wf = false := by decide
theorem test_wf_lane : (Instr.eyeMeasure 0 56 ⟨true, false⟩).wf = false := by decide
theorem test_wf_module : (Instr.fabricLinkDown 0 3).wf = false := by decide
theorem test_wf_peer : (Instr.heartbeatLost (.partnerDie 8)).wf = false := by decide
theorem test_wf_holder : (Instr.dryTakeover 0 8 true).wf = false := by decide
theorem test_wf_volume : (Instr.zeroFill 4096 0).wf = false := by decide
theorem test_wf_source : (Instr.clearPending {} 0 256).wf = false := by decide
theorem test_wf_lanes : (Instr.equalisationLock 0 [16]).wf = false := by decide

/-! ### The manual's worked examples -/

/-- R195's pool of ten members, 4+2, one spare, POOLSEED 0. -/
def ten : Geom :=
  { n := 10, k := 4, m := 2, s := 1, strip := 16, big := true, seed := 0, uid := 0, z := 976562500 }

/-- File 06, geometry and capacity: NROWS 61,034,112, T 953,658, 4,096 data blocks in a tile. -/
theorem test_layout_capacity : (ten.nrows, ten.tiles, ten.tb) = (61034112, 953658, 4096) := by decide +kernel

/-- File 06, rows 0 to 2. -/
theorem test_layout_rows : [0, 1, 2].map (fun u => rowPermutation 0 u 10) =
    [[9, 0, 4, 2, 1, 5, 6, 3, 7, 8], [2, 4, 9, 7, 3, 0, 5, 8, 6, 1], [9, 0, 4, 6, 8, 7, 5, 1, 3, 2]] := by decide +kernel

/-- R394's worked example, beat 0 of stripe 0: P1 with bytes 0Fh and A7h passes the residue lane with 5Ch, and with lane 1 stuck its
fingerprint is 5Eh. -/
theorem test_residue_lane :
    let ins : List Bytes := [[1, 1], [2], [3], [4]]
    let c : List Byte := [0xA7, 0x47, 0xBA, 0x7A]
    (expected c ins, fingerprint [0x0F, 0xA7], fingerprint [0x0F, 0xA6], passOk [⟨ins, [[0x0F, 0xA7]], [c]⟩],
      passOk [⟨ins, [[0x0F, 0xA6]], [c]⟩]) = (0x5C, 0x5C, 0x5E, true, false) := by decide +kernel

/-- File 06, one block: pool data block 100 is stripe 1, data index 2, offset 4, at member LBA 276. -/
theorem test_layout_block : (ten.locate 100, ten.memberLba 1 4) = ((1, 2, 4), 276) := by decide +kernel

/-- File 06, one byte position: P0 = 04h and P1 = 0Fh over 01h, 02h, 03h, 04h. -/
theorem test_parity_byte :
    [0, 1].map (fun i => parityRow 4 i [[1], [2], [3], [4]]) = [[0x04], [0x0F]] := by decide +kernel

/-- File 05, choice of the destage method at 8+2, 16 blocks to a strip: read-modify-write, reconstruct-write twice. -/
theorem test_destage_method : [(2, 1), (96, 16), (64, 16)].map (fun x => methodOf { ten with k := 8 } x.1 x.2) = [1, 2, 2] := by
  decide +kernel

/-- File 05: H = 12,500 ticks and V = 80,000 bytes a tick give a dirty budget of 895,392,000 bytes. -/
theorem test_dirty_budget : dirtyBudget { DieSt.reset with holdUp := 12500, rateV := 80000 } = 895392000 := by decide +kernel

/-- File 03: S = 16, head and tail at index 14. -/
def bell16 (head tail : Nat) : State :=
  { up with rings := [{ ring 1 with head := head, tail := tail, bells := List.replicate ((tail + 32 - head) % 32) 0 }] }

/-- File 03, step 3: doorbell 90002h posts four pushed entries. -/
theorem test_doorbell_push :
    (match exec (.doorbell ⟨0, 0, 1⟩ { value := 0x90002 }) (bell16 14 14) with
    | .next t => (t.rings.map fun r => (r.tail, r.bells.length, r.pushed.map (·.1)))
    | _ => []) = [(18, 4, [14, 15, 0, 1])] := by decide +kernel

/-- File 03, step 6: a tail at distance 17 is rejected, with 4002h pending. -/
theorem test_doorbell_beyond :
    (match exec (.doorbell ⟨0, 0, 1⟩ { value := 3 }) (bell16 18 0) with
    | .next t => (t.rings.map (·.tail), t.dies.map fun x => x.evt.pend.contains (srcOf x.evt 0x4002))
    | _ => ([], [])) = ([0], [true, false]) := by decide +kernel

/-- File 17: the entry of a READ with NBLK 0 at index 499 of ring 20Ah of function 5. -/
def bad499 : State :=
  { full with rings := [{ ring 10 with die := 1, fn := 5, size := 512, head := 499, tail := 500 }]
              fns := full.fns ++ [{ die := 1, fn := 5 }] }

/-- File 17: the three halt registers of that example. -/
theorem test_halt_registers :
    (match exec (.read { die := 1, ring := 10, entry := { tag := 0x1234, vol := 5, lba := 0x1000 } }) bad499 with
    | .next t => [readGctl t 0x20, readGctl t 0x28, readGctl t 0x30]
    | _ => []) = [0x80030805020A01F3, 0x0000000512340180, 0x1000] := by decide +kernel

/-- File 13: the last save before the loss was of S = 45,015,000,000; the time resumes at 45,030,000,000. -/
theorem test_resumed_time :
    resumedTime { up with dies := [{ DieSt.reset with saved := [some 45015000000, some 45000000000] }] } =
      (45030000000, 45015000000) := by decide +kernel

/-- File 13: window 3,400 covers ticks 14,260,633,600 to 14,264,827,903. -/
theorem test_rate_window : [14260633600, 14264827903, 14264827904].map windowAt = [3400, 3400, 3401] := by decide +kernel

/-- File 16: query 02h of a pool that exists, with SEQ 2Ah, shows 000001002A800000h in XCH_STAT. -/
theorem test_xch_answer :
    (match exec (.xchPoolStatus { port := 0, fn := 0, window := 0, seq := 0x2A, sel := 3, arg := 0 }) full with
    | .next t => (xwinOf t 0 0 0).seq.toNat + 256 * (xwinOf t 0 0 0).status.toNat + (xwinOf t 0 0 0).data.length
    | _ => 0) = 0x2A + 256 := by decide +kernel

/-! ### Steps taken by hand from the rules -/

/-- R137: NOP leaves the ring's head behind it. -/
theorem test_nop : (match exec (.nop (post {})) up with
    | .next t => t.rings.map fun r => (r.head, r.bells)
    | _ => []) = [(1, [])] := by decide +kernel

/-- R47: a tick counts. -/
theorem test_tick : (match exec (.tick {}) up with
    | .next t => t.clk.tick
    | _ => 0) = 16000001 := by decide +kernel

/-- R462, R47: power-up starts phase 1 at tick 0. -/
theorem test_power_up : (match exec .powerUp { up with run := { up.run with powered := false } } with
    | .next t => (t.run.phase, t.clk.tick)
    | _ => (0, 1)) = (1, 0) := by decide +kernel

/-- A queue with one command: its step empties the queue. -/
theorem test_step : (match step { up with pending := [.tick {}] } with
    | .next t => (t.pending.length, t.clk.tick)
    | _ => (9, 0)) = (0, 16000001) := by decide +kernel

end Sys2Proof.Tests
end

section
/-! PROOF. Every command keeps what the invariant looks at (the rows of Laws/Kept, put together over the command table), so
every step keeps the invariant. -/

namespace Sys2Proof.Machine

/-- R47: the commands that leave the tick as it is: all but TICK and those that cut or restore power. -/
def leavesTick : Instr → Bool
  | .tick _ | .powerUp | .powerLoss => false
  | _ => true

/-- R344, R348, R350: the commands that leave every byte of a die's counters and mirror as it is: all but those that apply a
reflect segment and the loss of power. -/
def leavesDieMem : Instr → Bool
  | .segWrite .. | .segReadRequest .. | .segReadData .. | .segAdd .. | .segCas .. | .segAtomicResult .. | .powerLoss => false
  | _ => true

/-- Every command answers a next state, with the queue, the part and the invariant kept; one case for each row of the
command table. -/
theorem exec_kept (c : Instr) (s : State) :
    Ends (Kept (leavesTick c) (leavesDieMem c) false s.seen) (exec c s) := by
  cases c with
  | nop => exact execNop_kept _ _ (.rfl' ..)
  | read => exact execRead_kept _ _ (.rfl' ..)
  | write => exact execWrite_kept _ _ (.rfl' ..)
  | flush => exact execFlush_kept _ _ (.rfl' ..)
  | flushMedia => exact execFlushMedia_kept _ _ (.rfl' ..)
  | writeZeroes => exact execWriteZeroes_kept _ _ (.rfl' ..)
  | deallocate => exact execDeallocate_kept _ _ (.rfl' ..)
  | verify => exact execVerify_kept _ _ (.rfl' ..)
  | fragmentTableRead => exact execFragmentTableRead_kept _ _ _ _ (.rfl' ..)
  | hostTransferError => exact execHostTransferError_kept _ _ (.rfl' ..)
  | createRing => exact execCreateRing_kept _ _ (.rfl' ..)
  | deleteRing => exact execDeleteRing_kept _ _ (.rfl' ..)
  | setRingWeight => exact execSetRingWeight_kept _ _ (.rfl' ..)
  | abort => exact execAbort_kept _ _ (.rfl' ..)
  | identify => exact execIdentify_kept _ _ (.rfl' ..)
  | getFeature => exact execGetFeature_kept _ _ (.rfl' ..)
  | setFeature => exact execSetFeature_kept _ _ (.rfl' ..)
  | setPowerState => exact execSetPowerState_kept _ _ (.rfl' ..)
  | functionReinit => exact execFunctionReinit_kept _ _ (.rfl' ..)
  | createPool => exact execCreatePool_kept _ _ (.rfl' ..)
  | destroyPool => exact execDestroyPool_kept _ _ (.rfl' ..)
  | addMember => exact execAddMember_kept _ _ (.rfl' ..)
  | retireMember => exact execRetireMember_kept _ _ (.rfl' ..)
  | replaceMember => exact execReplaceMember_kept _ _ (.rfl' ..)
  | createVolume => exact execCreateVolume_kept _ _ (.rfl' ..)
  | deleteVolume => exact execDeleteVolume_kept _ _ (.rfl' ..)
  | resizeVolume => exact execResizeVolume_kept _ _ (.rfl' ..)
  | reshapePlan => exact execReshapePlan_kept _ _ (.rfl' ..)
  | reshapeStart => exact execReshapeStart_kept _ _ (.rfl' ..)
  | reshapeControl => exact execReshapeControl_kept _ _ (.rfl' ..)
  | rebuildControl => exact execRebuildControl_kept _ _ (.rfl' ..)
  | scrubControl => exact execScrubControl_kept _ _ (.rfl' ..)
  | poolStatus => exact execPoolStatus_kept _ _ (.rfl' ..)
  | memberStatus => exact execMemberStatus_kept _ _ (.rfl' ..)
  | lostBlockList => exact execLostBlockList_kept _ _ (.rfl' ..)
  | createTenant => exact execCreateTenant_kept _ _ (.rfl' ..)
  | deleteTenant => exact execDeleteTenant_kept _ _ (.rfl' ..)
  | bind => exact execBind_kept _ _ (.rfl' ..)
  | loadKey => exact execLoadKey_kept _ _ (.rfl' ..)
  | eraseKey => exact execEraseKey_kept _ _ (.rfl' ..)
  | eraseMarksApply => exact execEraseMarksApply_kept _ _ (.rfl' ..)
  | setTenantQos => exact execSetTenantQos_kept _ _ (.rfl' ..)
  | meterConfig => exact execMeterConfig_kept _ _ (.rfl' ..)
  | meterRead => exact execMeterRead_kept _ _ (.rfl' ..)
  | reflectWrite => exact execReflectWrite_kept _ _ (.rfl' ..)
  | reflectRead => exact execReflectRead_kept _ _ (.rfl' ..)
  | reflectAdd => exact execReflectAdd_kept _ _ (.rfl' ..)
  | reflectCas => exact execReflectCas_kept _ _ (.rfl' ..)
  | registerRegion => exact execRegisterRegion_kept _ _ (.rfl' ..)
  | revokeRegion => exact execRevokeRegion_kept _ _ (.rfl' ..)
  | revokeComplete => exact execRevokeComplete_kept _ _ _ (.rfl' ..)
  | endpointStatus => exact execEndpointStatus_kept _ _ (.rfl' ..)
  | firmwareDownload => exact execFirmwareDownload_kept _ _ (.rfl' ..)
  | firmwareProgrammed => exact execFirmwareProgrammed_kept _ _ (.rfl' ..)
  | firmwareActivate => exact execFirmwareActivate_kept _ _ (.rfl' ..)
  | firmwareLoadDone => exact execFirmwareLoadDone_kept _ (.rfl' ..)
  | firmwareClassFlip => exact execFirmwareClassFlip_kept _ _ (.rfl' ..)
  | logFreeze => exact execLogFreeze_kept _ _ (.rfl' ..)
  | logThaw => exact execLogThaw_kept _ _ (.rfl' ..)
  | freezeExpired => exact execFreezeExpired_kept _ (.rfl' ..)
  | logRead => exact execLogRead_kept _ _ (.rfl' ..)
  | logClearChallenge => exact execLogClearChallenge_kept _ _ (.rfl' ..)
  | challengeExpired => exact execChallengeExpired_kept _ (.rfl' ..)
  | logClear => exact execLogClear_kept _ _ (.rfl' ..)
  | healthReport => exact execHealthReport_kept _ _ (.rfl' ..)
  | selfTest => exact execSelfTest_kept _ _ (.rfl' ..)
  | engineSwap => exact execEngineSwap_kept _ _ (.rfl' ..)
  | dieRetire => exact execDieRetire_kept _ _ (.rfl' ..)
  | dieRetireMigrated => exact execDieRetireMigrated_kept _ _ (.rfl' ..)
  | timeAnchor => exact execTimeAnchor_kept _ _ (.rfl' ..)
  | partnerControl => exact execPartnerControl_kept _ _ (.rfl' ..)
  | tickBudgetReport => exact execTickBudgetReport_kept _ _ (.rfl' ..)
  | doorbell => exact execDoorbell_kept _ _ _ (.rfl' ..)
  | notificationDoorbell => exact execNotificationDoorbell_kept _ _ _ (.rfl' ..)
  | clearOvf => exact execClearOvf_kept _ _ _ (.rfl' ..)
  | invalidate => exact execInvalidate_kept _ _ _ (.rfl' ..)
  | setupRingEnable => exact execSetupRingEnable_kept _ _ _ (.rfl' ..)
  | setupRingDisable => exact execSetupRingDisable_kept _ _ _ (.rfl' ..)
  | gctlReset => exact execGctlReset_kept _ _ _ (.rfl' ..)
  | ladderAck => exact execLadderAck_kept _ _ _ (.rfl' ..)
  | evtPendClear => exact execEvtPendClear_kept _ _ _ _ (.rfl' ..)
  | meterHeadWrite => exact execMeterHeadWrite_kept _ _ _ (.rfl' ..)
  | xchIdentify => exact execXchIdentify_kept _ _ (.rfl' ..)
  | xchPoolStatus => exact execXchPoolStatus_kept _ _ (.rfl' ..)
  | xchMemberStatus => exact execXchMemberStatus_kept _ _ (.rfl' ..)
  | xchHealthReport => exact execXchHealthReport_kept _ _ (.rfl' ..)
  | xchLogRead => exact execXchLogRead_kept _ _ (.rfl' ..)
  | xchMeterRead => exact execXchMeterRead_kept _ _ (.rfl' ..)
  | msixVectorUnmask => exact execMsixVectorUnmask_kept _ _ _ _ (.rfl' ..)
  | registerWrite => exact execRegisterWrite_kept _ _ _ _ _ (.rfl' ..)
  | tick => exact execTick_kept _ _ (.rfl' ..)
  | frameOverrun => exact execFrameOverrun_kept _ _ (.rfl' ..)
  | frameRecovered => exact execFrameRecovered_kept _ _ (.rfl' ..)
  | frameNotRecovered => exact execFrameNotRecovered_kept _ _ (.rfl' ..)
  | budgetWindow => exact execBudgetWindow_kept _ _ _ (.rfl' ..)
  | ticksyncAlign => exact execTicksyncAlign_kept _ _ (.rfl' ..)
  | ticksyncLost => exact execTicksyncLost_kept _ (.rfl' ..)
  | powerUp => exact execPowerUp_kept _ (.rfl' ..)
  | startupPhaseDone => exact execStartupPhaseDone_kept _ _ (.rfl' ..)
  | resetN => exact execResetN_kept _ (.rfl' ..)
  | perstN => exact execPerstN_kept _ _ (.rfl' ..)
  | flr => exact execFlr_kept _ _ _ (.rfl' ..)
  | pfail => exact execPfail_kept _ (.rfl' ..)
  | backupEnRaise => exact execBackupEnRaise_kept _ (.rfl' ..)
  | vaultDone => exact execVaultDone_kept _ _ (.rfl' ..)
  | pfailDeassert => exact execPfailDeassert_kept _ (.rfl' ..)
  | powerReturned => exact execPowerReturned_kept _ (.rfl' ..)
  | thermalWarning => exact execThermalWarning_kept _ _ _ (.rfl' ..)
  | thermalCapStep => exact execThermalCapStep_kept _ (.rfl' ..)
  | thermalCapLifted => exact execThermalCapLifted_kept _ (.rfl' ..)
  | thermalTrip => exact execThermalTrip_kept _ _ (.rfl' ..)
  | powerStateChangeDone => exact execPowerStateChangeDone_kept _ (.rfl' ..)
  | powerStateTimeout => exact execPowerStateTimeout_kept _ (.rfl' ..)
  | powerStateRaised => exact execPowerStateRaised_kept _ (.rfl' ..)
  | lockstepMismatch => exact execLockstepMismatch_kept _ _ _ (.rfl' ..)
  | gfResidueFault => exact execGfResidueFault_kept _ _ _ _ (.rfl' ..)
  | aesCheckFault => exact execAesCheckFault_kept _ _ _ _ (.rfl' ..)
  | datapathCrcError => exact execDatapathCrcError_kept _ _ _ _ (.rfl' ..)
  | sramUncorrectable => exact execSramUncorrectable_kept _ _ _ (.rfl' ..)
  | ddrUncorrectable => exact execDdrUncorrectable_kept _ _ _ _ (.rfl' ..)
  | nvUnitRetired => exact execNvUnitRetired_kept _ _ (.rfl' ..)
  | sramPatrol => exact execSramPatrol_kept _ _ _ (.rfl' ..)
  | nvVerifyPass => exact execNvVerifyPass_kept _ _ _ (.rfl' ..)
  | ddrPatrol => exact execDdrPatrol_kept _ _ _ (.rfl' ..)
  | ddrZqCalibration => exact execDdrZqCalibration_kept _ _ _ (.rfl' ..)
  | ddrRetrained => exact execDdrRetrained_kept _ _ _ _ (.rfl' ..)
  | ddrChannelSpared => exact execDdrChannelSpared_kept _ _ _ (.rfl' ..)
  | eyeMeasure => exact execEyeMeasure_kept _ _ _ _ (.rfl' ..)
  | fabricLinkDown => exact execFabricLinkDown_kept _ _ _ (.rfl' ..)
  | dieSelfRetire => exact execDieSelfRetire_kept _ _ (.rfl' ..)
  | dieHoldDrop => exact execDieHoldDrop_kept _ _ (.rfl' ..)
  | leadDieMove => exact execLeadDieMove_kept _ (.rfl' ..)
  | indexRebuilt => exact execIndexRebuilt_kept _ (.rfl' ..)
  | heartbeatLost => exact execHeartbeatLost_kept _ _ (.rfl' ..)
  | shadowTakeover => exact execShadowTakeover_kept _ _ (.rfl' ..)
  | takeoverDecision => exact execTakeoverDecision_kept _ _ (.rfl' ..)
  | witnessAcquire => exact execWitnessAcquire_kept _ (.rfl' ..)
  | witnessAcquireDone => exact execWitnessAcquireDone_kept _ _ (.rfl' ..)
  | holdWireCleared => exact execHoldWireCleared_kept _ (.rfl' ..)
  | pairRejoin => exact execPairRejoin_kept _ (.rfl' ..)
  | rejoinTick => exact execRejoinTick_kept _ (.rfl' ..)
  | partnerAbsentTimeout => exact execPartnerAbsentTimeout_kept _ (.rfl' ..)
  | dryTakeover => exact execDryTakeover_kept _ _ _ _ (.rfl' ..)
  | witnessMeasure => exact execWitnessMeasure_kept _ _ (.rfl' ..)
  | healthReportWrite => exact execHealthReportWrite_kept _ (.rfl' ..)
  | unitProtected => exact execUnitProtected_kept _ _ (.rfl' ..)
  | stripeAgeLimit => exact execStripeAgeLimit_kept _ _ _ (.rfl' ..)
  | destageStart => exact execDestageStart_kept _ _ _ (.rfl' ..)
  | zeroFill => exact execZeroFill_kept _ _ _ (.rfl' ..)
  | anchor => exact execAnchor_kept _ _ (.rfl' ..)
  | journalSpill => exact execJournalSpill_kept _ _ (.rfl' ..)
  | journalFullCleared => exact execJournalFullCleared_kept _ _ (.rfl' ..)
  | spillCopyReplaced => exact execSpillCopyReplaced_kept _ _ _ (.rfl' ..)
  | configFold => exact execConfigFold_kept _ _ (.rfl' ..)
  | vaultRateMeasure => exact execVaultRateMeasure_kept _ _ _ _ (.rfl' ..)
  | memberCompletion => exact execMemberCompletion_kept _ _ _ (.rfl' ..)
  | sectorRepaired => exact execSectorRepaired_kept _ _ (.rfl' ..)
  | memberCommandRetried => exact execMemberCommandRetried_kept _ _ (.rfl' ..)
  | memberTimeout => exact execMemberTimeout_kept _ _ (.rfl' ..)
  | memberRemoved => exact execMemberRemoved_kept _ _ (.rfl' ..)
  | controllerFatal => exact execControllerFatal_kept _ _ (.rfl' ..)
  | asyncEvent => exact execAsyncEvent_kept _ _ _ (.rfl' ..)
  | smartPoll => exact execSmartPoll_kept _ _ _ (.rfl' ..)
  | pathLost => exact execPathLost_kept _ _ _ (.rfl' ..)
  | pathRestored => exact execPathRestored_kept _ _ _ (.rfl' ..)
  | rebuildStarted => exact execRebuildStarted_kept _ _ (.rfl' ..)
  | rebuildTileDone => exact execRebuildTileDone_kept _ _ _ _ _ (.rfl' ..)
  | rebuildResorted => exact execRebuildResorted_kept _ _ (.rfl' ..)
  | lostListWrite => exact execLostListWrite_kept _ _ (.rfl' ..)
  | copyBackTile => exact execCopyBackTile_kept _ _ _ _ _ (.rfl' ..)
  | scrubPassStart => exact execScrubPassStart_kept _ _ (.rfl' ..)
  | scrubTile => exact execScrubTile_kept _ _ _ _ (.rfl' ..)
  | mitreStep => exact execMitreStep_kept _ _ (.rfl' ..)
  | veneerBuild => exact execVeneerBuild_kept _ _ (.rfl' ..)
  | veneerSwitch => exact execVeneerSwitch_kept _ _ (.rfl' ..)
  | reshapeCancelled => exact execReshapeCancelled_kept _ _ (.rfl' ..)
  | segWrite => exact execSegWrite_kept _ _ _ (.rfl' ..)
  | segReadRequest => exact execSegReadRequest_kept _ _ _ _ (.rfl' ..)
  | segReadData => exact execSegReadData_kept _ _ _ (.rfl' ..)
  | segAdd => exact execSegAdd_kept _ _ _ (.rfl' ..)
  | segCas => exact execSegCas_kept _ _ _ (.rfl' ..)
  | segAtomicResult => exact execSegAtomicResult_kept _ _ _ (.rfl' ..)
  | segAck => exact execSegAck_kept _ _ _ (.rfl' ..)
  | segRefuse => exact execSegRefuse_kept _ _ _ (.rfl' ..)
  | segmentRetransmit => exact execSegmentRetransmit_kept _ _ _ _ (.rfl' ..)
  | reflectUnreachable => exact execReflectUnreachable_kept _ _ _ (.rfl' ..)
  | flaggedSegmentExpired => exact execFlaggedSegmentExpired_kept _ _ (.rfl' ..)
  | filterEntryExpired => exact execFilterEntryExpired_kept _ _ (.rfl' ..)
  | payloadFlit => exact execPayloadFlit_kept _ _ _ (.rfl' ..)
  | alignFlit => exact execAlignFlit_kept _ _ _ (.rfl' ..)
  | configFlit => exact execConfigFlit_kept _ _ _ (.rfl' ..)
  | configAckFlit => exact execConfigAckFlit_kept _ _ _ (.rfl' ..)
  | recoverFlit => exact execRecoverFlit_kept _ _ (.rfl' ..)
  | linkRecover => exact execLinkRecover_kept _ _ (.rfl' ..)
  | linkDetect => exact execLinkDetect_kept _ _ (.rfl' ..)
  | linkStateTimeout => exact execLinkStateTimeout_kept _ _ (.rfl' ..)
  | meterSnapshot => exact execMeterSnapshot_kept _ _ (.rfl' ..)
  | capRedivide => exact execCapRedivide_kept _ (.rfl' ..)
  | rateWindow => exact execRateWindow_kept _ _ (.rfl' ..)
  | optimeSave => exact execOptimeSave_kept _ _ (.rfl' ..)
  | setEndpointId => exact execSetEndpointId_kept _ _ _ (.rfl' ..)
  | getEndpointId => exact execGetEndpointId_kept _ _ (.rfl' ..)
  | getMctpVersionSupport => exact execGetMctpVersionSupport_kept _ _ (.rfl' ..)
  | getMessageTypeSupport => exact execGetMessageTypeSupport_kept _ _ (.rfl' ..)
  | getEndpointUuid => exact execGetEndpointUuid_kept _ _ (.rfl' ..)
  | alertResponse => exact execAlertResponse_kept _ (.rfl' ..)
  | getStatus => exact execGetStatus_kept _ _ (.rfl' ..)
  | getHealth => exact execGetHealth_kept _ _ _ (.rfl' ..)
  | getPending => exact execGetPending_kept _ _ _ (.rfl' ..)
  | clearPending => exact execClearPending_kept _ _ _ _ (.rfl' ..)
  | getRecords => exact execGetRecords_kept _ _ _ (.rfl' ..)
  | ringFetchError => exact execRingFetchError_kept _ _ _ (.rfl' ..)
  | powerLoss => exact execPowerLoss_kept _ (.rfl' ..)
  | perstNDeasserted => exact execPerstNDeasserted_kept _ _ (.rfl' ..)
  | memberAppearsOnPath => exact execMemberAppearsOnPath_kept _ _ (.rfl' ..)
  | formatNvmTimeout => exact execFormatNvmTimeout_kept _ _ (.rfl' ..)
  | equalisationLock => exact execEqualisationLock_kept _ _ _ (.rfl' ..)
  | smbusBusHeldLow => exact execSmbusBusHeldLow_kept _ (.rfl' ..)

/-- What a command that answered t kept between s and t. -/
theorem kept_of_exec {c : Instr} {s t : State} (e : exec c s = .next t) :
    Kept (leavesTick c) (leavesDieMem c) false s.seen t.seen := by
  have k := exec_kept c s
  rwa [e] at k

theorem exec_keeps_inv {c : Instr} {s t : State} (e : exec c s = .next t) (h : Inv s) : Inv t :=
  (inv_seen t).2 ((kept_of_exec e).ok ((inv_seen s).1 h))

/-- The invariant does not look at the queue. -/
theorem Inv.withPending {s : State} (h : Inv s) (l : List Instr) : Inv { s with pending := l } :=
  ⟨h.dies, h.fault, h.mem⟩

/-- What a step can do: nothing on an empty queue, else the command at the front of the queue on its rest. -/
theorem step_cases {s t : State} (e : step s = .next t) :
    t = s ∨ ∃ c rest, s.pending = c :: rest ∧ exec c { s with pending := rest } = .next t := by
  unfold step at e
  split at e
  case h_1 => exact .inl (Host.Outcome.next.inj e).symm
  case h_2 c rest hp => exact .inr ⟨c, rest, hp, e⟩

/-- Settles O3, by the cases of a step: an idle step changes nothing, any other is a command of the table. -/
theorem stepKeepsInv : Obligations.StepKeepsInv := by
  intro s t h e
  obtain rfl | ⟨c, rest, -, e⟩ := step_cases e
  · exact h
  · exact exec_keeps_inv e (h.withPending rest)

end Sys2Proof.Machine
end

section
/-! SUPPORT. Dispatch and the fabric: what a dispatched entry leaves of the state, and what paths depend on. -/
namespace Sys2Proof.Machine

/-- R92, R441: dispatch changes the rings, the rounds, the buckets and the commands in flight alone. -/
theorem dispatched_eq (r : Ring) (op : Op) (p : Post) (s : State) : ∃ b, dispatched r op p s =
    { advanceRings r op p.entry s with buckets := b, cmds := s.cmds ++ [newCmd s r op p] } := by
  unfold dispatched charge
  dsimp only
  split
  · exact ⟨_, rfl⟩
  · split
    · exact ⟨_, rfl⟩
    · exact ⟨_, rfl⟩

theorem Taken.not_in_flight {op : Op} {p : Post} {r : Ring} {s : State} (h : Taken op p r s) : s.cmd? r.ref = none := by
  have ht := h.ready
  simp only [takes, hasHead, Bool.and_eq_true] at ht
  simpa using ht.1.1.1.1.2.1.2

theorem refs_ne_of_not_in_flight {s : State} {ref : CmdRef} (h : s.cmd? ref = none) : ∀ c ∈ s.cmds, c.ref ≠ ref := by
  intro c hc e
  simpa [e] using List.find?_eq_none.1 h c hc

/-- A change of the command that stands last, whose name no other has. -/
theorem updIf_last {l : List Cmd} {c : Cmd} (f : Cmd → Cmd) (h : ∀ d ∈ l, d.ref ≠ c.ref) :
    updIf (fun x => x.ref == c.ref) f (l ++ [c]) = l ++ [f c] := by
  have e : updIf (fun x => x.ref == c.ref) f l = l := by
    unfold updIf
    exact (List.map_congr_left fun d hd => by simp [h d hd]).trans l.map_id
  simp only [updIf, List.map_append] at e ⊢
  rw [e]
  simp

theorem find?_last {l : List Cmd} {c : Cmd} (h : ∀ d ∈ l, d.ref ≠ c.ref) :
    (l ++ [c]).find? (fun x => x.ref == c.ref) = some c := by
  rw [List.find?_append, List.find?_eq_none.2 (by simpa using h)]
  simp

@[simp] theorem dispatched_die? (r : Ring) (op : Op) (p : Post) (s : State) : (dispatched r op p s).die? = s.die? := by
  funext d; simp [State.die?]
@[simp] theorem dispatched_vol? (r : Ring) (op : Op) (p : Post) (s : State) : (dispatched r op p s).vol? = s.vol? := by
  funext n; simp [State.vol?]
@[simp] theorem dispatched_pool? (r : Ring) (op : Op) (p : Post) (s : State) : (dispatched r op p s).pool? = s.pool? := by
  funext n; simp [State.pool?]
@[simp] theorem dispatched_tenant? (r : Ring) (op : Op) (p : Post) (s : State) : (dispatched r op p s).tenant? = s.tenant? := by
  funext n; simp [State.tenant?]

/-! ### The fabric looks at the part and the modules alone -/

theorem die?_hw {s t : State} (h : t.dies.map (·.hw) = s.dies.map (·.hw)) (d : Nat) :
    (t.die? d).map (·.hw) = (s.die? d).map (·.hw) := by
  simp only [State.die?, ← List.getElem?_map, h]

theorem moduleUp_congr {s t : State} (h : t.dies.map (·.hw) = s.dies.map (·.hw)) : moduleUp t = moduleUp s := by
  funext d m
  have k (x : State) : moduleUp x d m = ((x.die? d).map (·.hw)).any fun h => h.fabric[m]? == some true := by
    unfold moduleUp; cases x.die? d <;> rfl
  rw [k, k, die?_hw h]

theorem fabricNext_congr {s t : State} (hp : t.id.part = s.id.part) (h : t.dies.map (·.hw) = s.dies.map (·.hw)) :
    fabricNext t = fabricNext s := by
  have e : fabricReach t = fabricReach s := by
    funext d m
    simp only [fabricReach, moduleUp_congr h, hp]
  funext d
  simp only [fabricNext, e]

theorem fabricBall_congr {s t : State} (h : fabricNext t = fabricNext s) (d n : Nat) : fabricBall t d n = fabricBall s d n := by
  induction n with
  | zero => rfl
  | succ n ih => simp only [fabricBall, ih, h]

theorem fabricHops_congr {s t : State} (h : fabricNext t = fabricNext s) : fabricHops t = fabricHops s := by
  funext d e
  simp only [fabricHops, fabricBall_congr h]

theorem fabricPathOf_congr {s t : State} (h : fabricNext t = fabricNext s) (n d e : Nat) :
    fabricPathOf t n d e = fabricPathOf s n d e := by
  induction n generalizing d with
  | zero => rfl
  | succ n ih => simp only [fabricPathOf, h, fabricHops_congr h, ih]

theorem fabricPath_congr {s t : State} (h : fabricNext t = fabricNext s) : fabricPath t = fabricPath s := by
  funext d e
  simp only [fabricPath, fabricHops_congr h, fabricPathOf_congr h]

end Sys2Proof.Machine
end

section
/-! SUPPORT. Where the start of a data command that passes its checks leads. -/
namespace Sys2Proof.Machine

/-- R115, R116, R438: a taken entry of a data command names its buffer, its volume and pool are there, its binding permits the volume, and its
checks pass. -/
structure PassesChecks (op : Op) (p : Post) (r : Ring) (s : State) (v : Vol) (q : Pool) : Prop extends Direct op p r s where
  vol : s.vol? p.entry.vol.toNat = some v
  stays : v.deleting = none
  pool : s.pool? v.pool = some q
  may : permits (cmdOf op p r s) v = true
  checked : ioCheck s (cmdOf op p r s) v = none
  data : op = .write → writeCheck (cmdOf op p r s) v = none

namespace PassesChecks
variable {op : Op} {p : Post} {r : Ring} {s : State} {v : Vol} {q : Pool}

theorem startOf_vol (h : PassesChecks op p r s v q) : (startOf op p r s).vol? p.entry.vol.toNat = some v := by
  simpa using h.vol

theorem startOf_pool (h : PassesChecks op p r s v q) : (startOf op p r s).pool? v.pool = some q := by
  simpa using h.pool

theorem home (h : PassesChecks op p r s v q) : homeOf s p.entry.vol.toNat = some q.home := by
  simp [homeOf, h.vol, h.pool]

end PassesChecks

theorem dispatched_homeOf (r : Ring) (op : Op) (p : Post) (s : State) (n : Nat) : homeOf (dispatched r op p s) n = homeOf s n := by
  simp [homeOf]

theorem dispatched_poolHeld (r : Ring) (op : Op) (p : Post) (s : State) (q : Pool) :
    poolHeld (dispatched r op p s) q = poolHeld s q := by
  obtain ⟨b, e⟩ := dispatched_eq r op p s
  rw [e]; rfl

theorem dispatched_fabricPath (r : Ring) (op : Op) (p : Post) (s : State) (d e : Nat) :
    fabricPath (dispatched r op p s) d e = fabricPath s d e := by
  exact congrFun (congrFun (fabricPath_congr (fabricNext_congr (by simp) (by simp))) d) e

theorem dispatched_homeSheds (r : Ring) (op : Op) (p : Post) (s : State) (c : Cmd) :
    homeSheds (dispatched r op p s) c = homeSheds s c := by
  simp [homeSheds, dispatched_homeOf]

theorem dispatched_underWay (r : Ring) (op : Op) (p : Post) (s : State) (c : Cmd) :
    underWay (dispatched r op p s) c = underWay s c := by
  simp [underWay]

theorem dispatched_ioCheck (r : Ring) (op : Op) (p : Post) (s : State) (c : Cmd) (v : Vol) :
    ioCheck (dispatched r op p s) c v = ioCheck s c v := by
  simp [ioCheck, keyOf]

/-- R33: the entries before a dispatched one are those in flight already. -/
theorem Taken.ringBehind {op : Op} {p : Post} {r : Ring} {s : State} (h : Taken op p r s) :
    ringBehind (startOf op p r s) (cmdOf op p r s) = ringBehind s (cmdOf op p r s) := by
  have hn := refs_ne_of_not_in_flight h.not_in_flight
  obtain ⟨b, e⟩ := dispatched_eq r op p s
  have k : ∀ d ∈ s.cmds, (d.ref != r.ref) = true := by simpa using hn
  have t1 : s.cmds.takeWhile (fun d => d.ref != r.ref) = s.cmds := List.takeWhile_eq_self_iff.2 k
  have t2 : (dispatched r op p s).cmds.takeWhile (fun d => d.ref != r.ref) = s.cmds := by
    rw [e]
    simp only [List.takeWhile_append, t1, if_true]
    simp [newCmd]
  simp only [Machine.ringBehind, dispatched_homeOf]
  simp only [show (newCmd s r op p).ref = r.ref from rfl, t1, t2]

/-- R353: the commands of a volume's pool are held, and no FLUSH is asked for. -/
theorem gapHolds_of_data {s : State} {c : Cmd} {v : Vol} {q : Pool} (hv : s.vol? c.entry.vol.toNat = some v)
    (hq : s.pool? v.pool = some q) (ho : c.op ≠ .flush ∧ c.op ≠ .flushMedia) : gapHolds s c = poolHeld s q := by
  simp [gapHolds, hv, hq, flushesAll, ho]

namespace PassesChecks
variable {op : Op} {p : Post} {r : Ring} {s : State} {v : Vol} {q : Pool}

theorem arrived_iff (h : PassesChecks op p r s v q) :
    arrived (startOf op p r s) (cmdOf op p r s) = (q.home == r.die) := by
  simp [arrived, dispatched_homeOf, newCmd, h.home, Ring.ref]

theorem gapHolds_iff (h : PassesChecks op p r s v q) (ho : op ≠ .flush ∧ op ≠ .flushMedia) :
    gapHolds (startOf op p r s) (cmdOf op p r s) = poolHeld s q := by
  rw [gapHolds_of_data (v := v) (q := q) h.startOf_vol h.startOf_pool ho, dispatched_poolHeld]

/-- R178: the journal that matters is that of the home die. -/
theorem shutOut_iff (h : PassesChecks op p r s v q) :
    shutOut (startOf op p r s) (cmdOf op p r s) = (writeKind op && journalFull s q.home) := by
  simp only [shutOut, dispatched_homeOf, newCmd, h.home, Option.any_some, journalFull, dispatched_die?]

/-- R33, R42, R48, R66, R116, R178, R353: where the start of a data command that passes its checks leads. -/
theorem startIo_eq (h : PassesChecks op p r s v q) (ho : op ≠ .flush ∧ op ≠ .flushMedia) :
    startIo r.ref (startOf op p r s) =
      if Machine.ringBehind s (cmdOf op p r s) then holdIo r.ref (startOf op p r s)
      else if q.home ≠ r.die then sendOver r.ref (startOf op p r s)
      else if (writeKind op && journalFull s q.home) || homeSheds s (cmdOf op p r s) || poolHeld s q then holdIo r.ref (startOf op p r s)
      else admitCmd r.ref (startOf op p r s) := by
  have hvol : volOf (startOf op p r s) (cmdOf op p r s) = some v := by
    simp [volOf, show (startOf op p r s).vol? (cmdOf op p r s).entry.vol.toNat = some v from h.startOf_vol, h.stays]
  have hc : (startOf op p r s).cmd? r.ref = some (cmdOf op p r s) := h.toTaken.cmd
  have hw : (if (cmdOf op p r s).op = .write then writeCheck (cmdOf op p r s) v else none) = none := by
    by_cases e : op = .write
    · exact (if_pos e).trans (h.data e)
    · exact if_neg e
  unfold startIo
  simp only [hc, hvol, h.may, dispatched_ioCheck, h.checked, hw, h.toTaken.ringBehind, h.arrived_iff, h.shutOut_iff,
    dispatched_homeSheds, h.gapHolds_iff ho]
  simp

end PassesChecks
end Sys2Proof.Machine
end

section
/-! PROOF. Admission to the clamp table. -/
namespace Sys2Proof.Machine

theorem dispatched_cmds_eq (r : Ring) (op : Op) (p : Post) (s : State) :
    (dispatched r op p s).cmds = s.cmds ++ [newCmd s r op p] := by
  simp [dispatched]

/-- A change of a dispatched command leaves the others as they are. -/
theorem Taken.updCmd {op : Op} {p : Post} {r : Ring} {s : State} (h : Taken op p r s) (f : Cmd → Cmd) :
    (startOf op p r s).updCmd r.ref f = { startOf op p r s with cmds := s.cmds ++ [f (cmdOf op p r s)] } := by
  unfold State.updCmd
  rw [dispatched_cmds_eq]
  exact congrArg (fun l => { startOf op p r s with cmds := l })
    (updIf_last (c := newCmd s r op p) f (refs_ne_of_not_in_flight h.not_in_flight))

theorem Taken.updCmd_cmd? {op : Op} {p : Post} {r : Ring} {s : State} (h : Taken op p r s) {f : Cmd → Cmd}
    (hf : ∀ c, (f c).ref = c.ref) : ((startOf op p r s).updCmd r.ref f).cmd? r.ref = some (f (cmdOf op p r s)) := by
  have e : (f (cmdOf op p r s)).ref = r.ref := hf _
  rw [h.updCmd]
  have k := find?_last (l := s.cmds) (c := f (cmdOf op p r s)) (by rw [e]; exact refs_ne_of_not_in_flight h.not_in_flight)
  rwa [e] at k

/-- R92: what a change of the dispatched command changes of the state before its dispatch. -/
theorem Taken.updCmd_frame {op : Op} {p : Post} {r : Ring} {s : State} (f : Cmd → Cmd) :
    Frame s ((startOf op p r s).updCmd r.ref f) [.arb, .rings, .buckets, .cmds] :=
  (dispatched_frame ..).trans ((Machine.updCmd_frame ..).mono (by decide))

/-- R61: lending looks at the commands in flight and changes nothing else. -/
theorem lend_frame (s : State) : Frame s (lend s) [.cmds] := by
  refine ⟨fun k hk => ?_⟩
  cases k with
  | cmds => simp at hk
  | _ => rfl

theorem admitted_frame (op : Op) (p : Post) (r : Ring) (s : State) (st : Stage) :
    Frame s (admitted op p r s st) [.arb, .rings, .buckets, .cmds, .seq] := by
  refine ((dispatched_frame r op p s).mono (by decide)).trans ⟨fun k hk => ?_⟩
  cases k with
  | cmds | seq => simp at hk
  | _ => rfl

/-- R33, R41, R48: a command sent over the fabric changes only what dispatch changes. -/
theorem forwarded_frame (op : Op) (p : Post) (r : Ring) (s : State) (h : Nat) :
    Frame s (forwarded op p r s h) [.arb, .rings, .buckets, .cmds] := by
  refine (dispatched_frame r op p s).trans ⟨fun k hk => ?_⟩
  cases k with
  | cmds => simp at hk
  | _ => rfl

/-- R141: the state once a command is in the clamp table, stalled at first. -/
def entered (ref : CmdRef) (s : State) : State :=
  { s.updCmd ref fun c => { clampedIn c s with stage := .stalled } with seq := s.seq + 1 }

/-- R141, R142: an admitted command starts work or stalls. -/
theorem admitCmd_eq (ref : CmdRef) (s : State) : admitCmd ref s = match (entered ref s).cmd? ref with
    | some c => if mayStart (entered ref s) c then startWork ref (entered ref s) else lend (entered ref s)
    | none => entered ref s := rfl

/-- R142: no command conflicts with one admitted no later. -/
theorem conflicts_self (c d : Cmd) (h : d.seq = c.seq) : conflicts c d = false := by
  simp [conflicts, h]

namespace PassesChecks
variable {op : Op} {p : Post} {r : Ring} {s : State} {v : Vol} {q : Pool}

/-- R33, R41, R48: a data command whose home die is another goes over the fabric. -/
theorem sendOver_eq (h : PassesChecks op p r s v q) : sendOver r.ref (startOf op p r s) = forwarded op p r s q.home := by
  unfold sendOver
  rw [h.toTaken.updCmd]
  simp only [newCmd, dispatched_homeOf, h.home, Option.map_some, Option.getD_some, dispatched_fabricPath, dispatched_clk,
    forwarded, Ring.ref]
  rfl

/-- R141: the clamp table takes a dispatched command in with the next admission number. -/
theorem entered_eq (h : PassesChecks op p r s v q) : entered r.ref (startOf op p r s) = admitted op p r s .stalled := by
  have e : clampedIn (cmdOf op p r s) (startOf op p r s) = admittedCmd op p r s := by
    simp only [admittedCmd, clampedIn, dispatched_underWay, dispatched_seq, dispatched_clk]
  unfold entered
  rw [h.toTaken.updCmd, e, dispatched_seq]
  rfl

theorem admitted_vol (h : PassesChecks op p r s v q) (st : Stage) :
    (admitted op p r s st).vol? p.entry.vol.toNat = some v := by simpa [State.vol?, admitted] using h.vol

theorem admitted_pool (h : PassesChecks op p r s v q) (st : Stage) : (admitted op p r s st).pool? v.pool = some q := by
  simpa [State.pool?, admitted] using h.pool

theorem admitted_cmd (h : PassesChecks op p r s v q) (st : Stage) :
    (admitted op p r s st).cmd? r.ref = some { admittedCmd op p r s with stage := st } :=
  find?_last (c := { admittedCmd op p r s with stage := st }) (refs_ne_of_not_in_flight h.not_in_flight)

/-- R141, R142: a dispatched command is admitted, at work or stalled. -/
theorem admitCmd_eq (h : PassesChecks op p r s v q) : admitCmd r.ref (startOf op p r s) =
    if mayStart (admitted op p r s .stalled) { admittedCmd op p r s with stage := .stalled } then
      startWork r.ref (admitted op p r s .stalled) else lend (admitted op p r s .stalled) := by
  rw [Machine.admitCmd_eq, h.entered_eq, h.admitted_cmd]

theorem admitted_poolHeld (st : Stage) : poolHeld (admitted op p r s st) q = poolHeld s q := by
  obtain ⟨b, e⟩ := dispatched_eq r op p s
  simp only [admitted, e]
  rfl

theorem admitted_conflicts (st : Stage) :
    (admitted op p r s st).cmds.any (conflicts { admittedCmd op p r s with stage := st }) =
      s.cmds.any (conflicts (admittedCmd op p r s)) := by
  simp only [admitted, List.any_append, List.any_cons, List.any_nil, conflicts_self _ _ rfl, Bool.or_false]
  rfl

/-- R142, R271, R353: whether an admitted write-kind command starts work. -/
theorem mayStart_write (h : PassesChecks op p r s v q) (hk : writeKind op = true) (st : Stage) :
    mayStart (admitted op p r s st) { admittedCmd op p r s with stage := st } =
      (!clampHolds q v (admittedCmd op p r s) s && !poolHeld s q) := by
  have hv : (admitted op p r s st).vol? ({ admittedCmd op p r s with stage := st } : Cmd).entry.vol.toNat = some v := h.admitted_vol st
  have hs : stepStalls (admitted op p r s st) { admittedCmd op p r s with stage := st } =
      q.lock.any fun k => inRange v (admittedCmd op p r s) k.lo k.hi := by
    simp only [stepStalls, hv, Option.any_some, h.admitted_pool]
    simp only [show writeKind (admittedCmd op p r s).op = true from hk, Bool.true_or, Bool.true_and]
    rfl
  have ho : op ≠ .read ∧ op ≠ .verify ∧ op ≠ .flush ∧ op ≠ .flushMedia := by
    cases op <;> simp_all [writeKind]
  have hg : gapHolds (admitted op p r s st) { admittedCmd op p r s with stage := st } = poolHeld s q := by
    rw [gapHolds_of_data hv (h.admitted_pool st) ⟨ho.2.2.1, ho.2.2.2⟩, admitted_poolHeld]
  have hu : unitsAway (admitted op p r s st) { admittedCmd op p r s with stage := st } = false := by
    simp [unitsAway, needsAway, admittedCmd, clampedIn, newCmd, ho.1, ho.2.1]
  simp only [mayStart, admitted_conflicts, hs, hg, hu, clampHolds, Bool.not_or, Bool.not_false, Bool.and_true]

/-- R142: a write-kind command that nothing holds back is at work. -/
theorem startWork_write (h : PassesChecks op p r s v q) (hk : writeKind op = true) (hz : op = .deallocate → v.dz = true) :
    startWork r.ref (admitted op p r s .stalled) = admitted op p r s .working := by
  unfold startWork
  simp only [h.admitted_cmd]
  simp only [show (admitted op p r s .stalled).vol? (admittedCmd op p r s).entry.vol.toNat = some v from h.admitted_vol _,
    h.admitted_pool, show (admittedCmd op p r s).op = op from rfl, hk, if_true]
  rw [if_neg (by simpa using hz)]
  unfold State.updCmd
  exact congrArg (fun l => { admitted op p r s .stalled with cmds := l })
    (updIf_last (c := { admittedCmd op p r s with stage := .stalled }) _ (refs_ne_of_not_in_flight h.not_in_flight))

end PassesChecks

/-- Settles O12, by the cases of where the start of a data command leads (`startIo_eq`). -/
theorem writeKindAdmitted : Obligations.WriteKindAdmitted := by
  intro op p r s v q hop hd hv hdel hq hper hck hw
  have h : PassesChecks op p r s v q := { hd with vol := hv, stays := hdel, pool := hq, may := hper, checked := hck, data := hw }
  have hk : writeKind op = true := by obtain rfl | rfl | ⟨rfl, -⟩ := hop <;> rfl
  have hz : op = .deallocate → v.dz = true := by
    obtain rfl | rfl | ⟨rfl, z⟩ := hop <;> simp_all
  have hf : op ≠ .flush ∧ op ≠ .flushMedia := by obtain rfl | rfl | ⟨rfl, -⟩ := hop <;> decide
  have hexec : exec (rowOf op p) s = .next (startIo r.ref (startOf op p r s)) := by
    rw [exec_rowOf, hd.dispatch]
    obtain rfl | rfl | ⟨rfl, -⟩ := hop <;> rfl
  rw [h.startIo_eq hf, hk, Bool.true_and] at hexec
  have hwork : q.home = r.die → mayGo s (cmdOf op p r s) = true → journalFull s q.home = false → poolHeld s q = false →
      exec (rowOf op p) s = .next (if clampHolds q v (admittedCmd op p r s) s then lend (admitted op p r s .stalled)
        else admitted op p r s .working) := by
    intro e g j l
    simp only [mayGo, Bool.and_eq_true, Bool.not_eq_true'] at g
    rw [hexec, if_neg (by simp [g.1]), if_neg (by simp [e]), if_neg (by simp [g.2, j, l]), h.admitCmd_eq,
      h.mayStart_write hk, h.startWork_write hk hz]
    cases clampHolds q v (admittedCmd op p r s) s <;> simp [l]
  have hheld := h.toTaken.updCmd_cmd? (f := fun c => { c with stage := .stalled }) fun _ => rfl
  refine ⟨fun e g j l c => ?_, fun e g j l c => ?_, fun g => ?_, fun e g => ⟨?_, forwarded_frame ..⟩, fun st => ⟨admitted_frame .., ?_⟩⟩
  · have k := hwork e g j l
    rw [c] at k
    exact ⟨fun o => by subst o; exact k, fun o => by subst o; exact k, fun o => by subst o; exact k⟩
  · have k := hwork e g j l
    rwa [c] at k
  · refine ⟨_, _, hexec.trans ?_, hheld, rfl, rfl, rfl, Taken.updCmd_frame _⟩
    congr 1
    by_cases b : ringBehind s (cmdOf op p r s) = true
    · exact if_pos b
    · obtain ⟨e, g⟩ := g.resolve_right b
      rw [if_neg b, if_neg (by simp [e]), if_pos (by simpa [or_comm, or_assoc, or_left_comm] using g)]
      rfl
  · rw [hexec, if_neg (by simp [g]), if_pos e, h.sendOver_eq]
  · exact (admitted_frame ..).trans ((lend_frame _).mono (by decide))

end Sys2Proof.Machine
end

section
/-! PROOF. READ and VERIFY of blocks that read as zeros. -/
namespace Sys2Proof.Machine

/-! ### Completion from a later state -/

/-- R85: a completion in a state that has put out more, of a command that its ring's own die carries out. -/
theorem completes_of_grows {s u : State} {ref : CmdRef} (k : Completable ref u) (ha : (u.cmd? ref).any Cmd.away = false)
    (g : Grows s u) (st : W16) (v : Res) : Completes s (complete ref st v u) ref st v := by
  obtain ⟨x, hx⟩ := g
  obtain ⟨r, a1, a2, a3, a4, a5, a6, a, b, e⟩ := complete_writes k st v ha
  exact ⟨.inl ⟨r, a1, a2, a3, a4, a5, a6, x ++ a, b, by rw [e, hx]; simp⟩, complete_cmd? ..⟩

theorem sendMsix_grows (d fn vec : Nat) (s : State) : Grows s (sendMsix d fn vec s) := .of_eq (by simp)

theorem meterCompletion_grows (c : Cmd) (s : State) : Grows s (meterCompletion c s) := .of_eq (by simp)

theorem writeRecord_grows (r : Ring) (c : Cmd) (st : W16) (v : Res) (s : State) : Grows s (writeRecord r c st v s) :=
  ((((emit_grows ..).trans (emit_grows ..)).trans (writeNote_grows ..)).trans (meterCompletion_grows ..)).trans (sendMsix_grows ..)

theorem complete_grows (s : State) (ref : CmdRef) (st : W16) (v : Res) : Grows s (complete ref st v s) := by
  have e (x : State) : Grows x (x.endCmd ref) := .of_eq rfl
  unfold complete
  split
  · dsimp only
    (repeat' split)
    · exact e _
    · exact (e _).trans (.of_eq rfl)
    · exact (e _).trans (writeRecord_grows ..)
  · exact e _

/-- What stands at the end of what was put out stays among it. -/
theorem Puts.of_emit {s u t : State} {o : Out} (h : u.out = s.out) (g : Grows (u.emit o) t) : Puts s t o := by
  obtain ⟨b, e⟩ := g
  exact ⟨[], b, by rw [e]; simp [State.emit, h]⟩

/-! ### READ and VERIFY of blocks that read as zeros -/

/-- R135, R246: a block that was never written, is not lost and not cached is served as zeros. -/
theorem planBlock_zero {s : State} {p : Pool} {v : Vol} {lba : Nat} (cons : Bool) (c : Cmd) (hz : v.isZero lba = true)
    (hl : p.isLost v.num lba = false) (hc : ∀ b ∈ s.cache, b.vol ≠ v.num) :
    planBlock s p v cons c lba = { c with ready := c.ready ++ [zeroBlock v lba] } := by
  have hn : s.cached? v.num lba = none := by
    simp only [State.cached?, List.find?_eq_none]
    intro b hb
    simp [hc b hb]
  simp [planBlock, hl, hn, hz]

theorem planBlocks_zero {s : State} {p : Pool} {v : Vol} (cons : Bool) (hc : ∀ b ∈ s.cache, b.vol ≠ v.num) (l : List Nat)
    (hl : ∀ a ∈ l, v.isZero a = true ∧ p.isLost v.num a = false) (c : Cmd) :
    l.foldl (planBlock s p v cons) c = { c with ready := c.ready ++ l.map (zeroBlock v) } := by
  induction l generalizing c with
  | nil => simp
  | cons a l ih =>
    obtain ⟨hz, hn⟩ := hl a (by simp)
    rw [List.foldl_cons, planBlock_zero cons c hz hn hc, ih fun b hb => hl b (by simp [hb])]
    simp

/-- The blocks of a command, in ascending order. -/
def blocksOf (c : Cmd) : List Nat := (List.range c.nblk).map (c.lba + ·)

theorem mem_blocksOf {c : Cmd} {a : Nat} : a ∈ blocksOf c ↔ c.lba ≤ a ∧ a < c.lba + c.nblk := by
  simp only [blocksOf, List.mem_map, List.mem_range]
  constructor
  · rintro ⟨i, hi, rfl⟩; omega
  · rintro ⟨h, k⟩; exact ⟨a - c.lba, by omega, by omega⟩

/-- R131: a consistency read of zeros touches no stripe. -/
theorem stripesOfRange_zero {p : Pool} {v : Vol} {c : Cmd} (h : ∀ a ∈ blocksOf c, v.isZero a = true) : stripesOfRange p v c = [] := by
  have k : ∀ l : List Nat, (∀ i ∈ l, v.isZero (c.lba + i) = true) → l.foldl (fun l i =>
      let pl := placeOf p v (c.lba + i)
      if v.isZero (c.lba + i) || l.any (fun x => x.1 == pl.new && x.2.1 == pl.stripe) then l
      else l ++ [(pl.new, pl.stripe, c.lba + i)]) ([] : List (Bool × Nat × Nat)) = [] := by
    intro l
    induction l with
    | nil => intro _; rfl
    | cons i l ih =>
      intro hl
      rw [List.foldl_cons]
      simp only [hl i (by simp), Bool.true_or, if_true]
      exact ih fun j hj => hl j (by simp [hj])
  exact k _ fun i hi => h _ (mem_blocksOf.2 ⟨by omega, by have := List.mem_range.1 hi; omega⟩)

/-- R128, R131, R135: the plan of a READ or VERIFY of zeros: every block at once, nothing to fetch. -/
theorem planReads_zero {s : State} {p : Pool} {v : Vol} {c : Cmd} (hc : ∀ b ∈ s.cache, b.vol ≠ v.num)
    (h : ∀ a ∈ blocksOf c, v.isZero a = true ∧ p.isLost v.num a = false) :
    planReads s p v c = { c with ready := c.ready ++ (blocksOf c).map (zeroBlock v) } := by
  have e (b : Bool) : (List.range c.nblk).foldl (fun x i => planBlock s p v b x (c.lba + i)) c =
      { c with ready := c.ready ++ (blocksOf c).map (zeroBlock v) } := by
    rw [← planBlocks_zero b hc (blocksOf c) h c, blocksOf, List.foldl_map]
  have f : consFetches p v c = [] := by simp [consFetches, stripesOfRange_zero fun a ha => (h a ha).1]
  simp [planReads, e, f]

/-- Served blocks in ascending order stay as they are. -/
theorem insReady_sorted (l : List (Nat × Bytes × Bytes)) (h : l.Pairwise fun x y => x.1 ≤ y.1) : l.foldr insReady [] = l := by
  induction l with
  | nil => rfl
  | cons x l ih =>
    rw [List.foldr_cons, ih (List.pairwise_cons.1 h).2]
    cases l with
    | nil => rfl
    | cons y l => simp [insReady, (List.pairwise_cons.1 h).1 y (by simp)]

theorem zeroBlocks_sorted (v : Vol) (c : Cmd) : ((blocksOf c).map (zeroBlock v)).Pairwise fun x y => x.1 ≤ y.1 := by
  rw [List.pairwise_map, blocksOf, List.pairwise_map]
  exact List.pairwise_le_range.imp fun h => by simpa [zeroBlock] using h

/-- R126: a volume without protection information has no protection error. -/
theorem firstPiErr_none {c : Cmd} {v : Vol} (h : v.pif = 0) (l : List (Nat × Bytes × Bytes)) : firstPiErr c v l = none := by
  simp [firstPiErr, piCheck, h]

/-- R119: the host buffer of zero blocks of a volume without protection information. -/
theorem hostBytes_zeros {c d : Cmd} {v : Vol} (h : v.pif = 0) :
    ((blocksOf c).map (zeroBlock v)).flatMap (hostBytes d v) = zeros (c.nblk * v.b) := by
  have k (l : List Nat) : (l.map (zeroBlock v)).flatMap (hostBytes d v) = zeros (l.length * v.b) := by
    induction l with
    | nil => simp [zeros]
    | cons a l ih =>
      rw [List.map_cons, List.flatMap_cons, ih, List.length_cons, Nat.succ_mul, Nat.add_comm]
      simp [hostBytes, zeroBlock, h, zeros, List.replicate_append_replicate]
  simpa [blocksOf] using k (blocksOf c)

/-- What a READ of zeros leaves for its completion: the bytes counted and put into the host buffer. -/
def zerosRead (v : Vol) (c : Cmd) (s : State) : State :=
  if c.op = .read then meterRead c (c.nblk * v.b) (s.emit (.buffer c.ref 0 (zeros (c.nblk * v.b)))) else s

/-- R128, R135, R136: a READ or VERIFY of at least one block that holds zeros alone ends with every block done. -/
theorem finishRead_zero {s : State} {v : Vol} {c : Cmd} (hr : c.ready = (blocksOf c).map (zeroBlock v)) (hp : v.pif = 0)
    (he : c.err = none) (hf : c.recon = 0) (hn : 0 < c.nblk) :
    finishRead v c s = complete c.ref 0 { ndone := c.nblk } (zerosRead v c s) := by
  have e1 : c.ready.foldr insReady [] = c.ready := by rw [hr]; exact insReady_sorted _ (zeroBlocks_sorted v c)
  have e2 : c.ready.filter (fun x => decide (x.1 < c.lba + c.nblk)) = c.ready := by
    rw [List.filter_eq_self, hr]
    intro x hx
    obtain ⟨a, ha, rfl⟩ := List.mem_map.1 hx
    exact decide_eq_true (mem_blocksOf.1 ha).2
  have e3 : c.ready.flatMap (hostBytes c v) = zeros (c.nblk * v.b) := by rw [hr]; exact hostBytes_zeros hp
  unfold finishRead
  simp only [e1, firstPiErr_none hp, he, e2, e3, hf, zerosRead]
  by_cases h : c.op = .read <;> simp [h, hn]

theorem zerosRead_frame (v : Vol) (c : Cmd) (s : State) : Frame s (zerosRead v c s) [.meters, .out] := by
  unfold zerosRead meterRead
  repeat' split
  · exact ((emit_frame ..).mono (by decide)).trans ((updMeters_frame ..).mono (by decide))
  · exact (emit_frame ..).mono (by decide)
  · exact Frame.refl ..

theorem zerosRead_out {v : Vol} {c : Cmd} {s : State} (h : c.op = .read) :
    (zerosRead v c s).out = s.out ++ [.buffer c.ref 0 (zeros (c.nblk * v.b))] := by
  unfold zerosRead meterRead
  split
  · split <;> rfl
  · contradiction

theorem zerosRead_grows (v : Vol) (c : Cmd) (s : State) : Grows s (zerosRead v c s) := by
  unfold zerosRead meterRead
  repeat' split
  · exact (emit_grows _ _).trans (.of_eq rfl)
  · exact emit_grows ..
  · exact .refl _

/-! ### The admitted READ or VERIFY -/

/-- R128, R142: a READ or VERIFY at work: its blocks planned, and as much of it done as needs no fetch. -/
theorem startWork_read {s : State} {ref : CmdRef} {c : Cmd} {v : Vol} {p : Pool} (hc : s.cmd? ref = some c)
    (hv : s.vol? c.entry.vol.toNat = some v) (hp : s.pool? v.pool = some p) (hk : writeKind c.op = false) :
    startWork ref s =
      pumpRead ref (touchRange v c.lba c.nblk (s.updCmd ref fun _ => { planReads s p v c with stage := .working })) := by
  simp only [startWork, hc, hv, hp, hk, Bool.false_eq_true, if_false]

/-- R142, R363: a READ or VERIFY of zeros conflicts with no admitted command of its volume and needs nothing of the partner. -/
structure ReadsZeros (op : Op) (p : Post) (r : Ring) (s : State) (v : Vol) (q : Pool) : Prop extends PassesChecks op p r s v q where
  reads : op = .read ∨ op = .verify
  nonempty : 0 < p.entry.nblk.toNat
  held : poolHeld s q = false
  alone : ∀ d ∈ s.cmds, d.clamp = true → d.entry.vol ≠ p.entry.vol
  uncached : ∀ b ∈ s.cache, b.vol ≠ v.num
  unlocked : isCons s (cmdOf op p r s) v = true → ∀ k, q.lock = some k → inRange v (cmdOf op p r s) k.lo k.hi = false
  zero : ∀ l, p.entry.lba.toNat ≤ l → l < p.entry.lba.toNat + p.entry.nblk.toNat → v.isZero l = true ∧ q.isLost v.num l = false

theorem vol?_num {s : State} {n : Nat} {v : Vol} (h : s.vol? n = some v) : v.num = n := by
  simpa using List.find?_some h

theorem pool?_num {s : State} {n : Nat} {q : Pool} (h : s.pool? n = some q) : q.num = n := by
  simpa using List.find?_some h

namespace ReadsZeros
variable {op : Op} {p : Post} {r : Ring} {s : State} {v : Vol} {q : Pool}

theorem no_conflict (h : ReadsZeros op p r s v q) : s.cmds.any (conflicts (admittedCmd op p r s)) = false := by
  simp only [List.any_eq_false]
  intro d hd
  by_cases hc : d.clamp = true
  · have hne : ((admittedCmd op p r s).entry.vol == d.entry.vol) = false := beq_false_of_ne (h.alone d hd hc).symm
    simp [conflicts, hne]
  · simp [conflicts, hc]

/-- R142, R271, R353, R363: nothing holds the command at the clamp stage. -/
theorem mayStart (h : ReadsZeros op p r s v q) (st : Stage) :
    Machine.mayStart (admitted op p r s st) { admittedCmd op p r s with stage := st } = true := by
  have hv : (admitted op p r s st).vol? ({ admittedCmd op p r s with stage := st } : Cmd).entry.vol.toNat = some v := h.admitted_vol st
  have ho : op ≠ .flush ∧ op ≠ .flushMedia := by obtain rfl | rfl := h.reads <;> decide
  have hg : gapHolds (admitted op p r s st) { admittedCmd op p r s with stage := st } = false := by
    rw [gapHolds_of_data hv (h.admitted_pool st) ho, PassesChecks.admitted_poolHeld, h.held]
  have hu : unitsAway (admitted op p r s st) { admittedCmd op p r s with stage := st } = false := by
    have e : (admitted op p r s st).cache = s.cache := by simp [admitted]
    simp only [unitsAway, e, List.any_eq_false]
    intro b hb k
    simp only [needsAway, Bool.and_eq_true, beq_iff_eq] at k
    exact h.uncached b hb (k.1.1.2.trans (vol?_num h.vol).symm)
  have hcons : isCons (admitted op p r s st) { admittedCmd op p r s with stage := st } v = isCons s (cmdOf op p r s) v := by
    simp only [isCons, State.tenant?, admitted, dispatched_tenants]
    rfl
  have hs : stepStalls (admitted op p r s st) { admittedCmd op p r s with stage := st } = false := by
    have hk : writeKind op = false := by obtain rfl | rfl := h.reads <;> rfl
    simp only [stepStalls, hv, Option.any_some, h.admitted_pool, hcons]
    cases hi : isCons s (cmdOf op p r s) v
    · simp only [show writeKind (admittedCmd op p r s).op = false from hk, Bool.and_false, Bool.false_or, Bool.false_and]
    · have e : (q.lock.any fun k => inRange v (cmdOf op p r s) k.lo k.hi) = false := by
        cases hl : q.lock with
        | none => rfl
        | some k => exact h.unlocked hi k hl
      rw [Bool.and_eq_false_iff]
      exact .inr e
  simp only [Machine.mayStart, PassesChecks.admitted_conflicts, h.no_conflict, hs, hg, hu, Bool.not_false, Bool.and_self]

/-- R128, R135: the command at work, with every block at once. -/
def atWork (op : Op) (p : Post) (r : Ring) (s : State) (v : Vol) : Cmd :=
  { admittedCmd op p r s with stage := .working, ready := (blocksOf (admittedCmd op p r s)).map (zeroBlock v) }

/-- The state in which that command ends. -/
def working (op : Op) (p : Post) (r : Ring) (s : State) (v : Vol) : State :=
  { admitted op p r s .working with cmds := s.cmds ++ [atWork op p r s v] }

theorem working_cmd (h : ReadsZeros op p r s v q) : (working op p r s v).cmd? r.ref = some (atWork op p r s v) :=
  find?_last (c := atWork op p r s v) (refs_ne_of_not_in_flight h.not_in_flight)

theorem working_frame : Frame s (working op p r s v) [.arb, .rings, .buckets, .cmds, .seq] := by
  refine (admitted_frame op p r s .working).trans ⟨fun k hk => ?_⟩
  cases k with
  | cmds => simp at hk
  | _ => rfl

theorem touchRange_uncached {s : State} {v : Vol} (h : ∀ b ∈ s.cache, b.vol ≠ v.num) (a n : Nat) : touchRange v a n s = s := by
  have e : updIf (fun b => b.vol == v.num && decide (a ≤ b.lba) && decide (b.lba < a + n))
      (fun b : CBlk => { b with used := s.clk.tick }) s.cache = s.cache := by
    unfold updIf
    exact (List.map_congr_left fun b hb => by simp [h b hb]).trans s.cache.map_id
  unfold touchRange
  dsimp only
  rw [e]

/-- R128, R135, R136: the admitted command ends at once. -/
theorem startWork (h : ReadsZeros op p r s v q) (hp : v.pif = 0) : Machine.startWork r.ref (admitted op p r s .stalled) =
    complete r.ref 0 { ndone := p.entry.nblk.toNat } (zerosRead v (atWork op p r s v) (working op p r s v)) := by
  have hk : writeKind op = false := by obtain rfl | rfl := h.reads <;> rfl
  have hz : ∀ a ∈ blocksOf { admittedCmd op p r s with stage := .stalled }, v.isZero a = true ∧ q.isLost v.num a = false :=
    fun a ha => h.zero a (mem_blocksOf.1 ha).1 (mem_blocksOf.1 ha).2
  have hu : ∀ b ∈ (admitted op p r s .stalled).cache, b.vol ≠ v.num := by simpa [admitted] using h.uncached
  have hset : (admitted op p r s .stalled).updCmd r.ref (fun _ =>
      { planReads (admitted op p r s .stalled) q v { admittedCmd op p r s with stage := .stalled } with stage := .working }) =
      working op p r s v := by
    rw [planReads_zero hu hz]
    unfold State.updCmd
    exact congrArg (fun l => { admitted op p r s .stalled with cmds := l })
      (updIf_last (c := { admittedCmd op p r s with stage := .stalled }) _ (refs_ne_of_not_in_flight h.not_in_flight))
  have hwv : (working op p r s v).vol? (atWork op p r s v).entry.vol.toNat = some v := h.admitted_vol .working
  have hwp : (working op p r s v).pool? v.pool = some q := h.admitted_pool .working
  have hwu : ∀ b ∈ (working op p r s v).cache, b.vol ≠ v.num := hu
  rw [startWork_read (h.admitted_cmd _) (h.admitted_vol _) (h.admitted_pool _) hk, hset, touchRange_uncached hwu]
  unfold pumpRead
  simp only [h.working_cmd, hwv, hwp]
  simp only [show (atWork op p r s v).fetches = [] from rfl, List.foldl_nil, h.working_cmd]
  rw [if_pos ⟨rfl, by simp⟩]
  exact finishRead_zero rfl hp rfl rfl h.nonempty

theorem completable (h : ReadsZeros op p r s v q) : Completable r.ref (zerosRead v (atWork op p r s v) (working op p r s v)) := by
  have f := zerosRead_frame v (atWork op p r s v) (working op p r s v)
  have hc : (zerosRead v (atWork op p r s v) (working op p r s v)).cmds = (working op p r s v).cmds := f.same .cmds (by decide)
  have hr : (zerosRead v (atWork op p r s v) (working op p r s v)).rings = (startOf op p r s).rings := f.same .rings (by decide)
  have hd : (zerosRead v (atWork op p r s v) (working op p r s v)).dies = (startOf op p r s).dies := by
    unfold zerosRead meterRead
    repeat' split
    all_goals rfl
  have hh : (zerosRead v (atWork op p r s v) (working op p r s v)).run = (startOf op p r s).run := f.same .run (by decide)
  have k := h.toTaken.completable
  exact ⟨by simp [State.cmd?, hc, show List.find? _ (working op p r s v).cmds = _ from h.working_cmd],
    by simpa [State.ring?, hr] using k.ring, by simpa [hh] using k.runs, by simpa [State.die?, hd] using k.link⟩

end ReadsZeros

/-- Settles O14, by what the plan of zero blocks is (`planReads_zero`) and where the start of a data command leads (`startIo_eq`). -/
theorem readOfZeroBlocks : Obligations.ReadOfZeroBlocks := by
  intro op p r s v q hop hd hv hdel hp hq hper hck
  have h : PassesChecks op p r s v q :=
    { hd with vol := hv, stays := hdel, pool := hq, may := hper, checked := hck, data := by obtain rfl | rfl := hop <;> simp }
  have hk : writeKind op = false := by obtain rfl | rfl := hop <;> rfl
  have hf : op ≠ .flush ∧ op ≠ .flushMedia := by obtain rfl | rfl := hop <;> decide
  have hexec : exec (rowOf op p) s = .next (startIo r.ref (startOf op p r s)) := by
    rw [exec_rowOf, hd.dispatch]
    obtain rfl | rfl := hop <;> rfl
  rw [h.startIo_eq hf, hk, Bool.false_and, Bool.false_or] at hexec
  refine ⟨fun e g hh hn ha hu hl hz => ?_, fun e g => ?_⟩
  · have z : ReadsZeros op p r s v q :=
      { h with reads := hop, nonempty := hn, held := hh, alone := ha, uncached := hu, unlocked := hl, zero := hz }
    simp only [mayGo, Bool.and_eq_true, Bool.not_eq_true'] at g
    rw [if_neg (by simp [g.1]), if_neg (by simp [e]), if_neg (by simp [g.2, hh]), h.admitCmd_eq, if_pos (z.mayStart _),
      z.startWork hp] at hexec
    have fz := zerosRead_frame v (ReadsZeros.atWork op p r s v) (ReadsZeros.working op p r s v)
    have ho : (ReadsZeros.working op p r s v).out = s.out := ReadsZeros.working_frame.same .out (by decide)
    have hcmd : (zerosRead v (ReadsZeros.atWork op p r s v) (ReadsZeros.working op p r s v)).cmd? r.ref =
        some (ReadsZeros.atWork op p r s v) := by
      rw [State.cmd?, show _ = (ReadsZeros.working op p r s v).cmds from fz.same .cmds (by decide)]
      exact z.working_cmd
    refine ⟨_, hexec, completes_of_grows z.completable (by rw [hcmd]; rfl) ((Grows.of_eq ho).trans (zerosRead_grows ..)) _ _,
      fun hr => ?_, ((ReadsZeros.working_frame.mono (by decide)).trans (fz.mono (by decide))).trans
        ((complete_frame ..).mono (by decide))⟩
    obtain ⟨b, hb⟩ := complete_grows (zerosRead v (ReadsZeros.atWork op p r s v) (ReadsZeros.working op p r s v)) r.ref 0
      { ndone := p.entry.nblk.toNat }
    refine ⟨[], b, ?_⟩
    rw [hb, zerosRead_out (show (ReadsZeros.atWork op p r s v).op = .read from hr), ho]
    simp [show (ReadsZeros.atWork op p r s v).ref = r.ref from rfl, show (ReadsZeros.atWork op p r s v).nblk = p.entry.nblk.toNat from rfl]
  · rw [hexec, if_neg (by simp [g]), if_pos e, h.sendOver_eq]

end Sys2Proof.Machine
end

section
/-! SUPPORT. What a part of a row changes, and what becomes of what was pending and of what was put out: how such changes compose,
and those of the shared operations. -/

namespace Sys2Proof.Machine

/-- R408: EVT_REMAP as it is and as it was last written. -/
def DieSt.remaps (x : DieSt) : List (Nat × Nat) × List (Nat × Nat) := (x.evt.remap, x.evt.remapNext)

/-- A change of the listed kinds of state after which what was pending is still pending, what was put out is still put out, and
EVT_REMAP is as it was. -/
structure Changes (s t : State) (l : List Field) : Prop where
  frame : Frame s t l
  pend : ∀ d c, Pending s d c → Pending t d c
  grows : Grows s t
  remaps : t.dies.map DieSt.remaps = s.dies.map DieSt.remaps

theorem Changes.refl (s : State) (l : List Field) : Changes s s l := ⟨.refl .., fun _ _ h => h, .refl _, rfl⟩

theorem Changes.trans {s t u : State} {l : List Field} (h : Changes s t l) (k : Changes t u l) : Changes s u l :=
  ⟨h.frame.trans k.frame, fun d c p => k.pend d c (h.pend d c p), h.grows.trans k.grows, k.remaps.trans h.remaps⟩

theorem Changes.mono {s t : State} {l m : List Field} (h : Changes s t l) (e : ∀ f ∈ l, f ∈ m) : Changes s t m :=
  ⟨h.frame.mono e, h.pend, h.grows, h.remaps⟩

/-- One more operation, whose kinds of state are among those listed. -/
theorem Changes.step {s t u : State} {l m : List Field} (h : Changes s t l) (k : Changes t u m)
    (e : ∀ f ∈ m, f ∈ l) : Changes s u l :=
  h.trans (k.mono e)

theorem foldl_changes {α : Type} {l : List Field} (f : State → α → State) (h : ∀ s a, Changes s (f s a) l) (s : State)
    (as : List α) :
    Changes s (as.foldl f s) l := by
  induction as generalizing s with
  | nil => exact .refl ..
  | cons a as ih => exact (h s a).trans (ih _)

/-! ### The dies after a change -/

/-- What a change keeps of every die it keeps of one. -/
theorem die_of_map {β : Type} {g : DieSt → β} {s t : State} (h : t.dies.map g = s.dies.map g) {d : Nat} {x : DieSt}
    (hx : s.die? d = some x) : ∃ y, t.die? d = some y ∧ g y = g x := by
  have k : (t.die? d).map g = (s.die? d).map g := by simp only [State.die?, ← List.getElem?_map, h]
  rw [hx] at k
  cases hy : t.die? d with
  | none => simp [hy] at k
  | some y => exact ⟨y, rfl, by simpa [hy] using k⟩

theorem die_map_eq {β : Type} {g : DieSt → β} {s t : State} (h : t.dies.map g = s.dies.map g) {d : Nat} {x y : DieSt}
    (hx : s.die? d = some x) (hy : t.die? d = some y) : g y = g x := by
  obtain ⟨z, hz, e⟩ := die_of_map h hx
  rw [hy] at hz
  cases hz
  exact e

theorem updDie_die? (s : State) (d : Nat) (f : DieSt → DieSt) (e : Nat) :
    (s.updDie d f).die? e = if d = e then (s.die? e).map f else s.die? e := by
  simp only [State.updDie, State.die?, List.getElem?_modify]
  split <;> simp

theorem updDie_die?_self {s : State} {d : Nat} {x : DieSt} (f : DieSt → DieSt) (h : s.die? d = some x) :
    (s.updDie d f).die? d = some (f x) := by
  rw [updDie_die?, if_pos rfl, h, Option.map_some]

theorem updHw_die?_self {s : State} {d : Nat} {x : DieSt} (f : HwSt → HwSt) (h : s.die? d = some x) :
    (s.updHw d f).die? d = some { x with hw := f x.hw } := updDie_die?_self _ h

/-- A change of one die that keeps what g looks at. -/
theorem updDie_map {β : Type} (g : DieSt → β) (s : State) (d : Nat) (f : DieSt → DieSt) (h : ∀ x, g (f x) = g x) :
    (s.updDie d f).dies.map g = s.dies.map g := modify_map g f h _ _

/-- A frame that leaves the units of the dies leaves those of each die. -/
theorem Frame.die_hw {s t : State} {l : List Field} (f : Frame s t l) (h : .hw ∉ l) {d : Nat} {x y : DieSt}
    (hx : s.die? d = some x)
    (hy : t.die? d = some y) : y.hw = x.hw := die_map_eq (f.same .hw h) hx hy

/-- A frame that leaves the health of the dies leaves that of each die. -/
theorem Frame.die_core {s t : State} {l : List Field} (f : Frame s t l) (h : .health ∉ l) {d : Nat} {x y : DieSt}
    (hx : s.die? d = some x) (hy : t.die? d = some y) : y.core = x.core := die_map_eq (f.same .health h) hx hy

theorem Frame.die_exists {s t : State} {l : List Field} (f : Frame s t l) (h : .hw ∉ l ∨ .health ∉ l) {d : Nat} {x : DieSt}
    (hx : s.die? d = some x) : ∃ y, t.die? d = some y := by
  obtain h | h := h
  · exact (die_of_map (f.same .hw h) hx).imp fun _ k => k.1
  · exact (die_of_map (f.same .health h) hx).imp fun _ k => k.1

theorem alive_of_core {x y : DieSt} (h : y.core = x.core) : y.alive = x.alive := by
  have a : y.core.healthy = x.core.healthy := congrArg _ h
  have b : y.core.retired = x.core.retired := congrArg _ h
  exact congrArg₂ (fun p q => p && !q) a b

theorem alive_congr {s t : State} (h : t.dies.map DieSt.core = s.dies.map DieSt.core) : t.alive = s.alive := by
  funext d
  have k : (t.die? d).map DieSt.core = (s.die? d).map DieSt.core := by simp only [State.die?, ← List.getElem?_map, h]
  unfold State.alive
  cases hx : s.die? d <;> cases hy : t.die? d <;> simp_all
  exact alive_of_core k

/-! ### What is pending -/

/-- R405: what is pending depends on the EVT blocks alone. -/
theorem pending_congr {s t : State} (h : t.dies.map (·.evt) = s.dies.map (·.evt)) {d c : Nat} (p : Pending s d c) : Pending t d
    c := by
  obtain ⟨x, hx, m⟩ := p
  obtain ⟨y, hy, e⟩ := die_of_map h hx
  exact ⟨y, hy, by rw [e]; exact m⟩

theorem remaps_congr {s t : State} (h : t.dies.map (·.evt) = s.dies.map (·.evt)) :
    t.dies.map DieSt.remaps = s.dies.map DieSt.remaps := by
  have k (u : State) : u.dies.map DieSt.remaps = (u.dies.map (·.evt)).map fun e => (e.remap, e.remapNext) := by
    rw [List.map_map]; rfl
  rw [k, k, h]

/-- A change that leaves the EVT blocks leaves what is pending. -/
theorem Frame.changes {s t : State} {l : List Field} (f : Frame s t l) (h : .evt ∉ l) (g : Grows s t) : Changes s t l :=
  ⟨f, fun _ _ => pending_congr (f.same .evt h), g, remaps_congr (f.same .evt h)⟩

theorem srcOf_congr {e f : EvtSt} (h : f.remap = e.remap) (c : Nat) : srcOf f c = srcOf e c := by
  simp only [srcOf, h]

/-- R405: a pending bit set beside those that are set. -/
theorem updEvt_pend {s : State} {d : Nat} {f : EvtSt → EvtSt} (hr : ∀ e, (f e).remap = e.remap)
    (hp : ∀ e, ∀ n ∈ e.pend, n ∈ (f e).pend)
    {e c : Nat} (p : Pending s e c) : Pending (s.updEvt d f) e c := by
  obtain ⟨x, hx, m⟩ := p
  by_cases h : d = e
  · subst h
    exact ⟨_, updDie_die?_self _ hx, by rw [srcOf_congr (hr _)]; exact hp _ _ m⟩
  · exact ⟨x, by rw [State.updEvt, updDie_die?, if_neg h, hx], m⟩

theorem signalEvent_remaps (d code : Nat) (s : State) :
    (signalEvent d code s).dies.map DieSt.remaps = s.dies.map DieSt.remaps := by
  unfold signalEvent
  split
  · rfl
  · dsimp only
    split
    · rw [sendMsix_dies]
      exact updDie_map _ _ _ _ fun _ => rfl
    · exact updDie_map _ _ _ _ fun _ => rfl

/-- R405: an event signalled on a die is pending there, beside what was pending. -/
theorem signalEvent_changes (d code : Nat) (s : State) : Changes s (signalEvent d code s) [.evt, .msixSent] := by
  refine ⟨signalEvent_frame .., fun e c p => ?_, .of_eq (by simp), signalEvent_remaps ..⟩
  unfold signalEvent
  split
  · exact p
  · have k (n : Nat) (r : Route) : Pending (s.updEvt d fun e => setRoute { e with pend := insNat n e.pend } r) e c :=
      updEvt_pend (f := fun e => setRoute { e with pend := insNat n e.pend } r) (fun _ => rfl)
        (fun _ _ h => mem_insNat.2 (.inr h)) p
    dsimp only
    split
    · exact pending_congr (by rw [sendMsix_dies]) (k _ _)
    · exact k _ _

theorem signalEvent_sets {s : State} {d : Nat} (code : Nat) (h : (s.die? d).isSome) : Pending (signalEvent d code s) d code := by
  obtain ⟨x, hx⟩ := Option.isSome_iff_exists.1 h
  have k (r : Route) : Pending (s.updEvt d fun e => setRoute { e with pend := insNat (srcOf x.evt code) e.pend } r) d code :=
    ⟨_, updDie_die?_self _ hx, mem_insNat.2 (.inl rfl)⟩
  unfold signalEvent
  simp only [hx]
  split
  · exact pending_congr (by rw [sendMsix_dies]) (k _)
  · exact k _

theorem updRec_changes (s : State) (d : Nat) (f : RecorderSt → RecorderSt) : Changes s (s.updRec d f) [.recd] :=
  (updRec_frame ..).changes (by decide) (.of_eq rfl)

theorem programRec_changes (d : Nat) (r : Rec) (s : State) : Changes s (programRec d r s) recorded := by
  have e (f) : Changes s (s.updRec d f) recorded := (updRec_changes ..).mono (by decide)
  unfold programRec
  split
  · exact .refl ..
  · repeat' split
    · exact e _
    · exact e _
    · exact (e _).step (signalEvent_changes ..) (by decide)
    · exact e _

theorem placeRec_changes (d : Nat) (r : Rec) (s : State) : Changes s (placeRec d r s) recorded := by
  unfold placeRec
  repeat' split
  · exact (updRec_changes ..).mono (by decide)
  · exact programRec_changes ..
  · exact (updRec_changes ..).mono (by decide)

theorem summary_changes (d : Nat) (s : State) (r : RateCnt) : Changes s (summary d s r) recorded :=
  ((signalEvent_changes ..).mono (by decide)).trans (placeRec_changes ..)

theorem rollWindow_changes (d : Nat) (s : State) : Changes s (rollWindow d s) recorded := by
  unfold rollWindow
  split
  · exact .refl ..
  · dsimp only
    split
    · exact .refl ..
    · exact ((updRec_changes ..).mono (by decide)).trans (foldl_changes _ (fun s r => summary_changes d s r) ..)

theorem recordEvent_changes (d code : Nat) (x : Detail) (s : State) : Changes s (recordEvent d code x s) recorded := by
  unfold recordEvent
  dsimp only
  split
  · exact rollWindow_changes ..
  · split
    · exact ((rollWindow_changes ..).step (updRec_changes ..) (by decide)).trans (placeRec_changes ..)
    · exact (rollWindow_changes ..).step (updRec_changes ..) (by decide)

theorem raise_changes (d code : Nat) (x : Detail) (s : State) : Changes s (raise d code x s) raising := by
  unfold raise
  dsimp only
  split
  · exact ((signalEvent_changes ..).mono (by decide)).step (recordEvent_changes ..) (by decide)
  · exact (signalEvent_changes ..).mono (by decide)

/-- R405: a raised event is pending on its die. -/
theorem raise_sets {s : State} {d : Nat} (code : Nat) (x : Detail) (h : (s.die? d).isSome) : Pending (raise d code x s) d code
    := by
  have k := signalEvent_sets code h
  unfold raise
  dsimp only
  split
  · exact (recordEvent_changes ..).pend _ _ k
  · exact k

theorem raisePkg_changes (code : Nat) (x : Detail) (s : State) : Changes s (raisePkg code x s) raising := raise_changes ..

theorem ladder_changes (st code d : Nat) (s : State) : Changes s (ladder st code d s) [.reg] :=
  (ladder_frame ..).changes (by decide) (.of_eq (by simp))

theorem emit_changes (s : State) (o : Out) : Changes s (s.emit o) [.out] := (emit_frame ..).changes (by decide) (emit_grows ..)

theorem updHw_changes (s : State) (d : Nat) (f : HwSt → HwSt) : Changes s (s.updHw d f) [.hw] :=
  (updHw_frame ..).changes (by decide) (.of_eq rfl)
theorem updJr_changes (s : State) (d : Nat) (f : JournalSt → JournalSt) : Changes s (s.updJr d f) [.jr] :=
  (updJr_frame ..).changes (by decide) (.of_eq rfl)
theorem updLink_changes (s : State) (d : Nat) (f : LinkSt → LinkSt) : Changes s (s.updLink d f) [.link] :=
  (updLink_frame ..).changes (by decide) (.of_eq rfl)
theorem updFrame_changes (s : State) (d : Nat) (f : FrameSt → FrameSt) : Changes s (s.updFrame d f) [.frame] :=
  (updFrame_frame ..).changes (by decide) (.of_eq rfl)
theorem updRfl_changes (s : State) (d : Nat) (f : DieRfl → DieRfl) : Changes s (s.updRfl d f) [.rfl] :=
  (updRfl_frame ..).changes (by decide) (.of_eq rfl)
theorem updFn_changes (s : State) (d f : Nat) (g : FnSt → FnSt) : Changes s (s.updFn d f g) [.fns] :=
  (updFn_frame ..).changes (by decide) (updFn_grows ..)
theorem updRing_changes (s : State) (d i : Nat) (f : Ring → Ring) : Changes s (s.updRing d i f) [.rings] :=
  (updRing_frame ..).changes (by decide) (.of_eq rfl)
theorem updPool_changes (s : State) (n : Nat) (f : Pool → Pool) : Changes s (s.updPool n f) [.pools] :=
  (updPool_frame ..).changes (by decide) (.of_eq rfl)
theorem updVol_changes (s : State) (n : Nat) (f : Vol → Vol) : Changes s (s.updVol n f) [.vols] :=
  (updVol_frame ..).changes (by decide) (.of_eq rfl)
theorem updNs_changes (s : State) (n : Nat) (f : Ns → Ns) : Changes s (s.updNs n f) [.nss] :=
  (updNs_frame ..).changes (by decide) (.of_eq rfl)
theorem updCmd_changes (s : State) (c : CmdRef) (f : Cmd → Cmd) : Changes s (s.updCmd c f) [.cmds] :=
  (updCmd_frame ..).changes (by decide) (.of_eq rfl)
theorem updMeters_changes (s : State) (n : Nat) (f : Meters → Meters) : Changes s (s.updMeters n f) [.meters] :=
  (updMeters_frame ..).changes (by decide) (.of_eq rfl)
theorem endCmd_changes (s : State) (c : CmdRef) : Changes s (s.endCmd c) [.cmds, .mcmds] :=
  (endCmd_frame ..).changes (by decide) (.of_eq rfl)
theorem sendMsix_changes (d fn vec : Nat) (s : State) : Changes s (sendMsix d fn vec s) [.msixSent] :=
  (sendMsix_frame ..).changes (by decide) (sendMsix_grows ..)
theorem meterCompletion_changes (c : Cmd) (s : State) : Changes s (meterCompletion c s) [.meters] :=
  (meterCompletion_frame ..).changes (by decide) (meterCompletion_grows ..)

/-- A change of one die that keeps its units, accounting, journal, recorder, EVT block, link and reflect engine. -/
theorem updDie_changes (s : State) (d : Nat) (f : DieSt → DieSt)
    (h : ∀ x, (f x).hw = x.hw ∧ (f x).frame = x.frame ∧ (f x).jr = x.jr ∧ (f x).recd = x.recd ∧ (f x).evt = x.evt ∧
      (f x).link = x.link ∧ (f x).rfl = x.rfl) : Changes s (s.updDie d f) [.health] := by
  refine Frame.changes ⟨fun k hk => ?_⟩ (by decide) (.of_eq rfl)
  cases k with
  | health => simp at hk
  | hw => exact updDie_map _ _ _ _ fun x => (h x).1
  | frame => exact updDie_map _ _ _ _ fun x => (h x).2.1
  | jr => exact updDie_map _ _ _ _ fun x => (h x).2.2.1
  | recd => exact updDie_map _ _ _ _ fun x => (h x).2.2.2.1
  | evt => exact updDie_map _ _ _ _ fun x => (h x).2.2.2.2.1
  | link => exact updDie_map _ _ _ _ fun x => (h x).2.2.2.2.2.1
  | rfl => exact updDie_map _ _ _ _ fun x => (h x).2.2.2.2.2.2
  | _ => rfl

theorem writeNote_changes (r : Ring) (c : Cmd) (st : W16) (fl : Byte) (s : State) :
    Changes s (writeNote r c st fl s) (.rings :: raising) := by
  unfold writeNote
  repeat' split
  · exact .refl ..
  · exact .refl ..
  · exact ((updRing_changes ..).mono (by decide)).step (emit_changes ..) (by decide)
  · exact ((updRing_changes ..).mono (by decide)).step (raise_changes ..) (by decide)

theorem writeRecord_changes (r : Ring) (c : Cmd) (st : W16) (v : Res) (s : State) : Changes s (writeRecord r c st v s) ending :=
  (((((emit_changes ..).mono (by decide)).step (emit_changes ..) (by decide)).step (writeNote_changes ..) (by decide)).step
      (meterCompletion_changes ..) (by decide)).step
    (sendMsix_changes ..) (by decide)

theorem complete_changes (ref : CmdRef) (st : W16) (v : Res) (s : State) : Changes s (complete ref st v s) ending := by
  have h : Changes s (s.endCmd ref) ending := (endCmd_changes ..).mono (by decide)
  unfold complete
  split
  · dsimp only
    repeat' split
    · exact h
    · exact h.step (updRing_changes ..) (by decide)
    · exact h.step (writeRecord_changes ..) (by decide)
  · exact h

end Sys2Proof.Machine
end

section
/-! SUPPORT. What segments, messages and the yields of a die and of the package change. -/

namespace Sys2Proof.Machine

/-! ### Flits and segments -/

/-- What the sending of segments may change: a link, a die's messages, what is put out. -/
abbrev sending : List Field := [.link, .rfl, .out]

theorem putFlit_changes (d : Nat) (raw : LinkSt → Bytes) (s : State) : Changes s (putFlit d raw s) [.link, .out] := by
  unfold putFlit
  split
  · exact .refl ..
  · exact ((updLink_changes ..).mono (by decide)).step (emit_changes ..) (by decide)

theorem pumpLink_changes (d n : Nat) (s : State) : Changes s (pumpLink d n s) [.link, .out] := by
  induction n generalizing s with
  | zero => exact .refl ..
  | succ n ih =>
    unfold pumpLink
    split
    · exact .refl ..
    · split
      · split
        · exact .refl ..
        · exact ((putFlit_changes ..).step (updLink_changes ..) (by decide)).trans (ih _)
      · exact .refl ..

theorem drainLink_changes (d : Nat) (s : State) : Changes s (drainLink d s) [.link, .out] := by
  unfold drainLink
  split
  · exact pumpLink_changes ..
  · exact .refl ..

theorem sendFlits_changes (d p : Nat) (b : Bytes) (n : Nat) (s : State) : Changes s (sendFlits d p b n s) [.link, .out] :=
  ((updLink_changes ..).mono (by decide)).trans (drainLink_changes ..)

theorem sendAlign_changes (d w : Nat) (s : State) : Changes s (sendAlign d w s) [.link, .out] := by
  unfold sendAlign
  split
  · exact .refl ..
  · exact ((updLink_changes ..).mono (by decide)).step (emit_changes ..) (by decide)

theorem sendSegAs_changes (again : Bool) (d : Nat) (g : Seg) (s : State) : Changes s (sendSegAs again d g s) [.link, .out] := by
  unfold sendSegAs
  dsimp only
  repeat' split
  · exact (emit_changes ..).mono (by decide)
  · exact .refl ..
  · exact .refl ..
  · exact ((sendFlits_changes ..)).step (emit_changes ..) (by decide)

theorem sendSys_changes (d : Nat) (x : Msg) (s : State) : Changes s (sendSys d x s) sending :=
  ((updRfl_changes ..).mono (by decide)).step (foldl_changes _ (fun s g => sendSegAs_changes false d g s) ..) (by decide)

theorem postSystem_changes (d : Nat) (m : W32) (l : List Seg) (s : State) : Changes s (postSystem d m l s) sending := by
  unfold postSystem
  dsimp only
  split
  · exact (updRfl_changes ..).mono (by decide)
  · exact sendSys_changes ..

theorem nextMsg_changes (d : Nat) (s : State) : Changes s (nextMsg d s).2 [.rfl] := by
  unfold nextMsg
  cases s.die? d with
  | none => exact .refl ..
  | some x => exact updRfl_changes s d fun q => { q with msgno := q.msgno + 1 }

theorem sendSystem_changes (d p e op key off : Nat) (aux : W32) (noretx : Bool) (data : Bytes) (s : State) :
    Changes s (sendSystem d p e op key off aux noretx data s) sending := by
  have h : Changes s (nextMsg d s).2 sending := (nextMsg_changes ..).mono (by decide)
  unfold sendSystem
  dsimp only
  split
  · exact h.step (sendSegAs_changes ..) (by decide)
  · exact h.trans (postSystem_changes ..)

theorem sendYield_changes (scope d die cause : Nat) (s : State) : Changes s (sendYield scope d die cause s) sending := by
  unfold sendYield
  split
  · exact sendSystem_changes ..
  · exact .refl ..

/-! ### Messages of the tick, a thaw, the entry into HALTED -/

theorem messageOf_changes (x : Nat × Nat × Nat) (s : State) : Changes s (messageOf x s) [.fns, .out] := by
  unfold messageOf
  split
  · repeat' split
    · exact .refl ..
    · exact (emit_changes ..).mono (by decide)
    · exact (updFn_changes ..).mono (by decide)
  · exact .refl ..

theorem sendMessages_changes (s : State) : Changes s (sendMessages s) [.fns, .out, .msixSent] := by
  have h : Changes s { s with msixSent := [] } [.fns, .out, .msixSent] :=
    Frame.changes ⟨fun k hk => by cases k with | fns | out | msixSent => simp at hk | _ => rfl⟩ (by decide) (.of_eq rfl)
  exact h.step (foldl_changes _ (fun s x => messageOf_changes x s) ..) (by decide)

theorem writeHolding_changes (d : Nat) (s : State) : Changes s (writeHolding d s) recorded := by
  unfold writeHolding
  split
  · exact .refl ..
  · exact ((updRec_changes ..).mono (by decide)).trans (foldl_changes _ (fun s r => programRec_changes d r s) ..)

theorem map_recd_frame (s : State) (f : DieSt → DieSt) (h : ∀ x, (f x).core = x.core ∧ (f x).hw = x.hw ∧ (f x).frame = x.frame ∧
    (f x).jr = x.jr ∧ (f x).evt = x.evt ∧ (f x).link = x.link ∧ (f x).rfl = x.rfl) :
    Frame s { s with dies := s.dies.map f } [.recd] := by
  refine ⟨fun k hk => ?_⟩
  have key {β : Type} {g : DieSt → β} (e : ∀ x, g (f x) = g x) : (s.dies.map f).map g = s.dies.map g := by
    rw [List.map_map]; exact List.map_congr_left fun x _ => e x
  cases k with
  | recd => simp at hk
  | health => exact key fun x => (h x).1
  | hw => exact key fun x => (h x).2.1
  | frame => exact key fun x => (h x).2.2.1
  | jr => exact key fun x => (h x).2.2.2.1
  | evt => exact key fun x => (h x).2.2.2.2.1
  | link => exact key fun x => (h x).2.2.2.2.2.1
  | rfl => exact key fun x => (h x).2.2.2.2.2.2
  | _ => rfl

theorem updRecs_changes (s : State) (f : RecorderSt → RecorderSt) : Changes s (s.updRecs f) [.recd] :=
  Frame.changes (map_recd_frame _ _ fun _ => ⟨rfl, rfl, rfl, rfl, rfl, rfl, rfl⟩) (by decide) (.of_eq rfl)

theorem log_changes (s : State) (x : LogSt) : Changes s { s with log := x } [.log] :=
  Frame.changes ⟨fun k hk => by cases k with | log => simp at hk | _ => rfl⟩ (by decide) (.of_eq rfl)

theorem reg_changes (s : State) (x : RegSt) : Changes s { s with reg := x } [.reg] :=
  Frame.changes ⟨fun k hk => by cases k with | reg => simp at hk | _ => rfl⟩ (by decide) (.of_eq rfl)

theorem pair_changes (s : State) (x : PairSt) : Changes s { s with pair := x } [.pair] :=
  Frame.changes ⟨fun k hk => by cases k with | pair => simp at hk | _ => rfl⟩ (by decide) (.of_eq rfl)

theorem run_changes (s : State) (x : RunSt) : Changes s { s with run := x } [.run] :=
  Frame.changes ⟨fun k hk => by cases k with | run => simp at hk | _ => rfl⟩ (by decide) (.of_eq rfl)

theorem cmds_changes (s : State) (x : List Cmd) : Changes s { s with cmds := x } [.cmds] :=
  Frame.changes ⟨fun k hk => by cases k with | cmds => simp at hk | _ => rfl⟩ (by decide) (.of_eq rfl)

theorem nss_changes (s : State) (x : List Ns) : Changes s { s with nss := x } [.nss] :=
  Frame.changes ⟨fun k hk => by cases k with | nss => simp at hk | _ => rfl⟩ (by decide) (.of_eq rfl)

theorem free_changes (s : State) (n : Nat) : Changes s { s with free := n } [.free] :=
  Frame.changes ⟨fun k hk => by cases k with | free => simp at hk | _ => rfl⟩ (by decide) (.of_eq rfl)

/-- R421: what a thaw may change. -/
theorem thaw_changes (s : State) : Changes s (thaw s) (.log :: raising) := by
  unfold thaw
  dsimp only
  refine ((((foldl_changes (l := recorded) _ (fun s d => writeHolding_changes d s) ..).mono (by decide)).step (log_changes ..)
      (by decide)).step
    (updRecs_changes ..) (by decide)).step (foldl_changes (l := raising) _ (fun s x => ?_) ..) (by decide)
  split
  · exact raise_changes ..
  · exact .refl ..

/-- Changes of the dies alone, by what each of their parts keeps; the EVT block is kept. -/
theorem dies_changes (s : State) (ds : List DieSt) (l : List Field) (he : ds.map (·.evt) = s.dies.map (·.evt))
    (h1 : .health ∉ l → ds.map DieSt.core = s.dies.map DieSt.core) (h2 : .hw ∉ l → ds.map (·.hw) = s.dies.map (·.hw))
    (h3 : .frame ∉ l → ds.map (·.frame) = s.dies.map (·.frame)) (h4 : .jr ∉ l → ds.map (·.jr) = s.dies.map (·.jr))
    (h5 : .recd ∉ l → ds.map (·.recd) = s.dies.map (·.recd)) (h6 : .link ∉ l → ds.map (·.link) = s.dies.map (·.link))
    (h7 : .rfl ∉ l → ds.map (·.rfl) = s.dies.map (·.rfl)) : Changes s { s with dies := ds } l := by
  refine ⟨⟨fun k hk => ?_⟩, fun _ _ => pending_congr he, .of_eq rfl, remaps_congr (s := s) he⟩
  cases k with
  | health => exact h1 hk
  | hw => exact h2 hk
  | frame => exact h3 hk
  | jr => exact h4 hk
  | recd => exact h5 hk
  | evt => exact he
  | link => exact h6 hk
  | rfl => exact h7 hk
  | _ => rfl

theorem map_map_same {β : Type} {f : DieSt → DieSt} {g : DieSt → β} (h : ∀ x, g (f x) = g x) (l : List DieSt) :
    (l.map f).map g = l.map g := by
  rw [List.map_map]; exact List.map_congr_left fun x _ => h x

theorem zipIdx_map_same {β : Type} {f : DieSt × Nat → DieSt} {g : DieSt → β} (h : ∀ x, g (f x) = g x.1) (l : List DieSt)
    (n : Nat) :
    ((l.zipIdx n).map f).map g = l.map g := by
  induction l generalizing n with
  | nil => rfl
  | cons a l ih => simp only [List.zipIdx_cons, List.map_cons, h, ih]

/-- R110, R354: a die whose hold line is down. -/
def heldDown (x : DieSt) : DieSt := { x with hold := false }

/-- R110, R354: every hold line of the package drops. -/
theorem dropHolds_changes (s : State) : Changes s { s with dies := s.dies.map heldDown } [.health] := by
  have k {β : Type} {g : DieSt → β} (h : ∀ x, g (heldDown x) = g x) : (s.dies.map heldDown).map g = s.dies.map g :=
    map_map_same h _
  exact dies_changes _ _ _ (k fun _ => rfl) (by simp) (fun _ => k fun _ => rfl) (fun _ => k fun _ => rfl) (fun _ => k fun _ => rfl)
    (fun _ => k fun _ => rfl) (fun _ => k fun _ => rfl) (fun _ => k fun _ => rfl)

/-- What the yield of the package may change. -/
abbrev halting : List Field := .fns :: .health :: .link :: .rfl :: .reg :: .pair :: .run :: .log :: raising

theorem enterHalt_changes (i : HaltInfo) (d cause : Nat) (s : State) : Changes s (enterHalt i d cause s) halting :=
  (((((sendMessages_changes s).mono (by decide)).step (dropHolds_changes _) (by decide)).step (run_changes ..) (by decide)).step
      (pair_changes ..) (by decide)).step (reg_changes ..) (by decide)

theorem noteYield_changes (scope d cause : Nat) (s : State) : Changes s (noteYield scope d cause s) [.rfl] := by
  have k {β : Type} {g : DieSt → β} (h : ∀ (x : DieSt) (r : DieRfl), g { x with rfl := r } = g x) :
      (noteYield scope d cause s).dies.map g = s.dies.map g := by
    refine zipIdx_map_same (fun x => ?_) _ _
    dsimp only
    repeat' split
    · exact h ..
    · exact h ..
    · rfl
  exact dies_changes _ _ _ (k fun _ _ => rfl) (fun _ => k fun _ _ => rfl) (fun _ => k fun _ _ => rfl) (fun _ => k fun _ _ => rfl)
    (fun _ => k fun _ _ => rfl) (fun _ => k fun _ _ => rfl) (fun _ => k fun _ _ => rfl) (by simp)

/-- R314, R356: what the package does before it enters HALTED. -/
def beforeHalt (d cause : Nat) (s : State) : State :=
  let s := raisePkg 0x0043 { item := d, cause := cause } s
  let s := ladder 3 0x0043 s.id.lead s
  let s := s.aliveDies.foldl (fun s e => sendYield 2 e e cause s) s
  noteYield 2 d cause (if s.log.frozen then thaw s else s)

theorem packageYield_eq (d cause : Nat) (i : HaltInfo) (s : State) :
    packageYield d cause i s = if s.run.halted then s else enterHalt i d cause (beforeHalt d cause s) := rfl

theorem beforeHalt_changes (d cause : Nat) (s : State) :
    Changes s (beforeHalt d cause s) (.link :: .rfl :: .reg :: .log :: raising) := by
  have h : Changes s ((ladder 3 0x0043 (raisePkg 0x0043 { item := d, cause := cause } s).id.lead
      (raisePkg 0x0043 { item := d, cause := cause } s)).aliveDies.foldl (fun s e => sendYield 2 e e cause s)
      (ladder 3 0x0043 (raisePkg 0x0043 { item := d, cause := cause } s).id.lead
        (raisePkg 0x0043 { item := d, cause := cause } s))) (.link :: .rfl :: .reg :: .log :: raising) :=
    (((raisePkg_changes ..).mono (by decide)).step (ladder_changes ..) (by decide)).step
        (foldl_changes _ (fun s e => sendYield_changes 2 e e cause s) ..) (by decide)
  unfold beforeHalt
  dsimp only
  split
  · exact (h.step (thaw_changes ..) (by decide)).step (noteYield_changes ..) (by decide)
  · exact h.step (noteYield_changes ..) (by decide)

theorem packageYield_changes (d cause : Nat) (i : HaltInfo) (s : State) : Changes s (packageYield d cause i s) halting := by
  rw [packageYield_eq]
  split
  · exact .refl ..
  · exact ((beforeHalt_changes ..).mono (by decide)).trans (enterHalt_changes ..)

/-- R356: a yield of the package drops the holds and changes nothing else of the dies' health. -/
theorem packageYield_core (d cause : Nat) (i : HaltInfo) (s : State) :
    (packageYield d cause i s).dies.map (fun x => heldDown x.core) = s.dies.map fun x => heldDown x.core := by
  rw [packageYield_eq]
  split
  · rfl
  · have c : Changes s (sendMessages (beforeHalt d cause s)) (.fns :: .link :: .rfl :: .reg :: .log :: raising) :=
      ((beforeHalt_changes ..).mono (by decide)).step (sendMessages_changes _) (by decide)
    have k := congrArg (List.map heldDown) (c.frame.same .health (by decide))
    rw [List.map_map, List.map_map] at k
    exact (map_map_same (f := heldDown) (fun _ => rfl) _).trans k

theorem packageYield_hold {d cause : Nat} {i : HaltInfo} {s : State} (h : s.run.halted = false) :
    ∀ x ∈ (packageYield d cause i s).dies, x.hold = false := by
  rw [packageYield_eq, if_neg (by simp [h])]
  intro x hx
  obtain ⟨y, -, rfl⟩ := List.mem_map.1 hx
  rfl

/-- R110, R515: the package is HALTED with its cause. -/
theorem packageYield_halts {d cause : Nat} {i : HaltInfo} {s : State} (h : s.run.halted = false) :
    (packageYield d cause i s).run.halted = true ∧ faultPin (packageYield d cause i s) = false ∧
      (packageYield d cause i s).reg.ycause = cause := by
  rw [packageYield_eq, if_neg (by simp [h])]
  refine ⟨rfl, ?_, rfl⟩
  have k : 0 ∈ (enterHalt i d cause (beforeHalt d cause s)).run.faultN := mem_insNat.2 (.inl rfl)
  simp only [faultPin, List.isEmpty_eq_false_iff]
  exact List.ne_nil_of_mem k

/-! ### The yield of a die -/

theorem fence_changes (d : Nat) (s : State) : Changes s (fence d s) [.nss] := nss_changes ..

theorem setYieldReg_changes (scope d cause : Nat) (s : State) : Changes s (setYieldReg scope d cause s) [.reg] := reg_changes ..

theorem openKerf_changes (f b : Nat) (l : List Nat) (s : State) : Changes s (openKerf f b l s) [.pair] := by
  unfold openKerf
  split
  · exact .refl ..
  · exact pair_changes ..

/-- R355, R356: a die that has yielded with a cause. -/
def yieldedDie (cause : Nat) (x : DieSt) : DieSt :=
  { x with healthy := false, retired := true, retiring := false, yielded := some cause, hold := false, linkUp := false }

/-- R355, R356: the yield of a die as it tells of it. -/
def tellsYield (d cause : Nat) (s : State) : State :=
  setYieldReg 1 d cause (noteYield 1 d cause (sendYield 1 d d cause (raise d 0x0043 { cause := cause } s)))

/-- R355: a die that has yielded, without paths and commands. -/
def cutOff (d cause : Nat) (s : State) : State :=
  let s := fence d (s.updDie d (yieldedDie cause))
  { s with cmds := s.cmds.filter fun c => c.ref.die != d }

/-- R355, R356: what the yield of a die does before it is seen whether the package yields. -/
def dieGone (d cause : Nat) (s : State) : State :=
  let s := cutOff d cause (tellsYield d cause s)
  openKerf s.clk.tick 5 (poolsOn s d) s

theorem dieYield_eq (d cause : Nat) (s : State) : dieYield d cause s = if !s.alive d || s.run.halted then s else
    if (dieGone d cause s).aliveDies.isEmpty then packageYield d 0x09 {} (dieGone d cause s)
    else if (dieGone d cause s).pools.any fun p => p.home == d && !p.away && !standIn (dieGone d cause s) p then
      packageYield d 0x0A {} (dieGone d cause s)
    else dieGone d cause s := rfl

/-- What a die's leaving may change before it is seen whether the package yields. -/
abbrev leaving : List Field := .health :: .link :: .rfl :: .reg :: .cmds :: .nss :: .pair :: raising

theorem tellsYield_changes (d cause : Nat) (s : State) : Changes s (tellsYield d cause s) (.link :: .rfl :: .reg :: raising) :=
  ((((raise_changes ..).mono (by decide)).step (sendYield_changes ..) (by decide)).step (noteYield_changes ..) (by decide)).step
      (setYieldReg_changes ..) (by decide)

theorem cutOff_changes (d cause : Nat) (s : State) : Changes s (cutOff d cause s) [.health, .nss, .cmds] :=
  (((updDie_changes s d (yieldedDie cause) fun _ => ⟨rfl, rfl, rfl, rfl, rfl, rfl, rfl⟩).mono (by decide)).step
      (fence_changes ..) (by decide)).step
    (cmds_changes ..) (by decide)

theorem dieGone_changes (d cause : Nat) (s : State) : Changes s (dieGone d cause s) leaving :=
  (((tellsYield_changes ..).mono (by decide)).step (cutOff_changes ..) (by decide)).step (openKerf_changes ..) (by decide)

theorem dieYield_changes (d cause : Nat) (s : State) : Changes s (dieYield d cause s) yielding := by
  have h : Changes s (dieGone d cause s) yielding := (dieGone_changes ..).mono (by decide)
  rw [dieYield_eq]
  repeat' split
  · exact .refl ..
  · exact h.step (packageYield_changes ..) (by decide)
  · exact h.step (packageYield_changes ..) (by decide)
  · exact h

/-- R355: the die that is gone, and what is pending on it. -/
theorem dieGone_die {d cause : Nat} {s : State} {x : DieSt} (h : s.die? d = some x) :
    (∃ y, (dieGone d cause s).die? d = some y ∧ y.core = (yieldedDie cause x).core) ∧ Pending (dieGone d cause s) d 0x0043 := by
  have c1 := tellsYield_changes d cause s
  have c2 : Changes (cutOff d cause (tellsYield d cause s)) (dieGone d cause s) [.pair] := openKerf_changes ..
  obtain ⟨y, hy, e⟩ := die_of_map (c1.frame.same .health (by decide)) h
  obtain ⟨z, hz, ez⟩ := die_of_map (c2.frame.same .health (by decide)) (updDie_die?_self (yieldedDie cause) hy)
  refine ⟨⟨z, hz, ez.trans (congrArg (yieldedDie cause) e)⟩, c2.pend _ _ ((cutOff_changes ..).pend _ _ ?_)⟩
  have c3 : Changes (raise d 0x0043 { cause := cause } s) (tellsYield d cause s) (.link :: .rfl :: .reg :: raising) :=
    (((sendYield_changes ..).mono (by decide)).step (noteYield_changes ..) (by decide)).step (setYieldReg_changes ..) (by decide)
  exact c3.pend _ _ (raise_sets _ _ (by simp [h]))

/-- R355, R356: a die in service that yields has yielded with its cause, which is recorded on it. -/
theorem dieYield_yields {d cause : Nat} {s : State} {x : DieSt} (h : s.die? d = some x) (ha : x.alive = true)
    (hh : s.run.halted = false) : Yields d cause (dieYield d cause s) := by
  obtain ⟨⟨y, hy, e⟩, hp⟩ := dieGone_die (cause := cause) h
  have hr : (dieGone d cause s).run.halted = false := by
    rw [show (dieGone d cause s).run = s.run from (dieGone_changes d cause s).frame.same .run (by decide)]; exact hh
  have key (k : Nat) : Yields d cause (packageYield d k {} (dieGone d cause s)) := by
    obtain ⟨z, hz, ez⟩ := die_of_map (packageYield_core d k {} (dieGone d cause s)) hy
    have eq : heldDown z.core = heldDown (yieldedDie cause x).core := by rw [ez, e]
    refine ⟨⟨z, hz, congrArg DieSt.healthy eq, congrArg DieSt.retired eq, congrArg DieSt.yielded eq,
      packageYield_hold hr z (List.mem_of_getElem? hz), congrArg DieSt.linkUp eq⟩, (packageYield_changes ..).pend _ _ hp⟩
  rw [dieYield_eq, if_neg (by simp [State.alive, h, ha, hh])]
  repeat' split
  · exact key _
  · exact key _
  · exact ⟨⟨y, hy, congrArg DieSt.healthy e, congrArg DieSt.retired e, congrArg DieSt.yielded e, congrArg DieSt.hold e,
      congrArg DieSt.linkUp e⟩, hp⟩

end Sys2Proof.Machine
end

section
/-! SUPPORT. Units that leave service: what a noted fault leaves, and the yield of the die whose last unit of a kind it was. -/

namespace Sys2Proof.Machine

/-- A row that answers with a change has run. -/
theorem Runs.of_changes {c : Instr} {s t : State} {l m : List Field} {P : State → Prop} (e : exec c s = .next t)
    (h : Changes s t m) (p : P t) (k : ∀ f ∈ m, f ∈ l) : Runs c s l P := ⟨t, e, p, h.frame.mono k⟩

/-- The same of a row that lets waiting work go on. -/
theorem RunsOn.of_changes {c : Instr} {s t : State} {l m : List Field} {P : State → Prop} (e : exec c s = .next (settle t))
    (h : Changes s t m) (p : P t) (k : ∀ f ∈ m, f ∈ l) : RunsOn c s l P := ⟨t, e, p, h.frame.mono k⟩

theorem checksRun_alive {s : State} {d : Nat} {x : DieSt} (h : checksRun s d = true) (hx : s.die? d = some x) : x.alive = true
    := by
  simp only [checksRun, State.alive, hx, Option.any_some, Bool.and_eq_true] at h
  exact h.2

/-! ### A fault that is counted and raised -/

/-- R518: the units of a die after one more fault found by mechanism Di. -/
def counted (i : Nat) (h : HwSt) : HwSt := { h with dcount := h.dcount.modify (i - 1) fun k => satAdd top32 k 1 }

/-- R390, R405, R518: a fault found by mechanism Di is counted and raised. -/
def noted (d i code : Nat) (det : Detail) (s : State) : State := raise d code det (countFault d i s)

theorem countFaults_changes (d i n : Nat) (s : State) : Changes s (countFaults d i n s) [.hw] := updHw_changes s d _

theorem countFault_changes (d i : Nat) (s : State) : Changes s (countFault d i s) [.hw] := countFaults_changes d i 1 s

theorem countFault_die {s : State} {d : Nat} {x : DieSt} (i : Nat) (h : s.die? d = some x) :
    (countFault d i s).die? d = some { x with hw := counted i x.hw } := updHw_die?_self _ h

theorem noted_changes (d i code : Nat) (det : Detail) (s : State) : Changes s (noted d i code det s) (.hw :: raising) :=
  ((countFault_changes ..).mono (by decide)).step (raise_changes ..) (by decide)

theorem raise_die {s : State} {d e code : Nat} {x : DieSt} (det : Detail) (h : s.die? d = some x) :
    ∃ y, (raise e code det s).die? d = some y ∧ y.core = x.core ∧ y.hw = x.hw := by
  obtain ⟨y, hy, eh⟩ := die_of_map ((raise_changes e code det s).frame.same .hw (by decide)) h
  exact ⟨y, hy, (raise_changes e code det s).frame.die_core (by decide) h hy, eh⟩

theorem noted_die {s : State} {d : Nat} {x : DieSt} (i code : Nat) (det : Detail) (h : s.die? d = some x) :
    (∃ y, (noted d i code det s).die? d = some y ∧ y.core = x.core ∧ y.hw = counted i x.hw) ∧ Pending (noted d i code det s) d
        code :=
  ⟨raise_die det (countFault_die i h), raise_sets _ _ (by simp [countFault_die i h])⟩

theorem noted_run (d i code : Nat) (det : Detail) (s : State) : (noted d i code det s).run = s.run :=
  (noted_changes d i code det s).frame.same .run (by decide)

/-! ### The last unit of a kind -/

/-- R391: units of a die leave service; where none is left of their kind, the die yields with a cause. -/
def takeOut (d cause : Nat) (f : HwSt → HwSt) (none_ : HwSt → Bool) (s : State) : State :=
  if ((s.updHw d f).die? d).any fun x => none_ x.hw then dieYield d cause (s.updHw d f) else s.updHw d f

theorem takeOut_keeps {s : State} {d cause : Nat} {f : HwSt → HwSt} {g : HwSt → Bool} {x : DieSt} (h : s.die? d = some x)
    (k : g (f x.hw) = false) : takeOut d cause f g s = s.updHw d f := by
  rw [takeOut, updHw_die?_self f h, if_neg (by simp [k])]

theorem takeOut_yields {s : State} {d cause : Nat} {f : HwSt → HwSt} {g : HwSt → Bool} {x : DieSt} (h : s.die? d = some x)
    (k : g (f x.hw) = true) : takeOut d cause f g s = dieYield d cause (s.updHw d f) := by
  rw [takeOut, updHw_die?_self f h, if_pos (by simp [k])]

/-- What is left of the fault of a unit whose kind goes on without it. -/
structure Replaced (d code : Nat) (f : HwSt → HwSt) (i : Nat) (s : State) (x : DieSt) (t : State) : Prop where
  changes : Changes s t (.hw :: raising)
  pending : Pending t d code
  die : ∃ y, t.die? d = some y ∧ y.core = x.core ∧ y.hw = f (counted i x.hw)

/-- What is left of the fault of the last unit of a kind. -/
structure LastOut (d cause code : Nat) (f : HwSt → HwSt) (i : Nat) (s : State) (x : DieSt) (t : State) : Prop where
  changes : Changes s t (.hw :: yielding)
  yields : Yields d cause t
  pending : Pending t d code
  die : ∃ y, t.die? d = some y ∧ y.hw = f (counted i x.hw)

/-- R390, R391: a unit leaves service with a fault that is counted and raised. -/
theorem noted_takeOut_keeps {s : State} {d i code cause : Nat} {det : Detail} {f : HwSt → HwSt} {g : HwSt → Bool} {x : DieSt}
    (h : s.die? d = some x) (k : g (f (counted i x.hw)) = false) :
    Replaced d code f i s x (takeOut d cause f g (noted d i code det s)) := by
  obtain ⟨⟨y, hy, hc, hw⟩, hp⟩ := noted_die i code det h
  rw [takeOut_keeps hy (by rwa [hw])]
  exact ⟨((noted_changes ..).mono (by decide)).step (updHw_changes ..) (by decide), (updHw_changes ..).pend _ _ hp,
    _, updHw_die?_self _ hy, hc, congrArg f hw⟩

/-- R390, R391: the last unit of a kind takes the die with it. -/
theorem noted_takeOut_yields {s : State} {d i code cause : Nat} {det : Detail} {f : HwSt → HwSt} {g : HwSt → Bool} {x : DieSt}
    (h : s.die? d = some x) (ha : x.alive = true) (hh : s.run.halted = false) (k : g (f (counted i x.hw)) = true) :
    LastOut d cause code f i s x (takeOut d cause f g (noted d i code det s)) := by
  obtain ⟨⟨y, hy, hc, hw⟩, hp⟩ := noted_die i code det h
  rw [takeOut_yields hy (by rwa [hw])]
  have hu := updHw_die?_self f hy
  have c := dieYield_changes d cause ((noted d i code det s).updHw d f)
  obtain ⟨z, hz, ez⟩ := die_of_map (c.frame.same .hw (by decide)) hu
  exact ⟨(((noted_changes ..).mono (by decide)).step (updHw_changes ..) (by decide)).step c (by decide),
    dieYield_yields hu ((alive_of_core hc).trans ha) (by rw [State.updHw, updDie_run, noted_run]; exact hh),
    c.pend _ _ ((updHw_changes ..).pend _ _ hp), z, hz, ez.trans (congrArg f hw)⟩

/-! ### Cores -/

theorem kerfSwap_changes (s : State) : Changes s (kerfSwap s) [.cmds, .free, .pair] :=
  Frame.changes ⟨fun k hk => by cases k with | cmds | free | pair => simp at hk | _ => rfl⟩ (by decide) (.of_eq rfl)

theorem kerfSwap_refs (s : State) : (kerfSwap s).cmds.map (·.ref) = s.cmds.map (·.ref) := by
  have k (l : List Cmd) (n : Nat) (f : Cmd × Nat → Cmd) (h : ∀ x, (f x).ref = x.1.ref) :
      ((l.zipIdx n).map f).map (·.ref) = l.map (·.ref) := by
    induction l generalizing n with
    | nil => rfl
    | cons a l ih => simp only [List.zipIdx_cons, List.map_cons, h, ih]
  exact k _ _ _ fun x => by dsimp only; split <;> rfl

/-- R19: the spare with the lowest index takes the job of a failed core. -/
def passJob (i j job : Nat) (h : HwSt) : HwSt := { h with cores := (h.cores.set i 0x0F).set j job }

theorem updHw_updHw (s : State) (d : Nat) (f g : HwSt → HwSt) : (s.updHw d f).updHw d g = s.updHw d fun h => g (f h) := by
  simp only [State.updHw, State.updDie, List.modify_modify_eq]
  rfl

section
variable {s : State} {d i job : Nat} {x : DieSt}

theorem coreFail_swaps (hx : s.die? d = some x) (ha : x.alive = true) (hi : x.hw.cores[i]? = some job) (hj : job ≠ 0x0F)
    (h9 : job ≠ 9) {j : Nat} {l : List Nat} (hs : x.hw.spares = j :: l) :
    coreFail d i s = raise d 0x0040 { unit := i, arg0 := j } (kerfSwap (s.updHw d (passJob i j job))) := by
  simp only [coreFail, hx, hi, hs, ha, hj, h9, updHw_updHw]
  rfl

theorem coreFail_yields (hx : s.die? d = some x) (ha : x.alive = true) (hi : x.hw.cores[i]? = some job) (hj : job ≠ 0x0F)
    (h9 : job ≠ 9) (hs : x.hw.spares = []) :
    coreFail d i s = dieYield d 0x01 (s.updHw d fun h => { h with cores := h.cores.set i 0x0F }) := by
  simp only [coreFail, hx, hi, hs, ha, hj, h9]
  rfl

/-- R21: a spare core out of service. -/
def spareOut (i : Nat) (h : HwSt) : HwSt := { h with cores := h.cores.set i 0x0F, lbistFail := satAdd top32 h.lbistFail 1 }

theorem coreFail_spare (hx : s.die? d = some x) (ha : x.alive = true) (hi : x.hw.cores[i]? = some 9) :
    coreFail d i s = (if x.hw.spares.length ≤ 1 then raise d 0x0042 {} (raise d 0x0041 { unit := i } (s.updHw d (spareOut i)))
      else raise d 0x0041 { unit := i } (s.updHw d (spareOut i))) := by
  simp only [coreFail, hx, hi, ha, updHw_updHw]
  rfl

end

theorem execLockstepMismatch_one {s : State} {d : Nat} (i : Nat) (h : checksRun s d = true) :
    exec (.lockstepMismatch d [i]) s = .next (coreFail d i (countFault d 1 s)) := if_pos h

end Sys2Proof.Machine
end

section
/-! PROOF. Cores, engines, units of the data path, fabric modules and lanes that leave service. -/

namespace Sys2Proof.Machine

/-! ### Cores -/

section
variable {s : State} {d i job : Nat} {x : DieSt}

theorem lockstep_swaps (hx : s.die? d = some x) (hc : checksRun s d = true) (hi : x.hw.cores[i]? = some job) (hj : job ≠ 0x0F)
    (h9 : job ≠ 9) {j : Nat} {l : List Nat} (hs : x.hw.spares = j :: l) :
    Runs (.lockstepMismatch d [i]) s (.hw :: .cmds :: .free :: .pair :: raising) fun t =>
      (∃ y, t.die? d = some y ∧ y.hw.cores = (x.hw.cores.set i 0x0F).set j job) ∧ Pending t d 0x0040 ∧
      t.cmds.map (·.ref) = s.cmds.map (·.ref) := by
  have e := execLockstepMismatch_one i hc
  have ha := checksRun_alive hc hx
  rw [coreFail_swaps (countFault_die 1 hx) ha hi hj h9 hs] at e
  have c1 : Changes ((countFault d 1 s).updHw d (passJob i j job)) _ [.cmds, .free, .pair] := kerfSwap_changes _
  have c2 := raise_changes d 0x0040 { unit := i, arg0 := j } (kerfSwap ((countFault d 1 s).updHw d (passJob i j job)))
  obtain ⟨y, hy, hw⟩ := die_of_map (c1.frame.same .hw (by decide)) (updHw_die?_self (passJob i j job) (countFault_die 1 hx))
  obtain ⟨z, hz, -, hz'⟩ := raise_die (e := d) (code := 0x0040) { unit := i, arg0 := j } hy
  refine .of_changes e
      (((((countFault_changes d 1 s).mono (by decide)).step (updHw_changes ..) (by decide)).step c1 (by decide)).step c2
          (by decide) (l := .hw :: .cmds :: .free ::
    .pair :: raising)) ⟨⟨z, hz, ?_⟩, raise_sets _ _ (by simp [hy]), ?_⟩ (by decide)
  · rw [hz', hw]; rfl
  · rw [raise_cmds, kerfSwap_refs]; rfl

theorem lockstep_yields (hx : s.die? d = some x) (hc : checksRun s d = true) (hh : s.run.halted = false)
    (hi : x.hw.cores[i]? = some job) (hj : job ≠ 0x0F) (h9 : job ≠ 9) (hs : x.hw.spares = []) :
    Runs (.lockstepMismatch d [i]) s (.hw :: yielding) (Yields d 1) := by
  have e := execLockstepMismatch_one i hc
  have ha := checksRun_alive hc hx
  rw [coreFail_yields (countFault_die 1 hx) ha hi hj h9 hs] at e
  exact .of_changes e ((((countFault_changes d 1 s).mono (by decide)).step (updHw_changes ..) (by decide)).step
      (dieYield_changes ..) (by decide) (l := .hw :: yielding))
    (dieYield_yields (updHw_die?_self _ (countFault_die 1 hx)) ha hh) (by decide)

theorem lockstep_spare (hx : s.die? d = some x) (hc : checksRun s d = true) (hi : x.hw.cores[i]? = some 9) :
    Runs (.lockstepMismatch d [i]) s (.hw :: raising) fun t => Pending t d 0x0041 ∧
      (x.hw.spares.length ≤ 1 → Pending t d 0x0042) ∧ ∃ y, t.die? d = some y ∧ y.hw.cores = x.hw.cores.set i 0x0F ∧
        y.hw.lbistFail = satAdd top32 x.hw.lbistFail 1 := by
  have e := execLockstepMismatch_one i hc
  have ha := checksRun_alive hc hx
  rw [coreFail_spare (countFault_die 1 hx) ha hi] at e
  have h1 := updHw_die?_self (spareOut i) (countFault_die 1 hx)
  obtain ⟨y, hy, -, hw⟩ := raise_die (e := d) (code := 0x0041) { unit := i } h1
  have p : Pending (raise d 0x0041 { unit := i } ((countFault d 1 s).updHw d (spareOut i))) d 0x0041 :=
    raise_sets _ _ (by simp [h1])
  have c : Changes s (raise d 0x0041 { unit := i } ((countFault d 1 s).updHw d (spareOut i))) (.hw :: raising) :=
    (((countFault_changes d 1 s).mono (by decide)).step (updHw_changes ..) (by decide)).step (raise_changes ..) (by decide)
  by_cases n : x.hw.spares.length ≤ 1
  · obtain ⟨z, hz, -, hw'⟩ := raise_die (e := d) (code := 0x0042) {} hy
    exact .of_changes (e.trans (congrArg Host.Outcome.next (if_pos n))) (c.step (raise_changes ..) (by decide))
        ⟨(raise_changes ..).pend _ _ p, fun _ => raise_sets _ _ (by simp [hy]),
      z, hz, by rw [hw', hw]; rfl, by rw [hw', hw]; rfl⟩ (by decide)
  · exact .of_changes (e.trans (congrArg Host.Outcome.next (if_neg n))) c
        ⟨p, fun k => absurd k n, y, hy, by rw [hw]; rfl, by rw [hw]; rfl⟩ (by decide)

end

/-! ### Engines -/

/-- R24: GF engine u of a die out of service. -/
def gfWithout (u : Nat) (h : HwSt) : HwSt := { h with gf := h.gf.set u false }

/-- R391: AES-XTS engine u of a die out of service. -/
def aesWithout (u : Nat) (h : HwSt) : HwSt := { h with aes := h.aes.set u false }

/-- R391: mover u of a die out of service. -/
def moverWithout (u : Nat) (h : HwSt) : HwSt := { h with movers := h.movers.set u false }

/-- R24: the repetition on the other GF engine fails as well. -/
def gfSecond (d : Nat) (s : State) : State :=
  match gfOther s d with
  | some v => if s.alive d then gfFault d v s else s
  | none => s

/-- R395: the retry on another AES-XTS engine fails as well. -/
def aesSecond (d : Nat) (s : State) : State :=
  match aesOther s d with
  | some v => if s.alive d then aesFault d v s else s
  | none => s

theorem gfFault_eq (d u : Nat) (s : State) :
    gfFault d u s = takeOut d 0x02 (gfWithout u) (fun h => !(h.gf.any id)) (noted d 2 0x1001 { unit := 0x20 + u } s) := rfl

theorem aesFault_eq (d u : Nat) (s : State) :
    aesFault d u s = takeOut d 0x06 (aesWithout u) (fun h => !(h.aes.any id)) (noted d 3 0x1002 { unit := 0x28 + u } s) := rfl

theorem moverOut_eq (d u : Nat) (s : State) : moverOut d u s = takeOut d 0x06 (moverWithout u) (fun h => !(h.movers.any id)) s
    := rfl

theorem find?_range_none {l : List Bool} {n : Nat} (h : l.any id = false) : ((List.range n).find? fun i => l[i]? == some true) =
    none := by
  rw [List.find?_eq_none]
  intro i _ k
  have m : true ∈ l := List.mem_of_getElem? (eq_of_beq k)
  have : l.any id = true := List.any_eq_true.2 ⟨true, m, rfl⟩
  simp [h] at this

section
variable {s : State} {d u : Nat} {x : DieSt}

theorem gfResidue_exec (hx : s.die? d = some x) (hc : checksRun s d = true) (hu : x.hw.gf[u]? = some true) (p a : List GfBeat) :
    exec (.gfResidueFault d u ⟨p, a⟩) s = .next (if passOk p then s else if passOk a then gfFault d u s else
      gfSecond d (gfFault d u s)) := by
  change execGfResidueFault d u ⟨p, a⟩ s = _
  unfold execGfResidueFault
  cases hp : passOk p
  · simp only [hc, hx, hu, Option.any_some, beq_self_eq_true, Bool.and_self, Bool.not_false, if_true, Bool.false_eq_true, if_false]
    rfl
  · simp [hc, hx, hu]

theorem aesCheck_exec (hx : s.die? d = some x) (hc : checksRun s d = true) (hu : x.hw.aes[u]? = some true) (p a : AesRun) :
    exec (.aesCheckFault d u ⟨p, a⟩) s = .next (if aesRunOk p then s else if aesRunOk a then aesFault d u s else
      aesSecond d (aesFault d u s)) := by
  change execAesCheckFault d u ⟨p, a⟩ s = _
  unfold execAesCheckFault
  cases hp : aesRunOk p
  · simp only [hc, hx, hu, Option.any_some, beq_self_eq_true, Bool.and_self, Bool.not_false, if_true, Bool.false_eq_true, if_false]
    rfl
  · simp [hc, hx, hu]

theorem gfResidue_replaced (hx : s.die? d = some x) (hc : checksRun s d = true) (hu : x.hw.gf[u]? = some true) {p a : List GfBeat}
    (hp : passOk p = false) (ha : passOk a = true) (hl : (x.hw.gf.set u false).any id = true) :
    Runs (.gfResidueFault d u ⟨p, a⟩) s (.hw :: raising) fun t => Pending t d 0x1001 ∧
      ∃ y, t.die? d = some y ∧ y.hw.gf = x.hw.gf.set u false := by
  have e := gfResidue_exec hx hc hu p a
  rw [if_neg (by simp [hp]), if_pos ha, gfFault_eq] at e
  obtain ⟨c, q, y, hy, -, hw⟩ := noted_takeOut_keeps (i := 2) (code := 0x1001) (cause := 0x02) (det := { unit := 0x20 + u })
    (f := gfWithout u) (g := fun h => !(h.gf.any id)) hx (by simpa [gfWithout, counted] using hl)
  exact .of_changes e c ⟨q, y, hy, by rw [hw]; rfl⟩ (by decide)

/-- R24: the last GF engine fails its pass. -/
theorem gfFault_last (hx : s.die? d = some x) (ha : x.alive = true) (hh : s.run.halted = false)
    (hl : (x.hw.gf.set u false).any id = false) : LastOut d 2 0x1001 (gfWithout u) 2 s x (gfFault d u s) := by
  rw [gfFault_eq]
  exact noted_takeOut_yields hx ha hh (by simpa [gfWithout, counted] using hl)

theorem gfResidue_last (hx : s.die? d = some x) (hc : checksRun s d = true) (hh : s.run.halted = false)
    (hu : x.hw.gf[u]? = some true) {p : List GfBeat} (a : List GfBeat) (hp : passOk p = false)
    (hl : (x.hw.gf.set u false).any id = false) :
    Runs (.gfResidueFault d u ⟨p, a⟩) s (.hw :: yielding) fun t => Yields d 2 t ∧ Pending t d 0x1001 := by
  obtain ⟨c, hY, q, y, hy, hw⟩ := gfFault_last hx (checksRun_alive hc hx) hh hl
  have ho : gfOther (gfFault d u s) d = none := by
    simp only [gfOther, hy, Option.bind_some, hw]
    exact find?_range_none hl
  have e := gfResidue_exec hx hc hu p a
  rw [if_neg (by simp [hp]), gfSecond, ho] at e
  exact .of_changes (by simpa using e) c ⟨hY, q⟩ (by decide)

theorem gfResidue_both (hx : s.die? d = some x) (hc : checksRun s d = true) (hh : s.run.halted = false)
    (hu : x.hw.gf[u]? = some true) {p a : List GfBeat} (hp : passOk p = false) (ha : passOk a = false)
        (hg : x.hw.gf = [true, true]) :
    Runs (.gfResidueFault d u ⟨p, a⟩) s (.hw :: yielding) fun t =>
      Yields d 2 t ∧ ∃ y, t.die? d = some y ∧ y.hw.gf = [false, false] := by
  have h2 : u = 0 ∨ u = 1 := by
    rw [hg] at hu
    rcases u with _ | _ | u
    · exact .inl rfl
    · exact .inr rfl
    · simp at hu
  have k := noted_takeOut_keeps (i := 2) (code := 0x1001) (cause := 0x02) (det := { unit := 0x20 + u }) (f := gfWithout u)
    (g := fun h => !(h.gf.any id)) hx (by obtain rfl | rfl := h2 <;> simp [gfWithout, counted, hg])
  rw [← gfFault_eq] at k
  obtain ⟨c, -, y, hy, hcore, hw⟩ := k
  have hal : y.alive = true := (alive_of_core hcore).trans (checksRun_alive hc hx)
  have hrun : (gfFault d u s).run.halted = false := by
    rw [show (gfFault d u s).run = s.run from c.frame.same .run (by decide)]; exact hh
  have hyg : y.hw.gf = [true, true].set u false := by rw [hw, ← hg]; rfl
  have ho : gfOther (gfFault d u s) d = some (1 - u) := by
    simp only [gfOther, hy, Option.bind_some, hyg]
    obtain rfl | rfl := h2 <;> rfl
  have hy0 : y.hw.gf.set (1 - u) false = [false, false] := by rw [hyg]; obtain rfl | rfl := h2 <;> rfl
  obtain ⟨c', hY, -, z, hz, hz'⟩ := gfFault_last (u := 1 - u) hy hal hrun (by rw [hy0]; rfl)
  have e := gfResidue_exec hx hc hu p a
  rw [if_neg (by simp [hp]), if_neg (by simp [ha]), gfSecond, ho] at e
  simp only [show (gfFault d u s).alive d = true by simp [State.alive, hy, hal], if_true] at e
  exact .of_changes e ((c.mono (by decide)).trans c' (l := .hw :: yielding)) ⟨hY, z, hz, by rw [hz']; exact hy0⟩ (by decide)

theorem aesCheck_replaced (hx : s.die? d = some x) (hc : checksRun s d = true) (hu : x.hw.aes[u]? = some true) {p a : AesRun}
    (hp : aesRunOk p = false) (ha : aesRunOk a = true) (hl : (x.hw.aes.set u false).any id = true) :
    Runs (.aesCheckFault d u ⟨p, a⟩) s (.hw :: raising) fun t => Pending t d 0x1002 ∧
      ∃ y, t.die? d = some y ∧ y.hw.aes = x.hw.aes.set u false := by
  have e := aesCheck_exec hx hc hu p a
  rw [if_neg (by simp [hp]), if_pos ha, aesFault_eq] at e
  obtain ⟨c, q, y, hy, -, hw⟩ := noted_takeOut_keeps (i := 3) (code := 0x1002) (cause := 0x06) (det := { unit := 0x28 + u })
    (f := aesWithout u) (g := fun h => !(h.aes.any id)) hx (by simpa [aesWithout, counted] using hl)
  exact .of_changes e c ⟨q, y, hy, by rw [hw]; rfl⟩ (by decide)

theorem aesCheck_last (hx : s.die? d = some x) (hc : checksRun s d = true) (hh : s.run.halted = false)
    (hu : x.hw.aes[u]? = some true) {p : AesRun} (a : AesRun) (hp : aesRunOk p = false)
    (hl : (x.hw.aes.set u false).any id = false) :
    Runs (.aesCheckFault d u ⟨p, a⟩) s (.hw :: yielding) fun t => Yields d 6 t ∧ Pending t d 0x1002 := by
  have k := noted_takeOut_yields (i := 3) (code := 0x1002) (cause := 0x06) (det := { unit := 0x28 + u }) (f := aesWithout u)
    (g := fun h => !(h.aes.any id)) hx (checksRun_alive hc hx) hh (by simpa [aesWithout, counted] using hl)
  rw [← aesFault_eq] at k
  obtain ⟨c, hY, q, y, hy, hw⟩ := k
  have ho : aesOther (aesFault d u s) d = none := by
    simp only [aesOther, hy, Option.bind_some, hw]
    exact find?_range_none hl
  have e := aesCheck_exec hx hc hu p a
  rw [if_neg (by simp [hp]), aesSecond, ho] at e
  exact .of_changes (by simpa using e) c ⟨hY, q⟩ (by decide)

/-! ### Units of the data path -/

theorem datapath_exec {port : Nat} (hc : checksRun s d = true) (hu : unitServes s d u port = true) (p a : Xfer) :
    exec (.datapathCrcError d u ⟨port, p, a⟩) s = .next (if xferOk p then s else if xferOk a then noted d 4 0x1003 { unit := u }
        s else
      unitOut d u port (noted d 4 0x1003 { unit := u } s)) := by
  change execDatapathCrcError d u ⟨port, p, a⟩ s = _
  unfold execDatapathCrcError
  cases hp : xferOk p <;> simp [hc, hu, noted]

theorem datapath_moved {port : Nat} (hx : s.die? d = some x) (hc : checksRun s d = true) (hu : unitServes s d u port = true)
    {p a : Xfer}
    (hp : xferOk p = false) (ha : xferOk a = true) : Runs (.datapathCrcError d u ⟨port, p, a⟩) s (.hw :: raising) fun t =>
      Pending t d 0x1003 ∧ ∃ y, t.die? d = some y ∧ y.hw = { x.hw with dcount := y.hw.dcount } := by
  have e := datapath_exec hc hu p a
  rw [if_neg (by simp [hp]), if_pos ha] at e
  obtain ⟨⟨y, hy, -, hw⟩, q⟩ := noted_die 4 0x1003 { unit := u } hx
  exact .of_changes e (noted_changes ..) ⟨q, y, hy, by rw [hw]; rfl⟩ (by decide)

/-- R391, R392: the unit of a failed repetition leaves service; others of its kind go on. -/
theorem datapath_replaced {port : Nat} {f : HwSt → HwSt} {g : HwSt → Bool} (hx : s.die? d = some x) (hc : checksRun s d = true)
    (hu : unitServes s d u port = true) {p a : Xfer} (hp : xferOk p = false) (ha : xferOk a = false)
    (hf : unitOut d u port (noted d 4 0x1003 { unit := u } s) = takeOut d 0x06 f g (noted d 4 0x1003 { unit := u } s))
    (hg : g (f (counted 4 x.hw)) = false) : Runs (.datapathCrcError d u ⟨port, p, a⟩) s (.hw :: raising) fun t =>
      Pending t d 0x1003 ∧ ∃ y, t.die? d = some y ∧ y.hw = f (counted 4 x.hw) := by
  have e := datapath_exec hc hu p a
  rw [if_neg (by simp [hp]), if_neg (by simp [ha]), hf] at e
  obtain ⟨c, q, y, hy, -, hw⟩ := noted_takeOut_keeps (i := 4) (code := 0x1003) (cause := 0x06) (det := { unit := u })
    (f := f) (g := g) hx hg
  exact .of_changes e c ⟨q, y, hy, hw⟩ (by decide)

/-- R391, R392: the last unit of a kind whose repetition fails takes the die with it. -/
theorem datapath_last {port : Nat} {f : HwSt → HwSt} {g : HwSt → Bool} (hx : s.die? d = some x) (hc : checksRun s d = true)
    (hh : s.run.halted = false) (hu : unitServes s d u port = true) {p a : Xfer} (hp : xferOk p = false) (ha : xferOk a = false)
    (hf : unitOut d u port (noted d 4 0x1003 { unit := u } s) = takeOut d 0x06 f g (noted d 4 0x1003 { unit := u } s))
    (hg : g (f (counted 4 x.hw)) = true) : Runs (.datapathCrcError d u ⟨port, p, a⟩) s (.hw :: yielding) (Yields d 6) := by
  have e := datapath_exec hc hu p a
  rw [if_neg (by simp [hp]), if_neg (by simp [ha]), hf] at e
  obtain ⟨c, hY, -⟩ := noted_takeOut_yields (i := 4) (code := 0x1003) (cause := 0x06) (det := { unit := u })
    (f := f) (g := g) hx (checksRun_alive hc hx) hh hg
  exact .of_changes e c hY (by decide)

theorem unitOut_mover {m port : Nat} (h : m < 16) (s : State) :
    unitOut d (0x30 + m) port s = takeOut d 0x06 (moverWithout m) (fun h => !(h.movers.any id)) s := by
  rw [unitOut, if_neg (by omega), if_neg (by omega), if_pos (by omega), ← moverOut_eq]
  congr 1
  omega

theorem unitOut_port (port : Nat) (s : State) :
    unitOut d 0x41 port s = takeOut d 0x06 (portOut (s.portMode d) port) (fun h => h.driveLanes == 0) s := rfl

theorem datapath_host {port : Nat} (hx : s.die? d = some x) (hc : checksRun s d = true) (hh : s.run.halted = false)
    (hu : unitServes s d 0x40 port = true) {p a : Xfer} (hp : xferOk p = false) (ha : xferOk a = false) :
    Runs (.datapathCrcError d 0x40 ⟨port, p, a⟩) s (.hw :: yielding) (Yields d 6) := by
  have e := datapath_exec hc hu p a
  rw [if_neg (by simp [hp]), if_neg (by simp [ha])] at e
  obtain ⟨⟨y, hy, hcore, -⟩, -⟩ := noted_die 4 0x1003 { unit := 0x40 } hx
  exact .of_changes e (((noted_changes d 4 0x1003 { unit := 0x40 } s).mono (by decide)).step (dieYield_changes d 0x06 _)
      (by decide) (l := .hw :: yielding))
    (dieYield_yields hy ((alive_of_core hcore).trans (checksRun_alive hc hx)) (by rw [noted_run]; exact hh)) (by decide)

end

end Sys2Proof.Machine
end

section
/-! PROOF. Fabric modules and lanes that leave service, and the obligation on units. -/

namespace Sys2Proof.Machine

/-! ### Fabric modules -/

/-- R34: module m of a die down. -/
def moduleDown (m : Nat) (h : HwSt) : HwSt := { h with fabric := h.fabric.set m false }

/-- R34: the link of a module down at both its ends. -/
def linkCut (d m e n : Nat) (s : State) : State := (s.updHw d (moduleDown m)).updHw e (moduleDown n)

theorem reroute_changes (s : State) : Changes s (reroute s) [.cmds] := cmds_changes s _

theorem linkCut_changes (d m e n : Nat) (s : State) : Changes s (linkCut d m e n s) [.hw] :=
  (updHw_changes s d (moduleDown m)).step (updHw_changes _ e (moduleDown n)) (by decide)

theorem fabricDown_eq {s : State} {d m e n : Nat} (hp : fabricPeer s.id.part d m = some (e, n)) (hu : moduleUp s d m = true) :
    fabricDown d m s = raise d 0x0050 { unit := 0x48 + m } (reroute (linkCut d m e n s)) := by
  simp only [fabricDown, hp, hu, if_true]
  rfl

/-- R34, R41: a forwarded entry takes the shortest path that is left between its ends. -/
theorem reroute_route {s : State} {c : Cmd} (h : c ∈ (reroute s).cmds) : ∃ c' ∈ s.cmds, c'.ref = c.ref ∧
    ∀ a b, c'.route.head? = some a → c'.route.getLast? = some b → c.route = fabricPath s a b := by
  obtain ⟨c', hc, rfl⟩ := List.mem_map.1 h
  refine ⟨c', hc, ?_, fun a b ha hb => ?_⟩
  · split <;> rfl
  · simp only [ha, hb]

theorem fabricNext_of_frame {s t : State} {l : List Field} (f : Frame s t l) (h : .id ∉ l ∧ .hw ∉ l) :
    fabricNext t = fabricNext s :=
  fabricNext_congr (by rw [show t.id = s.id from f.same .id h.1]) (f.same .hw h.2)

section
variable {s : State} {d : Nat} {x : DieSt}

theorem fabricLinkDown_runs (hx : s.die? d = some x) (hc : checksRun s d = true) {m e n : Nat} (hm : x.hw.fabric[m]? = some true)
    (hp : fabricPeer s.id.part d m = some (e, n)) (he : e ≠ d) :
    Runs (.fabricLinkDown d m) s (.hw :: .cmds :: raising) fun t => Pending t d 0x0050 ∧
      (∃ y, t.die? d = some y ∧ y.hw.fabric = x.hw.fabric.set m false) ∧
      (∀ z, s.die? e = some z → ∃ w, t.die? e = some w ∧ w.hw.fabric = z.hw.fabric.set n false) ∧
      ∀ c ∈ t.cmds, ∃ c' ∈ s.cmds, c'.ref = c.ref ∧ ∀ a b, c'.route.head? = some a → c'.route.getLast? = some b →
        c.route = fabricPath t a b := by
  have hu : moduleUp (countFault d 13 s) d m = true := by
    simpa [moduleUp, countFault_die 13 hx, counted] using hm
  have ex : exec (.fabricLinkDown d m) s = .next
      (raise d 0x0050 { unit := 0x48 + m } (reroute (linkCut d m e n (countFault d 13 s)))) := by
    rw [← fabricDown_eq (s := countFault d 13 s) hp hu]
    exact if_pos hc
  have c1 : Changes (linkCut d m e n (countFault d 13 s)) (raise d 0x0050 { unit := 0x48 + m }
      (reroute (linkCut d m e n (countFault d 13 s)))) (.cmds :: raising) := ((reroute_changes _).mono (by decide)).step
          (raise_changes ..) (by decide)
  have hd : (linkCut d m e n (countFault d 13 s)).die? d = some { x with hw := moduleDown m (counted 13 x.hw) } := by
    rw [linkCut, State.updHw, updDie_die?, if_neg he]
    exact updHw_die?_self (moduleDown m) (countFault_die 13 hx)
  obtain ⟨y, hy, hw⟩ := die_of_map (c1.frame.same .hw (by decide)) hd
  obtain ⟨y', hy', -⟩ := die_of_map ((reroute_changes (linkCut d m e n (countFault d 13 s))).frame.same .hw (by decide)) hd
  refine .of_changes ex ((((countFault_changes d 13 s).mono (by decide)).step (linkCut_changes ..) (by decide)).step c1
      (by decide) (l := .hw :: .cmds :: raising))
    ⟨raise_sets _ _ (by simp [hy']), ⟨y, hy, by rw [hw]; rfl⟩, fun z hz => ?_, fun c h => ?_⟩ (by decide)
  · have hz1 : ((countFault d 13 s).updHw d (moduleDown m)).die? e = some z := by
      rw [State.updHw, updDie_die?, if_neg he.symm, countFault, countFaults, State.updHw, updDie_die?, if_neg he.symm, hz]
    obtain ⟨w, hw, e1⟩ := die_of_map (c1.frame.same .hw (by decide)) (updHw_die?_self (moduleDown n) hz1)
    exact ⟨w, hw, by rw [e1]; rfl⟩
  · rw [raise_cmds] at h
    obtain ⟨c', hc', hr, hp⟩ := reroute_route h
    refine ⟨c', hc', hr, fun a b ha hb => ?_⟩
    rw [hp a b ha hb, fabricPath_congr (fabricNext_of_frame c1.frame (by decide))]

/-! ### Lanes -/

theorem linkDown_changes (d : Nat) (s : State) : Changes s (linkDown d s) (.link :: raising) :=
  ((updLink_changes s d _).mono (by decide)).step (raise_changes ..) (by decide)

theorem linkToRecover_changes (d : Nat) (s : State) : Changes s (linkToRecover d s) (.link :: raising) := by
  unfold linkToRecover
  repeat' split
  · exact .refl ..
  · exact .refl ..
  · exact linkDown_changes ..
  · exact .refl ..
  · exact ((updLink_changes s d _).mono (by decide)).step (sendAlign_changes ..) (by decide)

theorem loseReflectLane_changes (d : Nat) (s : State) : Changes s (loseReflectLane d s) (.link :: raising) :=
  ((updLink_changes s d _).mono (by decide)).trans (linkToRecover_changes ..)

/-- R332, R474: a lane among the retired ones. -/
def laneRetired (l : Nat) (h : HwSt) : HwSt :=
  { h with lanesRetired := insNat l h.lanesRetired, driveLanes := if 16 ≤ l ∧ l < 40 then h.driveLanes - 1 else h.driveLanes }

theorem retireLane_eq (d l : Nat) (b : Bool) (s : State) : retireLane d l b s =
    let t := raise d 0x6020 { unit := laneUnit l, item := l } (s.updHw d (laneRetired l))
    if 40 ≤ l then loseReflectLane d t else if b then t.updHw d (narrowLink l) else t := rfl

/-- R332, R385, R474: the units of a die once a lane is retired. -/
def lessLane (l : Nat) (b : Bool) (h : HwSt) : HwSt :=
  if b = true ∧ l < 40 then narrowLink l (laneRetired l h) else laneRetired l h

theorem retireLane_changes (d l : Nat) (b : Bool) (s : State) : Changes s (retireLane d l b s) (.hw :: .link :: raising) := by
  have c : Changes s (raise d 0x6020 { unit := laneUnit l, item := l } (s.updHw d (laneRetired l))) (.hw :: .link :: raising) :=
    ((updHw_changes ..).mono (by decide)).step (raise_changes ..) (by decide)
  rw [retireLane_eq]
  dsimp only
  repeat' split
  · exact c.step (loseReflectLane_changes ..) (by decide)
  · exact c.step (updHw_changes ..) (by decide)
  · exact c

theorem retireLane_die (hx : s.die? d = some x) (l : Nat) (b : Bool) : Pending (retireLane d l b s) d 0x6020 ∧
    ∃ y, (retireLane d l b s).die? d = some y ∧ y.hw = lessLane l b x.hw := by
  have h1 := updHw_die?_self (laneRetired l) hx
  obtain ⟨y, hy, -, hw⟩ := raise_die (e := d) (code := 0x6020) { unit := laneUnit l, item := l } h1
  have p : Pending (raise d 0x6020 { unit := laneUnit l, item := l } (s.updHw d (laneRetired l))) d 0x6020 :=
    raise_sets _ _ (by simp [h1])
  rw [retireLane_eq]
  dsimp only [lessLane]
  by_cases h : 40 ≤ l
  · have c := loseReflectLane_changes d (raise d 0x6020 { unit := laneUnit l, item := l } (s.updHw d (laneRetired l)))
    obtain ⟨z, hz, e⟩ := die_of_map (c.frame.same .hw (by decide)) hy
    rw [if_pos h, if_neg (by omega)]
    exact ⟨c.pend _ _ p, z, hz, e.trans hw⟩
  · cases b
    · rw [if_neg h, if_neg (by decide), if_neg (by simp)]
      exact ⟨p, y, hy, hw⟩
    · rw [if_neg h, if_pos rfl, if_pos ⟨rfl, by omega⟩]
      exact ⟨(updHw_changes ..).pend _ _ p, _, updHw_die?_self _ hy, congrArg (narrowLink l) hw⟩

/-- R474: the consecutive measurements of a lane below margin. -/
def lowEyes (lane : Nat) (h : HwSt) : Nat := ((h.eye.find? (·.1 == lane)).map (·.2)).getD 0

/-- R474: the measurements kept of a die's lanes. -/
def withEye (l : List (Nat × Nat)) (h : HwSt) : HwSt := { h with eye := l }

theorem eyeMeasure_exec (hx : s.die? d = some x) (hc : checksRun s d = true) {lane : Nat} (hl : lane ∉ x.hw.lanesRetired)
    (e : EyeSeen) :
    exec (.eyeMeasure d lane e) s = .next (
      if !e.below then s.updHw d (withEye (x.hw.eye.filter (·.1 != lane)))
      else if lowEyes lane x.hw + 1 < 4 then
        s.updHw d (withEye ((lane, lowEyes lane x.hw + 1) :: x.hw.eye.filter (·.1 != lane)))
      else retireLane d lane e.l0p (s.updHw d (withEye (x.hw.eye.filter (·.1 != lane))))) := by
  change execEyeMeasure d lane e s = _
  simp only [execEyeMeasure, hx, hc]
  rw [if_neg (by simpa using hl)]
  cases e.below
  · rfl
  · by_cases k : lowEyes lane x.hw + 1 < 4
    · exact (if_pos k).trans (congrArg Host.Outcome.next (if_pos k).symm)
    · exact (if_neg k).trans (congrArg Host.Outcome.next (if_neg k).symm)

theorem eyeMeasure_good (hx : s.die? d = some x) (hc : checksRun s d = true) {lane : Nat} (hl : lane ∉ x.hw.lanesRetired)
    (b : Bool) :
    Runs (.eyeMeasure d lane ⟨false, b⟩) s [.hw] fun t => ∃ y, t.die? d = some y ∧
      y.hw = { x.hw with eye := x.hw.eye.filter (·.1 != lane) } :=
  .of_changes ((eyeMeasure_exec hx hc hl _).trans (congrArg Host.Outcome.next (if_pos rfl))) (updHw_changes s d _)
      ⟨_, updHw_die?_self _ hx, rfl⟩ (by decide)

theorem eyeMeasure_low (hx : s.die? d = some x) (hc : checksRun s d = true) {lane : Nat} (hl : lane ∉ x.hw.lanesRetired) (b : Bool)
    (hn : lowEyes lane x.hw < 3) : Runs (.eyeMeasure d lane ⟨true, b⟩) s [.hw] fun t => ∃ y, t.die? d = some y ∧
      y.hw = { x.hw with eye := (lane, lowEyes lane x.hw + 1) :: x.hw.eye.filter (·.1 != lane) } :=
  .of_changes
      ((eyeMeasure_exec hx hc hl _).trans (congrArg Host.Outcome.next ((if_neg Bool.false_ne_true).trans (if_pos (by omega)))))
          (updHw_changes s d _)
    ⟨_, updHw_die?_self _ hx, rfl⟩ (by decide)

theorem eyeMeasure_retires (hx : s.die? d = some x) (hc : checksRun s d = true) {lane : Nat} (hl : lane ∉ x.hw.lanesRetired)
    (b : Bool)
    (hn : 3 ≤ lowEyes lane x.hw) : Runs (.eyeMeasure d lane ⟨true, b⟩) s (.hw :: .link :: raising) fun t => Pending t d 0x6020 ∧
      ∃ y, t.die? d = some y ∧ y.hw = lessLane lane b { x.hw with eye := x.hw.eye.filter (·.1 != lane) } := by
  have h1 := updHw_die?_self (withEye (x.hw.eye.filter (·.1 != lane))) hx
  obtain ⟨p, y, hy, hw⟩ := retireLane_die h1 lane b
  exact .of_changes
      ((eyeMeasure_exec hx hc hl _).trans (congrArg Host.Outcome.next ((if_neg Bool.false_ne_true).trans (if_neg (by omega)))))
    (((updHw_changes s d _).mono (by decide)).trans (retireLane_changes ..)) ⟨p, y, hy, hw⟩ (by decide)

theorem lessLane_hostWidth (l : Nat) (b : Bool) (h : HwSt) : (lessLane l b h).hostWidth = if b = true ∧ l < 16 then
    min h.hostWidth (widthOf (16 - ((insNat l h.lanesRetired).filter (· < 16)).length)) else h.hostWidth := by
  by_cases hb : b = true ∧ l < 40
  · rw [lessLane, if_pos hb, narrowLink]
    by_cases h16 : l < 16
    · rw [if_pos h16, if_pos ⟨hb.1, h16⟩]; rfl
    · rw [if_neg h16, if_neg fun k => h16 k.2]; rfl
  · rw [lessLane, if_neg hb, if_neg fun k => hb ⟨k.1, by omega⟩]; rfl

theorem lessLane_driveRates (l : Nat) (b : Bool) (h : HwSt) : (lessLane l b h).driveRates =
    if b = true ∧ 16 ≤ l ∧ l < 40 then h.driveRates.set (l - 16) 0 else h.driveRates := by
  by_cases hb : b = true ∧ l < 40
  · rw [lessLane, if_pos hb, narrowLink]
    by_cases h16 : l < 16
    · rw [if_pos h16, if_neg (by omega)]; rfl
    · rw [if_neg h16, if_pos ⟨hb.1, by omega, hb.2⟩]; rfl
  · rw [lessLane, if_neg hb, if_neg fun k => hb ⟨k.1, k.2.2⟩]; rfl

theorem lessLane_lanes (l : Nat) (b : Bool) (h : HwSt) : (lessLane l b h).lanesRetired = insNat l h.lanesRetired := by
  unfold lessLane narrowLink
  repeat' split
  all_goals rfl

end

theorem noted_portMode (d i code e : Nat) (det : Detail) (s : State) : (noted d i code det s).portMode e = s.portMode e := by
  simp [State.portMode, noted, countFault, countFaults]

/-- Settles O47, unit by unit: the fault is counted and raised, and the unit replaced, or taken out with its die. -/
theorem unitsLeaveService : Obligations.UnitsLeaveService := by
  intro d s x hx hc hh
  refine ⟨fun i job hi hj => ⟨fun j l h9 hs => lockstep_swaps hx hc hi hj h9 hs, fun h9 hs => lockstep_yields hx hc hh hi hj h9 hs,
    fun h9 => ?_⟩, fun u p a hu => ⟨fun hp => ?_, fun hp ha hl => gfResidue_replaced hx hc hu hp ha hl,
    fun hp hl => gfResidue_last hx hc hh hu a hp hl, fun hp ha hg => gfResidue_both hx hc hh hu hp ha hg⟩,
    fun u p a hu => ⟨fun hp => ?_, fun hp ha hl => aesCheck_replaced hx hc hu hp ha hl, fun hp hl => aesCheck_last hx hc hh hu a
        hp hl⟩,
    fun u port p a hu => ⟨fun hp => ?_, fun hp ha => datapath_moved hx hc hu hp ha, fun hp ha => ⟨fun m hm h16 => ⟨fun hl => ?_,
      fun hl => ?_⟩, fun h40 => ?_, fun h h41 ho => ⟨fun hl => ?_, fun hl => ?_⟩⟩⟩,
    fun m e n hm hp he => fabricLinkDown_runs hx hc hm hp he, fun lane n l0p hl hn => ⟨eyeMeasure_good hx hc hl l0p, fun k => ?_,
      fun k => ?_⟩⟩
  · subst h9; exact lockstep_spare hx hc hi
  · rw [gfResidue_exec hx hc hu, if_pos hp]
  · rw [aesCheck_exec hx hc hu, if_pos hp]
  · rw [datapath_exec hc hu, if_pos hp]
  · subst hm
    obtain ⟨t, e, ⟨q, y, hy, hw⟩, f⟩ := datapath_replaced hx hc hu hp ha (unitOut_mover h16 _)
        (by simpa [moverWithout, counted] using hl)
    exact ⟨t, e, ⟨q, y, hy, by rw [hw]; rfl⟩, f⟩
  · subst hm
    exact datapath_last hx hc hh hu hp ha (unitOut_mover h16 _) (by simpa [moverWithout, counted] using hl)
  · subst h40; exact datapath_host hx hc hh hu hp ha
  · subst h41 ho
    obtain ⟨t, e, ⟨q, y, hy, hw⟩, f⟩ := datapath_replaced (f := portOut (s.portMode d) port) hx hc hu hp ha
      (by rw [unitOut_port, noted_portMode]) (by simpa [portOut, counted, portLanes] using hl)
    exact ⟨t, e, ⟨q, y, hy, by rw [hw]; rfl⟩, f⟩
  · subst h41 ho
    exact datapath_last (f := portOut (s.portMode d) port) hx hc hh hu hp ha (by rw [unitOut_port, noted_portMode])
      (by simpa [portOut, counted, portLanes] using hl)
  · subst hn; exact eyeMeasure_low hx hc hl l0p k
  · subst hn
    obtain ⟨t, e, ⟨q, y, hy, hw⟩, f⟩ := eyeMeasure_retires hx hc hl l0p k
    exact ⟨t, e, ⟨q, y, hy, by rw [hw, lessLane_lanes], by rw [hw, lessLane_hostWidth], by rw [hw, lessLane_driveRates]⟩, f⟩

end Sys2Proof.Machine
end

section
/-! PROOF. A block lost where the lost block list of its pool is full: the pool goes offline, and the zero-fills of its volumes are
forgotten (R135, R248, R250). MemoriesWatched leaves volumes out of what that step may change. -/

namespace Sys2Proof.Machine

/-! ### A pool that goes offline forgets its zero-fills -/

/-- The package runs as before, and no volume of the pool has a zero-fill in progress. -/
def Forgets (num : Nat) (s t : State) : Prop := t.run = s.run ∧ ∀ v ∈ t.vols, v.pool = num → v.filling = []

theorem Forgets.of_run {num : Nat} {s s' t : State} (h : Forgets num s t) (e : s.run = s'.run) : Forgets num s' t :=
  ⟨h.1.trans e, h.2⟩

theorem Forgets.to {num : Nat} {s t t' : State} (h : Forgets num s t) (hr : t'.run = t.run) (hv : t'.vols = t.vols) :
    Forgets num s t' :=
  ⟨hr.trans h.1, by rw [hv]; exact h.2⟩

theorem foldl_complete_forgets {num : Nat} {s : State} (st : W16) (res : State → Cmd → Res) (l : List Cmd) {t : State}
    (h : Forgets num s t) : Forgets num s (l.foldl (fun s c => complete c.ref st (res s c) s) t) := by
  induction l generalizing t with
  | nil => exact h
  | cons c l ih => exact ih (h.to (complete_run ..) (complete_vols ..))

theorem updIf_noFills {num : Nat} {l : List Vol} :
    ∀ v ∈ updIf (·.pool == num) (fun v => { v with filling := [] }) l, v.pool = num → v.filling = [] := by
  intro v hv hpool
  obtain ⟨w, -, rfl⟩ := List.mem_map.1 hv
  split at hpool
  · next h => rw [if_pos h]
  · next h => exact absurd (by simpa using hpool) h

theorem offlinePool_forgets {s : State} {num : Nat} {p : Pool} (cause : Nat) (hp : s.pool? num = some p) (ho : p.offline = none) :
    Forgets num s (offlinePool num cause s) := by
  have hn : ¬ p.offline.isSome = true := by simp [ho]
  simp only [offlinePool, hp, if_neg hn]
  exact foldl_complete_forgets _ _ _ ⟨raise_run .., updIf_noFills⟩

/-! ### An overflow of the list -/

theorem insLost_length (r : Lost) (l : List Lost) : (insLost r l).length = l.length + 1 := by
  induction l with
  | nil => rfl
  | cons x xs ih =>
    rw [insLost]
    split
    · rfl
    · rw [List.length_cons, ih, List.length_cons]

/-- R247: a range below all of the list, with a gap, is a new entry. -/
theorem lostAdd_length {r : Lost} {l : List Lost} (h : ∀ x ∈ l, r.lba + r.count < x.lba) :
    (lostAdd r l).length = l.length + 1 := by
  rw [lostAdd, insLost_length, List.filter_eq_self.2]
  intro x hx
  have := h x hx
  simp [this]

/-- R248: the overflow of the list takes the pool offline. -/
theorem loseBlocks_forgets {s : State} {num vol lba count : Nat} {p : Pool} (hp : s.pool? num = some p) (ho : p.offline = none)
    (hl : p.lost.length = 65536) (h : ∀ x ∈ p.lost, lba + count < x.lba) : 
    Forgets num s (loseBlocks num vol lba count s) := by
  have hn : (lostAdd ⟨vol, lba, count⟩ p.lost).length = 65537 := by rw [lostAdd_length h, hl]
  have hne : ¬ lostAdd ⟨vol, lba, count⟩ p.lost = p.lost := fun e => by rw [e, hl] at hn; omega
  simp only [loseBlocks, hp, if_neg hne, hn]
  rw [if_pos (Or.inl (by omega))]
  exact (offlinePool_forgets 2 (p := p) (by simpa [State.pool?] using hp) ho).of_run (raise_run ..)

/-! ### The counterexample: a block lost while power fails -/

/-- R247: a full lost block list, of single blocks that lie apart. -/
def fullList : List Lost := (List.range 65536).map fun i => ⟨0, 1000 + 2 * i, 1⟩

theorem fullList_length : fullList.length = 65536 := by simp [fullList]

theorem fullList_above : ∀ x ∈ fullList, 0 + 1 < x.lba := by
  intro x hx
  obtain ⟨i, -, rfl⟩ := List.mem_map.1 hx
  show 0 + 1 < 1000 + 2 * i
  omega

/-- A pool of die 0 with a lost block list. -/
def listPool (l : List Lost) : Pool where
  num := 0
  home := 0
  shadow := none
  geom := ⟨4, 2, 1, 1, 16, true, 0, 0, 1⟩
  age := 10
  members := []
  lost := l
  scrub := ⟨true, 0, false, 0, 0, 0, 0, 0, 0, false⟩

/-- A volume of that pool, with the zero-fill of its first unit in progress. -/
def fillingVol : Vol where
  num := 0
  pool := 0
  tenant := none
  enc := false
  dz := false
  wt := false
  pif := 0
  pitype := 0
  big := true
  blocks := 262144
  x := 262144
  extents := [0]
  zero := [0]
  filling := [0]

/-- R157: a dirty block of the volume without a mirror copy. -/
def singleBlk : CBlk where
  vol := 0
  lba := 0
  data := []
  pi := []
  dirty := true
  mirrored := false
  jsn := 1
  since := 0
  used := 0

/-- A ready package whose power fails, with that pool, volume and block. -/
def losing (l : List Lost) : State :=
  { State.reset with
    run := { RunSt.reset with phase := 8, pfail := some 0 }, pools := [listPool l], vols := [fillingVol], cache := [singleBlk] }

/-- R179: while power fails, nothing waits to be brought forward. -/
theorem settle_pfail {s : State} (h : s.run.pfail.isSome = true) : settle s = s := by
  obtain ⟨n, hn⟩ := Option.isSome_iff_exists.1 h
  simp [settle, State.drives, State.running, hn]

section
variable {l : List Lost} (hlen : l.length = 65536) (habove : ∀ x ∈ l, 0 + 1 < x.lba)
include hlen habove

/-- R398: a dirty unit of one block without a good copy, of a pool whose list is full. -/
theorem loseUnit_forgets {s : State} (d : Nat) (hc : s.cache = [singleBlk]) (hv : s.vols = [fillingVol])
    (hp : s.pools = [listPool l]) : Forgets 0 s (loseUnit d singleBlk s) := by
  have hunit : (s.cache.filter fun x => x.dirty && x.vol == singleBlk.vol && x.jsn == singleBlk.jsn) = [singleBlk] := by
    rw [hc]; rfl
  have hnum : ((s.vol? singleBlk.vol).map (·.pool)).getD 0 = 0 := by rw [State.vol?, hv]; rfl
  have hpool : (s.dropBlocks fun x => [singleBlk].contains x).pool? 0 = some (listPool l) := by
    rw [State.pool?, State.dropBlocks, hp]; rfl
  simp only [loseUnit, hunit, hnum]
  exact (loseBlocks_forgets hpool rfl hlen (lba := 0) (count := 1) habove).to (raise_run ..) (raise_vols ..)

theorem losing_forgets : Forgets 0 (losing l) (ddrBad 0 0 .access (.protectedUnit 0 0 false) (losing l)) := by
  have hrun : ¬ (!checksRun (losing l) 0 || refreshed (losing l) 0) = true := Bool.false_ne_true
  have hblk : (raise 0 (codeOf .access) { unit := 0x50 + 0 } (countFault 0 (mechanismOf .access) (losing l))).cached? 0 0 =
      some singleBlk := by
    rw [State.cached?, raise_cache]; rfl
  have hbad : ¬ (!singleBlk.dirty || (false && singleBlk.mirrored)) = true := by decide
  simp only [ddrBad, if_neg hrun, ddrReact, hblk, if_neg hbad]
  exact (loseUnit_forgets hlen habove 0 (raise_cache ..) (raise_vols ..) (raise_pools ..)).of_run (raise_run ..)

end

/-- Refutes O48: with the lost block list of its pool full, a block lost to a bad DDR word takes the pool offline (R248, R250), and the
zero-fill of the pool's volume is forgotten, though volumes are not among what the step may change. The package is in a power-fail
sequence, so that nothing else goes on in the step. -/
theorem not_memoriesWatched : ¬ Obligations.MemoriesWatched := by
  unfold Obligations.MemoriesWatched
  intro h
  obtain ⟨-, -, -, -, -, -, -, hddr, -⟩ := h 0 (losing fullList) _ rfl rfl rfl
  obtain ⟨-, -, -, -, -, -, hunit⟩ := hddr 0 .access rfl
  obtain ⟨t, ht, -, f⟩ := (hunit 0 0 false singleBlk rfl rfl).2 rfl
  have hvols : t.vols = [fillingVol] := f.same .vols (by decide)
  have hrun : t.run = (losing fullList).run := f.same .run (by decide)
  obtain ⟨hr, hn⟩ := losing_forgets fullList_length fullList_above
  have e : ddrBad 0 0 .access (.protectedUnit 0 0 false) (losing fullList) = t := by
    have e := Host.Outcome.next.inj ht
    rwa [settle_pfail (by rw [hr]; rfl), settle_pfail (by rw [hrun]; rfl)] at e
  rw [e, hvols] at hn
  exact absurd (hn fillingVol (List.mem_singleton_self _) rfl) (by decide)

end Sys2Proof.Machine
end

section
/-! SUPPORT. A pool moves to another die (R353, R364, R386): what the parts of the move change, and that each keeps the pools
where they are but the one that moves. -/

namespace Sys2Proof.Machine

/-! ### What stays of a pool -/

/-- What of a pool no background work changes: its number, its home, whether the partner holds it, its geometry, the age it lets dirty
data reach and its members. -/
def Pool.site (p : Pool) : Nat × Nat × Bool × Geom × Nat × List Member := (p.num, p.home, p.away, p.geom, p.age, p.members)

/-- What of a volume no background work changes: its number and its write policy. -/
def Vol.policy (v : Vol) : Nat × Bool := (v.num, v.wt)

/-- A change of the listed kinds of state that leaves every pool its home, its geometry and its members, and every volume its
write policy. -/
structure Stays (s t : State) (l : List Field) : Prop extends Changes s t l where
  sites : t.pools.map Pool.site = s.pools.map Pool.site
  policies : t.vols.map Vol.policy = s.vols.map Vol.policy

/-- A change that leaves the pools alone. -/
theorem Changes.keeping {s t : State} {l m : List Field} (h : Changes s t m) (p : t.vols.map Vol.policy = s.vols.map Vol.policy)
    (e : .pools ∉ m ∧ ∀ f ∈ m, f ∈ l) : Stays s t l :=
  ⟨h.mono e.2, by rw [show t.pools = s.pools from h.frame.same .pools e.1], p⟩

/-- A change that leaves pools and volumes alone. -/
theorem Changes.stays {s t : State} {l m : List Field} (h : Changes s t m) (e : .vols ∉ m ∧ .pools ∉ m ∧ ∀ f ∈ m, f ∈ l) :
    Stays s t l :=
  h.keeping (by rw [show t.vols = s.vols from h.frame.same .vols e.1]) e.2

theorem Stays.refl (s : State) (l : List Field) : Stays s s l := ⟨.refl .., rfl, rfl⟩

theorem Stays.trans {s t u : State} {l : List Field} (h : Stays s t l) (k : Stays t u l) : Stays s u l :=
  ⟨h.toChanges.trans k.toChanges, k.sites.trans h.sites, k.policies.trans h.policies⟩

theorem Stays.mono {s t : State} {l m : List Field} (h : Stays s t l) (e : ∀ f ∈ l, f ∈ m) : Stays s t m :=
  ⟨h.toChanges.mono e, h.sites, h.policies⟩

theorem Stays.step {s t u : State} {l m : List Field} (h : Stays s t l) (k : Stays t u m) (e : ∀ f ∈ m, f ∈ l) : Stays s u l :=
  h.trans (k.mono e)

/-- One more operation that leaves the pools alone. -/
theorem Stays.also {s t u : State} {l m : List Field} (h : Stays s t l) (k : Changes t u m)
    (e : .vols ∉ m ∧ .pools ∉ m ∧ ∀ f ∈ m, f ∈ l) : Stays s u l :=
  h.trans (k.stays e)

theorem foldl_stays {α : Type} {l : List Field} (f : State → α → State) (h : ∀ s a, Stays s (f s a) l) (s : State) (as : List α) :
    Stays s (as.foldl f s) l := by
  induction as generalizing s with
  | nil => exact .refl ..
  | cons a as ih => exact (h s a).trans (ih _)

theorem updPool_stays (s : State) (n : Nat) {f : Pool → Pool} (h : ∀ p, (f p).site = p.site) : Stays s (s.updPool n f) [.pools] :=
  ⟨updPool_changes .., updIf_map _ _ _ h _, rfl⟩

theorem pool?_site {s : State} (n : Nat) :
    (s.pool? n).map Pool.site = (s.pools.map Pool.site).find? fun x => x.1 == n := by
  rw [List.find?_map]
  rfl

/-- What is known of the sites of all pools is known of that of each. -/
theorem pool?_of_sites {s t : State} (h : t.pools.map Pool.site = s.pools.map Pool.site) {n : Nat} {q : Pool}
    (hq : s.pool? n = some q) :
    ∃ q', t.pool? n = some q' ∧ q'.site = q.site := by
  have k : (t.pool? n).map Pool.site = some q.site := by rw [pool?_site, h, ← pool?_site, hq]; rfl
  simpa using k

theorem poolsOn_site (s : State) (d : Nat) :
    poolsOn s d = ((s.pools.map Pool.site).filter fun x => x.2.1 == d && !x.2.2.1).map (·.1) := by
  rw [poolsOn, List.filter_map, List.map_map]
  rfl

/-! ### The parts of a move -/

theorem startKerf_changes (f b : Nat) (l : List Nat) (s : State) : Changes s (startKerf f b l s) [.pair] := pair_changes ..

theorem noFlight_stays (num : Nat) (s : State) : Stays s (noFlight num s) [.pools] := updPool_stays _ _ fun _ => rfl

theorem stopWork_changes (num : Nat) (s : State) : Changes s (stopWork num s) [.mcmds, .destages, .cmds, .vols] :=
  Frame.changes ⟨fun k hk => by cases k with | mcmds | destages | cmds | vols => simp at hk | _ => rfl⟩ (by decide) (.of_eq rfl)

theorem stopWork_stays (num : Nat) (s : State) : Stays s (stopWork num s) [.mcmds, .destages, .cmds, .vols] :=
  (stopWork_changes num s).keeping (updIf_map Vol.policy _ (fun v : Vol => { v with filling := [] }) (fun _ => rfl) _) (by decide)

theorem programJ_changes (d : Nat) (p : Option Nat) (b : JBody) (s : State) : Changes s (programJ d p b s) [.jr] :=
    updJr_changes ..

theorem dropEntries_changes (d : Nat) (p : JEntry → Bool) (s : State) : Changes s (dropEntries d p s) [.jr] := updJr_changes ..

theorem cache_changes (s : State) (c : List CBlk) : Changes s { s with cache := c } [.cache] :=
  Frame.changes ⟨fun k hk => by cases k with | cache => simp at hk | _ => rfl⟩ (by decide) (.of_eq rfl)

theorem cacheCmds_changes (s : State) (c : List CBlk) (x : List Cmd) : Changes s { s with cache := c, cmds := x }
    [.cache, .cmds] :=
  Frame.changes ⟨fun k hk => by cases k with | cache | cmds => simp at hk | _ => rfl⟩ (by decide) (.of_eq rfl)

/-- R187: the entries that a die programs for a pool it takes, with the JSNs they had. -/
def programmedFor (num h : Nat) (es : List JEntry) (x : State × List (Nat × Nat)) : State × List (Nat × Nat) :=
  es.foldl (fun (s, l) e => (programJ h (some num) (e.body.remap l) s, (e.jsn, nextJsn s h) :: l)) x

theorem programmedFor_changes (num h : Nat) (es : List JEntry) (s : State) (l : List (Nat × Nat)) :
    Changes s (programmedFor num h es (s, l)).1 [.jr] := by
  induction es generalizing s l with
  | nil => exact .refl ..
  | cons e es ih => exact (programJ_changes h (some num) (e.body.remap l) s).trans (ih ..)

theorem moveEntries_changes (num d h : Nat) (gone : Bool) (s : State) :
    Changes s (moveEntries num d h gone s) [.jr, .cache, .cmds] := by
  have k : Changes s (dropEntries d (fun e => e.pool == some num) (programmedFor num h (entriesFor s num d h gone) (s, [])).1)
      [.jr] :=
    (programmedFor_changes ..).step (dropEntries_changes ..) (by decide)
  exact (k.mono (by decide)).step (cacheCmds_changes ..) (by decide)

theorem updReshape_stays (s : State) (num : Nat) (f : Reshape → Reshape) : Stays s (s.updReshape num f) [.pools] :=
  updPool_stays _ _ fun _ => rfl

theorem reshapeCheckpoint_changes (num st reason : Nat) (s : State) : Changes s (reshapeCheckpoint num st reason s) [.jr] := by
  unfold reshapeCheckpoint
  repeat' split
  · exact .refl ..
  · exact .refl ..
  all_goals exact programJ_changes ..

/-- What a pause or a resumption of a reshape changes. -/
abbrev pausing : List Field := .jr :: .pools :: raising

theorem pauseFor_stays (num reason : Nat) (s : State) : Stays s (pauseFor num reason s) pausing := by
  have h : Stays s (reshapeCheckpoint num 2 reason (s.updReshape num fun r => { r with reasons := insNat reason r.reasons }))
      pausing :=
    ((updReshape_stays ..).mono (by decide)).also (reshapeCheckpoint_changes ..) (by decide)
  unfold pauseFor
  split
  · exact h.also (raise_changes ..) (by decide)
  · exact h

theorem resumeFrom_stays (num reason : Nat) (s : State) : Stays s (resumeFrom num reason s) pausing := by
  have h : Stays s (s.updReshape num fun r => { r with reasons := r.reasons.filter (· != reason) }) pausing :=
    (updReshape_stays ..).mono (by decide)
  unfold resumeFrom
  dsimp only
  repeat' split
  · exact h.also (raise_changes ..) (by decide)
  · exact h
  · exact h

theorem boundary_stays (num : Nat) (s : State) : Stays s (boundary num s) pausing := by
  unfold boundary
  repeat' split
  · exact .refl ..
  · exact .refl ..
  · exact (foldl_stays _ (fun s x => pauseFor_stays num x s) ..).trans (foldl_stays _ (fun s x => resumeFrom_stays num x s) ..)

theorem endReason_stays (num : Nat) (s : State) : Stays s (endReason num s) pausing := by
  unfold endReason
  repeat' split
  · exact boundary_stays ..
  · exact .refl ..
  · exact .refl ..

theorem queueStripes_stays (num : Nat) (ns : List Nat) (s : State) : Stays s (queueStripes num ns s) [.pools] :=
  updPool_stays _ _ fun _ => rfl

theorem queueBlocks_stays (bs : List (Nat × Nat)) (s : State) : Stays s (queueBlocks bs s) [.pools] := by
  refine foldl_stays _ (fun s b => ?_) ..
  dsimp only
  repeat' split
  · exact .refl ..
  · exact .refl ..
  · exact queueStripes_stays ..

theorem makeSingle_stays (num : Nat) (s : State) : Stays s (makeSingle num s) [.cache, .pools] :=
  ((cache_changes ..).stays (by decide)).step (queueBlocks_stays ..) (by decide)

theorem makeMirrored_changes (num : Nat) (s : State) : Changes s (makeMirrored num s) [.cache] := by
  unfold makeMirrored
  repeat' split
  · exact .refl ..
  · exact .refl ..
  · exact cache_changes ..

theorem openRepair_changes (p : Pool) (jsn stripe : Nat) (new : Bool) (gen : W32) (method first count : Nat) (s : State) :
    Changes s (openRepair p jsn stripe new gen method first count s) [.destages, .uniq] :=
  Frame.changes ⟨fun k hk => by cases k with | destages | uniq => simp at hk | _ => rfl⟩ (by decide) (.of_eq rfl)

theorem submit_changes (m : MCmd) (s : State) : Changes s (submit m s) [.mcmds, .uniq] :=
  Frame.changes ⟨fun k hk => by cases k with | mcmds | uniq => simp at hk | _ => rfl⟩ (by decide) (.of_eq rfl)

theorem putSector_changes (d : Nat) (p : Pool) (new : Bool) (st o y : Nat) (x : Nat → Sector) (s : State) :
    Changes s (putSector d p new st o y x s) [.mcmds, .uniq] := by
  unfold putSector
  split
  · exact submit_changes ..
  · exact .refl ..

theorem putCoded_changes (d : Nat) (p : Pool) (new : Bool) (st q o gen : Nat) (coded : Bytes) (ys : List Nat) (s : State) :
    Changes s (putCoded d p new st q o gen coded ys s) [.mcmds, .uniq] :=
  foldl_changes _ (fun _ _ => putSector_changes ..) ..

theorem writeTile_changes (p : Pool) (new : Bool) (tile : Nat) (what : Nat → Option (Bytes × Bytes)) (s : State) :
    Changes s (writeTile p new tile what s) [.mcmds, .uniq] :=
  foldl_changes _ (fun _ _ => foldl_changes _ (fun _ _ => foldl_changes _ (fun _ _ => putCoded_changes ..) ..) ..) ..

theorem uniq_changes (s : State) (n : Nat) : Changes s { s with uniq := n } [.uniq] :=
  Frame.changes ⟨fun k hk => by cases k with | uniq => simp at hk | _ => rfl⟩ (by decide) (.of_eq rfl)

theorem writeStep_stays (p : Pool) (k : StepLock) (s : State) : Stays s (writeStep p k s) [.mcmds, .uniq, .pools] :=
  (((uniq_changes ..).stays (by decide)).also (writeTile_changes ..) (by decide)).step (updPool_stays _ _ fun _ => rfl) (by decide)

theorem redoStep_stays (num : Nat) (s : State) : Stays s (redoStep num s) (.mcmds :: .uniq :: .pools :: raising) := by
  unfold redoStep
  repeat' split
  · exact .refl ..
  · exact .refl ..
  · dsimp only
    split
    · exact .refl ..
    · exact ((writeStep_stays ..).mono (by decide)).also (raise_changes ..) (by decide)

/-- What taking up the open intents of a pool changes. -/
abbrev redoing : List Field := .destages :: .mcmds :: .uniq :: .pools :: raising

theorem repairIntents_stays (num : Nat) (s : State) : Stays s (repairIntents num s) redoing := by
  unfold repairIntents
  split
  · exact .refl ..
  · refine Stays.step (foldl_stays (l := redoing) _ (fun s e => ?_) ..) (redoStep_stays ..) (by decide)
    repeat' split
    · exact .refl ..
    · exact (openRepair_changes ..).stays (by decide)
    · exact .refl ..

/-! ### The end of a kerf -/

theorem gapOver_changes (nums : List Nat) (n : Nat) (s : State) : Changes s (gapOver nums n s) [.cmds, .pair] :=
  Frame.changes ⟨fun k hk => by cases k with | cmds | pair => simp at hk | _ => rfl⟩ (by decide) (.of_eq rfl)

theorem countKerf_changes (n : Nat) (s : State) : Changes s (countKerf n s) [.pair] := pair_changes ..

theorem kerfEnd_changes (nums : List Nat) (s : State) : Changes s (kerfEnd nums s) [.cmds, .pair] := by
  unfold kerfEnd
  split
  · exact (pair_changes ..).mono (by decide)
  · exact (((pair_changes ..).mono (by decide)).step (countKerf_changes ..) (by decide)).step (gapOver_changes ..) (by decide)

theorem kerfOver_changes (nums : List Nat) (s : State) : Changes s (kerfOver nums s) [.cmds, .pair] := by
  unfold kerfOver
  dsimp only
  split
  · exact kerfEnd_changes ..
  · exact ((pair_changes ..).mono (by decide)).step (gapOver_changes ..) (by decide)

/-! ### The move -/

/-- R364: pool n on its new home. -/
def rehomed (n h : Nat) (x : Nat × Nat × Bool × Geom × Nat × List Member) : Nat × Nat × Bool × Geom × Nat × List Member :=
  if x.1 == n then (x.1, h, x.2.2) else x

theorem settleHome_changes (num h : Nat) (s : State) : Changes s (settleHome num h s) [.pools, .cmds] :=
  ((updPool_changes ..).mono (by decide)).step (cmds_changes ..) (by decide)

theorem settleHome_sites (num h : Nat) (s : State) :
    (settleHome num h s).pools.map Pool.site = (s.pools.map Pool.site).map (rehomed num h) := by
  show (updIf _ _ s.pools).map Pool.site = _
  rw [updIf, List.map_map, List.map_map]
  refine List.map_congr_left fun p _ => ?_
  show Pool.site (if p.num == num then _ else p) = if p.num == num then _ else p.site
  by_cases hn : (p.num == num) = true
  · rw [if_pos hn, if_pos hn]
    rfl
  · rw [if_neg hn, if_neg hn]

/-- What the move of a pool to another die changes. -/
abbrev moving : List Field := .cache :: .destages :: .jr :: .mcmds :: .cmds :: .pools :: .uniq :: .vols :: raising

theorem takePool_changes (num d h : Nat) (s : State) : Changes s (takePool num d h false s) moving ∧
    (takePool num d h false s).pools.map Pool.site = (s.pools.map Pool.site).map (rehomed num h) := by
  have h1 : Stays s (moveEntries num d h false (stopWork num (noFlight num s))) moving :=
    (((noFlight_stays ..).mono (by decide)).step (stopWork_stays ..) (by decide)).also (moveEntries_changes ..) (by decide)
  have h2 : Changes s (settleHome num h (moveEntries num d h false (stopWork num (noFlight num s)))) moving :=
    h1.toChanges.step (settleHome_changes ..) (by decide)
  have e2 := settleHome_sites num h (moveEntries num d h false (stopWork num (noFlight num s)))
  rw [h1.sites] at e2
  have fin {t : State} (k : Stays (settleHome num h (moveEntries num d h false (stopWork num (noFlight num s)))) t moving) :
      Changes s t moving ∧ t.pools.map Pool.site = (s.pools.map Pool.site).map (rehomed num h) :=
    ⟨h2.trans k.toChanges, k.sites.trans e2⟩
  unfold takePool
  simp only [Bool.false_eq_true, if_false]
  split
  · exact fin ((((pauseFor_stays ..).mono (by decide)).step (makeSingle_stays ..) (by decide)).step (repairIntents_stays ..)
        (by decide))
  · exact fin (((makeSingle_stays ..).mono (by decide)).step (repairIntents_stays ..) (by decide))

end Sys2Proof.Machine
end

section
/-! PROOF. Dies that leave: a pool of a retiring die moves, a die yields, the lead role moves. -/

namespace Sys2Proof.Machine

/-! ### A pool of a retiring die moves (R386) -/

theorem find?_rehomed (n h : Nat) (l : List (Nat × Nat × Bool × Geom × Nat × List Member)) :
    (l.map (rehomed n h)).find? (·.1 == n) = (l.find? (·.1 == n)).map (rehomed n h) := by
  rw [List.find?_map]
  congr 2
  funext x
  simp only [Function.comp, rehomed]
  split <;> rfl

/-- R364: the pool that has moved, on its new home. -/
theorem pool?_rehomed {s t : State} {n h : Nat} (e : t.pools.map Pool.site = (s.pools.map Pool.site).map (rehomed n h)) {q : Pool}
    (hq : s.pool? n = some q) : ∃ q', t.pool? n = some q' ∧ q'.home = h ∧ q'.geom = q.geom ∧ q'.members = q.members := by
  have k : (t.pool? n).map Pool.site = some (rehomed n h q.site) := by
    rw [pool?_site, e, find?_rehomed, ← pool?_site, hq]; rfl
  obtain ⟨q', hq', hs⟩ := Option.map_eq_some_iff.1 k
  rw [rehomed, if_pos (by simp [Pool.site, pool?_num hq])] at hs
  simp only [Pool.site, Prod.mk.injEq] at hs
  obtain ⟨-, hhome, -, hgeom, -, hmembers⟩ := hs
  exact ⟨q', hq', hhome, hgeom, hmembers⟩

/-- Another pool of the die stays there. -/
theorem mem_poolsOn_rehomed {s t : State} {n h d k : Nat} (e : t.pools.map Pool.site = (s.pools.map Pool.site).map (rehomed n h))
    (hk : k ∈ poolsOn s d) (hn : k ≠ n) : k ∈ poolsOn t d := by
  rw [poolsOn_site, List.mem_map] at hk ⊢
  obtain ⟨x, hx, rfl⟩ := hk
  obtain ⟨hmem, hd⟩ := List.mem_filter.1 hx
  have hr : rehomed n h x = x := if_neg (by simpa using hn)
  exact ⟨x, List.mem_filter.2 ⟨by rw [e]; exact List.mem_map.2 ⟨x, hmem, hr⟩, hd⟩, rfl⟩

/-- R386: what the move of a pool of a retiring die makes of the state, but for the end of the retirement. -/
def movedPool (num h : Nat) (p : Pool) (s : State) : State :=
  endReason num (kerfOver [num] (makeMirrored num (takePool num p.home h false (startKerf s.clk.tick 2 [num] s))))

/-- What that changes. -/
abbrev migrating : List Field := .pair :: moving

theorem movedPool_changes (num h : Nat) (p : Pool) (s : State) : Changes s (movedPool num h p s) migrating ∧
    (movedPool num h p s).pools.map Pool.site = (s.pools.map Pool.site).map (rehomed num h) := by
  obtain ⟨c, e⟩ := takePool_changes num p.home h (startKerf s.clk.tick 2 [num] s)
  have c1 : Changes s (takePool num p.home h false (startKerf s.clk.tick 2 [num] s)) migrating :=
    ((startKerf_changes ..).mono (by decide)).step c (by decide)
  have k : Stays (takePool num p.home h false (startKerf s.clk.tick 2 [num] s)) (movedPool num h p s) migrating :=
    (((makeMirrored_changes ..).stays (by decide)).also (kerfOver_changes ..) (by decide)).step (endReason_stays ..) (by decide)
  exact ⟨c1.trans k.toChanges, k.sites.trans e⟩

theorem dieRetireMigrated_eq {s : State} {n h : Nat} {q : Pool} (hr : s.running = true) (hq : s.pool? n = some q)
    (ha : q.away = false) (ht : (s.die? q.home).any (·.retiring) = true) (hc : q.shadow.any s.alive = true → copiedOut s q = true)
    (hm : moveTo s q = some h) : dieRetireMigrated n s = finishRetire q.home (movedPool n h q s) := by
  have hg : ¬ (!s.running || q.away || !((s.die? q.home).any (·.retiring)) || (q.shadow.any s.alive && !copiedOut s q)) = true
      := by
    cases hs : q.shadow.any s.alive <;> simp_all
  simp only [dieRetireMigrated, hq, if_neg hg, hm]
  rfl

/-- R386: while it has a pool left the die goes on retiring. -/
theorem finishRetire_waits {s : State} {d k : Nat} (h : k ∈ poolsOn s d) : finishRetire d s = s := by
  have hne : (poolsOn s d).isEmpty = false := by simpa using List.ne_nil_of_mem h
  simp [finishRetire, hne]

theorem retiring_of_core {x y : DieSt} (h : y.core = x.core) : y.retiring = x.retiring :=
  (congrArg DieSt.retiring h : y.core.retiring = x.core.retiring)

theorem retiring_kept {s t : State} {l : List Field} (f : Frame s t l) (hl : .health ∉ l) {d : Nat}
    (h : (s.die? d).any (·.retiring) = true) : (t.die? d).any (·.retiring) = true := by
  obtain ⟨x, hx, hr⟩ := (Option.any_eq_true ..).1 h
  obtain ⟨y, hy, e⟩ := die_of_map (f.same .health hl) hx
  rw [hy, Option.any_some, retiring_of_core e]
  exact hr

theorem poolMoves {s : State} {n h : Nat} {q : Pool} (hr : s.running = true) (hq : s.pool? n = some q) (ha : q.away = false)
    (ht : (s.die? q.home).any (·.retiring) = true) (hc : q.shadow.any s.alive = true → copiedOut s q = true)
    (hm : moveTo s q = some h) (hk : ∃ k ∈ poolsOn s q.home, k ≠ n) :
    RunsOn (.dieRetireMigrated n) s (.cache :: .destages :: .jr :: .pair :: .pools :: .uniq :: .vols :: ending) fun t =>
      (∃ q', t.pool? n = some q' ∧ q'.home = h ∧ q'.geom = q.geom ∧ q'.members = q.members) ∧ t.run = s.run ∧
      (t.die? q.home).any (·.retiring) = true := by
  obtain ⟨c, e⟩ := movedPool_changes n h q s
  obtain ⟨k, hk, hne⟩ := hk
  have ex : exec (.dieRetireMigrated n) s = .next (settle (movedPool n h q s)) := by
    rw [← finishRetire_waits (mem_poolsOn_rehomed e hk hne), ← dieRetireMigrated_eq hr hq ha ht hc hm]
    rfl
  exact .of_changes ex c ⟨pool?_rehomed e hq, c.frame.same .run (by decide), retiring_kept c.frame (by decide) ht⟩ (by decide)

/-! ### A die yields of itself (R35, R354) -/

theorem dieSelfRetire_yields {s : State} {d : Nat} {x : DieSt} (ho : s.on = true) (hx : s.die? d = some x) (ha : x.alive = true)
    (hh : s.run.halted = false) (hc : 2 ≤ x.hw.cut) (hp : 2 < s.run.phase) : Runs (.dieSelfRetire d) s yielding (Yields d 4) := by
  have e : exec (.dieSelfRetire d) s = .next (dieYield d 0x04 s) := if_pos (by simp [ho, hp, hx, hc])
  exact .of_changes e (dieYield_changes ..) (dieYield_yields hx ha hh) (fun _ h => h)

/-- R354: a hold that is not up. -/
def holdLow (x : DieSt) : DieSt := { x with hold := false }

theorem dieHoldDrop_exec {s : State} {d : Nat} {x : DieSt} (ho : s.on = true) (hx : s.die? d = some x) (hu : x.hold = true) :
    exec (.dieHoldDrop d) s = if 2 ≤ x.unrefreshed then .next (s.updDie d holdLow) else .next
        (dieYield d 0x0D (s.updDie d holdLow)) := by
  show execDieHoldDrop d s = _
  have hg : ¬ (!x.hold || !s.on) = true := by simp [hu, ho]
  simp only [execDieHoldDrop, hx, if_neg hg]
  rfl

theorem holdLow_changes (s : State) (d : Nat) : Changes s (s.updDie d holdLow) [.health] :=
  updDie_changes _ _ _ fun _ => ⟨rfl, rfl, rfl, rfl, rfl, rfl, rfl⟩

theorem dieHoldDrop_drops {s : State} {d : Nat} {x : DieSt} (ho : s.on = true) (hx : s.die? d = some x) (hu : x.hold = true)
    (hn : 2 ≤ x.unrefreshed) : Runs (.dieHoldDrop d) s [.health] fun t => t.die? d = some { x with hold := false } := by
  have e := dieHoldDrop_exec ho hx hu
  rw [if_pos hn] at e
  exact .of_changes e (holdLow_changes ..) (updDie_die?_self holdLow hx) (fun _ h => h)

theorem dieHoldDrop_yields {s : State} {d : Nat} {x : DieSt} (ho : s.on = true) (hx : s.die? d = some x) (ha : x.alive = true)
    (hh : s.run.halted = false) (hu : x.hold = true) (hn : x.unrefreshed < 2) :
    Runs (.dieHoldDrop d) s yielding (Yields d 0x0D) := by
  have e := dieHoldDrop_exec ho hx hu
  rw [if_neg (by omega)] at e
  exact .of_changes e (((holdLow_changes s d).mono (by decide)).step (dieYield_changes ..) (by decide))
    (dieYield_yields (updDie_die?_self holdLow hx) ha hh) (fun _ h => h)

/-! ### The delivery of a snapshot (R451, R452) -/

theorem Puts.later {s t u : State} {o : Out} (h : Puts s t o) (g : Grows t u) : Puts s u o := by
  obtain ⟨a, b, e⟩ := h
  obtain ⟨c, k⟩ := g
  exact ⟨a, b ++ c, by rw [k, e]; simp⟩

theorem Puts.earlier {s t u : State} {o : Out} (h : Puts t u o) (g : Grows s t) : Puts s u o := by
  obtain ⟨a, b, e⟩ := h
  obtain ⟨c, k⟩ := g
  exact ⟨c ++ a, b, by rw [e, k]; simp⟩

/-- R451: the records of a snapshot put out. -/
def putMeters (l : List (Nat × Bytes)) (s : State) : State := l.foldl (fun s x => s.emit (.meter x.1 x.2)) s

theorem putMeters_changes (l : List (Nat × Bytes)) (s : State) : Changes s (putMeters l s) [.out] :=
  foldl_changes _ (fun _ _ => emit_changes ..) ..

theorem putMeters_puts {l : List (Nat × Bytes)} {s : State} {x : Nat × Bytes} (h : x ∈ l) : Puts s (putMeters l s)
    (.meter x.1 x.2) := by
  induction l generalizing s with
  | nil => cases h
  | cons y l ih =>
    obtain rfl | h := List.mem_cons.1 h
    · exact .of_emit rfl (putMeters_changes l _).grows
    · exact (ih h).earlier (emit_changes s _).grows

/-- R451: what the delivery of k records in a ring of n changes of the metering. -/
def noteDelivery (k n : Nat) (m : MeterSt) : MeterSt :=
  { m with dhead := (m.dhead + k) % (2 * n), skipped := 0, changed := false, moved := false }

/-- R451: a snapshot delivered into a ring of n records, with its message. -/
def delivered (n : Nat) (h : Nat × List (Nat × Meters)) (s : State) : State :=
  let s1 := putMeters (snapshot s n h) s
  sendMsix s.id.lead 0 s.meter.vector { s1 with meter := noteDelivery (h.2.length + 1) n s1.meter }

/-- R452: a snapshot skipped. -/
def skipped (s : State) : State :=
  raisePkg 0x7021 {} { s with meter := { s.meter with skipped := satAdd top32 s.meter.skipped 1 } }

theorem meter_changes (s : State) (m : MeterSt) : Changes s { s with meter := m } [.meter] :=
  Frame.changes ⟨fun k hk => by cases k with | meter => simp at hk | _ => rfl⟩ (by decide) (.of_eq rfl)

theorem delivered_changes (n : Nat) (h : Nat × List (Nat × Meters)) (s : State) :
    Changes s (delivered n h s) [.out, .meter, .msixSent] :=
  (((putMeters_changes ..).mono (by decide)).step (meter_changes ..) (by decide)).step (sendMsix_changes ..) (by decide)

theorem delivered_meter (n : Nat) (h : Nat × List (Nat × Meters)) (s : State) :
    (delivered n h s).meter = noteDelivery (h.2.length + 1) n s.meter := by
  rw [delivered, (sendMsix_changes ..).frame.same .meter (by decide)]
  exact congrArg (noteDelivery (h.2.length + 1) n) ((putMeters_changes (snapshot s n h) s).frame.same .meter (by decide))

theorem delivered_puts {n : Nat} {h : Nat × List (Nat × Meters)} {s : State} {x : Nat × Bytes} (hx : x ∈ snapshot s n h) :
    Puts s (delivered n h s) (.meter x.1 x.2) :=
  (putMeters_puts hx).later ((meter_changes ..).grows.trans (sendMsix_changes ..).grows)

theorem skipped_changes (s : State) : Changes s (skipped s) (.meter :: raising) :=
  ((meter_changes ..).mono (by decide)).step (raisePkg_changes ..) (by decide)

section
variable {late : Bool} {h : Nat × List (Nat × Meters)} {s : State} {b : W64} {n : Nat}

theorem deliver_none (hr : s.meter.ring = none) : deliver late h s = s := by
  simp only [deliver, hr]

theorem deliver_ring (hr : s.meter.ring = some (b, n)) : deliver late h s =
    if n - distance n (meterHeadPos n s.meter.head) s.meter.dhead < h.2.length + 1 then skipped s
    else if late then raisePkg 0x7020 {} (delivered n h s) else delivered n h s := by
  unfold deliver
  split
  · next e => simp [hr] at e
  · next e =>
    rw [hr] at e
    cases e
    rfl

theorem deliver_full (hr : s.meter.ring = some (b, n)) (hf : n - distance n (meterHeadPos n s.meter.head) s.meter.dhead <
    h.2.length + 1) :
    deliver late h s = skipped s := by
  rw [deliver_ring hr, if_pos hf]

theorem deliver_room (hr : s.meter.ring = some (b, n)) (hf : h.2.length + 1 ≤ n - distance n (meterHeadPos n s.meter.head)
    s.meter.dhead) :
    deliver late h s = if late then raisePkg 0x7020 {} (delivered n h s) else delivered n h s := by
  rw [deliver_ring hr, if_neg (Nat.not_lt.2 hf)]

theorem deliver_changes : Changes s (deliver late h s) (.meter :: raising) := by
  cases hr : s.meter.ring with
  | none => rw [deliver_none hr]; exact .refl ..
  | some y =>
    obtain ⟨b, n⟩ := y
    obtain hf | hf := Nat.lt_or_ge (n - distance n (meterHeadPos n s.meter.head) s.meter.dhead) (h.2.length + 1)
    · rw [deliver_full hr hf]
      exact skipped_changes ..
    · rw [deliver_room hr hf]
      split
      · exact ((delivered_changes ..).mono (by decide)).step (raisePkg_changes ..) (by decide)
      · exact (delivered_changes ..).mono (by decide)

/-- What is held of an earlier boundary stays held. -/
theorem deliver_held : (deliver late h s).meter.held = s.meter.held := by
  cases hr : s.meter.ring with
  | none => rw [deliver_none hr]
  | some y =>
    obtain ⟨b, n⟩ := y
    rw [deliver_ring hr]
    repeat' split
    · rw [skipped, raisePkg, raise_meter]
    · rw [raisePkg, raise_meter, delivered_meter]; rfl
    · rw [delivered_meter]; rfl

theorem deliver_puts (hr : s.meter.ring = some (b, n)) (hf : h.2.length + 1 ≤ n - distance n (meterHeadPos n s.meter.head)
    s.meter.dhead)
    {x : Nat × Bytes} (hx : x ∈ snapshot s n h) : Puts s (deliver late h s) (.meter x.1 x.2) := by
  rw [deliver_room hr hf]
  split
  · exact (delivered_puts hx).later (raisePkg_changes ..).grows
  · exact delivered_puts hx

end

/-! ### The lead role moves (R37, R38, R423) -/

/-- R37, R38: die d as lead die, before the old lead die's snapshot is delivered. -/
def leadMoved (d : Nat) (s : State) : State :=
  raisePkg 0x0045 { arg0 := s.id.lead, arg1 := d }
    { s with id := { s.id with lead := d }, log := { s.log with indexing := true },
             meter := { s.meter with moved := s.meter.held.isSome, held := none } }

/-- R38: with the snapshot that the old lead die held. -/
def handedOver (d : Nat) (s : State) : State :=
  match s.meter.held with
  | some h => deliver false h (leadMoved d s)
  | none => leadMoved d s

/-- R37, R38: the role itself. -/
theorem leadRole_changes (s : State) (i : IdentSt) (l : LogSt) (m : MeterSt) :
    Changes s { s with id := i, log := l, meter := m } [.id, .log, .meter] :=
  Frame.changes ⟨fun k hk => by cases k with | id | log | meter => simp at hk | _ => rfl⟩ (by decide) (.of_eq rfl)

theorem leadMoved_changes (d : Nat) (s : State) : Changes s (leadMoved d s) (.id :: .log :: .meter :: raising) :=
  ((leadRole_changes ..).mono (by decide)).step (raisePkg_changes ..) (by decide)

theorem handedOver_changes (d : Nat) (s : State) : Changes (leadMoved d s) (handedOver d s) (.meter :: raising) := by
  unfold handedOver
  split
  · exact deliver_changes
  · exact .refl ..

theorem leadMoved_meter (d : Nat) (s : State) :
    (leadMoved d s).meter = { s.meter with moved := s.meter.held.isSome, held := none } := raise_meter ..

/-- R38: no snapshot is held any more. -/
theorem handedOver_held (d : Nat) (s : State) : (handedOver d s).meter.held = none := by
  have hm := congrArg MeterSt.held (leadMoved_meter d s)
  unfold handedOver
  split
  · exact deliver_held.trans hm
  · exact hm

theorem snapshot_congr {s t : State} {n : Nat} {h : Nat × List (Nat × Meters)} {m : MeterSt}
    (hm : t.meter = { m with held := none }) (hp : t.id.pkgid = s.id.pkgid) : snapshot t n h = snapshot { s with meter := m } n
        h := by
  simp only [snapshot, hm, hp]

theorem aliveDies_die? {s : State} {d : Nat} (h : d ∈ s.aliveDies) : (s.die? d).isSome := by
  have ha : s.alive d = true := (List.mem_filter.1 h).2
  obtain ⟨x, hx, -⟩ := (Option.any_eq_true ..).1 ha
  rw [hx]
  rfl

theorem leadDieMove_exec {s : State} {d : Nat} (hd : s.aliveDies.head? = some d) (ho : s.on = true)
    (hl : s.alive s.id.lead = false)
    (hp : 2 < s.run.phase) : exec .leadDieMove s = .next (handedOver d s) := by
  show execLeadDieMove s = _
  have hg : (s.on && !s.alive s.id.lead && decide (2 < s.run.phase)) = true := by simp [ho, hl, hp]
  unfold execLeadDieMove
  cases hal : s.aliveDies with
  | nil => simp [hal] at hd
  | cons e l =>
    obtain rfl : e = d := by simpa [hal] using hd
    simp only [if_pos hg]
    rfl

theorem leadMoves {s : State} {d : Nat} (hd : s.aliveDies.head? = some d) (ho : s.on = true) (hl : s.alive s.id.lead = false)
    (hp : 2 < s.run.phase) : Runs .leadDieMove s (.id :: .log :: .meter :: raising) fun t => t.id = { s.id with lead := d } ∧
      t.log = { s.log with indexing := true } ∧ t.meter.held = none ∧ Pending t d 0x0045 ∧
      ∀ h b n, s.meter.held = some h → s.meter.ring = some (b, n) →
        h.2.length + 1 ≤ n - distance n (meterHeadPos n s.meter.head) s.meter.dhead →
        ∀ x ∈ snapshot { s with meter := { s.meter with moved := true } } n h, Puts s t (.meter x.1 x.2) := by
  have c := leadMoved_changes d s
  have k := handedOver_changes d s
  refine .of_changes (leadDieMove_exec hd ho hl hp) (c.step k (by decide)) ⟨?_, ?_, ?_, ?_, ?_⟩ (fun _ h => h)
  · rw [k.frame.same .id (by decide)]
    exact raise_id ..
  · rw [k.frame.same .log (by decide)]
    exact raise_log ..
  · exact handedOver_held d s
  · exact k.pend _ _ (raise_sets _ _ (aliveDies_die? (List.mem_of_head? hd)))
  · intro h b n hh hr hf x hx
    have hm : (leadMoved d s).meter = { s.meter with moved := true, held := none } := by rw [leadMoved_meter, hh]; rfl
    have he : handedOver d s = deliver false h (leadMoved d s) := by simp only [handedOver, hh]
    rw [he]
    refine (deliver_puts (b := b) (n := n) (by rw [hm]; exact hr) (by rw [hm]; exact hf) ?_).earlier c.grows
    rw [snapshot_congr (s := s) (m := { s.meter with moved := true }) hm (by rw [leadMoved, raisePkg_id])]
    exact hx

/-- Settles O40, part by part: the move of a pool keeps every other pool and the die's own marks, a yield of a die is that of `dieYield_yields`,
and the lead role's move hands over what the old lead die held. -/
theorem diesLeave : Obligations.DiesLeave := by
  unfold Obligations.DiesLeave
  intro s ho
  refine ⟨fun n h q hr hq ha ht hc hm hk _ => poolMoves hr hq ha ht hc hm hk, fun d x hx ha hh
      => ⟨fun hc hp => ?_, fun hu => ⟨?_, ?_⟩⟩,
    fun d hd hl hp => leadMoves hd ho hl hp, ?_⟩
  · obtain ⟨t, e, ⟨⟨y, hy, h1, h2, h3, h4, h5⟩, hp⟩, f⟩ := dieSelfRetire_yields ho hx ha hh hc hp
    exact ⟨t, e, ⟨y, hy, h1, h2, h3, h4, h5, hp⟩, f⟩
  · exact dieHoldDrop_drops ho hx hu
  · intro hn
    obtain ⟨t, e, ⟨⟨y, hy, -, h2, h3, h4, -⟩, hp⟩, f⟩ := dieHoldDrop_yields ho hx ha hh hu hn
    exact ⟨t, e, ⟨y, hy, h2, h3, h4, hp⟩, f⟩
  · exact .of_changes rfl (log_changes ..) rfl (fun _ h => h)

end Sys2Proof.Machine
end

section
/-! SUPPORT. What lost blocks, offline pools, failed members and evictions change (R160, R228, R245 to R250), and what the
journal of a die keeps as entries come and go (R169, R170). -/

namespace Sys2Proof.Machine

/-! ### The read cache shrinks (R30, R160) -/

theorem dropBlocks_changes (s : State) (p : CBlk → Bool) : Changes s (s.dropBlocks p) [.cache] := cache_changes ..

theorem evictOne_changes (d : Nat) (s : State) : Changes s (evictOne d s) [.cache] := by
  unfold evictOne
  dsimp only
  repeat' split
  · exact .refl ..
  · exact dropBlocks_changes ..
  · exact .refl ..

theorem evict_changes (k d n : Nat) (s : State) : Changes s (evict k d n s) [.cache] := by
  induction k generalizing s with
  | zero => exact .refl ..
  | succ k ih =>
    rw [evict]
    split
    · exact .refl ..
    · exact (evictOne_changes ..).trans (ih _)

/-- R30: channel ch used no more. -/
def channelOut (ch : Nat) (h : HwSt) : HwSt := { h with ddr := h.ddr.set ch false }

theorem spareChannel_changes (d ch : Nat) (s : State) : Changes (s.updHw d (channelOut ch)) (spareChannel d ch s)
    (.cache :: raising) :=
  ((evict_changes ..).mono (by decide)).step (raise_changes ..) (by decide)

/-! ### A pool offline, blocks lost -/

/-- R250: the pool takes no destage any more, and what was under way on it ends. -/
def shutPool (num : Nat) (s : State) : State :=
  { s with destages := s.destages.filter (·.pool != num), cmds := s.cmds.map (flushOffline s num),
           vols := updIf (·.pool == num) (fun v => { v with filling := [] }) s.vols }

/-- R250: a pool offline with a cause. -/
def Pool.offlineFor (cause : Nat) (p : Pool) : Pool := { p with offline := some cause, queued := [] }

/-- R250: the commands that wait for a destage of a pool complete with 0601h. -/
def failDurable (num : Nat) (s : State) : State :=
  (s.cmds.filter fun c => c.stage == .durable && (s.vol? c.entry.vol.toNat).any (·.pool == num)).foldl (fun s c =>
    let n := ((s.vol? c.entry.vol.toNat).map fun v => writeNdone v c).getD 0
    complete c.ref 0x0601 { ndone := n, part := decide (0 < n) } s) s

theorem offlinePool_eq {s : State} {num : Nat} {p : Pool} (cause : Nat) (hp : s.pool? num = some p) (ho : p.offline = none) :
    offlinePool num cause s = failDurable num (shutPool num
      (raise p.home 0x3130 { pool := num, cause := cause } (s.updPool num (Pool.offlineFor cause)))) := by
  have hn : ¬ p.offline.isSome = true := by simp [ho]
  simp only [offlinePool, hp, if_neg hn]
  rfl

/-- What taking a pool offline changes. -/
abbrev goingOffline : List Field := .destages :: .pools :: .vols :: ending

theorem shutPool_changes (num : Nat) (s : State) : Changes s (shutPool num s) [.destages, .cmds, .vols] :=
  Frame.changes ⟨fun k hk => by cases k with | destages | cmds | vols => simp at hk | _ => rfl⟩ (by decide) (.of_eq rfl)

theorem shutPool_stays (num : Nat) (s : State) : Stays s (shutPool num s) [.destages, .cmds, .vols] :=
  (shutPool_changes num s).keeping (updIf_map Vol.policy _ (fun v : Vol => { v with filling := [] }) (fun _ => rfl) _) (by decide)

theorem failDurable_changes (num : Nat) (s : State) : Changes s (failDurable num s) ending :=
  foldl_changes _ (fun _ _ => complete_changes ..) ..

theorem offlinePool_stays (num cause : Nat) (s : State) : Stays s (offlinePool num cause s) goingOffline := by
  cases hp : s.pool? num with
  | none => simp only [offlinePool, hp]; exact .refl ..
  | some p =>
    cases ho : p.offline with
    | some c =>
      have hn : p.offline.isSome = true := by simp [ho]
      simp only [offlinePool, hp, if_pos hn]
      exact .refl ..
    | none =>
      rw [offlinePool_eq cause hp ho]
      exact ((((updPool_stays s num (f := Pool.offlineFor cause) fun _ => rfl).mono (by decide)).also (raise_changes ..)
          (by decide)).step (shutPool_stays ..) (by decide)).also (failDurable_changes ..) (by decide)

/-- What entering lost blocks changes. -/
abbrev losingBlocks : List Field := .jr :: goingOffline

/-- R247: a pool with a new lost block list, not yet written. -/
def Pool.withLost (l : List Lost) (p : Pool) : Pool := { p with lost := l, listDirty := true }

theorem withLost_stays (s : State) (n : Nat) (l : List Lost) : Stays s (s.updPool n (Pool.withLost l)) [.pools] :=
  updPool_stays _ _ fun _ => rfl

theorem loseBlocks_stays (num vol lba count : Nat) (s : State) : Stays s (loseBlocks num vol lba count s) losingBlocks := by
  unfold loseBlocks
  dsimp only
  repeat' split
  · exact .refl ..
  · exact .refl ..
  · exact ((raise_changes ..).stays (by decide)).step (offlinePool_stays ..) (by decide)
  · exact (((withLost_stays ..).mono (by decide)).also (programJ_changes ..) (by decide)).also (raise_changes ..) (by decide)

theorem loseMany_stays (num : Nat) (l : List (Nat × Nat)) (s : State) : Stays s (loseMany num l s) losingBlocks :=
  foldl_stays _ (fun _ _ => loseBlocks_stays ..) ..

theorem loseDirtyOf_stays (gone : CBlk → Bool) (num : Nat) (s : State) : Stays s (loseDirtyOf gone num s)
    (.cache :: losingBlocks) := by
  unfold loseDirtyOf
  dsimp only
  split
  · exact ((dropBlocks_changes ..).stays (by decide)).step (loseMany_stays ..) (by decide)
  · exact (((dropBlocks_changes ..).stays (by decide)).step (loseMany_stays ..) (by decide)).also (raise_changes ..) (by decide)

theorem retireCommits_changes (s : State) : Changes s (retireCommits s) [.jr] :=
  foldl_changes _ (fun _ _ => dropEntries_changes ..) ..

theorem loseDirty_stays (d : Nat) (s : State) : Stays s (loseDirty d s) (.cache :: losingBlocks) :=
  foldl_stays _ (fun _ _ => (((dropBlocks_changes ..).stays (by decide)).step (loseMany_stays ..) (by decide)).also
    (retireCommits_changes ..) (by decide)) ..

/-! ### Failed members (R228, R250) -/

/-- What of a pool says whether the package serves it: its number, and whether the partner holds it. -/
def Pool.side (p : Pool) : Nat × Bool := (p.num, p.away)

/-- A change that leaves every pool on its side. -/
structure Sides (s t : State) (l : List Field) : Prop extends Changes s t l where
  sides : t.pools.map Pool.side = s.pools.map Pool.side

theorem Sides.refl (s : State) (l : List Field) : Sides s s l := ⟨.refl .., rfl⟩

theorem Sides.trans {s t u : State} {l : List Field} (h : Sides s t l) (k : Sides t u l) : Sides s u l :=
  ⟨h.toChanges.trans k.toChanges, k.sides.trans h.sides⟩

theorem Stays.withSides {s t : State} {l m : List Field} (h : Stays s t m) (e : ∀ f ∈ m, f ∈ l) : Sides s t l := by
  have k (u : State) : u.pools.map Pool.side = (u.pools.map Pool.site).map fun x => (x.1, x.2.2.1) := by rw [List.map_map]; rfl
  exact ⟨h.toChanges.mono e, by rw [k, k, h.sites]⟩

theorem Changes.withSides {s t : State} {l m : List Field} (h : Changes s t m) (e : .pools ∉ m ∧ ∀ f ∈ m, f ∈ l) : Sides s t l :=
  ⟨h.mono e.2, by rw [show t.pools = s.pools from h.frame.same .pools e.1]⟩

theorem foldl_sides {α : Type} {l : List Field} (f : State → α → State) (h : ∀ s a, Sides s (f s a) l) (s : State) (as : List α) :
    Sides s (as.foldl f s) l := by
  induction as generalizing s with
  | nil => exact .refl ..
  | cons a as ih => exact (h s a).trans (ih _)

theorem updPool_sides (s : State) (n : Nat) {f : Pool → Pool} (h : ∀ p, (f p).side = p.side) : Sides s (s.updPool n f) [.pools] :=
  ⟨updPool_changes .., updIf_map _ _ _ h _⟩

theorem Sides.mono {s t : State} {l m : List Field} (h : Sides s t l) (e : ∀ f ∈ l, f ∈ m) : Sides s t m :=
  ⟨h.toChanges.mono e, h.sides⟩

theorem Sides.step {s t u : State} {l m : List Field} (h : Sides s t l) (k : Sides t u m) (e : ∀ f ∈ m, f ∈ l) : Sides s u l :=
  h.trans (k.mono e)

theorem loseMember_stays (num : Nat) (s : State) : Stays s (loseMember num s) losingBlocks := by
  unfold loseMember
  dsimp only
  split
  · exact (offlinePool_stays ..).mono (by decide)
  · exact ((offlinePool_stays ..).mono (by decide)).step (loseMany_stays ..) (by decide)

theorem mcmds_changes (s : State) (m : List MCmd) : Changes s { s with mcmds := m } [.mcmds] :=
  Frame.changes ⟨fun k hk => by cases k with | mcmds => simp at hk | _ => rfl⟩ (by decide) (.of_eq rfl)

theorem failMember_sides (ns cause : Nat) (s : State) : Sides s (failMember ns cause s) losingBlocks := by
  have k (n : Nat) {f : Pool → Pool} (h : ∀ p, (f p).side = p.side) (l : List MCmd) :
      Sides s ({ s with mcmds := l }.updPool n f) losingBlocks :=
    ((mcmds_changes ..).withSides (by decide)).step (updPool_sides _ _ h) (by decide)
  unfold failMember
  dsimp only
  repeat' split
  · exact .refl ..
  · exact (k _ (by intro; rfl) _).step ((loseMember_stays ..).withSides (l := losingBlocks) fun _ h => h) (by decide)
  · exact (k _ (by intro; rfl) _).step ((loseMember_stays ..).withSides (l := losingBlocks) fun _ h => h) (by decide)
  · exact k _ (by intro; rfl) _
  · exact k _ (by intro; rfl) _

theorem judgeMember_sides (ns : Nat) (s : State) : Sides s (judgeMember ns s) losingBlocks := by
  unfold judgeMember
  split
  · generalize Option.any _ _ = serves
    repeat' split
    · exact .refl ..
    · exact (failMember_sides ..).step ((raise_changes ..).withSides (l := losingBlocks) (by decide)) (by decide)
    · exact failMember_sides ..
    · exact .refl ..
  · exact .refl ..

/-! ### The journal of a die as entries come and go -/

theorem freeSegs_keeps (n : Nat) (j : JournalSt) : (j.freeSegs n).epoch = j.epoch ∧ ∀ e ∈ (j.freeSegs n).entries, e ∈ j.entries
    := by
  induction n generalizing j with
  | zero => exact ⟨rfl, fun _ h => h⟩
  | succ n ih =>
    rw [JournalSt.freeSegs]
    split
    · exact ⟨rfl, fun _ h => h⟩
    · obtain ⟨he, hm⟩ := ih (JournalSt.ended _ _)
      exact ⟨he, fun e h => (List.mem_filter.1 (hm e h)).1⟩

/-- R170: of a journal without some entries none of them is left, and none is new. -/
theorem mem_without {p : JEntry → Bool} {j : JournalSt} {e : JEntry} (h : e ∈ (j.without p).entries) : e ∈ j.entries ∧ p e =
    false := by
  obtain ⟨hm, hp⟩ := List.mem_filter.1 ((freeSegs_keeps ..).2 e h)
  exact ⟨hm, by simpa using hp⟩

theorem without_epoch (p : JEntry → Bool) (j : JournalSt) : (j.without p).epoch = j.epoch := (freeSegs_keeps ..).1

theorem put_epoch (t : Nat) (e : JEntry) (j : JournalSt) : (j.put t e).epoch = j.epoch := without_epoch ..

theorem mem_insEntry {e x : JEntry} {l : List JEntry} (h : x ∈ insEntry e l) : x = e ∨ x ∈ l := by
  induction l with
  | nil => exact .inl (List.mem_singleton.1 h)
  | cons y ys ih =>
    rw [insEntry] at h
    split at h
    · exact (List.mem_cons.1 h)
    · obtain rfl | h := List.mem_cons.1 h
      · exact .inr (List.mem_cons_self ..)
      · exact (ih h).imp_right (List.mem_cons_of_mem _)

/-- R169: the entries of a journal after one was programmed. -/
theorem mem_put {t : Nat} {e x : JEntry} {j : JournalSt} (h : x ∈ (j.put t e).entries) : x = e ∨ x ∈ j.entries := by
  rw [JournalSt.put] at h
  dsimp only at h
  split at h
  · exact (mem_insEntry h).imp_right fun k => (mem_without k).1
  · exact .inr (mem_without h).1

end Sys2Proof.Machine
end

section
/-! PROOF. The first three phases of start-up: the image, the board's record and the ports; the self-test and the lead die; the
    DDR. -/

namespace Sys2Proof.Machine

/-- The die that a map over the indexed dies gives. -/
theorem die?_zipIdx_map (s : State) (f : DieSt × Nat → DieSt) (d : Nat) :
    ({ s with dies := s.dies.zipIdx.map f } : State).die? d = (s.die? d).map fun x => f (x, d) := by
  simp only [State.die?, List.getElem?_map, List.getElem?_zipIdx, Option.map_map]
  cases s.dies[d]? <;> simp

/-- What a map over the indexed dies gives of each die, where the index does not matter. -/
theorem zipIdx_map_map {β : Type} {f : DieSt × Nat → DieSt} {g k : DieSt → β} (h : ∀ x, g (f x) = k x.1) (l : List DieSt) :
    (l.zipIdx.map f).map g = l.map k := by
  rw [List.map_map, show (g ∘ f) = k ∘ Prod.fst from funext h, ← List.map_map, List.zipIdx_map_fst]

theorem toPhase_changes (n : Nat) (s : State) : Changes s (toPhase n s) [.run] := run_changes ..

theorem holdFault_changes (n : Nat) (s : State) : Changes s (holdFault n s) [.run] := run_changes ..

theorem holdFault_pin (n : Nat) (s : State) : n ∈ (holdFault n s).run.faultN ∧ faultPin (holdFault n s) = false := by
  have h : n ∈ (holdFault n s).run.faultN := mem_insNat.2 (.inl rfl)
  exact ⟨h, by simpa [faultPin] using List.ne_nil_of_mem h⟩

/-- R462: the step that ends a phase. -/
theorem startup_exec {i : PhaseIn} {s u : State} (e : phaseDone i s = u) : exec (.startupPhaseDone i) s = .next (settle u) := by
  rw [← e]; rfl

/-! ### Phase 1 (R463, R464, R541) -/

/-- R464: the image of a slot runs. -/
def imageRun (b : Bool) (g : Image) (s : State) : State :=
  let s1 := runImage g s
  { s1 with fw := { s1.fw with fell := if b = s.fw.slotB then none else some (bit s.fw.slotB),
                               pend := if s1.fw.pend = some b then none else s1.fw.pend } }

/-- R463: the straps, read at a power-up. -/
def strapped (i : PhaseIn) (s : State) : State :=
  if s.run.fromPower then { s with id := { s.id with pkgid := i.pkgid % 2 } } else s

/-- R463, R474: a die whose links train. -/
def bootDie (i : PhaseIn) (s : State) (x : DieSt × Nat) : DieSt :=
  let y := linkRates i (s.portMode x.2) x.2 x.1
  if y.perst then trainPort y else y

/-- R463: the dies of the package as their links train. -/
def bootDies (i : PhaseIn) (s : State) : State := { s with dies := s.dies.zipIdx.map (bootDie i s) }

theorem phase1_eq {i : PhaseIn} {s : State} {b : Bool} {g : Image} (hb : bootSlot i s = some b) (hg : s.fw.slot b = some g) :
    phase1 i s = toPhase 2 (bootDies i (strapped i (portFns (readBoard i (imageRun b g s))))) := by
  simp only [phase1, hb, hg, strapped]
  rfl

theorem bootDie_keeps (i : PhaseIn) (s : State) (x : DieSt × Nat) : (bootDie i s x).frame = x.1.frame ∧ (bootDie i s x).jr =
    x.1.jr ∧
    (bootDie i s x).recd = x.1.recd ∧ (bootDie i s x).evt = x.1.evt ∧ (bootDie i s x).link = x.1.link ∧ (bootDie i s x).rfl =
        x.1.rfl := by
  unfold bootDie
  dsimp only
  split <;> exact ⟨rfl, rfl, rfl, rfl, rfl, rfl⟩

theorem bootDie_linkUp (i : PhaseIn) (s : State) (x : DieSt × Nat) : (bootDie i s x).linkUp = (x.1.linkUp || x.1.perst) := by
  unfold bootDie
  dsimp only
  split
  · next h =>
    have hp : x.1.perst = true := h
    simp [trainPort, hp]
  · next h =>
    have hp : x.1.perst = false := Bool.eq_false_iff.2 h
    simp [linkRates, hp]

theorem bootDie_rates (i : PhaseIn) (s : State) (x : DieSt × Nat) :
    (bootDie i s x).hw.hostRate = (linkRates i (s.portMode x.2) x.2 x.1).hw.hostRate ∧
    (bootDie i s x).hw.driveRates = (linkRates i (s.portMode x.2) x.2 x.1).hw.driveRates := by
  unfold bootDie
  dsimp only
  split <;> exact ⟨rfl, rfl⟩

theorem bootDies_changes (i : PhaseIn) (s : State) : Changes s (bootDies i s) [.health, .hw] := by
  have k := bootDie_keeps i s
  exact dies_changes _ _ _ (zipIdx_map_same (fun x => (k x).2.2.2.1) ..) (by simp) (by simp)
    (fun _ => zipIdx_map_same (fun x => (k x).1) ..) (fun _ => zipIdx_map_same (fun x => (k x).2.1) ..)
    (fun _ => zipIdx_map_same (fun x => (k x).2.2.1) ..) (fun _ => zipIdx_map_same (fun x => (k x).2.2.2.2.1) ..)
    (fun _ => zipIdx_map_same (fun x => (k x).2.2.2.2.2) ..)

theorem imageRun_changes (b : Bool) (g : Image) (s : State) : Changes s (imageRun b g s) [.id, .fw] :=
  Frame.changes ⟨fun k hk => by cases k with | id | fw => simp at hk | _ => rfl⟩ (by decide) (.of_eq rfl)

theorem id_changes (s : State) (x : IdentSt) : Changes s { s with id := x } [.id] :=
  Frame.changes ⟨fun k hk => by cases k with | id => simp at hk | _ => rfl⟩ (by decide) (.of_eq rfl)

theorem readBoard_changes (i : PhaseIn) (s : State) : Changes s (readBoard i s) [.id] := id_changes ..

theorem portFns_changes (s : State) : Changes s (portFns s) [.fns] :=
  Frame.changes ⟨fun k hk => by cases k with | fns => simp at hk | _ => rfl⟩ (by decide) (.of_eq rfl)

theorem strapped_changes (i : PhaseIn) (s : State) : Changes s (strapped i s) [.id] := by
  unfold strapped
  split
  · exact id_changes ..
  · exact .refl ..

theorem leNat_lt (b : Bytes) : leNat b < 256 ^ b.length := by
  induction b with
  | nil => simp [leNat]
  | cons x xs ih =>
    have := x.isLt
    rw [leNat, List.length_cons, pow_succ]
    omega

/-- A field of two bytes fits in a register of 16 bits. -/
theorem fieldAt_toNat (b : Bytes) (off : Nat) : (BitVec.ofNat 16 (fieldAt b off 2)).toNat = fieldAt b off 2 := by
  have h : (slice b off 2).length ≤ 2 := by simp [slice, zeros]
  rw [BitVec.toNat_ofNat]
  refine Nat.mod_eq_of_lt (lt_of_lt_of_le (leNat_lt _) ?_)
  calc 256 ^ (slice b off 2).length ≤ 256 ^ 2 := Nat.pow_le_pow_right (by decide) h
    _ = 2 ^ 16 := by decide

/-- What the first phase changes. -/
abbrev booting : List Field := [.fns, .fw, .health, .hw, .id, .run]

section
variable {i : PhaseIn} {s : State} {b : Bool} {g : Image}

/-- R462: the state in which the ports of phase 1 train. -/
def booted (i : PhaseIn) (b : Bool) (g : Image) (s : State) : State := strapped i (portFns (readBoard i (imageRun b g s)))

theorem booted_changes : Changes s (booted i b g s) [.id, .fw, .fns] :=
  (((imageRun_changes b g s).mono (by decide)).step (readBoard_changes ..) (by decide)).step (portFns_changes ..) (by decide)
    |>.step (strapped_changes ..) (by decide)

theorem strapped_id (i : PhaseIn) (s : State) : (strapped i s).id = { s.id with pkgid := (strapped i s).id.pkgid } := by
  unfold strapped
  split <;> rfl

theorem booted_id : (booted i b g s).id.runVer = g.version ∧ (s.run.fromPower = true → (booted i b g s).id.pkgid = i.pkgid % 2) ∧
    ∀ c, c = (i.board.find? boardGood).getD (zeros 64) → (booted i b g s).id.subvid.toNat = fieldAt c 10 2 ∧
      (booted i b g s).id.subdid.toNat = fieldAt c 12 2 ∧ (booted i b g s).id.hostMode = (slice c 16 8).map (·.toNat) ∧
      (booted i b g s).id.driveMode = (slice c 24 8).map (·.toNat) := by
  have e := strapped_id i (portFns (readBoard i (imageRun b g s)))
  refine ⟨by rw [booted, e]; rfl, fun h => ?_, ?_⟩
  · have hf : (portFns (readBoard i (imageRun b g s))).run.fromPower = true := h
    rw [booted, strapped, if_pos hf]
  · rintro c rfl
    rw [booted, e]
    exact ⟨fieldAt_toNat .., fieldAt_toNat .., rfl, rfl⟩

theorem booted_fw : (booted i b g s).fw.minSvn.toNat = max s.fw.minSvn.toNat g.svn.toNat ∧ (booted i b g s).fw.slotB =
    s.fw.slotB := by
  have e : (booted i b g s).fw = (imageRun b g s).fw := by
    rw [booted, show (strapped i _).fw = _ from (strapped_changes i _).frame.same .fw (by decide)]
    rfl
  rw [e]
  refine ⟨?_, rfl⟩
  show (BitVec.ofNat 32 (max s.fw.minSvn.toNat g.svn.toNat)).toNat = _
  rw [BitVec.toNat_ofNat]
  exact Nat.mod_eq_of_lt (max_lt s.fw.minSvn.isLt g.svn.isLt)

theorem booted_dies : (booted i b g s).dies = s.dies := by
  unfold booted strapped
  split <;> rfl

/-- R463, R474, R548: the rates that a die's links train at. -/
theorem linkRates_at (i : PhaseIn) (m d : Nat) (x : DieSt) :
    (i.rates[d]? = none → (linkRates i m d x).hw.hostRate = x.hw.hostRate) ∧
    (∀ r, i.rates[d]? = some r → (linkRates i m d x).hw.hostRate = r.1) ∧
    ∀ l, l < 24 → (linkRates i m d x).hw.driveRates[l]? = some (if 16 + l ∈ x.hw.lanesRetired then 0
      else (((i.rates[d]?).map (·.2)).bind fun r => r[portOfLane m l]?).getD 64) := by
  refine ⟨fun h => by simp [linkRates, h], fun r h => by simp [linkRates, h], fun l hl => ?_⟩
  simp [linkRates, List.getElem?_range hl]

theorem startup_boots (hp : s.run.powered = true) (hf : s.run.pfail = none) (h1 : s.run.phase = 1) (hb : bootSlot i s = some b)
    (hg : s.fw.slot b = some g) : RunsOn (.startupPhaseDone i) s booting fun t =>
      t.run.phase = 2 ∧ t.id.runVer = g.version ∧ t.fw.minSvn.toNat = max s.fw.minSvn.toNat g.svn.toNat ∧
        t.fw.slotB = s.fw.slotB ∧
      (s.run.fromPower = true → t.id.pkgid = i.pkgid % 2) ∧
      (∀ b, b = (i.board.find? boardGood).getD (zeros 64) → t.id.subvid.toNat = fieldAt b 10 2 ∧ t.id.subdid.toNat = fieldAt b
          12 2 ∧
        t.id.hostMode = (slice b 16 8).map (·.toNat) ∧ t.id.driveMode = (slice b 24 8).map (·.toNat)) ∧
      (t.dies.map (·.linkUp) = s.dies.map fun x => x.linkUp || x.perst) ∧
      ∀ d x, s.die? d = some x → ∃ y, t.die? d = some y ∧
        (i.rates[d]? = none → y.hw.hostRate = x.hw.hostRate) ∧ (∀ r, i.rates[d]? = some r → y.hw.hostRate = r.1) ∧
        ∀ l, l < 24 → y.hw.driveRates[l]? = some (if 16 + l ∈ x.hw.lanesRetired then 0
          else (((i.rates[d]?).map (·.2)).bind fun r => r[portOfLane (t.portMode d) l]?).getD 64) := by
  have e : phaseDone i s = toPhase 2 (bootDies i (booted i b g s)) := by
    rw [booted, ← phase1_eq hb hg]
    simp [phaseDone, hp, hf, h1]
  obtain ⟨hv, hk, hboard⟩ := booted_id (i := i) (b := b) (g := g) (s := s)
  obtain ⟨hsvn, hslot⟩ := booted_fw (i := i) (b := b) (g := g) (s := s)
  refine .of_changes (startup_exec e) (((booted_changes.mono (by decide)).step (bootDies_changes ..) (by decide)).step
      (toPhase_changes ..)
    (by decide)) ⟨rfl, hv, hsvn, hslot, hk, hboard, ?_, fun d x hx => ?_⟩ (fun _ h => h)
  · have hl := zipIdx_map_map (g := (·.linkUp)) (k := fun x => x.linkUp || x.perst) (bootDie_linkUp i (booted i b g s))
        (booted i b g s).dies
    exact hl.trans (by rw [booted_dies])
  · refine ⟨bootDie i (booted i b g s) (x, d), ?_, ?_⟩
    · show (bootDies i (booted i b g s)).die? d = _
      rw [bootDies, die?_zipIdx_map, State.die?, booted_dies, ← State.die?, hx]
      rfl
    · obtain ⟨hh, hd⟩ := bootDie_rates i (booted i b g s) (x, d)
      rw [hh, hd]
      exact linkRates_at ..

/-- R464: no slot that verifies holds FAULT_N. -/
theorem startup_stuck (hp : s.run.powered = true) (hf : s.run.pfail = none) (h1 : s.run.phase = 1) (hb : bootSlot i s = none) :
    RunsOn (.startupPhaseDone i) s [.run] fun t => t.run.phase = 1 ∧ 2 ∈ t.run.faultN ∧ faultPin t = false := by
  have e : phaseDone i s = holdFault 2 s := by simp [phaseDone, hp, hf, h1, phase1, hb]
  exact .of_changes (startup_exec e) (holdFault_changes ..) ⟨h1, holdFault_pin ..⟩ (fun _ h => h)

end

end Sys2Proof.Machine
end

section
/-! PROOF. The second and the third phase of start-up: the self-test with the lead die and the times, the DDR. -/

namespace Sys2Proof.Machine

/-! ### Phase 2 (R36, R428, R464) -/

theorem programSome_changes (n d : Nat) (s : State) : Changes s (programSome n d s) recorded := by
  induction n generalizing s with
  | zero => exact .refl ..
  | succ n ih =>
    unfold programSome
    repeat' split
    · exact .refl ..
    · exact (((updRec_changes ..).mono (by decide)).step (programRec_changes ..) (by decide)).trans (ih _)
    · exact .refl ..

theorem programEvery_changes (s : State) : Changes s (programEvery s) recorded :=
  foldl_changes _ (fun _ _ => programSome_changes ..) ..

theorem clearLog_changes (a : Nat) (s : State) : Changes s (clearLog a s) recorded :=
  ((((programEvery_changes s).step (updRecs_changes _ wiped) (by decide)).step (signalEvent_changes ..) (by decide)).trans
    (programRec_changes ..)).trans (foldl_changes _ (fun _ _ => writeHolding_changes ..) ..)

theorem finishClear_changes (s : State) : Changes s (finishClear s) recorded := by
  unfold finishClear
  split
  · exact clearLog_changes ..
  · exact .refl ..

theorem fw_changes (s : State) (f : FwSt) : Changes s { s with fw := f } [.fw] :=
  Frame.changes ⟨fun k hk => by cases k with | fw => simp at hk | _ => rfl⟩ (by decide) (.of_eq rfl)

theorem noteFallback_changes (s : State) : Changes s (noteFallback s) (.fw :: raising) := by
  unfold noteFallback
  split
  · exact ((fw_changes ..).mono (by decide)).step (raisePkg_changes ..) (by decide)
  · exact .refl ..

/-- R462: the dies after the self-test. -/
def tested (i : PhaseIn) (s : State) : State :=
  linkBothEnds { s with dies := s.dies.zipIdx.map fun (x, d) => testDie i (s.portMode d) d x }

theorem recorderFault_run (s : State) : recorderFault s = { s with run := (recorderFault s).run } ∧
    (recorderFault s).run.phase = s.run.phase := by
  unfold recorderFault
  split <;> exact ⟨rfl, rfl⟩

/-- R431: the tested package, whose FAULT_N the recorder may hold no more. -/
def retested (i : PhaseIn) (s : State) : State :=
  linkBothEnds (recorderFault { s with dies := s.dies.zipIdx.map fun (x, d) => testDie i (s.portMode d) d x })

theorem retested_eq (i : PhaseIn) (s : State) :
    retested i s = { tested i s with run := (retested i s).run } ∧ (retested i s).run.phase = s.run.phase := by
  obtain ⟨e, hp⟩ := recorderFault_run { s with dies := s.dies.zipIdx.map fun (x, d) => testDie i (s.portMode d) d x }
  refine ⟨?_, hp⟩
  unfold retested
  rw [e]
  rfl

theorem electLead_congr {s t : State} (hd : t.dies = s.dies) (hp : t.id.part = s.id.part) : electLead t = electLead s := by
  have ha : t.aliveDies = s.aliveDies := by
    have e : t.alive = s.alive := funext fun d => by simp only [State.alive, State.die?, hd]
    simp only [State.aliveDies, State.dieIdx, e, hd]
  have hh : fabricHops t = fabricHops s := fabricHops_congr (fabricNext_congr hp (by rw [hd]))
  simp only [electLead, ha, hh]

/-- R36, R423: the lead die elected. -/
def ledBy (l : Nat) (s : State) : State := { s with id := { s.id with lead := l }, log := { s.log with indexing := true } }

/-- R428: the times of a power-up. -/
def timed (up : Bool) (s : State) : State := if up then powerOnTime s else s

theorem phase2_eq (i : PhaseIn) (s : State) : phase2 i s = match electLead (tested i s) with
    | none => holdFault 3 { s with run := (retested i s).run }
    | some l => toPhase 3 (noteFallback (finishClear (timed s.run.fromPower (ledBy l (retested i s))))) := by
  have e : electLead (retested i s) = electLead (tested i s) :=
    electLead_congr (by rw [(retested_eq i s).1]) (by rw [(retested_eq i s).1])
  rw [← e]
  rfl

/-- R462: what a pass over the dies that keeps those parts of each changes. -/
theorem zipIdx_changes (s : State) (f : DieSt × Nat → DieSt) (h : ∀ x, (f x).evt = x.1.evt ∧ (f x).frame = x.1.frame ∧ (f x).jr
    = x.1.jr ∧
    (f x).link = x.1.link ∧ (f x).rfl = x.1.rfl) : Changes s { s with dies := s.dies.zipIdx.map f } [.health, .hw, .recd] :=
  dies_changes _ _ _ (zipIdx_map_same (fun x => (h x).1) ..) (by simp) (by simp) (fun _ => zipIdx_map_same (fun x => (h x).2.1) ..)
    (fun _ => zipIdx_map_same (fun x => (h x).2.2.1) ..) (by simp) (fun _ => zipIdx_map_same (fun x => (h x).2.2.2.1) ..)
    (fun _ => zipIdx_map_same (fun x => (h x).2.2.2.2) ..)

theorem tested_changes (i : PhaseIn) (s : State) : Changes s (tested i s) [.health, .hw, .recd] := by
  have h1 : Changes s { s with dies := s.dies.zipIdx.map fun (x, d) => testDie i (s.portMode d) d x } [.health, .hw, .recd] := by
    refine zipIdx_changes _ _ ?_
    exact fun _ => ⟨rfl, rfl, rfl, rfl, rfl⟩
  refine h1.trans (zipIdx_changes _ _ ?_)
  exact fun _ => ⟨rfl, rfl, rfl, rfl, rfl⟩

theorem retested_changes (i : PhaseIn) (s : State) : Changes s (retested i s) [.health, .hw, .recd, .run] := by
  rw [(retested_eq i s).1]
  exact ((tested_changes i s).mono (by decide)).step (run_changes ..) (by decide)

theorem electLead_die? {s : State} {l : Nat} (h : electLead s = some l) : (s.die? l).isSome :=
  aliveDies_die? (List.mem_of_find?_eq_some h)

theorem ledBy_changes (l : Nat) (s : State) : Changes s (ledBy l s) [.id, .log] :=
  Frame.changes ⟨fun k hk => by cases k with | id | log => simp at hk | _ => rfl⟩ (by decide) (.of_eq rfl)

/-- R428: the times of a power-up and the saves of the dies in service, before 8009h is raised. -/
def resumed (s : State) : State :=
  { s with clk := { s.clk with optime := (resumedTime s).1, powerCycles := satAdd top32 s.clk.powerCycles 1 },
           dies := s.dies.map fun x => if x.alive then saveTime (resumedTime s).1 x else x }

theorem powerOnTime_eq (s : State) :
    powerOnTime s = raisePkg 0x8009 { arg0 := (resumedTime s).2, arg1 := (resumedTime s).1 } (resumed s) := rfl

/-- R428: what a save leaves of a die. -/
theorem saveTime_keeps (t : Nat) (x : DieSt) : (if x.alive then saveTime t x else x).alive = x.alive ∧
    (if x.alive then saveTime t x else x).evt = x.evt ∧ (if x.alive then saveTime t x else x).hw = x.hw ∧
    (if x.alive then saveTime t x else x).frame = x.frame ∧ (if x.alive then saveTime t x else x).jr = x.jr ∧
    (if x.alive then saveTime t x else x).link = x.link ∧ (if x.alive then saveTime t x else x).rfl = x.rfl := by
  generalize h : x.alive = a
  cases a with
  | true => exact ⟨h, rfl, rfl, rfl, rfl, rfl, rfl⟩
  | false => exact ⟨h, rfl, rfl, rfl, rfl, rfl, rfl⟩

theorem clk_changes (s : State) (c : ClockSt) : Changes s { s with clk := c } [.clk] :=
  Frame.changes ⟨fun k hk => by cases k with | clk => simp at hk | _ => rfl⟩ (by decide) (.of_eq rfl)

theorem resumed_changes (s : State) : Changes s (resumed s) [.clk, .health, .recd] := by
  have k := saveTime_keeps (resumedTime s).1
  have h : Changes s { s with dies := s.dies.map fun x => if x.alive then saveTime (resumedTime s).1 x else x }
      [.clk, .health, .recd] :=
    dies_changes _ _ _ (map_map_same (fun x => (k x).2.1) _) (fun h => absurd (by decide) h)
      (fun _ => map_map_same (fun x => (k x).2.2.1) _) (fun _ => map_map_same (fun x => (k x).2.2.2.1) _)
      (fun _ => map_map_same (fun x => (k x).2.2.2.2.1) _) (fun h => absurd (by decide) h)
      (fun _ => map_map_same (fun x => (k x).2.2.2.2.2.1) _) (fun _ => map_map_same (fun x => (k x).2.2.2.2.2.2) _)
  exact h.step (clk_changes ..) (by decide)

theorem resumed_alive (s : State) : (resumed s).dies.map DieSt.alive = s.dies.map DieSt.alive :=
  map_map_same (fun x => (saveTime_keeps (resumedTime s).1 x).1) _

/-- A change that leaves the dies' health leaves the dies in service. -/
theorem Changes.alive_map {s t : State} {l : List Field} (h : Changes s t l) (e : .health ∉ l) :
    t.dies.map DieSt.alive = s.dies.map DieSt.alive := by
  have k (u : State) : u.dies.map DieSt.alive = (u.dies.map DieSt.core).map DieSt.alive := by rw [List.map_map]; rfl
  rw [k, k, show t.dies.map DieSt.core = _ from h.frame.same .health e]

theorem timed_changes (up : Bool) (s : State) : Changes s (timed up s) (.clk :: .health :: raising) := by
  unfold timed
  split
  · rw [powerOnTime_eq]
    exact ((resumed_changes s).mono (by decide)).step (raisePkg_changes ..) (by decide)
  · exact .refl ..

theorem timed_alive (up : Bool) (s : State) : (timed up s).dies.map DieSt.alive = s.dies.map DieSt.alive := by
  unfold timed
  split
  · rw [powerOnTime_eq, (raisePkg_changes _ _ (resumed s)).alive_map (by decide), resumed_alive]
  · rfl

/-- R426, R428: a power-up counts its power cycle and records 8009h. -/
theorem timed_up {s : State} (h : (s.die? s.id.lead).isSome) : (timed true s).clk.powerCycles = satAdd top32 s.clk.powerCycles 1 ∧
    Pending (timed true s) s.id.lead 0x8009 := by
  have e : timed true s = raisePkg 0x8009 { arg0 := (resumedTime s).2, arg1 := (resumedTime s).1 } (resumed s) := rfl
  have hd : ((resumed s).die? s.id.lead).isSome := by
    simpa [resumed, State.die?] using h
  rw [e]
  exact ⟨by rw [raisePkg_clk]; rfl, raise_sets _ _ hd⟩

/-- What the second phase changes. -/
abbrev testing : List Field := .clk :: .fw :: .health :: .hw :: .id :: .log :: .run :: raising

/-- R431, R464: what is left of the phase once the lead die is known. -/
theorem phase2_end (s : State) : Changes s (toPhase 3 (noteFallback (finishClear s))) (.fw :: .run :: raising) :=
  (((finishClear_changes s).mono (by decide)).step (noteFallback_changes ..) (by decide)).step (toPhase_changes ..) (by decide)

theorem phaseDone_phase2 {i : PhaseIn} {s : State} (hp : s.run.powered = true) (hf : s.run.pfail = none) (h2 : s.run.phase = 2) :
    phaseDone i s = phase2 i s := by
  simp [phaseDone, hp, hf, h2]

theorem startup_leads {i : PhaseIn} {s : State} {l : Nat} (hp : s.run.powered = true) (hf : s.run.pfail = none)
    (h2 : s.run.phase = 2)
    (h : electLead (tested i s) = some l) : RunsOn (.startupPhaseDone i) s testing fun t =>
      t.run.phase = 3 ∧ t.id.lead = l ∧ t.log.indexing = true ∧ t.dies.map (·.alive) = (tested i s).dies.map (·.alive) ∧
      (s.run.fromPower = true → t.clk.powerCycles = satAdd top32 s.clk.powerCycles 1 ∧ Pending t l 0x8009) := by
  have e := phaseDone_phase2 (i := i) hp hf h2
  rw [phase2_eq, h] at e
  have hd : ((ledBy l (retested i s)).die? (ledBy l (retested i s)).id.lead).isSome := by
    have k := electLead_die? h
    rw [ledBy, (retested_eq i s).1]
    exact k
  have k0 : Changes s (ledBy l (retested i s)) testing := ((retested_changes i s).mono (by decide)).step (ledBy_changes l _)
      (by decide)
  have k1 := timed_changes s.run.fromPower (ledBy l (retested i s))
  have k2 := phase2_end (timed s.run.fromPower (ledBy l (retested i s)))
  refine .of_changes (startup_exec e) ((k0.step k1 (by decide)).step k2 (by decide)) ⟨rfl, ?_, ?_, ?_, fun hu => ?_⟩ (fun _ h => h)
  · have h1 := k1.frame.same .id (by decide)
    exact congrArg IdentSt.lead ((k2.frame.same .id (by decide)).trans h1)
  · have h1 := k1.frame.same .log (by decide)
    exact congrArg LogSt.indexing ((k2.frame.same .log (by decide)).trans h1)
  · rw [k2.alive_map (by decide), timed_alive, ledBy, (retested_eq i s).1]
  · rw [hu] at k2 ⊢
    obtain ⟨hc, hp⟩ := timed_up hd
    have h0 : (ledBy l (retested i s)).clk = s.clk := by rw [ledBy, (retested_eq i s).1]; rfl
    exact ⟨(congrArg ClockSt.powerCycles (k2.frame.same .clk (by decide))).trans (by rw [hc, h0]), k2.pend _ _ hp⟩

theorem startup_leaderless {i : PhaseIn} {s : State} (hp : s.run.powered = true) (hf : s.run.pfail = none) (h2 : s.run.phase = 2)
    (h : electLead (tested i s) = none) : RunsOn (.startupPhaseDone i) s [.run] fun t => t.run.phase = 2 ∧ 3 ∈ t.run.faultN ∧
      faultPin t = false := by
  have e := phaseDone_phase2 (i := i) hp hf h2
  rw [phase2_eq, h] at e
  exact .of_changes (startup_exec e) ((run_changes s _).trans (holdFault_changes ..))
      ⟨(retested_eq i s).2.trans h2, holdFault_pin ..⟩
    (fun _ h => h)

/-! ### Phase 3 (R29, R30, R160) -/

/-- What a fold brings about at one of its elements, and keeps from there on. -/
theorem foldl_attains {α : Type} {f : State → α → State} {E P : State → Prop} {a : α} {l : List α} (ha : a ∈ l)
    (he : ∀ s b, E s → E (f s b)) (hp : ∀ s b, P s → P (f s b)) (h : ∀ s, E s → P (f s a)) {s : State} (e : E s) : P
        (l.foldl f s) := by
  induction l generalizing s with
  | nil => exact absurd ha List.not_mem_nil
  | cons b l ih =>
    obtain rfl | hm := List.mem_cons.1 ha
    · exact List.foldlRecOn l f (h s e) fun t k c _ => hp t c k
    · exact ih hm (he s b e)

/-- R29: rate and GiB a channel of each die's DDR. -/
def ddrSizes (s : State) : List (Nat × Nat) := s.dies.map fun x => (x.hw.ddrRate, x.hw.ddrGib)

theorem Changes.ddrSizes {s t : State} {l : List Field} (h : Changes s t l) (e : .hw ∉ l) : ddrSizes t = ddrSizes s := by
  have k (u : State) : Machine.ddrSizes u = (u.dies.map (·.hw)).map fun x => (x.ddrRate, x.ddrGib) := by rw [List.map_map]; rfl
  rw [k, k, show t.dies.map (·.hw) = _ from h.frame.same .hw e]

theorem spareChannel_ddrSizes (d ch : Nat) (s : State) : ddrSizes (spareChannel d ch s) = ddrSizes s := by
  rw [(spareChannel_changes d ch s).ddrSizes (by decide)]
  exact updDie_map (fun x : DieSt => (x.hw.ddrRate, x.hw.ddrGib)) s d _ fun _ => rfl

/-- R30: the channels that failed training are spared. -/
def spared (d : Nat) (l : List (Nat × Nat)) (s : State) : State := l.foldl (fun s c => spareChannel d c.2 s) s

theorem spared_ddrSizes (d : Nat) (l : List (Nat × Nat)) (s : State) : ddrSizes (spared d l s) = ddrSizes s := by
  induction l generalizing s with
  | nil => rfl
  | cons c l ih => exact (ih _).trans (spareChannel_ddrSizes ..)

theorem spared_changes (d : Nat) (l : List (Nat × Nat)) (s : State) : Changes s (spared d l s) (.cache :: .hw :: raising) := by
  refine foldl_changes _ (fun s c => ?_) ..
  have h : Changes s (s.updHw d (channelOut c.2)) (.cache :: .hw :: raising) := (updHw_changes ..).mono (by decide)
  exact h.step (spareChannel_changes ..) (by decide)

/-- R29: the channels of a die tried again. -/
def retrained (t : Nat) (h : HwSt) : HwSt :=
  { h with ddr := [true, true, true, true], zq := List.replicate 4 t, retrainFails := [0, 0, 0, 0] }

/-- R29: the DIMMs found set the rate, the size and the channels. -/
def withDimms (slots : List (Option Dimm)) (h : HwSt) : HwSt :=
  { h with ddrRate := (dimmRule (slots.filterMap id)).1, ddrGib := (dimmRule (slots.filterMap id)).2.1,
           ddr := trainDdr.padFlags (slots.map (·.isSome)) }

/-- R29: a die knows its DIMMs. -/
def fitted (d : Nat) (slots : List (Option Dimm)) (s : State) : State :=
  if (dimmRule (slots.filterMap id)).2.2 then raise d 0x6001 {} (s.updHw d (withDimms slots)) else s.updHw d (withDimms slots)

/-- R160: the protected region of a die that was never set. -/
def layOut (x : DieSt) : DieSt := if x.protSet then x else { x with protGib := ddrGib x / 4 }

theorem trainDdr_eq (i : PhaseIn) (d : Nat) (s : State) : trainDdr i d s =
    (spared d (i.failedChannels.filter fun c => c.1 == d) ((i.dimms[d]?).elim (s.updHw d (retrained s.clk.tick)) fun slots =>
      fitted d slots (s.updHw d (retrained s.clk.tick)))).updDie d layOut := by
  unfold trainDdr
  cases i.dimms[d]? <;> rfl

theorem fitted_changes (d : Nat) (slots : List (Option Dimm)) (s : State) : Changes s (fitted d slots s) (.hw :: raising) := by
  have h : Changes s (s.updHw d (withDimms slots)) (.hw :: raising) := (updHw_changes ..).mono (by decide)
  unfold fitted
  split
  · exact h.step (raise_changes ..) (by decide)
  · exact h

theorem layOut_keeps (x : DieSt) : (layOut x).hw = x.hw ∧ (layOut x).frame = x.frame ∧ (layOut x).jr = x.jr ∧ (layOut x).recd =
    x.recd ∧
    (layOut x).evt = x.evt ∧ (layOut x).link = x.link ∧ (layOut x).rfl = x.rfl ∧ (layOut x).alive = x.alive := by
  unfold layOut
  split <;> exact ⟨rfl, rfl, rfl, rfl, rfl, rfl, rfl, rfl⟩

theorem layOut_changes (s : State) (d : Nat) : Changes s (s.updDie d layOut) [.health] := by
  refine updDie_changes _ _ _ fun x => ?_
  obtain ⟨h1, h2, h3, h4, h5, h6, h7, -⟩ := layOut_keeps x
  exact ⟨h1, h2, h3, h4, h5, h6, h7⟩

/-- What the training of a die's DDR changes. -/
abbrev trainingDdr : List Field := .cache :: .health :: .hw :: raising

/-- R29: what the DDR is when its channels start to train. -/
def ddrStart (i : PhaseIn) (d : Nat) (s : State) : State :=
  (i.dimms[d]?).elim (s.updHw d (retrained s.clk.tick)) fun slots => fitted d slots (s.updHw d (retrained s.clk.tick))

theorem ddrStart_changes (i : PhaseIn) (d : Nat) (s : State) : Changes s (ddrStart i d s) (.hw :: raising) := by
  have h : Changes s (s.updHw d (retrained s.clk.tick)) (.hw :: raising) := (updHw_changes ..).mono (by decide)
  unfold ddrStart
  cases i.dimms[d]? with
  | none => exact h
  | some slots => exact h.trans (fitted_changes ..)

/-- R29, R30, R160: what follows the DIMMs found leaves rates and sizes. -/
theorem trainDdr_after (i : PhaseIn) (d : Nat) (s : State) : Changes (ddrStart i d s) (trainDdr i d s) trainingDdr ∧
    ddrSizes (trainDdr i d s) = ddrSizes (ddrStart i d s) := by
  rw [trainDdr_eq]
  refine ⟨((spared_changes ..).mono (by decide)).step (layOut_changes ..) (by decide), ?_⟩
  rw [(layOut_changes ..).ddrSizes (by decide)]
  exact spared_ddrSizes ..

theorem trainDdr_changes (i : PhaseIn) (d : Nat) (s : State) : Changes s (trainDdr i d s) trainingDdr :=
  ((ddrStart_changes i d s).mono (by decide)).trans (trainDdr_after i d s).1

/-- R29: a die has the rate and the size that its DIMMs give, and where they differ 6001h is recorded. -/
def DdrKnown (d r c : Nat) (bad : Bool) (s : State) : Prop := (ddrSizes s)[d]? = some (r, c) ∧ (bad = true → Pending s d 0x6001)

theorem ddrSizes_at (s : State) (d : Nat) : (ddrSizes s)[d]? = (s.die? d).map fun x => (x.hw.ddrRate, x.hw.ddrGib) := by
  simp [ddrSizes, State.die?]

theorem ddrSizes_updHw_ne {s : State} {d e : Nat} (f : HwSt → HwSt) (h : d ≠ e) : (ddrSizes (s.updHw d f))[e]? =
    (ddrSizes s)[e]? := by
  rw [ddrSizes_at, ddrSizes_at, State.updHw, updDie_die?, if_neg h]

theorem ddrSizes_fitted (s : State) (d : Nat) (slots : List (Option Dimm)) :
    ddrSizes (fitted d slots s) = ddrSizes (s.updHw d (withDimms slots)) := by
  unfold fitted
  split
  · exact (raise_changes ..).ddrSizes (by decide)
  · rfl

theorem ddrSizes_start_ne {i : PhaseIn} {s : State} {d e : Nat} (h : d ≠ e) : (ddrSizes (ddrStart i d s))[e]? = (ddrSizes s)[e]?
    := by
  unfold ddrStart
  cases i.dimms[d]? with
  | none => exact ddrSizes_updHw_ne _ h
  | some slots =>
    rw [Option.elim_some, ddrSizes_fitted]
    exact (ddrSizes_updHw_ne _ h).trans (ddrSizes_updHw_ne _ h)

theorem fitted_known {s : State} {d : Nat} (slots : List (Option Dimm)) (h : (s.die? d).isSome) :
    DdrKnown d (dimmRule (slots.filterMap id)).1 (dimmRule (slots.filterMap id)).2.1 (dimmRule (slots.filterMap id)).2.2
      (fitted d slots s) := by
  obtain ⟨x, hx⟩ := Option.isSome_iff_exists.1 h
  have hy := updHw_die?_self (withDimms slots) hx
  refine ⟨?_, fun hb => ?_⟩
  · rw [ddrSizes_fitted, ddrSizes_at, hy]
    rfl
  · rw [fitted, if_pos hb]
    exact raise_sets _ _ (by rw [hy]; rfl)

section
variable {i : PhaseIn} {d r c : Nat} {bad : Bool}

theorem trainDdr_knows (hd : (i.dimms[d]?).map (fun l => dimmRule (l.filterMap id)) = some (r, c, bad)) {s : State}
    (h : (s.die? d).isSome) : DdrKnown d r c bad (trainDdr i d s) := by
  obtain ⟨slots, hs, he⟩ := Option.map_eq_some_iff.1 hd
  obtain ⟨x, hx⟩ := Option.isSome_iff_exists.1 h
  have k := fitted_known slots (s := s.updHw d (retrained s.clk.tick)) (d := d) (by rw [updHw_die?_self _ hx]; rfl)
  rw [he] at k
  have e : ddrStart i d s = fitted d slots (s.updHw d (retrained s.clk.tick)) := by rw [ddrStart, hs]; rfl
  rw [← e] at k
  obtain ⟨ha, hk⟩ := trainDdr_after i d s
  exact ⟨by rw [hk]; exact k.1, fun hb => ha.pend _ _ (k.2 hb)⟩

theorem trainDdr_keeps (hd : (i.dimms[d]?).map (fun l => dimmRule (l.filterMap id)) = some (r, c, bad)) {s : State} (e : Nat)
    (h : DdrKnown d r c bad s) : DdrKnown d r c bad (trainDdr i e s) := by
  by_cases he : e = d
  · subst he
    refine trainDdr_knows hd ?_
    have k := h.1
    rw [ddrSizes_at] at k
    exact Option.isSome_iff_exists.2 ⟨_, (Option.map_eq_some_iff.1 k).choose_spec.1⟩
  · exact ⟨by rw [(trainDdr_after i e s).2, ddrSizes_start_ne he]; exact h.1, fun hb => (trainDdr_changes i e s).pend _ _ (h.2 hb)⟩

end

theorem trainDdr_die? (i : PhaseIn) (s : State) (e d : Nat) (h : (s.die? d).isSome) : ((trainDdr i e s).die? d).isSome := by
  obtain ⟨x, hx⟩ := Option.isSome_iff_exists.1 h
  obtain ⟨y, hy, -⟩ := die_of_map ((trainDdr_changes i e s).frame.same .jr (by decide)) hx
  exact Option.isSome_iff_exists.2 ⟨y, hy⟩

/-- R29, R30: the DDR of the dies in service is trained. -/
def ddrTrained (i : PhaseIn) (s : State) : State := s.aliveDies.foldl (fun s d => trainDdr i d s) s

theorem mem_aliveDies {s : State} {d : Nat} (h : s.alive d = true) : d ∈ s.aliveDies := by
  refine List.mem_filter.2 ⟨?_, h⟩
  cases hx : s.die? d with
  | none => simp [State.alive, hx] at h
  | some x => exact List.mem_range.2 (List.getElem?_eq_some_iff.1 hx).1

theorem alive_isSome {s : State} {d : Nat} (h : s.alive d = true) : (s.die? d).isSome := aliveDies_die? (mem_aliveDies h)

theorem startup_trains {i : PhaseIn} {s : State} (hp : s.run.powered = true) (hf : s.run.pfail = none) (h3 : s.run.phase = 3) :
    RunsOn (.startupPhaseDone i) s (.cache :: .health :: .hw :: .run :: raising) fun t =>
      t.run.phase = 4 ∧ t.run.selfRefresh = false ∧ t.run.dramReset = true ∧
      ∀ d r c bad, s.alive d = true → (i.dimms[d]?).map (fun l => dimmRule (l.filterMap id)) = some (r, c, bad) →
        (∃ y, t.die? d = some y ∧ y.hw.ddrRate = r ∧ y.hw.ddrGib = c) ∧ (bad = true → Pending t d 0x6001) := by
  have e : phaseDone i s = toPhase 4 { ddrTrained i s with run := { s.run with selfRefresh := false, dramReset := true } } := by
    have h : phaseDone i s = phase3 i s := by simp [phaseDone, hp, hf, h3]
    exact h.trans rfl
  have k : Changes s (ddrTrained i s) trainingDdr := foldl_changes _ (fun _ _ => trainDdr_changes ..) ..
  refine .of_changes (startup_exec e) (((k.mono (by decide)).step (run_changes ..) (by decide)).step (toPhase_changes ..)
      (by decide))
    ⟨rfl, rfl, rfl, fun d r c bad ha hd => ?_⟩ (fun _ h => h)
  obtain ⟨hs, hb⟩ : DdrKnown d r c bad (ddrTrained i s) :=
    foldl_attains (mem_aliveDies ha) (E := fun s => (s.die? d).isSome) (fun s b => trainDdr_die? i s b d)
      (fun _ b => trainDdr_keeps hd b) (fun _ => trainDdr_knows hd) (alive_isSome ha)
  rw [ddrSizes_at] at hs
  obtain ⟨y, hy, hv⟩ := Option.map_eq_some_iff.1 hs
  obtain ⟨h1, h2⟩ := Prod.mk.inj hv
  exact ⟨⟨y, hy, h1, h2⟩, hb⟩

end Sys2Proof.Machine
end

section
/-! PROOF. The power-up, and the fourth phase of start-up: what the DDR holds (R171, R186, R462). -/

namespace Sys2Proof.Machine

/-- R462: the release of the package reset starts phase 1 at tick 0. -/
theorem powerUp_runs {s : State} (h : s.run.powered = false) : Runs .powerUp s [.run, .clk] fun t =>
    t.run = { RunSt.reset with powered := true } ∧ t.clk = { s.clk with tick := 0 } := by
  have e : powerUp s = { s with run := { RunSt.reset with powered := true }, clk := { s.clk with tick := 0 } } := by simp
      [powerUp, h]
  exact ⟨_, congrArg Host.Outcome.next e, ⟨rfl, rfl⟩, ⟨fun k hk => by cases k with | run | clk => simp at hk | _ => rfl⟩⟩

/-! ### Epochs (R171) -/

/-- R171: the epochs of the dies. -/
def epochs (s : State) : List Nat := s.dies.map (·.jr.epoch)

theorem epochs_at (s : State) (d : Nat) : (epochs s)[d]? = (s.die? d).map (·.jr.epoch) := List.getElem?_map ..

theorem Changes.epochs {s t : State} {l : List Field} (h : Changes s t l) (e : .jr ∉ l) : epochs t = epochs s := by
  have k (u : State) : Machine.epochs u = (u.dies.map (·.jr)).map JournalSt.epoch := by rw [List.map_map]; rfl
  rw [k, k, show t.dies.map (·.jr) = _ from h.frame.same .jr e]

theorem updJr_epochs (s : State) (d : Nat) {f : JournalSt → JournalSt} (h : ∀ j, (f j).epoch = j.epoch) :
    epochs (s.updJr d f) = epochs s := updDie_map (·.jr.epoch) s d _ fun x => h x.jr

theorem programJ_epochs (d : Nat) (p : Option Nat) (b : JBody) (s : State) : epochs (programJ d p b s) = epochs s :=
  updJr_epochs _ _ fun _ => put_epoch s.clk.tick ..

theorem dropEntries_epochs (d : Nat) (p : JEntry → Bool) (s : State) : epochs (dropEntries d p s) = epochs s :=
  updJr_epochs _ _ fun _ => without_epoch ..

theorem foldl_epochs {α : Type} {f : State → α → State} (h : ∀ s a, epochs (f s a) = epochs s) (s : State) (l : List α) :
    epochs (l.foldl f s) = epochs s :=
  List.foldlRecOn l f (motive := fun t => epochs t = epochs s) rfl fun t k a _ => (h t a).trans k

theorem loseBlocks_epochs (num vol lba count : Nat) (s : State) : epochs (loseBlocks num vol lba count s) = epochs s := by
  unfold loseBlocks
  dsimp only
  repeat' split
  · rfl
  · rfl
  · exact ((offlinePool_stays ..).toChanges.epochs (by decide)).trans ((raise_changes ..).epochs (by decide))
  · rw [(raise_changes ..).epochs (by decide), programJ_epochs]
    rfl

theorem loseMany_epochs (num : Nat) (l : List (Nat × Nat)) (s : State) : epochs (loseMany num l s) = epochs s :=
  foldl_epochs (fun _ _ => loseBlocks_epochs ..) ..

theorem loseDirtyOf_epochs (gone : CBlk → Bool) (num : Nat) (s : State) : epochs (loseDirtyOf gone num s) = epochs s := by
  unfold loseDirtyOf
  dsimp only
  split
  · exact loseMany_epochs ..
  · exact ((raise_changes ..).epochs (by decide)).trans (loseMany_epochs ..)

theorem retireCommits_epochs (s : State) : epochs (retireCommits s) = epochs s :=
  foldl_epochs (fun _ _ => dropEntries_epochs ..) ..

theorem loseDirty_epochs (d : Nat) (s : State) : epochs (loseDirty d s) = epochs s :=
  foldl_epochs (by intro _ _; exact (retireCommits_epochs ..).trans (loseMany_epochs ..)) ..

/-! ### One die (R186) -/

/-- What the restore of a die changes. -/
abbrev restoring : List Field := .cache :: .destages :: .jr :: .pools :: .vols :: ending

/-- R186: where the restore of a die is recorded. -/
def restoredAt (s : State) (d : Nat) (x : DieSt) : Nat := if x.alive then d else s.id.lead

/-- R186: the copy that serves a die. -/
def restoreFrom (i : PhaseIn) (d : Nat) (x : DieSt) : Restore :=
  if x.alive then restoreOf x ((i.restore[d]?).getD .held) else otherCopy x ((i.restore[d]?).getD .mirror)

/-- R186: the blocks of a die's pools that the copy that serves does not hold are lost. -/
def restoreBy (d at_ : Nat) (r : Restore) (s : State) : State :=
  match r with
  | .held | .image => s
  | .mirror => (poolsOn s d).foldl (fun s n => loseSingle n s) (raise at_ 0x6014 {} s)
  | .nothing => loseDirty d (raise at_ 0x6015 {} s)

theorem restoreDie_quiet {i : PhaseIn} {d : Nat} {s : State} (h : ∀ x, s.die? d = some x → hasCommit x = false) :
    restoreDie i d s = s.updJr d newEpoch := by
  cases hx : s.die? d with
  | none =>
    have e : s.dies.modify d (fun x => { x with jr := newEpoch x.jr }) = s.dies :=
      List.modify_eq_self (List.getElem?_eq_none_iff.1 hx)
    simp only [restoreDie, hx, State.updJr, State.updDie, e]
  | some x => simp [restoreDie, hx, h x hx]

theorem restoreDie_commit {i : PhaseIn} {d : Nat} {s : State} {x : DieSt} (hx : s.die? d = some x) (h : hasCommit x = true) :
    restoreDie i d s = restoreBy d (restoredAt s d x) (restoreFrom i d x) (s.updJr d newEpoch) := by
  simp only [restoreDie, hx, h]
  rfl

theorem restoreBy_changes (d a : Nat) (r : Restore) (s : State) : Changes s (restoreBy d a r s) restoring := by
  cases r with
  | held => exact .refl ..
  | image => exact .refl ..
  | mirror =>
    have k : Changes s (raise a 0x6014 {} s) restoring := (raise_changes ..).mono (by decide)
    exact k.trans (foldl_changes _ (fun _ _ => (loseDirtyOf_stays ..).toChanges.mono (by decide)) ..)
  | nothing =>
    have k : Changes s (raise a 0x6015 {} s) restoring := (raise_changes ..).mono (by decide)
    exact k.step (loseDirty_stays ..).toChanges (by decide)

theorem restoreBy_epochs (d a : Nat) (r : Restore) (s : State) : epochs (restoreBy d a r s) = epochs s := by
  cases r with
  | held => rfl
  | image => rfl
  | mirror => exact (foldl_epochs (fun _ _ => loseDirtyOf_epochs ..) ..).trans ((raise_changes ..).epochs (by decide))
  | nothing => exact (loseDirty_epochs ..).trans ((raise_changes ..).epochs (by decide))

theorem restoreDie_changes (i : PhaseIn) (d : Nat) (s : State) : Changes s (restoreDie i d s) restoring := by
  have k : Changes s (s.updJr d newEpoch) restoring := (updJr_changes ..).mono (by decide)
  by_cases h : ∀ x, s.die? d = some x → hasCommit x = false
  · rw [restoreDie_quiet h]
    exact k
  · push Not at h
    obtain ⟨x, hx, hc⟩ := h
    rw [restoreDie_commit hx (by simpa using hc)]
    exact k.trans (restoreBy_changes ..)

/-- R171: a restore counts the epoch of its die. -/
theorem restoreDie_epochs (i : PhaseIn) (d : Nat) (s : State) : epochs (restoreDie i d s) = (epochs s).modify d (· + 1) := by
  have k : epochs (s.updJr d newEpoch) = (epochs s).modify d (· + 1) := by
    refine List.ext_getElem? fun e => ?_
    simp only [epochs, State.updJr, State.updDie, List.getElem?_map, List.getElem?_modify]
    cases s.dies[e]? with
    | none => rfl
    | some x => by_cases h : d = e <;> simp [h, newEpoch]
  by_cases h : ∀ x, s.die? d = some x → hasCommit x = false
  · rw [restoreDie_quiet h, k]
  · push Not at h
    obtain ⟨x, hx, hc⟩ := h
    rw [restoreDie_commit hx (by simpa using hc), restoreBy_epochs, k]

/-! ### All dies -/

/-- R186: the dies of a list restored in turn. -/
def restoreAll (i : PhaseIn) (l : List Nat) (s : State) : State := l.foldl (fun s d => restoreDie i d s) s

theorem restoreAll_changes (i : PhaseIn) (l : List Nat) (s : State) : Changes s (restoreAll i l s) restoring :=
  foldl_changes _ (fun _ _ => restoreDie_changes ..) ..

theorem restoreAll_epochs {i : PhaseIn} {l : List Nat} (h : l.Nodup) (s : State) (d : Nat) :
    (epochs (restoreAll i l s))[d]? = (epochs s)[d]?.map fun e => if d ∈ l then e + 1 else e := by
  induction l generalizing s with
  | nil => simp [restoreAll]
  | cons a l ih =>
    obtain ⟨ha, hl⟩ := List.nodup_cons.1 h
    have k := ih hl (restoreDie i a s)
    rw [restoreDie_epochs, List.getElem?_modify] at k
    refine k.trans ?_
    by_cases e : a = d
    · subst e
      simp [ha, Function.comp_def]
    · have e' : ¬ d = a := fun c => e c.symm
      simp [e, e']

/-- A die but for its epoch. -/
def DieSt.sansEpoch (x : DieSt) : DieSt := { x with jr := { x.jr with epoch := 0 } }

/-- R186: dies without a UNIT COMMIT are restored by their new epoch alone. -/
theorem restoreAll_quiet {i : PhaseIn} {l : List Nat} {s : State} (h : ∀ d ∈ l, ∀ x, s.die? d = some x → hasCommit x = false) :
    (restoreAll i l s).dies.map DieSt.sansEpoch = s.dies.map DieSt.sansEpoch ∧ Changes s (restoreAll i l s) [.jr] := by
  induction l generalizing s with
  | nil => exact ⟨rfl, .refl ..⟩
  | cons a l ih =>
    have k : (s.updJr a newEpoch).dies.map DieSt.sansEpoch = s.dies.map DieSt.sansEpoch := updDie_map _ _ _ _ fun _ => rfl
    obtain ⟨hm, hc⟩ := ih (s := s.updJr a newEpoch) fun d hd x hx => by
      obtain ⟨y, hy, e⟩ := die_of_map k.symm hx
      exact (congrArg hasCommit e).symm.trans (h d (List.mem_cons_of_mem _ hd) y hy)
    have e : restoreAll i (a :: l) s = restoreAll i l (s.updJr a newEpoch) := by
      rw [restoreAll, List.foldl_cons, restoreDie_quiet (h a List.mem_cons_self)]
      rfl
    rw [e]
    exact ⟨hm.trans k, (updJr_changes ..).trans hc⟩

/-- R186: the first die with a UNIT COMMIT restores from nothing, and records 6015h. -/
theorem restoreAll_nothing {i : PhaseIn} {s : State} {d : Nat} {x : DieSt} (hx : s.die? d = some x) (ha : x.alive = true)
    (hc : hasCommit x = true) (hf : ∀ e y, e < d → s.die? e = some y → hasCommit y = false)
    (hr : restoreOf x ((i.restore[d]?).getD .held) = .nothing) : Pending (restoreAll i s.dieIdx s) d 0x6015 := by
  obtain ⟨n, hn⟩ : ∃ n, s.dies.length = d + (n + 1) := by
    have : d < s.dies.length := (List.getElem?_eq_some_iff.1 hx).1
    exact ⟨s.dies.length - d - 1, by omega⟩
  have hl : s.dieIdx = List.range d ++ d :: (List.range n).map (fun k => d + (k + 1)) := by
    rw [State.dieIdx, hn, List.range_add, List.range_succ_eq_map]
    simp [Function.comp_def]
  obtain ⟨hm, hq⟩ := restoreAll_quiet (i := i) (l := List.range d) fun e he y hy => hf e y (List.mem_range.1 he) hy
  obtain ⟨y, hy, e⟩ := die_of_map hm hx
  have hd : restoreDie i d (restoreAll i (List.range d) s) =
      loseDirty d (raise d 0x6015 {} ((restoreAll i (List.range d) s).updJr d newEpoch)) := by
    have ha' : y.alive = true := (congrArg DieSt.alive e).trans ha
    have hr' : restoreFrom i d y = .nothing := by
      rw [restoreFrom, if_pos ha']
      exact (congrArg (restoreOf · _) e).trans hr
    rw [restoreDie_commit hy ((congrArg hasCommit e).trans hc), restoredAt, if_pos ha', hr']
    rfl
  have e : restoreAll i s.dieIdx s = restoreAll i ((List.range n).map (fun k => d + (k + 1)))
      (restoreDie i d (restoreAll i (List.range d) s)) := by
    rw [hl, restoreAll, List.foldl_append, List.foldl_cons]
    rfl
  rw [e, hd]
  refine (restoreAll_changes ..).pend _ _ ((loseDirty_stays ..).pend _ _ (raise_sets _ _ ?_))
  rw [State.updJr, updDie_die?_self _ hy]
  rfl

theorem dieIdx_nodup (s : State) : s.dieIdx.Nodup := List.nodup_range

theorem mem_dieIdx {s : State} {d : Nat} {x : DieSt} (h : s.die? d = some x) : d ∈ s.dieIdx :=
  List.mem_range.2 (List.getElem?_eq_some_iff.1 h).1

theorem startup_restores {i : PhaseIn} {s : State} (hp : s.run.powered = true) (hf : s.run.pfail = none) (h4 : s.run.phase = 4) :
    RunsOn (.startupPhaseDone i) s (.cache :: .destages :: .jr :: .pools :: .run :: .vols :: ending) fun t =>
      t.run.phase = 5 ∧ (∀ d x, s.die? d = some x → ∃ y, t.die? d = some y ∧ y.jr.epoch = x.jr.epoch + 1) ∧
      ((∀ x ∈ s.dies, hasCommit x = false) → t.cache = s.cache ∧ t.pools = s.pools) ∧
      ∀ d x, s.die? d = some x → x.alive = true → hasCommit x = true → (∀ e y, e < d → s.die? e = some y →
        hasCommit y = false) →
        restoreOf x ((i.restore[d]?).getD .held) = .nothing → Pending t d 0x6015 := by
  have e : phaseDone i s = toPhase 5 (restoreAll i s.dieIdx s) := by
    have h : phaseDone i s = phase4 i s := by simp [phaseDone, hp, hf, h4]
    exact h.trans rfl
  have k := restoreAll_changes i s.dieIdx s
  refine .of_changes (startup_exec e) ((k.mono (by decide)).step (toPhase_changes ..) (by decide))
    ⟨rfl, fun d x hx => ?_, fun h => ?_, fun d x hx ha hc hn hr => restoreAll_nothing hx ha hc hn hr⟩ (fun _ h => h)
  · have h := restoreAll_epochs (i := i) (dieIdx_nodup s) s d
    simp only [mem_dieIdx hx, if_true, epochs_at, hx, Option.map_some] at h
    exact Option.map_eq_some_iff.1 h
  · obtain ⟨-, hq⟩ := restoreAll_quiet (i := i) (l := s.dieIdx) (s := s) fun d _ x hx => h x (List.mem_of_getElem? hx)
    exact ⟨hq.frame.same .cache (by decide), hq.frame.same .pools (by decide)⟩

end Sys2Proof.Machine
end

section
/-! PROOF. The fifth phase of start-up: budgets, labels, the pools whose keys are lost, and the pools of dies that are gone
    (R68, R70,
R187, R219, R364, R379, R462). -/

namespace Sys2Proof.Machine

/-! ### Pools that the partner holds (R379) -/

theorem pool?_updPool (s : State) (m n : Nat) {f : Pool → Pool} (h : ∀ p, (f p).num = p.num) :
    (s.updPool m f).pool? n = (s.pool? n).map fun p => if p.num == m then f p else p := by
  rw [State.pool?, State.updPool, updIf, List.find?_map, State.pool?]
  congr 2
  funext p
  rw [Function.comp_apply]
  split
  · rw [h]
  · rfl

/-- What is known of the sides of all pools is known of that of each. -/
theorem pool?_of_sides {s t : State} (h : t.pools.map Pool.side = s.pools.map Pool.side) {n : Nat} {q : Pool}
    (hq : s.pool? n = some q) :
    ∃ q', t.pool? n = some q' ∧ q'.side = q.side := by
  have e (u : State) : (u.pool? n).map Pool.side = (u.pools.map Pool.side).find? fun x => x.1 == n := by rw [List.find?_map]; rfl
  have k : (t.pool? n).map Pool.side = some q.side := by rw [e, h, ← e, hq]; rfl
  simpa using k

/-- The partner holds pool n. -/
def HeldAway (n : Nat) (s : State) : Prop := ∃ q, s.pool? n = some q ∧ q.away = true

theorem HeldAway.sides {n : Nat} {s t : State} (h : HeldAway n s) (k : t.pools.map Pool.side = s.pools.map Pool.side) : HeldAway
    n t := by
  obtain ⟨q, hq, ha⟩ := h
  obtain ⟨q', hq', e⟩ := pool?_of_sides k hq
  exact ⟨q', hq', (congrArg Prod.snd e).trans ha⟩

/-- R379: a pool that the partner holds: nothing of it is served or queued here. -/
def Pool.givenUp (p : Pool) : Pool := { p with away := true, taken := false, queued := [] }

/-- R379: of a pool that the partner holds no work, no data and no entry is left. -/
def forgotten (n d : Nat) (s : State) : State :=
  dropEntries d (fun e => e.pool == some n) ((stopWork n s).dropBlocks fun b => (s.vol? b.vol).any fun v => v.pool == n)

theorem heldByPartner_eq {s : State} {n : Nat} {p : Pool} (hp : s.pool? n = some p) (ha : p.away = false) :
    heldByPartner n s = raisePkg 0x5048 { pool := n } ((forgotten n p.home s).updPool n Pool.givenUp) := by
  simp only [heldByPartner, hp, ha]
  rfl

theorem forgotten_changes (n d : Nat) (s : State) : Changes s (forgotten n d s) [.cache, .cmds, .destages, .jr, .mcmds, .vols] :=
  (((stopWork_changes ..).mono (by decide)).step (dropBlocks_changes ..) (by decide)).step (dropEntries_changes ..) (by decide)

/-- What it changes that the partner holds a pool. -/
abbrev handing : List Field := .cache :: .cmds :: .destages :: .jr :: .mcmds :: .pools :: .vols :: raising

theorem heldByPartner_changes (n : Nat) (s : State) : Changes s (heldByPartner n s) handing := by
  cases hp : s.pool? n with
  | none => simp only [heldByPartner, hp]; exact .refl ..
  | some p =>
    cases ha : p.away with
    | true => simp only [heldByPartner, hp, ha]; exact .refl ..
    | false =>
      rw [heldByPartner_eq hp ha]
      exact (((forgotten_changes ..).mono (by decide)).step (updPool_changes ..) (by decide)).step (raisePkg_changes ..)
          (by decide)

theorem heldByPartner_pools (n : Nat) (s : State) :
    (heldByPartner n s).pools = s.pools ∨ (heldByPartner n s).pools = (s.updPool n Pool.givenUp).pools := by
  cases hp : s.pool? n with
  | none => exact .inl (by simp [heldByPartner, hp])
  | some p =>
    cases ha : p.away with
    | true => exact .inl (by simp [heldByPartner, hp, ha])
    | false =>
      rw [heldByPartner_eq hp ha]
      exact .inr (by rw [raisePkg_pools]; rfl)

theorem pool?_of_pools {s t : State} (h : t.pools = s.pools) (n : Nat) : t.pool? n = s.pool? n := by rw
    [State.pool?, h, State.pool?]

theorem heldByPartner_pool? (m n : Nat) (s : State) : (heldByPartner m s).pool? n = s.pool? n ∨
    (heldByPartner m s).pool? n = (s.pool? n).map fun p => if p.num == m then p.givenUp else p := by
  obtain h | h := heldByPartner_pools m s
  · exact .inl (pool?_of_pools h n)
  · exact .inr ((pool?_of_pools h n).trans (pool?_updPool s m n fun _ => rfl))

theorem HeldAway.handed {m n : Nat} {s : State} (h : HeldAway n s) : HeldAway n (heldByPartner m s) := by
  obtain ⟨q, hq, ha⟩ := h
  obtain e | e := heldByPartner_pool? m n s
  · exact ⟨q, e.trans hq, ha⟩
  · refine ⟨_, e.trans (by rw [hq]; rfl), ?_⟩
    dsimp only
    split
    · rfl
    · exact ha

theorem heldByPartner_isSome {m n : Nat} {s : State} (h : (s.pool? n).isSome) : ((heldByPartner m s).pool? n).isSome := by
  obtain e | e := heldByPartner_pool? m n s
  · rw [e]; exact h
  · rw [e, Option.isSome_map]; exact h

theorem heldByPartner_held {n : Nat} {s : State} (h : (s.pool? n).isSome) : HeldAway n (heldByPartner n s) := by
  obtain ⟨q, hq⟩ := Option.isSome_iff_exists.1 h
  cases ha : q.away with
  | true =>
    refine ⟨q, ?_, ha⟩
    simp only [heldByPartner, hq, ha]
    exact hq
  | false =>
    have e : (heldByPartner n s).pools = (s.updPool n Pool.givenUp).pools := by
      rw [heldByPartner_eq hq ha, raisePkg_pools]; rfl
    refine ⟨q.givenUp, ?_, rfl⟩
    rw [pool?_of_pools e, pool?_updPool s n n (f := Pool.givenUp) fun _ => rfl, hq]
    simp [pool?_num hq]

/-! ### Budgets (R68, R70) -/

theorem frames_changes (s : State) (f : DieSt × Nat → DieSt) (h : ∀ x, (f x).hw = x.1.hw ∧ (f x).jr = x.1.jr ∧ (f x).recd =
    x.1.recd ∧
    (f x).evt = x.1.evt ∧ (f x).link = x.1.link ∧ (f x).rfl = x.1.rfl ∧ (f x).core = x.1.core) :
    Changes s { s with dies := s.dies.zipIdx.map f } [.frame] :=
  dies_changes _ _ _ (zipIdx_map_same (fun x => (h x).2.2.2.1) ..) (fun _ => zipIdx_map_same (fun x => (h x).2.2.2.2.2.2) ..)
    (fun _ => zipIdx_map_same (fun x => (h x).1) ..) (fun h => absurd (by decide) h)
        (fun _ => zipIdx_map_same (fun x => (h x).2.1) ..)
    (fun _ => zipIdx_map_same (fun x => (h x).2.2.1) ..) (fun _ => zipIdx_map_same (fun x => (h x).2.2.2.2.1) ..)
    (fun _ => zipIdx_map_same (fun x => (h x).2.2.2.2.2.1) ..)

/-- R70: the counts of a die's budgets, recomputed. -/
def recounted (s : State) (x : DieSt) : DieSt :=
  { x with frame := { x.frame with budgets := x.frame.budgets.map fun b =>
      let n := urgFrom s x b
      { b with urg := n, urgBase := n, changed := if n = b.urg then b.changed else s.clk.tick } } }

theorem recount_changes (s : State) : Changes s (recount s) [.frame] :=
  dies_changes s (s.dies.map (recounted s)) _ (map_map_same (f := recounted s) (fun _ => rfl) _)
      (fun _ => map_map_same (f := recounted s) (fun _ => rfl) _)
    (fun _ => map_map_same (f := recounted s) (fun _ => rfl) _) (fun h => absurd (by decide) h)
        (fun _ => map_map_same (f := recounted s) (fun _ => rfl) _)
    (fun _ => map_map_same (f := recounted s) (fun _ => rfl) _) (fun _ => map_map_same (f := recounted s) (fun _ => rfl) _)
    (fun _ => map_map_same (f := recounted s) (fun _ => rfl) _)

theorem calibrate_changes (i : PhaseIn) (s : State) : Changes s (calibrate i s) [.frame] := by
  unfold calibrate
  dsimp only
  split
  · refine Changes.trans (frames_changes _ _ ?_) (recount_changes _)
    intro x
    split <;> exact ⟨rfl, rfl, rfl, rfl, rfl, rfl, rfl⟩
  · exact .refl ..

/-! ### Units, homes and shadows (R148, R187, R364) -/

theorem discardBroken_changes (bad : List Nat) (d : Nat) (s : State) : Changes s (discardBroken bad d s) [.cache, .jr] := by
  unfold discardBroken
  split
  · exact .refl ..
  · exact ((dropBlocks_changes ..).mono (by decide)).step (dropEntries_changes ..) (by decide)

theorem rehomed_sides {s t : State} {n h : Nat} (e : t.pools.map Pool.site = (s.pools.map Pool.site).map (rehomed n h)) :
    t.pools.map Pool.side = s.pools.map Pool.side := by
  have k (u : State) : u.pools.map Pool.side = (u.pools.map Pool.site).map fun x => (x.1, x.2.2.1) := by rw [List.map_map]; rfl
  rw [k, k, e, List.map_map]
  refine List.map_congr_left fun x _ => ?_
  rw [Function.comp_apply, rehomed]
  split <;> rfl

theorem takePool_sides (num d h : Nat) (s : State) : Sides s (takePool num d h false s) moving := by
  obtain ⟨k, e⟩ := takePool_changes num d h s
  exact ⟨k, rehomed_sides e⟩

theorem adoptPools_sides (s : State) : Sides s (adoptPools s) moving := by
  refine foldl_sides _ (fun s p => ?_) ..
  split
  · exact takePool_sides ..
  · exact .refl ..

theorem newShadows_stays (s : State) : Stays s (newShadows s) [.pools] := by
  refine ⟨Frame.changes ⟨fun k hk => by cases k with | pools => simp at hk | _ => rfl⟩ (by decide) (.of_eq rfl), ?_, rfl⟩
  unfold newShadows
  dsimp only
  rw [List.map_map]
  refine List.map_congr_left fun p _ => ?_
  rw [Function.comp_apply]
  split <;> rfl

/-! ### The phase -/

/-- What the fifth phase changes. -/
abbrev replaying : List Field := .cache :: .destages :: .frame :: .jr :: .pools :: .run :: .uniq :: .vols :: ending

/-- R219: the labels of the members are judged. -/
def judged (i : PhaseIn) (s : State) : State :=
  (s.nss.filter fun n => !n.up.isEmpty).foldl (fun s n => judgeMember n.id s) (calibrate i s)

theorem judged_changes (i : PhaseIn) (s : State) : Sides s (judged i s) replaying := by
  have k : Sides s (calibrate i s) replaying := (calibrate_changes i s).withSides (by decide)
  exact k.trans (foldl_sides _ (fun _ _ => (judgeMember_sides ..).mono (by decide)) ..)

/-- R379: the pools whose keys are lost are the partner's. -/
def givenOver (l : List Nat) (s : State) : State := l.foldl (fun s n => heldByPartner n s) s

theorem givenOver_changes (l : List Nat) (s : State) : Changes s (givenOver l s) handing :=
  foldl_changes _ (fun _ _ => heldByPartner_changes ..) ..

theorem givenOver_held {l : List Nat} {n : Nat} {s : State} (hn : n ∈ l) (h : (s.pool? n).isSome) : HeldAway n (givenOver l s) :=
  foldl_attains hn (f := fun s n => heldByPartner n s) (E := fun s => (s.pool? n).isSome) (fun _ _ => heldByPartner_isSome)
      (fun _ _ => HeldAway.handed)
    (fun _ => heldByPartner_held) h

/-- R187: the units that resolve as old are discarded. -/
def resolved (i : PhaseIn) (s : State) : State :=
  s.dieIdx.foldl (fun s d => discardBroken ((i.invalid.filter fun x => x.1 == d).map (·.2)) d s) s

theorem resolved_changes (i : PhaseIn) (s : State) : Changes s (resolved i s) [.cache, .jr] :=
  foldl_changes _ (fun _ _ => discardBroken_changes ..) ..

/-- R187, R364: the pools find their dies and their shadows, and replay takes up the open intents of those in `l`. -/
def takenUp (l : List Nat) (s : State) : State :=
  l.foldl (fun s n => repairIntents n s) (toPhase 6 (newShadows (adoptPools s)))

theorem takenUp_sides (l : List Nat) (s : State) : Sides s (takenUp l s) replaying ∧ (takenUp l s).run.phase = 6 := by
  have h0 : Sides s (newShadows (adoptPools s)) replaying :=
    ((adoptPools_sides s).mono (by decide)).step ((newShadows_stays _).withSides (l := [.pools]) fun _ h => h) (by decide)
  have h1 : Sides s (toPhase 6 (newShadows (adoptPools s))) replaying := h0.trans ((toPhase_changes ..).withSides (by decide))
  have h2 := foldl_stays _ (fun s n => repairIntents_stays n s) (toPhase 6 (newShadows (adoptPools s))) l
  refine ⟨h1.trans (h2.withSides (by decide)), ?_⟩
  exact congrArg RunSt.phase (h2.frame.same .run (by decide))

theorem startup_replays {i : PhaseIn} {s : State} (hp : s.run.powered = true) (hf : s.run.pfail = none) (h5 : s.run.phase = 5) :
    RunsOn (.startupPhaseDone i) s (.cache :: .destages :: .frame :: .jr :: .pools :: .run :: .uniq :: .vols :: ending) fun t =>
      t.run.phase = 6 ∧ ∀ n ∈ i.lostKeys, (s.pool? n).isSome → ∃ q, t.pool? n = some q ∧ q.away = true := by
  have e : phaseDone i s = takenUp (replayed (resolved i (givenOver i.lostKeys (judged i s))))
      (resolved i (givenOver i.lostKeys (judged i s))) := by
    have h : phaseDone i s = phase5 i s := by simp [phaseDone, hp, hf, h5]
    exact h.trans rfl
  have k1 := judged_changes i s
  have k2 : Changes (judged i s) _ replaying := (givenOver_changes i.lostKeys _).mono (by decide)
  have k3 : Sides (givenOver i.lostKeys (judged i s)) _ replaying := (resolved_changes i _).withSides (by decide)
  obtain ⟨k4, hph⟩ := takenUp_sides (replayed (resolved i (givenOver i.lostKeys (judged i s))))
      (resolved i (givenOver i.lostKeys (judged i s)))
  refine .of_changes (startup_exec e) (((k1.toChanges.trans k2).trans k3.toChanges).trans k4.toChanges) ⟨hph, fun n hn h => ?_⟩
    (fun _ h => h)
  obtain ⟨q, hq⟩ := Option.isSome_iff_exists.1 h
  obtain ⟨q', hq', -⟩ := pool?_of_sides k1.sides hq
  exact ((givenOver_held hn (by rw [hq']; rfl)).sides k3.sides).sides k4.sides

end Sys2Proof.Machine
end

section
/-! PROOF. The sixth phase of start-up: replay has ended (R170, R187, R191, R462). -/

namespace Sys2Proof.Machine

/-! ### Pools that go offline (R250) -/

/-- Pool n is offline. -/
def Offline (n : Nat) (s : State) : Prop := ∃ q, s.pool? n = some q ∧ q.offline.isSome = true

theorem offlinePool_pools (m c : Nat) (s : State) :
    (offlinePool m c s).pools = s.pools ∨ (offlinePool m c s).pools = (s.updPool m (Pool.offlineFor c)).pools := by
  cases hp : s.pool? m with
  | none => exact .inl (by simp [offlinePool, hp])
  | some p =>
    cases ho : p.offline with
    | some k => exact .inl (by simp [offlinePool, hp, ho])
    | none =>
      rw [offlinePool_eq c hp ho]
      refine .inr (((failDurable_changes ..).frame.same .pools (by decide)).trans ?_)
      exact (raise_changes p.home 0x3130 { pool := m, cause := c } (s.updPool m (Pool.offlineFor c))).frame.same .pools (by decide)

theorem offlinePool_pool? (m c n : Nat) (s : State) : (offlinePool m c s).pool? n = s.pool? n ∨
    (offlinePool m c s).pool? n = (s.pool? n).map fun p => if p.num == m then p.offlineFor c else p := by
  obtain h | h := offlinePool_pools m c s
  · exact .inl (pool?_of_pools h n)
  · exact .inr ((pool?_of_pools h n).trans (pool?_updPool s m n fun _ => rfl))

theorem Offline.kept {m c n : Nat} {s : State} (h : Offline n s) : Offline n (offlinePool m c s) := by
  obtain ⟨q, hq, ho⟩ := h
  obtain e | e := offlinePool_pool? m c n s
  · exact ⟨q, e.trans hq, ho⟩
  · refine ⟨_, e.trans (by rw [hq]; rfl), ?_⟩
    dsimp only
    split
    · rfl
    · exact ho

theorem offlinePool_isSome {m c n : Nat} {s : State} (h : (s.pool? n).isSome) : ((offlinePool m c s).pool? n).isSome := by
  obtain e | e := offlinePool_pool? m c n s
  · rw [e]; exact h
  · rw [e, Option.isSome_map]; exact h

theorem offlinePool_offline {n : Nat} (c : Nat) {s : State} (h : (s.pool? n).isSome) : Offline n (offlinePool n c s) := by
  obtain ⟨q, hq⟩ := Option.isSome_iff_exists.1 h
  cases ho : q.offline with
  | some k => exact ⟨q, by simp [offlinePool, hq, ho], by rw [ho]; rfl⟩
  | none =>
    have e : (offlinePool n c s).pools = (s.updPool n (Pool.offlineFor c)).pools := by
      rw [offlinePool_eq c hq ho]
      refine ((failDurable_changes ..).frame.same .pools (by decide)).trans ?_
      exact (raise_changes q.home 0x3130 { pool := n, cause := c } (s.updPool n (Pool.offlineFor c))).frame.same .pools (by decide)
    refine ⟨q.offlineFor c, ?_, rfl⟩
    rw [pool?_of_pools e, pool?_updPool s n n (f := Pool.offlineFor c) fun _ => rfl, hq]
    simp [pool?_num hq]

theorem Offline.of_pools {n : Nat} {s t : State} (h : Offline n s) (e : t.pools = s.pools) : Offline n t := by
  obtain ⟨q, hq, ho⟩ := h
  exact ⟨q, (pool?_of_pools e n).trans hq, ho⟩

/-! ### Entries that the end of replay ends (R170) -/

/-- No live entry of die d is one that the end of replay ends. -/
def ReplayOver (d : Nat) (s : State) : Prop := ∀ x, s.die? d = some x → ∀ e ∈ x.jr.entries, endedByReplay e = false

theorem updJr_replayOver {s : State} {d k : Nat} {f : JournalSt → JournalSt}
    (hf : ∀ j e, e ∈ (f j).entries → e ∈ j.entries ∨ endedByReplay e = false) (h : ReplayOver d s) : ReplayOver d (s.updJr k f)
        := by
  intro x hx e he
  rw [State.updJr, updDie_die?] at hx
  split at hx
  · obtain ⟨y, hy, rfl⟩ := Option.map_eq_some_iff.1 hx
    exact (hf _ _ he).elim (h y hy e) id
  · exact h x hx e he

theorem dropEntries_replayOver_kept {s : State} {d : Nat} (k : Nat) (p : JEntry → Bool) (h : ReplayOver d s) :
    ReplayOver d (dropEntries k p s) :=
  updJr_replayOver (fun _ _ he => .inl (mem_without he).1) h

theorem dropEntries_replayOver (d : Nat) (s : State) : ReplayOver d (dropEntries d endedByReplay s) := by
  intro x hx e he
  rw [dropEntries, State.updJr, updDie_die?, if_pos rfl] at hx
  obtain ⟨y, -, rfl⟩ := Option.map_eq_some_iff.1 hx
  exact (mem_without he).2

theorem programAnchor_changes (d : Nat) (s : State) : Changes s (programAnchor d s) [.jr] := by
  unfold programAnchor
  split
  · exact .refl ..
  · exact (programJ_changes ..).trans (updJr_changes ..)

theorem programJ_replayOver {s : State} {d k : Nat} {p : Option Nat} {b : JBody} (hb : ∀ n, endedByReplay ⟨n, k, p, b⟩ = false)
    (h : ReplayOver d s) : ReplayOver d (programJ k p b s) := by
  refine updJr_replayOver (fun j e he => ?_) h
  have hm : e ∈ (j.put s.clk.tick ⟨j.next, k, p, b⟩).entries := he
  obtain rfl | hm := mem_put hm
  · exact .inr (hb _)
  · exact .inl hm

theorem programAnchor_replayOver {s : State} {d : Nat} (k : Nat) (h : ReplayOver d s) : ReplayOver d (programAnchor k s) := by
  unfold programAnchor
  split
  · exact h
  · exact updJr_replayOver (fun _ _ he => .inl he) (programJ_replayOver (fun _ => rfl) h)

/-! ### The phase -/

/-- R191: the dirty data is in write-back single. -/
def madeSingle (s : State) : State := (replayed s).foldl (fun s n => makeSingle n s) s

/-- R187: the pools with a spill segment that cannot be read go offline. -/
def readable (l : List Nat) (s : State) : State := l.foldl (fun s n => offlinePool n 3 s) s

/-- R170: what replay ends leaves the journals. -/
def replayClosed (s : State) : State := s.dieIdx.foldl (fun s d => dropEntries d endedByReplay s) s

/-- R171: each die's journal starts anew from an ANCHOR. -/
def anchored (s : State) : State := s.aliveDies.foldl (fun s d => programAnchor d s) s

theorem madeSingle_stays (s : State) : Stays s (restored (madeSingle s)) [.cache, .pools] :=
  (foldl_stays _ (fun s n => makeSingle_stays n s) s _).also (cache_changes ..) (by decide)

theorem readable_changes (l : List Nat) (s : State) : Changes s (readable l s) goingOffline :=
  foldl_changes _ (fun _ _ => (offlinePool_stays ..).toChanges) ..

theorem replayClosed_changes (s : State) : Changes s (replayClosed s) [.jr] := foldl_changes _
    (fun _ _ => dropEntries_changes ..) ..

theorem anchored_changes (s : State) : Changes s (anchored s) [.jr] := foldl_changes _ (fun _ _ => programAnchor_changes ..) ..

theorem readable_offline {l : List Nat} {n : Nat} {s : State} (hn : n ∈ l) (h : (s.pool? n).isSome) : Offline n (readable l s) :=
  foldl_attains hn (f := fun s n => offlinePool n 3 s) (E := fun s => (s.pool? n).isSome) (fun _ _ => offlinePool_isSome)
    (fun _ _ => Offline.kept) (fun _ => offlinePool_offline 3) h

theorem goodCopy_congr {s t : State} (h : t.pools.map Pool.site = s.pools.map Pool.site) (bad : List (Nat × Nat × Nat)) :
    goodCopy t bad = goodCopy s bad := by
  funext g
  have k (u : State) (m : Nat) : ((u.pool? g.pool).any fun p => (p.members[m]?).any fun x => x.state != .failed) =
      ((u.pools.map Pool.site).find? fun x => x.1 == g.pool).any fun x => (x.2.2.2.2.2[m]?).any fun x => x.state != .failed := by
    rw [← pool?_site]
    cases u.pool? g.pool <;> rfl
  simp only [goodCopy, k, h]

theorem unreadable_congr {s t : State} (hj : t.dies.map (·.jr) = s.dies.map (·.jr))
    (h : t.pools.map Pool.site = s.pools.map Pool.site)
    (bad : List (Nat × Nat × Nat)) : unreadable bad t = unreadable bad s := by
  have k (u : State) : unreadable bad u =
      ((u.dies.map (·.jr)).flatMap fun j => (j.segs.filter fun g => (goodCopy u bad g).isNone).map (·.pool)).eraseDups := by
    rw [List.flatMap_map]; rfl
  rw [k, k, hj, goodCopy_congr h]

theorem replayOver_closed (s : State) (d : Nat) : ReplayOver d (anchored (replayClosed s)) := by
  have h : ReplayOver d (replayClosed s) := by
    cases hx : s.die? d with
    | none =>
      intro x hy
      obtain ⟨z, hz, -⟩ := die_of_map ((replayClosed_changes s).frame.same .hw (by decide)).symm hy
      rw [hx] at hz
      exact absurd hz (by simp)
    | some x =>
      exact foldl_attains (mem_dieIdx hx) (f := fun s d => dropEntries d endedByReplay s) (E := fun _ => True)
          (fun _ _ _ => trivial)
        (fun _ b => dropEntries_replayOver_kept b _) (fun s _ => dropEntries_replayOver d s) trivial
  exact List.foldlRecOn _ _ (motive := ReplayOver d) h fun t k a _ => programAnchor_replayOver a k

theorem startup_replayed {i : PhaseIn} {s : State} (hp : s.run.powered = true) (hf : s.run.pfail = none) (h6 : s.run.phase = 6)
    (hd : s.destages = []) : RunsOn (.startupPhaseDone i) s (.cache :: .destages :: .jr :: .pools :: .run :: .vols :: ending)
        fun t =>
      t.run.phase = 7 ∧ (∀ n ∈ unreadable i.badCopies s, ∀ q, s.pool? n = some q → ∃ q', t.pool? n = some q' ∧ q'.offline.isSome) ∧
      ∀ x ∈ t.dies, ∀ e ∈ x.jr.entries, endedByReplay e = false := by
  have k1 := madeSingle_stays s
  have hu := unreadable_congr (k1.frame.same .jr (by decide)) k1.sites i.badCopies
  have e : phaseDone i s = toPhase 7 (anchored (replayClosed (readable (unreadable i.badCopies s) (restored (madeSingle s)))))
      := by
    have h : phaseDone i s = phase6 i s := by simp [phaseDone, hp, hf, h6]
    rw [h, phase6, hd, ← hu]
    rfl
  have k2 : Changes s (readable (unreadable i.badCopies s) (restored (madeSingle s))) (.cache :: .jr :: .run :: goingOffline) :=
    (k1.toChanges.mono (by decide)).step (readable_changes ..) (by decide)
  have k3 : Changes (readable (unreadable i.badCopies s) (restored (madeSingle s))) (anchored (replayClosed _)) [.jr] :=
    (replayClosed_changes _).trans (anchored_changes _)
  refine .of_changes (startup_exec e) ((k2.step k3 (by decide)).step (toPhase_changes ..) (by decide))
      ⟨rfl, fun n hn q hq => ?_, fun x hx => ?_⟩
    (by decide)
  · obtain ⟨q', hq', -⟩ := pool?_of_sites k1.sites hq
    exact (readable_offline hn (by rw [hq']; rfl)).of_pools (k3.frame.same .pools (by decide))
  · obtain ⟨d, hd⟩ := List.mem_iff_getElem?.1 hx
    exact replayOver_closed _ d x hd

/-- R187: replay goes on while destages are under way. -/
theorem startup_replaying {i : PhaseIn} {s : State} (hp : s.run.powered = true) (hf : s.run.pfail = none) (h6 : s.run.phase = 6)
    (hd : s.destages ≠ []) : RunsOn (.startupPhaseDone i) s [] fun t => t.run.phase = 6 := by
  have e : phaseDone i s = s := by
    have hn : (!s.destages.isEmpty) = true := by simpa using hd
    simp [phaseDone, hp, hf, h6, phase6, hn]
  exact .of_changes (startup_exec e) (.refl ..) h6 (fun _ h => h)

end Sys2Proof.Machine
end

section
/-! PROOF. The seventh phase of start-up: the package is ready, or halts for a pool that no die in service can serve
    (R354, R356, R379,
R462, R463). -/

namespace Sys2Proof.Machine

/-! ### Ready (R74, R354, R463) -/

/-- R462, R463: the pair state of a package that gets ready. -/
def readyPair (i : PhaseIn) (s : State) : PairSt :=
  { s.pair with state := .survivor, armed := true, holdIn := i.holdIn, since := s.clk.tick % (top48 + 1),
                partnerSn := if i.partner then padTo 20 i.partnerSn else s.pair.partnerSn,
                partnerProt := if i.partner then i.partnerProt else [] }

/-- R354, R462: the holds are high and phase 8 begins. -/
def readied (i : PhaseIn) (s : State) : State :=
  { s with id := { s.id with inPair := i.partner }, pair := readyPair i s, dies := s.dies.map raiseHold,
           clk := { s.clk with seen := s.clk.seen && s.pair.partnerSn == (readyPair i s).partnerSn },
           run := { s.run with phase := 8, readyAt := s.clk.tick, fromPower := false } }

/-- R463: a package that gets ready tells the hosts. -/
def announced (i : PhaseIn) (s : State) : State :=
  sendReadiness (if s.run.fromPower then readied i s else raisePkg 0x7030 {} (readied i s))

/-- R356: some pool that the package serves has no die in service. -/
def homeless (s : State) : Bool := s.pools.any fun p => !p.away && !s.alive p.home

theorem becomeReady_eq (i : PhaseIn) (s : State) : becomeReady i s =
    if homeless (announced i s) then packageYield (announced i s).id.lead 0x0A {} (announced i s) else announced i s := rfl

theorem raiseHold_keeps (x : DieSt) : (raiseHold x).alive = x.alive ∧ (raiseHold x).hw = x.hw ∧ (raiseHold x).frame = x.frame ∧
    (raiseHold x).jr = x.jr ∧ (raiseHold x).recd = x.recd ∧ (raiseHold x).evt = x.evt ∧ (raiseHold x).link = x.link ∧
    (raiseHold x).rfl = x.rfl := by
  unfold raiseHold
  generalize h : x.alive = a
  cases a with
  | true => exact ⟨h, rfl, rfl, rfl, rfl, rfl, rfl, rfl⟩
  | false => exact ⟨h, rfl, rfl, rfl, rfl, rfl, rfl, rfl⟩

theorem readied_changes (i : PhaseIn) (s : State) : Changes s (readied i s) [.clk, .health, .id, .pair, .run] := by
  have k := raiseHold_keeps
  have h : Changes s { s with dies := s.dies.map raiseHold } [.clk, .health, .id, .pair, .run] :=
    dies_changes _ _ _ (map_map_same (fun x => (k x).2.2.2.2.2.1) _) (fun h => absurd (by decide) h)
      (fun _ => map_map_same (fun x => (k x).2.1) _) (fun _ => map_map_same (fun x => (k x).2.2.1) _)
      (fun _ => map_map_same (fun x => (k x).2.2.2.1) _) (fun _ => map_map_same (fun x => (k x).2.2.2.2.1) _)
      (fun _ => map_map_same (fun x => (k x).2.2.2.2.2.2.1) _) (fun _ => map_map_same (fun x => (k x).2.2.2.2.2.2.2) _)
  exact h.trans (Frame.changes ⟨fun k hk => by cases k with | clk | health | id | pair | run => simp at hk | _ => rfl⟩
    (by decide) (.of_eq rfl))

theorem readied_alive (i : PhaseIn) (s : State) : (readied i s).alive = s.alive := by
  funext d
  have e : (readied i s).die? d = (s.die? d).map raiseHold := List.getElem?_map ..
  rw [State.alive, e, State.alive]
  cases s.die? d with
  | none => rfl
  | some x => exact (raiseHold_keeps x).1

theorem readied_holds (i : PhaseIn) (s : State) : ∀ x ∈ (readied i s).dies, x.alive = true → x.hold = true := by
  intro x hx ha
  obtain ⟨y, -, rfl⟩ := List.mem_map.1 hx
  rw [(raiseHold_keeps y).1] at ha
  rw [raiseHold, if_pos ha]

theorem sendReadiness_changes (s : State) : Changes s (sendReadiness s) [.out] := by
  refine foldl_changes _ (fun s d => ?_) ..
  split
  · exact emit_changes ..
  · exact .refl ..

theorem announced_changes (i : PhaseIn) (s : State) : Changes (readied i s) (announced i s) raising := by
  unfold announced
  split
  · exact (sendReadiness_changes ..).mono (by decide)
  · exact (raisePkg_changes ..).step (sendReadiness_changes ..) (by decide)

theorem announced_alive (i : PhaseIn) (s : State) : (announced i s).alive = s.alive :=
  (alive_congr ((announced_changes i s).frame.same .health (by decide))).trans (readied_alive i s)

/-- Every die in service holds its line high. -/
def Holding (s : State) : Prop := ∀ x ∈ s.dies, x.alive = true → x.hold = true

theorem Holding.changes {s t : State} {l : List Field} (h : Holding s) (k : Changes s t l) (e : .health ∉ l) : Holding t := by
  intro x hx ha
  obtain ⟨d, hd⟩ := List.mem_iff_getElem?.1 hx
  obtain ⟨y, hy, c⟩ := die_of_map (k.frame.same .health e).symm hd
  have hh : y.core.hold = x.core.hold := congrArg DieSt.hold c
  exact hh.symm.trans (h y (List.mem_of_getElem? hy) ((alive_of_core c).trans ha))

theorem homeless_announced (i : PhaseIn) (s : State) : homeless (announced i s) = homeless s := by
  have hp : (announced i s).pools = s.pools := (announced_changes i s).frame.same .pools (by decide)
  rw [homeless, hp, announced_alive, homeless]

/-- R462: a yield of the package leaves the phase of its start-up. -/
theorem packageYield_phase (d cause : Nat) (i : HaltInfo) (s : State) :
    (packageYield d cause i s).run.phase = s.run.phase ∧ (packageYield d cause i s).run.readyAt = s.run.readyAt := by
  rw [packageYield_eq]
  split
  · exact ⟨rfl, rfl⟩
  · have k : Changes s (sendMessages (beforeHalt d cause s)) (.fns :: .link :: .rfl :: .reg :: .log :: raising) :=
      ((beforeHalt_changes ..).mono (by decide)).step (sendMessages_changes _) (by decide)
    have hr : (sendMessages (beforeHalt d cause s)).run = s.run := k.frame.same .run (by decide)
    have hp : (sendMessages (beforeHalt d cause s)).run.phase = s.run.phase := by rw [hr]
    have ha : (sendMessages (beforeHalt d cause s)).run.readyAt = s.run.readyAt := by rw [hr]
    exact ⟨hp, ha⟩

/-! ### The pools of the package (R379) -/

/-- R379: what of the pools is left to the package: none appears, and those of other numbers stay. -/
def LeftOf (l : List Nat) (s t : State) : Prop :=
  (∀ q ∈ t.pools, q.away = true ∨ q ∈ s.pools) ∧ ∀ q ∈ s.pools, q.num ∉ l → q ∈ t.pools

theorem heldByPartner_left (n : Nat) (s : State) : LeftOf [n] s (heldByPartner n s) := by
  obtain h | h := heldByPartner_pools n s
  · exact ⟨fun q hq => .inr (h ▸ hq), fun q hq _ => h ▸ hq⟩
  · refine ⟨fun q hq => ?_, fun q hq hn => ?_⟩
    · rw [h] at hq
      obtain ⟨p, hp, rfl⟩ := List.mem_map.1 hq
      split
      · exact .inl rfl
      · exact .inr hp
    · rw [h]
      exact List.mem_map.2 ⟨q, hq, if_neg (by simpa using hn)⟩

theorem givenOver_left (l : List Nat) (s : State) : LeftOf l s (givenOver l s) := by
  induction l generalizing s with
  | nil => exact ⟨fun _ h => .inr h, fun _ h _ => h⟩
  | cons n l ih =>
    obtain ⟨h1, h2⟩ := heldByPartner_left n s
    obtain ⟨k1, k2⟩ := ih (heldByPartner n s)
    refine ⟨fun q hq => (k1 q hq).elim .inl (h1 q), fun q hq hn => ?_⟩
    obtain ⟨hn, hl⟩ : q.num ≠ n ∧ q.num ∉ l := by simpa using hn
    exact k2 q (h2 q hq (by simpa using hn)) hl

/-! ### The phase -/

/-- What the seventh phase changes. -/
abbrev gettingReady : List Field := .cache :: .clk :: .cmds :: .destages :: .fns :: .health :: .id :: .jr :: .link :: .log ::
    .mcmds ::
  .pair :: .pools :: .reg :: .rfl :: .run :: .vols :: raising

theorem startup_ready {i : PhaseIn} {s : State} (hp : s.run.powered = true) (hf : s.run.pfail = none) (h7 : s.run.phase = 7) :
    RunsOn (.startupPhaseDone i) s gettingReady fun t =>
      t.run.phase = 8 ∧ t.id.inPair = i.partner ∧ t.run.readyAt = s.clk.tick ∧
      ((∀ q ∈ s.pools, q.away = false → s.alive q.home = true) → t.run.halted = s.run.halted ∧ t.pair.armed = true ∧
        t.pair.state = .survivor ∧ (i.partner = true → t.pair.partnerProt = i.partnerProt) ∧
        ∀ x ∈ t.dies, x.alive = true → x.hold = true) ∧
      ((∃ q ∈ s.pools, q.away = false ∧ s.alive q.home = false ∧ q.num ∉ i.lostKeys) → t.run.halted = true) := by
  have e : phaseDone i s = becomeReady i (givenOver i.lostKeys s) := by
    have h : phaseDone i s = phase7 i s := by simp [phaseDone, hp, hf, h7]
    exact h.trans rfl
  generalize hu : givenOver i.lostKeys s = u at e
  have k0 : Changes s u handing := hu ▸ givenOver_changes ..
  have k1 : Changes s (readied i u) gettingReady := (k0.mono (by decide)).step (readied_changes ..) (by decide)
  have k2 := announced_changes i u
  have hr : (announced i u).run = (readied i u).run := k2.frame.same .run (by decide)
  have hpair : (announced i u).pair = readyPair i u := k2.frame.same .pair (by decide)
  have hid : (announced i u).id = (readied i u).id := k2.frame.same .id (by decide)
  have hclk : u.clk = s.clk := k0.frame.same .clk (by decide)
  have halive : u.alive = s.alive := alive_congr (k0.frame.same .health (by decide))
  have hhalt : (announced i u).run.halted = s.run.halted := by
    have h : u.run = s.run := k0.frame.same .run (by decide)
    have k : u.run.halted = s.run.halted := by rw [h]
    rw [hr]; exact k
  obtain ⟨hl, hk⟩ := givenOver_left i.lostKeys s
  rw [hu] at hl hk
  cases hh : homeless u with
  | false =>
    rw [becomeReady_eq, homeless_announced, hh, if_neg (by decide)] at e
    refine .of_changes (startup_exec e) (k1.step k2 (by decide)) ⟨by rw [hr]; rfl, by rw [hid]; rfl, by rw [hr, ← hclk]; rfl,
      fun _ => ⟨hhalt, by rw [hpair]; rfl, by rw [hpair]; rfl, fun hq => by rw [hpair]; exact if_pos hq,
        Holding.changes (readied_holds i u) k2 (by decide)⟩, ?_⟩ (fun _ h => h)
    rintro ⟨q, hq, ha, hd, hn⟩
    have hc : homeless u = true := List.any_eq_true.2 ⟨q, hk q hq hn, by simp [ha, halive, hd]⟩
    exact absurd (hc.symm.trans hh) (by simp)
  | true =>
    rw [becomeReady_eq, homeless_announced, hh, if_pos rfl] at e
    have k3 := packageYield_changes (announced i u).id.lead 0x0A {} (announced i u)
    obtain ⟨hph, hat⟩ := packageYield_phase (announced i u).id.lead 0x0A {} (announced i u)
    refine .of_changes (startup_exec e) ((k1.step k2 (by decide)).step k3 (by decide))
      ⟨hph.trans (by rw [hr]; rfl), (congrArg IdentSt.inPair ((k3.frame.same .id (by decide)).trans hid)).trans rfl,
        hat.trans (by rw [hr, ← hclk]; rfl), fun h => ?_, fun _ => ?_⟩ (fun _ h => h)
    · obtain ⟨q, hq, hb⟩ := List.any_eq_true.1 hh
      obtain ⟨ha, hd⟩ : q.away = false ∧ u.alive q.home = false := by simpa using hb
      obtain hx | hx := hl q hq
      · exact absurd (hx.symm.trans ha) (by simp)
      · exact absurd ((h q hx ha).symm.trans ((congrFun halive _).symm.trans hd)) (by simp)
    · cases hb : (announced i u).run.halted with
      | false => exact (packageYield_halts hb).1
      | true =>
        rw [packageYield_eq, if_pos hb]
        exact hb

/-! ### Start-up -/

/-- Settles O44: each phase by its own theorem. -/
theorem startupAdvances : Obligations.StartupAdvances := by
  unfold Obligations.StartupAdvances
  refine ⟨fun s h => powerUp_runs h, fun i s hp hf
      => ⟨fun h => ⟨fun b g hb hg => startup_boots hp hf h hb hg, fun hb => startup_stuck hp hf h hb⟩,
    ?_, fun h => startup_trains hp hf h, fun h => startup_restores hp hf h, fun h => startup_replays hp hf h,
    fun h => ⟨startup_replayed hp hf h, startup_replaying hp hf h⟩, fun h => startup_ready hp hf h⟩⟩
  rintro h u rfl
  exact ⟨fun l hl => startup_leads hp hf h hl, fun hl => startup_leaderless hp hf h hl⟩

end Sys2Proof.Machine
end

section
/-! PROOF. O39 fails: a takeover ends commands that the new homes of the partner's pools were counted with (R8, R364). -/

namespace Sys2Proof.Machine

/-! ### A takeover that frees the die it needs -/

/-- An enabled ring of die 0 with one posted entry. -/
def controlRing : Ring :=
  { die := 0, idx := 1, fn := 0, window := 1, notif := false, setup := false, cls := 1, weight := 1, burst := 1, size := 16,
    base := 0, vector := 0, tenant := none, state := .enabled, tail := 1, bells := [0] }

/-- PARTNER CONTROL with action 4, takeover (R503), at the head of that ring. -/
def takeoverPost : Post := { die := 0, ring := 1, entry := { tail := 4 }, buf := [] }

/-- CREATE POOL of 600 members with home die 0 and shadow die 1, waiting for their formats (R8, R217). -/
def bigCreate : Cmd :=
  { ref := ⟨0, 1, 5⟩, op := .createPool, entry := {}, buf := [0, 0, 0, 1] ++ le 2 600, fn := 0, tenant := none, cls := 1, bell
      := 0,
    at_ := 0, stage := .waiting, mwait := [0] }

/-- A queue pair to the partner. -/
def partnerQp : Qp := { die := 0, loc := 0, rem := 0x8000, error := false }

/-- A message of that queue pair, which carries out the command of `bigCreate`. -/
def createMsg : Msg :=
  { die := 0, msgno := 0, cmd := some bigCreate.ref, isResp := false, op := 1, src := 0, dst := 0x8000, segs := [], acked := [],
    first := 0, again := [], resp := [], respN := 0, answered := false, result := 0 }

/-- A pool of die 0 that the partner holds. -/
def partnerPool : Pool := { listPool [] with away := true }

/-- A die in service, its host link up. -/
def linkedDie : DieSt := { DieSt.reset with linkUp := true, perst := true, hold := true }

/-- A ready package, separated from its partner and awaiting the host, whose two dies are both full with the pool being created. -/
def crowded : State :=
  { State.reset with
    id := { State.reset.id with inPair := true }, run := { RunSt.reset with phase := 8 }, dies := [linkedDie, linkedDie],
    clk := { State.reset.clk with tick := 1 }, rings := [controlRing], cmds := [bigCreate], pools := [partnerPool],
    pair := { PairSt.reset with state := .separated, awaiting := true, armed := true, holdIn := false },
    refl := { State.reset.refl with qps := [partnerQp], msgs := [createMsg] } }

theorem crowded_permitted : Permitted .partnerControl takeoverPost controlRing crowded where
  ring := rfl
  ready := by decide +kernel
  good := by decide +kernel
  direct := rfl
  allowed := by decide +kernel
  free := by decide +kernel
  read := by decide +kernel

/-- R364: no die can take the partner's pool while the pool being created counts. -/
theorem crowded_newHome : newHome crowded partnerPool (some partnerPool.home) = none := by decide +kernel

/-- R110: whether a row leaves the package in HALTED. -/
def haltsIn : Host.Outcome State Fault Refusal → Bool
  | .next t => t.run.halted
  | _ => true

/-- R347, R373: the takeover ends the queue pair's messages, and the command with them; die 0 then takes the pool. -/
theorem crowded_takes : haltsIn (exec (.partnerControl takeoverPost) crowded) = false := by decide +kernel

/-- R110: in HALTED nothing waits to be brought forward. -/
theorem settle_halted {s : State} (h : s.run.halted = true) : settle s = s := by
  simp [settle, State.drives, State.running, h]

/-- Refutes O39: PARTNER CONTROL with action 4, where no die can take the partner's pool, need not make the package yield. What a die
reaches counts the members of the pools being created (R8), and the takeover ends the commands whose messages went to the partner
(R347) before it looks for the pool's new home. In the counterexample the only message carries out such a CREATE POOL. -/
theorem not_maintenanceCommands : ¬ Obligations.MaintenanceCommands := by
  unfold Obligations.MaintenanceCommands
  intro h
  obtain ⟨-, -, -, -, hpartner⟩ := h takeoverPost controlRing crowded rfl
  obtain ⟨-, -, -, -, -, -, -, -, -, himports⟩ := hpartner crowded_permitted rfl rfl rfl rfl rfl
  obtain ⟨-, -, hone⟩ := himports (by decide +kernel) rfl rfl (by decide +kernel)
  obtain ⟨hnone, -⟩ := hone partnerPool rfl rfl
  obtain ⟨t, hrow, ⟨hhalted, -, -⟩, -⟩ := hnone crowded_newHome
  have hrun := crowded_takes
  rw [hrow, settle_halted hhalted] at hrun
  exact Bool.noConfusion (hhalted.symm.trans hrun)

end Sys2Proof.Machine
end

section
/-! SUPPORT. What a tick puts into force (R47, R52, R440, R484), looked at alone: the settings of the state, and the operations
    that
leave them. -/

namespace Sys2Proof.Machine

/-! ### The settings -/

/-- What a tick counts and what it puts into force, with what it decides that by. -/
@[ext]
structure Settings where
  tick : Nat
  optime : Nat
  /-- whether power is up, the end of the power-fail sequence, the phase of start-up, and whether start-up came from power-up -/
  stage : Bool × Option Nat × Nat × Bool
  now : Feats
  next : Option Feats
  later : List Later
  healthAddr : W64
  secret : Option Bytes
  witness : Option Nat
  holdIn : Bool
  ack : Bool
  /-- of each die: vault mode, its vault namespaces, and how long it can be held up -/
  vaults : List (Bool × List Nat × Nat)
  /-- of each die: whether it sheds, and whether it stops shedding -/
  sheds : List (Bool × Bool)
  remaps : List (List (Nat × Nat) × List (Nat × Nat))
  ages : List (Nat × Nat)
  policies : List (Nat × Bool)
  /-- of each tenant: its number, its settings, and those that wait -/
  shares : List (Nat × Qos × Option Qos)
  samples : List Nat

def DieSt.vaulting (x : DieSt) : Bool × List Nat × Nat := (x.vault, x.vaultNs, x.holdUp)

def DieSt.shedding (x : DieSt) : Bool × Bool := (x.frame.shed, x.frame.recovering)

def Pool.aging (p : Pool) : Nat × Nat := (p.num, p.age)

def Tenant.share (x : Tenant) : Nat × Qos × Option Qos := (x.num, x.qos, x.qosNext)

def State.settings (s : State) : Settings where
  tick := s.clk.tick
  optime := s.clk.optime
  stage := (s.run.powered, s.run.pfEnd, s.run.phase, s.run.fromPower)
  now := s.feat.now
  next := s.feat.next
  later := s.feat.later
  healthAddr := s.feat.healthAddr
  secret := s.log.secret
  witness := s.pair.witness
  holdIn := s.pair.holdIn
  ack := s.reg.ack
  vaults := s.dies.map DieSt.vaulting
  sheds := s.dies.map DieSt.shedding
  remaps := s.dies.map DieSt.remaps
  ages := s.pools.map Pool.aging
  policies := s.vols.map Vol.policy
  shares := s.tenants.map Tenant.share
  samples := s.pw.samples

/-- The kinds of state that hold settings, but for the EVT blocks. -/
abbrev settling : List Field := [.clk, .health, .frame, .pools, .vols, .tenants, .pair, .pw, .run, .log, .feat, .reg]

/-! ### Operations that leave the settings -/

/-- A change of the listed kinds of state that leaves the settings, and what was put out put out. -/
structure Steady (s t : State) (l : List Field) : Prop where
  frame : Frame s t l
  grows : Grows s t
  kept : t.settings = s.settings

theorem Steady.refl (s : State) (l : List Field) : Steady s s l := ⟨.refl .., .refl _, rfl⟩

theorem Steady.trans {s t u : State} {l : List Field} (h : Steady s t l) (k : Steady t u l) : Steady s u l :=
  ⟨h.frame.trans k.frame, h.grows.trans k.grows, k.kept.trans h.kept⟩

theorem Steady.mono {s t : State} {l m : List Field} (h : Steady s t l) (e : ∀ f ∈ l, f ∈ m) : Steady s t m :=
  ⟨h.frame.mono e, h.grows, h.kept⟩

/-- One more operation, whose kinds of state are among those listed. -/
theorem Steady.step {s t u : State} {l m : List Field} (h : Steady s t l) (k : Steady t u m) (e : ∀ f ∈ m, f ∈ l) :
    Steady s u l :=
  h.trans (k.mono e)

theorem foldl_steady {α : Type} {l : List Field} (f : State → α → State) (h : ∀ s a, Steady s (f s a) l) (s : State)
    (as : List α) : Steady s (as.foldl f s) l := by
  induction as generalizing s with
  | nil => exact .refl ..
  | cons a as ih => exact (h s a).trans (ih _)

/-- A change whose settings are seen to be the same. -/
theorem Changes.steady {s t : State} {l : List Field} (h : Changes s t l) (e : t.settings = s.settings) : Steady s t l :=
  ⟨h.frame, h.grows, e⟩

theorem map_core {β : Type} {s t : State} (h : t.dies.map DieSt.core = s.dies.map DieSt.core) (g : DieSt → β)
    (hg : ∀ x, g x.core = g x) : t.dies.map g = s.dies.map g := by
  have k (u : State) : u.dies.map g = (u.dies.map DieSt.core).map g := by
    rw [List.map_map]
    exact List.map_congr_left fun x _ => (hg x).symm
  rw [k, k, h]

theorem map_frame {s t : State} (h : t.dies.map (·.frame) = s.dies.map (·.frame)) :
    t.dies.map DieSt.shedding = s.dies.map DieSt.shedding := by
  have k (u : State) : u.dies.map DieSt.shedding = (u.dies.map (·.frame)).map fun f => (f.shed, f.recovering) := by
    rw [List.map_map]; rfl
  rw [k, k, h]

theorem map_share {s t : State} (h : (t.tenants.map fun x => { x with meters := {} }) = s.tenants.map fun x
    => { x with meters := {} }) :
    t.tenants.map Tenant.share = s.tenants.map Tenant.share := by
  have k (u : State) : u.tenants.map Tenant.share = (u.tenants.map fun x => { x with meters := {} }).map Tenant.share := by
    rw [List.map_map]; rfl
  rw [k, k, h]

/-- The pool and volume settings apart, what holds settings is left. -/
theorem Changes.settings {s t : State} {l : List Field} (h : Changes s t l) (hp : t.pools.map Pool.aging = s.pools.map Pool.aging)
    (hv : t.vols.map Vol.policy = s.vols.map Vol.policy) (e : ∀ f ∈ settling, f ∈ l → f = .pools ∨ f = .vols) :
    t.settings = s.settings := by
  have k (f : Field) (hf : f ∈ settling) (hn : f ≠ .pools ∧ f ≠ .vols) : f.same s t :=
    h.frame.same f fun hl => (e f hf hl).elim hn.1 hn.2
  have clk : t.clk = s.clk := k .clk (by decide) (by decide)
  have run : t.run = s.run := k .run (by decide) (by decide)
  have feat : t.feat = s.feat := k .feat (by decide) (by decide)
  have log : t.log = s.log := k .log (by decide) (by decide)
  have pair : t.pair = s.pair := k .pair (by decide) (by decide)
  have reg : t.reg = s.reg := k .reg (by decide) (by decide)
  have pw : t.pw = s.pw := k .pw (by decide) (by decide)
  unfold State.settings
  rw [clk, run, feat, log, pair, reg, pw, hp, hv, h.remaps, map_core (k .health (by decide) (by decide)) DieSt.vaulting fun _
      => rfl,
    map_frame (k .frame (by decide) (by decide)), map_share (k .tenants (by decide) (by decide))]

/-- A change of kinds of state that hold no settings. -/
theorem Changes.still {s t : State} {l : List Field} (h : Changes s t l) (e : ∀ f ∈ settling, f ∉ l) : Steady s t l := by
  have hp : t.pools = s.pools := h.frame.same .pools (e .pools (by decide))
  have hv : t.vols = s.vols := h.frame.same .vols (e .vols (by decide))
  exact h.steady (h.settings (by rw [hp]) (by rw [hv]) fun f hf hl => absurd hl (e f hf))

/-- Background work on pools and volumes leaves their settings. -/
theorem Stays.still {s t : State} {l : List Field} (h : Stays s t l) (e : ∀ f ∈ settling, f ∈ l → f = .pools ∨ f = .vols) :
    Steady s t l := by
  have k (u : State) : u.pools.map Pool.aging = (u.pools.map Pool.site).map fun x => (x.1, x.2.2.2.2.1) := by
    rw [List.map_map]; rfl
  exact h.steady (h.settings (by rw [k, k, h.sites]) h.policies e)

/-- One more operation on kinds of state that hold no settings. -/
theorem Steady.also {s t u : State} {l m : List Field} (h : Steady s t l) (k : Changes t u m)
    (e : (∀ f ∈ settling, f ∉ m) ∧ ∀ f ∈ m, f ∈ l) : Steady s u l :=
  h.step (k.still e.1) e.2

end Sys2Proof.Machine
end

section
/-! SUPPORT. Yields, kerfs and units out of service leave the settings (R110, R352 to R356, R391). -/

namespace Sys2Proof.Machine

/-! ### The dies -/

theorem dies_settings {s : State} {ds : List DieSt} (hv : ds.map DieSt.vaulting = s.dies.map DieSt.vaulting)
    (hs : ds.map DieSt.shedding = s.dies.map DieSt.shedding) (hr : ds.map DieSt.remaps = s.dies.map DieSt.remaps) :
    { s with dies := ds }.settings = s.settings := by
  unfold State.settings
  dsimp only
  rw [hv, hs, hr]

theorem updDie_settings (s : State) (d : Nat) (f : DieSt → DieSt)
    (h : ∀ x, (f x).vaulting = x.vaulting ∧ (f x).shedding = x.shedding ∧ (f x).remaps = x.remaps) :
    (s.updDie d f).settings = s.settings :=
  dies_settings (updDie_map _ _ _ _ fun x => (h x).1) (updDie_map _ _ _ _ fun x => (h x).2.1)
      (updDie_map _ _ _ _ fun x => (h x).2.2)

theorem mapDies_settings (s : State) (f : DieSt → DieSt)
    (h : ∀ x, (f x).vaulting = x.vaulting ∧ (f x).shedding = x.shedding ∧ (f x).remaps = x.remaps) :
    { s with dies := s.dies.map f }.settings = s.settings :=
  dies_settings (map_map_same (fun x => (h x).1) _) (map_map_same (fun x => (h x).2.1) _) (map_map_same (fun x => (h x).2.2) _)

theorem zipDies_settings (s : State) (f : DieSt × Nat → DieSt)
    (h : ∀ x, (f x).vaulting = x.1.vaulting ∧ (f x).shedding = x.1.shedding ∧ (f x).remaps = x.1.remaps) :
    { s with dies := s.dies.zipIdx.map f }.settings = s.settings :=
  dies_settings (zipIdx_map_same (fun x => (h x).1) _ _) (zipIdx_map_same (fun x => (h x).2.1) _ _)
    (zipIdx_map_same (fun x => (h x).2.2) _ _)

/-- A change of a die's accounting beside its shedding. -/
theorem updFrame_steady (s : State) (d : Nat) (f : FrameSt → FrameSt)
    (h : ∀ x, (f x).shed = x.shed ∧ (f x).recovering = x.recovering) : Steady s (s.updFrame d f) [.frame] :=
  (updFrame_changes ..).steady (updDie_settings _ _ _ fun _ => ⟨rfl, Prod.ext (h _).1 (h _).2, rfl⟩)

/-! ### The parts that hold a few settings -/

theorem pair_steady (s : State) (x : PairSt) (h : x.holdIn = s.pair.holdIn ∧ x.witness = s.pair.witness) :
    Steady s { s with pair := x } [.pair] := by
  refine (pair_changes ..).steady ?_
  unfold State.settings
  dsimp only
  rw [h.1, h.2]

theorem log_steady (s : State) (x : LogSt) (h : x.secret = s.log.secret) : Steady s { s with log := x } [.log] := by
  refine (log_changes ..).steady ?_
  unfold State.settings
  dsimp only
  rw [h]

theorem reg_steady (s : State) (x : RegSt) (h : x.ack = s.reg.ack) : Steady s { s with reg := x } [.reg] := by
  refine (reg_changes ..).steady ?_
  unfold State.settings
  dsimp only
  rw [h]

/-- What of the run holds settings. -/
def RunSt.stage (x : RunSt) : Bool × Option Nat × Nat × Bool := (x.powered, x.pfEnd, x.phase, x.fromPower)

theorem run_steady (s : State) (x : RunSt) (h : x.stage = s.run.stage) : Steady s { s with run := x } [.run] := by
  refine (run_changes ..).steady ?_
  unfold State.settings
  dsimp only
  rw [show (x.powered, x.pfEnd, x.phase, x.fromPower) = x.stage from rfl, h]
  rfl

/-! ### Kerfs -/

theorem gapOver_steady (nums : List Nat) (n : Nat) (s : State) : Steady s (gapOver nums n s) [.cmds, .pair] :=
  (gapOver_changes ..).steady rfl

theorem kerfEnd_steady (nums : List Nat) (s : State) : Steady s (kerfEnd nums s) [.cmds, .pair] := by
  refine (kerfEnd_changes nums s).steady ?_
  unfold kerfEnd
  split <;> rfl

theorem kerfOver_steady (nums : List Nat) (s : State) : Steady s (kerfOver nums s) [.cmds, .pair] := by
  unfold kerfOver
  dsimp only
  split
  · exact kerfEnd_steady ..
  · exact ((pair_steady _ _ (by exact ⟨rfl, rfl⟩)).mono (by decide)).step (gapOver_steady ..) (by decide)

theorem kerfBrief_steady (bound : Nat) (s : State) : Steady s (kerfBrief bound s) [.free, .pair] :=
  (((free_changes s _).still (by decide)).mono (by decide)).step ((countKerf_changes ..).steady rfl) (by decide)

theorem openKerf_steady (f b : Nat) (l : List Nat) (s : State) : Steady s (openKerf f b l s) [.pair] := by
  refine (openKerf_changes ..).steady ?_
  unfold openKerf
  split <;> rfl

/-! ### Yields -/

theorem ladder_steady (st code d : Nat) (s : State) : Steady s (ladder st code d s) [.reg] := by
  refine (ladder_changes ..).steady ?_
  unfold ladder
  split <;> rfl

theorem thaw_steady (s : State) : Steady s (thaw s) (.log :: raising) := by
  have h := (foldl_changes (l := recorded) _ (fun s d => writeHolding_changes d s) s s.dieIdx).still (by decide)
  unfold thaw
  dsimp only
  refine (((h.mono (by decide)).step (log_steady _ _ (by exact rfl)) (by decide)).also (updRecs_changes ..) (by decide)).also
    (foldl_changes (l := raising) _ (fun s x => ?_) ..) (by decide)
  split
  · exact raise_changes ..
  · exact .refl ..

theorem enterHalt_steady (i : HaltInfo) (d cause : Nat) (s : State) : Steady s (enterHalt i d cause s) halting := by
  refine (enterHalt_changes i d cause s).steady (Eq.trans ?_ ((sendMessages_changes s).still (by decide)).kept)
  exact mapDies_settings (sendMessages s) heldDown fun _ => ⟨rfl, rfl, rfl⟩

theorem beforeHalt_steady (d cause : Nat) (s : State) : Steady s (beforeHalt d cause s)
    (.link :: .rfl :: .reg :: .log :: raising) := by
  have h : Steady s _ (.link :: .rfl :: .reg :: .log :: raising) :=
    ((((raisePkg_changes 0x0043 { item := d, cause := cause } s).still (by decide)).mono (by decide)).step
      (ladder_steady 3 0x0043 (raisePkg 0x0043 { item := d, cause := cause } s).id.lead _) (by decide)).also
        (foldl_changes _ (fun s e => sendYield_changes 2 e e cause s) _ (ladder 3 0x0043
          (raisePkg 0x0043 { item := d, cause := cause } s).id.lead
              (raisePkg 0x0043 { item := d, cause := cause } s)).aliveDies) (by decide)
  unfold beforeHalt
  dsimp only
  split
  · exact (h.step (thaw_steady ..) (by decide)).also (noteYield_changes ..) (by decide)
  · exact h.also (noteYield_changes ..) (by decide)

theorem packageYield_steady (d cause : Nat) (i : HaltInfo) (s : State) : Steady s (packageYield d cause i s) halting := by
  rw [packageYield_eq]
  split
  · exact .refl ..
  · exact ((beforeHalt_steady ..).mono (by decide)).trans (enterHalt_steady ..)

theorem tellsYield_steady (d cause : Nat) (s : State) : Steady s (tellsYield d cause s) (.link :: .rfl :: .reg :: raising) :=
  ((((raise_changes ..).still (by decide)).mono (by decide)).also (sendYield_changes ..) (by decide)).also (noteYield_changes ..)
    (by decide)  |>.step (reg_steady _ _ (by exact rfl)) (by decide)

theorem cutOff_steady (d cause : Nat) (s : State) : Steady s (cutOff d cause s) [.health, .nss, .cmds] :=
  (cutOff_changes ..).steady (updDie_settings s d (yieldedDie cause) fun _ => ⟨rfl, rfl, rfl⟩)

theorem dieYield_steady (d cause : Nat) (s : State) : Steady s (dieYield d cause s) yielding := by
  have h : Steady s (dieGone d cause s) yielding :=
    (((tellsYield_steady ..).mono (by decide)).step (cutOff_steady ..) (by decide)).step (openKerf_steady ..) (by decide)
  rw [dieYield_eq]
  repeat' split
  · exact .refl ..
  · exact h.step (packageYield_steady ..) (by decide)
  · exact h.step (packageYield_steady ..) (by decide)
  · exact h

end Sys2Proof.Machine
end

section
/-! SUPPORT. Units out of service, self-tests and the recorder leave the settings (R19, R360, R391, R396, R431). -/

namespace Sys2Proof.Machine

/-! ### Units out of service -/

theorem takeOut_steady (d cause : Nat) (f : HwSt → HwSt) (g : HwSt → Bool) (s : State) :
    Steady s (takeOut d cause f g s) (.hw :: yielding) := by
  have h : Steady s (s.updHw d f) (.hw :: yielding) := ((updHw_changes ..).still (by decide)).mono (by decide)
  unfold takeOut
  split
  · exact h.step (dieYield_steady ..) (by decide)
  · exact h

/-- What a failed core may change. -/
abbrev swapping : List Field := .free :: .hw :: yielding

theorem kerfSwap_steady (s : State) : Steady s (kerfSwap s) [.cmds, .free, .pair] := (kerfSwap_changes s).steady rfl

theorem coreFail_steady (d i : Nat) (s : State) : Steady s (coreFail d i s) swapping := by
  have hw (f : HwSt → HwSt) (t : State) : Changes t (t.updHw d f) [.hw] := updHw_changes ..
  have h (f : HwSt → HwSt) : Steady s (s.updHw d f) swapping := ((hw f s).still (by decide)).mono (by decide)
  unfold coreFail
  repeat' split
  · exact .refl ..
  · exact .refl ..
  · exact .refl ..
  · exact (((h _).also (hw _ _) (by decide)).also (raise_changes ..) (by decide)).also (raise_changes ..) (by decide)
  · exact ((h _).also (hw _ _) (by decide)).also (raise_changes ..) (by decide)
  · exact (((h _).also (hw _ _) (by decide)).step (kerfSwap_steady _) (by decide)).also (raise_changes ..) (by decide)
  · exact (h _).step (dieYield_steady ..) (by decide)

theorem fabricDown_changes (d m : Nat) (s : State) : Changes s (fabricDown d m s) (.hw :: .cmds :: raising) := by
  unfold fabricDown
  repeat' split
  · exact ((((updHw_changes ..).mono (by decide)).step (updHw_changes ..) (by decide)).step (reroute_changes _) (by decide)).step
      (raise_changes ..) (by decide)
  · exact .refl ..
  · exact .refl ..

theorem checkerReact_steady (d : Nat) (u : Checked) (s : State) : Steady s (checkerReact d u s) (.link :: swapping) := by
  have out (cause : Nat) (f : HwSt → HwSt) (g : HwSt → Bool) : Steady s (takeOut d cause f g s) (.link :: swapping) :=
    (takeOut_steady ..).mono (by decide)
  have die : Steady s (dieYield d 0x06 s) (.link :: swapping) := (dieYield_steady ..).mono (by decide)
  cases u with
  | core i => exact (coreFail_steady d i s).mono (by decide)
  | gf i => exact out 0x02 (gfWithout i) fun h => !(h.gf.any id)
  | aes i => exact out 0x06 (aesWithout i) fun h => !(h.aes.any id)
  | mover i => exact out 0x06 (moverWithout i) fun h => !(h.movers.any id)
  | driveCrc p => exact out 0x06 (portOut (s.portMode d) p) fun h => h.driveLanes == 0
  | hostCrc => exact die
  | sramEcc => exact die
  | ddrEcc => exact die
  | nvVerify => exact die
  | fabric i => exact ((fabricDown_changes d i s).still (by decide)).mono (by decide)
  | reflectLane i => exact ((retireLane_changes d (40 + i % 16) true s).still (by decide)).mono (by decide)

/-! ### Self-tests -/

theorem tests_changes (s : State) (l : List Test) : Changes s { s with tests := l } [.tests] :=
  Frame.changes ⟨fun k hk => by cases k with | tests => simp at hk | _ => rfl⟩ (by decide) (.of_eq rfl)

/-- R503: the passes of the SELF TESTs that wait are those in the list. -/
theorem finishTest_changes (test d : Nat) (holder : Option Nat) (faults : Nat) (s : State) :
    Changes s (finishTest test d holder faults s) (.tests :: ending) := by
  unfold finishTest
  split
  · exact .refl ..
  · refine (((tests_changes ..).mono (by decide)).step (foldl_changes (l := [.cmds]) _ (fun _ _ => updCmd_changes ..) ..)
      (by decide)).step (foldl_changes (l := ending) _ (fun s c => ?_) ..) (by decide)
    split
    · exact .refl ..
    · exact complete_changes ..

theorem passesDone_changes (s : State) : Changes s (passesDone s) (.tests :: .hw :: ending) := by
  unfold passesDone
  split
  · exact .refl ..
  · exact foldl_changes _ (fun _ _ => (((updHw_changes ..).mono (by decide)).step (finishTest_changes ..) (by decide)).step
      (finishTest_changes ..) (by decide)) ..

theorem noteFault_changes (test d : Nat) (s : State) : Changes s (noteFault test d s) [.cmds] :=
  foldl_changes _ (fun _ _ => updCmd_changes ..) ..

theorem spareFails_steady (d i : Nat) (s : State) : Steady s (spareFails d i s) swapping := by
  unfold spareFails
  split
  · exact .refl ..
  · exact ((((countFault_changes ..).still (by decide)).mono (by decide)).step (coreFail_steady ..) (by decide)).also
      (noteFault_changes ..) (by decide)

theorem checkerFails_steady (d : Nat) (u : Checked) (s : State) : Steady s (checkerFails d u s) (.link :: swapping) := by
  unfold checkerFails
  split
  · exact .refl ..
  · exact (((((countFault_changes ..).still (by decide)).mono (by decide)).also (raise_changes ..) (by decide)).also
      (noteFault_changes ..) (by decide)).step (checkerReact_steady ..) (by decide)

theorem sramCorrected_changes (l : List (Nat × Nat)) (s : State) : Changes s (sramCorrected l s) [.hw] := by
  refine foldl_changes _ (fun s x => ?_) ..
  split
  · exact (updHw_changes ..).trans (countFaults_changes ..)
  · exact .refl ..

theorem ddrError_changes (d ch n : Nat) (s : State) : Changes s (ddrError d ch n s) (.hw :: .cache :: raising) := by
  unfold ddrError
  dsimp only
  split
  · exact (((updHw_changes ..).mono (by decide)).step (updHw_changes ..) (by decide)).step (spareChannel_changes ..) (by decide)
  · exact (updHw_changes ..).mono (by decide)

theorem ddrCorrected_changes (l : List (Nat × Nat × Nat)) (s : State) : Changes s (ddrCorrected l s) (.hw :: .cache :: raising)
    := by
  refine foldl_changes _ (fun s x => ?_) ..
  split
  · exact ((countFaults_changes ..).mono (by decide)).trans (ddrError_changes ..)
  · exact .refl ..

/-- What the self-tests of a tick may change. -/
abbrev selfTesting : List Field := .tests :: .mcmds :: .rings :: .meters :: .cache :: .link :: swapping

theorem selfTests_steady (t : TickIn) (s : State) : Steady s (selfTests t s) selfTesting := by
  have sram : Steady s (sramCorrected t.corrected s) selfTesting := ((sramCorrected_changes ..).still (by decide)).mono (by decide)
  have ddr := sram.also (ddrCorrected_changes t.ddr _) (by decide)
  have spares := foldl_steady _ (fun s x => spareFails_steady x.1 x.2 s) (ddrCorrected t.ddr (sramCorrected t.corrected s))
      t.lbistFail
  have checkers (s : State) := foldl_steady _ (fun s x => checkerFails_steady x.1 x.2 s) s t.checkFail
  exact ((ddr.step spares (by decide)).step (checkers _) (by decide)).also (passesDone_changes _) (by decide)

/-! ### The recorder -/

theorem holdFault_steady (n : Nat) (s : State) : Steady s (holdFault n s) [.run] := run_steady _ _ rfl

theorem recorderFailed_steady (d cause slot : Nat) (s : State) : Steady s (recorderFailed d cause slot s) (.run :: raising) := by
  unfold recorderFailed
  split
  · exact .refl ..
  · exact ((((signalEvent_changes ..).still (by decide)).mono (by decide)).also (updRec_changes ..) (by decide)).step
      (holdFault_steady ..) (by decide)

theorem recordWork_steady (t : TickIn) (s : State) : Steady s (recordWork t s) (.run :: raising) := by
  have h : Steady s (t.recFail.foldl (fun s x => if checksRun s x.1 then recorderFailed x.1 x.2.1 x.2.2 s else s) s)
      (.run :: raising) := by
    refine foldl_steady _ (fun s x => ?_) ..
    split
    · exact recorderFailed_steady ..
    · exact .refl ..
  unfold recordWork
  dsimp only
  split
  · exact h
  · exact h.also (foldl_changes _ (fun s d => programSome_changes 32 d s) ..) (by decide)

/-! ### HALTED -/

theorem raiseDirect_changes (d code : Nat) (x : Detail) (s : State) : Changes s (raiseDirect d code x s) raising := by
  unfold raiseDirect
  split
  · exact ((signalEvent_changes ..).mono (by decide)).step (programRec_changes ..) (by decide)
  · exact raise_changes ..

theorem malformed_steady (d : Nat) (i : HaltInfo) (s : State) : Steady s (malformed d i s) halting := by
  unfold malformed
  split
  · exact .refl ..
  · exact ((((raiseDirect_changes ..).still (by decide)).mono (by decide)).step (ladder_steady ..) (by decide)).step
      (packageYield_steady ..) (by decide)

theorem tripTick_steady (s : State) : Steady s (tripTick s) halting := by
  unfold tripTick
  dsimp only
  repeat' split
  · exact .refl ..
  · exact packageYield_steady ..
  · exact .refl ..
  · exact Steady.mono (l := [.run]) (run_steady _ _ rfl) (by decide)
  · exact .refl ..
  · exact .refl ..

end Sys2Proof.Machine
end

section
/-! SUPPORT. What a tick does before its boundary leaves the settings (R63, R180, R229). -/

namespace Sys2Proof.Machine

/-! ### Pools -/

theorem pools_steady (s : State) {l : List Pool} (h : l.map Pool.aging = s.pools.map Pool.aging) :
    Steady s { s with pools := l } [.pools] := by
  refine ⟨⟨fun k hk => by cases k with | pools => simp at hk | _ => rfl⟩, .of_eq rfl, ?_⟩
  unfold State.settings
  dsimp only
  rw [h]

theorem updPool_steady (s : State) (n : Nat) {f : Pool → Pool} (h : ∀ p, (f p).aging = p.aging) :
    Steady s (s.updPool n f) [.pools] :=
  pools_steady s (updIf_map _ _ _ h _)

/-! ### Deadlines (R63) -/

theorem arb_changes (s : State) (x : List ArbSt) : Changes s { s with arb := x } [.arb] :=
  Frame.changes ⟨fun k hk => by cases k with | arb => simp at hk | _ => rfl⟩ (by decide) (.of_eq rfl)

/-- What a missed deadline may change. -/
abbrev missing : List Field := .frame :: .hw :: raising

theorem countMiss_steady (d : Nat) (e : Bool) (x : Detail) (s : State) : Steady s (countMiss d e x s) missing := by
  have h : Steady s _ missing := (updFrame_steady s d (fun f =>
    if e then { f with extMiss := s.clk.tick :: f.extMiss, extTotal := f.extTotal + 1 }
    else { f with intMiss := s.clk.tick :: f.intMiss, intTotal := f.intTotal + 1 })
      fun f => by split <;> exact ⟨rfl, rfl⟩).mono (by decide)
  exact (h.also (countFault_changes ..) (by decide)).also (raise_changes ..) (by decide)

theorem missRow_steady (d row : Nat) (ref : CmdRef) (s : State) : Steady s (missRow d row ref s) (.cmds :: missing) := by
  unfold missRow
  split
  · exact .refl ..
  · exact ((countMiss_steady ..).mono (by decide)).also (updCmd_changes ..) (by decide)

theorem lateEntries_steady (slow : List CmdRef) (d : Nat) (s : State) : Steady s (lateEntries slow d s) (.arb :: missing) :=
  ((foldl_steady _ (fun _ _ => countMiss_steady ..) ..).mono (by decide)).also (arb_changes ..) (by decide)

theorem lateBack_steady (s : State) (r : Ring) (b : Back) : Steady s (lateBack s r b) (.rings :: missing) := by
  unfold lateBack
  split
  · exact .refl ..
  · exact ((countMiss_steady ..).mono (by decide)).also (updRing_changes ..) (by decide)

theorem lateBacks_steady (s : State) : Steady s (lateBacks s) (.rings :: missing) :=
  foldl_steady _ (fun _ _ => foldl_steady _ (fun _ _ => lateBack_steady ..) ..) ..

/-- What the urgent overruns of a tick may change. -/
abbrev overrunning : List Field := .frame :: .meters :: raising

theorem countOverruns_steady (ts ds : List Nat) (s : State) : Steady s (countOverruns ts ds s) overrunning := by
  have h : Steady s (ts.foldl (fun s t => s.updMeters t fun m => { m with urgOvr := m.urgOvr + 1 }) s) overrunning :=
    ((foldl_changes (l := [.meters]) _ (fun _ _ => updMeters_changes ..) ..).still (by decide)).mono (by decide)
  exact h.trans (foldl_steady _ (fun s d =>
    ((updFrame_steady s d (fun f => { f with overruns := f.overruns + 1 }) fun _ => ⟨rfl, rfl⟩).mono (by decide)).also
      (raise_changes ..) (by decide)) ..)

theorem countHeads_steady (s : State) : Steady s (countHeads s) overrunning := by
  unfold countHeads
  split
  · exact .refl ..
  · exact countOverruns_steady ..

theorem raiseStep_aging (s : State) (p : Pool) : (raiseStep s p).aging = p.aging := by
  unfold raiseStep
  split <;> rfl

theorem noteStalls_changes (s : State) : Changes s (noteStalls s) [.cmds] := foldl_changes _ (fun _ _ => updCmd_changes ..) ..

/-- What the deadlines of a tick may change. -/
abbrev missingRows : List Field := .arb :: .cmds :: .hw :: .pools :: .rings :: overrunning

/-- R63: commands, pools and rings as the checks of the deadlines note them. -/
def withNotes (slow : List CmdRef) (s : State) : State :=
  { s with cmds := s.cmds.map fun c => noteStep s (noteGaps s slow (noteMembers s c)),
           pools := s.pools.map (raiseStep s), rings := s.rings.map (noteHead s) }

theorem withNotes_steady (slow : List CmdRef) (s : State) : Steady s (withNotes slow s) [.cmds, .pools, .rings] := by
  refine ⟨⟨fun k hk => by cases k with | cmds | pools | rings => simp at hk | _ => rfl⟩, .of_eq rfl, ?_⟩
  have h : (s.pools.map (raiseStep s)).map Pool.aging = s.pools.map Pool.aging := by
    rw [List.map_map]
    exact List.map_congr_left fun p _ => raiseStep_aging s p
  exact (pools_steady s h).kept

theorem deadlines_steady (slow : List CmdRef) (s : State) : Steady s (deadlines slow s) missingRows := by
  have heads : Steady s (countHeads s) missingRows := (countHeads_steady s).mono (by decide)
  have entries (s : State) (ds : List Nat) := foldl_steady _ (fun s d => lateEntries_steady slow d s) s ds
  have rows (s : State) (c : Cmd) (l : List Nat) := foldl_steady _ (fun s r =>
    missRow_steady ((homeOf s c.entry.vol.toNat).getD c.ref.die) r c.ref s) s l
  unfold deadlines
  split
  · exact .refl ..
  · exact ((((heads.step (lateBacks_steady _) (by decide)).step (entries ..) (by decide)).step (withNotes_steady slow _)
      (by decide)).also (noteStalls_changes _) (by decide)).step (foldl_steady _ (fun s c => rows s c _) ..) (by decide)

/-! ### Failed members (R229) -/

theorem failEvents_changes (p : Pool) (item cause ns : Nat) (slot : Option Nat) (s : State) :
    Changes s (failEvents p item cause ns slot s) raising :=
  (raise_changes ..).trans (raise_changes ..)

/-- What giving out slots may change. -/
abbrev givingSlots : List Field := .pools :: raising

theorem settleFailure_steady (num : Nat) (s : State) (x : Nat) : Steady s (settleFailure num s x) givingSlots := by
  unfold settleFailure
  dsimp only
  repeat' split
  · exact .refl ..
  · exact .refl ..
  · exact .refl ..
  · exact ((updPool_steady _ _ (by intro; rfl)).mono (by decide)).also (failEvents_changes ..) (by decide)

theorem settlePending_steady (num : Nat) (s : State) (i : Nat) : Steady s (settlePending num s i) givingSlots := by
  unfold settlePending
  dsimp only
  repeat' split
  · exact .refl ..
  · exact .refl ..
  · exact .refl ..
  · exact ((updPool_steady _ _ (by intro; rfl)).mono (by decide)).also (failEvents_changes ..) (by decide)

theorem settleFailures_steady (s : State) : Steady s (settleFailures s) givingSlots :=
  foldl_steady _ (fun _ _ => (foldl_steady _ (fun _ _ => settleFailure_steady ..) ..).trans
    (foldl_steady _ (fun _ _ => settlePending_steady ..) ..)) ..

/-! ### The last entry of the journal (R180) -/

theorem powerHold_changes (mode d : Nat) (s : State) : Changes s (powerHold mode d s) [.free, .jr] := by
  have h : Changes s s.fresh.2 [.free, .jr] := (free_changes ..).mono (by decide)
  unfold powerHold
  dsimp only
  split
  · exact h
  · exact h.step (programJ_changes ..) (by decide)

theorem lastHolds_changes (s : State) : Changes s (lastHolds s) [.free, .jr] := by
  unfold lastHolds
  split
  · exact foldl_changes _ (fun _ _ => powerHold_changes ..) ..
  · exact .refl ..

end Sys2Proof.Machine
end

section
/-! SUPPORT. What the dies send at the end of a tick leaves the settings (R33, R173, R321, R348, R366). -/

namespace Sys2Proof.Machine

theorem drainRegions_changes (s : State) : Changes s (drainRegions s) [.regions] :=
  Frame.changes ⟨fun k hk => by cases k with | regions => simp at hk | _ => rfl⟩ (by decide) (.of_eq rfl)

theorem pumpSystem_changes (d : Nat) (s : State) : Changes s (pumpSystem d s) sending := by
  refine ((updRfl_changes ..).mono (by decide)).trans (foldl_changes _ (fun s x => ?_) ..)
  split
  · exact (updRfl_changes ..).mono (by decide)
  · exact sendSys_changes ..

theorem sendAck_changes (d : Nat) (g : Seg) (s : State) : Changes s (sendAck d g s) [.link, .out] := sendSegAs_changes ..

theorem sendAcks_changes (d : Nat) (s : State) : Changes s (sendAcks d s) sending := by
  unfold sendAcks
  split
  · exact .refl ..
  · exact ((updRfl_changes ..).mono (by decide)).step (foldl_changes _ (fun s g => sendAck_changes d g s) ..) (by decide)

/-- What the dies' own traffic to the partner changes. -/
abbrev mirroring : List Field := .jr :: sending

theorem mirrorJournal_changes (d : Nat) (s : State) : Changes s (mirrorJournal d s) mirroring := by
  unfold mirrorJournal
  dsimp only
  repeat' split
  · exact .refl ..
  · exact .refl ..
  · exact (((nextMsg_changes ..).mono (by decide)).step (updJr_changes ..) (by decide)).step (postSystem_changes ..) (by decide)

/-- A change of the dies' reflect engines alone. -/
theorem rfl_changes (s : State) (ds : List DieSt)
    (h : ∀ {β : Type} {g : DieSt → β}, (∀ (x : DieSt) (r : DieRfl), g { x with rfl := r } = g x) → ds.map g = s.dies.map g) :
    Changes s { s with dies := ds } [.rfl] :=
  dies_changes _ _ _ (h fun _ _ => rfl) (fun _ => h fun _ _ => rfl) (fun _ => h fun _ _ => rfl) (fun _ => h fun _ _ => rfl)
    (fun _ => h fun _ _ => rfl) (fun _ => h fun _ _ => rfl) (fun _ => h fun _ _ => rfl) (by simp)

theorem mirrorShadows_changes (d : Nat) (s : State) : Changes s (mirrorShadows d s) [.rfl] := by
  refine rfl_changes s _ fun h => zipIdx_map_same (fun x => ?_) _ _
  dsimp only
  split
  · rfl
  · exact h ..

/-- What sending copies of units changes. -/
abbrev copying : List Field := .cache :: .cmds :: .free :: mirroring

theorem mirrorUnit_changes (p : Pool) (v : Vol) (c : Cmd) (s : State) : Changes s (mirrorUnit p v c s) copying := by
  have h : Changes s (if c.unitOut.isNone then takeJsn p.home s else s) copying := by
    split
    · exact (updJr_changes ..).mono (by decide)
    · exact .refl ..
  exact ((h.step (nextMsg_changes ..) (by decide)).step (updCmd_changes ..) (by decide)).step (postSystem_changes ..) (by decide)

theorem sendUnits_changes (s : State) : Changes s (sendUnits s) copying := by
  refine foldl_changes _ (fun s x => ?_) ..
  repeat' split
  · exact .refl ..
  · exact .refl ..
  · exact mirrorUnit_changes ..
  · exact .refl ..

theorem copyRetiring_changes (s : State) : Changes s (copyRetiring s) [.cache] := cache_changes ..

theorem shadowCopies_changes (s : State) : Changes s (shadowCopies s) [.cache] := cache_changes ..

theorem sendCopy_changes (d : Nat) (s : State) (b : CBlk) : Changes s (sendCopy d s b) copying :=
  (((nextMsg_changes ..).mono (by decide)).step (cache_changes ..) (by decide)).step (postSystem_changes ..) (by decide)

theorem sendCopies_changes (s : State) : Changes s (sendCopies s) copying :=
  foldl_changes _ (fun _ _ => foldl_changes _ (fun _ _ => sendCopy_changes ..) ..) ..

theorem tellOf_changes (s : State) (c : Cmd) : Changes s (tellOf s c) copying := by
  unfold tellOf
  exact (((updCmd_changes ..).mono (by decide)).step (free_changes ..) (by decide)).step (sendSystem_changes ..) (by decide)

theorem tellPartner_changes (s : State) : Changes s (tellPartner s) copying := by
  unfold tellPartner
  split
  · exact foldl_changes _ (fun _ _ => tellOf_changes ..) ..
  · exact .refl ..

theorem sendMirrors_changes (s : State) : Changes s (sendMirrors s) copying := by
  have h (ds : List Nat) : Changes s (ds.foldl (fun s d => mirrorShadows d (mirrorJournal d (sendAcks d (pumpSystem d s)))) s)
      copying :=
    foldl_changes _ (fun s d => ((((pumpSystem_changes d s).mono (by decide)).step (sendAcks_changes ..) (by decide)).step
      (mirrorJournal_changes ..) (by decide)).step (mirrorShadows_changes ..) (by decide)) ..
  unfold sendMirrors
  dsimp only
  repeat' split
  · exact .refl ..
  · exact h _
  · exact ((((((h _).step (sendUnits_changes _) (by decide)).step (copyRetiring_changes _) (by decide)).step
      (shadowCopies_changes _) (by decide)).step (sendCopies_changes _) (by decide)).step (tellPartner_changes _) (by decide))

theorem sendIdles_changes (s : State) : Changes s (sendIdles s) [.link, .out] := by
  unfold sendIdles
  split
  · exact .refl ..
  · exact foldl_changes _ (fun _ _ => putFlit_changes ..) ..

end Sys2Proof.Machine
end

section
/-! SUPPORT. What takes effect at a tick boundary, as a function of the settings (R47, R52, R408, R440, R484). -/

namespace Sys2Proof.Machine

/-! ### Operations that turn the settings -/

/-- A change of the listed kinds of state that does f to the settings. -/
structure Turns (f : Settings → Settings) (s t : State) (l : List Field) : Prop where
  frame : Frame s t l
  grows : Grows s t
  turned : t.settings = f s.settings

theorem Turns.mono {f : Settings → Settings} {s t : State} {l m : List Field} (h : Turns f s t l) (e : ∀ x ∈ l, x ∈ m) :
    Turns f s t m :=
  ⟨h.frame.mono e, h.grows, h.turned⟩

/-- One more operation that turns the settings. -/
theorem Turns.turn {f g : Settings → Settings} {s t u : State} {l m : List Field} (h : Turns f s t l) (k : Turns g t u m)
    (e : ∀ x ∈ m, x ∈ l) : Turns (fun z => g (f z)) s u l :=
  ⟨h.frame.trans (k.frame.mono e), h.grows.trans k.grows, by rw [k.turned, h.turned]⟩

/-- One more operation that leaves the settings. -/
theorem Turns.step {f : Settings → Settings} {s t u : State} {l m : List Field} (h : Turns f s t l) (k : Steady t u m)
    (e : ∀ x ∈ m, x ∈ l) : Turns f s u l :=
  ⟨h.frame.trans (k.frame.mono e), h.grows.trans k.grows, by rw [k.kept, h.turned]⟩

theorem Steady.turn {f : Settings → Settings} {s t u : State} {l m : List Field} (h : Steady s t l) (k : Turns f t u m)
    (e : ∀ x ∈ m, x ∈ l) : Turns f s u l :=
  ⟨h.frame.trans (k.frame.mono e), h.grows.trans k.grows, by rw [k.turned, h.kept]⟩

/-! ### The tick counts (R47) -/

/-- R428: operating time runs. -/
def Settings.runs (z : Settings) : Bool := !(z.stage.2.2.2 && decide (z.stage.2.2.1 ≤ 2))

/-- R47, R73, R514: the next tick begins. -/
def Settings.count (z : Settings) : Settings :=
  { z with tick := z.tick + 1, optime := if z.runs then min top48 (z.optime + 1) else z.optime, ack := false }

/-- R47: what nextTick has sent before the next tick begins. -/
def sentOff (s : State) : State := (sendMessages (sendIdles (sendMirrors (drainRegions s)))).emit .ticksync

/-- What the end of a tick changes before the next one begins. -/
abbrev sendingOff : List Field := .fns :: .msixSent :: .regions :: copying

theorem sentOff_changes (s : State) : Changes s (sentOff s) sendingOff :=
  (((((drainRegions_changes s).mono (by decide)).step (sendMirrors_changes _) (by decide)).step (sendIdles_changes _)
    (by decide)).step (sendMessages_changes _) (by decide)).step (emit_changes ..) (by decide)

/-- R331, R514: a die at the start of a tick. -/
def freshDie (tick : Nat) (x : DieSt) : DieSt :=
  { x with link := { x.link with naks := 0 }, jr := { x.jr.batchOf tick with fresh := [] } }

/-- R514: the ladder registers, once acknowledged, start anew. -/
def RegSt.acked (x : RegSt) : RegSt := if x.ack then { x with step := 0, code := 0, die := 0, time := 0, ack := false } else x

theorem RegSt.acked_ack (x : RegSt) : x.acked.ack = false := by
  unfold RegSt.acked
  split
  · rfl
  · rename_i h
    simpa using h

/-- R47: the clock of the next tick. -/
def nextClock (s : State) : ClockSt :=
  { s.clk with tick := s.clk.tick + 1, tickLen := 6400, optime := if timeRuns s then min top48 (s.clk.optime + 1) else
      s.clk.optime }

theorem nextTick_eq (s : State) : nextTick s =
    { sentOff s with clk := nextClock s, reg := s.reg.acked, rings := if s.run.halted then s.rings.map haltRing else s.rings,
                     dies := (sentOff s).dies.map (freshDie (s.clk.tick + 1)) } := rfl

/-- What nextTick may change. -/
abbrev nexting : List Field := .clk :: .reg :: .rings :: sendingOff

theorem freshDies_changes (s : State) (n : Nat) : Changes s { s with dies := s.dies.map (freshDie n) } [.link, .jr] := by
  have k {β : Type} {g : DieSt → β} (h : ∀ x, g (freshDie n x) = g x) : (s.dies.map (freshDie n)).map g = s.dies.map g :=
    map_map_same h _
  exact dies_changes _ _ _ (k fun _ => rfl) (fun _ => k fun _ => rfl) (fun _ => k fun _ => rfl) (fun _ => k fun _ => rfl) (by simp)
    (fun _ => k fun _ => rfl) (by simp) (fun _ => k fun _ => rfl)

/-- R47: the clock, the registers and the rings of the next tick. -/
theorem clocked_changes (s : State) (c : ClockSt) (x : RegSt) (l : List Ring) :
    Changes s { s with clk := c, reg := x, rings := l } [.clk, .reg, .rings] :=
  Frame.changes ⟨fun k hk => by cases k with | clk | reg | rings => simp at hk | _ => rfl⟩ (by decide) (.of_eq rfl)

theorem nextTick_changes (s : State) : Changes s (nextTick s) nexting := by
  rw [nextTick_eq]
  have h : Changes s { sentOff s with dies := (sentOff s).dies.map (freshDie (s.clk.tick + 1)) } nexting :=
    ((sentOff_changes s).mono (by decide)).step (freshDies_changes (sentOff s) _) (by decide)
  exact h.step (clocked_changes ..) (by decide)

theorem nextTick_turns (s : State) : Turns Settings.count s (nextTick s) nexting := by
  have c := nextTick_changes s
  refine ⟨c.frame, c.grows, ?_⟩
  have h : (nextTick s).settings = { (sentOff s).settings with
      tick := s.clk.tick + 1, optime := (nextClock s).optime, ack := s.reg.acked.ack } := by
    rw [nextTick_eq]
    unfold State.settings
    dsimp only
    have k {β : Type} {g : DieSt → β} (hg : ∀ x, g (freshDie (s.clk.tick + 1) x) = g x) :
        ((sentOff s).dies.map (freshDie (s.clk.tick + 1))).map g = (sentOff s).dies.map g := map_map_same hg _
    rw [k fun _ => rfl, k fun _ => rfl, k fun _ => rfl]
    rfl
  rw [h, ((sentOff_changes s).still (by decide)).kept, RegSt.acked_ack]
  rfl

/-- R73: the pulse on TICKSYNC_OUT. -/
theorem nextTick_puts (s : State) : Puts s (nextTick s) .ticksync := by
  obtain ⟨b, hb⟩ := (((((drainRegions_changes s).mono (by decide)).step (sendMirrors_changes _) (by decide)).step
    (sendIdles_changes _) (by decide)).step (sendMessages_changes _) (by decide) : Changes s _ sendingOff).grows
  exact ⟨b, [], by rw [nextTick_eq]; show _ ++ [_] = _; rw [hb, List.append_assoc]⟩

/-! ### What waited for the boundary -/

/-- R484: a feature's new value. -/
def Settings.takeLater (z : Settings) : Later → Settings
  | .hold d h => { z with vaults := z.vaults.modify d fun _ => (false, [], h) }
  | .health a => { z with healthAddr := a }
  | .noWitness => { z with witness := none }
  | .policy v w => { z with policies := updIf (fun x => x.1 == v) (fun x => (x.1, w)) z.policies }
  | .age p n => { z with ages := updIf (fun x => x.1 == p) (fun x => (x.1, n)) z.ages }
  | .secret b => { z with secret := some b }

/-- What values of features may change. -/
abbrev taking : List Field := [.feat, .health, .log, .pair, .pools, .vols]

theorem updIf_map_comm {α β : Type} (g : α → β) (p : α → Bool) (f : α → α) {q : β → Bool} {f' : β → β}
    (hp : ∀ x, q (g x) = p x) (hf : ∀ x, g (f x) = f' (g x)) (l : List α) : (updIf p f l).map g = updIf q f' (l.map g) := by
  unfold updIf
  rw [List.map_map, List.map_map]
  refine List.map_congr_left fun x _ => ?_
  simp only [Function.comp, hp]
  split
  · exact hf x
  · rfl

theorem map_modify_comm {α β : Type} (g : α → β) (f : α → α) {f' : β → β} (h : ∀ x, g (f x) = f' (g x)) (l : List α) (n : Nat) :
    (l.modify n f).map g = (l.map g).modify n f' := by
  refine List.ext_getElem? fun i => ?_
  rw [List.getElem?_map, List.getElem?_modify, List.getElem?_modify, List.getElem?_map]
  cases l[i]? with
  | none => split <;> rfl
  | some x =>
    split
    · exact congrArg some (h x)
    · rfl

/-- A change of every element, as what g looks at sees it. -/
theorem map_map_comm {α β : Type} (g : α → β) (f : α → α) {f' : β → β} (h : ∀ x, g (f x) = f' (g x)) (l : List α) :
    (l.map f).map g = (l.map g).map f' := by
  rw [List.map_map, List.map_map]
  exact List.map_congr_left fun x _ => h x

theorem feat_changes (s : State) (x : FeatSt) : Changes s { s with feat := x } [.feat] :=
  Frame.changes ⟨fun k hk => by cases k with | feat => simp at hk | _ => rfl⟩ (by decide) (.of_eq rfl)

/-- R484: a die out of vault mode. -/
def heldUp (h : Nat) (x : DieSt) : DieSt := { x with vault := false, vaultNs := [], holdUp := h, rateV := 0, rateVr := 0 }

theorem heldUp_settings (s : State) (d h : Nat) :
    (s.updDie d (heldUp h)).settings = { s.settings with vaults := s.settings.vaults.modify d fun _ => (false, [], h) } := by
  have k : (s.updDie d (heldUp h)).dies.map DieSt.vaulting = (s.dies.map DieSt.vaulting).modify d fun _ => (false, [], h) :=
    map_modify_comm DieSt.vaulting (heldUp h) (fun _ => rfl) _ _
  have e1 := updDie_map DieSt.shedding s d (heldUp h) fun _ => rfl
  have e2 := updDie_map DieSt.remaps s d (heldUp h) fun _ => rfl
  unfold State.settings
  rw [k, e1, e2]
  rfl

theorem policy_settings (s : State) (v : Nat) (w : Bool) : (s.updVol v fun v => { v with wt := w }).settings =
    { s.settings with policies := updIf (fun x => x.1 == v) (fun x => (x.1, w)) s.settings.policies } := by
  have k : (s.updVol v fun v => { v with wt := w }).vols.map Vol.policy =
      updIf (fun x => x.1 == v) (fun x => (x.1, w)) (s.vols.map Vol.policy) :=
    updIf_map_comm Vol.policy (·.num == v) (fun v => { v with wt := w }) (fun _ => rfl) (fun _ => rfl) _
  unfold State.settings
  rw [k]
  rfl

theorem age_settings (s : State) (p n : Nat) : (s.updPool p fun p => { p with age := n }).settings =
    { s.settings with ages := updIf (fun x => x.1 == p) (fun x => (x.1, n)) s.settings.ages } := by
  have k : (s.updPool p fun p => { p with age := n }).pools.map Pool.aging =
      updIf (fun x => x.1 == p) (fun x => (x.1, n)) (s.pools.map Pool.aging) :=
    updIf_map_comm Pool.aging (·.num == p) (fun p => { p with age := n }) (fun _ => rfl) (fun _ => rfl) _
  unfold State.settings
  rw [k]
  rfl

theorem Changes.turns {f : Settings → Settings} {s t : State} {l m : List Field} (h : Changes s t l)
    (k : t.settings = f s.settings) (e : ∀ x ∈ l, x ∈ m) : Turns f s t m :=
  ⟨(h.mono e).frame, h.grows, k⟩

theorem takeLater_turns (s : State) (f : Later) : Turns (fun z => z.takeLater f) s (s.takeLater f) taking := by
  cases f with
  | hold d h =>
    exact (updDie_changes s d (heldUp h) fun _ => ⟨rfl, rfl, rfl, rfl, rfl, rfl, rfl⟩).turns (heldUp_settings ..) (by decide)
  | health a => exact (feat_changes ..).turns rfl (by decide)
  | noWitness => exact (pair_changes ..).turns rfl (by decide)
  | policy v w => exact (updVol_changes ..).turns (policy_settings ..) (by decide)
  | age p n => exact (updPool_changes ..).turns (age_settings ..) (by decide)
  | secret b => exact (log_changes ..).turns rfl (by decide)

theorem takeLaters_turns (l : List Later) (s : State) :
    Turns (fun z => l.foldl Settings.takeLater z) s (l.foldl State.takeLater s) taking := by
  induction l generalizing s with
  | nil => exact ⟨.refl .., .refl _, rfl⟩
  | cons f l ih => exact (takeLater_turns s f).turn (ih _) fun _ h => h

/-- R484: every value that waits for a tick boundary. -/
def Settings.takeFeats (z : Settings) : Settings := z.later.foldl Settings.takeLater { z with later := [] }

theorem takeFeats_turns (s : State) : Turns Settings.takeFeats s s.takeFeats taking := by
  have h : Turns (fun z => { z with later := [] }) s { s with feat := { s.feat with later := [] } } taking :=
    (feat_changes ..).turns rfl (by decide)
  have k := h.turn (takeLaters_turns s.feat.later _) fun _ h => h
  exact ⟨k.frame, k.grows, k.turned⟩

/-- R408: EVT_REMAP takes effect. -/
def Settings.applyRemaps (z : Settings) : Settings := { z with remaps := z.remaps.map fun x => (x.2, x.2) }

/-- R408: a die with the EVT_REMAP that waited. -/
def remapped (x : DieSt) : DieSt := { x with evt := { x.evt with remap := x.evt.remapNext } }

theorem applyRemaps_turns (s : State) : Turns Settings.applyRemaps s (applyRemaps s) [.evt] := by
  have k {β : Type} {g : DieSt → β} (h : ∀ x, g (remapped x) = g x) : (applyRemaps s).dies.map g = s.dies.map g :=
    map_map_same (f := remapped) h _
  refine ⟨⟨fun f hf => ?_⟩, .of_eq rfl, ?_⟩
  · cases f with
    | evt => simp at hf
    | health => exact k fun _ => rfl
    | hw => exact k fun _ => rfl
    | frame => exact k fun _ => rfl
    | jr => exact k fun _ => rfl
    | recd => exact k fun _ => rfl
    | link => exact k fun _ => rfl
    | rfl => exact k fun _ => rfl
    | _ => rfl
  · have e : (applyRemaps s).dies.map DieSt.remaps = (s.dies.map DieSt.remaps).map fun x => (x.2, x.2) :=
      map_map_comm DieSt.remaps remapped (fun _ => rfl) _
    unfold State.settings
    rw [k fun _ => rfl, k fun _ => rfl, e]
    rfl

/-- R52: new admission settings take effect. -/
def Settings.applyFeats (z : Settings) : Settings := { z with now := z.next.getD z.now, next := none }

theorem recount_steady (s : State) : Steady s (recount s) [.frame] :=
  (recount_changes s).steady (mapDies_settings _ _ fun _ => ⟨rfl, rfl, rfl⟩)

theorem applyFeats_turns (s : State) : Turns Settings.applyFeats s (applyFeats s) [.feat, .frame] := by
  unfold applyFeats
  split
  next f h =>
    have k : Turns Settings.applyFeats s { s with feat := { s.feat with now := f, next := none } } [.feat, .frame] := by
      refine (feat_changes ..).turns ?_ (by decide)
      unfold Settings.applyFeats State.settings
      dsimp only
      rw [h]
      rfl
    dsimp only
    split
    · exact k
    · exact k.step (recount_steady _) (by decide)
  next h =>
    refine ⟨.refl .., .refl _, ?_⟩
    unfold Settings.applyFeats State.settings
    dsimp only
    rw [h]
    rfl

/-- R440: new classes and caps take effect. -/
def Settings.applyQos (z : Settings) : Settings := { z with shares := z.shares.map fun x => (x.1, x.2.2.getD x.2.1, none) }

theorem applyQos_turns (s : State) : Turns Settings.applyQos s (applyQos s) [.tenants, .buckets] := by
  have m : (applyQos s).tenants.map (·.meters) = s.tenants.map (·.meters) := by
    show (s.tenants.map _).map _ = _
    rw [List.map_map]
    rfl
  refine ⟨⟨fun f hf => ?_⟩, .of_eq rfl, ?_⟩
  · cases f with
    | meters => exact m
    | tenants => simp at hf
    | buckets => simp at hf
    | _ => rfl
  · have e : (applyQos s).tenants.map Tenant.share = (s.tenants.map Tenant.share).map fun x => (x.1, x.2.2.getD x.2.1, none) :=
      map_map_comm Tenant.share _ (fun _ => rfl) _
    unfold State.settings
    rw [e]
    rfl

theorem buckets_changes (s : State) (l : List Bucket) : Changes s { s with buckets := l } [.buckets] :=
  Frame.changes ⟨fun k hk => by cases k with | buckets => simp at hk | _ => rfl⟩ (by decide) (.of_eq rfl)

theorem releaseSteps_steady (s : State) : Steady s (releaseSteps s) [.pools, .cache] := by
  unfold releaseSteps
  dsimp only
  split
  · exact .refl ..
  · exact ((pools_steady s (updIf_map Pool.aging _ (fun p : Pool => { p with lock := none }) (fun _ => rfl) _)).mono
      (by decide)).also (cache_changes ..) (by decide)

/-- R67: shedding ends. -/
def Settings.endShedding (z : Settings) : Settings := { z with sheds := z.sheds.map fun x => if x.2 then (false, false) else x }

/-- R67: a die that stops shedding. -/
def unshed (tick : Nat) (x : DieSt) : DieSt :=
  { x with frame := if x.frame.recovering then { x.frame with shed := false, recovering := false, shedTick := tick } else x.frame }

theorem unshed_shedding (tick : Nat) (x : DieSt) :
    (unshed tick x).shedding = if x.shedding.2 then (false, false) else x.shedding := by
  unfold unshed DieSt.shedding
  dsimp only
  split <;> rfl

theorem endShedding_turns (s : State) : Turns Settings.endShedding s (endShedding s) [.frame] := by
  have k {β : Type} {g : DieSt → β} (h : ∀ x, g (unshed s.clk.tick x) = g x) : (endShedding s).dies.map g = s.dies.map g :=
    map_map_same (f := unshed s.clk.tick) h _
  have c : Changes s (endShedding s) [.frame] := dies_changes _ _ _ (k fun _ => rfl) (fun _ => k fun _ => rfl)
      (fun _ => k fun _ => rfl)
    (by simp) (fun _ => k fun _ => rfl) (fun _ => k fun _ => rfl) (fun _ => k fun _ => rfl) (fun _ => k fun _ => rfl)
  have e : (endShedding s).dies.map DieSt.shedding = (s.dies.map DieSt.shedding).map fun x => if x.2 then (false, false) else x :=
    map_map_comm DieSt.shedding (unshed s.clk.tick) (unshed_shedding _) _
  refine c.turns ?_ fun _ h => h
  unfold State.settings
  rw [e, k fun _ => rfl, k fun _ => rfl]
  rfl

/-! ### A firmware activation flips back (R472) -/

theorem markLate_changes (n : Nat) (p : Cmd → Bool) (s : State) : Changes s (markLate n p s) [.cmds, .rings] :=
  Frame.changes ⟨fun k hk => by cases k with | cmds | rings => simp at hk | _ => rfl⟩ (by decide) (.of_eq rfl)

/-- R471: a mitre step's lock is held longer. -/
def Pool.lockLonger (n : Nat) (p : Pool) : Pool := { p with lock := p.lock.map fun k => { k with hold := k.hold + n } }

theorem flipKerf_steady (n : Nat) (s : State) : Steady s (flipKerf n s) [.pools, .free, .pair, .cmds, .rings] := by
  have h (k : Nat) : (s.pools.map (Pool.lockLonger k)).map Pool.aging = s.pools.map Pool.aging := by
    rw [List.map_map]
    rfl
  unfold flipKerf
  dsimp only
  split
  · exact .refl ..
  · exact (((pools_steady s (h _)).mono (by decide)).step (kerfBrief_steady ..) (by decide)).also (markLate_changes ..) (by decide)

theorem endActivation_steady (s : State) : Steady s (endActivation s) [.fw, .pw] :=
  ⟨⟨fun k hk => by cases k with | fw | pw => simp at hk | _ => rfl⟩, .of_eq rfl, rfl⟩

/-- What the fallback of a firmware activation may change. -/
abbrev fallingBack : List Field := .fw :: .pw :: ending

theorem slotFallback_steady (n : Nat) (s : State) : Steady s (slotFallback n s) fallingBack := by
  have h (f : FwSt) : Steady s (raisePkg 0x7004 { cause := n + 1 } (endActivation { s with fw := f })) fallingBack :=
    ((((fw_changes ..).still (by decide)).mono (by decide)).step (endActivation_steady _) (by decide)).also (raisePkg_changes ..)
      (by decide)
  unfold slotFallback
  dsimp only
  split
  · exact (h _).also (complete_changes ..) (by decide)
  · exact h _

/-- What flipping back may change. -/
abbrev flippingBack : List Field := .pools :: .free :: .pair :: fallingBack

theorem flipBack_steady (s : State) : Steady s (flipBack s) flippingBack := by
  have h (n : Nat) (f : FwSt) : Steady s (flipKerf n { s with fw := f }) flippingBack :=
    (((fw_changes ..).still (by decide)).mono (by decide)).step (flipKerf_steady ..) (by decide)
  unfold flipBack
  dsimp only
  repeat' split
  · exact .refl ..
  · exact .refl ..
  · exact (h ..).step (slotFallback_steady ..) (by decide)
  · exact h ..

/-! ### The boundary -/

/-- What takes effect once the next tick has begun. -/
def Settings.enforce (z : Settings) : Settings := z.takeFeats.applyRemaps.applyFeats.applyQos.endShedding

/-- R47, R52, R271, R408, R440, R472, R484: what the tick that has begun puts into force. -/
def enforced (s : State) : State :=
  flipBack (endShedding (releaseSteps (refill (applyQos (applyFeats (applyRemaps s.takeFeats))))))

/-- What that may change. -/
abbrev enforcing : List Field := .buckets :: .cache :: .evt :: .feat :: .frame :: .health :: .log :: .tenants :: .vols ::
    flippingBack

theorem enforced_turns (s : State) : Turns Settings.enforce s (enforced s) enforcing := by
  have feats := (((takeFeats_turns s).mono (m := enforcing) (by decide)).turn (applyRemaps_turns _) (by decide)).turn
    (applyFeats_turns _) (by decide)
  have qos := (feats.turn (applyQos_turns _) (by decide)).step ((buckets_changes _ _ : Changes _ (refill _) _).still (by decide))
    (by decide)
  exact ((qos.step (releaseSteps_steady _) (by decide)).turn (endShedding_turns _) (by decide)).step (flipBack_steady _)
      (by decide)

end Sys2Proof.Machine
end

section
/-! SUPPORT. What the frame and the guard period of a tick do to the settings (R53 to R66, R219, R349 to R372, R459). -/

namespace Sys2Proof.Machine

/-! ### Namespaces that appeared (R219) -/

theorem adminTo_changes (ns d : Nat) (a : Admin) (s : State) : Changes s (adminTo ns d a s) [.out] := by
  unfold adminTo
  split
  · exact .refl ..
  · exact emit_changes ..

theorem adminFirst_changes (ns : Nat) (a : Admin) (s : State) : Changes s (adminFirst ns a s) [.out] := by
  unfold adminFirst
  split
  · exact adminTo_changes ..
  · exact .refl ..

theorem openPath_changes (ns d : Nat) (s : State) : Changes s (openPath ns d s) [.out] :=
  foldl_changes _ (fun _ _ => adminTo_changes ..) ..

theorem closePath_changes (ns d : Nat) (s : State) : Changes s (closePath ns d s) [.out] :=
  foldl_changes _ (fun _ _ => (adminTo_changes ..).trans (adminTo_changes ..)) ..

theorem registerPaths_changes (ns : Nat) (ds : List Nat) (s : State) : Changes s (registerPaths ns ds s) [.out] := by
  unfold registerPaths
  split
  · exact foldl_changes _ (fun _ _ => emit_changes ..) ..
  · exact .refl ..

theorem pathEvent_changes (code ns d : Nat) (s : State) : Changes s (pathEvent code ns d s) raising := by
  unfold pathEvent
  split <;> exact raise_changes ..

theorem refusePaths_changes (i : NsInfo) (n : Nat) (s : State) : Changes s (refusePaths i n s) raising :=
  foldl_changes _ (fun _ _ => pathEvent_changes ..) ..

theorem nssUniq_changes (s : State) (l : List Ns) (n : Nat) : Changes s { s with nss := l, uniq := n } [.nss, .uniq] :=
  Frame.changes ⟨fun k hk => by cases k with | nss | uniq => simp at hk | _ => rfl⟩ (by decide) (.of_eq rfl)

theorem learnNs_changes (i : NsInfo) (s : State) : Changes s (learnNs i s).2 [.nss, .uniq, .out] := by
  have opens (n : Nat) (l : List Nat) (s : State) : Changes s (l.foldl (fun s d => openPath n d s) s) [.out] :=
    foldl_changes _ (fun _ _ => openPath_changes ..) ..
  have closes (n : Nat) (l : List Nat) (s : State) : Changes s (l.foldl (fun s d => closePath n d s) s) [.out] :=
    foldl_changes _ (fun _ _ => closePath_changes ..) ..
  unfold learnNs
  split
  · exact (((((adminFirst_changes ..).mono (by decide)).step (closes ..) (by decide)).step (updNs_changes ..) (by decide)).step
      (opens ..) (by decide)).step (registerPaths_changes ..) (by decide)
  · exact ((nssUniq_changes ..).mono (by decide)).step (opens ..) (by decide)

theorem failMember_steady (ns cause : Nat) (s : State) : Steady s (failMember ns cause s) losingBlocks := by
  have pools (n : Nat) {f : Pool → Pool} (h : ∀ p, (f p).aging = p.aging) (l : List MCmd) :
      Steady s ({ s with mcmds := l }.updPool n f) losingBlocks :=
    (((mcmds_changes s l).still (by decide)).mono (by decide)).step (updPool_steady _ _ h) (by decide)
  have loses (n : Nat) (t : State) : Steady t (loseMember n t) losingBlocks := (loseMember_stays n t).still (by decide)
  unfold failMember
  dsimp only
  repeat' split
  · exact .refl ..
  · exact (pools _ (by intro; rfl) _).trans (loses ..)
  · exact (pools _ (by intro; rfl) _).trans (loses ..)
  · exact pools _ (by intro; rfl) _
  · exact pools _ (by intro; rfl) _

theorem judgeMember_steady (ns : Nat) (s : State) : Steady s (judgeMember ns s) losingBlocks := by
  unfold judgeMember
  split
  · generalize Option.any _ _ = serves
    repeat' split
    · exact .refl ..
    · exact (failMember_steady ..).also (raise_changes ..) (by decide)
    · exact failMember_steady ..
    · exact .refl ..
  · exact .refl ..

/-- What a namespace that appears may change. -/
abbrev appearing : List Field := .run :: .nss :: .uniq :: losingBlocks

theorem memberAppears_steady (i : NsInfo) (s : State) : Steady s (memberAppears i s) appearing := by
  unfold memberAppears
  dsimp only
  repeat' split
  · exact Steady.mono (l := [.run]) (run_steady _ _ rfl) (by decide)
  · exact ((((learnNs_changes i s).still (by decide)).mono (by decide)).also (refusePaths_changes ..) (by decide)).step
      (judgeMember_steady ..) (by decide)
  · exact .refl ..

theorem lookAtNew_steady (s : State) : Steady s (lookAtNew s) appearing :=
  Steady.trans (Steady.mono (l := [.run]) (run_steady s { s.run with appeared := [] } rfl) (by decide))
    (foldl_steady _ (fun s i => memberAppears_steady i s) ..)

/-! ### Intake and admission (R53 to R56, R97, R108) -/

theorem releaseWrites_changes (s : State) : Changes s (releaseWrites s) [.mcmds] := mcmds_changes ..

theorem intakeRings_changes (costs : List (CmdRef × Nat)) (s : State) : Changes s (intakeRings costs s) [.rings] := by
  unfold intakeRings
  split
  · exact Frame.changes ⟨fun k hk => by cases k with | rings => simp at hk | _ => rfl⟩ (by decide) (.of_eq rfl)
  · exact .refl ..

theorem badFetch_steady (b : BadFetch) (s : State) : Steady s (badFetch b s) halting := by
  unfold badFetch
  split
  · exact .refl ..
  · split
    · exact .refl ..
    · exact malformed_steady ..

theorem countUrgent_changes (g : List (Item × Nat)) (s : State) : Changes s (countUrgent g s) [.meters] :=
  foldl_changes _ (fun _ _ => updMeters_changes ..) ..

/-- What a change of the dies' accounting beside their shedding leaves. -/
theorem mapFrames_steady (s : State) (f : DieSt × Nat → FrameSt)
    (h : ∀ x, (f x).shed = x.1.frame.shed ∧ (f x).recovering = x.1.frame.recovering) :
    Steady s { s with dies := s.dies.zipIdx.map fun x => { x.1 with frame := f x } } [.frame] := by
  have k {β : Type} {g : DieSt → β} (hg : ∀ (x : DieSt) (y : FrameSt), g { x with frame := y } = g x) :
      (s.dies.zipIdx.map fun x => { x.1 with frame := f x }).map g = s.dies.map g := zipIdx_map_same (fun _ => hg ..) _ _
  refine (dies_changes _ _ _ (k fun _ _ => rfl) (fun _ => k fun _ _ => rfl) (fun _ => k fun _ _ => rfl) (by simp)
    (fun _ => k fun _ _ => rfl) (fun _ => k fun _ _ => rfl) (fun _ => k fun _ _ => rfl) (fun _ => k fun _ _ => rfl)).steady ?_
  exact zipDies_settings s _ fun x => ⟨rfl, Prod.ext (h x).1 (h x).2, rfl⟩

theorem grantsArb_changes (s : State) (g : List (Item × Nat)) (a : List ArbSt) :
    Changes s { s with grants := g, arb := a } [.grants, .arb] :=
  Frame.changes ⟨fun k hk => by cases k with | grants | arb => simp at hk | _ => rfl⟩ (by decide) (.of_eq rfl)

/-- What admission may change. -/
abbrev admitting : List Field := .grants :: .arb :: overrunning

/-- R51, R54: a die's accounting with the items that admission leaves waiting. -/
def leftWaiting (os : List Overrun) (is : List Item) (s : State) (x : DieSt × Nat) : FrameSt :=
  let granted := s.dies.zipIdx.map fun (y, d) => admitDie s os is y d
  { x.1.frame with waiting := stillWaiting ((granted[x.2]?).getD []) }

theorem admission_steady (os : List Overrun) (is : List Item) (s : State) : Steady s (admission os is s) admitting := by
  have kept (g : List (Item × Nat)) (a : List ArbSt) : Steady s
      { s with grants := g, dies := s.dies.zipIdx.map fun x => { x.1 with frame := leftWaiting os is s x }, arb := a } admitting :=
    ((mapFrames_steady s (leftWaiting os is s) fun _ => ⟨rfl, rfl⟩).mono (by decide)).also (grantsArb_changes ..) (by decide)
  unfold admission
  exact ((kept ..).step (countOverruns_steady ..) (by decide)).also (countUrgent_changes ..) (by decide)

theorem missStage_steady (o : Overrun) (s : State) : Steady s (missStage o s) missing := countMiss_steady ..

/-- R64: a die whose accounting keeps the misses that still count. -/
def trimmed (now : Nat) (x : DieSt) : DieSt :=
  { x with frame := { x.frame with intMiss := inWindow now 250000 x.frame.intMiss,
                                   extMiss := inWindow now 250000 x.frame.extMiss } }

theorem trimmed_steady (s : State) (n : Nat) : Steady s { s with dies := s.dies.map (trimmed n) } [.frame] := by
  have k {β : Type} {g : DieSt → β} (hg : ∀ (x : DieSt) (y : FrameSt), g { x with frame := y } = g x) :
      (s.dies.map (trimmed n)).map g = s.dies.map g := map_map_same (fun _ => hg ..) _
  exact (dies_changes _ _ _ (k fun _ _ => rfl) (fun _ => k fun _ _ => rfl) (fun _ => k fun _ _ => rfl) (by simp)
    (fun _ => k fun _ _ => rfl) (fun _ => k fun _ _ => rfl) (fun _ => k fun _ _ => rfl) (fun _ => k fun _ _ => rfl)).steady
      (mapDies_settings s _ fun _ => ⟨rfl, rfl, rfl⟩)

/-- What the frame of a tick may change. -/
abbrev framing : List Field := .fns :: .health :: .hw :: .link :: .rfl :: .reg :: .pair :: .log :: .grants :: .arb :: .frame ::
    appearing

/-- R97, R108, R219: what a tick takes in ahead of admission. -/
def takenIn (t : TickIn) (s : State) : State :=
  t.fetched.foldl (fun s b => badFetch b s) (intakeRings t.costs (if s.drives then releaseWrites (lookAtNew s) else s))

theorem takenIn_steady (t : TickIn) (s : State) : Steady s (takenIn t s) framing := by
  have h : Steady s (if s.drives then releaseWrites (lookAtNew s) else s) framing := by
    split
    · exact ((lookAtNew_steady s).mono (by decide)).also (releaseWrites_changes _) (by decide)
    · exact .refl ..
  exact (h.also (intakeRings_changes ..) (by decide)).step (foldl_steady _ (fun s b => badFetch_steady b s) ..) (by decide)

/-- R53 to R66: admission in a tick, with the stages that it misses. -/
def servedIn (t : TickIn) (s : State) : State :=
  (overrunsOf s t.overruns t.items).foldl (fun s o => missStage o s) (admission (overrunsOf s t.overruns t.items) t.items s)

theorem frameWork_eq (t : TickIn) (s : State) : frameWork t s = if !(takenIn t s).running then takenIn t s
    else { servedIn t (takenIn t s) with
      dies := (servedIn t (takenIn t s)).dies.map (trimmed (servedIn t (takenIn t s)).clk.tick) } := rfl

theorem frameWork_steady (t : TickIn) (s : State) : Steady s (frameWork t s) framing := by
  have h := takenIn_steady t s
  have served : Steady s (servedIn t (takenIn t s)) framing :=
    (h.step (admission_steady ..) (by decide)).step (foldl_steady _ (fun s o => missStage_steady o s) ..) (by decide)
  rw [frameWork_eq]
  split
  · exact h
  · exact served.step (trimmed_steady ..) (by decide)

end Sys2Proof.Machine
end

section
/-! SUPPORT. The guard period, power and the whole TICK (R47, R63, R354, R370, R372, R459). -/

namespace Sys2Proof.Machine

/-! ### Heartbeats (R349, R358, R359) -/

theorem beatOwn_changes (d : Nat) (s : State) : Changes s (beatOwn d s) [.rfl] := by
  refine rfl_changes s _ fun h => zipIdx_map_same (fun x => ?_) _ _
  dsimp only
  repeat' split
  · exact h ..
  · exact h ..
  · rfl

theorem beatPartner_changes (d : Nat) (s : State) : Changes s (beatPartner d s) sending := by
  unfold beatPartner
  split
  · exact sendSystem_changes ..
  · exact .refl ..

theorem sendBeats_changes (l : List Nat) (s : State) : Changes s (sendBeats l s) sending :=
  foldl_changes _ (fun _ _ => ((beatOwn_changes ..).mono (by decide)).trans (beatPartner_changes ..)) ..

/-- What a separation may change. -/
abbrev separating : List Field := .pair :: .cache :: .pools :: raising

theorem keepOld_changes (num : Nat) (s : State) : Changes s (keepOld num s) [.cache] := cache_changes ..

theorem setPair_steady (x : PairState) (s : State) : Steady s (setPair x s) [.pair] := pair_steady _ _ ⟨rfl, rfl⟩

theorem separate_steady (s : State) : Steady s (separate s) separating := by
  have h : Steady s (raisePkg 0x5042 {} (setPair .separated s)) separating :=
    ((setPair_steady ..).mono (by decide)).also (raisePkg_changes ..) (by decide)
  exact h.trans (foldl_steady _ (fun _ _ => (((keepOld_changes ..).still (by decide)).mono (by decide)).step
    ((makeSingle_stays ..).still (by decide)) (by decide)) ..)

theorem followPartner_steady (s : State) : Steady s (followPartner s) separating := by
  unfold followPartner
  split
  · exact separate_steady ..
  · exact .refl ..

theorem notePartner_steady (s : State) : Steady s (notePartner s) [.pair] := by
  unfold notePartner
  split
  · exact .refl ..
  · split
    · exact pair_steady _ _ ⟨rfl, rfl⟩
    · exact pair_steady _ _ ⟨rfl, rfl⟩

theorem sampleBeats_steady (s : State) : Steady s (sampleBeats s) [.pair, .rfl] := by
  refine ((notePartner_steady s).mono (by decide)).also (rfl_changes (notePartner s) _ fun h => map_map_same (fun x => ?_) _)
      (by decide)
  dsimp only
  split
  · exact h ..
  · rfl

/-- What hearing a die again may change. -/
abbrev hearing : List Field := .cmds :: .pair :: pausing

theorem heardAgain_steady (s : State) : Steady s (heardAgain s) hearing := by
  have ends (l : List Nat) (s : State) : Steady s (l.foldl (fun s n => endReason n s) s) pausing :=
    foldl_steady _ (fun s n => (endReason_stays n s).still (by decide)) ..
  refine foldl_steady _ (fun s d => ?_) ..
  exact ((Steady.mono (l := [.pair]) (pair_steady s { s.pair with lostOwn := s.pair.lostOwn.filter (· != d) } ⟨rfl, rfl⟩)
    (by decide)).step (kerfOver_steady ..) (by decide)).step (ends ..) (by decide)

/-! ### Holds and the wire (R354, R370, R372) -/

theorem refreshHolds_steady (l : List Nat) (s : State) : Steady s (refreshHolds l s) [.health] := by
  have k {β : Type} {g : DieSt → β} (h : ∀ (x : DieSt) (n : Nat), g { x with unrefreshed := n } = g x) :
      (refreshHolds l s).dies.map g = s.dies.map g := by
    refine zipIdx_map_same (fun x => ?_) _ _
    dsimp only
    repeat' split
    · rfl
    · exact h ..
    · exact h ..
  refine (dies_changes s (refreshHolds l s).dies [.health] (k fun _ _ => rfl) (by simp) (fun _ => k fun _ _ => rfl)
    (fun _ => k fun _ _ => rfl) (fun _ => k fun _ _ => rfl) (fun _ => k fun _ _ => rfl) (fun _ => k fun _ _ => rfl)
    (fun _ => k fun _ _ => rfl)).steady ?_
  exact dies_settings (k fun _ _ => rfl) (k fun _ _ => rfl) (k fun _ _ => rfl)

/-- R370: HOLD_IN as it is sampled. -/
def Settings.hold (b : Bool) (z : Settings) : Settings := { z with holdIn := b }

theorem pair_turns (s : State) (x : PairSt) (b : Bool) (h : x.holdIn = b ∧ x.witness = s.pair.witness) :
    Turns (Settings.hold b) s { s with pair := x } [.pair] := by
  refine (pair_changes ..).turns ?_ fun _ h => h
  unfold Settings.hold State.settings
  dsimp only
  rw [h.1, h.2]

theorem checkWire_turns (b : Bool) (s : State) : Turns (Settings.hold b) s (checkWire b s) (.pair :: raising) := by
  have h (x : PairSt) (hx : x.holdIn = b ∧ x.witness = s.pair.witness) :
      Turns (Settings.hold b) s { s with pair := x } (.pair :: raising) := (pair_turns s x b hx).mono (by decide)
  have raised (x : PairSt) (hx : x.holdIn = b ∧ x.witness = s.pair.witness) :
      Turns (Settings.hold b) s (raisePkg 0x5041 {} { s with pair := x }) (.pair :: raising) :=
    (h x hx).step ((raisePkg_changes ..).still (by decide)) (by decide)
  unfold checkWire
  dsimp only
  repeat' split
  · exact h _ ⟨rfl, rfl⟩
  · exact h _ ⟨rfl, rfl⟩
  · exact raised _ ⟨rfl, rfl⟩
  · exact h _ ⟨rfl, rfl⟩

theorem dropRejoin_steady (s : State) : Steady s (dropRejoin s) [.pair] := by
  unfold dropRejoin
  repeat' split
  · exact pair_steady _ _ ⟨rfl, rfl⟩
  · exact .refl ..
  · exact .refl ..

/-- What the guard period may change for the pair. -/
abbrev guarding : List Field := .link :: .rfl :: .cache :: .health :: hearing

theorem guardPair_turns (t : TickIn) (s : State) : Turns (Settings.hold t.holdIn) s (guardPair t s) guarding := by
  unfold guardPair
  split
  · exact Turns.mono (l := [.pair]) (pair_turns s _ _ ⟨rfl, rfl⟩) (by decide)
  · have beats : Steady s (sampleBeats (followPartner (sendBeats t.silent s))) guarding :=
      ((((sendBeats_changes ..).still (by decide)).mono (by decide)).step (followPartner_steady _) (by decide)).step
        (sampleBeats_steady _) (by decide)
    have holds := (beats.step (heardAgain_steady _) (by decide)).step (refreshHolds_steady t.silent _) (by decide)
    exact (holds.turn (checkWire_turns ..) (by decide)).step (dropRejoin_steady _) (by decide)

/-! ### Power (R459, R460) -/

theorem setNarrow_changes (p : Nat → Bool) (f : Nat → Nat) (s : State) : Changes s (setNarrow p f s) [.hw] := by
  have k {β : Type} {g : DieSt → β} (h : ∀ (x : DieSt) (y : HwSt), g { x with hw := y } = g x) :
      (setNarrow p f s).dies.map g = s.dies.map g := by
    refine zipIdx_map_same (fun x => ?_) _ _
    dsimp only
    split
    · exact h ..
    · rfl
  exact dies_changes s (setNarrow p f s).dies [.hw] (k fun _ _ => rfl) (fun _ => k fun _ _ => rfl) (by simp)
      (fun _ => k fun _ _ => rfl)
    (fun _ => k fun _ _ => rfl) (fun _ => k fun _ _ => rfl) (fun _ => k fun _ _ => rfl) (fun _ => k fun _ _ => rfl)

theorem pw_changes (s : State) (x : PowerSt) : Changes s { s with pw := x } [.pw] :=
  Frame.changes ⟨fun k hk => by cases k with | pw => simp at hk | _ => rfl⟩ (by decide) (.of_eq rfl)

theorem pw_steady (s : State) (x : PowerSt) (h : x.samples = s.pw.samples) : Steady s { s with pw := x } [.pw] := by
  refine (pw_changes ..).steady ?_
  unfold State.settings
  dsimp only
  rw [h]

/-- What enforcing the cap may change. -/
abbrev capping : List Field := .hw :: .pw :: raising

theorem Steady.ite {s t u : State} {l : List Field} {p : Prop} [Decidable p] (h : Steady s t l) (k : Steady s u l) :
    Steady s (if p then t else u) l := by
  split
  · exact h
  · exact k

theorem enforceCap_steady (l : List Nat) (s : State) : Steady s (enforceCap l s) capping := by
  have h (x : PowerSt) (k : x.samples = s.pw.samples) : Steady s { s with pw := x } capping := (pw_steady s x k).mono (by decide)
  have narrow (p : Nat → Bool) (f : Nat → Nat) (x : PowerSt) (k : x.samples = s.pw.samples) :
      Steady s (setNarrow p f { s with pw := x }) capping := (h x k).also (setNarrow_changes ..) (by decide)
  have raised (x : PowerSt) (k : x.samples = s.pw.samples) (y : Detail) : Steady s (raisePkg 0x6011 y { s with pw := x })
      capping :=
    (h x k).also (raisePkg_changes ..) (by decide)
  have tighter := Steady.ite (p := s.pw.restrict < 3)
    (.ite (p := s.pw.restrict = 2) (raised { s.pw with restrict := s.pw.restrict + 1 } rfl { arg0 := capNow s })
      (h { s.pw with restrict := s.pw.restrict + 1 } rfl))
    (.ite (p := s.pw.narrowAt + 250 ≤ s.clk.tick)
      (narrow l.contains (fun n => min 2 (n + 1)) { s.pw with narrowAt := s.clk.tick } rfl) (.refl s _))
  have looser := Steady.ite (p := s.dies.any (fun x => decide (0 < x.hw.narrow)) = true) (narrow (fun _ => true) (· - 1) s.pw rfl)
    (h { s.pw with restrict := s.pw.restrict - 1 } rfl)
  exact .ite (narrow (fun _ => true) (fun _ => 0) { s.pw with restrict := 0 } rfl) (.ite tighter (.ite looser (.refl ..)))

theorem sampleTemps_steady (ts : List (BitVec 8)) (s : State) : Steady s (sampleTemps ts s) [.hw, .pw] := by
  have h : Steady s (ts.zipIdx.foldl (fun s (t, d) => s.updHw d fun h => { h with temp := t }) s) [.hw, .pw] :=
    ((foldl_changes (l := [.hw]) _ (fun _ _ => updHw_changes ..) ..).still (by decide)).mono (by decide)
  exact h.step (pw_steady _ _ rfl) (by decide)

/-- R459, R461: the package is on, past its first phases. -/
def Settings.measures (z : Settings) : Bool := z.stage.1 && z.stage.2.1.isNone && decide (2 < z.stage.2.2.1)

/-- R459, R512: a tick's power sample. -/
def Settings.sample (w : Nat) (z : Settings) : Settings := if z.measures then { z with samples := (w :: z.samples).take 2500 }
    else z

theorem samplePower_turns (w : Nat) (s : State) :
    Turns (fun z => { z with samples := (w :: z.samples).take 2500 }) s (samplePower w s) [.pw] :=
  (pw_changes ..).turns rfl fun _ h => h

theorem powerWork_turns (t : TickIn) (s : State) : Turns (Settings.sample t.power) s (powerWork t s) capping := by
  unfold powerWork
  split
  next h =>
    have k : Turns _ s _ capping := (((sampleTemps_steady t.temps s).mono (by decide)).turn (samplePower_turns t.power _)
        (by decide)).step
      (enforceCap_steady t.l0p _) (by decide)
    refine ⟨k.frame, k.grows, k.turned.trans ?_⟩
    exact (if_pos (show s.settings.measures = true from h)).symm
  next h => exact ⟨.refl .., .refl _, (if_neg (show ¬ s.settings.measures = true from h)).symm⟩

end Sys2Proof.Machine
end

section
/-! PROOF. TICK: what it counts and what it puts into force (R47, R52, R408, R440, R459, R484). -/

namespace Sys2Proof.Machine

/-! ### The rest of a tick -/

theorem notePower_steady (p3 : Bool) (s : State) : Steady s (notePower p3 s) [.pair] := pair_steady _ _ ⟨rfl, rfl⟩

theorem holdAges_changes (s : State) : Changes s (holdAges s) [.cache] := by
  unfold holdAges
  split
  · exact .refl ..
  · exact cache_changes ..

theorem ticksync_steady (o : Option Int) (s : State) : Steady s (ticksync o s) [.clk] := by
  unfold ticksync
  split
  · exact .refl ..
  · dsimp only
    split
    · exact (clk_changes ..).steady rfl
    · exact (clk_changes ..).steady rfl

theorem countCut_changes (s : State) : Changes s (countCut s) [.hw] := by
  have k {β : Type} {g : DieSt → β} (h : ∀ (x : DieSt) (y : HwSt), g { x with hw := y } = g x) :
      (countCut s).dies.map g = s.dies.map g := zipIdx_map_same (fun _ => h ..) _ _
  exact dies_changes s (countCut s).dies [.hw] (k fun _ _ => rfl) (fun _ => k fun _ _ => rfl) (by simp) (fun _ => k fun _ _ => rfl)
    (fun _ => k fun _ _ => rfl) (fun _ => k fun _ _ => rfl) (fun _ => k fun _ _ => rfl) (fun _ => k fun _ _ => rfl)

theorem queueOldest_stays (d n : Nat) (s : State) : Stays s (queueOldest d n s) [.pools] := queueBlocks_stays ..

theorem pressure_stays (d : Nat) (s : State) : Stays s (pressure d s) [.jr, .pools] := by
  unfold pressure
  dsimp only
  split
  · exact ((updJr_changes ..).stays (by decide)).step (queueOldest_stays ..) (by decide)
  · exact (updJr_changes ..).stays (by decide)

theorem pressureAll_stays (s : State) : Stays s (pressureAll s) [.jr, .pools] := by
  unfold pressureAll
  split
  · exact foldl_stays _ (fun s d => pressure_stays d s) ..
  · exact .refl ..

theorem giveUpProt_steady (s : State) : Steady s (giveUpProt s) (.feat :: ending) := by
  unfold giveUpProt
  dsimp only
  split
  · exact .refl ..
  · exact (((feat_changes ..).steady (by exact rfl)).mono (by decide)).also
        (foldl_changes (l := ending) _ (fun _ _ => complete_changes ..) ..)
      (by decide)

/-! ### The whole tick -/

/-- What a TICK counts and puts into force. -/
def Settings.pass (i : TickIn) (z : Settings) : Settings := (z.count.enforce.hold i.holdIn).sample i.power

/-- What a TICK may change. -/
abbrev ticking : List Field := .arb :: .buckets :: .cache :: .clk :: .destages :: .feat :: .fns :: .frame :: .free :: .fw ::
    .grants ::
  .health :: .hw :: .jr :: .link :: .log :: .nss :: .pair :: .pools :: .pw :: .reg :: .regions :: .rfl :: .run :: .tenants ::
  .tests :: .uniq :: .vols :: ending

/-- R63, R180, R229: what a tick ends with. -/
def guarded (i : TickIn) (s : State) : State := lastHolds (settleFailures (deadlines i.slowReads s))

theorem guarded_steady (i : TickIn) (s : State) : Steady s (guarded i s) ticking :=
  (((deadlines_steady i.slowReads s).mono (by decide)).step (settleFailures_steady _) (by decide)).also (lastHolds_changes _)
      (by decide)

/-- R48: the tick that has begun, up to its guard period. -/
def begun (i : TickIn) (s : State) : State :=
  countCut (ticksync i.tsOffset (frameWork i (holdAges (notePower i.partnerP3 (enforced s)))))

/-- R48: the rest of the tick that has begun. -/
def restOf (i : TickIn) (s : State) : State :=
  tripTick (recordWork i (giveUpProt (pressureAll (powerWork i (selfTests i (guardPair i (begun i s)))))))

theorem begun_turns (i : TickIn) (s : State) : Turns Settings.enforce s (begun i s) ticking := by
  have noted := ((enforced_turns s).mono (m := ticking) (by decide)).step (notePower_steady i.partnerP3 _) (by decide)
  have framed := (noted.step ((holdAges_changes _).still (by decide)) (by decide)).step (frameWork_steady i _) (by decide)
  exact (framed.step (ticksync_steady ..) (by decide)).step ((countCut_changes _).still (by decide)) (by decide)

theorem restOf_turns (i : TickIn) (s : State) :
    Turns (fun z => (z.enforce.hold i.holdIn).sample i.power) s (restOf i s) ticking := by
  have pair := (begun_turns i s).turn (guardPair_turns i _) (by decide)
  have power := (pair.step (selfTests_steady i _) (by decide)).turn (powerWork_turns i _) (by decide)
  have prot := (power.step ((pressureAll_stays _).still (by decide)) (by decide)).step (giveUpProt_steady _) (by decide)
  exact (prot.step (recordWork_steady i _) (by decide)).step (tripTick_steady _) (by decide)

theorem tick_eq {i : TickIn} {s : State} (h : s.run.powered = true) : tick i s = restOf i (nextTick (guarded i s)) := by
  unfold tick
  rw [if_neg (by simp [h])]
  rfl

theorem tick_turns {i : TickIn} {s : State} (h : s.run.powered = true) : Turns (Settings.pass i) s (tick i s) ticking := by
  rw [tick_eq h]
  exact ((guarded_steady i s).turn (nextTick_turns _) (by decide)).turn (restOf_turns i _) fun _ h => h

/-- R73: a tick gives its pulse. -/
theorem tick_puts {i : TickIn} {s : State} (h : s.run.powered = true) : Puts s (tick i s) .ticksync := by
  rw [tick_eq h]
  exact ((nextTick_puts _).earlier (guarded_steady i s).grows).later (restOf_turns i _).grows

/-! ### What it puts into force -/

/-- What values of features leave of the settings. -/
theorem takeLaters_same (l : List Later) (z : Settings) : ∃ v h w a p b, l.foldl Settings.takeLater z =
    { z with vaults := v, healthAddr := h, witness := w, ages := a, policies := p, secret := b } := by
  induction l generalizing z with
  | nil => exact ⟨_, _, _, _, _, _, rfl⟩
  | cons f l ih =>
    cases f with
    | hold => exact ih _
    | health => exact ih _
    | noWitness => exact ih _
    | policy => exact ih _
    | age => exact ih _
    | secret => exact ih _

theorem takeFeats_same (z : Settings) : ∃ v h w a p b, z.takeFeats =
    { z with later := [], vaults := v, healthAddr := h, witness := w, ages := a, policies := p, secret := b } :=
  takeLaters_same z.later { z with later := [] }

theorem takeFeats_one {z : Settings} {f : Later} (h : z.later = [f]) : z.takeFeats = Settings.takeLater { z with later := [] } f
    := by
  unfold Settings.takeFeats
  rw [h]
  rfl

theorem sample_eq (w : Nat) (z : Settings) :
    z.sample w = { z with samples := if z.measures then (w :: z.samples).take 2500 else z.samples } := by
  unfold Settings.sample
  split <;> rfl

/-- What a TICK does to the settings, beside the values of features. -/
theorem pass_eq (i : TickIn) (z : Settings) : z.pass i = { z.count.takeFeats with
    now := z.count.takeFeats.next.getD z.count.takeFeats.now, next := none
    remaps := z.count.takeFeats.remaps.map fun x => (x.2, x.2)
    shares := z.count.takeFeats.shares.map fun x => (x.1, x.2.2.getD x.2.1, none)
    sheds := z.count.takeFeats.sheds.map fun x => if x.2 then (false, false) else x
    holdIn := i.holdIn
    samples := if z.count.takeFeats.measures then (i.power :: z.count.takeFeats.samples).take 2500 else
        z.count.takeFeats.samples } := by
  unfold Settings.pass
  rw [sample_eq]
  rfl

theorem tick_settings {i : TickIn} {s : State} (h : s.run.powered = true) : ∃ v a w g p b, (tick i s).settings =
    { s.settings with
      tick := s.clk.tick + 1
      optime := if timeRuns s then min top48 (s.clk.optime + 1) else s.clk.optime
      now := s.feat.next.getD s.feat.now, next := none, later := [], ack := false, holdIn := i.holdIn
      remaps := s.settings.remaps.map fun x => (x.2, x.2)
      shares := s.settings.shares.map fun x => (x.1, x.2.2.getD x.2.1, none)
      sheds := s.settings.sheds.map fun x => if x.2 then (false, false) else x
      samples := if s.settings.measures then (i.power :: s.pw.samples).take 2500 else s.pw.samples
      vaults := v, healthAddr := a, witness := w, ages := g, policies := p, secret := b } := by
  obtain ⟨v, a, w, g, p, b, k⟩ := takeFeats_same s.settings.count
  refine ⟨v, a, w, g, p, b, ?_⟩
  rw [(tick_turns h).turned, pass_eq, k]
  rfl

/-- A value of a feature that waited alone is in force. -/
theorem tick_takes {i : TickIn} {s : State} {f : Later} (h : s.run.powered = true) (hf : s.feat.later = [f]) :
    ((tick i s).settings.vaults, (tick i s).settings.healthAddr, (tick i s).settings.witness, (tick i s).settings.ages,
      (tick i s).settings.policies, (tick i s).settings.secret) =
    ((s.settings.takeLater f).vaults, (s.settings.takeLater f).healthAddr, (s.settings.takeLater f).witness,
      (s.settings.takeLater f).ages, (s.settings.takeLater f).policies, (s.settings.takeLater f).secret) := by
  rw [(tick_turns h).turned, pass_eq, takeFeats_one hf]
  cases f <;> rfl

end Sys2Proof.Machine
end

section
/-! PROOF. TICK as the obligation states it (R47, R52, R408, R440, R459, R484). -/

namespace Sys2Proof.Machine

/-! ### What the settings of a kind are of each -/

theorem find?_updIf {α : Type} (p : α → Bool) (f : α → α) (h : ∀ x, p x = true → p (f x) = true) (l : List α) :
    (updIf p f l).find? p = (l.find? p).map f := by
  induction l with
  | nil => rfl
  | cons a l ih =>
    show List.find? p ((if p a then f a else a) :: updIf p f l) = _
    cases ha : p a with
    | true => simp [ha, h a ha]
    | false => simpa [ha] using ih

theorem die_of_vaults {t : State} {l : List (Bool × List Nat × Nat)} (h : t.settings.vaults = l) {d : Nat}
    {v : Bool × List Nat × Nat} (hd : l[d]? = some v) : ∃ y, t.die? d = some y ∧ y.vaulting = v := by
  have k : (t.die? d).map DieSt.vaulting = some v := by rw [← hd, ← h]; exact (List.getElem?_map ..).symm
  exact Option.map_eq_some_iff.1 k

theorem die_of_sheds {t : State} {l : List (Bool × Bool)} (h : t.settings.sheds = l) {d : Nat} {v : Bool × Bool}
    (hd : l[d]? = some v) : ∃ y, t.die? d = some y ∧ y.shedding = v := by
  have k : (t.die? d).map DieSt.shedding = some v := by rw [← hd, ← h]; exact (List.getElem?_map ..).symm
  exact Option.map_eq_some_iff.1 k

theorem vol_of_policies {t : State} {l : List (Nat × Bool)} (h : t.settings.policies = l) {n : Nat} {v : Nat × Bool}
    (hn : l.find? (·.1 == n) = some v) : ∃ y, t.vol? n = some y ∧ y.policy = v := by
  have k : (t.vol? n).map Vol.policy = some v := by
    rw [← hn, ← h, show t.settings.policies = t.vols.map Vol.policy from rfl, List.find?_map]
    rfl
  exact Option.map_eq_some_iff.1 k

theorem pool_of_ages {t : State} {l : List (Nat × Nat)} (h : t.settings.ages = l) {n : Nat} {v : Nat × Nat}
    (hn : l.find? (·.1 == n) = some v) : ∃ q, t.pool? n = some q ∧ q.aging = v := by
  have k : (t.pool? n).map Pool.aging = some v := by
    rw [← hn, ← h, show t.settings.ages = t.pools.map Pool.aging from rfl, List.find?_map]
    rfl
  exact Option.map_eq_some_iff.1 k

theorem mem_drop_of_puts {s t : State} {o : Out} (h : Puts s t o) : o ∈ t.out.drop s.out.length := by
  obtain ⟨a, b, e⟩ := h
  rw [e, List.drop_left]
  simp

/-! ### A value that waited alone -/

section
variable {i : TickIn} {s : State} (h : s.run.powered = true)
include h

theorem tick_hold {d n : Nat} {x : DieSt} (hf : s.feat.later = [.hold d n]) (hx : s.die? d = some x) :
    ∃ y, (tick i s).die? d = some y ∧ y.vault = false ∧ y.vaultNs = [] ∧ y.holdUp = n := by
  have e : (tick i s).settings.vaults = (s.dies.map DieSt.vaulting).modify d fun _ => (false, [], n) :=
    congrArg Prod.fst (tick_takes h hf)
  have hd : ((s.dies.map DieSt.vaulting).modify d fun _ => (false, [], n))[d]? = some (false, [], n) := by
    have hs : s.dies[d]? = some x := hx
    rw [List.getElem?_modify_eq, List.getElem?_map, hs]
    rfl
  obtain ⟨y, hy, k⟩ := die_of_vaults e hd
  exact ⟨y, hy, congrArg (·.1) k, congrArg (·.2.1) k, congrArg (·.2.2) k⟩

theorem tick_policy {n : Nat} {w : Bool} {x : Vol} (hf : s.feat.later = [.policy n w]) (hx : s.vol? n = some x) :
    ∃ y, (tick i s).vol? n = some y ∧ y.wt = w := by
  have e : (tick i s).settings.policies = updIf (fun x => x.1 == n) (fun x => (x.1, w)) (s.vols.map Vol.policy) :=
    congrArg (·.2.2.2.2.1) (tick_takes h hf)
  have hn : (updIf (fun x => x.1 == n) (fun x => (x.1, w)) (s.vols.map Vol.policy)).find? (·.1 == n) = some (x.num, w) := by
    have hs : s.vols.find? (fun x => x.num == n) = some x := hx
    rw [find?_updIf (fun x : Nat × Bool => x.1 == n) (fun x => (x.1, w)) fun _ h => h, List.find?_map]
    exact congrArg (Option.map fun x : Nat × Bool => (x.1, w)) (congrArg (Option.map Vol.policy) hs)
  obtain ⟨y, hy, k⟩ := vol_of_policies e hn
  exact ⟨y, hy, congrArg (·.2) k⟩

theorem tick_age {n a : Nat} {q : Pool} (hf : s.feat.later = [.age n a]) (hq : s.pool? n = some q) :
    ∃ q', (tick i s).pool? n = some q' ∧ q'.age = a := by
  have e : (tick i s).settings.ages = updIf (fun x => x.1 == n) (fun x => (x.1, a)) (s.pools.map Pool.aging) :=
    congrArg (·.2.2.2.1) (tick_takes h hf)
  have hn : (updIf (fun x => x.1 == n) (fun x => (x.1, a)) (s.pools.map Pool.aging)).find? (·.1 == n) = some (q.num, a) := by
    have hs : s.pools.find? (fun x => x.num == n) = some q := hq
    rw [find?_updIf (fun x : Nat × Nat => x.1 == n) (fun x => (x.1, a)) fun _ h => h, List.find?_map]
    exact congrArg (Option.map fun x : Nat × Nat => (x.1, a)) (congrArg (Option.map Pool.aging) hs)
  obtain ⟨q', hq', k⟩ := pool_of_ages e hn
  exact ⟨q', hq', congrArg (·.2) k⟩

/-- R67: a die that was to stop shedding has stopped. -/
theorem tick_sheds {d : Nat} {x : DieSt} (hx : s.die? d = some x) (hr : x.frame.recovering = true) :
    ∃ y, (tick i s).die? d = some y ∧ y.frame.shed = false := by
  obtain ⟨v, a, w, g, p, b, e⟩ := tick_settings (i := i) h
  have hs : s.dies[d]? = some x := hx
  have k : ((s.dies.map DieSt.shedding).map fun x => if x.2 then (false, false) else x)[d]? = some (false, false) := by
    rw [List.getElem?_map, List.getElem?_map, hs]
    exact congrArg some (if_pos hr)
  obtain ⟨y, hy, k⟩ := die_of_sheds (congrArg Settings.sheds e) k
  exact ⟨y, hy, congrArg (·.1) k⟩

theorem tick_remaps : (tick i s).dies.map (·.evt.remap) = s.dies.map (·.evt.remapNext) := by
  obtain ⟨v, a, w, g, p, b, e⟩ := tick_settings (i := i) h
  have k : (tick i s).dies.map DieSt.remaps = (s.dies.map DieSt.remaps).map fun x => (x.2, x.2) := congrArg Settings.remaps e
  have k1 := congrArg (List.map Prod.fst) k
  rw [List.map_map, List.map_map, List.map_map] at k1
  exact k1

theorem tick_shares : ((tick i s).tenants.map fun x => (x.num, x.qos, x.qosNext)) =
    s.tenants.map fun x => (x.num, x.qosNext.getD x.qos, none) := by
  obtain ⟨v, a, w, g, p, b, e⟩ := tick_settings (i := i) h
  have k : (tick i s).tenants.map Tenant.share = (s.tenants.map Tenant.share).map fun x => (x.1, x.2.2.getD x.2.1, none) :=
    congrArg Settings.shares e
  rw [List.map_map] at k
  exact k

theorem tick_samples (ho : s.on = true) (hp : 2 < s.run.phase) :
    (tick i s).pw.samples = (i.power :: s.pw.samples).take 2500 := by
  obtain ⟨v, a, w, g, p, b, e⟩ := tick_settings (i := i) h
  have hm : s.settings.measures = true := by
    show (s.on && decide (2 < s.run.phase)) = true
    rw [ho, decide_eq_true hp]
    rfl
  exact (congrArg Settings.samples e).trans (if_pos hm)

/-- R47, R52, R408, R440, R459, R484: a TICK. -/
theorem tick_advances : RunsOn (.tick i) s ticking fun t =>
    t.clk.tick = s.clk.tick + 1 ∧ t.clk.optime = (if timeRuns s then min top48 (s.clk.optime + 1) else s.clk.optime) ∧
    t.feat.now = s.feat.next.getD s.feat.now ∧ t.feat.next = none ∧ t.feat.later = [] ∧
    (∀ a, s.feat.later = [.health a] → t.feat.healthAddr = a) ∧ (∀ b, s.feat.later = [.secret b] → t.log.secret = some b) ∧
    (s.feat.later = [.noWitness] → t.pair.witness = none) ∧
    (∀ d h x, s.feat.later = [.hold d h] → s.die? d = some x →
      ∃ y, t.die? d = some y ∧ y.vault = false ∧ y.vaultNs = [] ∧ y.holdUp = h) ∧
    (∀ v w x, s.feat.later = [.policy v w] → s.vol? v = some x → ∃ y, t.vol? v = some y ∧ y.wt = w) ∧
    (∀ n a q, s.feat.later = [.age n a] → s.pool? n = some q → ∃ q', t.pool? n = some q' ∧ q'.age = a) ∧
    t.reg.ack = false ∧ t.pair.holdIn = i.holdIn ∧
    (t.tenants.map fun x => (x.num, x.qos, x.qosNext)) = (s.tenants.map fun x => (x.num, x.qosNext.getD x.qos, none)) ∧
    Out.ticksync ∈ t.out.drop s.out.length ∧
    t.dies.map (·.evt.remap) = s.dies.map (·.evt.remapNext) ∧
    (∀ d x, s.die? d = some x → x.frame.recovering = true → ∃ y, t.die? d = some y ∧ y.frame.shed = false) ∧
    (s.on = true → 2 < s.run.phase → t.pw.samples = (i.power :: s.pw.samples).take 2500) := by
  obtain ⟨v, a, w, g, p, b, e⟩ := tick_settings (i := i) h
  exact ⟨tick i s, rfl, ⟨congrArg Settings.tick e, congrArg Settings.optime e, congrArg Settings.now e, congrArg Settings.next e,
    congrArg Settings.later e, fun _ hf => congrArg (·.2.1) (tick_takes h hf), fun _ hf => congrArg (·.2.2.2.2.2)
        (tick_takes h hf),
    fun hf => congrArg (·.2.2.1) (tick_takes h hf), fun _ _ _ hf hx => tick_hold h hf hx, fun _ _ _ hf hx => tick_policy h hf hx,
    fun _ _ _ hf hq => tick_age h hf hq, congrArg Settings.ack e, congrArg Settings.holdIn e, tick_shares h,
    mem_drop_of_puts (tick_puts h), tick_remaps h, fun _ _ hx hr => tick_sheds h hx hr, fun ho hp => tick_samples h ho hp⟩,
    (tick_turns h).frame⟩

end

end Sys2Proof.Machine
end

section
/-! PROOF. The ends of the measuring windows: event limits and budgets (R69 to R71, R418, R419). -/

namespace Sys2Proof.Machine

/-! ### Event limits (R418, R419) -/

/-- What of a die's recorder counts events against their limits. -/
def DieSt.rating (x : DieSt) : Nat × List RateCnt := (x.recd.window, x.recd.rates)

theorem updRec_rating (s : State) (d : Nat) (f : RecorderSt → RecorderSt)
    (h : ∀ q, (f q).window = q.window ∧ (f q).rates = q.rates) :
    (s.updRec d f).dies.map DieSt.rating = s.dies.map DieSt.rating :=
  updDie_map _ _ _ _ fun x => Prod.ext (h x.recd).1 (h x.recd).2

theorem signalEvent_rating (d code : Nat) (s : State) : (signalEvent d code s).dies.map DieSt.rating = s.dies.map DieSt.rating
    := by
  have k (u : State) : u.dies.map DieSt.rating = (u.dies.map (·.recd)).map fun q => (q.window, q.rates) := by
    rw [List.map_map]; rfl
  have h : (signalEvent d code s).dies.map (·.recd) = s.dies.map (·.recd) := (signalEvent_changes d code s).frame.same .recd
      (by decide)
  rw [k, k, h]

theorem toFaultArea_rating (r : Rec) (q : RecorderSt) : (toFaultArea r q).window = q.window ∧ (toFaultArea r q).rates = q.rates
    := by
  unfold toFaultArea
  split <;> exact ⟨rfl, rfl⟩

theorem holdRec_rating (r : Rec) (q : RecorderSt) : (holdRec r q).window = q.window ∧ (holdRec r q).rates = q.rates := by
  unfold holdRec
  split <;> exact ⟨rfl, rfl⟩

theorem bufferRec_rating (r : Rec) (q : RecorderSt) : (bufferRec r q).window = q.window ∧ (bufferRec r q).rates = q.rates := by
  unfold bufferRec
  split <;> exact ⟨rfl, rfl⟩

theorem programRec_rating (d : Nat) (r : Rec) (s : State) : (programRec d r s).dies.map DieSt.rating = s.dies.map DieSt.rating
    := by
  unfold programRec
  repeat' split
  · rfl
  · exact updRec_rating _ _ _ (toFaultArea_rating r)
  · exact updRec_rating _ _ _ fun _ => ⟨rfl, rfl⟩
  · exact (signalEvent_rating ..).trans (updRec_rating _ _ _ fun _ => ⟨rfl, rfl⟩)
  · exact updRec_rating _ _ _ fun _ => ⟨rfl, rfl⟩

theorem placeRec_rating (d : Nat) (r : Rec) (s : State) : (placeRec d r s).dies.map DieSt.rating = s.dies.map DieSt.rating := by
  unfold placeRec
  repeat' split
  · exact updRec_rating _ _ _ (holdRec_rating r)
  · exact programRec_rating ..
  · exact updRec_rating _ _ _ (bufferRec_rating r)

theorem summaries_rating (d : Nat) (l : List RateCnt) (s : State) :
    (l.foldl (summary d) s).dies.map DieSt.rating = s.dies.map DieSt.rating := by
  induction l generalizing s with
  | nil => rfl
  | cons r l ih => exact (ih _).trans ((placeRec_rating ..).trans (signalEvent_rating ..))

/-- R419: with a code to sum up, 8003h is pending. -/
theorem summaries_sets {d : Nat} {l : List RateCnt} {s : State} (hl : l ≠ []) (h : (s.die? d).isSome) :
    Pending (l.foldl (summary d) s) d 0x8003 := by
  cases l with
  | nil => exact absurd rfl hl
  | cons r l =>
    have first : Pending (summary d s r) d 0x8003 := (placeRec_changes ..).pend _ _ (signalEvent_sets 0x8003 h)
    exact (foldl_changes _ (fun s r => summary_changes d s r) (summary d s r) l).pend _ _ first

theorem insRate_ne_nil (x : RateCnt) (l : List RateCnt) : insRate x l ≠ [] := by
  cases l with
  | nil => simp [insRate]
  | cons y ys =>
    unfold insRate
    split <;> simp

theorem foldl_insRate_ne_nil {l m : List RateCnt} (h : l ≠ [] ∨ m ≠ []) : l.foldl (fun l r => insRate r l) m ≠ [] := by
  induction l generalizing m with
  | nil => exact h.resolve_left fun k => k rfl
  | cons r l ih => exact ih (.inr (insRate_ne_nil r m))

/-- R418: the counts of a die as a window begins. -/
def freshRates (w : Nat) (q : RecorderSt) : RecorderSt := { q with rates := [], window := w }

/-- R418: RATE WINDOW. -/
theorem rateWindow_runs {d : Nat} {s : State} {x : DieSt} (ho : s.on = true) (hx : s.die? d = some x)
    (hw : x.recd.window < windowAt s.clk.optime) :
    Runs (.rateWindow d) s raising fun t => (∃ y, t.die? d = some y ∧ y.recd.window = windowAt s.clk.optime ∧
      ((∀ c ∈ x.recd.rates, c.counted = 0) → y.recd.rates = [])) ∧ ((∃ c ∈ x.recd.rates, 0 < c.counted) → Pending t d 0x8003) := by
  generalize hdue : (x.recd.rates.filter fun r => 0 < r.counted).foldl (fun l r => insRate r l) [] = due
  have e : rollWindow d s = due.foldl (summary d) (s.updRec d (freshRates (windowAt s.clk.optime))) := by
    simp only [rollWindow, hx, if_neg (Nat.not_le.2 hw), hdue]
    rfl
  have hu := updDie_die?_self (fun x => { x with recd := freshRates (windowAt s.clk.optime) x.recd }) hx
  refine ⟨rollWindow d s, if_pos ho, ⟨?_, fun ⟨c, hc, hk⟩ => ?_⟩, ((rollWindow_changes d s).mono (by decide)).frame⟩
  · obtain ⟨y, hy, k⟩ := die_of_map (summaries_rating d due _) hu
    exact ⟨y, by rw [e]; exact hy, congrArg (·.1) k, fun _ => congrArg (·.2) k⟩
  · have hm : c ∈ x.recd.rates.filter fun r => 0 < r.counted := List.mem_filter.2 ⟨hc, by simpa using hk⟩
    rw [e]
    refine summaries_sets ?_ (by rw [State.updRec, hu]; rfl)
    rw [← hdue]
    exact foldl_insRate_ne_nil (.inl (List.ne_nil_of_mem hm))

end Sys2Proof.Machine
end

section
/-! PROOF. The budgets of a die at the end of a window (R69 to R71). -/

namespace Sys2Proof.Machine

/-- R69 to R71: a budget of a die after a window with percentile p. -/
def drifted (now : Nat) (x : DieSt) (p : Nat) (b : Budget) : Budget :=
  { budgetStep now p b with
    urg := if (budgetStep now p b).current = b.current then b.urg else urgFit x (budgetStep now p b) }

theorem budgetStep_kind (now p : Nat) (b : Budget) : (budgetStep now p b).kind = b.kind := by
  unfold budgetStep
  dsimp only
  repeat' split
  · rfl
  · rfl
  · rfl
  · rfl

theorem drifted_kind (now : Nat) (x : DieSt) (p : Nat) (b : Budget) : (drifted now x p b).kind = b.kind :=
  budgetStep_kind now p b

theorem drifted_congr {x y : DieSt} (h : y.hw = x.hw) (now p : Nat) (b : Budget) : drifted now y p b = drifted now x p b := by
  have k : urgFit y = urgFit x := by
    funext c
    unfold urgFit halfStage coresOf
    rw [h]
  unfold drifted
  rw [k]

/-- R70: a die's accounting with the new budget of a kind. -/
def withBudget (b c : Budget) (f : FrameSt) : FrameSt := { f with budgets := updIf (·.kind == b.kind) (fun _ => c) f.budgets }

/-- R69: 0034h, where a budget has risen. -/
def noteRise (d : Nat) (b c : Budget) (s : State) : State :=
  if b.current < c.current then
    raise d 0x0034 { item := b.kind, cause := b.stage, arg0 := b.cls, arg1 := b.current, arg2 := c.current } s
  else s

/-- R70: 0035h, where a budget's urgent count has fallen. -/
def noteFall (d : Nat) (b c : Budget) (s : State) : State :=
  if c.urg < b.urg then raise d 0x0035 { item := b.kind, cause := b.stage, arg0 := b.cls, arg1 := b.urg, arg2 := c.urg } s else s

theorem noteRise_changes (d : Nat) (b c : Budget) (s : State) : Changes s (noteRise d b c s) raising := by
  unfold noteRise
  split
  · exact raise_changes ..
  · exact .refl ..

theorem noteFall_changes (d : Nat) (b c : Budget) (s : State) : Changes s (noteFall d b c s) raising := by
  unfold noteFall
  split
  · exact raise_changes ..
  · exact .refl ..

section
variable {s : State} {d : Nat} {x : DieSt} (hx : s.die? d = some x)
include hx

theorem evalBudget_eq (p : Nat) (b : Budget) : evalBudget d p b s = noteFall d b (drifted s.clk.tick x p b)
    (noteRise d b (drifted s.clk.tick x p b) (s.updFrame d (withBudget b (drifted s.clk.tick x p b)))) := by
  simp only [evalBudget, hx]
  rfl

theorem updFrame_die?_self (f : FrameSt → FrameSt) : (s.updFrame d f).die? d = some { x with frame := f x.frame } :=
  updDie_die?_self _ hx

/-- R69, R70: the die after the evaluation of one budget, and what is pending. -/
theorem evalBudget_die (p : Nat) (b : Budget) : ∃ y, (evalBudget d p b s).die? d = some y ∧ y.hw = x.hw ∧
    y.frame = withBudget b (drifted s.clk.tick x p b) x.frame := by
  have c : Changes (s.updFrame d (withBudget b (drifted s.clk.tick x p b))) (evalBudget d p b s) raising := by
    rw [evalBudget_eq hx]
    exact (noteRise_changes ..).trans (noteFall_changes ..)
  have hu := updFrame_die?_self hx (withBudget b (drifted s.clk.tick x p b))
  obtain ⟨y, hy, hf⟩ := die_of_map (c.frame.same .frame (by decide)) hu
  have hw := c.frame.die_hw (by decide) hu hy
  exact ⟨y, hy, hw, hf⟩

theorem evalBudget_sets (p : Nat) (b : Budget) :
    (b.current < (drifted s.clk.tick x p b).current → Pending (evalBudget d p b s) d 0x0034) ∧
    ((drifted s.clk.tick x p b).urg < b.urg → Pending (evalBudget d p b s) d 0x0035) := by
  have hu := updFrame_die?_self hx (withBudget b (drifted s.clk.tick x p b))
  rw [evalBudget_eq hx]
  refine ⟨fun h => (noteFall_changes ..).pend _ _ ?_, fun h => ?_⟩
  · unfold noteRise
    rw [if_pos h]
    exact raise_sets _ _ (by rw [hu]; rfl)
  · unfold noteFall
    rw [if_pos h]
    obtain ⟨y, hy⟩ := (noteRise_changes d b (drifted s.clk.tick x p b) _).frame.die_exists (.inl (by decide)) hu
    exact raise_sets _ _ (by rw [hy]; rfl)

end

theorem evalBudget_changes (d p : Nat) (b : Budget) (s : State) : Changes s (evalBudget d p b s) (.frame :: raising) := by
  cases hx : s.die? d with
  | none =>
    have e : evalBudget d p b s = s := by simp only [evalBudget, hx]
    rw [e]
    exact .refl ..
  | some x =>
    rw [evalBudget_eq hx]
    exact (((updFrame_changes ..).mono (by decide)).step (noteRise_changes ..) (by decide)).step (noteFall_changes ..) (by decide)

/-- R69: the budgets of a die evaluated one after another. -/
def evalBudgets (d : Nat) (l : List (Budget × Nat)) (s : State) : State := l.foldl (fun s (b, p) => evalBudget d p b s) s

theorem evalBudgets_changes (d : Nat) (l : List (Budget × Nat)) (s : State) : Changes s (evalBudgets d l s) (.frame :: raising) :=
  foldl_changes _ (fun _ _ => evalBudget_changes ..) ..

theorem evalBudgets_append (d : Nat) (l m : List (Budget × Nat)) (s : State) :
    evalBudgets d (l ++ m) s = evalBudgets d m (evalBudgets d l s) := List.foldl_append

/-- What the evaluation of some budgets leaves of a die: its units, its window, and the budgets of other kinds. -/
structure Evaluated (l : List (Budget × Nat)) (x y : DieSt) : Prop where
  hw : y.hw = x.hw
  window : y.frame.window = x.frame.window
  length : y.frame.budgets.length = x.frame.budgets.length
  others : ∀ (k : Nat) (a : Budget), x.frame.budgets[k]? = some a → (∀ z ∈ l, z.1.kind ≠ a.kind) → y.frame.budgets[k]? = some a

theorem getElem?_withBudget (b c : Budget) (f : FrameSt) (k : Nat) :
    (withBudget b c f).budgets[k]? = (f.budgets[k]?).map fun a => if a.kind == b.kind then c else a := List.getElem?_map ..

theorem evalBudgets_die {d : Nat} (l : List (Budget × Nat)) {s : State} {x : DieSt} (hx : s.die? d = some x) :
    ∃ y, (evalBudgets d l s).die? d = some y ∧ Evaluated l x y := by
  induction l generalizing s x with
  | nil => exact ⟨x, hx, rfl, rfl, rfl, fun _ _ h _ => h⟩
  | cons z l ih =>
    obtain ⟨y, hy, hw, hf⟩ := evalBudget_die hx z.2 z.1
    obtain ⟨u, hu, e⟩ := ih hy
    refine ⟨u, hu, e.hw.trans hw, e.window.trans (by rw [hf]; rfl), e.length.trans ?_, fun k a ha hk => ?_⟩
    · rw [hf]
      exact List.length_map ..
    · refine e.others k a ?_ fun z hz => hk z (List.mem_cons_of_mem _ hz)
      have hn : (a.kind == z.1.kind) = false := by simpa using (hk z List.mem_cons_self).symm
      rw [hf, getElem?_withBudget, ha, Option.map_some, hn]
      rfl

/-- R69 to R71: the budget of a kind that is evaluated once, and what is pending for it. -/
theorem evalBudgets_at {d k p : Nat} {b : Budget} {pre post : List (Budget × Nat)} {s : State} {x : DieSt} (hx : s.die? d = some x)
    (hb : x.frame.budgets[k]? = some b) (hpre : ∀ z ∈ pre, z.1.kind ≠ b.kind) (hpost : ∀ z ∈ post, z.1.kind ≠ b.kind) :
    (∃ y, (evalBudgets d (pre ++ (b, p) :: post) s).die? d = some y ∧
      y.frame.budgets[k]? = some (drifted s.clk.tick x p b)) ∧
    (b.current < (drifted s.clk.tick x p b).current → Pending (evalBudgets d (pre ++ (b, p) :: post) s) d 0x0034) ∧
    ((drifted s.clk.tick x p b).urg < b.urg → Pending (evalBudgets d (pre ++ (b, p) :: post) s) d 0x0035) := by
  obtain ⟨u, hu, e⟩ := evalBudgets_die pre hx
  have hclk : (evalBudgets d pre s).clk = s.clk := (evalBudgets_changes d pre s).frame.same .clk (by decide)
  have hd : drifted (evalBudgets d pre s).clk.tick u p b = drifted s.clk.tick x p b := by rw [drifted_congr e.hw, hclk]
  have hpend := evalBudget_sets hu p b
  obtain ⟨v, hv, -, hf⟩ := evalBudget_die hu p b
  obtain ⟨y, hy, e'⟩ := evalBudgets_die post hv
  have c := evalBudgets_changes d post (evalBudget d p b (evalBudgets d pre s))
  have hvk : v.frame.budgets[k]? = some (drifted s.clk.tick x p b) := by
    rw [hf, getElem?_withBudget, e.others k b hb hpre, hd]
    simp
  rw [hd] at hpend
  rw [evalBudgets_append]
  exact ⟨⟨y, hy, e'.others k _ hvk fun z hz => by rw [drifted_kind]; exact hpost z hz⟩, fun h => c.pend _ _ (hpend.1 h),
    fun h => c.pend _ _ (hpend.2 h)⟩

/-- A budget with its percentile splits those of the die. -/
theorem zip_split {bs : List Budget} {l : List Nat} {k p : Nat} {b : Budget} (hn : (bs.map (·.kind)).Nodup) (hb : bs[k]? = some b)
    (hp : l[k]? = some p) : ∃ pre post, bs.zip l = pre ++ (b, p) :: post ∧ (∀ z ∈ pre, z.1.kind ≠ b.kind) ∧
      ∀ z ∈ post, z.1.kind ≠ b.kind := by
  induction bs generalizing l k with
  | nil => simp at hb
  | cons a bs ih =>
    obtain ⟨hfirst, hrest⟩ := List.nodup_cons.1 hn
    have hne {z : Budget} (hz : z ∈ bs) : z.kind ≠ a.kind := fun h => hfirst (List.mem_map.2 ⟨z, hz, h⟩)
    cases l with
    | nil => simp at hp
    | cons q l =>
      cases k with
      | zero =>
        cases hb
        cases hp
        exact ⟨[], bs.zip l, rfl, by simp, fun z hz => hne (List.of_mem_zip hz).1⟩
      | succ k =>
        obtain ⟨pre, post, e, hpre, hpost⟩ := ih hrest hb hp
        refine ⟨(a, q) :: pre, post, by rw [List.zip_cons_cons, e]; rfl, fun z hz => ?_, hpost⟩
        obtain rfl | hz := List.mem_cons.1 hz
        · exact (hne (List.mem_of_getElem? hb)).symm
        · exact hpre z hz

/-- R69 to R71: BUDGET WINDOW. -/
theorem budgetWindow_runs {d : Nat} {l : List Nat} {s : State} {x : DieSt} (hr : s.running = true) (hx : s.die? d = some x)
    (ha : x.alive = true) (hn : (x.frame.budgets.map (·.kind)).Nodup) (hw : x.frame.window < s.clk.tick / 65536) :
    Runs (.budgetWindow d l) s (.frame :: raising) fun t => ∃ y, t.die? d = some y ∧
      y.frame.budgets.length = x.frame.budgets.length ∧ y.frame.window = s.clk.tick / 65536 ∧
      ∀ (k : Nat) (b : Budget) (p : Nat), x.frame.budgets[k]? = some b → l[k]? = some p →
        ∃ (b' c : Budget), y.frame.budgets[k]? = some b' ∧ budgetStep s.clk.tick p b = c ∧
        b' = { c with urg := if c.current = b.current then b.urg else urgFit x c } ∧
        (b.current < b'.current → Pending t d 0x0034) ∧ (b'.urg < b.urg → Pending t d 0x0035) := by
  have hu := updFrame_die?_self hx fun f => { f with window := s.clk.tick / 65536 }
  obtain ⟨y, hy, e⟩ := evalBudgets_die (x.frame.budgets.zip l) hu
  have hexec : exec (.budgetWindow d l) s = .next (evalBudgets d (x.frame.budgets.zip l)
      (s.updFrame d fun f => { f with window := s.clk.tick / 65536 })) := by
    have hg : (s.running && s.alive d && decide (x.frame.window < s.clk.tick / 65536)) = true := by
      simp [hr, State.alive, hx, ha, hw]
    show execBudgetWindow d l s = _
    simp only [execBudgetWindow, hx, hg, if_true]
    rfl
  refine ⟨_, hexec, ⟨y, hy, e.length, e.window, fun k b p hb hp => ?_⟩,
    (((updFrame_changes ..).mono (by decide)).trans (evalBudgets_changes ..)).frame⟩
  obtain ⟨pre, post, hz, hpre, hpost⟩ := zip_split hn hb hp
  obtain ⟨⟨y', hy', hk⟩, h34, h35⟩ := evalBudgets_at (p := p) hu hb hpre hpost
  rw [← hz] at hy' h34 h35
  rw [hy] at hy'
  cases hy'
  exact ⟨_, _, hk, rfl, rfl, h34, h35⟩

end Sys2Proof.Machine
end

section
/-! PROOF. CAP REDIVIDE: each die's share of a tenant's caps (R442). -/

namespace Sys2Proof.Machine

/-! ### Buckets -/

/-- The buckets of a tenant. -/
def bucketsOf (n : Nat) (s : State) : List Bucket := s.buckets.filter fun b => b.tenant == n

theorem bucketOf_place (s : State) (d t : Nat) : (bucketOf s d t).die = d ∧ (bucketOf s d t).tenant = t := by
  unfold bucketOf
  split
  next b h => simpa using List.find?_some h
  next => exact ⟨rfl, rfl⟩

/-- Another state with the same buckets of a tenant, and nothing but other tenants' buckets different. -/
structure Aside (n : Nat) (s t : State) : Prop where
  same : t = { s with buckets := t.buckets }
  kept : bucketsOf n t = bucketsOf n s

theorem Aside.trans {n : Nat} {s t u : State} (h : Aside n s t) (k : Aside n t u) : Aside n s u :=
  ⟨by rw [k.same, h.same], k.kept.trans h.kept⟩

theorem Aside.boundDies {n : Nat} {s t : State} (h : Aside n s t) (k : Nat) : boundDies t k = boundDies s k := by
  rw [h.same]
  rfl

/-- The bucket of a tenant on a die depends on the buckets of the tenant alone. -/
theorem Aside.bucketOf {n : Nat} {s t : State} (h : Aside n s t) (d : Nat) : bucketOf t d n = bucketOf s d n := by
  have k (u : State) : (u.buckets.find? fun b => b.die == d && b.tenant == n) = (bucketsOf n u).find? fun b => b.die == d := by
    rw [bucketsOf, List.find?_filter]
    congr 1
    funext b
    simp [Bool.and_comm, Bool.beq_eq_decide_eq]
  have e : (t.buckets.find? fun b => b.die == d && b.tenant == n) = s.buckets.find? fun b => b.die == d && b.tenant == n := by
    rw [k, k, h.kept]
  unfold Machine.bucketOf
  rw [e, h.boundDies]
  rw [h.same]
  rfl

/-- A tenant's bucket leaves those of the other tenants. -/
theorem setBucket_aside {n : Nat} {b : Bucket} (h : b.tenant ≠ n) (s : State) : Aside n s (setBucket b s) := by
  refine ⟨rfl, ?_⟩
  show ((b :: s.buckets.filter fun x => !(x.die == b.die && x.tenant == b.tenant)).filter fun b => b.tenant == n) = _
  rw [List.filter_cons_of_neg (by simpa using h), List.filter_filter, bucketsOf]
  refine List.filter_congr fun x _ => ?_
  by_cases hx : x.tenant = n
  · simp [hx, h.symm]
  · simp [hx]

/-! ### The shares of one tenant -/

/-- R442: the costs of a tenant on the dies that hold its rings. -/
def costsOf (s : State) (t : Nat) : List (Nat × Nat) := (boundDies s t).map fun d => (d, (bucketOf s d t).cost)

/-- R442: a die's bucket with its share of the tenant's caps. -/
def withShare (t : Tenant) (l : List (Nat × Nat)) (d : Nat) (b : Bucket) : Bucket :=
  { b with opsRate := shareOf (divideCap t.qos.opsRate l) d, opsBurst := shareOf (divideCap (t.qos.opsBurst * 1024) l) d,
           byteRate := shareOf (divideCap t.qos.byteRate l) d, byteBurst := shareOf (divideCap (t.qos.byteBurst * 1024) l) d,
           ops := min b.ops (shareOf (divideCap (t.qos.opsBurst * 1024) l) d),
           bytes := min b.bytes (shareOf (divideCap (t.qos.byteBurst * 1024) l) d), cost := 0 }

/-- R442: a bucket that is a die's share of the tenant's caps. -/
def Shares (t : Tenant) (l : List (Nat × Nat)) (d : Nat) (b : Bucket) : Prop :=
  b.die = d ∧ b.tenant = t.num ∧ b.cost = 0 ∧ b.opsRate = shareOf (divideCap t.qos.opsRate l) d ∧
    b.opsBurst = shareOf (divideCap (t.qos.opsBurst * 1024) l) d ∧ b.byteRate = shareOf (divideCap t.qos.byteRate l) d ∧
    b.byteBurst = shareOf (divideCap (t.qos.byteBurst * 1024) l) d

theorem withShare_shares (s : State) (t : Tenant) (l : List (Nat × Nat)) (d : Nat) :
    Shares t l d (withShare t l d (bucketOf s d t.num)) :=
  ⟨(bucketOf_place s d t.num).1, (bucketOf_place s d t.num).2, rfl, rfl, rfl, rfl, rfl⟩

/-- R442: a die gets its share. -/
def giveShare (t : Tenant) (l : List (Nat × Nat)) (s : State) (d : Nat) : State :=
  setBucket (withShare t l d (bucketOf s d t.num)) s

/-- R442: the buckets of a tenant on dies that hold none of its rings are gone. -/
def unbound (t : Tenant) (s : State) : State :=
  { s with buckets := s.buckets.filter fun b => b.tenant != t.num || (boundDies s t.num).contains b.die }

theorem redivide_eq (t : Tenant) (s : State) : redivide t s = if t.qos.opsRate = 0 ∧ t.qos.byteRate = 0 then s
    else (boundDies s t.num).foldl (giveShare t (costsOf s t.num)) (unbound t s) := rfl

theorem foldl_aside {α : Type} {n : Nat} {f : State → α → State} (h : ∀ s a, Aside n s (f s a)) (as : List α) (s : State) :
    Aside n s (as.foldl f s) := by
  induction as generalizing s with
  | nil => exact ⟨rfl, rfl⟩
  | cons a as ih => exact (h s a).trans (ih _)

/-- The division of a tenant's caps leaves the other tenants. -/
theorem redivide_aside {t : Tenant} {n : Nat} (h : t.num ≠ n) (s : State) : Aside n s (redivide t s) := by
  rw [redivide_eq]
  split
  · exact ⟨rfl, rfl⟩
  · refine Aside.trans (t := unbound t s) ⟨rfl, ?_⟩ (foldl_aside (fun s d => setBucket_aside ?_ s) ..)
    · show ((s.buckets.filter _).filter _) = _
      rw [List.filter_filter, bucketsOf]
      refine List.filter_congr fun x _ => ?_
      by_cases hx : x.tenant = n
      · simp [hx, h.symm]
      · simp [hx]
    · exact fun e => h ((bucketOf_place s d t.num).2.symm.trans e)

/-- R442: the tenant has buckets on the dies that hold its rings only, each with its share. -/
structure Divided (t : Tenant) (ds : List Nat) (l : List (Nat × Nat)) (bs : List Bucket) : Prop where
  bound : ∀ b ∈ bs, b.tenant = t.num → b.die ∈ ds
  given : ∀ d ∈ ds, ∃ b ∈ bs, Shares t l d b

theorem giveShares_bound {t : Tenant} {l : List (Nat × Nat)} {ds : List Nat} (as : List Nat) (h : ∀ d ∈ as, d ∈ ds) {s : State}
    (hs : ∀ b ∈ s.buckets, b.tenant = t.num → b.die ∈ ds) :
    ∀ b ∈ (as.foldl (giveShare t l) s).buckets, b.tenant = t.num → b.die ∈ ds := by
  induction as generalizing s with
  | nil => exact hs
  | cons d as ih =>
    refine ih (fun e he => h e (List.mem_cons_of_mem _ he)) fun b hb ht => ?_
    obtain rfl | hb := List.mem_cons.1 hb
    · rw [(withShare_shares s t l d).1]
      exact h d List.mem_cons_self
    · exact hs b (List.mem_filter.1 hb).1 ht

theorem giveShare_keeps {t : Tenant} {l : List (Nat × Nat)} {d : Nat} (s : State) (e : Nat) (h : ∃ b ∈ s.buckets, Shares t l d b) :
    ∃ b ∈ (giveShare t l s e).buckets, Shares t l d b := by
  by_cases he : e = d
  · subst he
    exact ⟨_, List.mem_cons_self, withShare_shares s t l e⟩
  · obtain ⟨b, hb, k⟩ := h
    refine ⟨b, List.mem_cons_of_mem _ (List.mem_filter.2 ⟨hb, ?_⟩), k⟩
    have : b.die ≠ e := fun x => he (x.symm.trans k.1)
    simp [(withShare_shares s t l e).1, this]

theorem redivide_divided {t : Tenant} (h : ¬ (t.qos.opsRate = 0 ∧ t.qos.byteRate = 0)) (s : State) :
    Divided t (boundDies s t.num) (costsOf s t.num) (redivide t s).buckets := by
  rw [redivide_eq, if_neg h]
  refine ⟨giveShares_bound _ (fun _ h => h) fun b hb ht => ?_, fun d hd => ?_⟩
  · have k := (List.mem_filter.1 hb).2
    simpa [ht] using k
  · exact foldl_attains hd (E := fun _ => True) (P := fun t' => ∃ b ∈ t'.buckets, Shares t _ d b) (fun _ _ _ => trivial)
      (fun u e k => giveShare_keeps u e k) (fun u _ => ⟨_, List.mem_cons_self, withShare_shares u t _ d⟩) trivial

/-- The shares of a tenant depend on its own buckets alone. -/
theorem Divided.aside {t : Tenant} {ds : List Nat} {l : List (Nat × Nat)} {u v : State} (h : Divided t ds l u.buckets)
    (k : Aside t.num u v) : Divided t ds l v.buckets := by
  have iff (b : Bucket) (hb : b.tenant = t.num) : b ∈ v.buckets ↔ b ∈ u.buckets := by
    have e := congrArg (b ∈ ·) k.kept
    simpa [bucketsOf, hb] using e
  refine ⟨fun b hb ht => h.bound b ((iff b ht).1 hb) ht, fun d hd => ?_⟩
  obtain ⟨b, hb, hs⟩ := h.given d hd
  exact ⟨b, (iff b hs.2.1).2 hb, hs⟩

/-! ### The shares of every tenant -/

/-- R442: the caps of some tenants divided. -/
def redivideAll (l : List Tenant) (s : State) : State := l.foldl (fun s t => redivide t s) s

theorem redivideAll_append (l m : List Tenant) (s : State) : redivideAll (l ++ m) s = redivideAll m (redivideAll l s) :=
  List.foldl_append

theorem redivideAll_aside {n : Nat} {l : List Tenant} (h : ∀ x ∈ l, x.num ≠ n) (s : State) : Aside n s (redivideAll l s) := by
  induction l generalizing s with
  | nil => exact ⟨rfl, rfl⟩
  | cons x l ih =>
    exact (redivide_aside (h x List.mem_cons_self) s).trans (ih (fun y hy => h y (List.mem_cons_of_mem _ hy)) _)

/-- The division of a tenant's caps changes the buckets only. -/
theorem redivide_changes (t : Tenant) (s : State) : Changes s (redivide t s) [.buckets] := by
  rw [(redivide_aside (Nat.ne_of_lt (Nat.lt_succ_self t.num)) s).same]
  exact buckets_changes ..

theorem costsOf_aside {n : Nat} {s t : State} (h : Aside n s t) : costsOf t n = costsOf s n := by
  unfold costsOf
  rw [h.boundDies]
  exact List.map_congr_left fun d _ => by rw [h.bucketOf]

/-- R442: after the division, each tenant with caps has its shares. -/
theorem redivideAll_divided {ts : List Tenant} {x : Tenant} (hx : x ∈ ts) (hn : (ts.map (·.num)).Nodup)
    (h : ¬ (x.qos.opsRate = 0 ∧ x.qos.byteRate = 0)) (s : State) :
    Divided x (boundDies s x.num) (costsOf s x.num) (redivideAll ts s).buckets := by
  obtain ⟨pre, post, rfl⟩ := List.append_of_mem hx
  rw [List.map_append, List.map_cons] at hn
  obtain ⟨-, hpost, hne⟩ := List.nodup_append.1 hn
  have before : Aside x.num s (redivideAll pre s) :=
    redivideAll_aside (fun y hy => hne _ (List.mem_map.2 ⟨y, hy, rfl⟩) _ List.mem_cons_self) s
  have after : Aside x.num (redivide x (redivideAll pre s)) (redivideAll post (redivide x (redivideAll pre s))) :=
    redivideAll_aside (fun y hy e => (List.nodup_cons.1 hpost).1 (List.mem_map.2 ⟨y, hy, e⟩)) _
  have own := redivide_divided h (redivideAll pre s)
  rw [before.boundDies, costsOf_aside before] at own
  rw [redivideAll_append]
  exact own.aside after

/-- R442: CAP REDIVIDE. -/
theorem capRedivide_runs {s : State} (hr : s.running = true) (ht : s.clk.tick % 256 = 0) (hn : (s.tenants.map (·.num)).Nodup) :
    Runs .capRedivide s [.buckets] fun t => ∀ x ∈ s.tenants, (x.qos.opsRate ≠ 0 ∨ x.qos.byteRate ≠ 0) →
      Divided x (boundDies s x.num) (costsOf s x.num) t.buckets := by
  refine ⟨redivideAll s.tenants s, ?_, fun x hx h => redivideAll_divided hx hn (by omega) s,
    (foldl_changes _ (fun s t => redivide_changes t s) ..).frame⟩
  show execCapRedivide s = _
  unfold execCapRedivide capRedivide
  rw [if_pos (by simp [hr, ht])]
  rfl

end Sys2Proof.Machine
end

section
/-! PROOF. METER SNAPSHOT (R449 to R452), and what a tick and its boundaries put into force. -/

namespace Sys2Proof.Machine

/-! ### The counters of a boundary (R449, R450) -/

/-- R449: a tenant with its exposed blocks counted. -/
def minuteCounted (s : State) (x : Tenant) : Tenant :=
  { x with meters := { x.meters with blockMin := x.meters.blockMin + exposedBlocks s x.num } }

theorem countMinute_tenants (s : State) : (countMinute s).tenants = s.tenants.map (minuteCounted s) := rfl

theorem countMinute_changes (s : State) : Changes s (countMinute s) [.meters] := by
  refine Frame.changes ⟨fun k hk => ?_⟩ (by decide) (.of_eq rfl)
  cases k with
  | meters => simp at hk
  | tenants =>
    show ((s.tenants.map (minuteCounted s)).map _) = s.tenants.map _
    rw [List.map_map]
    rfl
  | _ => rfl

theorem countMinute_tenant? (s : State) (n : Nat) : (countMinute s).tenant? n = (s.tenant? n).map (minuteCounted s) :=
  List.find?_map ..

/-- R450: a boundary catches the counters of every tenant. -/
theorem caught_countMinute_length (s : State) : (caught (countMinute s)).2.length = (tenantsInOrder s).length := by
  have nums : (countMinute s).tenants.map (·.num) = s.tenants.map (·.num) := by
    rw [countMinute_tenants, List.map_map]
    rfl
  have h : tenantsInOrder (countMinute s) = (tenantsInOrder s).map (minuteCounted s) := by
    unfold tenantsInOrder
    rw [nums, List.map_filterMap]
    exact congrArg (List.filterMap · _) (funext (countMinute_tenant? s))
  rw [caught, List.length_map, h, List.length_map]

/-- Tenants are the same where both their settings and their counters are. -/
theorem Frame.tenants {s t : State} {l : List Field} (h : Frame s t l) (e : .tenants ∉ l) (k : .meters ∉ l) :
    t.tenants = s.tenants := by
  have hm : t.tenants.map (·.meters) = s.tenants.map (·.meters) := h.same .meters k
  have ht : (t.tenants.map fun x => { x with meters := {} }) = s.tenants.map fun x => { x with meters := {} } := h.same .tenants e
  have rebuild (u : State) : u.tenants =
      List.zipWith (fun x m => { x with meters := m }) (u.tenants.map fun x => { x with meters := {} })
          (u.tenants.map (·.meters)) := by
    rw [List.zipWith_map, List.zipWith_self, List.map_id']
  rw [rebuild t, ht, hm, ← rebuild]

/-! ### The snapshot (R450 to R452) -/

/-- R450: a boundary counted, and noted as taken. -/
def dated (s : State) : State := { countMinute s with meter := { s.meter with last := some s.clk.optime } }

/-- R38, R450: METER SNAPSHOT at a boundary. -/
def snapped (late : Bool) (s : State) : State :=
  if s.alive s.id.lead then deliver late (caught (countMinute s)) (dated s)
  else { dated s with meter := { (dated s).meter with held := some (caught (countMinute s)) } }

theorem dated_changes (s : State) : Changes s (dated s) [.meters, .meter] :=
  ((countMinute_changes s).mono (by decide)).step (meter_changes ..) (by decide)

/-- The snapshot itself leaves the counters. -/
theorem snapped_dated (late : Bool) (s : State) : Changes (dated s) (snapped late s) (.meter :: raising) := by
  unfold snapped
  split
  · exact deliver_changes
  · exact (meter_changes ..).mono (by decide)

theorem snapped_changes (late : Bool) (s : State) : Changes s (snapped late s) (.meter :: .meters :: raising) :=
  ((dated_changes s).mono (by decide)).step (snapped_dated ..) (by decide)

theorem snapped_tenant? (late : Bool) {s : State} {n : Nat} {x : Tenant} (hx : s.tenant? n = some x) :
    (snapped late s).tenant? n = some (minuteCounted s x) := by
  have h : (snapped late s).tenants = (countMinute s).tenants := (snapped_dated late s).frame.tenants (by decide) (by decide)
  have k : (snapped late s).tenant? n = (countMinute s).tenant? n := by rw [State.tenant?, h]; rfl
  rw [k, countMinute_tenant?, hx]
  rfl

theorem meterSnapshot_exec {late : Bool} {s : State} (hr : s.ready = true) (hh : s.run.halted = false)
    (hm : (s.clk.optime + 15000000 - s.meter.phase) % 15000000 = 0) (hl : s.meter.last ≠ some s.clk.optime) :
    exec (.meterSnapshot late) s = .next (snapped late s) := by
  show execMeterSnapshot late s = _
  unfold execMeterSnapshot meterSnapshot
  rw [if_pos (by simp [hr, hh, hm, hl])]
  rfl

section
variable {late : Bool} {s : State} {b : W64} {n : Nat} (ha : s.alive s.id.lead = true)
include ha

theorem snapped_alive : snapped late s = deliver late (caught (countMinute s)) (dated s) := if_pos ha

theorem snapped_none (hr : s.meter.ring = none) : snapped late s = dated s := by
  rw [snapped_alive ha, deliver_none (s := dated s) hr]

/-- R452: a snapshot for which the ring has no room. -/
theorem snapped_full (hr : s.meter.ring = some (b, n)) (hf : n - distance n (meterHeadPos n s.meter.head) s.meter.dhead <
    (tenantsInOrder s).length + 1) :
    snapped late s = skipped (dated s) := by
  rw [← caught_countMinute_length] at hf
  rw [snapped_alive ha, deliver_full (s := dated s) hr hf]

/-- R451: a snapshot for which the ring has room. -/
theorem snapped_room (hr : s.meter.ring = some (b, n)) (hf : (tenantsInOrder s).length + 1 ≤
    n - distance n (meterHeadPos n s.meter.head) s.meter.dhead) :
    snapped late s = if late then raisePkg 0x7020 {} (delivered n (caught (countMinute s)) (dated s))
      else delivered n (caught (countMinute s)) (dated s) := by
  rw [← caught_countMinute_length] at hf
  rw [snapped_alive ha, deliver_room (s := dated s) hr hf]

theorem snapped_room_meter (hr : s.meter.ring = some (b, n)) (hf : (tenantsInOrder s).length + 1 ≤
    n - distance n (meterHeadPos n s.meter.head) s.meter.dhead) :
    (snapped late s).meter = noteDelivery ((tenantsInOrder s).length + 1) n { s.meter with last := some s.clk.optime } := by
  rw [← caught_countMinute_length]
  have h : (delivered n (caught (countMinute s)) (dated s)).meter = noteDelivery ((caught (countMinute s)).2.length + 1) n
      { s.meter with last := some s.clk.optime } := delivered_meter ..
  rw [snapped_room ha hr hf]
  split
  · rw [raisePkg_meter, h]
  · exact h

/-- R451: every record of the snapshot is put out. -/
theorem snapped_room_puts (hr : s.meter.ring = some (b, n)) (hf : (tenantsInOrder s).length + 1 ≤
    n - distance n (meterHeadPos n s.meter.head) s.meter.dhead) {x : Nat × Bytes}
    (hx : x ∈ snapshot (countMinute s) n (caught (countMinute s))) : Puts s (snapped late s) (.meter x.1 x.2) := by
  rw [← caught_countMinute_length] at hf
  rw [snapped_alive ha]
  exact (deliver_puts (s := dated s) hr hf hx).earlier (dated_changes s).grows

theorem snapped_late (hr : s.meter.ring = some (b, n)) (hf : (tenantsInOrder s).length + 1 ≤
    n - distance n (meterHeadPos n s.meter.head) s.meter.dhead) (hd : (s.die? s.id.lead).isSome) :
    Pending (snapped true s) s.id.lead 0x7020 := by
  rw [snapped_room ha hr hf]
  have f := (delivered_changes n (caught (countMinute s)) (dated s)).frame
  have hid : (delivered n (caught (countMinute s)) (dated s)).id = s.id := f.same .id (by decide)
  obtain ⟨x, hx⟩ := Option.isSome_iff_exists.1 hd
  obtain ⟨y, hy⟩ := f.die_exists (.inl (by decide)) (show (dated s).die? s.id.lead = some x from hx)
  rw [if_pos rfl, ← hid]
  exact raise_sets _ _ (by rw [hid, hy]; rfl)

theorem snapped_full_sets (hr : s.meter.ring = some (b, n)) (hf : n - distance n (meterHeadPos n s.meter.head) s.meter.dhead <
    (tenantsInOrder s).length + 1) (hd : (s.die? s.id.lead).isSome) :
    Pending (snapped late s) s.id.lead 0x7021 := by
  rw [snapped_full ha hr hf]
  exact raise_sets _ _ hd

theorem snapped_full_meter (hr : s.meter.ring = some (b, n)) (hf : n - distance n (meterHeadPos n s.meter.head) s.meter.dhead <
    (tenantsInOrder s).length + 1) :
    (snapped late s).meter = { s.meter with last := some s.clk.optime, skipped := satAdd top32 s.meter.skipped 1 } := by
  rw [snapped_full ha hr hf]
  exact raisePkg_meter ..

end

/-- Settles O41, row by row: the settings that a tick takes up follow it through all its work (`tick_advances`), and each end of a
measuring window is the row's own evaluation of what was counted. -/
theorem ticksAdvance : Obligations.TicksAdvance := by
  unfold Obligations.TicksAdvance
  refine ⟨fun i s h => tick_advances h, fun d l s x hr hx ha hn hw => budgetWindow_runs hr hx ha hn hw, fun s hr ht hn => ?_,
    fun d s x ho hx hw => rateWindow_runs ho hx hw, ?_⟩
  · obtain ⟨t, e, p, f⟩ := capRedivide_runs hr ht hn
    exact ⟨t, e, fun x hx h => ⟨(p x hx h).bound, fun l hl d hd => hl ▸ (p x hx h).given d hd⟩, f⟩
  · rintro late s u k hr hh hm hl hd rfl rfl
    refine .of_changes (meterSnapshot_exec hr hh hm hl) (snapped_changes late s) ⟨fun n x hx => ?_, fun ha => ?_,
      fun ha => ⟨fun hn => ?_, fun b n hb => ⟨fun hf => ⟨?_, fun x hx => ?_, ?_⟩, fun hf => ⟨?_, ?_⟩⟩⟩⟩ fun _ h => h
    · refine ⟨_, snapped_tenant? late hx, ?_⟩
      have hnum : x.num = n := by simpa using List.find?_some hx
      rw [← hnum]
      rfl
    · rw [snapped, if_neg (by simp [ha])]
      rfl
    · rw [snapped_none ha hn]
      rfl
    · rw [snapped_room_meter ha hb hf]
      rfl
    · exact snapped_room_puts ha hb hf hx
    · rintro rfl
      exact snapped_late ha hb hf hd
    · exact snapped_full_meter ha hb hf
    · exact snapped_full_sets ha hb hf hd

end Sys2Proof.Machine
end

section
/-! PROOF. What reset leaves, and which commands leave the tick (R47). -/

namespace Sys2Proof.Machine

/-! ### Reset -/

/-- Every die of the package at reset is a new die. -/
theorem eq_of_mem_reset_dies {x : DieSt} (h : x ∈ State.reset.dies) : x = DieSt.reset :=
  List.eq_of_mem_replicate (n := 2) h

/-- Every addressed memory is empty at reset, so in its canonical form. -/
theorem reset_memOk : MemOk State.reset :=
  ⟨fun x h => by rw [eq_of_mem_reset_dies h]; exact ⟨rfl, rfl⟩, nofun, nofun⟩

theorem reset_inv : Inv State.reset := ⟨rfl, nofun, reset_memOk⟩

/-- R356, R384, R409: a new die has nothing pending, and is neither retired nor has it yielded. -/
theorem reset_dies_new {x : DieSt} (h : x ∈ State.reset.dies) : x.evt.pend = [] ∧ x.retired = false ∧ x.yielded = none := by
  rw [eq_of_mem_reset_dies h]
  exact ⟨rfl, rfl, rfl⟩

/-- Settles O2: the invariant (`reset_inv`), the dies (`reset_dies_new`), and each field at the value the model gives it. -/
theorem resetState : Obligations.ResetState := by
  unfold Obligations.ResetState
  exact ⟨reset_inv, rfl, rfl, rfl, rfl, rfl, rfl, rfl, rfl, rfl, rfl, rfl, rfl, rfl, rfl, fun _ => reset_dies_new⟩

/-! ### The tick -/

theorem leavesTick_of_ne {c : Instr} (ht : ∀ i, c ≠ .tick i) (hu : c ≠ .powerUp) (hl : c ≠ .powerLoss) :
    leavesTick c = true := by
  unfold leavesTick
  split
  · exact absurd rfl (ht _)
  · exact absurd rfl hu
  · exact absurd rfl hl
  · rfl

/-- Settles O5, by what each row of the command table keeps (`exec_kept`). -/
theorem onlyTickCounts : Obligations.OnlyTickCounts :=
  fun _ _ _ e ht hu hl => (kept_of_exec e).tick (leavesTick_of_ne ht hu hl)

end Sys2Proof.Machine
end

section
/-! PROOF. Shedding and its end, the yield of a die that does not recover, the follower's tick alignment (R66, R67, R74, R75). -/

namespace Sys2Proof.Machine

/-! ### Shedding (R66, R67) -/

theorem running_not_halted {s : State} (h : s.running = true) : s.run.halted = false := by
  simp only [State.running, Bool.and_eq_true, Bool.not_eq_true'] at h
  obtain ⟨⟨-, hh⟩, -⟩ := h
  exact hh

/-- R66: the accounting of a die that begins to shed bulk work at a tick. -/
def beginShed (now : Nat) (f : FrameSt) : FrameSt := { f with shed := true, shedTick := now }

/-- R67: the accounting of a die whose shedding ends at the next boundary. -/
def beginRecover (f : FrameSt) : FrameSt := { f with recovering := true }

/-- A row that changes the accounting of a die and raises an event there. -/
theorem Runs.of_updFrame_raise {c : Instr} {s : State} {d code : Nat} {x : DieSt} {f : FrameSt → FrameSt}
    (hx : s.die? d = some x) (e : exec c s = .next (raise d code {} (s.updFrame d f))) : Runs c s (.frame :: raising) fun t =>
      (∃ y, t.die? d = some y ∧ y.frame = f x.frame) ∧ Pending t d code := by
  have hf := updFrame_die?_self hx f
  have k := raise_changes d code {} (s.updFrame d f)
  exact .of_changes e (((updFrame_changes ..).mono (by decide)).step k (by decide))
    ⟨die_of_map (k.frame.same .frame (by decide)) hf, raise_sets _ _ (by rw [hf]; rfl)⟩ fun _ h => h

section
variable {s : State} {d : Nat} {x : DieSt} (hr : s.running = true) (hx : s.die? d = some x) (ha : x.alive = true)
include hr hx ha

theorem frameOverrun_exec (hs : x.frame.shed = false) (hm : 64 < (inWindow s.clk.tick 250000 x.frame.intMiss).length) :
    exec (.frameOverrun d) s = .next (raise d 0x0032 {} (s.updFrame d (beginShed s.clk.tick))) := by
  show execFrameOverrun d s = _
  simp only [execFrameOverrun, hx]
  exact if_pos (by simp [hr, State.alive, hx, ha, hs, hm])

theorem frameRecovered_exec (hs : x.frame.shed = true) (hv : x.frame.recovering = false)
    (hm : (inWindow s.clk.tick 250000 x.frame.intMiss).length ≤ 16) (hq : inWindow s.clk.tick 2500 x.frame.intMiss = []) :
    exec (.frameRecovered d) s = .next (raise d 0x0033 {} (s.updFrame d beginRecover)) := by
  show execFrameRecovered d s = _
  simp only [execFrameRecovered, hx]
  exact if_pos (by simp [hr, State.alive, hx, ha, hs, hv, hm, hq])

theorem frameNotRecovered_yields (hs : x.frame.shed = true) (hv : x.frame.recovering = false)
    (ht : x.frame.shedTick + 250000 ≤ s.clk.tick) (hm : 64 < (inWindow s.clk.tick 250000 x.frame.intMiss).length) :
    Runs (.frameNotRecovered d) s yielding (Yields d 5) := by
  have e : exec (.frameNotRecovered d) s = .next (dieYield d 0x05 s) := by
    show execFrameNotRecovered d s = _
    simp only [execFrameNotRecovered, hx]
    exact if_pos (by simp [hr, hs, hv, ht, hm])
  exact .of_changes e (dieYield_changes ..) (dieYield_yields hx ha (running_not_halted hr)) fun _ h => h

end

/-! ### Tick alignment (R74, R75) -/

/-- R74: the clock of a follower that aligns with one tick longer by some cycles. -/
def alignClk (cycles : Nat) (c : ClockSt) : ClockSt :=
  { c with realigns := satAdd top16 c.realigns 1, syncLost := false, aligned := true, seen := true, tickLen := 6400 + cycles,
           syncOffset := 0, noPulse := 0, farPulse := 0 }

/-- R75: the clock of a follower that has lost the leader's tick. -/
def loseSync (c : ClockSt) : ClockSt := { c with syncLost := true, aligned := false }

section
variable {s : State} (hf : follower s = true) (ho : s.on = true)
include hf ho

theorem ticksyncAlign_exec {n : Nat} (hn : n < 6400) : exec (.ticksyncAlign n) s =
    .next (if mustAlign s then { s with clk := alignClk n s.clk } else s) := by
  show execTicksyncAlign n s = _
  cases hm : mustAlign s
  · exact if_neg (by simp [hm])
  · exact if_pos (by simp [hf, ho, hm, hn])

theorem ticksyncAlign_aligns {n : Nat} (hn : n < 6400) (hm : mustAlign s = true) :
    Runs (.ticksyncAlign n) s [.clk] fun t => t.clk = alignClk n s.clk :=
  .of_changes (by rw [ticksyncAlign_exec hf ho hn, if_pos hm]) (clk_changes s (alignClk n s.clk)) rfl fun _ h => h

theorem ticksyncLost_exec (hl : s.clk.syncLost = false) (hp : 4 ≤ s.clk.noPulse ∨ 16 ≤ s.clk.farPulse) :
    exec .ticksyncLost s = .next (raisePkg 0x0036 {} { s with clk := loseSync s.clk }) :=
  if_pos (by simp [hf, ho, hl, hp])

theorem ticksyncLost_loses (hl : s.clk.syncLost = false) (hp : 4 ≤ s.clk.noPulse ∨ 16 ≤ s.clk.farPulse)
    (hd : (s.die? s.id.lead).isSome) :
    Runs .ticksyncLost s (.clk :: raising) fun t => t.clk = loseSync s.clk ∧ Pending t s.id.lead 0x0036 :=
  .of_changes (ticksyncLost_exec hf ho hl hp) (((clk_changes s (loseSync s.clk)).mono (by decide)).step (raisePkg_changes ..)
      (by decide))
    ⟨raisePkg_clk .., raise_sets (s := { s with clk := loseSync s.clk }) _ _ hd⟩ fun _ h => h

end

/-- Settles O43, row by row: the accounting changes with its event (`Runs.of_updFrame_raise`), the yield is that of
`dieYield_yields`, and the follower's rows change the clock alone. -/
theorem framesAndAlignment : Obligations.FramesAndAlignment := by
  unfold Obligations.FramesAndAlignment
  refine ⟨?_, fun s hf ho => ⟨fun n hn => ⟨fun hm => ticksyncAlign_aligns hf ho hn hm, fun hm => ?_⟩,
    fun hl hp hd => ticksyncLost_loses hf ho hl hp hd⟩⟩
  · rintro d s x _ hr hx ha rfl
    refine ⟨fun hs hm => .of_updFrame_raise hx (frameOverrun_exec hr hx ha hs hm),
      fun hs hv hm hq => .of_updFrame_raise hx (frameRecovered_exec hr hx ha hs hv hm hq), fun hs hv ht hm => ?_⟩
    obtain ⟨t, e, ⟨⟨y, hy, -, hret, hcause, hhold, hlink⟩, hp⟩, f⟩ := frameNotRecovered_yields hr hx ha hs hv ht hm
    exact ⟨t, e, ⟨⟨y, hy, hret, hcause, hhold, hlink⟩, hp⟩, f⟩
  · rw [ticksyncAlign_exec hf ho hn, if_neg (by simp [hm])]

end Sys2Proof.Machine
end

section
/-! PROOF. Entries that wait for their fragment table, and the doorbells of the rings. -/

namespace Sys2Proof.Machine

/-- Settles O7: the state is that of the dispatch (`dispatched`), in which the command waits at the table stage. -/
theorem indirectEntryWaits : Obligations.IndirectEntryWaits := by
  unfold Obligations.IndirectEntryWaits
  intro op p r s h hind
  have hstart : dispatchEntry op p (beginOp op) s = startOf op p r s := by
    simp [dispatchEntry, h.ring, h.ready, h.good, hind]
  exact ⟨_, by rw [exec_rowOf, hstart], ⟨_, h.cmd, rfl, rfl, if_pos hind⟩, h.ring_after, dispatched_frame ..⟩

/-! ### Doorbells -/

theorem updRing_ring?_self {s : State} {r : Ring} {f : Ring → Ring} (hf : ∀ x, (f x).die = x.die ∧ (f x).idx = x.idx)
    (h : s.ring? r.die r.idx = some r) : (s.updRing r.die r.idx f).ring? r.die r.idx = some (f r) := by
  rw [updRing_ring? s r.die r.idx f hf, h]
  simp

theorem winRing_die {s : State} {w : Win} {r : Ring} (h : winRing s w = some r) : r.die = w.port := by
  have k := List.find?_some h
  simp only [Bool.and_eq_true, beq_iff_eq] at k
  exact k.1.1

/-- R508: a port whose registers take writes is that of a die. -/
theorem reachable_die {s : State} {d : Nat} (h : reachable s d = true) : ∃ x, s.die? d = some x ∧ x.linkUp = true := by
  simp only [reachable, Bool.and_eq_true] at h
  cases hx : s.die? d with
  | none => simp [hx] at h
  | some x => exact ⟨x, rfl, by simpa [hx] using h.2⟩

theorem reachable_of_actsAll {s : State} {d : Nat} (h : actsAll s d = true) : reachable s d = true := by
  simp only [actsAll, Bool.and_eq_true] at h
  exact h.1

theorem reachable_of_actsSome {s : State} {d : Nat} (h : actsSome s d = true) : reachable s d = true := by
  simp only [actsSome, Bool.and_eq_true] at h
  exact h.1

/-- An event that a row raises on a die that is there is pending, and nothing else has changed. -/
theorem Runs.of_raise {c : Instr} {s : State} {d code : Nat} {x : Detail} (e : exec c s = .next (raise d code x s))
    (h : (s.die? d).isSome) : Runs c s raising fun t => Pending t d code :=
  .of_changes e (raise_changes ..) (raise_sets _ _ h) fun _ k => k

theorem wake_changes (s : State) : Changes s (wake s) [.pw] := by
  unfold wake
  split
  · exact pw_changes ..
  · exact .refl ..

/-- R458: in P0 and P1 nothing has to wake. -/
theorem wake_operational {s : State} (h : s.pw.pstate < 2) : wake s = s := by
  unfold wake
  rw [if_neg]
  simp only [Bool.and_eq_true, decide_eq_true_eq]
  omega

theorem rebell_length (r : Ring) (now : Nat) (l : List Nat) : (rebell r now l).length = l.length := by
  unfold rebell
  split <;> simp

/-- R91: the state once a ring has taken a doorbell that moves its tail to t. -/
def belled (r : Ring) (pcnt t : Nat) (s : State) : State :=
  if distance r.size r.tail t = 0 then s.updRing r.die r.idx (acceptDoorbell s.clk.tick pcnt t)
  else wake (s.updRing r.die r.idx (acceptDoorbell s.clk.tick pcnt t))

theorem belled_changes (r : Ring) (pcnt t : Nat) (s : State) : Changes s (belled r pcnt t s) [.rings, .pw] := by
  have k : Changes s (s.updRing r.die r.idx (acceptDoorbell s.clk.tick pcnt t)) [.rings, .pw] := (updRing_changes ..).mono (by decide)
  unfold belled
  split
  · exact k
  · exact k.step (wake_changes _) (by decide)

theorem belled_rings (r : Ring) (pcnt t : Nat) (s : State) :
    (belled r pcnt t s).rings = (s.updRing r.die r.idx (acceptDoorbell s.clk.tick pcnt t)).rings := by
  unfold belled
  split
  · rfl
  · exact (wake_changes _).frame.same .rings (by decide)

theorem belled_ring? {r : Ring} {s : State} (h : s.ring? r.die r.idx = some r) (pcnt t : Nat) :
    (belled r pcnt t s).ring? r.die r.idx = some (acceptDoorbell s.clk.tick pcnt t r) := by
  rw [← updRing_ring?_self (f := acceptDoorbell s.clk.tick pcnt t) (fun _ => ⟨rfl, rfl⟩) h]
  simp only [State.ring?, belled_rings]

theorem belled_pw {r : Ring} {pcnt t : Nat} {s : State} (h : s.pw.pstate < 2) : (belled r pcnt t s).pw = s.pw := by
  unfold belled
  split
  · rfl
  · rw [wake_operational (by exact h)]; rfl

section
variable {w : Win} {a : Acc} {r : Ring} {s : State} (hw : winRing s w = some r) (ha : actsAll s w.port = true)
  (hwhole : a.whole = true) (hen : r.state = .enabled)
include hw ha hwhole hen

theorem doorbell_taken (hn : r.notif = false)
    (hok : doorbellOk r (a.field 31 31 == 1) (a.field 19 17) (a.field 16 16) (a.field 15 0) = true) :
    exec (.doorbell w a) s = .next (belled r (a.field 19 17) (a.field 16 16 * r.size + a.field 15 0) s) := by
  show execDoorbell w a s = _
  simp only [execDoorbell, hw]
  rw [if_neg (by simp [ha, hwhole, hn, hen]), if_pos hok]
  rfl

theorem doorbell_refused (hn : r.notif = false)
    (hbad : doorbellOk r (a.field 31 31 == 1) (a.field 19 17) (a.field 16 16) (a.field 15 0) = false) :
    exec (.doorbell w a) s = .next (raise r.die 0x4002 { ring := r.id, arg0 := (a.merge 0).toNat } s) := by
  show execDoorbell w a s = _
  simp only [execDoorbell, hw]
  rw [if_neg (by simp [ha, hwhole, hn, hen]), if_neg (by simp [hbad])]

theorem notificationDoorbell_exec (hn : r.notif = true) : exec (.notificationDoorbell w a) s = .next (notifWrite r a s) := by
  show execNotificationDoorbell w a s = _
  simp [execNotificationDoorbell, hw, ha, hwhole, hn, hen]

theorem clearOvf_exec (hn : r.notif = true) (hc : a.field 31 31 = 1) : exec (.clearOvf w a) s = .next (notifWrite r a s) := by
  show execClearOvf w a s = _
  simp [execClearOvf, hw, ha, hwhole, hn, hen, hc]

end

/-- R103: the notes that a doorbell of a notification ring consumes. -/
def consumed (r : Ring) (a : Acc) : Nat :=
  distance r.size ((r.head + 2 * r.size - r.notes) % (2 * r.size)) (a.field 16 16 * r.size + a.field 15 0)

theorem notifWrite_eq (r : Ring) (a : Acc) (s : State) : notifWrite r a s =
    if r.size ≤ a.field 15 0 ∨ a.field 19 17 ≠ 0 ∨ r.notes < consumed r a then
      raise r.die 0x4002 { ring := r.id, arg0 := (a.merge 0).toNat } s
    else s.updRing r.die r.idx fun x =>
      { x with notes := x.notes - consumed r a, ovf := if a.field 31 31 = 1 then false else x.ovf } := rfl

/-- R103: notes consumed within the bounds are given back. -/
theorem Runs.of_notifWrite {c : Instr} {r : Ring} {a : Acc} {s : State} (e : exec c s = .next (notifWrite r a s))
    (hr : s.ring? r.die r.idx = some r) (ht : a.field 15 0 < r.size) (hp : a.field 19 17 = 0) (hu : consumed r a ≤ r.notes) :
    Runs c s [.rings] fun t => t.ring? r.die r.idx =
      some { r with notes := r.notes - consumed r a, ovf := if a.field 31 31 = 1 then false else r.ovf } := by
  rw [notifWrite_eq, if_neg (by omega)] at e
  exact .of_changes e (updRing_changes ..) (updRing_ring?_self (fun _ => ⟨rfl, rfl⟩) hr) fun _ k => k

/-- Settles O24, by what a doorbell does (`doorbell_taken`, `doorbell_refused`) and the write of a notification ring (`notifWrite_eq`). -/
theorem doorbellsTaken : Obligations.DoorbellsTaken := by
  unfold Obligations.DoorbellsTaken
  intro w a r s hw hr ha hwhole hen
  obtain ⟨y, hy, -⟩ := reachable_die (reachable_of_actsAll ha)
  have hd : (s.die? r.die).isSome := by rw [winRing_die hw, hy]; rfl
  refine ⟨fun hn => ⟨fun hok => ?_, fun hbad => ?_⟩, ?_⟩
  · have hlen := rebell_length r s.clk.tick r.bells
    exact .of_changes (doorbell_taken hw ha hwhole hen hn hok) (belled_changes ..) ⟨belled_pw, _, belled_ring? hr .., rfl, rfl,
      rfl, hen, by simp [acceptDoorbell, hlen], List.drop_left' hlen⟩ fun _ k => k
  · exact .of_raise (doorbell_refused hw ha hwhole hen hn hbad) hd
  · rintro hn used rfl
    refine ⟨fun ht hp hu => ⟨fun hc => ?_, fun hc => ?_⟩, fun hu => ?_⟩
    · have k := Runs.of_notifWrite (notificationDoorbell_exec hw ha hwhole hen hn) hr ht hp hu
      rw [if_neg (by omega)] at k
      exact k
    · have k := Runs.of_notifWrite (clearOvf_exec hw ha hwhole hen hn hc) hr ht hp hu
      rw [if_pos hc] at k
      exact k
    · have e := notificationDoorbell_exec hw ha hwhole hen hn
      rw [notifWrite_eq, if_pos (.inr (.inr hu))] at e
      exact .of_raise e hd

end Sys2Proof.Machine
end

section
/-! PROOF. SET RING WEIGHT of a ring whose index a notification ring has as well: the note of the command's own completion moves both. -/

namespace Sys2Proof.Machine

/-- SET RING WEIGHT of the ring with index 2, with weight and burst 1 (R482), at the head of `controlRing`. -/
def weightPost : Post := { die := 0, ring := 1, entry := { tail := 0x01010002 }, buf := [] }

/-- The empty work ring with index 2. -/
def weighedRing : Ring := { controlRing with idx := 2, window := 2, tail := 0, bells := [] }

/-- A notification ring with the same index, bound to the vector of `controlRing`. -/
def twinRing : Ring := { weighedRing with window := 3, notif := true }

/-- A ready package with those rings: of rings that share an index the first is found (R76), and every one is changed. -/
def twinned : State :=
  { State.reset with
    run := { RunSt.reset with phase := 8 }, dies := [linkedDie, linkedDie], clk := { State.reset.clk with tick := 1 },
    rings := [controlRing, weighedRing, twinRing] }

theorem twinned_permitted : Permitted .setRingWeight weightPost controlRing twinned where
  ring := rfl
  ready := by decide +kernel
  good := by decide +kernel
  direct := rfl
  allowed := by decide +kernel
  free := by decide +kernel
  read := by decide +kernel

/-- R102: the notes of the ring that a row leaves with an index. -/
def notesIn (d i : Nat) : Host.Outcome State Fault Refusal → Option Nat
  | .next t => (t.ring? d i).map (·.notes)
  | _ => none

/-- R102: the completion of the command writes its note into the notification ring, and counts it in the work ring too. -/
theorem twinned_noted : notesIn 0 2 (exec (.setRingWeight weightPost) twinned) = some 1 := by decide +kernel

/-- R92: dispatch leaves the notes. -/
theorem twinned_dispatched : ((startOf .setRingWeight weightPost controlRing twinned).ring? 0 2).map (·.notes) = some 0 := by
  decide +kernel

/-- Refutes O18: the ring need not be as dispatch left it but for its weights and class. No statement keeps two rings of a state from
sharing a die and an index; where a notification ring shares those of the work ring, the note of the command's own completion (R102)
moves the work ring's head and notes with the notification ring's. -/
theorem not_setRingWeightSets : ¬ Obligations.SetRingWeightSets := by
  unfold Obligations.SetRingWeightSets
  intro h
  obtain ⟨t, y, z, hrow, -, hy, hz, hyz, -⟩ := h weightPost controlRing weighedRing twinned twinned_permitted rfl rfl rfl rfl rfl
    (by decide +kernel) (by decide +kernel) (by decide +kernel) (by decide +kernel)
  have hnoted := twinned_noted
  have hleft := twinned_dispatched
  have hnotes : y.notes = z.notes := by rw [hyz]
  rw [hrow] at hnoted
  have hy1 : some y.notes = some 1 := (congrArg (Option.map Ring.notes) hy).symm.trans hnoted
  have hz0 : some z.notes = some 0 := (congrArg (Option.map Ring.notes) hz).symm.trans hleft
  simp only [Option.some.injEq] at hy1 hz0
  omega

end Sys2Proof.Machine
end

section
/-! PROOF. DELETE RING of an idle ring (R81), and what completions leave of the rings. -/

namespace Sys2Proof.Machine

/-! ### What completions leave of the rings -/

/-- R76, R92: where a ring stands, and its state. -/
def Ring.standing (r : Ring) : Nat × Nat × RingState := (r.die, r.idx, r.state)

theorem updRing_standing (s : State) (d i : Nat) {f : Ring → Ring} (h : ∀ x, (f x).standing = x.standing) :
    (s.updRing d i f).rings.map Ring.standing = s.rings.map Ring.standing := by
  simp only [State.updRing, updIf, List.map_map]
  refine List.map_congr_left fun x _ => ?_
  simp only [Function.comp]
  split
  · exact h x
  · rfl

theorem writeNote_standing (r : Ring) (c : Cmd) (st : W16) (fl : Byte) (s : State) :
    (writeNote r c st fl s).rings.map Ring.standing = s.rings.map Ring.standing := by
  unfold writeNote
  repeat' split
  · rfl
  · rfl
  · exact updRing_standing _ _ _ fun _ => rfl
  · rw [raise_rings]
    exact updRing_standing _ _ _ fun _ => rfl

/-- R85, R102: a completion moves notes and completions on their way alone. -/
theorem complete_standing (ref : CmdRef) (st : W16) (v : Res) (s : State) :
    (complete ref st v s).rings.map Ring.standing = s.rings.map Ring.standing := by
  unfold complete
  split
  · dsimp only
    repeat' split
    · rfl
    · exact updRing_standing _ _ _ fun _ => rfl
    · simp only [writeRecord, sendMsix_rings, meterCompletion_rings]
      exact writeNote_standing ..
  · rfl

theorem ring?_none_iff {s : State} {d i : Nat} :
    s.ring? d i = none ↔ ∀ k ∈ s.rings.map Ring.standing, ¬(k.1 = d ∧ k.2.1 = i) := by
  simp [State.ring?, List.find?_eq_none, Ring.standing]

/-- R85: a command that can be completed still can, where neither HALTED nor the links have changed. -/
theorem Completable.later {ref : CmdRef} {s u : State} {l : List Field} (h : Completable ref s) (f : Frame s u l)
    (hl : .run ∉ l ∧ .health ∉ l) (hc : (u.cmd? ref).isSome) (hr : (u.ring? ref.die ref.ring).isSome) : Completable ref u where
  cmd := hc
  ring := hr
  runs := by rw [f.same .run hl.1]; exact h.runs
  link := by
    have hlink := h.link
    cases hx : s.die? ref.die with
    | none => simp [hx] at hlink
    | some x =>
      obtain ⟨y, hy, e⟩ := die_of_map (f.same .health hl.2) hx
      rw [hx] at hlink
      rw [hy]
      exact (congrArg DieSt.linkUp e).trans hlink

/-! ### Another ring than the one that dispatches -/

/-- R100: what the dispatch of another ring's entry leaves of a ring: where a new round begins, its weight and burst alone change. -/
def Kin (x y : Ring) : Prop := y = x ∨ y = newRound x

theorem startOf_ring?_other {op : Op} {p : Post} {r x : Ring} {s : State} {d i : Nat} (h : s.ring? d i = some x)
    (hn : ¬(d = r.die ∧ i = r.idx)) : ∃ y, (startOf op p r s).ring? d i = some y ∧ Kin x y := by
  obtain ⟨b, e⟩ := dispatched_eq r op p s
  obtain ⟨hd, hi⟩ := ring?_some h
  rw [show startOf op p r s = _ from e]
  simp only [State.ring?, advanceRings] at h ⊢
  rw [List.find?_map]
  have hsame : (fun q : Ring => q.die == d && q.idx == i) ∘ (fun q => if (q.die == r.die && q.idx == r.idx) = true then advance s r
      else if ((classTurn s r).2 && q.die == r.die && classOfRing s q == classOfRing s r) = true then newRound q else q) =
      fun q => q.die == d && q.idx == i := by
    funext q
    simp only [Function.comp]
    split
    next hq => simp only [Bool.and_eq_true, beq_iff_eq] at hq; simp [hq.1, hq.2]
    next => split <;> simp
  rw [hsame, h, Option.map_some, if_neg (by simp only [Bool.and_eq_true, beq_iff_eq]; rw [hd, hi]; exact hn)]
  refine ⟨_, rfl, ?_⟩
  split
  · exact .inr rfl
  · exact .inl rfl

/-! ### DELETE RING -/

/-- R81: the ring at an index is gone. -/
def unringed (d i : Nat) (s : State) : State := { s with rings := s.rings.filter fun x => !(x.die == d && x.idx == i) }

theorem unringed_changes (d i : Nat) (s : State) : Changes s (unringed d i s) [.rings] :=
  Frame.changes ⟨fun k hk => by cases k with | rings => simp at hk | _ => rfl⟩ (by decide) (.of_eq rfl)

theorem unringed_ring? (d i : Nat) (s : State) : (unringed d i s).ring? d i = none := by
  refine List.find?_eq_none.2 fun x hx => ?_
  exact Bool.eq_false_iff.1 (by simpa only [Bool.not_eq_true'] using (List.mem_filter.1 hx).2)

theorem unringed_ring?_other {d i e j : Nat} (s : State) (h : ¬(e = d ∧ j = i)) : (unringed d i s).ring? e j = s.ring? e j := by
  simp only [State.ring?, unringed, List.find?_filter]
  congr 1
  funext x
  by_cases hx : x.die = e ∧ x.idx = j
  · obtain ⟨rfl, rfl⟩ := hx
    have hk : (x.die == d && x.idx == i) = false := by simpa using h
    simp [hk]
  · have : (x.die == e && x.idx == j) = false := by simpa using hx
    simp [this]

theorem complete_ring?_none {s : State} {d i : Nat} (h : s.ring? d i = none) (ref : CmdRef) (st : W16) (v : Res) :
    (complete ref st v s).ring? d i = none := by
  rw [ring?_none_iff, complete_standing, ← ring?_none_iff]
  exact h

theorem endDeletion_single {r : Ring} {ref : CmdRef} (h : r.deleters = [ref]) (s : State) :
    endDeletion r s = ok ref (((s.cmd? ref).map (·.aux)).getD 0) (unringed r.die r.idx s) := by
  unfold endDeletion
  rw [h]
  rfl

/-- R81: a DELETE RING that waits for the ring, with the entries that were posted and not dispatched. -/
def awaitsRing (n : Nat) (c : Cmd) : Cmd := { c with stage := .waiting, aux := n }

/-- R81: a ring that is being deleted for a command. -/
def toDelete (ref : CmdRef) (x : Ring) : Ring := { x with state := .deleting, deleters := x.deleters ++ [ref] }

/-- R81: the state once DELETE RING has begun on a ring. -/
def deleting (x : Ring) (ref : CmdRef) (s : State) : State :=
  (s.updCmd ref (awaitsRing (distance x.size x.head x.tail))).updRing x.die x.idx (toDelete ref)

/-- R81: the state once that ring is gone. -/
def deleted (x : Ring) (ref : CmdRef) (s : State) : State := unringed x.die x.idx (deleting x ref s)

theorem deleted_changes (x : Ring) (ref : CmdRef) (s : State) : Changes s (deleted x ref s) [.cmds, .rings] :=
  (((updCmd_changes ..).mono (by decide)).step (updRing_changes ..) (by decide)).step (unringed_changes ..) (by decide)

/-- R81: an idle ring, another than the command's own, is deleted at once. -/
theorem deleteRing_idle {c e : Cmd} {s : State} {x : Ring} (hx : s.ring? (c.entry.param 44 2 / 512) (c.entry.param 44 2 % 512) = some x)
    (hfn : x.fn = c.fn) (hd : x.die = c.ref.die) (hs : x.setup = false) (hi : x.idx ≠ c.ref.ring) (hstate : x.state = .enabled)
    (hnotif : x.notif = false) (hdel : x.deleters = []) (hidle : inflight (deleting x c.ref s) x = 0)
    (he : (deleted x c.ref s).cmd? c.ref = some e) : deleteRing c s = ok c.ref e.aux (deleted x c.ref s) := by
  have hcnt : (if x.state = .deleting ∨ x.notif = true then 0 else distance x.size x.head x.tail) = distance x.size x.head x.tail :=
    if_neg (by simp [hstate, hnotif])
  have hend : endDeletion { x with deleters := x.deleters ++ [c.ref] } (deleting x c.ref s) = ok c.ref e.aux (deleted x c.ref s) := by
    rw [endDeletion_single (ref := c.ref) (by simp [hdel]), show (deleting x c.ref s).cmd? c.ref = some e from he]
    rfl
  unfold deleteRing
  simp only [hx]
  rw [if_neg (by simp [hfn, hd, hs, hi]), hcnt]
  exact (if_pos hidle).trans hend

section
variable {op : Op} {p : Post} {r x y : Ring} {s : State} (h : Taken op p r s)
include h

theorem deleting_idle (hx : x.idx ≠ r.idx) (hi : inflight s x = 0) (hk : Kin x y) :
    inflight (deleting y r.ref (startOf op p r s)) y = 0 := by
  have hy : y.die = x.die ∧ y.idx = x.idx ∧ y.backs = x.backs := by obtain rfl | rfl := hk <;> exact ⟨rfl, rfl, rfl⟩
  have hc : (deleting y r.ref (startOf op p r s)).cmds =
      s.cmds ++ [awaitsRing (distance y.size y.head y.tail) (cmdOf op p r s)] :=
    congrArg State.cmds (h.updCmd (awaitsRing _))
  have hr : (r.idx == x.idx) = false := by simpa using Ne.symm hx
  simp only [inflight, hc, hy, List.filter_append] at hi ⊢
  simpa [awaitsRing, newCmd, Ring.ref, hr] using hi

theorem deleted_cmd? (y : Ring) : (deleted y r.ref (startOf op p r s)).cmd? r.ref =
    some (awaitsRing (distance y.size y.head y.tail) (cmdOf op p r s)) :=
  h.updCmd_cmd? (f := awaitsRing (distance y.size y.head y.tail)) fun _ => rfl

/-- R81: the ring of the command itself stays. -/
theorem deleted_completable (hy : y.idx ≠ r.idx) : Completable r.ref (deleted y r.ref (startOf op p r s)) := by
  refine h.completable.later (deleted_changes ..).frame (by decide) (by rw [deleted_cmd? h]; rfl) ?_
  rw [deleted, unringed_ring?_other (e := r.ref.die) (j := r.ref.ring) _ fun k => hy k.2.symm, deleting, updRing_ring? _ _ _ (toDelete r.ref) fun _ => ⟨rfl, rfl⟩,
    Option.isSome_map]
  exact h.completable.ring

end

/-- Settles O17: the ring is deleted in the step of the command (`deleteRing_idle`), whose completion brings no ring back. -/
theorem deleteRingRemoves : Obligations.DeleteRingRemoves := by
  unfold Obligations.DeleteRingRemoves
  intro p r x s h hx hfn hd hsetup hidx hstate hnotif hdel hidle
  have taken := h.toDirect.toTaken
  obtain ⟨y, hy, hk⟩ := startOf_ring?_other (op := .deleteRing) (p := p) (r := r) hx fun k => hidx ((ring?_some hx).2.trans k.2)
  have hkin : y.die = x.die ∧ y.idx = x.idx ∧ y.fn = x.fn ∧ y.setup = x.setup ∧ y.state = x.state ∧ y.notif = x.notif ∧
      y.deleters = x.deleters ∧ distance y.size y.head y.tail = distance x.size x.head x.tail := by
    obtain rfl | rfl := hk <;> exact ⟨rfl, rfl, rfl, rfl, rfl, rfl, rfl, rfl⟩
  obtain ⟨kdie, kidx, kfn, ksetup, kstate, knotif, kdel, kdist⟩ := hkin
  have kne : y.idx ≠ r.idx := by rwa [kidx]
  rw [← kdist, ← kdie, ← kidx]
  have hrow := deleteRing_idle (c := cmdOf .deleteRing p r s) hy (kfn.trans hfn) (kdie.trans hd) (ksetup.trans hsetup) kne
    (kstate.trans hstate) (knotif.trans hnotif) (kdel.trans hdel) (deleting_idle taken hidx hidle hk) (deleted_cmd? taken y)
  have changes := deleted_changes y r.ref (startOf .deleteRing p r s)
  have grows : Grows s (deleted y r.ref (startOf .deleteRing p r s)) := .trans (.of_eq (by simp)) changes.grows
  exact ⟨_, congrArg Host.Outcome.next ((h.dispatch deleteRing).trans hrow),
    completes_of_grows (deleted_completable taken kne) (by rw [deleted_cmd? taken]; rfl) grows ..,
    complete_ring?_none (unringed_ring? ..) ..,
    (((dispatched_frame ..).mono (by decide)).trans (changes.frame.mono (by decide))).trans ((ok_frame ..).mono (by decide))⟩

end Sys2Proof.Machine
end

section
/-! PROOF. What a device reset leaves (R465, R466, R509). -/

namespace Sys2Proof.Machine

/-! ### Before the restart -/

theorem msgs_changes (s : State) (l : List Msg) : Changes s (s.updRefl fun x => { x with msgs := l }) [.msgs] :=
  Frame.changes ⟨fun k hk => by cases k with | msgs => simp at hk | _ => rfl⟩ (by decide) (.of_eq rfl)

theorem failReflect_changes (m : Msg) (st : W16) (n : Nat) (s : State) : Changes s (failReflect m st n s) (.msgs :: ending) := by
  have h := (msgs_changes s (s.refl.msgs.filter fun y => !(y.die == m.die && y.msgno == m.msgno && y.isResp == m.isResp))).mono
    (m := .msgs :: ending) (by decide)
  unfold failReflect
  dsimp only
  split
  · exact h.step (complete_changes ..) (by decide)
  · exact h

theorem stopCmd_changes (st : W16) (c : Cmd) (s : State) : Changes s (stopCmd st c s) (.msgs :: ending) := by
  unfold stopCmd
  split
  · exact failReflect_changes ..
  · exact (complete_changes ..).mono (by decide)

/-- R466, R509: what a device reset changes before the package restarts. -/
abbrev stopping : List Field := .feat :: .fns :: .free :: .health :: .jr :: .log :: .msgs :: .pair :: .pools :: .vols :: ending

/-- R465, R466: the package before it restarts: settings that waited are in force, commands are stopped, records and POWER HOLDs programmed. -/
def stopped (s : State) : State :=
  let s1 := s.cmds.foldl (fun s c => stopCmd 0x0502 c s) s.takeFeats
  let s2 := sendMessages (programEvery (if s1.log.frozen then thaw s1 else s1))
  if 4 < s.run.phase then powerHolds (fun _ => 0) s2 else s2

theorem deviceReset_eq (s : State) : deviceReset s = restart (stopped s) := rfl

theorem powerHolds_changes (mode : DieSt → Nat) (s : State) : Changes s (powerHolds mode s) [.free, .jr] :=
  foldl_changes _ (fun _ _ => powerHold_changes ..) ..

/-- After the waiting settings have taken effect. -/
theorem stopped_changes (s : State) :
    Changes s.takeFeats (stopped s) (.msgs :: .log :: .fns :: .free :: .jr :: ending) := by
  have h1 : Changes s.takeFeats (s.cmds.foldl (fun s c => stopCmd 0x0502 c s) s.takeFeats)
      (.msgs :: .log :: .fns :: .free :: .jr :: ending) := (foldl_changes _ (fun _ _ => stopCmd_changes ..) ..).mono (by decide)
  have h2 (u : State) (h : Changes s.takeFeats u (.msgs :: .log :: .fns :: .free :: .jr :: ending)) :=
    (h.step (programEvery_changes u) (by decide)).step (sendMessages_changes _) (by decide)
  have h3 := h2 _ (h1.step (thaw_changes _) (by decide))
  unfold stopped
  dsimp only
  split <;> split
  · exact h3.step (powerHolds_changes ..) (by decide)
  · exact (h2 _ h1).step (powerHolds_changes ..) (by decide)
  · exact h3
  · exact h2 _ h1

theorem stopped_frame (s : State) : Frame s (stopped s) stopping :=
  ((takeFeats_turns s).frame.mono (by decide)).trans ((stopped_changes s).frame.mono (by decide))

/-! ### The pools and volumes -/

theorem updIf_map_same {α β : Type} {p : α → Bool} {f : α → α} {g : α → β} (h : ∀ x, g (f x) = g x) (l : List α) :
    (updIf p f l).map g = l.map g := by
  simp only [updIf, List.map_map]
  refine List.map_congr_left fun x _ => ?_
  simp only [Function.comp]
  split
  · exact h x
  · rfl

theorem takeLater_nums (s : State) (f : Later) :
    (s.takeLater f).pools.map (·.num) = s.pools.map (·.num) ∧ (s.takeLater f).vols.map (·.num) = s.vols.map (·.num) := by
  cases f with
  | policy v w => exact ⟨rfl, updIf_map_same (f := fun v : Vol => { v with wt := w }) (fun _ => rfl) _⟩
  | age p n => exact ⟨updIf_map_same (f := fun p : Pool => { p with age := n }) (fun _ => rfl) _, rfl⟩
  | _ => exact ⟨rfl, rfl⟩

theorem takeLaters_nums (l : List Later) (s : State) :
    (l.foldl State.takeLater s).pools.map (·.num) = s.pools.map (·.num) ∧
      (l.foldl State.takeLater s).vols.map (·.num) = s.vols.map (·.num) := by
  induction l generalizing s with
  | nil => exact ⟨rfl, rfl⟩
  | cons f l ih => exact ⟨(ih _).1.trans (takeLater_nums s f).1, (ih _).2.trans (takeLater_nums s f).2⟩

/-- R484: the settings that take effect keep the pools and volumes there are. -/
theorem takeFeats_nums (s : State) :
    s.takeFeats.pools.map (·.num) = s.pools.map (·.num) ∧ s.takeFeats.vols.map (·.num) = s.vols.map (·.num) :=
  takeLaters_nums ..

/-! ### The restart -/

theorem restart_frame (s : State) : Frame s (restart s) resetting := by
  refine ⟨fun k hk => ?_⟩
  cases k with
  | id | seq | uniq | nss | nextPlan | uids | eid | pending => rfl
  | _ => simp at hk

theorem resetDie_mem {s : State} {x : DieSt} (h : x ∈ (restart s).dies) : ∃ y, x = resetDie y :=
  (List.mem_map.1 h).elim fun y k => ⟨y, k.2.symm⟩

/-- R465, R466, R509: what a device reset leaves. -/
theorem deviceReset_after (s : State) : AfterReset s (deviceReset s) := by
  rw [deviceReset_eq]
  have f := stopped_frame s
  have k := stopped_changes s
  have hclk : (stopped s).clk = s.clk := f.same .clk (by decide)
  have hcache : (stopped s).cache = s.cache := f.same .cache (by decide)
  refine ⟨⟨rfl, rfl, rfl, rfl⟩, ⟨rfl, rfl, rfl, rfl⟩, ⟨rfl, rfl, rfl, rfl, rfl⟩, rfl, ⟨rfl, rfl⟩, fun x hx => ?_, fun x hx => ?_,
    congrArg (List.filter fun b : CBlk => b.dirty) hcache, ⟨?_, ?_⟩,
    ⟨show (stopped s).clk.tick = _ by rw [hclk], show (stopped s).clk.optime = _ by rw [hclk]⟩, (f.mono (by decide)).trans (restart_frame _)⟩
  · obtain ⟨y, rfl⟩ := resetDie_mem hx
    exact ⟨rfl, rfl, rfl, rfl⟩
  · obtain ⟨y, -, rfl⟩ := List.mem_map.1 hx
    rfl
  · have hp : (stopped s).pools = s.takeFeats.pools := k.frame.same .pools (by decide)
    have hr : (restart (stopped s)).pools.map (·.num) = (stopped s).pools.map (·.num) := by
      simp only [restart, List.map_map]; rfl
    rw [hr, hp, (takeFeats_nums s).1]
  · have hv : (stopped s).vols = s.takeFeats.vols := k.frame.same .vols (by decide)
    have hr : (restart (stopped s)).vols.map (·.num) = (stopped s).vols.map (·.num) := by
      simp only [restart, List.map_map]; rfl
    rw [hr, hv, (takeFeats_nums s).2]

/-- R465: GCTL_RESET with its key resets the package. -/
theorem gctlReset_resets {port : Nat} {a : Acc} {s : State} (hs : actsReset s port = true) (hw : a.whole = true)
    (hk : a.field 31 16 = 0xD1E5) (hb : a.field 0 0 = 1) : ∃ t, exec (.gctlReset port a) s = .next t ∧ AfterReset s t := by
  refine ⟨deviceReset s, ?_, deviceReset_after s⟩
  show execGctlReset port a s = _
  simp [execGctlReset, hs, hw, hk, hb]

/-- R465: so does RESET_N, which is held to be asserted in its tick. -/
theorem resetN_resets {s : State} (hp : s.run.powered = true) (hf : s.run.pfail = none) :
    ∃ t, exec .resetN s = .next t ∧ AfterReset s t := by
  have e : exec .resetN s = .next { deviceReset s with run := { (deviceReset s).run with resetNAt := some (deviceReset s).clk.tick } } := by
    show execResetN s = _
    simp [execResetN, resetN, hp, hf]
  have k := deviceReset_after s
  have f : Frame (deviceReset s) { deviceReset s with run := { (deviceReset s).run with resetNAt := some (deviceReset s).clk.tick } }
      resetting := (run_changes ..).frame.mono (by decide)
  exact ⟨_, e, k.run, k.work, k.refl, k.pw, k.feat, k.dies, k.keys, k.cache, k.pools, k.tick, k.frame.trans f⟩

end Sys2Proof.Machine
end

section
/-! PROOF. Writes of the registers without a command of their own (R409, R411, R454, R505 to R524). -/

namespace Sys2Proof.Machine

/-! ### The ladder, pending bits, the metering head -/

theorem ladderAck_acks {port : Nat} {a : Acc} {s : State} (hs : actsSome s port = true) (hh : a.high = true)
    (hf : a.field 63 63 = 1) : Runs (.ladderAck port a) s [.reg] fun t => t.reg = { s.reg with ack := true } := by
  refine .of_changes ?_ (reg_changes s { s.reg with ack := true }) rfl fun _ k => k
  show execLadderAck port a s = _
  simp [execLadderAck, hs, hh, hf]

theorem updEvt_die?_self {s : State} {d : Nat} {x : DieSt} (f : EvtSt → EvtSt) (h : s.die? d = some x) :
    (s.updEvt d f).die? d = some { x with evt := f x.evt } := updDie_die?_self _ h

theorem evtPendClear_clears {d i : Nat} {a : Acc} {x : DieSt} {s : State} (hs : actsSome s d = true) (hx : s.die? d = some x) :
    Runs (.evtPendClear d i a) s [.evt] fun t => ∃ y, t.die? d = some y ∧ y.evt.routes = x.evt.routes ∧
      ∀ q, q ∈ y.evt.pend ↔ q ∈ x.evt.pend ∧ ¬(q / 64 = i ∧ (a.merge 0).getLsbD (q % 64) = true) :=
  ⟨_, if_pos hs, ⟨_, updEvt_die?_self _ hx, rfl, fun q => by simp [imp_iff_not_or]⟩, updEvt_frame ..⟩

section
variable {d n : Nat} {b : W64} {a : Acc} {s : State} (hs : actsSome s d = true) (hl : d = s.id.lead) (ha : a.low = true)
  (hr : s.meter.ring = some (b, n)) (hn : 0 < n) (hf : a.field 15 0 < n)
include hs hl ha hr hn hf

theorem meterHeadWrite_exec : exec (.meterHeadWrite d a) s = .next
    (if distance n (meterHeadPos n s.meter.head) (meterHeadPos n (BitVec.ofNat 17 (a.field 16 0))) ≤
        distance n (meterHeadPos n s.meter.head) s.meter.dhead then
      { s with meter := { s.meter with head := BitVec.ofNat 17 (a.field 16 0) } }
    else raise d 0x4002 { arg0 := (a.merge 0).toNat } s) := by
  show Host.Outcome.next (meterHeadWrite d a s) = _
  have hn0 : n ≠ 0 := by omega
  unfold meterHeadWrite
  rw [if_neg (by simp [hs, ← hl, ha])]
  simp only [hr, Option.map_some, Option.getD_some, if_neg hn0, decide_eq_true hf, Bool.true_and, decide_eq_true_eq]

theorem meterHeadWrite_moves (hd : distance n (meterHeadPos n s.meter.head) (meterHeadPos n (BitVec.ofNat 17 (a.field 16 0))) ≤
    distance n (meterHeadPos n s.meter.head) s.meter.dhead) : Runs (.meterHeadWrite d a) s [.meter] fun t =>
      t.meter = { s.meter with head := BitVec.ofNat 17 (a.field 16 0) } := by
  have e := meterHeadWrite_exec hs hl ha hr hn hf
  rw [if_pos hd] at e
  exact .of_changes e (meter_changes ..) rfl fun _ k => k

theorem meterHeadWrite_refused (hd : distance n (meterHeadPos n s.meter.head) s.meter.dhead <
    distance n (meterHeadPos n s.meter.head) (meterHeadPos n (BitVec.ofNat 17 (a.field 16 0)))) :
    Runs (.meterHeadWrite d a) s raising fun t => Pending t d 0x4002 := by
  have e := meterHeadWrite_exec hs hl ha hr hn hf
  rw [if_neg (by omega)] at e
  obtain ⟨x, hx, -⟩ := reachable_die (reachable_of_actsSome hs)
  exact .of_raise e (by rw [hx]; rfl)

end

/-! ### Functions -/

theorem updFn_fn?_self {s : State} {d fn : Nat} {f : FnSt} {g : FnSt → FnSt} (hg : ∀ x, (g x).die = x.die ∧ (g x).fn = x.fn)
    (h : s.fn? d fn = some f) : (s.updFn d fn g).fn? d fn = some (g f) := by
  have k := find?_updIf (fun x : FnSt => x.die == d && x.fn == fn) g (fun x hx => by rw [(hg x).1, (hg x).2]; exact hx) s.fns
  simp only [State.fn?] at h ⊢
  rw [h] at k
  simpa [State.updFn, State.fn?, h] using k

/-- A change of a function keeps of every function what it keeps of one. -/
theorem updFn_keeps {β : Type} {g : FnSt → FnSt} {k : FnSt → β} (hg : ∀ x, (g x).die = x.die ∧ (g x).fn = x.fn)
    (hk : ∀ x, k (g x) = k x) {s : State} {d fn e i : Nat} {f : FnSt} (h : s.fn? e i = some f) :
    ∃ y, (s.updFn d fn g).fn? e i = some y ∧ k y = k f := by
  have hsame : (fun x : FnSt => x.die == e && x.fn == i) ∘ (fun x => if (x.die == d && x.fn == fn) = true then g x else x) =
      fun x => x.die == e && x.fn == i := by
    funext x
    simp only [Function.comp]
    split
    · rw [(hg x).1, (hg x).2]
    · rfl
  unfold State.updFn
  simp only [State.fn?] at h ⊢
  split
  · refine ⟨if (f.die == d && f.fn == fn) = true then g f else f, ?_, ?_⟩
    · simp only [updIf, List.find?_map, hsame, h, Option.map_some]
    · split
      · exact hk f
      · rfl
  · exact ⟨f, by simp [List.find?_append, h], rfl⟩

theorem updFn_id_of_fn? {s : State} {d fn : Nat} {f : FnSt} (h : s.fn? d fn = some f) : s.updFn d fn id = s := by
  have k : updIf (fun x : FnSt => x.die == d && x.fn == fn) id s.fns = s.fns := by simp [updIf]
  unfold State.updFn
  simp only [h, k]

/-! ### Vectors (R105, R524) -/

theorem msixOf_vec (f : FnSt) (v : Nat) : (msixOf f v).vec = v := by
  unfold msixOf
  cases h : f.msix.find? fun m => m.vec == v with
  | none => rfl
  | some m => simpa using List.find?_some h

theorem msixOf_setMsix (f : FnSt) (m : Msix) : msixOf (setMsix f m) m.vec = m := by
  simp [msixOf, setMsix]

/-- R105, R524: a message of a vector would be sent at once: its function is there, its port's link is up, it is not masked. -/
structure Unmasked (d fn vec : Nat) (s : State) : Prop where
  fn : ∃ f, s.fn? d fn = some f ∧ (f.msix.find? fun m => m.vec == vec).any (fun m => !m.masked) = true
  link : ∃ x, s.die? d = some x ∧ x.linkUp = true

theorem Unmasked.messageOf {d fn vec : Nat} {s : State} (h : Unmasked d fn vec s) :
    messageOf (d, fn, vec) s = s.emit (.msix d fn vec) := by
  obtain ⟨⟨f, hf, hm⟩, x, hx, hl⟩ := h
  simp [Machine.messageOf, hf, hx, hl, hm]

theorem Unmasked.later {d fn vec : Nat} {s : State} (h : Unmasked d fn vec s) (x : Nat × Nat × Nat) :
    Unmasked d fn vec (Machine.messageOf x s) := by
  obtain ⟨⟨f, hf, hm⟩, y, hy, hl⟩ := h
  obtain ⟨z, hz, hc⟩ := die_of_map ((messageOf_changes x s).frame.same .health (by decide)) hy
  refine ⟨?_, z, hz, (congrArg DieSt.linkUp hc).trans hl⟩
  have same : ∃ g, s.fn? d fn = some g ∧ g.msix = f.msix := ⟨f, hf, rfl⟩
  suffices k : ∃ g, (Machine.messageOf x s).fn? d fn = some g ∧ g.msix = f.msix from
    k.imp fun g hg => ⟨hg.1, by rw [hg.2]; exact hm⟩
  unfold Machine.messageOf
  split
  · repeat' split
    · exact same
    · exact same
    · exact updFn_keeps (k := FnSt.msix) (g := fun f => { f with pba := insNat x.2.2 f.pba }) (fun _ => ⟨rfl, rfl⟩) (fun _ => rfl) hf
  · exact same

theorem Unmasked.foldl {d fn vec : Nat} (l : List (Nat × Nat × Nat)) {s : State} (h : Unmasked d fn vec s) :
    Unmasked d fn vec (l.foldl (fun s x => Machine.messageOf x s) s) := by
  induction l generalizing s with
  | nil => exact h
  | cons x l ih => exact ih (h.later x)

theorem messagesOf_grows (l : List (Nat × Nat × Nat)) (s : State) : Grows s (l.foldl (fun s x => Machine.messageOf x s) s) :=
  (foldl_changes _ (fun s x => messageOf_changes x s) ..).grows

/-- R105: a message that is due for a vector that is not masked is sent. -/
theorem Unmasked.sends {d fn vec : Nat} {s : State} (h : Unmasked d fn vec s) (hd : (d, fn, vec) ∈ s.msixSent) :
    Puts s (sendMessages s) (.msix d fn vec) := by
  obtain ⟨l, m, e⟩ := List.append_of_mem hd
  have h0 : Unmasked d fn vec { s with msixSent := [] } := ⟨h.fn, h.link⟩
  unfold sendMessages
  rw [e, List.foldl_append, List.foldl_cons, (h0.foldl l).messageOf]
  have g : Grows s (l.foldl (fun s x => Machine.messageOf x s) { s with msixSent := [] }) :=
    (Grows.of_eq rfl).trans (messagesOf_grows l { s with msixSent := [] })
  exact (Puts.of_emit rfl (messagesOf_grows m _)).earlier g

/-! ### The unmasking of a vector -/

theorem sendMsix_due {d fn vec : Nat} {s : State} {f : FnSt} {x : DieSt} (hf : s.fn? d fn = some f) (hx : s.die? d = some x)
    (hh : s.run.halted = false) (hl : x.linkUp = true) (hv : vec < vectorsOf s d fn) : (d, fn, vec) ∈ (sendMsix d fn vec s).msixSent := by
  unfold sendMsix
  simp only [hf, hx]
  split
  next h =>
    have hv' : ¬ vectorsOf s d fn ≤ vec := by omega
    simpa [hh, hl, hv'] using h
  next => simp

/-- R524: a function with a vector unmasked and not pending. -/
def unmasked (vec : Nat) (f : FnSt) : FnSt := setMsix f { msixOf f vec with masked := false }

/-- R105: a function with a vector not pending. -/
def unpended (vec : Nat) (f : FnSt) : FnSt := { f with pba := f.pba.filter (· != vec) }

theorem unmask_eq {d fn vec : Nat} {s : State} {f : FnSt} (hf : s.fn? d fn = some f) : unmask d fn vec s =
    if f.pba.contains vec then sendMsix d fn vec ((s.updFn d fn (unmasked vec)).updFn d fn (unpended vec))
    else s.updFn d fn (unmasked vec) := by
  unfold unmask
  simp only [hf]
  rfl

theorem msixOf_unmasked (f : FnSt) (vec : Nat) : msixOf (unmasked vec f) vec = { msixOf f vec with masked := false } := by
  have k := msixOf_setMsix f { msixOf f vec with masked := false }
  rwa [show ({ msixOf f vec with masked := false } : Msix).vec = vec from msixOf_vec f vec] at k

theorem unmasked_find (f : FnSt) (vec : Nat) : ((unmasked vec f).msix.find? fun m => m.vec == vec).any (fun m => !m.masked) = true := by
  simp [unmasked, setMsix, msixOf_vec]

/-- R105: the state once a pending vector is unmasked. -/
def released (d fn vec : Nat) (s : State) : State := sendMsix d fn vec ((s.updFn d fn (unmasked vec)).updFn d fn (unpended vec))

theorem released_changes (d fn vec : Nat) (s : State) : Changes s (released d fn vec s) [.fns, .msixSent] :=
  (((updFn_changes ..).mono (by decide)).step (updFn_changes ..) (by decide)).step (sendMsix_changes ..) (by decide)

theorem released_fn? {d fn vec : Nat} {s : State} {f : FnSt} (hf : s.fn? d fn = some f) :
    (released d fn vec s).fn? d fn = some (unpended vec (unmasked vec f)) := by
  have k := updFn_fn?_self (g := unpended vec) (fun _ => ⟨rfl, rfl⟩) (updFn_fn?_self (g := unmasked vec) (fun _ => ⟨rfl, rfl⟩) hf)
  rwa [State.fn?, released, sendMsix_fns]

theorem released_due {d fn vec : Nat} {s : State} {f : FnSt} (ha : actsAll s d = true) (hv : vec < vectorsOf s d fn)
    (hf : s.fn? d fn = some f) : (d, fn, vec) ∈ (released d fn vec s).msixSent := by
  obtain ⟨x, hx, hl⟩ := reachable_die (reachable_of_actsAll ha)
  have hrun : s.running = true := by
    simp only [actsAll, Bool.and_eq_true] at ha
    exact ha.2
  refine sendMsix_due (x := x) (updFn_fn?_self (fun _ => ⟨rfl, rfl⟩) (updFn_fn?_self (fun _ => ⟨rfl, rfl⟩) hf)) ?_ ?_ hl ?_
  · simpa [State.die?] using hx
  · simpa using running_not_halted hrun
  · simpa [vectorsOf, State.isPf, State.split] using hv

theorem released_unmasked {d fn vec : Nat} {s : State} {f : FnSt} (ha : actsAll s d = true) (hf : s.fn? d fn = some f) :
    Unmasked d fn vec (released d fn vec s) := by
  obtain ⟨x, hx, hl⟩ := reachable_die (reachable_of_actsAll ha)
  obtain ⟨y, hy, hc⟩ := die_of_map ((released_changes d fn vec s).frame.same .health (by decide)) hx
  exact ⟨⟨_, released_fn? hf, unmasked_find f vec⟩, y, hy, (congrArg DieSt.linkUp hc).trans hl⟩

theorem msixVectorUnmask_unmasks {d fn vec : Nat} {f : FnSt} {s : State} (ha : actsAll s d = true) (hv : vec < vectorsOf s d fn)
    (hf : s.fn? d fn = some f) : Runs (.msixVectorUnmask d fn vec) s [.fns, .msixSent] fun t =>
      (∃ g, t.fn? d fn = some g ∧ msixOf g vec = { msixOf f vec with masked := false } ∧ vec ∉ g.pba) ∧
      (vec ∈ f.pba → (d, fn, vec) ∈ t.msixSent ∧ Puts t (sendMessages t) (.msix d fn vec)) := by
  have e : exec (.msixVectorUnmask d fn vec) s = .next (unmask d fn vec s) := by
    show execMsixVectorUnmask d fn vec s = _
    simp [execMsixVectorUnmask, ha, hv, updFn_id_of_fn? hf]
  have h1 : (s.updFn d fn (unmasked vec)).fn? d fn = some (unmasked vec f) := updFn_fn?_self (fun _ => ⟨rfl, rfl⟩) hf
  have c1 := updFn_changes s d fn (unmasked vec)
  rw [unmask_eq hf] at e
  by_cases hp : vec ∈ f.pba
  · rw [if_pos (by simpa using hp)] at e
    have due := released_due ha hv hf
    exact .of_changes e (released_changes ..) ⟨⟨_, released_fn? hf, msixOf_unmasked f vec, by simp [unpended]⟩,
      fun _ => ⟨due, (released_unmasked ha hf).sends due⟩⟩ fun _ k => k
  · rw [if_neg (by simpa using hp)] at e
    exact .of_changes e c1 ⟨⟨_, h1, msixOf_unmasked f vec, hp⟩, fun k => absurd k hp⟩ (by decide)

/-! ### Plain registers (R409, R505 to R524) -/

theorem routeOf_src (e : EvtSt) (n : Nat) : (routeOf e n).src = n := by
  unfold routeOf
  cases h : e.routes.find? fun r => r.src == n with
  | none => rfl
  | some r => simpa using List.find?_some h

theorem routeOf_setRoute (e : EvtSt) (r : Route) : routeOf (setRoute e r) r.src = r := by
  unfold routeOf setRoute
  dsimp only
  split
  next h =>
    rw [find?_updIf _ _ (by simp)]
    obtain ⟨x, hx, hs⟩ := List.any_eq_true.1 h
    cases k : e.routes.find? fun x => x.src == r.src with
    | none => exact absurd hs (by simpa using List.find?_eq_none.1 k x hx)
    | some y => rfl
  next => simp

/-- R409: a 64-bit write of a routing register sets its fields and keeps its count. -/
theorem writeRoute_routeOf {src : Nat} {a : Acc} {e : EvtSt} (h : a.width = 64) : routeOf (writeRoute src a e) src =
    { routeOf e src with
      msien := a.value.getLsbD 31, alerten := a.value.getLsbD 30, fn := bits a.value.toNat 21 16, vector := bits a.value.toNat 10 0 } := by
  have k := routeOf_setRoute e { routeOf e src with
    msien := a.value.getLsbD 31, alerten := a.value.getLsbD 30, fn := bits a.value.toNat 21 16, vector := bits a.value.toNat 10 0 }
  rw [show (Route.src _) = src from routeOf_src e src] at k
  rw [← k]
  simp only [writeRoute, Acc.merge, h, if_true]
  rfl

section
variable {port fn off : Nat} {a : Acc} {s : State}

/-- R507, R519: outside the exchange windows a write is plain. -/
theorem registerWrite_plain (hpf : s.isPf port fn = true) (hx : off < 0x7000 ∨ 0x8000 ≤ off) :
    exec (.registerWrite port fn off a) s = .next (plainWrite port fn off a s) := by
  have h : xchAt s port fn off = none := by
    simp only [xchAt, xchWindows, hpf, if_true]
    exact if_neg (by omega)
  show execRegisterWrite port fn off a s = _
  unfold execRegisterWrite
  rw [h]

section
variable (hw : a.width = 64) (ho : off % 8 = 0)
include hw ho

theorem plainWrite_evt (hpf : s.isPf port fn = true) (hs : actsSome s port = true) (h1 : 0x3000 ≤ off) (h2 : off < 0x4000) :
    plainWrite port fn off a s = s.updEvt port (writeEvt (off - 0x3000) a) := by
  unfold plainWrite
  rw [if_neg (by simp [Acc.low, Acc.whole, hw, ho]), if_pos ⟨hpf, h1, h2⟩, if_pos hs]

theorem plainWrite_msix {v h : Nat} (hs : actsAll s port = true) (hoff : off < 0x3000 ∨ 0x4000 ≤ off)
    (hv : vectorAt s port fn off = some (v, h)) (hn : v < vectorsOf s port fn) :
    plainWrite port fn off a s = writeMsix port fn v h a (s.updFn port fn id) := by
  unfold plainWrite
  rw [if_neg (by simp [Acc.low, Acc.whole, hw, ho]), if_neg (by omega), if_neg (by simp [hs]), hv]
  exact if_pos hn

theorem plainWrite_window {w : Win} {o : Nat} (hs : actsAll s port = true) (hoff : off < 0x3000 ∨ 0x4000 ≤ off)
    (hv : vectorAt s port fn off = none) (hwin : windowOf s port fn off = some (w, o)) :
    plainWrite port fn off a s = writeWindow w o a (s.updFn port fn id) := by
  unfold plainWrite
  rw [if_neg (by simp [Acc.low, Acc.whole, hw, ho]), if_neg (by omega), if_neg (by simp [hs]), hv, hwin]

/-- R507: where no register is, nothing is written. -/
theorem plainWrite_nothing (hoff : off < 0x3000 ∨ 0x4000 ≤ off) (hv : vectorAt s port fn off = none)
    (hwin : windowOf s port fn off = none) : plainWrite port fn off a s = s := by
  unfold plainWrite
  rw [if_neg (by simp [Acc.low, Acc.whole, hw, ho]), if_neg (by omega), hv, hwin]
  exact ite_self s

end

theorem vectorAt_pf (hpf : s.isPf port fn = true) :
    vectorAt s port fn off = if 0x10000 ≤ off ∧ off < 0x14000 then some ((off - 0x10000) / 16, (off - 0x10000) % 16 / 8) else none :=
  if_pos hpf

theorem windowOf_pf (hpf : s.isPf port fn = true) : windowOf s port fn off =
    if 0x20000 ≤ off ∧ off < 0xA0000 then some (⟨port, fn, (off - 0x20000) / 1024⟩, (off - 0x20000) % 1024) else none :=
  if_pos hpf

section
variable (hpf : s.isPf port fn = true) (hw : a.width = 64) (ho : off % 8 = 0)
include hpf hw ho

theorem registerWrite_route {x : DieSt} (hs : actsSome s port = true) (hx : s.die? port = some x) (h1 : 0x3000 ≤ off) (h2 : off < 0x3800) :
    Runs (.registerWrite port fn off a) s [.evt] fun t =>
      ∃ y q, t.die? port = some y ∧ routeOf y.evt ((off - 0x3000) / 8) = q ∧
        q.count = (routeOf x.evt ((off - 0x3000) / 8)).count ∧ q.msien = a.value.getLsbD 31 ∧ q.alerten = a.value.getLsbD 30 ∧
        q.fn = bits a.value.toNat 21 16 ∧ q.vector = bits a.value.toNat 10 0 ∧ y.evt.pend = x.evt.pend := by
  have e := registerWrite_plain (a := a) hpf (.inl (by omega : off < 0x7000))
  rw [plainWrite_evt hw ho hpf hs h1 (by omega)] at e
  have hsrc : off - 0x3000 < 0x800 := by omega
  generalize off - 0x3000 = o at *
  have hwrite : writeEvt o a x.evt = writeRoute (o / 8) a x.evt := if_pos hsrc
  have hpend : (writeEvt o a x.evt).pend = x.evt.pend := by rw [hwrite]; rfl
  have hroute := writeRoute_routeOf (src := o / 8) (e := x.evt) hw
  rw [← hwrite] at hroute
  exact ⟨_, e, ⟨_, _, updEvt_die?_self _ hx, hroute, rfl, rfl, rfl, rfl, rfl, hpend⟩, updEvt_frame ..⟩

theorem registerWrite_setupBase {f : FnSt} (hs : actsAll s port = true) (hf : s.fn? port fn = some f) (hoff : off = 0x20020)
    (hr : setupRing s port fn = none) : Runs (.registerWrite port fn off a) s [.fns] fun t =>
      t.fn? port fn = some { f with setupBase := BitVec.ofNat 64 (a.value.toNat / 4096 * 4096) } := by
  have e := registerWrite_plain (a := a) hpf (.inr (by omega : 0x8000 ≤ off))
  have hv : vectorAt s port fn off = none := (vectorAt_pf hpf).trans (if_neg (by omega))
  have hwin : windowOf s port fn off = some (⟨port, fn, 0⟩, 0x20) := by rw [windowOf_pf hpf, hoff]; rfl
  rw [plainWrite_window hw ho hs (by omega) hv hwin, updFn_id_of_fn? hf] at e
  have hwrite : writeWindow ⟨port, fn, 0⟩ 0x20 a s =
      s.updFn port fn fun f => { f with setupBase := BitVec.ofNat 64 (a.value.toNat / 4096 * 4096) } := by
    simp [writeWindow, hr, Acc.merge, hw]
  rw [hwrite] at e
  exact .of_changes e (updFn_changes ..) (updFn_fn?_self (fun _ => ⟨rfl, rfl⟩) hf) fun _ k => k

theorem registerWrite_address {f : FnSt} (hs : actsAll s port = true) (hf : s.fn? port fn = some f) (h1 : 0x10000 ≤ off)
    (hn : (off - 0x10000) / 16 < vectorsOf s port fn) (h2 : off < 0x14000) (h3 : (off - 0x10000) % 16 = 0) :
    Runs (.registerWrite port fn off a) s [.fns] fun t => ∃ g, t.fn? port fn = some g ∧
      msixOf g ((off - 0x10000) / 16) = { msixOf f ((off - 0x10000) / 16) with addr := a.value } := by
  have e := registerWrite_plain (a := a) hpf (.inr (by omega : 0x8000 ≤ off))
  have hv : vectorAt s port fn off = some ((off - 0x10000) / 16, 0) := by
    rw [vectorAt_pf hpf, if_pos ⟨h1, h2⟩, h3]
  rw [plainWrite_msix hw ho hs (by omega) hv hn, updFn_id_of_fn? hf] at e
  generalize (off - 0x10000) / 16 = v at *
  have hwrite : writeMsix port fn v 0 a s = s.updFn port fn fun f => setMsix f { msixOf f v with addr := a.value } := by
    simp [writeMsix, Acc.merge, hw]
  rw [hwrite] at e
  have k := msixOf_setMsix f { msixOf f v with addr := a.value }
  rw [show ({ msixOf f v with addr := a.value } : Msix).vec = v from msixOf_vec f v] at k
  exact .of_changes e (updFn_changes ..) ⟨_, updFn_fn?_self (fun _ => ⟨rfl, rfl⟩) hf, k⟩ fun _ h => h

theorem registerWrite_nothing (hoff : off < 0x3000 ∨ (0x8000 ≤ off ∧ off < 0x10000)) : exec (.registerWrite port fn off a) s = .next s := by
  rw [registerWrite_plain hpf (by omega), plainWrite_nothing hw ho (by omega) ((vectorAt_pf hpf).trans (if_neg (by omega)))
    ((windowOf_pf hpf).trans (if_neg (by omega)))]

end
end

/-- Settles O26, register by register. -/
theorem registersWritten : Obligations.RegistersWritten := by
  unfold Obligations.RegistersWritten
  exact ⟨fun _ _ _ => gctlReset_resets, fun _ => resetN_resets, fun _ _ _ => ladderAck_acks, fun _ _ _ _ _ => evtPendClear_clears,
    fun _ _ _ _ _ hs hl ha hr hn hf =>
      ⟨meterHeadWrite_moves hs hl ha hr hn hf, meterHeadWrite_refused hs hl ha hr hn hf⟩,
    fun _ _ _ _ _ => msixVectorUnmask_unmasks,
    fun _ _ _ _ _ hpf hw ho => ⟨fun _ => registerWrite_route hpf hw ho, fun _ => registerWrite_setupBase hpf hw ho,
      fun _ => registerWrite_address hpf hw ho, registerWrite_nothing hpf hw ho⟩⟩

end Sys2Proof.Machine
end

section
/-! SUPPORT. Completion from a later state, and the entry into HALTED for a malformed entry (R108, R110, R515). -/

namespace Sys2Proof.Machine

/-! ### Completion -/

/-- A completion from a state that has put out more, and in which the command is carried out where it was. -/
theorem Completes.earlier {s u t : State} {ref : CmdRef} {st : W16} {v : Res} (h : Completes u t ref st v) (g : Grows s u)
    (ha : (s.cmd? ref).any Cmd.away = (u.cmd? ref).any Cmd.away) : Completes s t ref st v := by
  obtain ⟨⟨r, h1, h2, h3, h4, h5, h6, hp⟩ | ⟨haway, hback⟩, hend⟩ := h
  · exact ⟨.inl ⟨r, h1, h2, h3, h4, h5, h6, hp.earlier g⟩, hend⟩
  · exact ⟨.inr ⟨ha.trans haway, hback⟩, hend⟩

theorem emit_completable {s : State} {ref : CmdRef} (h : Completable ref s) (o : Out) : Completable ref (s.emit o) :=
  ⟨h.cmd, h.ring, h.runs, h.link⟩

/-! ### The entry into HALTED -/

/-- R110, R515: what the package shows once it has halted: FAULT_N held, every hold line low, the halt registers. -/
structure Halts (i : HaltInfo) (t : State) : Prop where
  halted : t.run.halted = true
  fault : faultPin t = false
  holds : ∀ x ∈ t.dies, x.hold = false
  pair : t.pair.state = .halted
  mcause : t.reg.mcause = i.mcause
  owner : t.reg.owner = i.owner
  ringId : t.reg.ringId = i.ringId
  index : t.reg.index = i.index
  halt1 : t.reg.halt1 = i.halt1
  halt2 : t.reg.halt2 = i.halt2

theorem packageYield_shows {d cause : Nat} {i : HaltInfo} {s : State} (h : s.run.halted = false) :
    Halts i (packageYield d cause i s) := by
  obtain ⟨hh, hf, -⟩ := packageYield_halts (d := d) (cause := cause) (i := i) h
  refine ⟨hh, hf, packageYield_hold h, ?_, ?_, ?_, ?_, ?_, ?_, ?_⟩ <;>
  · rw [packageYield_eq, if_neg (by simp [h])]
    rfl

theorem malformed_shows {d : Nat} {i : HaltInfo} {s : State} (h : s.run.halted = false) : Halts i (malformed d i s) := by
  have k (x : Detail) : (ladder 3 0x4001 d (raiseDirect d 0x4001 x s)).run.halted = false := by
    have f := (raiseDirect_changes d 0x4001 x s).frame
    rw [(ladder_changes ..).frame.same .run (by decide), f.same .run (by decide)]
    exact h
  unfold malformed
  rw [if_neg (by simp [h])]
  exact packageYield_shows (k _)

theorem malformed_rings (d : Nat) (i : HaltInfo) (s : State) : (malformed d i s).rings = s.rings :=
  (malformed_steady d i s).frame.same .rings (by decide)

theorem malformed_cmds (d : Nat) (i : HaltInfo) (s : State) : (malformed d i s).cmds = s.cmds :=
  (malformed_steady d i s).frame.same .cmds (by decide)

theorem malformed_powered (d : Nat) (i : HaltInfo) (s : State) : (malformed d i s).run.powered = s.run.powered :=
  congrArg (fun z => z.stage.1) (malformed_steady d i s).kept

end Sys2Proof.Machine
end

section
/-! PROOF. Fragment tables and host transfer errors (R96, R108, R117, R343). -/

namespace Sys2Proof.Machine

/-! ### A command in flight that changes -/

theorem cmd?_ref {s : State} {ref : CmdRef} {c : Cmd} (h : s.cmd? ref = some c) : c.ref = ref := by
  simpa using List.find?_some h

theorem updCmd_cmd?_self {s : State} {ref : CmdRef} {c : Cmd} {f : Cmd → Cmd} (hf : ∀ x, x.ref = ref → (f x).ref = ref)
    (h : s.cmd? ref = some c) : (s.updCmd ref f).cmd? ref = some (f c) := by
  have k := find?_updIf (fun x : Cmd => x.ref == ref) f (fun x hx => by simpa using hf x (by simpa using hx)) s.cmds
  simp only [State.cmd?] at h
  rw [h] at k
  exact k

/-- R96: a command in place of the one in flight under its name. -/
def withCmd (ref : CmdRef) (d : Cmd) (s : State) : State := s.updCmd ref fun _ => d

theorem withCmd_cmd? {s : State} {ref : CmdRef} {c d : Cmd} (h : s.cmd? ref = some c) (hd : d.ref = ref) :
    (withCmd ref d s).cmd? ref = some d := updCmd_cmd?_self (fun _ _ => hd) h

/-- R33: the entries before a command are those that were before it. -/
theorem withCmd_before {s : State} {ref : CmdRef} {d : Cmd} (hd : d.ref = ref) :
    (withCmd ref d s).cmds.takeWhile (fun x => x.ref != ref) = s.cmds.takeWhile fun x => x.ref != ref := by
  simp only [withCmd, State.updCmd, updIf]
  induction s.cmds with
  | nil => rfl
  | cons x l ih =>
    by_cases hx : x.ref = ref
    · simp [hx, hd]
    · simpa [hx] using ih

/-! ### The table -/

/-- R96: a command whose fragment table has been read. -/
def tabled (frags : List Frag) (buf : Bytes) (c : Cmd) : Cmd := { c with frags := frags, buf := buf, stage := .planned }

/-- R96: a command that waits for its fragment table on a ring, in a package that runs. -/
structure AtTable (ref : CmdRef) (c : Cmd) (r : Ring) (s : State) : Prop where
  cmd : s.cmd? ref = some c
  ring : s.ring? ref.die ref.ring = some r
  runs : s.running = true
  link : (s.die? ref.die).any (·.linkUp) = true

namespace AtTable
variable {ref : CmdRef} {c : Cmd} {r : Ring} {s : State}

theorem completable (h : AtTable ref c r s) : Completable ref s :=
  ⟨by rw [h.cmd]; rfl, by rw [h.ring]; rfl, running_not_halted h.runs, h.link⟩

section
variable (h : AtTable ref c r s) (hst : c.stage = .table) {frags : List Frag} (hl : frags.length = c.entry.dlen.toNat) (buf : Bytes)
include h hst hl

theorem halts {k : Nat} (hk : tableCause c.entry frags = some k) : exec (.fragmentTableRead ref frags buf) s =
    .next (malformed ref.die (entryHalt k r ref.index c.op.code c.entry) s) := by
  show Host.Outcome.next (tableRead ref frags buf s) = _
  simp [tableRead, h.cmd, h.ring, h.runs, hst, hl, hk]

theorem starts (hk : tableCause c.entry frags = none) : exec (.fragmentTableRead ref frags buf) s =
    .next (beginOp c.op ref (chargeFrags r (tabled frags buf c) (withCmd ref (tabled frags buf c) s))) := by
  show Host.Outcome.next (tableRead ref frags buf s) = _
  simp only [tableRead, h.cmd, h.ring]
  rw [if_neg (by simp [h.runs, hst, hl]), hk]
  rfl

end

theorem withCmd_completable (h : AtTable ref c r s) {d : Cmd} (hd : d.ref = ref) : Completable ref (withCmd ref d s) :=
  ⟨by rw [withCmd_cmd? h.cmd hd]; rfl, h.completable.ring, h.completable.runs, h.completable.link⟩

/-- R85: the command whose table has been read ends with a status. -/
theorem answers (h : AtTable ref c r s) (frags : List Frag) (buf : Bytes) (st : W16) :
    Answers s (complete ref st {} (withCmd ref (tabled frags buf c) s)) ref st 0 ∧
      Frame s (complete ref st {} (withCmd ref (tabled frags buf c) s)) ending := by
  have hd : (tabled frags buf c).ref = ref := show c.ref = ref from cmd?_ref h.cmd
  refine ⟨(complete_completes (h.withCmd_completable hd) st {}).earlier (.of_eq rfl) ?_,
    ((updCmd_frame ..).mono (by decide)).trans (complete_frame ..)⟩
  rw [h.cmd, withCmd_cmd? h.cmd hd]
  rfl

end AtTable

/-- R441: only the bytes of the reflect messages are charged with the table. -/
theorem chargeFrags_other {r : Ring} {c : Cmd} {s : State} (h : c.op ≠ .reflectWrite ∧ c.op ≠ .reflectRead) : chargeFrags r c s = s := by
  unfold chargeFrags
  exact if_neg fun k => k.elim h.1 h.2

theorem isControl_not_reflect {op : Op} (h : isControl op = true) : op ≠ .reflectWrite ∧ op ≠ .reflectRead := by
  constructor <;>
  · rintro rfl
    exact absurd h (by decide)

/-- R475, R476: the control command that is not permitted answers so. -/
theorem beginOp_forbidden {op : Op} {ref : CmdRef} {c : Cmd} {s : State} {st : W16} (hop : isControl op = true)
    (hc : s.cmd? ref = some c) (hp : permission s c = some st) : beginOp op ref s = complete ref st {} s := by
  have k (f : Cmd → State → State) : control f ref s = complete ref st {} s := by simp [control, hc, hp, fail]
  cases op <;> first | exact k _ | exact absurd hop (by decide)

/-! ### Write-kind commands -/

/-- R115, R116, R438: a write-kind command in flight whose volume and pool are there, whose binding permits the volume, and whose checks
pass. -/
structure Sound (ref : CmdRef) (d : Cmd) (v : Vol) (q : Pool) (s : State) : Prop where
  ref : d.ref = ref
  op : d.op = .write ∨ d.op = .writeZeroes ∨ (d.op = .deallocate ∧ v.dz = true)
  vol : s.vol? d.entry.vol.toNat = some v
  stays : v.deleting = none
  pool : s.pool? v.pool = some q
  may : permits d v = true
  checked : ioCheck s d v = none
  data : d.op = .write → writeCheck d v = none

namespace Sound
variable {ref : CmdRef} {c d : Cmd} {v : Vol} {q : Pool} {s : State}

theorem writes (h : Sound ref d v q s) : writeKind d.op = true := by
  obtain e | e | e := h.op
  · rw [e]; rfl
  · rw [e]; rfl
  · rw [e.1]; rfl

theorem not_read (h : Sound ref d v q s) : d.op ≠ .read ∧ d.op ≠ .verify := by
  obtain e | e | ⟨e, -⟩ := h.op <;> rw [e] <;> decide

theorem not_flush (h : Sound ref d v q s) : d.op ≠ .flush ∧ d.op ≠ .flushMedia := by
  obtain e | e | ⟨e, -⟩ := h.op <;> rw [e] <;> decide

theorem not_reflect (h : Sound ref d v q s) : d.op ≠ .reflectWrite ∧ d.op ≠ .reflectRead := by
  obtain e | e | ⟨e, -⟩ := h.op <;> rw [e] <;> decide

theorem begins (h : Sound ref d v q s) : beginOp d.op = startIo := by
  obtain e | e | ⟨e, -⟩ := h.op <;> rw [e] <;> rfl

theorem home (h : Sound ref d v q s) : homeOf s d.entry.vol.toNat = some q.home := by
  simp [homeOf, h.vol, h.pool]

/-- R33, R42, R48, R66, R116, R178, R353: where the start of a sound command leads, once it has its fragments. -/
theorem startIo_eq (h : Sound ref d v q s) (hc : s.cmd? ref = some c) : startIo ref (withCmd ref d s) =
    if ringBehind s d then holdIo ref (withCmd ref d s)
    else if !arrived s d then sendOver ref (withCmd ref d s)
    else if journalFull s q.home || homeSheds s d || poolHeld s q then holdIo ref (withCmd ref d s)
    else admitCmd ref (withCmd ref d s) := by
  have hvol : volOf (withCmd ref d s) d = some v := by
    simp only [volOf, show (withCmd ref d s).vol? d.entry.vol.toNat = some v from h.vol]
    simp [h.stays]
  have hw : (if d.op = .write then writeCheck d v else none) = none := by
    by_cases e : d.op = .write
    · exact (if_pos e).trans (h.data e)
    · exact if_neg e
  have hbehind : ringBehind (withCmd ref d s) d = ringBehind s d := by
    unfold ringBehind
    rw [h.ref, withCmd_before h.ref]
    rfl
  have hshut : shutOut (withCmd ref d s) d = journalFull s q.home := by
    have hhome : homeOf (withCmd ref d s) d.entry.vol.toNat = some q.home := h.home
    simp only [shutOut, h.writes, hhome, Option.any_some, Bool.true_and]
    rfl
  have hgap : gapHolds (withCmd ref d s) d = poolHeld s q :=
    gapHolds_of_data (s := withCmd ref d s) h.vol h.pool h.not_flush
  unfold startIo
  simp only [withCmd_cmd? hc h.ref, hvol, h.may, show ioCheck (withCmd ref d s) d v = none from h.checked, hw, hbehind, hshut, hgap,
    show arrived (withCmd ref d s) d = arrived s d from rfl, show homeSheds (withCmd ref d s) d = homeSheds s d from rfl]
  rfl

end Sound

/-- A command put in place of the one in flight under its name can change on. -/
theorem withCmd_updCmd {ref : CmdRef} {d : Cmd} {s : State} (hd : d.ref = ref) (f : Cmd → Cmd) :
    (withCmd ref d s).updCmd ref f = withCmd ref (f d) s := by
  have k : updIf (·.ref == ref) f (updIf (·.ref == ref) (fun _ => d) s.cmds) = updIf (·.ref == ref) (fun _ => f d) s.cmds := by
    simp only [updIf, List.map_map]
    refine List.map_congr_left fun x _ => ?_
    by_cases hx : x.ref = ref <;> simp [hx, hd]
  exact congrArg (fun l => { s with cmds := l }) k

/-- R141: a command in the clamp table, at a stage. -/
def inClamp (ref : CmdRef) (d : Cmd) (st : Stage) (s : State) : State :=
  { withCmd ref { clampedIn d s with stage := st } s with seq := s.seq + 1 }

theorem entered_withCmd {ref : CmdRef} {d : Cmd} {s : State} (hd : d.ref = ref) :
    entered ref (withCmd ref d s) = inClamp ref d .stalled s := by
  unfold entered
  rw [withCmd_updCmd hd]
  rfl

theorem inClamp_cmd? {ref : CmdRef} {c d : Cmd} {s : State} (h : s.cmd? ref = some c) (hd : d.ref = ref) (st : Stage) :
    (inClamp ref d st s).cmd? ref = some { clampedIn d s with stage := st } := withCmd_cmd? h hd

theorem inClamp_frame (ref : CmdRef) (d : Cmd) (st : Stage) (s : State) : Frame s (inClamp ref d st s) [.cmds, .seq] := by
  refine ⟨fun k hk => ?_⟩
  cases k with
  | cmds | seq => simp at hk
  | _ => rfl

/-- R142: a command taken into the clamp table conflicts with those already in flight only. -/
theorem inClamp_conflicts {ref : CmdRef} {d : Cmd} {s : State} {st : Stage} (h : s.cmds.any (conflicts (clampedIn d s)) = false) :
    (inClamp ref d st s).cmds.any (conflicts { clampedIn d s with stage := st }) = false := by
  refine List.any_eq_false.2 fun x hx => ?_
  obtain ⟨y, hy, rfl⟩ := List.mem_map.1 hx
  by_cases e : y.ref = ref
  · simp [e, conflicts_self]
  · have k : (y.ref == ref) = false := by simpa using e
    simpa only [k, Bool.false_eq_true, if_false] using! List.any_eq_false.1 h y hy

namespace Sound
variable {ref : CmdRef} {c d : Cmd} {v : Vol} {q : Pool} {s : State}

/-- R142, R271, R353: a write-kind command that nothing holds at the clamp stage may start work there. -/
theorem mayStart_inClamp (h : Sound ref d v q s) (hp : poolHeld s q = false) (hh : clampHolds q v (clampedIn d s) s = false) :
    mayStart (inClamp ref d .stalled s) { clampedIn d s with stage := .stalled } = true := by
  obtain ⟨hconf, hlock⟩ := Bool.or_eq_false_iff.1 hh
  have hv : (inClamp ref d .stalled s).vol? ({ clampedIn d s with stage := .stalled } : Cmd).entry.vol.toNat = some v := h.vol
  have hq : (inClamp ref d .stalled s).pool? v.pool = some q := h.pool
  have hs : stepStalls (inClamp ref d .stalled s) { clampedIn d s with stage := .stalled } = false := by
    simp only [stepStalls, hv, hq, Option.any_some]
    exact (congrArg _ hlock).trans (Bool.and_false _)
  have hg : gapHolds (inClamp ref d .stalled s) { clampedIn d s with stage := .stalled } = false :=
    (gapHolds_of_data hv hq h.not_flush).trans hp
  have hu : unitsAway (inClamp ref d .stalled s) { clampedIn d s with stage := .stalled } = false := by
    simp [unitsAway, needsAway, clampedIn, h.not_read]
  simp [mayStart, inClamp_conflicts hconf, hs, hg, hu]

/-- R142: a write-kind command that nothing holds back is at work. -/
theorem startWork_inClamp (h : Sound ref d v q s) (hc : s.cmd? ref = some c) :
    startWork ref (inClamp ref d .stalled s) = inClamp ref d .working s := by
  have hz : d.op = .deallocate → v.dz = true := by
    obtain e | e | e := h.op <;> simp [e]
  unfold startWork
  simp only [inClamp_cmd? hc h.ref, show (inClamp ref d .stalled s).vol? (clampedIn d s).entry.vol.toNat = some v from h.vol,
    show (inClamp ref d .stalled s).pool? v.pool = some q from h.pool, show (clampedIn d s).op = d.op from rfl, h.writes, if_true]
  rw [if_neg (by simpa using hz)]
  exact congrArg (fun t : State => { t with seq := s.seq + 1 })
    (withCmd_updCmd (d := { clampedIn d s with stage := .stalled }) h.ref fun c => { c with stage := .working })

/-- R141, R142: on its home die, where nothing holds it, a sound command is admitted and at work. -/
theorem starts_home (h : Sound ref d v q s) (hc : s.cmd? ref = some c) (hm : q.home = ref.die) (hg : mayGo s d = true)
    (hj : journalFull s q.home = false) (hp : poolHeld s q = false) (hh : clampHolds q v (clampedIn d s) s = false) :
    startIo ref (withCmd ref d s) = inClamp ref d .working s := by
  simp only [mayGo, Bool.and_eq_true, Bool.not_eq_true'] at hg
  have ha : arrived s d = true := by simp [arrived, h.home, hm, h.ref]
  rw [h.startIo_eq hc, if_neg (by simp [hg.1]), if_neg (by simp [ha]), if_neg (by simp [hj, hg.2, hp]), admitCmd_eq, entered_withCmd h.ref,
    inClamp_cmd? hc h.ref]
  exact (if_pos (h.mayStart_inClamp hp hh)).trans (h.startWork_inClamp hc)

/-- R33, R41, R48: a sound command whose home die is another goes over the fabric. -/
theorem starts_away (h : Sound ref d v q s) (hc : s.cmd? ref = some c) (hm : q.home ≠ ref.die) (hb : ringBehind s d = false)
    (hs : d.sent = none) :
    startIo ref (withCmd ref d s) = withCmd ref { d with
      stage := .stalled
      route := fabricPath s ref.die q.home
      sent := if (fabricPath s ref.die q.home).isEmpty then none else some s.clk.tick } s := by
  have ha : arrived s d = false := by simp [arrived, h.home, hm, h.ref, hs]
  have hp : fabricPath (withCmd ref d s) ref.die q.home = fabricPath s ref.die q.home :=
    congrFun (congrFun (fabricPath_congr (fabricNext_congr (s := s) (t := withCmd ref d s) rfl rfl)) _) _
  have hhome : homeOf (withCmd ref d s) d.entry.vol.toNat = some q.home := h.home
  rw [h.startIo_eq hc, if_neg (by simp [hb]), if_pos (by simp [ha])]
  unfold sendOver
  rw [withCmd_updCmd h.ref]
  simp only [hhome, Option.map_some, Option.getD_some, hp, hs]
  rfl

end Sound

/-! ### Host transfer errors -/

/-- R96, R117: a command whose transfer fails answers with a status; AER goes out before it, and only the command leaves. -/
theorem AtTable.aer {ref : CmdRef} {c : Cmd} {r : Ring} {s : State} (h : AtTable ref c r s) (st : W16) (v : Res)
    (e : exec (.hostTransferError ref) s = .next (settle (complete ref st v (s.emit (.aer ref.die))))) :
    RunsOn (.hostTransferError ref) s ending fun t => Puts s t (.aer ref.die) ∧ Completes s t ref st v ∧
      t.cmds = s.cmds.filter (·.ref != ref) :=
  ⟨_, e, ⟨.of_emit rfl (complete_grows ..),
    (complete_completes (emit_completable h.completable _) st v).earlier (emit_grows ..) rfl, complete_cmds ..⟩,
    ((emit_frame ..).mono (by decide)).trans (complete_frame ..)⟩

theorem opMsg_cmd {s : State} {ref : CmdRef} {m : Msg} (h : opMsg s ref = some m) : m.cmd = some ref := by
  have k := List.find?_some h
  simp only [Bool.and_eq_true, beq_iff_eq] at k
  exact k.1

/-- R343: the state without the segments of a message. -/
def withoutMsg (m : Msg) (s : State) : State :=
  s.updRefl fun x => { x with msgs := x.msgs.filter fun y => !(y.die == m.die && y.msgno == m.msgno && y.isResp == m.isResp) }

theorem failReflect_eq {m : Msg} {ref : CmdRef} (h : m.cmd = some ref) (st : W16) (n : Nat) (s : State) : failReflect m st n s =
    complete ref st { result := BitVec.ofNat 64 n, ndone := ackedBytes m, part := decide (0 < ackedBytes m) } (withoutMsg m s) := by
  simp [failReflect, h, withoutMsg]

/-- R343: a reflect operation whose transfer fails under way ends with what was acknowledged of it. -/
theorem AtTable.aer_reflect {ref : CmdRef} {c : Cmd} {r : Ring} {s : State} (h : AtTable ref c r s) {m : Msg} (hm : opMsg s ref = some m)
    (e : exec (.hostTransferError ref) s = .next (settle (failReflect m 0x0206 0 (s.emit (.aer ref.die))))) :
    RunsOn (.hostTransferError ref) s (.msgs :: ending) fun t => Puts s t (.aer ref.die) ∧
      Completes s t ref 0x0206 { ndone := ackedBytes m, part := decide (0 < ackedBytes m) } ∧ m ∉ t.refl.msgs ∧
      t.cmds = s.cmds.filter (·.ref != ref) := by
  have hf := (emit_frame s (.aer ref.die)).mono (m := .msgs :: ending) (by decide)
  refine ⟨_, e, ?_, hf.trans (failReflect_changes ..).frame⟩
  rw [failReflect_eq (opMsg_cmd hm)]
  have hc : Completable ref (withoutMsg m (s.emit (.aer ref.die))) :=
    ⟨h.completable.cmd, h.completable.ring, h.completable.runs, h.completable.link⟩
  refine ⟨.of_emit rfl (complete_grows (withoutMsg m _) ..), (complete_completes hc _ _).earlier (emit_grows ..) rfl, ?_, complete_cmds ..⟩
  intro hin
  have hk := (complete_frame ref 0x0206 { ndone := ackedBytes m, part := decide (0 < ackedBytes m) }
    (withoutMsg m (s.emit (.aer ref.die)))).same .msgs (by decide)
  have hin : m ∈ (withoutMsg m (s.emit (.aer ref.die))).refl.msgs := hk ▸ hin
  simp [withoutMsg, State.updRefl] at hin

/-- R117, R343: a transfer error before the data has left or arrived. -/
theorem AtTable.transferError_before {ref : CmdRef} {c : Cmd} {r : Ring} {s : State} (h : AtTable ref c r s)
    (hb : beforeData c = true ∨ ((c.op = .reflectWrite ∨ c.op = .reflectRead) ∧ c.stage = .stalled)) :
    transferError ref s = complete ref 0x0206 { retry := true } (s.emit (.aer ref.die)) := by
  have hst : c.stage ≠ .table := by
    obtain hb | ⟨-, hb⟩ := hb
    · intro k
      simp [beforeData, k] at hb
    · simp [hb]
  unfold transferError
  simp only [h.cmd, h.runs]
  rw [if_neg (by simp), if_neg hst, if_pos (by simpa using hb)]

/-- R343: a transfer error of a reflect operation under way. -/
theorem AtTable.transferError_working {ref : CmdRef} {c : Cmd} {r : Ring} {s : State} (h : AtTable ref c r s) {m : Msg}
    (hm : opMsg s ref = some m) (ho : c.op = .reflectWrite ∨ c.op = .reflectRead) (hst : c.stage = .working) :
    transferError ref s = failReflect m 0x0206 0 (s.emit (.aer ref.die)) := by
  have hb : beforeData c = false := by obtain e | e := ho <;> simp [beforeData, e]
  unfold transferError
  simp only [h.cmd, h.runs, hm]
  rw [if_neg (by simp), if_neg (by simp [hst]), if_neg (by simp [hb, hst])]

/-! ### The obligation -/

/-- R108: a table that meets a cause halts the package. -/
theorem AtTable.fragmentTable_halts {ref : CmdRef} {c : Cmd} {r : Ring} {s : State} (h : AtTable ref c r s) (hst : c.stage = .table)
    {frags : List Frag} (hl : frags.length = c.entry.dlen.toNat) (buf : Bytes) {k : Nat} (hk : tableCause c.entry frags = some k) :
    ∃ t, exec (.fragmentTableRead ref frags buf) s = .next t ∧ t.run.halted = true ∧ faultPin t = false ∧ t.reg.mcause = k ∧
      t.reg.index = ref.index ∧ t.reg.ringId = r.die * 512 + r.idx ∧ t.cmds = s.cmds :=
  have m : Halts (entryHalt k r ref.index c.op.code c.entry) _ := malformed_shows (d := ref.die) (running_not_halted h.runs)
  ⟨_, h.halts hst hl buf hk, m.halted, m.fault, m.mcause, m.index, m.ringId, malformed_cmds ..⟩

/-- Settles O15: the state with the table read is `withCmd`, from which a command starts as from its dispatch (`Sound.starts_home`,
`Sound.starts_away`); a bad table halts as any malformed entry does, and a transfer error completes after its AER (`AtTable.aer`). -/
theorem fragmentTables : Obligations.FragmentTables := by
  intro ref c r s hc hr hrun hlink
  have h : AtTable ref c r s := ⟨hc, hr, hrun, hlink⟩
  refine ⟨fun frags buf d hst hl hd => ⟨fun k => h.fragmentTable_halts hst hl buf, fun hk => ?_⟩, fun hst => ?_, fun hb => ?_,
    fun m hm ho hst => ?_⟩
  · have hd : d = tabled frags buf c := hd.symm
    subst hd
    have hstart := h.starts hst hl buf hk
    have href : (tabled frags buf c).ref = ref := show c.ref = ref from cmd?_ref hc
    have hcmd := withCmd_cmd? hc href
    refine ⟨hstart, fun hop => ?_, fun st hop hp => ?_, fun v q hop hv hdel hq hmay hck hw => ?_⟩
    · rw [hop, chargeFrags_other (by simp [tabled, hop])] at hstart
      exact ⟨_, hstart, h.answers frags buf 0⟩
    · rw [chargeFrags_other (c := tabled frags buf c) (isControl_not_reflect hop), beginOp_forbidden hop hcmd hp] at hstart
      exact ⟨_, hstart, h.answers frags buf st⟩
    · have hs : Sound ref (tabled frags buf c) v q s := ⟨href, hop, hv, hdel, hq, hmay, hck, hw⟩
      have hb : beginOp c.op = startIo := hs.begins
      rw [chargeFrags_other hs.not_reflect, hb] at hstart
      refine ⟨fun hm hg hj hp hh => ?_, fun hm hbehind hsent => ?_⟩
      · rw [hs.starts_home hc hm hg hj hp hh] at hstart
        exact ⟨_, hstart, rfl, inClamp_frame .., inClamp_cmd? hc href _⟩
      · rw [hs.starts_away hc hm hbehind hsent] at hstart
        exact ⟨_, hstart, updCmd_frame .., withCmd_cmd? hc href⟩
  · refine h.aer _ _ (congrArg (fun t => Host.Outcome.next (settle t)) ?_)
    unfold transferError
    simp only [hc, hrun]
    rw [if_neg (by simp), if_pos hst]
  · exact h.aer _ _ (congrArg (fun t => Host.Outcome.next (settle t)) (h.transferError_before hb))
  · exact h.aer_reflect hm (congrArg (fun t => Host.Outcome.next (settle t)) (h.transferError_working hm ho hst))

end Sys2Proof.Machine
end

section
/-! SUPPORT. In HALTED the rows of a tick leave the package and its rings so (R47, R110, R111). -/

namespace Sys2Proof.Machine

/-- R110: the package has halted, and its rings read so. -/
structure Down (s : State) : Prop where
  halted : s.run.halted = true
  rings : ∀ x ∈ s.rings, x.state = .halted

namespace Down
variable {s t : State}

theorem not_running (h : Down s) : s.running = false := by simp [State.running, h.halted]

theorem not_drives (h : Down s) : s.drives = false := by simp [State.drives, h.halted]

/-- What touches neither the run nor the rings leaves the package in HALTED. -/
theorem of_frame {l : List Field} (h : Down s) (f : Frame s t l) (hl : .run ∉ l ∧ .rings ∉ l) : Down t where
  halted := (congrArg RunSt.halted (f.same .run hl.1)).trans h.halted
  rings := by rw [show t.rings = s.rings from f.same .rings hl.2]; exact h.rings

/-- A completion and its like leave the rings standing as they are. -/
theorem of_standing {l : List Field} (h : Down s) (f : Frame s t l) (hl : .run ∉ l)
    (hr : t.rings.map Ring.standing = s.rings.map Ring.standing) : Down t where
  halted := (congrArg RunSt.halted (f.same .run hl)).trans h.halted
  rings := fun x hx => by
    obtain ⟨y, hy, e⟩ := List.mem_map.1 (hr ▸ List.mem_map_of_mem (f := Ring.standing) hx)
    have e : y.state = x.state := congrArg (fun k => k.2.2) e
    exact e ▸ h.rings y hy

theorem of_run (h : Down s) (x : RunSt) (hx : x.halted = s.run.halted) : Down { s with run := x } :=
  ⟨hx.trans h.halted, h.rings⟩

/-- A row of steps that each leave the package in HALTED. -/
theorem foldl {α : Type} {f : State → α → State} (hf : ∀ s a, Down s → Down (f s a)) (l : List α) : ∀ s, Down s → Down (l.foldl f s) := by
  induction l with
  | nil => exact fun s h => h
  | cons a l ih => exact fun s h => ih _ (hf s a h)

theorem complete (h : Down s) (ref : CmdRef) (st : W16) (v : Res) : Down (complete ref st v s) :=
  h.of_standing (complete_frame ref st v s) (by decide) (complete_standing ..)

/-! ### Yields and units out of service -/

theorem dieYield (h : Down s) (d cause : Nat) : Down (dieYield d cause s) := by
  rwa [dieYield_eq, if_pos (by simp [h.halted])]

theorem takeOut (h : Down s) (d cause : Nat) (f : HwSt → HwSt) (g : HwSt → Bool) : Down (takeOut d cause f g s) := by
  have k : Down (s.updHw d f) := h.of_frame (updHw_changes ..).frame (by decide)
  unfold Machine.takeOut
  split
  · exact k.dieYield ..
  · exact k

theorem coreFail (h : Down s) (d i : Nat) : Down (coreFail d i s) := by
  have hw {s : State} (h : Down s) (f : HwSt → HwSt) : Down (s.updHw d f) := h.of_frame (updHw_changes ..).frame (by decide)
  have event {s : State} (h : Down s) (code : Nat) (x : Detail) : Down (raise d code x s) :=
    h.of_frame (raise_changes ..).frame (by decide)
  unfold Machine.coreFail
  repeat' split
  · exact h
  · exact h
  · exact h
  · exact event (event (hw (hw h _) _) _ _) _ _
  · exact event (hw (hw h _) _) _ _
  · exact event ((hw (hw h _) _).of_frame (kerfSwap_steady _).frame (by decide)) _ _
  · exact (hw h _).dieYield ..

theorem checkerReact (h : Down s) (d : Nat) (u : Checked) : Down (checkerReact d u s) := by
  cases u with
  | core i => exact h.coreFail ..
  | gf i => exact h.takeOut d 0x02 (gfWithout i) fun h => !(h.gf.any id)
  | aes i => exact h.takeOut d 0x06 (aesWithout i) fun h => !(h.aes.any id)
  | mover i => exact h.takeOut d 0x06 (moverWithout i) fun h => !(h.movers.any id)
  | driveCrc p => exact h.takeOut d 0x06 (portOut (s.portMode d) p) fun h => h.driveLanes == 0
  | hostCrc => exact h.dieYield ..
  | sramEcc => exact h.dieYield ..
  | ddrEcc => exact h.dieYield ..
  | nvVerify => exact h.dieYield ..
  | fabric i => exact h.of_frame (fabricDown_changes ..).frame (by decide)
  | reflectLane i => exact h.of_frame (retireLane_changes ..).frame (by decide)

/-! ### Self-tests -/

theorem spareFails (h : Down s) (d i : Nat) : Down (spareFails d i s) := by
  unfold Machine.spareFails
  split
  · exact h
  · have counted : Down (countFault d 16 s) := h.of_frame (countFault_changes ..).frame (by decide)
    exact (counted.coreFail d i).of_frame (noteFault_changes ..).frame (by decide)

theorem checkerFails (h : Down s) (d : Nat) (u : Checked) : Down (checkerFails d u s) := by
  unfold Machine.checkerFails
  split
  · exact h
  · have counted : Down (countFault d 17 s) := h.of_frame (countFault_changes ..).frame (by decide)
    have raised := counted.of_frame (raise_changes d 0x0120 { unit := unitOf u } _).frame (by decide)
    exact (raised.of_frame (noteFault_changes 2 d _).frame (by decide)).checkerReact d u

theorem finishTest (h : Down s) (test d : Nat) (holder : Option Nat) (faults : Nat) : Down (finishTest test d holder faults s) := by
  unfold Machine.finishTest
  split
  · exact h
  · refine foldl (fun s c h => ?_) _ _ (foldl (fun s c h => ?_) _ _ (h.of_frame (tests_changes ..).frame (by decide)))
    · split
      · exact h
      · exact h.complete ..
    · exact h.of_frame (updCmd_changes ..).frame (by decide)

theorem passesDone (h : Down s) : Down (passesDone s) := by
  unfold Machine.passesDone
  split
  · exact h
  · exact foldl (fun s d h => ((h.of_frame (updHw_changes s d _).frame (by decide)).finishTest ..).finishTest ..) _ _ h

theorem selfTests (h : Down s) (i : TickIn) : Down (selfTests i s) := by
  have sram : Down (sramCorrected i.corrected s) := h.of_frame (sramCorrected_changes ..).frame (by decide)
  have ddr := sram.of_frame (ddrCorrected_changes i.ddr _).frame (by decide)
  have spares := foldl (fun s (x : Nat × Nat) h => h.spareFails x.1 x.2) i.lbistFail _ ddr
  exact (foldl (fun s (x : Nat × Checked) h => h.checkerFails x.1 x.2) i.checkFail _ spares).passesDone

/-! ### The boundary and the frame -/

theorem flipBack (h : Down s) : Down (flipBack s) := by
  unfold Machine.flipBack
  split
  · exact h
  · rwa [if_pos (by simp [h.not_running])]

theorem enforced (h : Down s) : Down (enforced s) := by
  have feats : Down (applyFeats (applyRemaps s.takeFeats)) :=
    ((h.of_frame (takeFeats_turns s).frame (by decide)).of_frame (applyRemaps_turns _).frame (by decide)).of_frame
      (applyFeats_turns _).frame (by decide)
  have qos : Down (refill (applyQos _)) :=
    (feats.of_frame (applyQos_turns _).frame (by decide)).of_frame (t := refill _) (buckets_changes ..).frame (by decide)
  exact ((qos.of_frame (releaseSteps_steady _).frame (by decide)).of_frame (endShedding_turns _).frame (by decide)).flipBack

theorem badFetch (h : Down s) (b : BadFetch) : Down (badFetch b s) := by
  unfold Machine.badFetch
  split
  · exact h
  next r _ =>
    have k : takes s r .nop b.entry = false := by simp [takes, dispatching, h.not_running]
    rwa [if_pos (by simp [k])]

theorem takenIn (h : Down s) (i : TickIn) : Down (takenIn i s) := by
  unfold Machine.takenIn
  rw [if_neg (by simp [h.not_drives]), intakeRings, if_neg (by simp [h.not_running])]
  exact foldl (fun s b h => h.badFetch b) _ _ h

theorem frameWork (h : Down s) (i : TickIn) : Down (frameWork i s) := by
  have k := h.takenIn i
  rwa [frameWork_eq, if_pos (by simp [k.not_running])]

theorem begun (h : Down s) (i : TickIn) : Down (begun i s) := by
  have noted := h.enforced.of_frame (notePower_steady i.partnerP3 _).frame (by decide)
  have framed := (noted.of_frame (holdAges_changes _).frame (by decide)).frameWork i
  exact (framed.of_frame (ticksync_steady ..).frame (by decide)).of_frame (countCut_changes _).frame (by decide)

/-! ### The rest of the tick -/

theorem giveUpProt (h : Down s) : Down (giveUpProt s) := by
  unfold Machine.giveUpProt
  dsimp only
  rwa [if_pos (by simp [h.not_running])]

theorem recorderFailed (h : Down s) (d cause slot : Nat) : Down (recorderFailed d cause slot s) := by
  unfold Machine.recorderFailed
  split
  · exact h
  · have signalled : Down (signalEvent d 0x8001 s) := h.of_frame (signalEvent_changes ..).frame (by decide)
    exact (signalled.of_frame (updRec_changes _ d _).frame (by decide)).of_run _ rfl

theorem recordWork (h : Down s) (i : TickIn) : Down (recordWork i s) := by
  have failed := foldl (f := fun s x => if checksRun s x.1 then Machine.recorderFailed x.1 x.2.1 x.2.2 s else s) (fun s x h => by
    split
    · exact h.recorderFailed ..
    · exact h) i.recFail _ h
  unfold Machine.recordWork
  dsimp only
  split
  · exact failed
  · exact foldl (fun s d h => h.of_frame (programSome_changes ..).frame (by decide)) _ _ failed

theorem tripTick (h : Down s) : Down (tripTick s) := by
  unfold Machine.tripTick
  split
  · rw [if_neg (c := (!s.run.halted) = true) (by simp [h.halted])]
    repeat' split
    · exact h
    · exact h.of_run _ rfl
    · exact h
  · exact h

theorem restOf (h : Down s) (i : TickIn) : Down (restOf i s) := by
  have guarded : Down (guardPair i (Machine.begun i s)) := (h.begun i).of_frame (guardPair_turns ..).frame (by decide)
  have powered := (guarded.selfTests i).of_frame (powerWork_turns i _).frame (by decide)
  have pressed := powered.of_frame (pressureAll_stays _).frame (by decide)
  exact (pressed.giveUpProt.recordWork i).tripTick

end Down

/-! ### The next tick -/

theorem guarded_run (i : TickIn) (s : State) : (guarded i s).run = s.run :=
  (((deadlines_steady i.slowReads s).frame.mono (m := .free :: .jr :: missingRows) (by decide)).trans
    (((settleFailures_steady _).frame.mono (by decide)).trans ((lastHolds_changes _).frame.mono (by decide)))).same .run (by decide)

/-- R110: the rings read HALTED from the next tick on. -/
theorem nextTick_down {s : State} (h : s.run.halted = true) : Down (nextTick s) where
  halted := (congrArg RunSt.halted ((nextTick_changes s).frame.same .run (by decide))).trans h
  rings := by
    rw [nextTick_eq]
    dsimp only
    rw [if_pos h]
    intro x hx
    obtain ⟨y, -, rfl⟩ := List.mem_map.1 hx
    rfl

theorem tick_down {s : State} (h : s.run.halted = true) (hp : s.run.powered = true) (i : TickIn) : Down (tick i s) := by
  rw [tick_eq hp]
  exact (nextTick_down (by rw [guarded_run]; exact h)).restOf i

/-- R110: in HALTED nothing that waits goes on with a tick. -/
theorem exec_tick_halted {s : State} (h : s.run.halted = true) (hp : s.run.powered = true) (i : TickIn) :
    exec (.tick i) s = .next (tick i s) := by
  show Host.Outcome.next (settle (tick i s)) = _
  rw [settle_halted (tick_down h hp i).halted]

end Sys2Proof.Machine
end

section
/-! PROOF. A malformed entry (R94, R108, R110, R515). -/

namespace Sys2Proof.Machine

theorem takes_running {s : State} {r : Ring} {op : Op} {e : Entry} (h : takes s r op e = true) : s.running = true := by
  by_contra k
  simp [takes, dispatching, k] at h

theorem running_powered {s : State} (h : s.running = true) : s.run.powered = true := by
  simp only [State.running, State.ready, Bool.and_eq_true] at h
  obtain ⟨⟨⟨hp, -⟩, -⟩, -⟩ := h
  exact hp

theorem exec_malformed {op : Op} {p : Post} {r : Ring} {s : State} {k : Nat} (hr : s.ring? p.die p.ring = some r)
    (ht : takes s r op p.entry = true) (hk : headCause r op p.entry = some k) :
    exec (rowOf op p) s = .next (after op (malformed p.die (entryHalt k r (r.head % r.size) op.code p.entry) s)) := by
  rw [exec_rowOf]
  simp [dispatchEntry, hr, ht, hk]

/-- Settles O8: the entry into HALTED shows its cause (`malformed_shows`) and leaves the rings, which the next tick halts (`tick_down`). -/
theorem malformedEntryHalts : Obligations.MalformedEntryHalts := by
  intro op p r s k hr ht hk
  have hrun := takes_running ht
  have h : Halts (entryHalt k r (r.head % r.size) op.code p.entry) (malformed p.die _ s) := malformed_shows (running_not_halted hrun)
  have hp := (malformed_powered p.die (entryHalt k r (r.head % r.size) op.code p.entry) s).trans (running_powered hrun)
  exact ⟨_, exec_malformed hr ht hk, h.halted, h.fault, by rw [malformed_rings],
    fun i => ⟨_, exec_tick_halted h.halted hp i, (tick_down h.halted hp i).rings⟩,
    h.holds, h.mcause, h.owner, h.ringId, h.index, h.halt1, h.halt2, h.pair, malformed_cmds ..⟩

end Sys2Proof.Machine
end

section
/-! PROOF. NOP; FLUSH and FLUSH MEDIA of every volume with nothing dirty; DEALLOCATE of a volume with DZ = 0. -/

namespace Sys2Proof.Machine

/-! ### NOP (R137) -/

/-- R85, R92: the command that an entry became, completed in the step of its dispatch, leaves the commands in flight as they were. -/
theorem Taken.complete_cmds_eq {op : Op} {p : Post} {r : Ring} {s : State} (h : Taken op p r s) (st : W16) (v : Res) :
    (complete r.ref st v (startOf op p r s)).cmds = s.cmds := by
  have others : s.cmds.filter (fun x => x.ref != r.ref) = s.cmds :=
    List.filter_eq_self.2 fun c hc => by simpa using refs_ne_of_not_in_flight h.not_in_flight c hc
  rw [complete_cmds, dispatched_cmds_eq, List.filter_append, others]
  simp [newCmd]

/-- Settles O10: the command completes in the step of its dispatch (`Taken.completes`). -/
theorem nopAnswers : Obligations.NopAnswers := by
  intro p r s h
  have hexec : exec (.nop p) s = .next (complete r.ref 0 {} (startOf .nop p r s)) := by
    show exec (rowOf .nop p) s = _
    rw [exec_rowOf, h.dispatch]
    rfl
  exact ⟨_, hexec, h.toTaken.completes 0 {} rfl rfl (by simp) (by simp) ⟨[], by simp⟩, h.toTaken.complete_cmds_eq ..,
    ((dispatched_frame ..).mono (by decide)).trans ((complete_frame ..).mono (by decide))⟩

/-! ### FLUSH and FLUSH MEDIA of every volume (R138 to R140, R353) -/

/-- R353: a FLUSH of every volume is held while a kerf holds a pool that it covers. -/
theorem gapHolds_of_scope {s : State} {c : Cmd} {q : Pool} {v : Vol} (ho : c.op = .flush ∨ c.op = .flushMedia)
    (hv : c.entry.vol = 0xFFFF) (hq : q ∈ s.pools) (hh : poolHeld s q = true) (hw : v ∈ s.vols) (hp : v.pool = q.num)
    (hd : v.deleting = none) (ht : c.tenant.isSome → v.tenant = c.tenant) : gapHolds s c = true := by
  have tenant : (c.tenant.isNone || v.tenant == c.tenant) = true := by
    cases hc : c.tenant with
    | none => rfl
    | some n => simpa [hc] using ht
  have all : flushesAll s q.num c = true := by
    have op : (c.op == .flush || c.op == .flushMedia) = true := by obtain e | e := ho <;> simp [e]
    simp only [flushesAll, op, hv, Bool.true_and, List.any_eq_true, Bool.and_eq_true, beq_iff_eq]
    exact ⟨trivial, v, hw, ⟨hp, by simp [hd]⟩, tenant⟩
  simp only [gapHolds, Bool.or_eq_true, List.any_eq_true, Bool.and_eq_true]
  exact .inr ⟨q, hq, hh, all⟩

theorem gapHolds_of_none_held {s : State} (c : Cmd) (h : ∀ q ∈ s.pools, poolHeld s q = false) : gapHolds s c = false := by
  have byVol : ((s.vol? c.entry.vol.toNat).any fun v => (s.pool? v.pool).any (poolHeld s)) = false := by
    simp only [Option.any_eq_false]
    intro v _ q hq
    simpa using h q (List.mem_of_find?_eq_some hq)
  simp only [gapHolds, byVol, Bool.false_or, List.any_eq_false, Bool.and_eq_true, not_and]
  intro q hq hh
  simp [h q hq] at hh

/-- R138, R139: nothing is dirty, so there is nothing to wait for. -/
theorem flushWaits_clean {s : State} (c : Cmd) (vs : List Vol) (h : ∀ b ∈ s.cache, b.dirty = false) : flushWaits s c vs = [] := by
  simp only [flushWaits, List.filterMap_eq_nil_iff]
  intro b hb
  simp [h b hb]

/-- R138 to R140: a FLUSH with nothing dirty and no pool offline ends at once. -/
theorem flushOver_clean {s : State} {c : Cmd} (hc : ∀ b ∈ s.cache, b.dirty = false) (ho : ∀ q ∈ s.pools, q.offline = none) :
    ∃ d, flushOver c s = complete c.ref 0 {} (s.updCmd c.ref fun _ => d) ∧ d.ref = c.ref ∧ d.away = c.away := by
  have online : ((flushScope s c).filter fun v => (s.pool? v.pool).any fun p => p.offline.isSome) = [] := by
    simp only [List.filter_eq_nil_iff, Option.any_eq_true, not_exists, not_and]
    intro v _ q hq
    simp [ho q (List.mem_of_find?_eq_some hq)]
  unfold flushOver
  simp only [flushWaits_clean c _ hc, online]
  exact ⟨_, rfl, rfl, rfl⟩

/-- R85: what a completion needs stands as it was after the dispatch. -/
theorem Taken.completable_of {op : Op} {p : Post} {r : Ring} {s u : State} (h : Taken op p r s) (hc : (u.cmd? r.ref).isSome)
    (hr : u.rings = (startOf op p r s).rings) (hd : u.dies = s.dies) (hh : u.run = s.run) : Completable r.ref u where
  cmd := hc
  ring := by simpa [State.ring?, hr] using h.completable.ring
  runs := by simpa [hh] using h.completable.runs
  link := by simpa [State.die?, hd] using h.completable.link

/-- Settles O11: with nothing dirty the command ends in the step of its dispatch (`flushOver_clean`); a held pool in its scope holds it
(`gapHolds_of_scope`). -/
theorem flushWithNothingDirty : Obligations.FlushWithNothingDirty := by
  intro op p r s hop h hv
  have hbegin : exec (rowOf op p) s = .next (startFlush r.ref (startOf op p r s)) := by
    rw [exec_rowOf, h.dispatch]
    obtain rfl | rfl := hop <;> rfl
  have hstart : startFlush r.ref (startOf op p r s) = if gapHolds (startOf op p r s) (cmdOf op p r s) then
      holdIo r.ref (startOf op p r s) else flushOver (cmdOf op p r s) (startOf op p r s) := by
    simp only [startFlush, h.toTaken.cmd, show (cmdOf op p r s).entry.vol = 0xFFFF from hv, if_true]
  refine ⟨fun hc ho hp => ?_, fun q hq hh ⟨v, hw, hpool, hdel, hten⟩ => ?_⟩
  · have free : gapHolds (startOf op p r s) (cmdOf op p r s) = false :=
      gapHolds_of_none_held _ fun q hq => by rw [dispatched_poolHeld]; exact hp q (by simpa using hq)
    obtain ⟨d, hover, hd, haway⟩ := flushOver_clean (s := startOf op p r s) (c := cmdOf op p r s) (by simpa using hc) (by simpa using ho)
    have hcmd : ((startOf op p r s).updCmd r.ref fun _ => d).cmd? r.ref = some d := by
      rw [h.toTaken.updCmd]
      have last := find?_last (l := s.cmds) (c := d) (by rw [hd]; exact refs_ne_of_not_in_flight h.toTaken.not_in_flight)
      rwa [hd] at last
    rw [hstart, free, if_neg Bool.false_ne_true, hover] at hbegin
    have completable : Completable r.ref ((startOf op p r s).updCmd r.ref fun _ => d) :=
      h.toTaken.completable_of (by simp [hcmd]) rfl (by simp) (by simp)
    exact ⟨_, hbegin, completes_of_grows completable (by rw [hcmd]; exact haway) (.of_eq (by simp)) _ _,
      (Taken.updCmd_frame _ |>.mono (by decide)).trans ((complete_frame ..).mono (by decide))⟩
  · have held : gapHolds (startOf op p r s) (cmdOf op p r s) = true :=
      gapHolds_of_scope hop hv (by simpa using hq) (by rw [dispatched_poolHeld]; exact hh) (by simpa using hw) hpool hdel hten
    rw [hstart, held, if_pos rfl] at hbegin
    exact ⟨_, _, hbegin, h.toTaken.updCmd_cmd? fun _ => rfl, rfl, Taken.updCmd_frame _⟩

/-! ### DEALLOCATE with DZ = 0 (R134) -/

theorem dropClean_frame (v : Vol) (lba n : Nat) (s : State) : Frame s (dropClean v lba n s) [.cache] := by
  refine ⟨fun k hk => ?_⟩
  cases k with
  | cache => simp at hk
  | _ => rfl

theorem mem_dropClean_of_dirty {v : Vol} {lba n : Nat} {s : State} {b : CBlk} (h : b ∈ s.cache) (hd : b.dirty = true) :
    b ∈ (dropClean v lba n s).cache :=
  List.mem_filter.2 ⟨h, by simp [hd]⟩

theorem mem_of_mem_dropClean {v : Vol} {lba n : Nat} {s : State} {b : CBlk} (h : b ∈ (dropClean v lba n s).cache) : b ∈ s.cache :=
  (List.mem_filter.1 h).1

/-- R142: no command in flight on its volume, no conflict. -/
theorem no_conflict_of_alone {op : Op} {p : Post} {r : Ring} {s : State} (h : ∀ d ∈ s.cmds, d.clamp = true → d.entry.vol ≠ p.entry.vol) :
    s.cmds.any (conflicts (admittedCmd op p r s)) = false := by
  simp only [List.any_eq_false]
  intro d hd
  cases hc : d.clamp with
  | false => simp [conflicts, hc]
  | true =>
    have other : ((admittedCmd op p r s).entry.vol == d.entry.vol) = false := beq_false_of_ne (h d hd hc).symm
    simp [conflicts, other]

/-- R134: a DEALLOCATE of a volume with DZ = 0 drops clean copies and ends. -/
theorem startWork_dropClean {s : State} {ref : CmdRef} {c : Cmd} {v : Vol} {q : Pool} (hc : s.cmd? ref = some c)
    (hv : s.vol? c.entry.vol.toNat = some v) (hq : s.pool? v.pool = some q) (ho : c.op = .deallocate) (hz : v.dz = false) :
    startWork ref s = complete ref 0 { ndone := c.nblk } (dropClean v c.lba c.nblk s) := by
  simp only [startWork, hc, hv, hq, ho, hz, writeKind, if_true]
  exact if_pos ⟨trivial, Bool.false_ne_true⟩

/-- R85: the admitted command completes once clean copies are dropped. -/
theorem PassesChecks.dropClean_completes {op : Op} {p : Post} {r : Ring} {s : State} {v : Vol} {q : Pool}
    (h : PassesChecks op p r s v q) (lba n : Nat) (x : Res) :
    Completes s (complete r.ref 0 x (dropClean v lba n (admitted op p r s .stalled))) r.ref 0 x := by
  have hcmd : (dropClean v lba n (admitted op p r s .stalled)).cmd? r.ref =
      some { admittedCmd op p r s with stage := .stalled } := h.admitted_cmd .stalled
  have completable : Completable r.ref (dropClean v lba n (admitted op p r s .stalled)) :=
    h.toTaken.completable_of (Option.isSome_of_eq_some hcmd) rfl (dispatched_dies ..) (dispatched_run ..)
  exact completes_of_grows completable (by rw [hcmd]; rfl) (.of_eq (dispatched_out ..)) _ _

/-- Settles O13, by where the start of a data command leads (`startIo_eq`) and what its work is (`startWork_dropClean`). -/
theorem deallocateWithoutZeros : Obligations.DeallocateWithoutZeros := by
  intro p r s v q hd hv hdel hz hq hper hck
  have h : PassesChecks .deallocate p r s v q :=
    { hd with vol := hv, stays := hdel, pool := hq, may := hper, checked := hck, data := nofun }
  have hexec : exec (.deallocate p) s = .next (startIo r.ref (startOf .deallocate p r s)) := by
    show exec (rowOf .deallocate p) s = _
    rw [exec_rowOf, hd.dispatch]
    rfl
  rw [h.startIo_eq (by decide)] at hexec
  refine ⟨fun e g j l a k => ?_, fun e g => ?_⟩
  · have unlocked : (q.lock.any fun k => inRange v (admittedCmd .deallocate p r s) k.lo k.hi) = false := 
      (Option.any_eq_false ..).2 fun x hx => k x hx
    have starts : mayStart (admitted .deallocate p r s .stalled) { admittedCmd .deallocate p r s with stage := .stalled } = true := by
      rw [h.mayStart_write rfl]
      simp only [clampHolds, no_conflict_of_alone a, unlocked, l, Bool.or_self, Bool.not_false, Bool.and_self]
    simp only [mayGo, Bool.and_eq_true, Bool.not_eq_true'] at g
    rw [if_neg (by simp [g.1]), if_neg (by simp [e]), if_neg (by simp [g.2, j, l]), h.admitCmd_eq, if_pos starts,
      startWork_dropClean (h.admitted_cmd _) (h.admitted_vol _) (h.admitted_pool _) rfl hz] at hexec
    have cache : (admitted .deallocate p r s .stalled).cache = s.cache := dispatched_cache ..
    refine ⟨_, hexec, h.dropClean_completes .., fun b hb hdirty => ?_, fun b hb => ?_,
      ((admitted_frame ..).mono (by decide)).trans (((dropClean_frame ..).mono (by decide)).trans ((complete_frame ..).mono (by decide)))⟩
    · rw [complete_cache]
      exact mem_dropClean_of_dirty (by rwa [cache]) hdirty
    · rw [complete_cache] at hb
      have := mem_of_mem_dropClean hb
      rwa [cache] at this
  · rw [hexec, if_neg (by simp [g]), if_pos e, h.sendOver_eq]

end Sys2Proof.Machine
end

section
/-! PROOF. A package in which nothing waits to be brought forward puts nothing out as it settles; a request for a block that only the
partner holds does not go out where no fabric path leads from the home die to a link that is up (R33, R324, R363). -/

namespace Sys2Proof.Machine

/-! ### Nothing waits to be brought forward -/

/-- A pool without a job of its own under way: no step, reshape, rebuild, scrub pass, leaving or joining member; it has a shadow die. -/
structure IdlePool (p : Pool) : Prop where
  lock : p.lock = none
  reshape : p.reshape = none
  jobs : p.rebuild.jobs = []
  swept : p.rebuild.running = false ∧ p.rebuild.umbra = false
  scrub : p.scrub.running = false
  members : ((p.members ++ p.pending).any fun m => m.state == .replacing || m.state == .draining) = false
  shadow : p.shadow.isSome = true

/-- A package without rings, commands, destages, zero-fills, deletions and changes under way, whose pools are idle. -/
structure Idle (s : State) : Prop where
  cmds : s.cmds = []
  rings : s.rings = []
  destages : s.destages = []
  vols : ∀ v ∈ s.vols, v.filling = [] ∧ v.deleting = none
  pools : ∀ p ∈ s.pools, IdlePool p
  prot : s.feat.protNext = [] ∧ s.feat.waiters = []
  handing : s.pair.handing = none
  leaving : s.pair.leaving = none
  chg : s.pw.chg = none

/-- A fold none of whose steps changes the state it starts from. -/
theorem foldl_same {α : Type} {f : State → α → State} {s : State} {l : List α} (h : ∀ a ∈ l, f s a = s) : l.foldl f s = s := by
  induction l with
  | nil => rfl
  | cons a l ih => rw [List.foldl_cons, h a (by simp), ih fun b hb => h b (by simp [hb])]

namespace Idle
variable {s : State}

theorem pumpDestages (h : Idle s) : pumpDestages s = s := by simp [Machine.pumpDestages, h.destages]

theorem endFills (h : Idle s) : endFills s = s :=
  foldl_same fun v hv => by simp [(h.vols v hv).1]

theorem endJobs (h : Idle s) : endJobs s = s :=
  foldl_same fun p hp => by simp [(h.pools p hp).jobs]

theorem endBuilds (h : Idle s) : endBuilds s = s :=
  foldl_same fun p hp => by simp [(h.pools p hp).reshape]

theorem endSteps (h : Idle s) : endSteps s = s :=
  foldl_same fun p hp => by simp [(h.pools p hp).lock]

theorem arriveBacks (h : Idle s) : arriveBacks s = s := by simp [Machine.arriveBacks, h.rings]

theorem giveShadows (h : Idle s) : giveShadows s = s := by
  have none_due : (s.pools.filter fun p => p.shadow.isNone && !p.away && s.serves p.home && (newShadow s p p.home).isSome) = [] := by
    simp only [List.filter_eq_nil_iff]
    intro p hp
    simp [Option.isNone_eq_false_iff.2 (h.pools p hp).shadow]
  simp only [Machine.giveShadows, none_due, List.foldl_nil]

theorem pumpReads (h : Idle s) : pumpReads s = s := by simp [Machine.pumpReads, h.cmds]

theorem askHeld (h : Idle s) : askHeld s = s := by simp [Machine.askHeld, h.cmds]

theorem startStalled (h : Idle s) : startStalled s = s := by simp [Machine.startStalled, h.cmds]

theorem endWaits (h : Idle s) : endWaits s = s := by simp [Machine.endWaits, h.cmds]

theorem endRings (h : Idle s) : endRings s = s := by simp [Machine.endRings, h.rings]

theorem endSetups (h : Idle s) : endSetups s = s := by simp [Machine.endSetups, h.rings]

theorem endObjects (h : Idle s) : endObjects s = s := by
  have none_deleted : s.vols.filterMap (·.deleting) = [] := List.filterMap_eq_nil_iff.2 fun v hv => (h.vols v hv).2
  simp [Machine.endObjects, none_deleted, h.cmds]

theorem endRebuilds (h : Idle s) : endRebuilds s = s := by
  have members : (s.pools.filter fun p => poolRuns s p && membersReady s p) = [] := by
    simp only [List.filter_eq_nil_iff, Bool.and_eq_true, not_and]
    intro p hp _
    have k := List.any_eq_false.1 (h.pools p hp).members
    simp only [membersReady, Bool.not_eq_true, List.any_eq_false, Bool.and_eq_true, not_and]
    exact fun m hm e => absurd e (k m hm)
  have sweeps : (s.pools.filter fun p => poolRuns s p && (p.rebuild.running || p.rebuild.umbra)) = [] := by
    simp only [List.filter_eq_nil_iff]
    intro p hp
    simp [(h.pools p hp).swept]
  have scrubs : (s.pools.filter fun p => poolRuns s p && p.scrub.running && (scrubNext s p).isNone) = [] := by
    simp only [List.filter_eq_nil_iff]
    intro p hp
    simp [(h.pools p hp).scrub]
  simp only [Machine.endRebuilds, members, sweeps, scrubs, List.foldl_nil]

theorem endProt (h : Idle s) : endProt s = s := by simp [Machine.endProt, applyProt, h.prot]

/-- Blocks whose copies have been acknowledged are mirrored; nothing of this is waited for. -/
theorem takeCopies (h : Idle s) : Idle (takeCopies s) :=
  ⟨h.cmds, h.rings, h.destages, h.vols, h.pools, h.prot, h.handing, h.leaving, h.chg⟩

theorem endHandback (h : Idle s) : endHandback s = s := by simp [Machine.endHandback, h.handing]

theorem endLeaving (h : Idle s) : endLeaving s = s := by simp [Machine.endLeaving, h.leaving]

theorem endTold (h : Idle s) : endTold s = s := by simp [Machine.endTold, h.cmds]

theorem retryHeld (h : Idle s) : retryHeld s = s := by simp [Machine.retryHeld, h.cmds]

theorem lend (h : Idle s) : lend s = s := by
  obtain ⟨cmds⟩ := h
  cases s
  subst cmds
  rfl

theorem startChange (h : Idle s) : startChange s = s := by simp [Machine.startChange, h.chg]

theorem settleRun (h : Idle s) : settleRun s = Machine.takeCopies s := by
  have k := h.takeCopies
  rw [Machine.settleRun, h.arriveBacks, h.giveShadows, h.pumpReads, h.askHeld, h.startStalled, h.endWaits, h.endRings, h.endSetups,
    h.endObjects, h.endRebuilds, h.endProt, k.endHandback, k.endLeaving, k.endTold, k.retryHeld, k.lend, k.startChange]

/-- A package in which nothing waits puts nothing out as it settles. -/
theorem settle_out (h : Idle s) : (settle s).out = s.out := by
  have drive : (if s.drives then Machine.endSteps (Machine.endBuilds (Machine.endJobs (Machine.endFills (Machine.pumpDestages s)))) else s) = s := by
    rw [h.pumpDestages, h.endFills, h.endJobs, h.endBuilds, h.endSteps, ite_self]
  simp only [settle, drive]
  split
  · rw [h.settleRun]
    rfl
  · rfl

/-- What an idle package has under way is none of the cache, the dies' links and reflect engines, and what is put out. -/
theorem of_frame {t : State} (h : Idle s) (f : Frame s t [.cache, .free, .link, .out, .rfl]) : Idle t where
  cmds := (f.same .cmds (by decide)).trans h.cmds
  rings := (f.same .rings (by decide)).trans h.rings
  destages := (f.same .destages (by decide)).trans h.destages
  vols := by rw [show t.vols = s.vols from f.same .vols (by decide)]; exact h.vols
  pools := by rw [show t.pools = s.pools from f.same .pools (by decide)]; exact h.pools
  prot := by rw [show t.feat = s.feat from f.same .feat (by decide)]; exact h.prot
  handing := by rw [show t.pair = s.pair from f.same .pair (by decide)]; exact h.handing
  leaving := by rw [show t.pair = s.pair from f.same .pair (by decide)]; exact h.leaving
  chg := by rw [show t.pw = s.pw from f.same .pw (by decide)]; exact h.chg

end Idle

/-! ### The counterexample: a home die that no fabric module leads out of -/

/-- A die in service whose fabric modules are down. -/
def islandDie : DieSt := { DieSt.reset with hw := { HwSt.reset with fabric := [false, false, false] } }

/-- A pool of die 0 with a queued stripe. -/
def queuedPool : Pool := { listPool [] with queued := [0], shadow := some 1 }

/-- A dirty block of the stripe, of which only the partner's die 0 has a copy (R363). -/
def remoteBlk : CBlk := { singleBlk with remote := some 0 }

/-- A ready package in a pair, whose one reflect link that is up is that of die 1, out of reach of die 0, which homes the pool. -/
def island : State :=
  { State.reset with
    id := { State.reset.id with inPair := true }, run := { RunSt.reset with phase := 8 },
    dies := [islandDie, { islandDie with link := { islandDie.link with state := .active } }],
    pools := [queuedPool], vols := [{ fillingVol with zero := [], filling := [] }], cache := [remoteBlk],
    pair := { PairSt.reset with state := .paired } }

theorem island_idle : Idle island where
  cmds := rfl
  rings := rfl
  destages := rfl
  vols := by decide
  pools := by
    intro p hp
    obtain rfl : p = queuedPool := by simpa [island] using hp
    exact ⟨rfl, rfl, rfl, ⟨rfl, rfl⟩, rfl, rfl, rfl⟩
  prot := ⟨rfl, rfl⟩
  handing := rfl
  leaving := rfl
  chg := rfl

/-- What a row's next state has put out. -/
def outOf : Host.Outcome State Fault Refusal → List Out
  | .next t => t.out
  | _ => []

/-- R33, R324: the request for the block does not leave the home die. -/
theorem island_silent : outOf (exec (.destageStart 0 0) island) = [] := List.isEmpty_iff.1 (by decide +kernel)

/-- Refutes O51: DESTAGE START of a stripe with a block that only the partner holds need not send the READ for it, though a link of the
package is up: what die 0 sends leaves over a link of a die that a fabric path leads to (R33, R324), and the statement asks for a link
of any die in service. In the counterexample the one link that is up is that of die 1, and no fabric module leads there. -/
theorem not_cacheWorks : ¬ Obligations.CacheWorks := by
  unfold Obligations.CacheWorks
  intro h
  obtain ⟨-, hstart, -⟩ := h.2 island queuedPool rfl (by decide +kernel)
  obtain ⟨-, hremote, -⟩ := hstart 0 false 0 [(remoteBlk, 0, 0)] (by decide) rfl rfl (by decide +kernel) (by decide) rfl (by decide)
    (by decide +kernel) nofun (by decide +kernel) (by decide +kernel)
  obtain ⟨t, hexec, ⟨-, g, m, ⟨a, b, hout⟩, -⟩, f⟩ := hremote (remoteBlk, 0, 0) 0 rfl rfl rfl rfl nofun (by decide) (by decide +kernel)
    (by decide +kernel) (by decide +kernel) (by decide +kernel)
  have silent : outOf (exec (.destageStart queuedPool.num 0) island) = [] := island_silent
  rw [hexec] at silent
  have none_out : t.out = [] := ((island_idle.of_frame f).settle_out).symm.trans silent
  simp [none_out] at hout

end Sys2Proof.Machine
end

section
/-! SUPPORT. The journal of a die as entries are programmed, spilled and dropped: what stays live, and which segments stay in use
(R169, R170, R175). -/

namespace Sys2Proof.Machine

theorem updJr_die?_self {s : State} {d : Nat} {x : DieSt} (f : JournalSt → JournalSt) (h : s.die? d = some x) :
    (s.updJr d f).die? d = some { x with jr := f x.jr } := updDie_die?_self _ h

/-- A change of the journals that leaves the rest of a die leaves its journal where the list has no journals. -/
theorem Changes.die_jr {s t : State} {l : List Field} (h : Changes s t l) (hl : .jr ∉ l) {d : Nat} {x : DieSt}
    (hx : s.die? d = some x) : ∃ y, t.die? d = some y ∧ y.jr = x.jr :=
  die_of_map (h.frame.same .jr hl) hx

/-! ### The fields that programming leaves -/

theorem freeSegs_marks (n : Nat) (j : JournalSt) : (j.freeSegs n).next = j.next ∧ (j.freeSegs n).full = j.full := by
  induction n generalizing j with
  | zero => exact ⟨rfl, rfl⟩
  | succ n ih =>
    rw [JournalSt.freeSegs]
    split
    · exact ⟨rfl, rfl⟩
    · exact ih (JournalSt.ended _ _)

theorem without_next (p : JEntry → Bool) (j : JournalSt) : (j.without p).next = j.next := (freeSegs_marks ..).1

theorem without_full (p : JEntry → Bool) (j : JournalSt) : (j.without p).full = j.full := (freeSegs_marks ..).2

/-- The journal of a die after an entry is programmed at its head. -/
def JournalSt.program (tick d : Nat) (pool : Option Nat) (b : JBody) (j : JournalSt) : JournalSt :=
  { j.put tick ⟨j.next, d, pool, b⟩ with next := j.next + 1 }

theorem programJ_die? {s : State} {d : Nat} {x : DieSt} (p : Option Nat) (b : JBody) (h : s.die? d = some x) :
    (programJ d p b s).die? d = some { x with jr := x.jr.program s.clk.tick d p b } := updJr_die?_self _ h

theorem program_full (tick d : Nat) (p : Option Nat) (b : JBody) (j : JournalSt) : (j.program tick d p b).full = j.full :=
  without_full ..

theorem mem_insEntry_self (e : JEntry) (l : List JEntry) : e ∈ insEntry e l := by
  induction l with
  | nil => exact List.mem_singleton_self _
  | cons y ys ih =>
    rw [insEntry]
    split
    · exact List.mem_cons_self ..
    · exact List.mem_cons_of_mem _ ih

/-- R170: the entries of a journal after an entry that stays live. -/
theorem program_entries (tick d : Nat) (p : Option Nat) {b : JBody} (j : JournalSt) (h : staysLive b = true) :
    (j.program tick d p b).entries = insEntry ⟨j.next, d, p, b⟩ (j.without (endedBy p b)).entries :=
  if_pos h

/-- R169: an entry that stays live is there once it is programmed. -/
theorem mem_program_entries (tick d : Nat) (p : Option Nat) {b : JBody} (j : JournalSt) (h : staysLive b = true) :
    ⟨j.next, d, p, b⟩ ∈ (j.program tick d p b).entries := by
  rw [program_entries tick d p j h]
  exact mem_insEntry_self ..

/-- R169: an entry of a journal after a programming was there before, or has the JSN of the new one. -/
theorem of_mem_program {tick d : Nat} {p : Option Nat} {b : JBody} {j : JournalSt} {e : JEntry}
    (h : e ∈ (j.program tick d p b).entries) : e ∈ j.entries ∨ e.jsn = j.next :=
  (mem_put (t := tick) h).symm.imp_right (congrArg JEntry.jsn)

/-! ### Segments in use (R170, R175) -/

/-- R175: each spill segment holds an entry of its pool. -/
def JournalSt.Filled (j : JournalSt) : Prop := ∀ g ∈ j.segs, ∃ e ∈ g.entries, e.pool = some g.pool

/-- R170: entries that end and belong to no pool empty no segment. -/
theorem JournalSt.Filled.without {j : JournalSt} {over_ : JEntry → Bool} (h : j.Filled)
    (ho : ∀ e, e.pool.isSome → over_ e = false) :
    j.without over_ = j.ended over_ ∧ (j.ended over_).Filled := by
  have k : (j.ended over_).Filled := by
    intro g hg
    obtain ⟨g', hg', rfl⟩ := List.mem_map.1 hg
    obtain ⟨e, he, hp⟩ := h g' hg'
    exact ⟨e, List.mem_filter.2 ⟨he, by rw [ho e (by simp [hp])]; rfl⟩, hp⟩
  refine ⟨?_, k⟩
  have hnone : ((j.ended over_).segs.filter (·.entries.isEmpty)) = [] := by
    refine List.filter_eq_nil_iff.2 fun g hg => ?_
    obtain ⟨e, he, -⟩ := k g hg
    simp [List.ne_nil_of_mem he]
  rw [JournalSt.without, JournalSt.freeSegs]
  simp [hnone]

/-- R175: what the parts of a spill do to a journal: what they program has new JSNs, and the entries of pools that are in segments
stay there. -/
structure JournalSt.SpillsTo (j k : JournalSt) : Prop where
  full : k.full = j.full
  next : j.next ≤ k.next
  filled : k.Filled
  entries : ∀ e ∈ k.entries, e ∈ j.entries ∨ j.next ≤ e.jsn
  segs : ∀ g ∈ j.segs, ∀ e ∈ g.entries, e.pool.isSome → ∃ h ∈ k.segs, h.pool = g.pool ∧ e ∈ h.entries

namespace JournalSt.SpillsTo
variable {j k l : JournalSt}

theorem refl (h : j.Filled) : j.SpillsTo j := ⟨rfl, le_rfl, h, fun _ h => .inl h, fun g hg _ he _ => ⟨g, hg, rfl, he⟩⟩

theorem trans (h : j.SpillsTo k) (h' : k.SpillsTo l) : j.SpillsTo l where
  full := h'.full.trans h.full
  next := h.next.trans h'.next
  filled := h'.filled
  entries e he := by
    obtain he | he := h'.entries e he
    · exact h.entries e he
    · exact .inr (h.next.trans he)
  segs g hg e he hp := by
    obtain ⟨g1, h1, p1, e1⟩ := h.segs g hg e he hp
    obtain ⟨g2, h2, p2, e2⟩ := h'.segs g1 h1 e e1 hp
    exact ⟨g2, h2, p2.trans p1, e2⟩

/-- R175: an entry that has gone to a segment of its pool stays there alone. -/
theorem keeps (h : j.SpillsTo k) {e : JEntry} {n : Nat} (hp : e.pool.isSome) (hn : e.jsn < j.next) (ho : e ∉ j.entries)
    (hs : ∃ g ∈ j.segs, g.pool = n ∧ e ∈ g.entries) : e ∉ k.entries ∧ ∃ g ∈ k.segs, g.pool = n ∧ e ∈ g.entries := by
  obtain ⟨g, hg, rfl, he⟩ := hs
  refine ⟨fun hk => ?_, h.segs g hg e he hp⟩
  obtain hk | hk := h.entries e hk
  · exact ho hk
  · omega

/-- R169: programming an entry that ends none of a pool. -/
theorem program (h : j.Filled) (tick d : Nat) {p : Option Nat} {b : JBody}
    (ho : ∀ e : JEntry, e.pool.isSome → endedBy p b e = false) :
    j.SpillsTo (j.program tick d p b) := by
  obtain ⟨hw, hf⟩ := h.without ho
  have hsegs : (j.program tick d p b).segs = (j.ended (endedBy p b)).segs := by rw [← hw]; rfl
  refine ⟨program_full .., Nat.le_succ _, ?_, fun e he => (of_mem_program he).imp_right fun k => k.ge, fun g hg e he hp => ?_⟩
  · unfold JournalSt.Filled
    rwa [hsegs]
  · rw [hsegs]
    exact ⟨_, List.mem_map_of_mem hg, rfl, List.mem_filter.2 ⟨he, by rw [ho e hp]; rfl⟩⟩

end JournalSt.SpillsTo

/-! ### A spill (R175) -/

theorem endedBy_spillSegment (n q a z : Nat) (l : List Nat) (e : JEntry) : endedBy (some n) (.spillSegment q a z l) e = false := by
  simp [endedBy, JBody.supersedes]

/-- R170: an entry of no pool ends none of a pool, but for a PARITY GENERATION. -/
theorem endedBy_poolless {b : JBody} (hb : staysLive b = true) (e : JEntry) (he : e.pool.isSome) : endedBy none b e = false := by
  have hn : (e.pool == none) = false := by
    cases hp : e.pool with
    | none => simp [hp] at he
    | some _ => rfl
  cases b with
  | parityGen => cases hb
  | _ => simp [endedBy, hn]

theorem writeCopy_changes (p : Pool) (es : List JEntry) (m t : Nat) (s : State) :
    Changes s (writeCopy p es m t s) [.mcmds, .uniq] := by
  unfold writeCopy
  split
  · exact .refl ..
  · exact submit_changes ..

/-- R175: the journal once a group of entries of a pool has gone to a segment. -/
def JournalSt.segment (g : Segment) (j : JournalSt) : JournalSt :=
  { j with segs := j.segs ++ [g], entries := j.entries.filter fun e => !g.entries.contains e }

theorem JournalSt.SpillsTo.segment {j : JournalSt} (h : j.Filled) {g : Segment} (hg : ∃ e ∈ g.entries, e.pool = some g.pool) :
    j.SpillsTo (j.segment g) where
  full := rfl
  next := le_rfl
  filled := by
    intro x hx
    obtain hx | hx := List.mem_append.1 hx
    · exact h x hx
    · rw [List.mem_singleton.1 hx]
      exact hg
  entries e he := .inl (List.mem_filter.1 he).1
  segs g' hg' e he _ := ⟨g', List.mem_append_left _ hg', rfl, he⟩

/-- R175: the segment that a group of a pool's entries becomes. -/
def spillSeg (j : JournalSt) (p : Pool) (n : Nat) (es : List JEntry) : Segment where
  pool := n
  seg := freeSeg j n
  first := (es.head?.map (·.jsn)).getD 0
  last := (es.getLast?.map (·.jsn)).getD 0
  copies := spillCopies j p (freeSeg j n)
  slots := (spillCopies j p (freeSeg j n)).map fun c => (segSlot j n c).getD 0
  entries := es

/-- R176: the copies of a segment are written. -/
def writeCopies (p : Pool) (g : Segment) (s : State) : State :=
  (g.copies.zip g.slots).foldl (fun s x => writeCopy p g.entries x.1 x.2 s) s

theorem writeCopies_changes (p : Pool) (g : Segment) (s : State) : Changes s (writeCopies p g s) [.mcmds, .uniq] :=
  foldl_changes _ (fun _ _ => writeCopy_changes ..) ..

theorem spillPool_eq {s : State} {d n : Nat} {x : DieSt} {p : Pool} (es : List JEntry) (hx : s.die? d = some x)
    (hp : s.pool? n = some p) {g : Segment} (hg : spillSeg x.jr p n es = g) : spillPool d n es s =
      (programJ d (some n) (.spillSegment g.seg g.first g.last g.copies) (writeCopies p g s)).updJr d (JournalSt.segment g) := by
  subst hg
  simp only [spillPool, hx, hp]
  rfl

/-- What a part of a spill changes. -/
abbrev spilling : List Field := [.jr, .mcmds, .uniq]

/-- R175: one pool's group of entries becomes a segment. -/
theorem spillPool_spills {s : State} {d n : Nat} {x : DieSt} {p : Pool} {es : List JEntry} (hx : s.die? d = some x)
    (hp : s.pool? n = some p) (hf : x.jr.Filled) (he : es ≠ []) (hes : ∀ e ∈ es, e.pool = some n ∧ e.jsn < x.jr.next) :
    Changes s (spillPool d n es s) spilling ∧ ∃ y, (spillPool d n es s).die? d = some y ∧ x.jr.SpillsTo y.jr ∧
      ∀ e ∈ es, e ∉ y.jr.entries ∧ ∃ g ∈ y.jr.segs, g.pool = n ∧ e ∈ g.entries := by
  obtain ⟨g, hg⟩ : ∃ g, spillSeg x.jr p n es = g := ⟨_, rfl⟩
  have hpool : g.pool = n := by rw [← hg]; rfl
  have hentries : g.entries = es := by rw [← hg]; rfl
  rw [spillPool_eq es hx hp hg]
  have hw := writeCopies_changes p g s
  obtain ⟨z, hz, hj⟩ := hw.die_jr (by decide) hx
  have h1 := JournalSt.SpillsTo.program hf (writeCopies p g s).clk.tick d fun e _ =>
    endedBy_spillSegment n g.seg g.first g.last g.copies e
  have h2 : JournalSt.SpillsTo _ _ := .segment h1.filled (g := g) (by
    obtain ⟨e, h⟩ := List.exists_mem_of_ne_nil _ he
    exact ⟨e, hentries ▸ h, hpool ▸ (hes e h).1⟩)
  refine ⟨((hw.mono (by decide)).step (programJ_changes ..) (by decide)).step (updJr_changes ..) (by decide), _,
    updJr_die?_self _ (programJ_die? _ _ hz), hj ▸ h1.trans h2, fun e h => ⟨fun k => ?_, g, ?_, hpool, hentries ▸ h⟩⟩
  · simpa [hentries, h] using (List.mem_filter.1 k).2
  · exact List.mem_append_right _ (List.mem_singleton_self g)

/-- R175: the groups of some pools become segments. -/
theorem spillPools_spill {d : Nat} {old : List JEntry} (ps : List Nat) {s : State} {x : DieSt} (hx : s.die? d = some x)
    (hf : x.jr.Filled) (hps : ∀ n ∈ ps, ∃ e ∈ old, e.pool = some n) (ho : ∀ e ∈ old, e.jsn < x.jr.next) {t : State}
    (ht : ps.foldl (fun s p => spillPool d p (old.filter fun e => e.pool == some p) s) s = t) :
    Changes s t spilling ∧ ∃ y, t.die? d = some y ∧ x.jr.SpillsTo y.jr ∧ ∀ n ∈ ps, (s.pool? n).isSome → ∀ e ∈ old, e.pool = some n →
      e ∉ y.jr.entries ∧ ∃ g ∈ y.jr.segs, g.pool = n ∧ e ∈ g.entries := by
  induction ps generalizing s x with
  | nil => exact ht ▸ ⟨.refl .., x, hx, .refl hf, fun _ h => absurd h (List.not_mem_nil)⟩
  | cons n ps ih =>
    obtain ⟨hn, hps⟩ := List.forall_mem_cons.1 hps
    rw [List.foldl_cons] at ht
    obtain ⟨hc, y, hy, hs, hall⟩ : Changes s (spillPool d n (old.filter fun e => e.pool == some n) s) spilling ∧
        ∃ y, (spillPool d n (old.filter fun e => e.pool == some n) s).die? d = some y ∧ x.jr.SpillsTo y.jr ∧
          ((s.pool? n).isSome → ∀ e ∈ old, e.pool = some n →
            e ∉ y.jr.entries ∧ ∃ g ∈ y.jr.segs, g.pool = n ∧ e ∈ g.entries) := by
      cases hp : s.pool? n with
      | none =>
        have e : spillPool d n (old.filter fun e => e.pool == some n) s = s := by simp only [spillPool, hx, hp]
        exact e.symm ▸ ⟨.refl .., x, hx, .refl hf, fun h => absurd h (by simp)⟩
      | some p =>
        have hmem (e : JEntry) : e ∈ old.filter (fun e => e.pool == some n) ↔ e ∈ old ∧ e.pool = some n := by simp
        obtain ⟨hc, y, hy, hs, hall⟩ := spillPool_spills hx hp hf (List.ne_nil_of_mem ((hmem _).2 hn.choose_spec))
          fun e he => ⟨((hmem e).1 he).2, ho e ((hmem e).1 he).1⟩
        exact ⟨hc, y, hy, hs, fun _ e he hpe => hall e ((hmem e).2 ⟨he, hpe⟩)⟩
    have hpools : ∀ m, ((spillPool d n (old.filter fun e => e.pool == some n) s).pool? m) = s.pool? m := fun m => by
      simp only [State.pool?, show (spillPool d n _ s).pools = s.pools from hc.frame.same .pools (by decide)]
    obtain ⟨hc', z, hz, hs', hall'⟩ := ih hy hs.filled hps (fun e he => (ho e he).trans_le hs.next) ht
    refine ⟨hc.trans hc', z, hz, hs.trans hs', fun m hm hmp e he hpe => ?_⟩
    obtain rfl | hm := List.mem_cons.1 hm
    · obtain ⟨hout, hin⟩ := hall hmp e he hpe
      exact hs'.keeps (by simp [hpe]) ((ho e he).trans_le hs.next) hout hin
    · exact hall' m hm (by rwa [hpools]) e he hpe

/-- R175: an entry taken out of the journal by its JSN. -/
def JournalSt.unlist (n : Nat) (j : JournalSt) : JournalSt := { j with entries := j.entries.filter fun x => x.jsn != n }

theorem JournalSt.SpillsTo.unlist {j : JournalSt} (h : j.Filled) (n : Nat) : j.SpillsTo (j.unlist n) where
  full := rfl
  next := le_rfl
  filled := h
  entries _ he := .inl (List.mem_filter.1 he).1
  segs g hg _ he _ := ⟨g, hg, rfl, he⟩

/-- R175: the entries of no pool are programmed anew. -/
theorem programAnew_spills {d : Nat} (es : List JEntry) {s : State} {x : DieSt} (hx : s.die? d = some x) (hf : x.jr.Filled)
    (hes : ∀ e ∈ es, staysLive e.body = true) {t : State}
    (ht : es.foldl (fun s e => programJ d none e.body (s.updJr d (JournalSt.unlist e.jsn))) s = t) :
    Changes s t spilling ∧ ∃ y, t.die? d = some y ∧ x.jr.SpillsTo y.jr := by
  induction es generalizing s x with
  | nil => exact ht ▸ ⟨.refl .., x, hx, .refl hf⟩
  | cons e es ih =>
    obtain ⟨he, hes⟩ := List.forall_mem_cons.1 hes
    have h1 := JournalSt.SpillsTo.unlist hf e.jsn
    have h2 := JournalSt.SpillsTo.program h1.filled (s.updJr d (JournalSt.unlist e.jsn)).clk.tick d (endedBy_poolless he)
    obtain ⟨hc, y, hy, hs⟩ := ih (programJ_die? none e.body (updJr_die?_self (JournalSt.unlist e.jsn) hx)) h2.filled hes ht
    exact ⟨(((updJr_changes ..).trans (programJ_changes ..)).mono (by decide)).trans hc, y, hy, (h1.trans h2).trans hs⟩

/-! ### Copies that a failed member held (R177) -/

/-- R170, R175: what names a segment and its copies. -/
def Segment.site (g : Segment) : Nat × Nat × List Nat := (g.pool, g.seg, g.copies)

theorem freeSegs_sites (n : Nat) (j : JournalSt) : ∀ h ∈ (j.freeSegs n).segs, ∃ g ∈ j.segs, g.site = h.site := by
  induction n generalizing j with
  | zero => exact fun h hh => ⟨h, hh, rfl⟩
  | succ n ih =>
    rw [JournalSt.freeSegs]
    split
    · exact fun h hh => ⟨h, hh, rfl⟩
    · intro h hh
      obtain ⟨g, hg, e⟩ := ih _ h hh
      obtain ⟨g', hg', rfl⟩ := List.mem_map.1 hg
      exact ⟨g', (List.mem_filter.1 hg').1, e⟩

/-- R170: the segments of a journal after entries have ended are among those before. -/
theorem without_sites (p : JEntry → Bool) (j : JournalSt) : ∀ h ∈ (j.without p).segs, ∃ g ∈ j.segs, g.site = h.site := by
  intro h hh
  obtain ⟨g, hg, e⟩ := freeSegs_sites _ _ h hh
  obtain ⟨g', hg', rfl⟩ := List.mem_map.1 hg
  exact ⟨g', hg', e⟩

theorem program_sites (tick d : Nat) (p : Option Nat) (b : JBody) (j : JournalSt) :
    ∀ h ∈ (j.program tick d p b).segs, ∃ g ∈ j.segs, g.site = h.site := without_sites _ _

theorem spillCopy_new {j : JournalSt} {p : Pool} {q i c : Nat} {l : List Nat} (h : spillCopy j p q i l = some c) : c ∉ l := by
  have k := List.find?_some h
  simp only [Bool.and_eq_true, Bool.not_eq_true', List.contains_eq_mem, decide_eq_false_iff_not] at k
  obtain ⟨⟨hc, -⟩, -⟩ := k
  exact hc

/-- R177: of a segment whose copies lie on different members the one that moves leaves its member. -/
theorem moveCopy_leaves {j : JournalSt} {p : Pool} {m : Nat} {g : Segment} (hm : m ∈ g.copies) (hn : g.copies.Nodup) :
    m ∉ (moveCopy j p m g).copies := by
  obtain ⟨i, hi, hx⟩ := List.getElem_of_mem hm
  have hfind : g.copies.findIdx? (· == m) = some i := by
    refine List.findIdx?_eq_some_iff_getElem.2 ⟨hi, by simp [hx], fun k hk => ?_⟩
    have hne : g.copies[k] ≠ g.copies[i] := fun e => hk.ne ((List.Nodup.getElem_inj_iff hn).1 e)
    simpa [hx] using hne
  unfold moveCopy
  simp only [hfind, Option.getD_some]
  split
  · next c hc =>
    have hcm : c ≠ m := fun e => spillCopy_new hc (e ▸ hm)
    intro h
    obtain ⟨k, hk, e⟩ := List.getElem_of_mem h
    rw [List.getElem_set] at e
    split at e
    · exact hcm e
    · next hik => exact hik ((List.Nodup.getElem_inj_iff hn).1 (hx.trans e.symm))
  · intro h
    obtain ⟨k, hne, e⟩ := List.mem_eraseIdx_iff_getElem?.1 h
    exact hne ((List.getElem?_inj hi hn).1 (by rw [e, List.getElem?_eq_getElem hi, hx])).symm

theorem moveCopy_names (j : JournalSt) (p : Pool) (m : Nat) (g : Segment) :
    (moveCopy j p m g).pool = g.pool ∧ (moveCopy j p m g).seg = g.seg := by
  unfold moveCopy
  dsimp only
  split <;> exact ⟨rfl, rfl⟩

/-- R177: a journal with a segment of a pool replaced. -/
def JournalSt.putSeg (g : Segment) (j : JournalSt) : JournalSt :=
  { j with segs := updIf (fun q => q.pool == g.pool && q.seg == g.seg) (fun _ => g) j.segs }

/-- R177: the new copy of a segment is written. -/
def writeNew (p : Pool) (g h : Segment) (s : State) : State :=
  ((h.copies.zip h.slots).filter fun c => !g.copies.contains c.1).foldl (fun s c => writeCopy p g.entries c.1 c.2 s) s

theorem writeNew_changes (p : Pool) (g h : Segment) (s : State) : Changes s (writeNew p g h s) [.mcmds, .uniq] :=
  foldl_changes _ (fun _ _ => writeCopy_changes ..) ..

theorem replaceCopy_eq {s : State} {p : Pool} {m : Nat} {x : DieSt} {g h : Segment} (hx : s.die? p.home = some x)
    (hp : g.pool = p.num) (hh : moveCopy x.jr p m g = h) : replaceCopy p m s g =
      (programJ p.home (some p.num) (.spillSegment g.seg g.first g.last h.copies) (writeNew p g h s)).updJr p.home
        (JournalSt.putSeg h) := by
  subst hh
  obtain ⟨hpool, hseg⟩ := moveCopy_names x.jr p m g
  have hput : JournalSt.putSeg (moveCopy x.jr p m g) = fun j : JournalSt =>
      { j with segs := updIf (fun q => q.pool == p.num && q.seg == g.seg) (fun _ => moveCopy x.jr p m g) j.segs } := by
    funext j
    rw [JournalSt.putSeg, hpool, hseg, hp]
  simp only [replaceCopy, hx, hput]
  rfl

/-- R177: which segments of a pool still have a copy on a member: those with the numbers of a list. -/
def JournalSt.HeldBy (j : JournalSt) (n m : Nat) (gs : List Segment) : Prop :=
  ∀ h ∈ j.segs, h.pool = n → m ∈ h.copies → ∃ g ∈ gs, g.seg = h.seg

theorem JournalSt.HeldBy.putSeg {j k : JournalSt} {n m : Nat} {g h : Segment} {gs : List Segment} (hj : j.HeldBy n m (g :: gs))
    (hk : ∀ x ∈ k.segs, ∃ y ∈ j.segs, y.site = x.site) (hp : h.pool = n) (hs : h.seg = g.seg) (hm : m ∉ h.copies) :
    (k.putSeg h).HeldBy n m gs := by
  intro x hx hxn hxm
  obtain ⟨y, hy, rfl⟩ := List.mem_map.1 hx
  split at hxn
  · next hc =>
    rw [if_pos hc] at hxm
    exact absurd hxm hm
  · next hc =>
    rw [if_neg hc] at hxm ⊢
    obtain ⟨z, hz, e⟩ := hk y hy
    simp only [Segment.site, Prod.mk.injEq] at e
    obtain ⟨e1, e2, e3⟩ := e
    obtain ⟨g', hg', e'⟩ := hj z hz (e1.trans hxn) (e3 ▸ hxm)
    obtain rfl | hg' := List.mem_cons.1 hg'
    · exact absurd (by simp [hp, hs, hxn, e', e2]) hc
    · exact ⟨g', hg', e'.trans e2⟩

/-- R177: the copies of some segments leave a member. -/
theorem replaceCopies_leave {p : Pool} {m : Nat} (gs : List Segment) {s : State} {x : DieSt} (hx : s.die? p.home = some x)
    (hgs : ∀ g ∈ gs, g.pool = p.num ∧ m ∈ g.copies ∧ g.copies.Nodup) (hj : x.jr.HeldBy p.num m gs) :
    Changes s (gs.foldl (replaceCopy p m) s) spilling ∧
    ∃ y, (gs.foldl (replaceCopy p m) s).die? p.home = some y ∧ y.jr.HeldBy p.num m [] := by
  induction gs generalizing s x with
  | nil => exact ⟨.refl .., x, hx, hj⟩
  | cons g gs ih =>
    obtain ⟨⟨hp, hm, hn⟩, hgs⟩ := List.forall_mem_cons.1 hgs
    obtain ⟨h, hh⟩ : ∃ h, moveCopy x.jr p m g = h := ⟨_, rfl⟩
    obtain ⟨hpool, hseg⟩ := moveCopy_names x.jr p m g
    have hleft := moveCopy_leaves (j := x.jr) (p := p) hm hn
    rw [hh] at hpool hseg hleft
    have hw := writeNew_changes p g h s
    obtain ⟨z, hz, hzj⟩ := hw.die_jr (by decide) hx
    have hy := updJr_die?_self (JournalSt.putSeg h)
      (programJ_die? (some p.num) (.spillSegment g.seg g.first g.last h.copies) hz)
    obtain ⟨hc, k⟩ := ih (s := replaceCopy p m s g) (replaceCopy_eq hx hp hh ▸ hy) hgs
      (hj.putSeg (hzj ▸ program_sites _ _ _ _ _) (hpool.trans hp) hseg hleft)
    refine ⟨.trans ?_ hc, k⟩
    rw [replaceCopy_eq hx hp hh]
    exact ((hw.mono (by decide)).step (programJ_changes ..) (by decide)).step (updJr_changes ..) (by decide)

end Sys2Proof.Machine
end

section
/-! PROOF. The rows of the journal: anchors, spills, folds, the rates of a vault,
saved operating times (R170, R172, R175 to R178, R184, R427, R433). -/

namespace Sys2Proof.Machine

/-! ### Anchors and folds (R170, R172) -/

/-- R172: an entry that an ANCHOR counts as live. -/
def notAnchor (e : JEntry) : Bool :=
  match e.body with
  | .anchor .. => false
  | _ => true

/-- R172: the journal with its latest ANCHOR noted. -/
def JournalSt.anchored (tail now : Nat) (j : JournalSt) : JournalSt := { j with anchorTail := tail, anchorTick := now }

theorem programAnchor_eq {s : State} {d : Nat} {x : DieSt} (hx : s.die? d = some x) {l : List JEntry} {k : Nat}
    (hl : x.jr.entries.filter notAnchor = l) (hk : (l.head?.map (·.jsn)).getD x.jr.next = k) : programAnchor d s =
      (programJ d none (.anchor k (l.length + 1) x.jr.segs.length (openIntents x.jr)) s).updJr d
        (JournalSt.anchored k s.clk.tick) := by
  subst hl hk
  simp only [programAnchor, hx]
  rfl

/-- R170: what a fold takes out of the journal. -/
def folded (e : JEntry) : Bool :=
  match e.body with
  | .lostBlocks .. | .tileState .. | .mapSwitch .. => true
  | _ => false

/-! ### Spills (R175, R178) -/

/-- R178: the journal with write admission stopped, or resumed. -/
def JournalSt.withFull (b : Bool) (j : JournalSt) : JournalSt := { j with full := b }

/-- R175: the pools of some entries, ascending. -/
def poolsIn (l : List JEntry) : List Nat := (l.filterMap (·.pool)).foldl (fun l p => insNat p l) []

theorem mem_foldl_insNat {n : Nat} (l : List Nat) (a : List Nat) : n ∈ l.foldl (fun l p => insNat p l) a ↔ n ∈ l ∨ n ∈ a := by
  induction l generalizing a with
  | nil => simp
  | cons m l ih => rw [List.foldl_cons, ih, mem_insNat, List.mem_cons, or_left_comm, or_assoc]

theorem mem_poolsIn {n : Nat} {l : List JEntry} : n ∈ poolsIn l ↔ ∃ e ∈ l, e.pool = some n := by
  simp [poolsIn, mem_foldl_insNat]

/-- R175: the oldest entries of a journal, which a spill takes. -/
def JournalSt.oldest (j : JournalSt) : List JEntry := j.entries.filter fun e => decide (e.jsn < j.tail + 4096)

/-- R175: the pools' groups of some entries spilled. -/
def spillAll (d : Nat) (old : List JEntry) (s : State) : State :=
  (poolsIn old).foldl (fun s p => spillPool d p (old.filter fun e => e.pool == some p) s) s

/-- R175: those of no pool programmed anew. -/
def programAnew (d : Nat) (old : List JEntry) (s : State) : State :=
  (old.filter fun e => e.pool.isNone).foldl (fun s e => programJ d none e.body (s.updJr d (JournalSt.unlist e.jsn))) s

/-- R175: a spill of the oldest entries, which all have JSNs below those it gives out. -/
theorem spillAll_spills {s : State} {d : Nat} {x : DieSt} (hx : s.die? d = some x) (hn : 344064 ≤ x.jr.next - x.jr.tail)
    (hlive : ∀ e ∈ x.jr.entries, staysLive e.body = true)
    (hf : x.jr.Filled) : Changes s (programAnew d x.jr.oldest (spillAll d x.jr.oldest s)) spilling ∧
      ∃ y, (programAnew d x.jr.oldest (spillAll d x.jr.oldest s)).die? d = some y ∧ y.jr.full = x.jr.full ∧
        ∀ e ∈ x.jr.oldest, ∀ n, e.pool = some n → (s.pool? n).isSome → e ∉ y.jr.entries ∧
          ∃ g ∈ y.jr.segs, g.pool = n ∧ e ∈ g.entries := by
  have hold : ∀ e ∈ x.jr.oldest, e ∈ x.jr.entries ∧ e.jsn < x.jr.next := fun e he => by
    obtain ⟨hmem, hlt⟩ := List.mem_filter.1 he
    exact ⟨hmem, by have := of_decide_eq_true hlt; omega⟩
  obtain ⟨hc, y, hy, hs, hall⟩ := spillPools_spill (poolsIn x.jr.oldest) hx hf (fun _ => mem_poolsIn.1) (fun e he => (hold e he).2)
    (t := spillAll d x.jr.oldest s) rfl
  obtain ⟨hc', z, hz, hs'⟩ := programAnew_spills (x.jr.oldest.filter fun e => e.pool.isNone) hy hs.filled
    (fun e he => hlive e (hold e (List.mem_filter.1 he).1).1) (t := programAnew d x.jr.oldest (spillAll d x.jr.oldest s)) rfl
  refine ⟨hc.trans hc', z, hz, hs'.full.trans hs.full, fun e he n hp hpool => ?_⟩
  obtain ⟨hout, hin⟩ := hall n (mem_poolsIn.2 ⟨e, he, hp⟩) hpool e he hp
  exact hs'.keeps (by simp [hp]) ((hold e he).2.trans_le hs.next) hout hin

/-! ### The rates of a vault (R184) -/

/-- R184: a die with its vault's rates measured. -/
def withRates (v vr : Nat) (x : DieSt) : DieSt := { x with rateV := v, rateVr := vr }

theorem endWaiters_changes (p : Nat → Nat → Bool) (s : State) : Changes s (endWaiters p s) (.feat :: ending) :=
  ((feat_changes s { s.feat with waiters := s.feat.waiters.filter fun w => !p w.2.1 w.2.2 }).mono (by decide)).trans
    (foldl_changes _ (fun _ _ => (complete_changes ..).mono (by decide)) ..)

/-- R184: the commands that wait for the rates of vaults. -/
def ratesKnown (s : State) (fid sel : Nat) : Bool :=
  fid == 5 && (selDies s sel).all fun e => (s.die? e).all fun y => !y.vault || decide (0 < y.rateV)

/-- R184: the rates measured, with the event that they call for. -/
def rated (d v vr : Nat) (x : DieSt) (s : State) : State :=
  let less := (s.updDie d (withRates v vr)).die? d |>.any fun y => decide (dirtyBudget y < dirtyBytes s d)
  if less ∧ dirtyBudget { x with rateV := v } < dirtyBudget x ∧ 0 < x.rateV then raise d 0x6013 {} (s.updDie d (withRates v vr))
  else s.updDie d (withRates v vr)

theorem rated_raises (s : State) (d v vr : Nat) (x : DieSt) : Changes (s.updDie d (withRates v vr)) (rated d v vr x s) raising := by
  unfold rated
  dsimp only
  split
  · exact raise_changes ..
  · exact .refl ..

theorem rated_changes (s : State) (d v vr : Nat) (x : DieSt) : Changes s (rated d v vr x s) (.health :: raising) :=
  ((updDie_changes s d (withRates v vr) fun _ => ⟨rfl, rfl, rfl, rfl, rfl, rfl, rfl⟩).mono (by decide)).step (rated_raises ..)
    (by decide)

/-! ### The rows of a die in service -/

section
variable {s : State} {d : Nat} {x : DieSt} (hx : s.die? d = some x) (hr : s.running = true) (ha : x.alive = true)
include hx hr ha

theorem anchor_exec (hroom : journalRoom s d = true)
    (hdue : x.jr.anchorTick + 2500 ≤ s.clk.tick ∨ x.jr.anchorTail + 4096 ≤ x.jr.tail) :
    exec (.anchor d) s = .next (programAnchor d s) := by
  show execAnchor d s = _
  simp only [execAnchor, hx]
  exact if_pos (by simpa [hr, State.alive, hx, ha, hroom] using hdue)

theorem anchor_runs {l : List JEntry} {k : Nat} {b : JBody} (hroom : journalRoom s d = true)
    (hdue : x.jr.anchorTick + 2500 ≤ s.clk.tick ∨ x.jr.anchorTail + 4096 ≤ x.jr.tail) (hl : x.jr.entries.filter notAnchor = l)
    (hk : (l.head?.map (·.jsn)).getD x.jr.next = k) (hb : JBody.anchor k (l.length + 1) x.jr.segs.length (openIntents x.jr) = b) :
    Runs (.anchor d) s [.jr] fun t => ∃ y, t.die? d = some y ∧ y.jr.anchorTail = k ∧ y.jr.anchorTick = s.clk.tick ∧
      y.jr.next = x.jr.next + 1 ∧ y.jr.entries = insEntry ⟨x.jr.next, d, none, b⟩ (x.jr.without (endedBy none b)).entries := by
  subst hb
  refine .of_changes ((anchor_exec hx hr ha hroom hdue).trans (congrArg _ (programAnchor_eq hx hl hk)))
    ((programJ_changes ..).trans (updJr_changes ..)) ⟨_, updJr_die?_self _ (programJ_die? _ _ hx), rfl, rfl, rfl, ?_⟩ fun _ h => h
  exact program_entries s.clk.tick d none (b := .anchor k (l.length + 1) x.jr.segs.length (openIntents x.jr)) x.jr rfl

theorem configFold_exec : exec (.configFold d) s = .next (dropEntries d folded s) :=
  if_pos (by simp [hr, State.alive, hx, ha])

theorem configFold_runs : Runs (.configFold d) s [.jr] fun t => ∃ y, t.die? d = some y ∧ y.jr.next = x.jr.next ∧
    ∀ e ∈ y.jr.entries, e ∈ x.jr.entries ∧ folded e = false :=
  .of_changes (configFold_exec hx hr ha) (dropEntries_changes ..)
    ⟨_, updJr_die?_self _ hx, without_next .., fun _ he => mem_without he⟩ fun _ h => h

theorem journalSpill_exec (hn : 344064 ≤ x.jr.next - x.jr.tail) : exec (.journalSpill d) s =
    .next (if 64 < x.jr.segs.length + (poolsIn x.jr.oldest).length then
        if x.jr.full then s else raise d 0x1202 {} (s.updJr d (JournalSt.withFull true))
      else raise d 0x1200 {} (programAnew d x.jr.oldest (spillAll d x.jr.oldest s))) := by
  show execJournalSpill d s = _
  simp only [execJournalSpill, hx]
  rw [if_neg (by simp [hr, State.alive, hx, ha, hn])]
  simp only [apply_ite Host.Outcome.next]
  rfl

theorem journalSpill_stops (hn : 344064 ≤ x.jr.next - x.jr.tail) (h64 : 64 < x.jr.segs.length + (poolsIn x.jr.oldest).length)
    (hf : x.jr.full = false) : Runs (.journalSpill d) s (.jr :: raising) fun t => Pending t d 0x1202 ∧
      ∃ y, t.die? d = some y ∧ y.jr = { x.jr with full := true } := by
  have e := journalSpill_exec hx hr ha hn
  rw [if_pos h64, if_neg (by simp [hf])] at e
  have hy := updJr_die?_self (JournalSt.withFull true) hx
  have k := raise_changes d 0x1202 {} (s.updJr d (JournalSt.withFull true))
  exact .of_changes e (((updJr_changes ..).mono (by decide)).step k (by decide))
    ⟨raise_sets _ _ (by rw [hy]; rfl), k.die_jr (by decide) hy⟩ fun _ h => h

theorem journalSpill_spills (hn : 344064 ≤ x.jr.next - x.jr.tail) (h64 : x.jr.segs.length + (poolsIn x.jr.oldest).length ≤ 64)
    (hlive : ∀ e ∈ x.jr.entries, staysLive e.body = true) (hf : x.jr.Filled) :
    Runs (.journalSpill d) s (.jr :: .mcmds :: .uniq :: raising) fun t => Pending t d 0x1200 ∧ ∃ y, t.die? d = some y ∧
      y.jr.full = x.jr.full ∧ ∀ e ∈ x.jr.oldest, ∀ n, e.pool = some n → (s.pool? n).isSome → e ∉ y.jr.entries ∧
        ∃ g ∈ y.jr.segs, g.pool = n ∧ e ∈ g.entries := by
  have e := journalSpill_exec hx hr ha hn
  rw [if_neg (by omega)] at e
  obtain ⟨hc, y, hy, hfull, hall⟩ := spillAll_spills hx hn hlive hf
  have k := raise_changes d 0x1200 {} (programAnew d x.jr.oldest (spillAll d x.jr.oldest s))
  obtain ⟨z, hz, hj⟩ := k.die_jr (by decide) hy
  exact .of_changes e ((hc.mono (by decide)).step k (by decide))
    ⟨raise_sets _ _ (by rw [hy]; rfl), z, hz, hj ▸ hfull, hj ▸ hall⟩ fun _ h => h

omit ha in
theorem journalFullCleared_runs (hf : x.jr.full = true) (h48 : x.jr.segs.length ≤ 48) :
    Runs (.journalFullCleared d) s [.jr] fun t => ∃ y, t.die? d = some y ∧ y.jr = { x.jr with full := false } := by
  have e : exec (.journalFullCleared d) s = .next (s.updJr d (JournalSt.withFull false)) := by
    show execJournalFullCleared d s = _
    simp only [execJournalFullCleared, hx]
    exact if_pos (by simp [hr, hf, h48])
  exact .of_changes e (updJr_changes ..) ⟨_, updJr_die?_self _ hx, rfl⟩ fun _ h => h

theorem vaultRate_exec {v vr : Nat} (hv : x.vault = true) : exec (.vaultRateMeasure d v vr) s =
    .next (endWaiters (ratesKnown (rated d v vr x s)) (rated d v vr x s)) := by
  show Host.Outcome.next (vaultRate d v vr s) = _
  simp only [vaultRate, hx]
  rw [if_neg (by simp [hr, State.alive, hx, ha, hv])]
  rfl

theorem vaultRate_measures {v vr : Nat} (hv : x.vault = true) :
    Runs (.vaultRateMeasure d v vr) s (.feat :: .health :: ending) fun t => (∃ y, t.die? d = some y ∧ y.rateV = v ∧ y.rateVr = vr) ∧
      (0 < x.rateV → dirtyBudget { x with rateV := v } < dirtyBytes s d → dirtyBudget { x with rateV := v } < dirtyBudget x →
        Pending t d 0x6013) := by
  have hy : (s.updDie d (withRates v vr)).die? d = some (withRates v vr x) := updDie_die?_self _ hx
  have hend := endWaiters_changes (ratesKnown (rated d v vr x s)) (rated d v vr x s)
  refine .of_changes (vaultRate_exec hx hr ha hv) (((rated_changes s d v vr x).mono (by decide)).step hend (by decide))
    ⟨?_, fun h0 h1 h2 => hend.pend _ _ ?_⟩ fun _ h => h
  · have k : Changes _ _ (.feat :: ending) := ((rated_raises s d v vr x).mono (by decide)).step hend (by decide)
    obtain ⟨z, hz, e⟩ := die_of_map (k.frame.same .health (by decide)) hy
    exact ⟨z, hz, congrArg DieSt.rateV e, congrArg DieSt.rateVr e⟩
  · have hless : ((s.updDie d (withRates v vr)).die? d).any (fun y => decide (dirtyBudget y < dirtyBytes s d)) = true := by
      rw [hy]
      exact decide_eq_true h1
    unfold rated
    dsimp only
    rw [if_pos ⟨hless, h2, h0⟩]
    exact raise_sets _ _ (by rw [hy]; rfl)

end

/-! ### Copies on a failed member, saved operating times (R177, R427, R433) -/

theorem spillCopyReplaced_runs {s : State} {p : Pool} {m : Nat} {y : Member} {x : DieSt} {g : Segment} (hr : s.running = true)
    (hp : s.pool? p.num = some p) (hx : s.die? p.home = some x) (hs : s.serves p.home = true) (hg : g ∈ x.jr.segs)
    (hgp : g.pool = p.num) (hm : m ∈ g.copies) (hy : p.members[m]? = some y) (hf : y.state = .failed)
    (hn : ∀ h ∈ x.jr.segs, h.pool = p.num → h.copies.Nodup) :
    Runs (.spillCopyReplaced p.num m) s (.jr :: .mcmds :: .uniq :: raising) fun t => Pending t p.home 0x1201 ∧
      ∃ z, t.die? p.home = some z ∧ ∀ h ∈ z.jr.segs, h.pool = p.num → m ∉ h.copies := by
  obtain ⟨mine, hmine⟩ : ∃ l, (x.jr.segs.filter fun g => g.pool == p.num && g.copies.contains m) = l := ⟨_, rfl⟩
  have hmem (h : Segment) : h ∈ mine ↔ h ∈ x.jr.segs ∧ h.pool = p.num ∧ m ∈ h.copies := by simp [← hmine]
  have e : exec (.spillCopyReplaced p.num m) s =
      .next (raise p.home 0x1201 { pool := p.num, item := m } (mine.foldl (replaceCopy p m) s)) := by
    show execSpillCopyReplaced p.num m s = _
    simp only [execSpillCopyReplaced, hp, hx, Option.map_some, Option.getD_some, hmine]
    refine if_neg ?_
    simp [hr, hs, hy, hf, List.ne_nil_of_mem ((hmem g).2 ⟨hg, hgp, hm⟩)]
  obtain ⟨hc, z, hz, hheld⟩ := replaceCopies_leave mine hx
    (fun h hh => ⟨((hmem h).1 hh).2.1, ((hmem h).1 hh).2.2, hn h ((hmem h).1 hh).1 ((hmem h).1 hh).2.1⟩)
    (fun h hh hhp hhm => ⟨h, (hmem h).2 ⟨hh, hhp, hhm⟩, rfl⟩)
  have k := raise_changes p.home 0x1201 { pool := p.num, item := m } (mine.foldl (replaceCopy p m) s)
  obtain ⟨w, hw, hj⟩ := k.die_jr (by decide) hz
  refine .of_changes e ((hc.mono (by decide)).step k (by decide)) ⟨raise_sets _ _ (by rw [hz]; rfl), w, hw, fun h hh hhp hhm => ?_⟩
    fun _ h => h
  obtain ⟨_, hnil, -⟩ := hheld h (hj ▸ hh) hhp hhm
  exact List.not_mem_nil hnil

/-- R427: a die with an operating time saved. -/
def withSaved (n : Nat) (x : DieSt) : DieSt := { x with saved := saveUnits x.saved n }

/-- R433: a recorder with its counts of dropped records saved. -/
def countsSaved (q : RecorderSt) : RecorderSt := { q with savedDropped := q.dropped, savedHoldOvf := q.holdOvf }

theorem optimeSave_exec {d b : Nat} {s : State} {x : DieSt} (hx : s.die? d = some x) (ho : s.on = true) (hp : 2 < s.run.phase)
    (hb : nextSave s.clk.optime = b) (hdue : b ≤ s.clk.optime + 2500) (hold : ∀ v, savedOf x = some v → v < b) :
    exec (.optimeSave d) s = .next ((s.updDie d (withSaved b)).updRec d countsSaved) := by
  have hany : (savedOf x).any (fun v => decide (b ≤ v)) = false := by
    cases hv : savedOf x with
    | none => rfl
    | some v => exact decide_eq_false (not_le.2 (hold v hv))
  show execOptimeSave d s = _
  simp only [execOptimeSave, hx, hb]
  exact if_pos (by simp [ho, hp, hdue, hany])

theorem optimeSave_saves {d b : Nat} {s : State} {x : DieSt} (hx : s.die? d = some x) (ho : s.on = true) (hp : 2 < s.run.phase)
    (hb : nextSave s.clk.optime = b) (hdue : b ≤ s.clk.optime + 2500) (hold : ∀ v, savedOf x = some v → v < b) :
    Runs (.optimeSave d) s [.health, .recd] fun t => ∃ y, t.die? d = some y ∧
      y.saved = saveUnits x.saved b ∧ y.recd.savedDropped = x.recd.dropped ∧ y.recd.savedHoldOvf = x.recd.holdOvf := by
  have hy : (s.updDie d (withSaved b)).die? d = some (withSaved b x) := updDie_die?_self _ hx
  have k : Changes s (s.updDie d (withSaved b)) [.health] :=
    updDie_changes s d (withSaved b) fun _ => ⟨rfl, rfl, rfl, rfl, rfl, rfl, rfl⟩
  exact .of_changes (optimeSave_exec hx ho hp hb hdue hold) ((k.mono (by decide)).step (updRec_changes ..) (by decide))
    ⟨_, updDie_die?_self _ hy, rfl, rfl, rfl⟩ fun _ h => h

/-- Settles O52, row by row: an ANCHOR is programmed (`anchor_runs`),
what a spill takes leaves the journal for segments of its pools
(`spillAll_spills`), and the copies that a failed member held move (`replaceCopies_leave`). -/
theorem journalWorks : Obligations.JournalWorks := by
  unfold Obligations.JournalWorks
  refine ⟨fun d s x hx hr ha => ⟨?_, ?_, fun hf h48 => journalFullCleared_runs hx hr hf h48, ?_, fun v vr hv =>
    vaultRate_measures hx hr ha hv⟩, fun s p m y x g hr hp hx hs hg hgp hm hy hf hn =>
      spillCopyReplaced_runs hr hp hx hs hg hgp hm hy hf hn, fun d s x hx ho hp hdue hold =>
        optimeSave_saves hx ho hp rfl hdue hold⟩
  · intro l k hroom hdue hl hk b hb
    exact anchor_runs hx hr ha hroom hdue hl hk hb
  · rintro old ps rfl rfl hn
    exact ⟨fun h64 hf => journalSpill_stops hx hr ha hn h64 hf, fun h64 hlive hfill =>
      journalSpill_spills hx hr ha hn h64 hlive hfill⟩
  · obtain ⟨t, e, ⟨y, hy, hnext, hall⟩, f⟩ := configFold_runs hx hr ha
    refine ⟨t, e, ⟨y, hy, hnext, fun j hj => ?_⟩, f⟩
    obtain ⟨hmem, hnot⟩ := hall j hj
    refine ⟨hmem, ?_⟩
    unfold folded at hnot
    split <;> simp_all

end Sys2Proof.Machine
end

section
/-! SUPPORT. Programming the records of the dies, and what the last entry of a journal and a tick leave of the journals
(R169, R180, R407, R417). -/

namespace Sys2Proof.Machine

/-! ### The pre-write buffers (R407, R417) -/

/-- R417: the pre-write buffers of the dies. -/
def State.prewrites (s : State) : List (List Rec) := s.dies.map (·.recd.prewrite)

theorem updRec_prewrites (s : State) (d : Nat) {f : RecorderSt → RecorderSt} (h : ∀ q, (f q).prewrite = q.prewrite) :
    (s.updRec d f).prewrites = s.prewrites := updDie_map _ _ _ _ fun _ => h _

theorem signalEvent_prewrites (d code : Nat) (s : State) : (signalEvent d code s).prewrites = s.prewrites := by
  have h := (signalEvent_frame d code s).same .recd (by decide)
  simpa [State.prewrites, Function.comp_def] using congrArg (List.map RecorderSt.prewrite) h

/-- R416: programming a record moves no buffer. -/
theorem programRec_prewrites (d : Nat) (r : Rec) (s : State) : (programRec d r s).prewrites = s.prewrites := by
  have hfault (q : RecorderSt) : (toFaultArea r q).prewrite = q.prewrite := by unfold toFaultArea; split <;> rfl
  unfold programRec
  repeat' split
  · rfl
  · exact updRec_prewrites _ _ hfault
  · exact updRec_prewrites _ _ fun _ => rfl
  · exact (signalEvent_prewrites ..).trans (updRec_prewrites _ _ fun _ => rfl)
  · exact updRec_prewrites _ _ fun _ => rfl

/-- R417: the oldest records of a buffer are programmed. -/
theorem programSome_prewrites (n d : Nat) (s : State) : (programSome n d s).prewrites = s.prewrites.modify d (List.drop n) := by
  induction n generalizing s with
  | zero => exact (List.modify_id ..).symm
  | succ n ih =>
    have hget : s.prewrites[d]? = (s.die? d).map (·.recd.prewrite) := List.getElem?_map ..
    rw [programSome]
    cases hx : s.die? d with
    | none => exact (List.modify_eq_self (List.getElem?_eq_none_iff.1 (by rw [hget, hx]; rfl))).symm
    | some x =>
      rw [hx] at hget
      dsimp only
      cases hp : x.recd.prewrite with
      | nil =>
        refine List.ext_getElem? fun e => ?_
        rw [List.getElem?_modify]
        by_cases h : d = e
        · subst h
          simp [hget, hp]
        · simp [h]
      | cons r rs =>
        have hdrop : (s.updRec d fun q => { q with prewrite := rs }).prewrites = s.prewrites.modify d (List.drop 1) := by
          refine List.ext_getElem? fun e => ?_
          simp only [State.prewrites, State.updRec, State.updDie, List.getElem?_map, List.getElem?_modify]
          by_cases h : d = e
          · subst h
            have hx' : s.dies[d]? = some x := hx
            simp [hx', hp]
          · simp [h]
        rw [ih, programRec_prewrites, hdrop, List.modify_modify_eq]
        congr 1
        funext l
        simp

/-- R417: a die's whole buffer is programmed. -/
theorem programAll_prewrites (d : Nat) (s : State) : (programAll d s).prewrites = s.prewrites.modify d fun _ => [] := by
  rw [programAll, programSome_prewrites]
  refine List.ext_getElem? fun e => ?_
  simp only [List.getElem?_modify]
  split
  · next h =>
    subst h
    have hget : s.prewrites[d]? = (s.die? d).map (·.recd.prewrite) := List.getElem?_map ..
    rw [hget]
    cases s.die? d <;> simp
  · rfl

theorem programAlls_prewrites (ds : List Nat) (s : State) (e : Nat) :
    (ds.foldl (fun s d => programAll d s) s).prewrites[e]? =
      if e ∈ ds then (s.prewrites[e]?).map fun _ => [] else s.prewrites[e]? := by
  induction ds generalizing s with
  | nil => rfl
  | cons d ds ih =>
    rw [List.foldl_cons, ih, programAll_prewrites, List.getElem?_modify]
    by_cases h : d = e
    · subst h
      cases s.prewrites[d]? <;> simp
    · simp [h, Ne.symm h]

/-- R407: programming every buffer leaves none of its records. -/
theorem programEvery_empties (s : State) : ∀ x ∈ (programEvery s).dies, x.recd.prewrite = [] := by
  intro x hx
  obtain ⟨e, he, rfl⟩ := List.getElem_of_mem hx
  have hlen : (programEvery s).dies.length = s.dies.length := by
    have k := congrArg List.length ((programEvery_changes s).frame.same .hw (by decide))
    simpa using k
  have k := programAlls_prewrites s.dieIdx s e
  rw [if_pos (show e ∈ s.dieIdx from List.mem_range.2 (hlen ▸ he))] at k
  have hget : (programEvery s).prewrites[e]? = some (programEvery s).dies[e].recd.prewrite := by
    simp [State.prewrites, List.getElem?_eq_getElem he]
  obtain ⟨_, -, h⟩ := Option.map_eq_some_iff.1 (k.symm.trans hget)
  exact h.symm

/-! ### Entries that stay in a journal (R169, R170) -/

/-- R169: the live entries of the dies' journals. -/
def State.journals (s : State) : List (List JEntry) := s.dies.map (·.jr.entries)

theorem Frame.journals {s t : State} {l : List Field} (f : Frame s t l) (h : .jr ∉ l) : t.journals = s.journals := by
  simpa [State.journals, Function.comp_def] using congrArg (List.map JournalSt.entries) (f.same .jr h)

theorem updJr_journals (s : State) (d : Nat) {f : JournalSt → JournalSt} (h : ∀ j, (f j).entries = j.entries) :
    (s.updJr d f).journals = s.journals := updDie_map _ _ _ _ fun _ => h _

/-- An entry is in the journal of a die. -/
def Lists (s : State) (d : Nat) (e : JEntry) : Prop := ∃ y, s.die? d = some y ∧ e ∈ y.jr.entries

theorem Lists.of_journals {s t : State} {d : Nat} {e : JEntry} (h : Lists s d e) (k : t.journals = s.journals) : Lists t d e := by
  obtain ⟨y, hy, he⟩ := h
  obtain ⟨z, hz, hze⟩ := die_of_map k hy
  exact ⟨z, hz, hze ▸ he⟩

/-- R170: an entry that is no SPILL SEGMENT stays while segments are freed. -/
theorem mem_freeSegs {n : Nat} {j : JournalSt} {e : JEntry} (h : e ∈ j.entries) (hn : ∀ l, namesOne l e = false) :
    e ∈ (j.freeSegs n).entries := by
  induction n generalizing j with
  | zero => exact h
  | succ n ih =>
    rw [JournalSt.freeSegs]
    split
    · exact h
    · exact ih (List.mem_filter.2 ⟨h, by rw [hn]; rfl⟩)

theorem mem_without_of {p : JEntry → Bool} {j : JournalSt} {e : JEntry} (h : e ∈ j.entries) (hp : p e = false)
    (hn : ∀ l, namesOne l e = false) : e ∈ (j.without p).entries :=
  mem_freeSegs (List.mem_filter.2 ⟨h, by rw [hp]; rfl⟩) hn

theorem mem_insEntry_of_mem {e x : JEntry} {l : List JEntry} (h : x ∈ l) : x ∈ insEntry e l := by
  induction l with
  | nil => cases h
  | cons y ys ih =>
    rw [insEntry]
    split
    · exact List.mem_cons_of_mem _ h
    · obtain rfl | h := List.mem_cons.1 h
      · exact List.mem_cons_self ..
      · exact List.mem_cons_of_mem _ (ih h)

/-- R170, R180: programming a POWER HOLD ends no entry but SPILL SEGMENTs of free segments. -/
theorem mem_program_powerHold {tick d m ep n o : Nat} {c : W32} {j : JournalSt} {e : JEntry} (h : e ∈ j.entries)
    (hn : ∀ l, namesOne l e = false) : e ∈ (j.program tick d none (.powerHold m ep n c o)).entries := by
  rw [program_entries _ _ _ _ rfl]
  exact mem_insEntry_of_mem (mem_without_of h (by simp [endedBy, JBody.supersedes]) hn)

/-! ### POWER HOLD (R171, R180) -/

theorem powerHold_eq {mode d : Nat} {s : State} {x : DieSt} (hx : s.die? d = some x) : ∃ c, powerHold mode d s =
    programJ d none (.powerHold mode x.jr.epoch (dirtyBytes s d) c s.clk.optime) { s with free := s.free + 1 } := by
  refine ⟨BitVec.ofNat 32 (Config.freeNat s.free), ?_⟩
  have hx' : ({ s with free := s.free + 1 } : State).die? d = some x := hx
  simp only [powerHold, State.fresh, hx']
  rfl

/-- R180: what a POWER HOLD entry says of a die. -/
def HoldsPower (s : State) (d : Nat) (x : DieSt) (mode : Nat) (e : JEntry) : Prop :=
  e.jsn = x.jr.next ∧ ∃ c, e.body = .powerHold mode x.jr.epoch (dirtyBytes s d) c s.clk.optime

theorem HoldsPower.not_named {s : State} {d mode : Nat} {x : DieSt} {e : JEntry} (h : HoldsPower s d x mode e)
    (l : List (Nat × Nat)) :
    namesOne l e = false := by
  obtain ⟨-, c, hb⟩ := h
  simp [namesOne, hb]

theorem powerHold_die?_other {mode d k : Nat} (s : State) (h : k ≠ d) : (powerHold mode k s).die? d = s.die? d := by
  cases hx : s.die? k with
  | none =>
    have hx' : ({ s with free := s.free + 1 } : State).die? k = none := hx
    simp only [powerHold, State.fresh, hx']
    rfl
  | some x =>
    obtain ⟨c, e⟩ := powerHold_eq (mode := mode) hx
    rw [e, programJ, State.updJr, updDie_die?, if_neg h]
    rfl

theorem powerHold_lists {mode d : Nat} {s : State} {e : JEntry} (h : Lists s d e) (hn : ∀ l, namesOne l e = false) (k : Nat) :
    Lists (powerHold mode k s) d e := by
  obtain ⟨y, hy, he⟩ := h
  by_cases hk : k = d
  · subst hk
    obtain ⟨c, eq⟩ := powerHold_eq (mode := mode) hy
    rw [eq]
    exact ⟨_, programJ_die? _ _ hy, mem_program_powerHold he hn⟩
  · exact ⟨y, by rw [powerHold_die?_other _ hk, hy], he⟩

/-- R180: each die of a list has its POWER HOLD, over the state from which it starts. -/
theorem powerHolds_list {mode : DieSt → Nat} {d : Nat} {s : State} {x : DieSt} (hx : s.die? d = some x) {ds : List Nat}
    (hd : d ∈ ds) :
    ∃ e, HoldsPower s d x (mode x) e ∧ Lists (ds.foldl (fun s d => powerHold (((s.die? d).map mode).getD 0) d s) s) d e := by
  induction ds generalizing s with
  | nil => cases hd
  | cons k ds ih =>
    rw [List.foldl_cons]
    by_cases hk : k = d
    · subst hk
      rw [hx, Option.map_some, Option.getD_some]
      obtain ⟨c, eq⟩ := powerHold_eq (mode := mode x) hx
      have hh : HoldsPower s k x (mode x) ⟨x.jr.next, k, none, .powerHold (mode x) x.jr.epoch (dirtyBytes s k) c s.clk.optime⟩ :=
        ⟨rfl, c, rfl⟩
      have hl : Lists (powerHold (mode x) k s) k ⟨x.jr.next, k, none,
        .powerHold (mode x) x.jr.epoch (dirtyBytes s k) c s.clk.optime⟩ :=
        eq ▸ ⟨_, programJ_die? _ _ hx, mem_program_entries _ _ _ _ rfl⟩
      refine ⟨_, hh, ?_⟩
      generalize powerHold (mode x) k s = t at hl
      clear ih hd eq hx
      induction ds generalizing t with
      | nil => exact hl
      | cons i ds ih => exact ih _ (powerHold_lists hl hh.not_named i)
    · obtain ⟨e, hh, hl⟩ := ih (s := powerHold (((s.die? k).map mode).getD 0) k s) ((powerHold_die?_other _ hk).trans hx)
        ((List.mem_cons.1 hd).resolve_left (Ne.symm hk))
      have f := (powerHold_changes (((s.die? k).map mode).getD 0) k s).frame
      refine ⟨e, ⟨hh.1, hh.2.imp fun c hc => hc.trans ?_⟩, hl⟩
      have hclk : (powerHold (((s.die? k).map mode).getD 0) k s).clk = s.clk := f.same .clk (by decide)
      have hcache : (powerHold (((s.die? k).map mode).getD 0) k s).cache = s.cache := f.same .cache (by decide)
      have hvols : (powerHold (((s.die? k).map mode).getD 0) k s).vols = s.vols := f.same .vols (by decide)
      have hpools : (powerHold (((s.die? k).map mode).getD 0) k s).pools = s.pools := f.same .pools (by decide)
      simp only [dirtyBytes, homeOf, State.vol?, State.pool?, hclk, hcache, hvols, hpools]

end Sys2Proof.Machine
end

section
/-! SUPPORT. What a TICK in the sequence of a power failure leaves of the journals (R169, R179, R180). -/

namespace Sys2Proof.Machine

/-! ### The end of the tick (R173, R349) -/

theorem nextMsg_journals (d : Nat) (s : State) : (nextMsg d s).2.journals = s.journals :=
  (nextMsg_changes d s).frame.journals (by decide)

theorem postSystem_journals (d : Nat) (m : W32) (l : List Seg) (s : State) : (postSystem d m l s).journals = s.journals :=
  (postSystem_changes d m l s).frame.journals (by decide)

/-- R173: what is sent to the partner stays in the journal. -/
theorem mirrorJournal_journals (d : Nat) (s : State) : (mirrorJournal d s).journals = s.journals := by
  unfold mirrorJournal
  dsimp only
  repeat' split
  · rfl
  · rfl
  · rw [postSystem_journals, updJr_journals, nextMsg_journals]
    exact fun _ => rfl

theorem sendMirrors_journals {s : State} (h : s.run.pfail.isSome = true) : (sendMirrors s).journals = s.journals := by
  have sent (s : State) (d : Nat) : (mirrorShadows d (mirrorJournal d (sendAcks d (pumpSystem d s)))).journals = s.journals :=
    ((((mirrorShadows_changes ..).frame.journals (by decide)).trans (mirrorJournal_journals ..)).trans
      ((sendAcks_changes ..).frame.journals (by decide))).trans ((pumpSystem_changes d s).frame.journals (by decide))
  unfold sendMirrors
  split
  · rfl
  · exact foldl_keeps State.journals _ sent ..

theorem freshDie_entries (n : Nat) (x : DieSt) : (freshDie n x).jr.entries = x.jr.entries := by
  unfold freshDie JournalSt.batchOf
  dsimp only
  split <;> rfl

/-- R169, R179: no entry leaves a journal as the next tick begins. -/
theorem nextTick_journals {s : State} (h : s.run.pfail.isSome = true) : (nextTick s).journals = s.journals := by
  have drained : Changes s (drainRegions s) [.regions] := drainRegions_changes s
  have mirrored : (sendMirrors (drainRegions s)).journals = s.journals :=
    (sendMirrors_journals (s := drainRegions s) h).trans (drained.frame.journals (by decide))
  have sent : (sentOff s).journals = s.journals :=
    ((((emit_changes ..).frame.journals (by decide)).trans ((sendMessages_changes _).frame.journals (by decide))).trans
      ((sendIdles_changes _).frame.journals (by decide))).trans mirrored
  rw [nextTick_eq, ← sent]
  exact map_map_same (freshDie_entries _) _

/-! ### The tick that begins -/

theorem takenIn_journals {i : TickIn} {s : State} (h : s.run.pfail.isSome = true) :
    (takenIn i s).journals = s.journals ∧ (takenIn i s).run = s.run ∧ (takenIn i s).clk = s.clk := by
  have c := intakeRings_changes i.costs s
  have hrun : (intakeRings i.costs s).run = s.run := c.frame.same .run (by decide)
  have stopped : (intakeRings i.costs s).running = false := by
    simp [State.running, hrun, Option.isNone_eq_false_iff.2 h]
  have drops (b : BadFetch) : badFetch b (intakeRings i.costs s) = intakeRings i.costs s := by
    unfold badFetch
    split
    · rfl
    · next r _ =>
      have : takes (intakeRings i.costs s) r .nop b.entry = false := Bool.not_eq_true _ ▸ fun k => by
        rw [takes_running k] at stopped
        cases stopped
      simp [this]
  have e : takenIn i s = intakeRings i.costs s := by
    have hd : s.drives = false := by simp [State.drives, Option.isNone_eq_false_iff.2 h]
    rw [takenIn, if_neg (by simp [hd])]
    exact foldl_same fun b _ => drops b
  rw [e]
  exact ⟨c.frame.journals (by decide), hrun, c.frame.same .clk (by decide)⟩

theorem frameWork_journals {i : TickIn} {s : State} (h : s.run.pfail.isSome = true) :
    (frameWork i s).journals = s.journals ∧ (frameWork i s).run = s.run ∧ (frameWork i s).clk = s.clk := by
  have k := takenIn_journals (i := i) h
  have stopped : (takenIn i s).running = false := by
    rw [State.running, k.2.1, Option.isNone_eq_false_iff.2 h, Bool.and_false]
  rw [frameWork_eq, if_pos (by simp [stopped])]
  exact k

theorem begun_journals {i : TickIn} {s : State} (h : s.run.pfail.isSome = true) :
    (begun i s).journals = s.journals ∧ (begun i s).run = s.run ∧ (begun i s).clk.tick = s.clk.tick := by
  have ahead : Frame s (holdAges (notePower i.partnerP3 (enforced s))) enforcing :=
    (((enforced_turns s).frame).trans ((notePower_steady ..).frame.mono (by decide))).trans
      ((holdAges_changes _).frame.mono (by decide))
  have hrun : (holdAges (notePower i.partnerP3 (enforced s))).run = s.run := ahead.same .run (by decide)
  have hclk : (holdAges (notePower i.partnerP3 (enforced s))).clk = s.clk := ahead.same .clk (by decide)
  obtain ⟨kj, kr, kc⟩ := frameWork_journals (i := i) (s := holdAges (notePower i.partnerP3 (enforced s))) (hrun ▸ h)
  generalize hu : frameWork i (holdAges (notePower i.partnerP3 (enforced s))) = u at kj kr kc
  have after : Frame u (begun i s) [.clk, .hw] := by
    rw [begun, hu]
    exact ((ticksync_steady ..).frame.mono (by decide)).trans ((countCut_changes _).frame.mono (by decide))
  have htick : (begun i s).clk.tick = u.clk.tick := by
    have hcut : (begun i s).clk = (ticksync i.tsOffset u).clk := by
      rw [begun, hu]
      exact (countCut_changes _).frame.same .clk (by decide)
    rw [hcut]
    unfold ticksync
    dsimp only
    repeat' split
    all_goals rfl
  exact ⟨((after.journals (by decide)).trans kj).trans (ahead.journals (by decide)),
    (show (begun i s).run = u.run from after.same .run (by decide)).trans (kr.trans hrun), htick.trans (by rw [kc, hclk])⟩

/-! ### Its guard period -/

/-- R349: after tick t + 2 of a power failure nothing is done for the pair. -/
theorem guardPair_journals {i : TickIn} {s : State} {t0 : Nat} (h : s.run.pfail = some t0) (ht : t0 + 2 < s.clk.tick) :
    (guardPair i s).journals = s.journals := by
  unfold guardPair
  rw [if_pos (by simp [beats, h, ht])]
  rfl

theorem pressure_journals (d : Nat) (s : State) : (pressure d s).journals = s.journals := by
  have pressed (f : JournalSt → JournalSt) (h : ∀ j, (f j).entries = j.entries) := updJr_journals s d h
  unfold pressure
  dsimp only
  split
  · exact ((queueOldest_stays ..).frame.journals (by decide)).trans (pressed _ fun _ => rfl)
  · exact pressed _ fun _ => rfl

theorem pressureAll_journals (s : State) : (pressureAll s).journals = s.journals := by
  unfold pressureAll
  split
  · exact foldl_keeps State.journals _ (fun s d => pressure_journals d s) ..
  · rfl

/-- R169, R180: no entry leaves a journal in a tick of a power failure, past its tick t + 2. -/
theorem restOf_journals {i : TickIn} {s : State} {t0 : Nat} (h : s.run.pfail = some t0) (ht : t0 + 2 < s.clk.tick) :
    (restOf i s).journals = s.journals := by
  obtain ⟨kj, kr, kc⟩ := begun_journals (i := i) (s := s) (by simp [h])
  have paired := guardPair_journals (i := i) (s := begun i s) (kr ▸ h) (kc ▸ ht)
  have powered := ((powerWork_turns i _).frame.journals (by decide)).trans
    ((selfTests_steady i (guardPair i (begun i s))).frame.journals (by decide))
  have ended (u : State) : (tripTick (recordWork i (giveUpProt u))).journals = u.journals :=
    ((tripTick_steady _).frame.journals (by decide)).trans
      (((recordWork_steady i _).frame.journals (by decide)).trans ((giveUpProt_steady u).frame.journals (by decide)))
  exact (ended _).trans ((pressureAll_journals _).trans (powered.trans (paired.trans kj)))

/-! ### What ends with tick t + 2 (R180) -/

/-- R229: without a member failure of this tick no slot is given. -/
theorem settleFailures_self {s : State} (h : ∀ q ∈ s.pools, q.unsettled = false) : settleFailures s = s := by
  have none_new {n : Nat} {p : Pool} (hp : s.pool? n = some p) {m : Member} (hm : m ∈ p.members ++ p.pending) :
      m.failTick.isNone = true := by
    have k := h p (List.mem_of_find?_eq_some hp)
    rw [Pool.unsettled, List.any_eq_false] at k
    simpa using k m hm
  have member (n x : Nat) : settleFailure n s x = s := by
    unfold settleFailure
    split
    · rfl
    · next p hp =>
      split
      · rfl
      · next m hm => exact if_pos (none_new hp (List.mem_append_left _ (List.mem_of_getElem? hm)))
  have pending (n x : Nat) : settlePending n s x = s := by
    unfold settlePending
    split
    · rfl
    · next p hp =>
      split
      · rfl
      · next m hm => exact if_pos (none_new hp (List.mem_append_right _ (List.mem_of_getElem? hm)))
  refine foldl_same fun q _ => ?_
  rw [foldl_same fun x _ => member q.num x]
  exact foldl_same fun x _ => pending q.num x

/-- R63, R180: what ends with tick t + 2 of a power failure are the journals. -/
theorem guarded_eq {i : TickIn} {s : State} {t0 : Nat} (hf : s.run.pfail = some t0) (ht : s.clk.tick = t0 + 2)
    (hp : 4 < s.run.phase)
    (hq : ∀ q ∈ s.pools, q.unsettled = false) : guarded i s = powerHolds holdMode s := by
  have hr : s.running = false := by simp [State.running, hf]
  have hd : deadlines i.slowReads s = s := by
    unfold deadlines
    rw [if_pos (by simp [hr])]
  rw [guarded, hd, settleFailures_self hq, lastHolds, if_pos (by simp [hf, ht, hp])]

/-- R180: with the TICK that ends tick t + 2 of a power failure each die in service has its POWER HOLD. -/
theorem tick_holds {i : TickIn} {s : State} {t0 d : Nat} {x : DieSt} (hpow : s.run.powered = true) (hf : s.run.pfail = some t0)
    (ht : s.clk.tick = t0 + 2) (hp : 4 < s.run.phase) (hx : s.die? d = some x) (ha : x.alive = true)
    (hq : ∀ q ∈ s.pools, q.unsettled = false) : ∃ e, HoldsPower s d x (holdMode x) e ∧ Lists (tick i s) d e := by
  have hd : d ∈ s.aliveDies := by
    have hlt : d < s.dies.length := (List.getElem?_eq_some_iff.1 hx).1
    exact List.mem_filter.2 ⟨List.mem_range.2 hlt, by simp [State.alive, hx, ha]⟩
  obtain ⟨e, hh, hl⟩ := powerHolds_list (mode := holdMode) hx hd
  refine ⟨e, hh, hl.of_journals ?_⟩
  have f := (powerHolds_changes holdMode s).frame
  have hrun : (powerHolds holdMode s).run = s.run := f.same .run (by decide)
  have hclk : (powerHolds holdMode s).clk = s.clk := f.same .clk (by decide)
  have c := (nextTick_changes (powerHolds holdMode s)).frame
  have hrun' : (nextTick (powerHolds holdMode s)).run.pfail = some t0 := by
    rw [show (nextTick (powerHolds holdMode s)).run = _ from c.same .run (by decide), hrun, hf]
  have htick : (nextTick (powerHolds holdMode s)).clk.tick = t0 + 3 := by
    rw [nextTick_eq]
    show (powerHolds holdMode s).clk.tick + 1 = _
    rw [hclk, ht]
  rw [tick_eq hpow, guarded_eq hf ht hp hq, restOf_journals hrun' (by omega)]
  exact nextTick_journals (by rw [hrun, hf]; rfl)

end Sys2Proof.Machine
end

section
/-! PROOF. Power failure, backup, and the loss and return of power (R179 to R185, R407, R432, R539). -/

namespace Sys2Proof.Machine

/-! ### PFAIL (R179, R407) -/

theorem thaw_frozen (s : State) : (thaw s).log.frozen = false := by
  unfold thaw
  dsimp only
  refine (congrArg LogSt.frozen (foldl_keeps State.log _ (fun s x => ?_) ..)).trans rfl
  split
  · exact (raise_changes ..).frame.same .log (by decide)
  · rfl

/-- R179: PFAIL's tick, and what holds until its end. -/
def powerFailing (s : State) : State :=
  { s with run := { s.run with pfail := some s.clk.tick, pfReady := s.ready, pfOff := none, pfEnd := none, vaulted := [],
                               selfRefresh := s.run.selfRefresh && !s.aliveDies.any fun d => (s.die? d).any (·.vault) } }

/-- R294: a powerFailing package that no longer holds its records. -/
def thawed (s : State) : State := if s.log.frozen then thaw s else s

theorem thawed_changes (s : State) : Changes s (thawed s) (.log :: raising) := by
  unfold thawed
  split
  · exact thaw_changes s
  · exact .refl ..

theorem thawed_frozen (s : State) : (thawed s).log.frozen = false := by
  unfold thawed
  split
  · exact thaw_frozen s
  · next h => simpa using h

theorem pfail_fails {s : State} (hp : s.run.powered = true) (hf : s.run.pfail = none) :
    Runs .pfail s (.log :: .run :: raising) fun t =>
      t.run.pfail = some s.clk.tick ∧ t.run.pfReady = s.ready ∧ t.log.frozen = false ∧ ∀ x ∈ t.dies, x.recd.prewrite = [] := by
  have e : exec .pfail s = .next (programEvery (thawed (powerFailing s))) :=
    congrArg Host.Outcome.next (if_pos ⟨hp, by rw [hf]; rfl⟩)
  have thaws := thawed_changes (powerFailing s)
  have programs := programEvery_changes (thawed (powerFailing s))
  have hrun : (programEvery (thawed (powerFailing s))).run = (powerFailing s).run :=
    (show _ = (thawed (powerFailing s)).run from programs.frame.same .run (by decide)).trans (thaws.frame.same .run (by decide))
  have hlog : (programEvery (thawed (powerFailing s))).log = (thawed (powerFailing s)).log := programs.frame.same .log (by decide)
  refine .of_changes e ((((run_changes s _).mono (by decide)).step thaws (by decide)).step programs (by decide) :
    Changes s _ (.log :: .run :: raising))
    ⟨?_, ?_, ?_, programEvery_empties _⟩ fun _ h => h
  · rw [hrun]; rfl
  · rw [hrun]; rfl
  · rw [hlog]; exact thawed_frozen _

/-! ### The end of the sequence (R180, R185) -/

theorem sequenceEnd_eq (s : State) : ∃ e r, sequenceEnd s = { s with run := { s.run with pfEnd := e, selfRefresh := r } } ∧
    (s.run.selfRefresh = true → r = true) := by
  unfold sequenceEnd
  split
  · exact ⟨_, _, rfl, fun _ => rfl⟩
  · exact ⟨s.run.pfEnd, s.run.selfRefresh, rfl, id⟩

theorem sequenceEnd_ends {s : State} (he : s.run.pfEnd = none) (hv : vaultsLeft s = [])
    (hb : anyHold s = false ∨ s.run.backupEn = true) :
    (sequenceEnd s).run = { s.run with pfEnd := some s.clk.tick, selfRefresh := true } := by
  unfold sequenceEnd
  rw [if_pos ⟨by rw [he]; rfl, by rw [hv]; rfl, hb.imp (by rw [·]; rfl) id⟩]

theorem sequenceEnd_changes (s : State) : Changes s (sequenceEnd s) [.run] := by
  unfold sequenceEnd
  split
  · exact run_changes ..
  · exact .refl ..

theorem backupEnRaise_raises {s : State} {t0 : Nat} (hp : s.run.powered = true) (hf : s.run.pfail = some t0)
    (hb : s.run.backupEn = false)
    (hh : anyHold s = true) (ht : t0 + 50 ≤ s.clk.tick) : Runs .backupEnRaise s [.run] fun t =>
      t.run.backupEn = true ∧ t.run.selfRefresh = true ∧
        (vaultsLeft s = [] → s.run.pfEnd = none → t.run.pfEnd = some s.clk.tick) := by
  generalize hu : ({ s with run := { s.run with backupEn := true, selfRefresh := true } } : State) = u
  have e : exec .backupEnRaise s = .next (sequenceEnd u) := by
    show Host.Outcome.next (backupEnRaise s) = _
    rw [backupEnRaise, hf, ← hu]
    exact congrArg _ (if_neg (by simp [hp, hb, hh, Nat.not_lt.2 ht]))
  refine .of_changes e ((hu ▸ run_changes ..).step (sequenceEnd_changes u) fun _ h => h) ⟨?_, ?_, fun hv he => ?_⟩ fun _ h => h
  · obtain ⟨_, _, eq, -⟩ := sequenceEnd_eq u
    rw [eq, ← hu]
  · obtain ⟨_, _, eq, hr⟩ := sequenceEnd_eq u
    rw [eq]
    exact hr (by rw [← hu])
  · rw [sequenceEnd_ends (by rw [← hu]; exact he) (by rw [← hu]; exact hv) (.inr (by rw [← hu])), ← hu]

/-! ### VAULT DONE (R185) -/

/-- The dies in service, and their modes, are the same. -/
theorem Frame.aliveDies {s t : State} {l : List Field} (f : Frame s t l) (h : .health ∉ l) : t.aliveDies = s.aliveDies := by
  have k : t.dies.map DieSt.core = s.dies.map DieSt.core := f.same .health h
  have hlen : t.dies.length = s.dies.length := by simpa using congrArg List.length k
  rw [State.aliveDies, State.aliveDies, State.dieIdx, State.dieIdx, hlen, alive_congr k]

theorem Frame.vaults {s t : State} {l : List Field} (f : Frame s t l) (h : .health ∉ l) (d : Nat) :
    (t.die? d).map (·.vault) = (s.die? d).map (·.vault) := by
  have k : t.dies.map (·.vault) = s.dies.map (·.vault) := by
    simpa [Function.comp_def, DieSt.core] using congrArg (List.map DieSt.vault) (f.same .health h)
  simpa [State.die?] using congrArg (·[d]?) k

theorem mem_vaultsLeft {s : State} {d : Nat} :
    d ∈ vaultsLeft s ↔ d ∈ s.aliveDies ∧ (s.die? d).map (·.vault) = some true ∧ d ∉ s.run.vaulted := by
  rw [vaultsLeft, List.mem_filter]
  cases s.die? d <;> simp

theorem any_eq_map_getD {α : Type} (p : α → Bool) (o : Option α) : o.any p = (o.map p).getD false := by cases o <;> rfl

theorem Frame.anyHold {s t : State} {l : List Field} (f : Frame s t l) (h : .health ∉ l) : anyHold t = anyHold s := by
  have k (d : Nat) : ((t.die? d).any fun x => !x.vault) = (s.die? d).any fun x => !x.vault := by
    have e := congrArg (Option.map not) (f.vaults h d)
    rw [Option.map_map, Option.map_map] at e
    rw [any_eq_map_getD, any_eq_map_getD]
    exact congrArg (Option.getD · false) e
  rw [Machine.anyHold, Machine.anyHold, f.aliveDies h]
  simp only [k]

/-- R185: the state once the image of die d is written, before its sequence ends. -/
def imaged (d c : Nat) (s : State) : State :=
  let u := programJ d none (.vaultDone (imageBytes s d) (BitVec.ofNat 32 (Config.freeNat c)))
    (writeImage d { s with free := s.free + 1 })
  { u with run := { u.run with vaulted := insNat d u.run.vaulted } }

theorem writeImage_changes (d : Nat) (s : State) : Changes s (writeImage d s) [.out] := emit_changes ..

theorem imaged_changes (d c : Nat) (s : State) : Changes s (imaged d c s) [.free, .jr, .out, .run] :=
  ((((free_changes s _).mono (by decide)).step (writeImage_changes d _) (by decide)).step (programJ_changes ..) (by decide)).step
    (run_changes ..) (by decide)

theorem imaged_run (d c : Nat) (s : State) : (imaged d c s).run = { s.run with vaulted := insNat d s.run.vaulted } := by
  have h := ((((free_changes s (s.free + 1)).mono (by decide)).step (writeImage_changes d _) (by decide)).step
    (programJ_changes d none (.vaultDone (imageBytes s d) (BitVec.ofNat 32 (Config.freeNat c))) _) (by decide) :
      Changes s _ [.free, .jr, .out])
  have hrun := h.frame.same .run (by decide)
  show ({ State.run _ with vaulted := insNat d (State.run _).vaulted } : RunSt) = _
  rw [hrun]

theorem vaultDone_exec {s : State} {t0 d : Nat} (hp : s.run.powered = true) (hf : s.run.pfail = some t0) (hd : d ∈ vaultsLeft s)
    (ht : t0 + 3 + vaultTicks s d ≤ s.clk.tick) : exec (.vaultDone d) s = .next (sequenceEnd (imaged d s.free s)) := by
  show Host.Outcome.next (vaultDone d s) = _
  rw [vaultDone, hf]
  exact congrArg _ (if_neg (by simp [hp, hd, Nat.not_lt.2 ht]))

theorem imaged_vaultsLeft {s : State} {d c : Nat} (h : vaultsLeft s = [d]) : vaultsLeft (imaged d c s) = [] := by
  have f := (imaged_changes d c s).frame
  refine List.eq_nil_iff_forall_not_mem.2 fun e he => ?_
  obtain ⟨ha, hv, hn⟩ := mem_vaultsLeft.1 he
  rw [imaged_run] at hn
  have : e ∈ vaultsLeft s := mem_vaultsLeft.2 ⟨f.aliveDies (by decide) ▸ ha, (f.vaults (by decide) e) ▸ hv,
    fun k => hn (mem_insNat.2 (.inr k))⟩
  rw [h, List.mem_singleton] at this
  exact hn (mem_insNat.2 (.inl this))

theorem vaultDone_vaults {s : State} {t0 d : Nat} {x : DieSt} (hp : s.run.powered = true) (hf : s.run.pfail = some t0)
    (hd : d ∈ vaultsLeft s)
    (hx : s.die? d = some x) (ht : t0 + 3 + vaultTicks s d ≤ s.clk.tick) :
    Runs (.vaultDone d) s [.free, .jr, .out, .run] fun t => d ∈ t.run.vaulted ∧
      (∃ b, Puts s t (.vault d b (x.jr.entries.flatMap JEntry.bytes))) ∧
      (∃ y e c, t.die? d = some y ∧ e ∈ y.jr.entries ∧ e.jsn = x.jr.next ∧ e.body = .vaultDone (imageBytes s d) c) ∧
      (vaultsLeft s = [d] → s.run.pfEnd = none → (anyHold s = false ∨ s.run.backupEn = true) →
        t.run.pfEnd = some s.clk.tick ∧ t.run.selfRefresh = true) := by
  have c := imaged_changes d s.free s
  obtain ⟨b, r, eq, -⟩ := sequenceEnd_eq (imaged d s.free s)
  refine .of_changes (vaultDone_exec hp hf hd ht) (c.step (sequenceEnd_changes _) (by decide))
    ⟨?_, ⟨?_, ?_⟩, ?_, fun hl he hb => ?_⟩
    fun _ h => h
  · rw [eq, imaged_run]
    exact mem_insNat.2 (.inl rfl)
  · exact (s.cache.filter fun b => b.dirty && homeOf s b.vol == some d).flatMap fun b => b.data ++ b.pi
  · have put : Puts s (writeImage d { s with free := s.free + 1 }) (.vault d
        ((s.cache.filter fun b => b.dirty && homeOf s b.vol == some d).flatMap fun b => b.data ++ b.pi)
        ((((s.die? d).map (·.jr.entries)).getD []).flatMap JEntry.bytes)) := ⟨[], [], rfl⟩
    rw [hx] at put
    exact ((put.later (programJ_changes ..).grows).later (run_changes ..).grows).later (sequenceEnd_changes _).grows
  · rw [eq]
    have hw : (writeImage d { s with free := s.free + 1 }).die? d = some x := hx
    exact ⟨_, _, _, programJ_die? _ _ hw, mem_program_entries _ _ _ _ rfl, rfl, rfl⟩
  · have hrun := imaged_run d s.free s
    have hclk : (imaged d s.free s).clk = s.clk := c.frame.same .clk (by decide)
    rw [sequenceEnd_ends (by rw [hrun]; exact he) (imaged_vaultsLeft hl) (by rw [hrun, c.frame.anyHold (by decide)]; exact hb),
      hclk]
    exact ⟨rfl, rfl⟩

/-! ### Power that returns (R182) -/

/-- R182: service goes on: the power failure is over. -/
def RunSt.resumed (selfRefresh : Bool) (r : RunSt) : RunSt :=
  { r with
    pfail := none, pfReady := false, pfOff := none, pfEnd := none, vaulted := [], backupEn := false
    selfRefresh := selfRefresh }

theorem powerReturned_exec {s u : State} {o e : Nat} (hp : s.run.powered = true) (ho : s.run.pfOff = some o)
    (he : s.run.pfEnd = some e)
    (htrip : s.pw.trip = false) (ht : max o e + 250 ≤ s.clk.tick)
    (hu : (if s.run.pfReady then resumeService s else restart s) = u) : exec .powerReturned s = .next (settle u) := by
  show Host.Outcome.next (settle (powerReturned s)) = _
  rw [powerReturned, ho, he, ← hu]
  exact congrArg (fun u => Host.Outcome.next (settle u)) (if_neg (by simp only [hp, htrip]; simpa using ht))

theorem resumeService_changes (s : State) : Changes s (resumeService s) (.run :: .cmds :: .rings :: raising) :=
  (((run_changes s _).mono (by decide)).step (raisePkg_changes ..) (by decide)).step (markLate_changes ..) (by decide)

theorem markLate_all (n : Nat) (s : State) :
    (markLate n (fun _ => true) s).cmds = s.cmds.map fun c => { c with late := true, outside := true, ext := c.ext + n } := by
  simp [markLate, updIf]

theorem resumeService_resumes {s : State} (hl : (s.die? s.id.lead).isSome) :
    (resumeService s).run = s.run.resumed (s.pw.pstate == 3) ∧ (resumeService s).cmds.map (·.ref) = s.cmds.map (·.ref) ∧
      (∀ c ∈ (resumeService s).cmds, c.late = true) ∧ Pending (resumeService s) s.id.lead 0x6012 := by
  generalize hu : ({ s with run := s.run.resumed (s.pw.pstate == 3) } : State) = u
  have e : resumeService s = markLate (s.clk.tick - s.run.pfail.getD s.clk.tick) (fun _ => true) (raisePkg 0x6012 {} u) := by
    rw [← hu]; rfl
  have raised := raisePkg_changes 0x6012 {} u
  have hcmds : (raisePkg 0x6012 {} u).cmds = s.cmds := (raised.frame.same .cmds (by decide)).trans (by rw [← hu])
  have hrun : (raisePkg 0x6012 {} u).run = s.run.resumed (s.pw.pstate == 3) :=
    (raised.frame.same .run (by decide)).trans (by rw [← hu])
  rw [e]
  refine ⟨hrun, ?_, fun c hc => ?_, ?_⟩
  · rw [markLate_all, hcmds, List.map_map]
    rfl
  · rw [markLate_all] at hc
    obtain ⟨_, -, rfl⟩ := List.mem_map.1 hc
    rfl
  · have hid : u.id = s.id := by rw [← hu]
    have hd : u.die? s.id.lead = s.die? s.id.lead := by rw [← hu]; rfl
    have k : Pending (raisePkg 0x6012 {} u) u.id.lead 0x6012 := raise_sets _ _ (by rw [hid, hd]; exact hl)
    exact hid ▸ k

theorem restart_after (s : State) : AfterReset s (restart s) := by
  refine ⟨⟨rfl, rfl, rfl, rfl⟩, ⟨rfl, rfl, rfl, rfl⟩, ⟨rfl, rfl, rfl, rfl, rfl⟩, rfl, ⟨rfl, rfl⟩, fun x hx => ?_, fun x hx => ?_,
    rfl, ⟨?_, ?_⟩, ⟨rfl, rfl⟩, restart_frame s⟩
  · obtain ⟨y, rfl⟩ := resetDie_mem hx
    exact ⟨rfl, rfl, rfl, rfl⟩
  · obtain ⟨y, -, rfl⟩ := List.mem_map.1 hx
    rfl
  · simp only [restart, List.map_map]; rfl
  · simp only [restart, List.map_map]; rfl

/-! ### The loss of power (R432, R539) -/

theorem takeFeats_kept (s : State) :
    s.takeFeats.pools.map (·.geom) = s.pools.map (·.geom) ∧ s.takeFeats.dies.map (·.saved) = s.dies.map (·.saved) := by
  have one (s : State) (f : Later) : ((s.takeLater f).pools.map (·.geom), (s.takeLater f).dies.map (·.saved)) =
      (s.pools.map (·.geom), s.dies.map (·.saved)) := by
    cases f with
    | hold d h => exact congrArg _ (updDie_map _ _ _ _ fun _ => rfl)
    | age p n => exact congrArg (·, _) (updIf_map_same (f := fun p : Pool => { p with age := n }) (fun _ => rfl) _)
    | _ => rfl
  exact Prod.ext_iff.1 (foldl_keeps (fun s : State => (s.pools.map (·.geom), s.dies.map (·.saved))) State.takeLater one ..)

theorem darken_frame (s : State) : Frame s (darken s) (.eid :: .nss :: resetting) := by
  refine ⟨fun k hk => ?_⟩
  cases k with
  | id | seq | uniq | nextPlan | uids | pending => rfl
  | _ => simp at hk

theorem darken_dies (s : State) : (darken s).dies = s.dies.map (darkDie s.run.backupEn) := rfl

theorem powerLoss_loses {s : State} (hp : s.run.powered = true) : Runs .powerLoss s (.eid :: .nss :: resetting) fun t =>
    t.run = { RunSt.reset with powered := false } ∧ t.clk.tick = 0 ∧ t.clk.optime = s.clk.optime ∧
      t.clk.powerCycles = s.clk.powerCycles ∧
    t.rings = [] ∧ t.cmds = [] ∧ t.cache = s.cache.filter (·.dirty) ∧ t.pools.map (·.geom) = s.pools.map (·.geom) ∧
    t.dies.map (·.recd.slots) = s.dies.map (·.recd.slots) ∧ t.dies.map (·.jr.entries) = s.dies.map (·.jr.unprogrammed.entries) ∧
    t.dies.map (·.saved) = s.dies.map (·.saved) := by
  have e : exec .powerLoss s = .next (darken s.takeFeats) := congrArg Host.Outcome.next (if_pos hp)
  have f := (takeFeats_turns s).frame
  have hclk : s.takeFeats.clk = s.clk := f.same .clk (by decide)
  have hcache : s.takeFeats.cache = s.cache := f.same .cache (by decide)
  have hrecd : s.takeFeats.dies.map (·.recd) = s.dies.map (·.recd) := f.same .recd (by decide)
  have hjr : s.takeFeats.dies.map (·.jr) = s.dies.map (·.jr) := f.same .jr (by decide)
  have dark {β : Type} (g h : DieSt → β) (k : ∀ b x, g (darkDie b x) = h x) :
      (darken s.takeFeats).dies.map g = s.takeFeats.dies.map h := by
    rw [darken_dies, List.map_map]
    exact List.map_congr_left fun x _ => k _ x
  refine ⟨_, e, ⟨rfl, rfl, show s.takeFeats.clk.optime = _ by rw [hclk], show s.takeFeats.clk.powerCycles = _ by rw [hclk],
    rfl, rfl,
    congrArg (List.filter fun b : CBlk => b.dirty) hcache, ?_, ?_, ?_, ?_⟩, (f.mono (by decide)).trans (darken_frame _)⟩
  · rw [← (takeFeats_kept s).1]
    simp only [darken, restart, List.map_map]
    rfl
  · rw [dark _ (·.recd.slots) fun _ _ => rfl]
    simpa [Function.comp_def] using congrArg (List.map RecorderSt.slots) hrecd
  · rw [dark _ (·.jr.unprogrammed.entries) fun _ _ => rfl]
    simpa [Function.comp_def] using congrArg (List.map fun j : JournalSt => j.unprogrammed.entries) hjr
  · rw [dark _ (·.saved) fun _ _ => rfl]
    exact (takeFeats_kept s).2

/-- Settles O45: the parts of PFAIL's sequence, its TICK t + 2 by the POWER HOLD that stays in each journal,
power that returns and power that is lost. -/
theorem powerFails : Obligations.PowerFails := by
  unfold Obligations.PowerFails
  refine ⟨fun s hp hf => pfail_fails hp hf, fun i s t0 d x hp hf ht hph hx ha hq => ?_, fun s t0 hp hf => ⟨?_, ?_, ?_⟩,
    fun s o e hp ho he htrip ht => ⟨fun hr hl => ?_, fun hr => ?_⟩, fun s hp => powerLoss_loses hp⟩
  · obtain ⟨e, ⟨hj, c, hb⟩, y, hy, hm⟩ := tick_holds (i := i) hp hf ht hph hx ha hq
    exact ⟨_, y, e, c, rfl, hy, hm, hj, hb⟩
  · exact fun hb hh ht => backupEnRaise_raises hp hf hb hh ht
  · exact fun d x hd hx ht => vaultDone_vaults hp hf hd hx ht
  · intro ho
    have e : exec .pfailDeassert s = .next { s with run := { s.run with pfOff := some s.clk.tick } } :=
      congrArg Host.Outcome.next (if_pos ⟨hp, by rw [hf]; rfl, by rw [ho]; rfl⟩)
    exact .of_changes e (run_changes ..) rfl fun _ h => h
  · exact .of_changes (powerReturned_exec hp ho he htrip ht (if_pos hr)) (resumeService_changes s) (resumeService_resumes hl)
      fun _ h => h
  · exact ⟨_, powerReturned_exec hp ho he htrip ht (if_neg (by simp [hr])), restart_after s, restart_frame s⟩

end Sys2Proof.Machine
end

section
/-! SUPPORT. Member commands: one of them changed, over, or resubmitted; what their end leaves of members,
and what a member that fails leaves of them (R222, R226 to R229). -/

namespace Sys2Proof.Machine

/-! ### One member command -/

theorem mcmd?_id {s : State} {i : Nat} {m : MCmd} (h : s.mcmd? i = some m) : m.id = i := by simpa using List.find?_some h

theorem updMcmd_changes (s : State) (i : Nat) (f : MCmd → MCmd) : Changes s (s.updMcmd i f) [.mcmds] := mcmds_changes ..

theorem endMcmd_changes (s : State) (i : Nat) : Changes s (s.endMcmd i) [.mcmds] := mcmds_changes ..

theorem closeMcmd_changes (m : MCmd) (s : State) : Changes s (s.closeMcmd m) [.mcmds] := by
  unfold State.closeMcmd
  split
  · exact updMcmd_changes ..
  · exact endMcmd_changes ..

theorem resubmit_changes (m : MCmd) (s : State) : Changes s (resubmit m s) [.mcmds] := updMcmd_changes ..

theorem resubmitLater_changes (m : MCmd) (s : State) : Changes s (resubmitLater m s) [.mcmds] :=
  (resubmit_changes ..).trans (updMcmd_changes ..)

theorem Changes.mcmd? {s t : State} {l : List Field} (h : Changes s t l) (e : .mcmds ∉ l) (i : Nat) : t.mcmd? i = s.mcmd? i :=
  congrArg (List.find? fun m : MCmd => m.id == i) (h.frame.same .mcmds e)

theorem updMcmd_mcmd? {s : State} {i : Nat} {m : MCmd} {f : MCmd → MCmd} (hf : ∀ x, (f x).id = x.id) (h : s.mcmd? i = some m) :
    (s.updMcmd i f).mcmd? i = some (f m) := by
  have k := find?_updIf (fun x : MCmd => x.id == i) f (fun x hx => by rw [hf]; exact hx) s.mcmds
  rw [show s.mcmds.find? (fun x => x.id == i) = some m from h] at k
  exact k

theorem endMcmd_mcmd? (s : State) (i : Nat) : (s.endMcmd i).mcmd? i = none := by
  simp [State.endMcmd, State.mcmd?, List.find?_eq_none]

/-- R226: an attempt with a result that counts ends the command, or leaves a write watched. -/
theorem closeMcmd_ends {s : State} {m : MCmd} (h : m.left ≤ 1) : (s.closeMcmd m).mcmd? m.id = none := by
  rw [State.closeMcmd, if_neg (by omega)]
  exact endMcmd_mcmd? ..

theorem closeMcmd_watches {s : State} {m : MCmd} (h : s.mcmd? m.id = some m) (hw : m.isWrite = true) (hl : 1 < m.left) :
    (s.closeMcmd m).mcmd? m.id = some { m with purpose := .spent, left := m.left - 1 } := by
  rw [State.closeMcmd, if_pos ⟨hw, hl⟩]
  exact updMcmd_mcmd? (fun _ => rfl) h

/-- R226: the path of the next attempt. -/
def pathAfter (s : State) (m : MCmd) : Nat := ((s.ns? m.ns).map fun n => nextPath n m.path).getD m.path

/-- R226: the attempt on the next path, of a command whose record is x. -/
def MCmd.onNext (s : State) (m x : MCmd) : MCmd := { x with path := pathAfter s m, sgl := sglOn s m.ns (pathAfter s m) }

theorem onNext_congr {s t : State} (h : t.nss = s.nss) (m x : MCmd) : m.onNext t x = m.onNext s x := by
  simp only [MCmd.onNext, pathAfter, sglOn, State.ns?, h]

theorem resubmit_mcmd? {s : State} {m x : MCmd} (h : s.mcmd? m.id = some x) : (resubmit m s).mcmd? m.id = some (m.onNext s x) :=
  updMcmd_mcmd? (fun _ => rfl) h

theorem resubmitLater_mcmd? {s : State} {m x : MCmd} (h : s.mcmd? m.id = some x) :
    (resubmitLater m s).mcmd? m.id = some { m.onNext s x with redo := some s.clk.tick } :=
  updMcmd_mcmd? (fun _ => rfl) (resubmit_mcmd? h)

/-! ### The member that a namespace is -/

/-- A change of the member that a namespace is, in one pool. -/
def Pool.onMember (ns : Nat) (f : Member → Member) (p : Pool) : Pool :=
  { p with members := updIf (·.ns == ns) f p.members, pending := updIf (·.ns == ns) f p.pending }

theorem updMember_changes (s : State) (ns : Nat) (f : Member → Member) : Changes s (s.updMember ns f) [.pools] :=
  Frame.changes ⟨fun k hk => by cases k with | pools => simp at hk | _ => rfl⟩ (by decide) (.of_eq rfl)

theorem updMember_pool? (s : State) (ns n : Nat) (f : Member → Member) :
    (s.updMember ns f).pool? n = (s.pool? n).map (Pool.onMember ns f) := List.find?_map ..

/-- R226: a suspect member is online again. -/
def Member.returned (m : Member) : Member := if m.state = .suspect then { m with state := .online } else m

theorem returned_map {β : Type} {g : Member → β} (h : ∀ (m : Member) (x : MState), g { m with state := x } = g m) (m : Member) :
    g m.returned = g m := by
  unfold Member.returned
  split
  · exact h ..
  · rfl

theorem returned_failed {m : Member} (h : m.state = .failed) : m.returned = m := if_neg (by simp [h])

theorem recover_changes (ns : Nat) (s : State) : Changes s (recover ns s) [.pools] := by
  unfold recover
  split
  · exact .refl ..
  · exact updMember_changes ..

/-- R226: recovery returns members of a pool. -/
theorem recover_pool? {s : State} {n : Nat} {q : Pool} (ns : Nat) (h : s.pool? n = some q) :
    ∃ q' p, (recover ns s).pool? n = some q' ∧ q'.members = updIf p Member.returned q.members := by
  unfold recover
  split
  · exact ⟨q, fun _ => false, h, by simp [updIf]⟩
  · exact ⟨q.onMember ns Member.returned, (·.ns == ns), (updMember_pool? s ns n Member.returned).trans (by rw [h]; rfl), rfl⟩

theorem recover_mcmd? (ns : Nat) (s : State) (i : Nat) : (recover ns s).mcmd? i = s.mcmd? i :=
  (recover_changes ns s).mcmd? (by decide) i

/-! ### Member commands when a member fails (R229) -/

/-- No member command is new, nor does one go to another member. -/
structure NoneNew (s t : State) : Prop where
  old : ∀ c ∈ t.mcmds, ∃ b ∈ s.mcmds, b.ns = c.ns ∧ b.pool = c.pool

theorem NoneNew.refl (s : State) : NoneNew s s := ⟨fun c hc => ⟨c, hc, rfl, rfl⟩⟩

theorem NoneNew.trans {s t u : State} (h : NoneNew s t) (k : NoneNew t u) : NoneNew s u := ⟨fun c hc => by
  obtain ⟨b, hb, hn, hp⟩ := k.old c hc
  obtain ⟨a, ha, hn', hp'⟩ := h.old b hb
  exact ⟨a, ha, hn'.trans hn, hp'.trans hp⟩⟩

theorem Frame.noneNew {s t : State} {l : List Field} (f : Frame s t l) (h : .mcmds ∉ l) : NoneNew s t :=
  ⟨fun c hc => ⟨c, (show t.mcmds = s.mcmds from f.same .mcmds h) ▸ hc, rfl, rfl⟩⟩

theorem foldl_noneNew {α : Type} {f : State → α → State} (h : ∀ s a, NoneNew s (f s a)) (l : List α) (s : State) :
    NoneNew s (l.foldl f s) := by
  induction l generalizing s with
  | nil => exact .refl s
  | cons a l ih => exact (h s a).trans (ih _)

theorem complete_mcmds (ref : CmdRef) (st : W16) (v : Res) (s : State) :
    (complete ref st v s).mcmds = s.mcmds.map (spend fun c _ => c == ref) := by
  unfold complete
  (repeat' split) <;> simp [State.endCmd, writeRecord]

theorem spend_kept (p : CmdRef → Nat → Bool) (m : MCmd) : (spend p m).ns = m.ns ∧ (spend p m).pool = m.pool := by
  unfold spend
  repeat' split
  all_goals exact ⟨rfl, rfl⟩

theorem complete_noneNew (ref : CmdRef) (st : W16) (v : Res) (s : State) : NoneNew s (complete ref st v s) := ⟨fun c hc => by
  rw [complete_mcmds] at hc
  obtain ⟨b, hb, rfl⟩ := List.mem_map.1 hc
  exact ⟨b, hb, (spend_kept _ b).1.symm, (spend_kept _ b).2.symm⟩⟩

theorem offlinePool_noneNew (num cause : Nat) (s : State) : NoneNew s (offlinePool num cause s) := by
  cases hp : s.pool? num with
  | none => simp only [offlinePool, hp]; exact .refl s
  | some p =>
    cases ho : p.offline with
    | some c =>
      simp only [offlinePool, hp, if_pos (show p.offline.isSome = true by simp [ho])]
      exact .refl s
    | none =>
      rw [offlinePool_eq cause hp ho]
      exact ((((updPool_changes ..).frame.noneNew (by decide)).trans ((raise_changes ..).frame.noneNew (by decide))).trans
        ((shutPool_changes ..).frame.noneNew (by decide))).trans (foldl_noneNew (fun _ _ => complete_noneNew ..) ..)

theorem loseBlocks_noneNew (num vol lba count : Nat) (s : State) : NoneNew s (loseBlocks num vol lba count s) := by
  unfold loseBlocks
  dsimp only
  repeat' split
  · exact .refl s
  · exact .refl s
  · exact ((raise_changes ..).frame.noneNew (by decide)).trans (offlinePool_noneNew ..)
  · exact (((withLost_stays ..).frame.noneNew (by decide)).trans ((programJ_changes ..).frame.noneNew (by decide))).trans
      ((raise_changes ..).frame.noneNew (by decide))

theorem loseMember_noneNew (num : Nat) (s : State) : NoneNew s (loseMember num s) := by
  unfold loseMember
  dsimp only
  split
  · exact offlinePool_noneNew ..
  · exact (offlinePool_noneNew ..).trans (foldl_noneNew (fun _ _ => loseBlocks_noneNew ..) ..)

/-! ### A member fails (R228, R229) -/

/-- R228, R229: a member that has failed in a tick. -/
def Member.failedNow (tick cause : Nat) (m : Member) : Member := { m with state := .failed, cause := cause, failTick := some tick }

/-- R229: a pool whose member at an index has failed. -/
def Pool.failAt (x tick cause : Nat) (r : RebuildSt) (q : Pool) : Pool :=
  { q with members := q.members.modify x (Member.failedNow tick cause), rebuild := r }

/-- R229: a member has failed: its pool shows it, and no command to it is left. -/
def memberOut (ns cause : Nat) (p : Pool) (x : Nat) (s : State) : State :=
  ({ s with mcmds := s.mcmds.filter fun m => m.ns != ns || m.pool.isNone } : State).updPool p.num
    (Pool.failAt x s.clk.tick cause (p.forget ns))

theorem failMember_eq {s : State} {ns x : Nat} {p : Pool} (cause : Nat) (h : Serves s ns p x) : failMember ns cause s =
    if losesData s p ns then loseMember p.num (memberOut ns cause p x s) else memberOut ns cause p x s := by
  obtain ⟨hpool, -, hx⟩ := h
  simp only [failMember, hpool, hx]
  rfl

theorem failMember_fails {s : State} {ns x : Nat} {p : Pool} (cause : Nat) (h : Serves s ns p x) :
    FailedAs s ns p x cause (failMember ns cause s) := by
  obtain ⟨-, hp, hx⟩ := id h
  obtain ⟨hlt, hns, -⟩ := List.findIdx?_eq_some_iff_getElem.1 hx
  have out : (memberOut ns cause p x s).pool? p.num = some (p.failAt x s.clk.tick cause (p.forget ns)) := by
    have k := find?_updIf (fun q : Pool => q.num == p.num) (Pool.failAt x s.clk.tick cause (p.forget ns)) (fun _ h => h) s.pools
    rw [show s.pools.find? (fun q => q.num == p.num) = some p from hp] at k
    exact k
  have failed : (p.failAt x s.clk.tick cause (p.forget ns)).members[x]? = some (p.members[x].failedNow s.clk.tick cause) := by
    simp [Pool.failAt, List.getElem?_eq_getElem hlt]
  have gone : ∀ c ∈ (memberOut ns cause p x s).mcmds, c.ns = ns → c.pool = none := by
    intro c hc hn
    simpa [hn] using (List.mem_filter.1 hc).2
  have name : (p.members[x].failedNow s.clk.tick cause).ns = ns := of_decide_eq_true hns
  rw [failMember_eq cause h]
  split
  · obtain ⟨q, hq, hsite⟩ := pool?_of_sites (loseMember_stays p.num _).sites out
    have hmem : q.members = (p.failAt x s.clk.tick cause (p.forget ns)).members := congrArg (·.2.2.2.2.2) hsite
    refine ⟨⟨q, _, hq, hmem ▸ failed, name, rfl, rfl, rfl⟩, fun c hc hn => ?_⟩
    obtain ⟨b, hb, hbn, hbp⟩ := (loseMember_noneNew p.num _).old c hc
    exact hbp ▸ gone b hb (hbn.trans hn)
  · exact ⟨⟨_, _, out, failed, name, rfl, rfl, rfl⟩, gone⟩

theorem Serves.of_pools {s t : State} {ns x : Nat} {p : Pool} (h : Serves s ns p x) (k : t.pools = s.pools) : Serves t ns p x := by
  simpa only [Serves, State.pool?, k] using h

theorem FailedAs.since {s u t : State} {ns x cause : Nat} {p : Pool} (h : FailedAs u ns p x cause t) (k : u.clk = s.clk) :
    FailedAs s ns p x cause t := by
  rw [FailedAs, k] at h
  exact h

theorem FailedAs.recover {s t : State} {ns x cause : Nat} {p : Pool} (h : FailedAs s ns p x cause t) (n : Nat) :
    FailedAs s ns p x cause (recover n t) := by
  obtain ⟨⟨q, m, hq, hm, hn, hs, hc, ht⟩, gone⟩ := h
  obtain ⟨q', f, hq', e⟩ := recover_pool? n hq
  have hmcmds : (Machine.recover n t).mcmds = t.mcmds := (recover_changes n t).frame.same .mcmds (by decide)
  refine ⟨⟨q', m, hq', ?_, hn, hs, hc, ht⟩, fun c hc => gone c (hmcmds ▸ hc)⟩
  rw [e]
  simp [updIf, hm, returned_failed hs]

theorem failMember_changes (ns cause : Nat) (s : State) : Changes s (failMember ns cause s) losingBlocks :=
  (failMember_sides ns cause s).toChanges

end Sys2Proof.Machine
end

section
/-! PROOF. How member commands end, are retried and fail a member (R164, R222, R226 to R228, R251, R367). -/

namespace Sys2Proof.Machine

/-! ### What a fetch or a destage takes in (R164, R215) -/

theorem sealFault_changes (m : MCmd) (x : Option Sector) (ok : Bool) (s : State) : Changes s (sealFault m x ok s) [.hw] := by
  unfold sealFault
  split
  · exact countFault_changes ..
  · exact .refl ..

/-- A fetch with a sector of a position, or its fault. -/
def Fetch.took (pos : Nat) (x : Option Sector) (f : Fetch) : Fetch :=
  match x with
  | some y => { f with good := (pos, y) :: f.good.filter (·.1 != pos) }
  | none => { f with bad := insNat pos f.bad }

theorem took_shows (pos : Nat) (x : Option Sector) (f : Fetch) : ((f.took pos x).has pos).isSome ∨ pos ∈ (f.took pos x).bad := by
  cases x with
  | some y => exact .inl (by simp [Fetch.took, Fetch.has])
  | none => exact .inr (mem_insNat.2 (.inl rfl))

theorem took_fault (pos : Nat) (f : Fetch) : pos ∈ (f.took pos none).bad := mem_insNat.2 (.inl rfl)

theorem mem_updIf {α : Type} {p : α → Bool} {f : α → α} {l : List α} {y : α} (h : y ∈ updIf p f l) :
    ∃ x ∈ l, y = if p x then f x else x := by
  obtain ⟨x, hx, rfl⟩ := List.mem_map.1 h
  exact ⟨x, hx, rfl⟩

/-- R215, R216: the sector of a member command, where it is good for a fetch. -/
def goodFor (m : MCmd) (pos : Nat) (x : Option Sector) (s : State) (f : Fetch) : Option Sector :=
  x.filter fun y => (m.poolOf s).any fun p => sectorOk s p f.newGeom f.stripe pos f.off m.ns y

/-- R215: a command whose fetches of a key have their sector, or its fault. -/
def Cmd.took (key pos now : Nat) (g : Fetch → Option Sector) (k : Cmd) : Cmd :=
  { k with memAt := some now, fetches := updIf (fun f => f.key == key) (fun f => f.took pos (g f)) k.fetches }

theorem fetchGot_eq (c : CmdRef) (key pos : Nat) (m : MCmd) (x : Option Sector) (s : State) : ∃ ok,
    fetchGot c key pos m x s = (sealFault m x ok s).updCmd c (Cmd.took key pos s.clk.tick (goodFor m pos x s)) := ⟨_, rfl⟩

theorem fetchGot_changes (c : CmdRef) (key pos : Nat) (m : MCmd) (x : Option Sector) (s : State) :
    Changes s (fetchGot c key pos m x s) [.cmds, .hw] := by
  obtain ⟨ok, e⟩ := fetchGot_eq c key pos m x s
  rw [e]
  exact ((sealFault_changes ..).mono (by decide)).step (updCmd_changes ..) (by decide)

theorem fetchGot_fault (c : CmdRef) (key pos : Nat) (m : MCmd) (s : State) :
    Changes s (fetchGot c key pos m none s) [.cmds] := by
  obtain ⟨ok, e⟩ := fetchGot_eq c key pos m none s
  rw [e]
  exact updCmd_changes ..

/-- R215: a fetch has its sector, or its fault; without a sector, its fault. -/
theorem fetchGot_shows {c : CmdRef} {s : State} {k : Cmd} (key pos : Nat) (m : MCmd) (x : Option Sector) (h : s.cmd? c = some k) :
    ∃ k', (fetchGot c key pos m x s).cmd? c = some k' ∧ ∀ f ∈ k'.fetches, f.key = key →
      ((f.has pos).isSome ∨ pos ∈ f.bad) ∧ (x = none → pos ∈ f.bad) := by
  obtain ⟨ok, e⟩ := fetchGot_eq c key pos m x s
  have hc : (sealFault m x ok s).cmd? c = some k :=
    (congrArg (List.find? _) ((sealFault_changes m x ok s).frame.same .cmds (by decide))).trans h
  rw [e]
  refine ⟨_, updCmd_cmd?_self (fun _ h => h) hc, fun f hf hk => ?_⟩
  obtain ⟨f0, -, rfl⟩ := mem_updIf hf
  by_cases hn : (f0.key == key) = true
  · rw [if_pos hn]
    exact ⟨took_shows .., fun hx => by rw [hx]; exact took_fault ..⟩
  · rw [if_neg hn] at hk
    exact absurd (by simpa using hk) hn

theorem updDestage_changes (s : State) (i : Nat) (f : Destage → Destage) : Changes s (s.updDestage i f) [.destages] :=
  Frame.changes ⟨fun k hk => by cases k with | destages => simp at hk | _ => rfl⟩ (by decide) (.of_eq rfl)

theorem destageGot_changes (i pos off : Nat) (m : MCmd) (x : Option Sector) (s : State) :
    Changes s (destageGot i pos off m x s) [.destages, .hw] := by
  unfold destageGot
  exact ((sealFault_changes ..).mono (by decide)).step (updDestage_changes ..) (by decide)

/-- R164, R165: a destage has its sector, or its fault. -/
theorem destageGot_shows (i pos off : Nat) (m : MCmd) (x : Option Sector) (s : State) :
    ∀ d ∈ (destageGot i pos off m x s).destages, d.id = i → (d.read? pos off).isSome ∨ (pos, off) ∈ d.bad := by
  intro d hd hi
  obtain ⟨d0, -, rfl⟩ := mem_updIf hd
  by_cases hn : (d0.id == i) = true
  · rw [if_pos hn]
    dsimp only
    split
    · exact .inl (by simp [Destage.read?])
    · exact .inr (List.mem_cons_self ..)
  · rw [if_neg hn] at hi
    exact absurd (by simpa using hi) hn

/-! ### A completion (R222, R226, R227) -/

/-- R220: the state once the Error Information log of a member is read. -/
def logged (m : MCmd) (n : Nat) (s : State) : State := adminTo m.ns m.path (.getLog n) s

theorem logged_changes (m : MCmd) (n : Nat) (s : State) : Changes s (logged m n s) [.out] := adminTo_changes ..

theorem logged_puts {m : MCmd} {s : State} (n : Nat) (h : nsFailed s m.ns = false) :
    Puts s (logged m n s) (.admin m.ns m.path (.getLog n)) := by
  rw [logged, adminTo, if_neg (by simp [h])]
  exact ⟨[], [], rfl⟩

theorem done_read {m : MCmd} (h : m.isWrite = false) : m.done = false := by simp [MCmd.done, h]

theorem done_write {m : MCmd} (h : m.purpose ≠ .spent) : m.done = false := by simp [MCmd.done, h]

theorem done_spent {m : MCmd} (hw : m.isWrite = true) (h : m.purpose = .spent) : m.done = true := by simp [MCmd.done, hw, h]

/-- R227: an error of a command that is neither a Format NVM nor a Dataset Management. -/
theorem memberErr_eq {m : MCmd} (sector : Bool) (s : State) (hf : ∀ c b e, m.purpose ≠ .format c b e)
    (hd : ∀ l, m.purpose ≠ .dealloc l) :
    memberErr m sector s = if m.done then s.closeMcmd m else if m.isWrite then writeFailed m s
      else if sector then memberOk m none s else resubmitLater m s := by
  unfold memberErr
  cases hp : m.purpose with
  | format c b e => exact absurd hp (hf c b e)
  | dealloc l => exact absurd hp (hd l)
  | _ => rfl

theorem slowRead_changes (m : MCmd) (s : State) : Changes s (slowRead m s) [.cmds, .destages] := by
  unfold slowRead
  split
  · exact (updCmd_changes ..).mono (by decide)
  · split
    · exact .refl ..
    · exact (updDestage_changes ..).mono (by decide)
  · exact .refl ..

theorem waits_of_unsent {m : MCmd} {n : Nat} (h : m.unsent n = false) : m.waits = false := by
  simp only [MCmd.unsent, Bool.or_eq_false_iff] at h
  exact h.1

/-- R226: the record of a command that is tried again. -/
def MCmd.again (m : MCmd) : MCmd := { m with tries := m.tries + 1, left := m.left + 1 }

/-- R226: a command past its time is aborted and goes to the next path; its member is suspect. -/
def retried (m : MCmd) (s : State) : State :=
  (resubmit m (slowRead m ((s.updMcmd m.id MCmd.again).emit (.memberAbort m.id m.path)))).updMember m.ns suspect

theorem retried_changes (m : MCmd) (s : State) : Changes s (retried m s) [.cmds, .destages, .mcmds, .out, .pools] :=
  (((((updMcmd_changes s m.id MCmd.again).mono (by decide)).step (emit_changes ..) (by decide)).step (slowRead_changes m _)
    (by decide)).step
    (resubmit_changes m _) (by decide)).step (updMember_changes _ m.ns suspect) (by decide)

theorem retried_mcmd? {s : State} {m : MCmd} (hm : s.mcmd? m.id = some m) :
    (retried m s).mcmd? m.id = some (m.onNext s m.again) := by
  have aborts := emit_changes (s.updMcmd m.id MCmd.again) (.memberAbort m.id m.path)
  have slow := slowRead_changes m ((s.updMcmd m.id MCmd.again).emit (.memberAbort m.id m.path))
  have h : (slowRead m ((s.updMcmd m.id MCmd.again).emit (.memberAbort m.id m.path))).mcmd? m.id = some m.again :=
    (slow.mcmd? (by decide) m.id).trans ((aborts.mcmd? (by decide) m.id).trans (updMcmd_mcmd? (fun _ => rfl) hm))
  have nss : (slowRead m ((s.updMcmd m.id MCmd.again).emit (.memberAbort m.id m.path))).nss = s.nss :=
    slow.frame.same .nss (by decide)
  rw [← onNext_congr nss]
  exact ((updMember_changes ..).mcmd? (by decide) m.id).trans (resubmit_mcmd? h)

theorem retried_puts (m : MCmd) (s : State) : Puts s (retried m s) (.memberAbort m.id m.path) := by
  have put : Puts s ((s.updMcmd m.id MCmd.again).emit (.memberAbort m.id m.path)) (.memberAbort m.id m.path) := ⟨[], [], rfl⟩
  exact put.later (((slowRead_changes m _).grows.trans (resubmit_changes m _).grows).trans (updMember_changes ..).grows)

theorem retried_pool? {s : State} {m : MCmd} {n : Nat} {p : Pool} (hp : s.pool? n = some p) :
    ∃ q, (retried m s).pool? n = some q ∧ q.members = updIf (·.ns == m.ns) suspect p.members := by
  have ahead := (((((updMcmd_changes s m.id MCmd.again).mono (m := [.cmds, .destages, .mcmds, .out]) (by decide)).step
    (emit_changes _ (.memberAbort m.id m.path)) (by decide)).step (slowRead_changes m _) (by decide)).step (resubmit_changes m _)
      (by decide))
  have h := (congrArg (List.find? fun q : Pool => q.num == n) (ahead.frame.same .pools (by decide))).trans hp
  exact ⟨p.onMember m.ns suspect, (updMember_pool? ..).trans (congrArg _ h), rfl⟩

/-- A command is a Format NVM of a command. -/
def MCmd.formats (ref : CmdRef) (m : MCmd) : Bool := match m.purpose with
  | .format c .. => c == ref
  | _ => false

theorem spend_formats (p : CmdRef → Nat → Bool) (ref : CmdRef) (m : MCmd) : (spend p m).formats ref = m.formats ref := by
  unfold spend
  split
  · next hp =>
    split
    · simp [MCmd.formats, hp]
    · rfl
  · rfl

section
variable {i : Nat} {s : State} {m : MCmd} (hm : s.mcmd? i = some m) (hd : s.drives = true) (hu : m.unsent s.clk.tick = false)

include hd hu in
/-- R226: an attempt that has been sent completes. -/
theorem sent_eq (t : State) : (if !s.drives || m.unsent s.clk.tick then s else t) = t := if_neg (by simp [hd, hu])

include hm hd hu

theorem readOk_exec (hw : m.isWrite = false) (xs : List Sector) :
    exec (.memberCompletion i (.readOk xs)) s = .next (settle (recover m.ns (memberOk m xs.head? s))) := by
  show Host.Outcome.next (settle (memberDone i _ s)) = _
  simp only [memberDone, hm, sent_eq hd hu, if_neg (show ¬ m.isWrite = true by simp [hw])]

theorem done_exec (hw : m.isWrite = true) :
    exec (.memberCompletion i .done) s = .next (settle (recover m.ns (memberOk m none s))) := by
  show Host.Outcome.next (settle (memberDone i _ s)) = _
  simp only [memberDone, hm, sent_eq hd hu, if_pos hw]

theorem fault_exec {e : MemErr} (he : e = .unrecovered ∨ e = .e2e) :
    exec (.memberCompletion i (.err e)) s = .next (settle (recover m.ns (memberErr m true (logged m 1 s)))) := by
  show Host.Outcome.next (settle (memberDone i _ s)) = _
  obtain rfl | rfl := he <;> simp only [memberDone, hm, sent_eq hd hu, logged]

theorem other_exec :
    exec (.memberCompletion i (.err .other)) s = .next (settle (recover m.ns (memberErr m false (logged m 1 s)))) := by
  show Host.Outcome.next (settle (memberDone i _ s)) = _
  simp only [memberDone, hm, sent_eq hd hu, logged]

theorem aborted_exec : exec (.memberCompletion i (.err .aborted)) s = .next (settle (attemptAborted m s)) := by
  show Host.Outcome.next (settle (memberDone i _ s)) = _
  simp only [memberDone, hm, sent_eq hd hu]

theorem reservation_exec (hw : m.isWrite = true) : exec (.memberCompletion i (.err .reservation)) s =
    .next (settle (packageYield (pathOn m.path) 0x0B {} (logged m 0x80 s))) := by
  show Host.Outcome.next (settle (memberDone i _ s)) = _
  simp only [memberDone, hm, sent_eq hd hu, if_pos hw, logged]

theorem invalidNs_exec (hp : m.pool.isSome = true) :
    exec (.memberCompletion i (.err .invalidNs)) s = .next (settle (failMember m.ns 2 s)) := by
  show Host.Outcome.next (settle (memberDone i _ s)) = _
  simp only [memberDone, hm, sent_eq hd hu, if_pos hp]

theorem writeProtected_exec (hp : m.pool.isSome = true) (hw : m.isWrite = true) :
    exec (.memberCompletion i (.err .writeProtected)) s = .next (settle (failMember m.ns 5 s)) := by
  show Host.Outcome.next (settle (memberDone i _ s)) = _
  simp only [memberDone, hm, sent_eq hd hu, hp, hw, Bool.and_self, if_true]

/-! ### Reads -/

/-- R215, R222: a fetch takes its sector. -/
theorem fetch_reads {c : CmdRef} {key pos : Nat} {k : Cmd} (hw : m.isWrite = false) (hp : m.purpose = .fetch c key pos)
    (hc : s.cmd? c = some k) (xs : List Sector) :
    RunsOn (.memberCompletion i (.readOk xs)) s [.cmds, .hw, .mcmds, .pools] fun t => t.mcmd? i = none ∧
      ∃ k', t.cmd? c = some k' ∧ ∀ f ∈ k'.fetches, f.key = key → (f.has pos).isSome ∨ pos ∈ f.bad := by
  obtain rfl := mcmd?_id hm
  have e : memberOk m xs.head? s = fetchGot c key pos m xs.head? (s.endMcmd m.id) := by rw [memberOk, hp]
  have got := fetchGot_changes c key pos m xs.head? (s.endMcmd m.id)
  have back := recover_changes m.ns (fetchGot c key pos m xs.head? (s.endMcmd m.id))
  obtain ⟨k', hk', hf⟩ := fetchGot_shows (s := s.endMcmd m.id) key pos m xs.head? hc
  refine .of_changes (e ▸ readOk_exec hm hd hu hw xs) ((((endMcmd_changes ..).mono (by decide)).step got (by decide)).step back
    (by decide))
    ⟨?_, k', ?_, fun f hm hk => (hf f hm hk).1⟩ fun _ h => h
  · rw [recover_mcmd?, got.mcmd? (by decide), endMcmd_mcmd?]
  · exact (congrArg (List.find? _) (back.frame.same .cmds (by decide))).trans hk'

/-- R227: a fetch takes the fault of its sector. -/
theorem fetch_faults {c : CmdRef} {key pos : Nat} {k : Cmd} {e : MemErr} (hw : m.isWrite = false)
    (hp : m.purpose = .fetch c key pos)
    (hc : s.cmd? c = some k) (he : e = .unrecovered ∨ e = .e2e) :
    RunsOn (.memberCompletion i (.err e)) s [.cmds, .mcmds, .out, .pools] fun t =>
      t.mcmd? i = none ∧ (nsFailed s m.ns = false → Puts s t (.admin m.ns m.path (.getLog 1))) ∧
      ∃ k', t.cmd? c = some k' ∧ ∀ f ∈ k'.fetches, f.key = key → pos ∈ f.bad := by
  obtain rfl := mcmd?_id hm
  generalize hs : logged m 1 s = s1
  have logs : Changes s s1 [.out] := hs ▸ logged_changes m 1 s
  have eq : memberErr m true s1 = fetchGot c key pos m none (s1.endMcmd m.id) := by
    rw [memberErr_eq true s1 (by simp [hp]) (by simp [hp]), if_neg (by simp [done_read hw]), if_neg (by simp [hw]), if_pos rfl,
      memberOk, hp]
  have got := fetchGot_fault c key pos m (s1.endMcmd m.id)
  have back := recover_changes m.ns (fetchGot c key pos m none (s1.endMcmd m.id))
  have hc1 : (s1.endMcmd m.id).cmd? c = some k := (congrArg (List.find? _) (logs.frame.same .cmds (by decide))).trans hc
  obtain ⟨k', hk', hf⟩ := fetchGot_shows key pos m none hc1
  have ended := (((endMcmd_changes s1 m.id).mono (m := [.cmds, .mcmds, .out, .pools]) (by decide)).step got (by decide)).step back
    (by decide)
  refine .of_changes ((fault_exec hm hd hu he).trans (by rw [hs, eq])) ((logs.mono (by decide)).trans ended)
    ⟨?_, fun hn => ?_, k', ?_, fun f hm hk => (hf f hm hk).2 rfl⟩ fun _ h => h
  · rw [recover_mcmd?, got.mcmd? (by decide), endMcmd_mcmd?]
  · exact (hs ▸ logged_puts 1 hn : Puts s s1 _).later ended.grows
  · exact (congrArg (List.find? _) (back.frame.same .cmds (by decide))).trans hk'

/-- R164: a destage takes its sector. -/
theorem destage_reads {j pos off : Nat} (hw : m.isWrite = false) (hp : m.purpose = .destage j pos off) (xs : List Sector) :
    RunsOn (.memberCompletion i (.readOk xs)) s [.destages, .hw, .mcmds, .pools] fun t =>
      t.mcmd? i = none ∧ ∀ d ∈ t.destages, d.id = j → (d.read? pos off).isSome ∨ (pos, off) ∈ d.bad := by
  obtain rfl := mcmd?_id hm
  have e : memberOk m xs.head? s = destageGot j pos off m xs.head? (s.endMcmd m.id) := by
    rw [memberOk, hp]
    exact if_neg (by simp [hw])
  have got := destageGot_changes j pos off m xs.head? (s.endMcmd m.id)
  have back := recover_changes m.ns (destageGot j pos off m xs.head? (s.endMcmd m.id))
  refine .of_changes (e ▸ readOk_exec hm hd hu hw xs) ((((endMcmd_changes ..).mono (by decide)).step got (by decide)).step back
    (by decide))
    ⟨?_, fun d hd => ?_⟩ fun _ h => h
  · rw [recover_mcmd?, got.mcmd? (by decide), endMcmd_mcmd?]
  · exact destageGot_shows j pos off m xs.head? _ d ((show _ = _ from back.frame.same .destages (by decide)) ▸ hd)

/-- R227: a read that failed goes to the next path. -/
theorem read_retried (hw : m.isWrite = false) (hf : ∀ c b e, m.purpose ≠ .format c b e) (hl : ∀ l, m.purpose ≠ .dealloc l) :
    RunsOn (.memberCompletion i (.err .other)) s [.mcmds, .out, .pools] fun t =>
      t.mcmd? i = some { m.onNext s m with redo := some s.clk.tick } := by
  obtain rfl := mcmd?_id hm
  generalize hs : logged m 1 s = s1
  have logs : Changes s s1 [.out] := hs ▸ logged_changes m 1 s
  have eq : memberErr m false s1 = resubmitLater m s1 := by
    rw [memberErr_eq false s1 hf hl, if_neg (by simp [done_read hw]), if_neg (by simp [hw]), if_neg (by simp)]
  have hclk : s1.clk = s.clk := logs.frame.same .clk (by decide)
  refine .of_changes ((other_exec hm hd hu).trans (by rw [hs, eq]))
    (((logs.mono (by decide)).step (resubmitLater_changes ..) (by decide)).step (recover_changes ..) (by decide)) ?_ fun _ h => h
  rw [recover_mcmd?, resubmitLater_mcmd? ((logs.mcmd? (by decide) m.id).trans hm),
    onNext_congr (logs.frame.same .nss (by decide)), hclk]

/-- R226: an attempt that has been aborted is over. -/
theorem attempt_aborted (h : m.done = false) : RunsOn (.memberCompletion i (.err .aborted)) s [.mcmds] fun t =>
    t.mcmd? i = some { m with left := max 1 (m.left - 1) } := by
  obtain rfl := mcmd?_id hm
  let f (x : MCmd) : MCmd := { x with left := max 1 (x.left - 1) }
  have e : attemptAborted m s = s.updMcmd m.id f := if_neg (by simp [h])
  exact .of_changes (e ▸ aborted_exec hm hd hu) (updMcmd_changes ..) (updMcmd_mcmd? (f := f) (fun _ => rfl) hm) fun _ h => h

/-! ### Writes -/

/-- R226: a write that has succeeded is watched while other attempts are open. -/
theorem write_done (hw : m.isWrite = true) (hp : (∃ j pos off, m.purpose = .destage j pos off) ∨ (∃ l, m.purpose = .dealloc l) ∨
      (∃ l, m.purpose = .preempt l) ∨ (∃ n st, m.purpose = .work n st) ∨ m.purpose = .spill ∨ m.purpose = .spent) :
    RunsOn (.memberCompletion i .done) s [.mcmds, .pools] fun t => (m.left ≤ 1 → t.mcmd? i = none) ∧
      (1 < m.left → t.mcmd? i = some { m with purpose := .spent, left := m.left - 1 }) := by
  obtain rfl := mcmd?_id hm
  have e : memberOk m none s = s.closeMcmd m := by
    unfold memberOk
    obtain ⟨j, pos, off, hp⟩ | ⟨l, hp⟩ | ⟨l, hp⟩ | ⟨n, st, hp⟩ | hp | hp := hp
    · rw [hp]; exact if_pos hw
    all_goals rw [hp]
  refine .of_changes (e ▸ done_exec hm hd hu hw) (((closeMcmd_changes ..).mono (by decide)).step (recover_changes ..) (by decide))
    ⟨fun h => ?_, fun h => ?_⟩ fun _ h => h
  · rw [recover_mcmd?, closeMcmd_ends h]
  · rw [recover_mcmd?, closeMcmd_watches hm hw h]

/-- R226: an attempt of a write that has succeeded counts no more, whatever it answers. -/
theorem watched_ends {e : MemErr} (hw : m.isWrite = true) (hp : m.purpose = .spent) (he : e = .other ∨ e = .aborted) :
    RunsOn (.memberCompletion i (.err e)) s [.mcmds, .out, .pools] fun t =>
      (m.left ≤ 1 → t.mcmd? i = none) ∧ (1 < m.left → t.mcmd? i = some { m with left := m.left - 1 }) := by
  obtain rfl := mcmd?_id hm
  have same : ({ m with purpose := .spent, left := m.left - 1 } : MCmd) = { m with left := m.left - 1 } := by rw [← hp]
  obtain rfl | rfl := he
  · generalize hs : logged m 1 s = s1
    have logs : Changes s s1 [.out] := hs ▸ logged_changes m 1 s
    have eq : memberErr m false s1 = s1.closeMcmd m := by
      rw [memberErr_eq false s1 (by simp [hp]) (by simp [hp]), if_pos (done_spent hw hp)]
    have hm1 : s1.mcmd? m.id = some m := (logs.mcmd? (by decide) m.id).trans hm
    refine .of_changes ((other_exec hm hd hu).trans (by rw [hs, eq]))
      (((logs.mono (by decide)).step (closeMcmd_changes ..) (by decide)).step (recover_changes ..) (by decide))
        ⟨fun h => ?_, fun h => ?_⟩
      fun _ h => h
    · rw [recover_mcmd?, closeMcmd_ends h]
    · rw [recover_mcmd?, closeMcmd_watches hm1 hw h, same]
  · have eq : attemptAborted m s = s.closeMcmd m := if_pos (done_spent hw hp)
    refine .of_changes (eq ▸ aborted_exec hm hd hu) ((closeMcmd_changes ..).mono (by decide)) ⟨closeMcmd_ends, fun h => ?_⟩
      fun _ h => h
    rw [closeMcmd_watches hm hw h, same]

/-- R367: a reservation conflict of a write yields the package. -/
theorem reservation_yields (hw : m.isWrite = true) : RunsOn (.memberCompletion i (.err .reservation)) s yielding fun t =>
    t.run.halted = true ∧ faultPin t = false ∧ t.reg.ycause = 0x0B := by
  have runs : (logged m 0x80 s).run.halted = false := by
    rw [show (logged m 0x80 s).run = s.run from (logged_changes ..).frame.same .run (by decide)]
    simp only [State.drives, Bool.and_eq_true, Bool.not_eq_true'] at hd
    exact hd.1.2
  exact .of_changes (reservation_exec hm hd hu hw) (((logged_changes ..).mono (by decide)).step (packageYield_changes ..)
    (by decide))
    (packageYield_halts runs) fun _ h => h

/-- R228 cause 04h: a write that failed once goes to the next path. -/
theorem write_retried (hw : m.isWrite = true) (hf : ∀ c b e, m.purpose ≠ .format c b e) (hl : ∀ l, m.purpose ≠ .dealloc l)
    (hp : m.purpose ≠ .spent) (h0 : m.fails = 0) : RunsOn (.memberCompletion i (.err .other)) s [.mcmds, .out, .pools] fun t =>
      t.mcmd? i = some { m.onNext s m with fails := 1, redo := some s.clk.tick } := by
  obtain rfl := mcmd?_id hm
  generalize hs : logged m 1 s = s1
  have logs : Changes s s1 [.out] := hs ▸ logged_changes m 1 s
  generalize ht : (s1.updMcmd m.id fun x => { x with fails := x.fails + 1 }) = s2
  have counts : Changes s1 s2 [.mcmds] := ht ▸ updMcmd_changes ..
  have hm2 : s2.mcmd? m.id = some { m with fails := m.fails + 1 } :=
    ht ▸ updMcmd_mcmd? (fun _ => rfl) ((logs.mcmd? (by decide) m.id).trans hm)
  have eq : memberErr m false s1 = resubmitLater m s2 := by
    rw [memberErr_eq false s1 hf hl, if_neg (by simp [done_write hp]), if_pos hw, writeFailed, if_neg (by omega), ht]
  have kept : Changes s s2 [.mcmds, .out] := (logs.mono (by decide)).step counts (by decide)
  have hclk : s2.clk = s.clk := kept.frame.same .clk (by decide)
  refine .of_changes ((other_exec hm hd hu).trans (by rw [hs, eq]))
    (((kept.mono (by decide)).step (resubmitLater_changes ..) (by decide)).step (recover_changes ..) (by decide)) ?_ fun _ h => h
  rw [recover_mcmd?, resubmitLater_mcmd? hm2, onNext_congr (kept.frame.same .nss (by decide)), hclk, h0]
  rfl

/-- R228 cause 04h: a write that failed on two paths fails its member. -/
theorem write_fails {p : Pool} {x : Nat} (hw : m.isWrite = true) (hf : ∀ c b e, m.purpose ≠ .format c b e)
    (hl : ∀ l, m.purpose ≠ .dealloc l)
    (hp : m.purpose ≠ .spent) (h1 : 1 ≤ m.fails) (hx : Serves s m.ns p x) :
    RunsOn (.memberCompletion i (.err .other)) s failing (FailedAs s m.ns p x 4) := by
  generalize hs : logged m 1 s = s1
  have logs : Changes s s1 [.out] := hs ▸ logged_changes m 1 s
  have eq : memberErr m false s1 = failMember m.ns 4 s1 := by
    rw [memberErr_eq false s1 hf hl, if_neg (by simp [done_write hp]), if_pos hw, writeFailed, if_pos h1]
  refine .of_changes ((other_exec hm hd hu).trans (by rw [hs, eq]))
    (((logs.mono (by decide)).step (failMember_changes ..) (by decide)).step (recover_changes ..) (by decide))
      (.recover ?_ _) fun _ h => h
  exact (failMember_fails 4 (hx.of_pools (logs.frame.same .pools (by decide)))).since (logs.frame.same .clk (by decide))

/-- R228 cause 05h: a member that is write-protected fails. -/
theorem writeProtected_fails {p : Pool} {x : Nat} (hw : m.isWrite = true) (hp : m.pool.isSome = true) (hx : Serves s m.ns p x) :
    RunsOn (.memberCompletion i (.err .writeProtected)) s failing (FailedAs s m.ns p x 5) :=
  .of_changes (writeProtected_exec hm hd hu hp hw) (failMember_changes ..) (failMember_fails 5 hx) (by decide)

/-- R228 cause 02h: a member whose namespace is gone fails. -/
theorem invalidNs_fails {p : Pool} {x : Nat} (hp : m.pool.isSome = true) (hx : Serves s m.ns p x) :
    RunsOn (.memberCompletion i (.err .invalidNs)) s failing (FailedAs s m.ns p x 2) :=
  .of_changes (invalidNs_exec hm hd hu hp) (failMember_changes ..) (failMember_fails 2 hx) (by decide)

/-- R228 cause 01h: a command without a success for 750,000 ticks fails its member. -/
theorem memberTimeout_fails {p : Pool} {x : Nat} (hp : m.pool.isSome = true) (hx : Serves s m.ns p x) (hdone : m.done = false)
    (ht : m.at_ + 750000 ≤ s.clk.tick) : RunsOn (.memberTimeout i) s failing (FailedAs s m.ns p x 1) := by
  have e : exec (.memberTimeout i) s = .next (settle (failMember m.ns 1 (s.endMcmd i))) := by
    show Host.Outcome.next (settle (memberTimedOut i s)) = _
    simp only [memberTimedOut, hm]
    rw [if_pos (by simp [hd, hp, waits_of_unsent hu, hdone, ht])]
  exact .of_changes e (((endMcmd_changes ..).mono (by decide)).step (failMember_changes ..) (by decide))
    ((failMember_fails 1 (s := s.endMcmd i) (hx.of_pools rfl)).since rfl) fun _ h => h

/-! ### A sector rewritten, a command retried -/

/-- R227: one more repair of a member. -/
def Member.repaired (m : Member) : Member := { m with repairs := m.repairs + 1 }

/-- R227: one more repair of the member that a namespace is. -/
def Pool.repaired (ns : Nat) (p : Pool) : Pool := { p with members := updIf (·.ns == ns) Member.repaired p.members }

/-- R227: a rewritten sector raises 2120h and counts for its member. -/
theorem sectorRepaired_counts {n : Nat} {p : Pool} (hpool : m.pool = some n) (hp : s.pool? n = some p) (hh : (s.die? p.home).isSome)
    (hr : ∃ new st pos off, m.purpose = .repair new st pos off) :
      RunsOn (.sectorRepaired i) s (.mcmds :: .pools :: raising) fun t =>
      (m.left ≤ 1 → t.mcmd? i = none) ∧ Pending t p.home 0x2120 ∧ ∃ q, t.pool? n = some q ∧
        q.members.map (·.repairs) = p.members.map fun x => if x.ns = m.ns then x.repairs + 1 else x.repairs := by
  obtain rfl := mcmd?_id hm
  obtain ⟨new, st, pos, off, hr⟩ := hr
  obtain rfl : p.num = n := by simpa using List.find?_some hp
  generalize hs : s.closeMcmd m = s1
  have closed : Changes s s1 [.mcmds] := hs ▸ closeMcmd_changes m s
  have hp1 : s1.pool? p.num = some p := (congrArg (List.find? _) (closed.frame.same .pools (by decide))).trans hp
  generalize hu2 : s1.updPool p.num (Pool.repaired m.ns) = s2
  have counted : Changes s1 s2 [.pools] := hu2 ▸ updPool_changes ..
  have hp2 : s2.pool? p.num = some (p.repaired m.ns) := by
    have k := find?_updIf (fun q : Pool => q.num == p.num) (Pool.repaired m.ns) (fun _ h => h) s1.pools
    rw [show s1.pools.find? (fun q => q.num == p.num) = some p from hp1] at k
    exact hu2 ▸ k
  generalize hd3 : ({ pool := p.num, item := m.member, arg0 := m.lba } : Detail) = det
  have raised := raise_changes p.home 0x2120 det s2
  have e : exec (.sectorRepaired m.id) s = .next (settle (recover m.ns (raise p.home 0x2120 det s2))) := by
    show Host.Outcome.next (settle (sectorDone m.id s)) = _
    simp only [sectorDone, hm, hr]
    rw [if_pos (by simp [hd, hu]), repaired, hs, hpool, Option.bind_some, hp1, ← hu2, ← hd3]
    rfl
  have kept : Changes s s2 [.mcmds, .pools] := (closed.mono (by decide)).step counted (by decide)
  have back := recover_changes m.ns (raise p.home 0x2120 det s2)
  have hh2 : (s2.die? p.home).isSome := by
    obtain ⟨x, hx⟩ := Option.isSome_iff_exists.1 hh
    obtain ⟨y, hy⟩ := kept.frame.die_exists (.inl (by decide)) hx
    simp [hy]
  refine .of_changes e (((kept.mono (by decide)).step raised (by decide)).step back (by decide)) ⟨fun hl => ?_, ?_, ?_⟩ fun _ h => h
  · rw [recover_mcmd?, raised.mcmd? (by decide), counted.mcmd? (by decide), ← hs, closeMcmd_ends hl]
  · exact back.pend _ _ (raise_sets _ _ hh2)
  · obtain ⟨q, g, hq, eq⟩ := recover_pool? m.ns ((congrArg (List.find? _) (raised.frame.same .pools (by decide))).trans hp2)
    refine ⟨q, hq, ?_⟩
    rw [eq, updIf_map Member.repairs _ _ (returned_map (g := Member.repairs) fun _ _ => rfl)]
    simp only [Pool.repaired, updIf, List.map_map]
    refine List.map_congr_left fun x _ => ?_
    simp only [Function.comp, beq_iff_eq]
    split <;> rfl

/-- R226: a command past its time is retried, its member counted and suspect, 2104h raised the first time. -/
theorem memberCommandRetried_retries {n : Nat} {p : Pool} (hpool : m.pool = some n) (hp : s.pool? n = some p)
    (hh : (s.die? p.home).isSome) (hdone : m.done = false) (ht : m.at_ + 6250 * m.tries ≤ s.clk.tick) :
    RunsOn (.memberCommandRetried i) s (.cmds :: .destages :: .mcmds :: .pools :: raising) fun t =>
      t.mcmd? i = some (m.onNext s m.again) ∧ Puts s t (.memberAbort i m.path) ∧ (m.tries = 1 → Pending t p.home 0x2104) ∧
      ∃ q, t.pool? n = some q ∧
        q.members.map (·.retries) = p.members.map fun x => if x.ns = m.ns then satAdd top32 x.retries 1 else x.retries := by
  obtain rfl := mcmd?_id hm
  generalize hdet : ({ pool := p.num, item := m.member, arg0 := m.lba } : Detail) = det
  generalize ht2 : (if m.tries = 1 then raise p.home 0x2104 det (retried m s) else retried m s) = t
  have raised : Changes (retried m s) t raising := by
    rw [← ht2]
    split
    · exact raise_changes ..
    · exact .refl ..
  have e : exec (.memberCommandRetried m.id) s = .next (settle t) := by
    show Host.Outcome.next (settle (commandRetried m.id s)) = _
    simp only [commandRetried, hm, MCmd.poolOf, hpool, Option.bind_some, hp]
    rw [if_neg (by simp [hd, hdone, waits_of_unsent hu, Nat.not_lt.2 ht]), ← ht2, ← hdet]
    rfl
  have tries := retried_changes m s
  obtain ⟨q, hq, hmem⟩ := retried_pool? (m := m) hp
  refine .of_changes e ((tries.mono (by decide)).step raised (by decide))
    ⟨(raised.mcmd? (by decide) m.id).trans (retried_mcmd? hm), (retried_puts m s).later raised.grows, fun h1 => ?_,
      q, (congrArg (List.find? _) (raised.frame.same .pools (by decide))).trans hq, ?_⟩ fun _ h => h
  · rw [← ht2, if_pos h1]
    obtain ⟨x, hx⟩ := Option.isSome_iff_exists.1 hh
    obtain ⟨y, hy⟩ := tries.frame.die_exists (.inl (by decide)) hx
    exact raise_sets _ _ (by simp [hy])
  · rw [hmem]
    simp only [updIf, List.map_map]
    refine List.map_congr_left fun x _ => ?_
    simp only [Function.comp, beq_iff_eq]
    split <;> rfl

/-! ### A Format NVM that lasts too long (R251) -/

omit hu in
/-- R251, R488: a Format NVM without a success for 15,000,000 ticks ends its command, with the others of it. -/
theorem formatNvmTimeout_fails {c : CmdRef} {b : Nat} {e : Bool} (hp : m.purpose = .format c b e)
    (ht : m.at_ + 15000000 ≤ s.clk.tick) (hc : (s.cmd? c).isSome) (hr : (s.ring? c.die c.ring).isSome)
    (hl : (s.die? c.die).any (·.linkUp) = true) : RunsOn (.formatNvmTimeout i) s ending fun t => Completes s t c 0x0150 {} ∧
      ∀ x ∈ t.mcmds, ∀ b' e', x.purpose ≠ .format c b' e' := by
  generalize hu : ({ s with mcmds := s.mcmds.filter fun x => !x.formats c } : State) = u
  have eq : exec (.formatNvmTimeout i) s = .next (settle (complete c 0x0150 {} u)) := by
    show Host.Outcome.next (settle (formatTimedOut i s)) = _
    simp only [formatTimedOut, hm, hp]
    rw [if_pos (by simp [hd, ht]), ← hu]
    rfl
  have runs : s.run.halted = false := by
    simp only [State.drives, Bool.and_eq_true, Bool.not_eq_true'] at hd
    exact hd.1.2
  have able : Completable c u := by
    rw [← hu]
    exact ⟨hc, hr, runs, hl⟩
  have drops : Changes s u [.mcmds] := hu ▸ mcmds_changes ..
  refine .of_changes eq ((drops.mono (by decide)).step (complete_changes ..) fun _ h => h)
    ⟨(complete_completes able _ _).earlier drops.grows (by rw [← hu]; rfl), fun x hx b' e' hx' => ?_⟩ fun _ h => h
  rw [complete_mcmds, ← hu] at hx
  obtain ⟨y, hy, rfl⟩ := List.mem_map.1 hx
  have gone : (spend (fun r _ => r == c) y).formats c = false := by
    rw [spend_formats]
    simpa using (List.mem_filter.1 hy).2
  simp [MCmd.formats, hx'] at gone

end

/-- Settles O53, clause by clause: each completion by what it does to its command's record,
and each failure by `failMember_fails`. -/
theorem memberCommandsEnd : Obligations.MemberCommandsEnd := by
  unfold Obligations.MemberCommandsEnd
  intro i s m nx hm hd hu hnx
  subst hnx
  refine ⟨fun hw => ⟨fun c key pos k hp hc => ⟨fun xs => fetch_reads hm hd hu hw hp hc xs, fun e he =>
    fetch_faults hm hd hu hw hp hc he⟩,
      fun j pos off xs hp => destage_reads hm hd hu hw hp xs, fun hf hl => read_retried hm hd hu hw hf hl⟩,
    fun h => attempt_aborted hm hd hu h,
    fun hw => ⟨fun hp => write_done hm hd hu hw hp, fun hp e he => watched_ends hm hd hu hw hp he, reservation_yields hm hd hu hw,
      fun hf hl hp => ⟨fun h0 => write_retried hm hd hu hw hf hl hp h0, fun p x h1 hx => write_fails hm hd hu hw hf hl hp h1 hx⟩,
      fun p x hp hx => writeProtected_fails hm hd hu hw hp hx⟩,
    fun p x hp hx => ⟨invalidNs_fails hm hd hu hp hx, fun hdone ht => memberTimeout_fails hm hd hu hp hx hdone ht⟩,
    fun n p hpool hp hh => ⟨fun hr => sectorRepaired_counts hm hd hu hpool hp hh hr,
      fun hdone ht => memberCommandRetried_retries hm hd hu hpool hp hh hdone ht⟩,
    fun c b e hp ht hc hr hl => formatNvmTimeout_fails hm hd hp ht hc hr hl⟩

end Sys2Proof.Machine
end

section
/-! SUPPORT. SET FEATURE: how its row ends (R475, R478, R484, R485). -/

namespace Sys2Proof.Machine

/-! ### The end of its command -/

/-- A completion depends on what the dies' links are, of the dies. -/
theorem Completable.linked {ref : CmdRef} {s u : State} {l : List Field} (h : Completable ref s) (f : Frame s u l)
    (hl : .run ∉ l ∧ .cmds ∉ l ∧ .rings ∉ l) (hd : u.dies.map (·.linkUp) = s.dies.map (·.linkUp)) : Completable ref u where
  cmd := by rw [State.cmd?, show u.cmds = s.cmds from f.same .cmds hl.2.1]; exact h.cmd
  ring := by rw [State.ring?, show u.rings = s.rings from f.same .rings hl.2.2]; exact h.ring
  runs := by rw [show u.run = s.run from f.same .run hl.1]; exact h.runs
  link := by
    have k : (u.die? ref.die).map (·.linkUp) = (s.die? ref.die).map (·.linkUp) := by
      simpa [State.die?] using congrArg (·[ref.die]?) hd
    rw [any_eq_map_getD, show (u.die? ref.die).map (fun x => x.linkUp) = _ from k, ← any_eq_map_getD]
    exact h.link

section
variable {p : Post} {r : Ring} {s u : State} {l m : List Field} {P : State → Prop} (h : Permitted .setFeature p r s)
include h

theorem setFeature_exec {t : State} (e : setFeature (cmdOf .setFeature p r s) (startOf .setFeature p r s) = t) :
    exec (rowOf .setFeature p) s = .next (after .setFeature t) := by
  rw [exec_rowOf, ← e]
  exact congrArg (fun t => Host.Outcome.next (after .setFeature t)) (h.dispatch setFeature)

/-- R116: SET FEATURE answers a failing status. -/
theorem setFeature_refuses {st : W16}
    (e : setFeature (cmdOf .setFeature p r s) (startOf .setFeature p r s) = fail r.ref st (startOf .setFeature p r s)) :
    Refuses .setFeature p r s st false :=
  ⟨_, setFeature_exec h e, completes_of_grows h.toTaken.completable (by rw [h.toTaken.cmd]; rfl) (.of_eq (by simp)) _ _,
    ((dispatched_frame ..).mono (by decide)).trans ((complete_changes ..).frame.mono (by decide))⟩

theorem started_away (k : Changes (startOf .setFeature p r s) u m) (hm : .cmds ∉ m) : (u.cmd? r.ref).any Cmd.away = false := by
  rw [State.cmd?, show u.cmds = _ from k.frame.same .cmds hm]
  exact congrArg (fun o : Option Cmd => o.any Cmd.away) h.toTaken.cmd

/-- R475: SET FEATURE answers 0000h. -/
theorem setFeature_does (e : setFeature (cmdOf .setFeature p r s) (startOf .setFeature p r s) = ok r.ref 0 u)
    (k : Changes (startOf .setFeature p r s) u m) (hm : .run ∉ m ∧ .cmds ∉ m ∧ .rings ∉ m)
    (hd : u.dies.map (·.linkUp) = s.dies.map (·.linkUp)) (hsub : ∀ f ∈ m, f ∈ l ++ answering)
    (hans : ∀ f ∈ answering, f ∈ l ++ answering) (hp : P (ok r.ref 0 u)) : Does .setFeature p r s 0 l P := by
  have able : Completable r.ref u := h.toTaken.completable.linked k.frame hm (by simpa using hd)
  have starts : Grows s (startOf .setFeature p r s) := .of_eq (by simp)
  have sub : ∀ f ∈ [Field.arb, .rings, .buckets, .cmds], f ∈ answering := by decide
  have sub' : ∀ f ∈ ending, f ∈ answering := by decide
  exact ⟨_, setFeature_exec h e, completes_of_grows able (started_away h k hm.2.1) (starts.trans k.grows) _ _, hp,
    (((dispatched_frame ..).mono fun f hf => hans f (sub f hf)).trans (k.frame.mono hsub)).trans
      ((complete_changes ..).frame.mono fun f hf => hans f (sub' f hf))⟩

/-- R484: a value that the features hold takes effect later. -/
theorem setFeature_sets {x : FeatSt}
    (e : setFeature (cmdOf .setFeature p r s) (startOf .setFeature p r s) = ok r.ref 0 { startOf .setFeature p r s with feat := x })
    (hp : ∀ t : State, t.feat = x → t.clk = s.clk → P t) : Does .setFeature p r s 0 [.feat] P := by
  have ends := complete_changes r.ref 0 { result := BitVec.ofNat 64 0 } { startOf .setFeature p r s with feat := x }
  refine setFeature_does h e (feat_changes ..) (by decide) (by simp) (by decide) (by decide) (hp _ ?_ ?_)
  · exact ends.frame.same .feat (by decide)
  · exact (show _ = (startOf .setFeature p r s).clk from ends.frame.same .clk (by decide)).trans (by simp)

/-- R366, R478: a value that is configuration. -/
theorem setFeature_makes {x : FeatSt}
    (e : setFeature (cmdOf .setFeature p r s) (startOf .setFeature p r s) =
      changed r.ref 0 { startOf .setFeature p r s with feat := x }) :
    Makes .setFeature p r s 0 [.feat] fun t => t.feat = x := by
  generalize hu : ({ startOf .setFeature p r s with feat := x } : State) = u at e
  have sets : Changes (startOf .setFeature p r s) u [.feat] := hu ▸ feat_changes ..
  have starts : Grows s (startOf .setFeature p r s) := .of_eq (by simp)
  have hpair : u.pair.state = s.pair.state := by rw [← hu]; simp
  have ahead : Frame s u ([.feat] ++ answering) := ((dispatched_frame ..).mono (by decide)).trans (sets.frame.mono (by decide))
  have hcmd : u.cmd? r.ref = some (cmdOf .setFeature p r s) := by rw [← hu]; exact h.toTaken.cmd
  by_cases paired : s.pair.state = .paired
  · have e' : changed r.ref 0 u = u.updCmd r.ref fun c => {
      c with stage := .waiting, told := some ⟨BitVec.ofNat 64 0, [], none⟩ } :=
      if_pos (hpair.trans paired)
    refine ⟨_, setFeature_exec h (e.trans e'), by rw [← hu]; rfl, ahead.trans ((updCmd_frame ..).mono (by decide)),
      fun hn => absurd paired hn, fun _ => ⟨_, updCmd_cmd?_self (fun _ h => h) hcmd, rfl, rfl⟩⟩
  · have e' : changed r.ref 0 u = complete r.ref 0 { result := BitVec.ofNat 64 0, extra := [] } u :=
      if_neg (by rw [hpair]; exact paired)
    have ends := complete_changes r.ref 0 { result := BitVec.ofNat 64 0, extra := [] } u
    have able : Completable r.ref u := h.toTaken.completable.linked sets.frame (by decide) (by rw [← hu])
    refine ⟨_, setFeature_exec h (e.trans e'), (show _ = u.feat from ends.frame.same .feat (by decide)).trans (by rw [← hu]),
      ahead.trans (ends.frame.mono (by decide)),
      fun _ => completes_of_grows able (started_away h sets (by decide)) (starts.trans sets.grows) _ _, fun hn => absurd hn paired⟩

/-- R485: a value that takes effect once it can. -/
theorem setFeature_waits {fid sel : Nat} (e : setFeature (cmdOf .setFeature p r s) (startOf .setFeature p r s) =
      waitFeature (cmdOf .setFeature p r s) fid sel u) (k : Changes (startOf .setFeature p r s) u m) (hm : .cmds ∉ m)
    (hsub : ∀ f ∈ .feat :: m, f ∈ l ++ [.arb, .rings, .buckets, .cmds])
    (hans : ∀ f ∈ [Field.arb, .rings, .buckets, .cmds], f ∈ l ++ [.arb, .rings, .buckets, .cmds])
    (hp : P (waitFeature (cmdOf .setFeature p r s) fid sel u)) : Waits .setFeature p r s l P := by
  have hcmd : u.cmd? r.ref = some (cmdOf .setFeature p r s) :=
    (congrArg (List.find? _) (k.frame.same .cmds hm)).trans h.toTaken.cmd
  refine ⟨_, setFeature_exec h e, ⟨_, updCmd_cmd?_self (fun _ h => h) hcmd, rfl⟩, hp, ?_⟩
  have waits := ((updCmd_changes u r.ref fun c => { c with stage := .waiting }).mono (m := [.feat, .cmds]) (by decide)).step
    (feat_changes _ { u.feat with waiters := u.feat.waiters ++ [(r.ref, fid, sel)] }) (by decide)
  refine (((dispatched_frame ..).mono hans).trans (k.frame.mono fun f hf => hsub f (List.mem_cons_of_mem _ hf))).trans
    (waits.frame.mono fun f hf => ?_)
  obtain rfl | hf := List.mem_cons.1 hf
  · exact hsub _ (List.mem_cons_self ..)
  · exact hans f (by rw [List.mem_singleton.1 hf]; decide)

end

/-! ### Values in the entry alone -/

theorem setFeature_ok {c : Cmd} {s u : State} {k : Nat} (hk : c.entry.param 44 1 = k) (hn : k ∉ [4, 5, 7, 9, 10, 11])
    (hu : setSimple c k (c.entry.param 46 2) s = .ok u) : setFeature c s = ok c.ref 0 u := by
  simp only [List.mem_cons, List.not_mem_nil, or_false, not_or] at hn
  obtain ⟨h4, h5, h7, h9, h10, h11⟩ := hn
  unfold setFeature
  simp only [hk, hu]
  exact if_neg (by simp [h9, h10])

theorem setFeature_changed {c : Cmd} {s u : State} {k : Nat} (hk : c.entry.param 44 1 = k) (hn : k = 9 ∨ k = 10)
    (hu : setSimple c k (c.entry.param 46 2) s = .ok u) : setFeature c s = changed c.ref 0 u := by
  unfold setFeature
  obtain rfl | rfl := hn <;> simp only [hk, hu] <;> rfl

theorem setFeature_error {c : Cmd} {s : State} {k : Nat} {st : W16} (hk : c.entry.param 44 1 = k) (hn : k ∉ [4, 5, 7, 11])
    (hu : setSimple c k (c.entry.param 46 2) s = .error st) : setFeature c s = fail c.ref st s := by
  simp only [List.mem_cons, List.not_mem_nil, or_false, not_or] at hn
  obtain ⟨h4, h5, h7, h11⟩ := hn
  unfold setFeature
  simp only [hk, hu]

end Sys2Proof.Machine
end

section
/-! SUPPORT. Protected-region sizes that are asked for: taken where the dirty data fits them (R160, R162). -/

namespace Sys2Proof.Machine

/-! ### The dirty data of a die (R160) -/

theorem dirtyBytes_congr {s t : State} (hc : t.cache = s.cache) (hh : ∀ v, homeOf t v = homeOf s v) (d : Nat) :
    dirtyBytes t d = dirtyBytes s d := by
  simp only [dirtyBytes, hc, hh]

theorem Frame.dirtyBytes {s t : State} {l : List Field} (f : Frame s t l) (h : .cache ∉ l ∧ .vols ∉ l ∧ .pools ∉ l) (d : Nat) :
    dirtyBytes t d = dirtyBytes s d := by
  have hv : t.vols = s.vols := f.same .vols h.2.1
  have hp : t.pools = s.pools := f.same .pools h.2.2
  exact dirtyBytes_congr (f.same .cache h.1) (fun v => by simp only [homeOf, State.vol?, State.pool?, hv, hp]) d

/-- R160: stripes that are queued move no dirty data. -/
theorem Stays.dirtyBytes {s t : State} {l : List Field} (h : Stays s t l) (e : .cache ∉ l ∧ .vols ∉ l) (d : Nat) :
    dirtyBytes t d = dirtyBytes s d := by
  have hv : t.vols = s.vols := h.frame.same .vols e.2
  have home (n : Nat) : (t.pool? n).map (·.home) = (s.pool? n).map (·.home) := by
    have k : (t.pool? n).map Pool.site = (s.pool? n).map Pool.site := by rw [pool?_site, h.sites, ← pool?_site]
    simpa [Function.comp_def, Pool.site] using congrArg (Option.map fun x : Nat × Nat × Bool × Geom × Nat × List Member => x.2.1) k
  refine dirtyBytes_congr (h.frame.same .cache e.1) (fun v => ?_) d
  simp only [homeOf, State.vol?, hv]
  cases List.find? _ s.vols with
  | none => rfl
  | some w => exact home w.pool

theorem dispatched_dirtyBytes (r : Ring) (op : Op) (p : Post) (s : State) (d : Nat) :
    dirtyBytes (dispatched r op p s) d = dirtyBytes s d := dirtyBytes_congr (by simp) (dispatched_homeOf r op p s) d

/-- R160, R162: a size that the dirty data fits queues nothing. -/
theorem queueOldest_zero (d : Nat) (s : State) : queueOldest d 0 s = s := by
  have none_old (l : List CBlk) : oldest 0 l = [] := by cases l <;> rfl
  simp only [queueOldest, none_old]
  rfl

/-! ### One size that waits -/

/-- R160: a die with a size. -/
def withProt (g : Nat) (x : DieSt) : DieSt := { x with protGib := g, protSet := true }

/-- R160: a size that waits is taken where it fits. -/
def takeSize (s : State) (e : Nat × Nat) : State :=
  if fits s e.1 e.2 then
    { s.updDie e.1 (withProt e.2) with feat := { s.feat with protNext := s.feat.protNext.filter fun x => x.1 != e.1 } }
  else s

theorem applyProt_eq (s : State) : applyProt s = s.feat.protNext.foldl takeSize s := rfl

theorem takeSize_changes (s : State) (e : Nat × Nat) : Changes s (takeSize s e) [.feat, .health] := by
  unfold takeSize
  split
  · exact ((updDie_changes s e.1 (withProt e.2) fun _ => ⟨rfl, rfl, rfl, rfl, rfl, rfl, rfl⟩).mono (by decide)).step
      (feat_changes ..) (by decide)
  · exact .refl ..

theorem takeSize_links (s : State) (e : Nat × Nat) : (takeSize s e).dies.map (·.linkUp) = s.dies.map (·.linkUp) := by
  unfold takeSize
  split
  · exact updDie_map (·.linkUp) s e.1 _ fun _ => rfl
  · rfl

theorem takeSize_fits (s : State) (e : Nat × Nat) (d g : Nat) : fits (takeSize s e) d g = fits s d g := by
  rw [fits, fits, (takeSize_changes s e).frame.dirtyBytes (by decide)]

theorem takeSize_die? (s : State) (e : Nat × Nat) (d : Nat) :
    (takeSize s e).die? d = if fits s e.1 e.2 = true ∧ e.1 = d then (s.die? d).map (withProt e.2) else s.die? d := by
  unfold takeSize
  by_cases hf : fits s e.1 e.2 = true
  · rw [if_pos hf]
    simp only [hf, true_and]
    exact updDie_die? ..
  · rw [if_neg hf, if_neg fun h => hf h.1]

/-- R160: die d has the size g, and none waits for it. -/
def SizeTaken (d g : Nat) (t : State) : Prop := (∃ y, t.die? d = some y ∧ y.protGib = g) ∧ ∀ e ∈ t.feat.protNext, e.1 ≠ d

theorem takeSize_waiting {s : State} {e x : Nat × Nat} (h : x ∈ (takeSize s e).feat.protNext) : x ∈ s.feat.protNext := by
  unfold takeSize at h
  split at h
  · exact (List.mem_filter.1 h).1
  · exact h

theorem SizeTaken.keep {d g : Nat} {s : State} (h : SizeTaken d g s) {e : Nat × Nat} (he : e.1 = d → e.2 = g) :
    SizeTaken d g (takeSize s e) := by
  obtain ⟨⟨y, hy, hg⟩, none⟩ := h
  refine ⟨?_, fun x hx => none x (takeSize_waiting hx)⟩
  rw [takeSize_die?, hy]
  split
  · next h => exact ⟨_, rfl, he h.2⟩
  · exact ⟨y, rfl, hg⟩

theorem takeSize_takes {d g : Nat} {s : State} (hx : (s.die? d).isSome) (hf : fits s d g = true) :
    SizeTaken d g (takeSize s (d, g)) := by
  obtain ⟨x, hx⟩ := Option.isSome_iff_exists.1 hx
  refine ⟨⟨withProt g x, by rw [takeSize_die?, if_pos ⟨hf, rfl⟩, hx]; rfl, rfl⟩, fun e he => ?_⟩
  rw [takeSize, if_pos hf] at he
  simpa using (List.mem_filter.1 he).2

/-- R160: a size that fits is taken. -/
theorem takeSizes_take {d g : Nat} {l : List (Nat × Nat)} (hl : (d, g) ∈ l) (hu : ∀ e ∈ l, e.1 = d → e.2 = g) {s : State}
    (hx : (s.die? d).isSome) (hf : fits s d g = true) : SizeTaken d g (l.foldl takeSize s) := by
  induction l generalizing s with
  | nil => cases hl
  | cons b l ih =>
    have hu' : ∀ e ∈ l, e.1 = d → e.2 = g := fun e he => hu e (List.mem_cons_of_mem _ he)
    obtain rfl | hm := List.mem_cons.1 hl
    · exact List.foldlRecOn l takeSize (takeSize_takes hx hf) fun t k e he => k.keep (hu' e he)
    · refine ih hm hu' ?_ (by rw [takeSize_fits]; exact hf)
      rw [takeSize_die?]
      split <;> simp [hx]

/-- R160: die d keeps its size x, and g waits for it. -/
def SizeWaits (d g x : Nat) (t : State) : Prop :=
  (∃ y, t.die? d = some y ∧ y.protGib = x) ∧ (d, g) ∈ t.feat.protNext ∧ fits t d g = false

theorem SizeWaits.keep {d g x : Nat} {s : State} (h : SizeWaits d g x s) {e : Nat × Nat} (he : e.1 = d → e.2 = g) :
    SizeWaits d g x (takeSize s e) := by
  obtain ⟨hy, hm, hf⟩ := h
  by_cases hd : e.1 = d
  · have same : takeSize s e = s := if_neg (by rw [hd, he hd, hf]; simp)
    rw [same]
    exact ⟨hy, hm, hf⟩
  · refine ⟨by rw [takeSize_die?, if_neg fun h => hd h.2]; exact hy, ?_, by rw [takeSize_fits]; exact hf⟩
    unfold takeSize
    split
    · exact List.mem_filter.2 ⟨hm, by simpa using Ne.symm hd⟩
    · exact hm

/-! ### SET FEATURE 04h (R485) -/

/-- R485: a size asked for some dies, in place of those that waited. -/
def askSizes (ds : List Nat) (g : Nat) (s : State) : State :=
  { s with feat := { s.feat with protNext := s.feat.protNext.filter (fun e => !ds.contains e.1) ++ ds.map fun d => (d, g) } }

/-- R160: the oldest stripes beyond a size asked for are queued. -/
def queueOver (g : Nat) (s : State) (d : Nat) : State := queueOldest d (dirtyBytes s d - g * 2 ^ 30) s

/-- R160: the sizes asked for, queued for and taken where they fit. -/
def sizesAsked (ds : List Nat) (g : Nat) (s : State) : State := applyProt (ds.foldl (queueOver g) (askSizes ds g s))

theorem asked_size {ds : List Nat} {g : Nat} {s : State} {e : Nat × Nat} (he : e ∈ (askSizes ds g s).feat.protNext) {d : Nat}
    (hd : d ∈ ds)
    (h : e.1 = d) : e.2 = g := by
  obtain he | he := List.mem_append.1 he
  · have k := (List.mem_filter.1 he).2
    simp [h, hd] at k
  · obtain ⟨_, -, rfl⟩ := List.mem_map.1 he
    rfl

theorem asked_mem {ds : List Nat} {g d : Nat} {s : State} (hd : d ∈ ds) : (d, g) ∈ (askSizes ds g s).feat.protNext :=
  List.mem_append_right _ (List.mem_map_of_mem hd)

theorem askSizes_changes (ds : List Nat) (g : Nat) (s : State) : Changes s (askSizes ds g s) [.feat] := feat_changes ..

theorem queued_stays (ds : List Nat) (g : Nat) (s : State) : Stays s (ds.foldl (queueOver g) s) [.pools] :=
  foldl_stays _ (fun _ _ => queueOldest_stays ..) ..

theorem taken_changes (s : State) : Changes s (applyProt s) [.feat, .health] := foldl_changes _ takeSize_changes ..

theorem sizesAsked_changes (ds : List Nat) (g : Nat) (s : State) : Changes s (sizesAsked ds g s) [.feat, .health, .pools] :=
  (((askSizes_changes ds g s).mono (by decide)).step (queued_stays ds g _).toChanges (by decide)).step (taken_changes _) (by decide)

theorem sizesAsked_links (ds : List Nat) (g : Nat) (s : State) : (sizesAsked ds g s).dies.map (·.linkUp) =
    s.dies.map (·.linkUp) := by
  have taken (s : State) : (applyProt s).dies.map (·.linkUp) = s.dies.map (·.linkUp) :=
    foldl_keeps (fun s : State => s.dies.map (·.linkUp)) takeSize takeSize_links ..
  have core : (ds.foldl (queueOver g) (askSizes ds g s)).dies.map DieSt.core = (askSizes ds g s).dies.map DieSt.core :=
    (queued_stays ds g _).frame.same .health (by decide)
  have link (t : State) : t.dies.map (·.linkUp) = (t.dies.map DieSt.core).map (·.linkUp) := by
    rw [List.map_map]; rfl
  rw [sizesAsked, taken, link, core, ← link]
  rfl

theorem queued_feat (ds : List Nat) (g : Nat) (s : State) :
    (ds.foldl (queueOver g) (askSizes ds g s)).feat = (askSizes ds g s).feat :=
  (queued_stays ds g _).frame.same .feat (by decide)

theorem queued_dirtyBytes (ds : List Nat) (g : Nat) (s : State) (d : Nat) :
    dirtyBytes (ds.foldl (queueOver g) (askSizes ds g s)) d = dirtyBytes s d :=
  ((queued_stays ds g _).dirtyBytes (by decide) d).trans ((askSizes_changes ds g s).frame.dirtyBytes (by decide) d)

theorem queued_die {ds : List Nat} {g d : Nat} {s : State} {x : DieSt} (hx : s.die? d = some x) :
    ∃ y, (ds.foldl (queueOver g) (askSizes ds g s)).die? d = some y ∧ y.protGib = x.protGib := by
  have f : Frame s (ds.foldl (queueOver g) (askSizes ds g s)) [.feat, .pools] :=
    ((askSizes_changes ds g s).frame.mono (by decide)).trans ((queued_stays ds g _).frame.mono (by decide))
  obtain ⟨y, hy⟩ := f.die_exists (.inl (by decide)) hx
  exact ⟨y, hy, (congrArg DieSt.protGib (f.die_core (by decide) hx hy) : y.core.protGib = _)⟩

/-- R160: a size asked for a die whose dirty data fits it is taken. -/
theorem sizesAsked_take {ds : List Nat} {g d : Nat} {s : State} (hd : d ∈ ds) (hx : (s.die? d).isSome)
    (hf : dirtyBytes s d ≤ g * 2 ^ 30) :
    SizeTaken d g (sizesAsked ds g s) := by
  obtain ⟨x, hx⟩ := Option.isSome_iff_exists.1 hx
  obtain ⟨y, hy, -⟩ := queued_die (ds := ds) (g := g) hx
  have old := queued_feat ds g s
  rw [sizesAsked, applyProt_eq, old]
  exact takeSizes_take (asked_mem hd) (fun e he => asked_size he hd) (by simp [hy]) (by simpa [fits, queued_dirtyBytes] using hf)

/-- R485: a size asked for a die whose dirty data does not fit it yet waits. -/
theorem sizesAsked_wait {ds : List Nat} {g d : Nat} {s : State} {x : DieSt} (hd : d ∈ ds) (hx : s.die? d = some x)
    (hf : g * 2 ^ 30 < dirtyBytes s d) : SizeWaits d g x.protGib (sizesAsked ds g s) := by
  have old := queued_feat ds g s
  rw [sizesAsked, applyProt_eq, old]
  refine List.foldlRecOn _ takeSize ⟨queued_die hx, ?_, ?_⟩ fun t k e he => k.keep (asked_size he hd)
  · rw [old]
    exact asked_mem hd
  · simpa [fits, queued_dirtyBytes] using hf

/-- R160: sizes that all fit queue nothing. -/
theorem sizesAsked_fit {ds : List Nat} {g : Nat} {s : State} (hf : ∀ d ∈ ds, dirtyBytes s d ≤ g * 2 ^ 30) :
    Changes s (sizesAsked ds g s) [.feat, .health] := by
  have none_queued : ds.foldl (queueOver g) (askSizes ds g s) = askSizes ds g s := foldl_same fun d hd => by
    rw [queueOver, (askSizes_changes ds g s).frame.dirtyBytes (by decide), Nat.sub_eq_zero_of_le (hf d hd), queueOldest_zero]
  rw [sizesAsked, none_queued]
  exact ((askSizes_changes ds g s).mono (by decide)).trans (taken_changes _)

theorem setProtected_eq {c : Cmd} {sel g : Nat} {s : State} {ds : List Nat} (hg : c.entry.param 48 2 = g) (hds : selDies s sel = ds)
    (hne : ds ≠ []) (h0 : 1 ≤ g) (hx : ∀ d ∈ ds, ∃ x, s.die? d = some x ∧ g ≤ 3 * ddrGib x / 8) : setProtected c sel s =
    if (sizesAsked ds g s).feat.protNext.any fun e => ds.contains e.1 then waitFeature c 4 sel (sizesAsked ds g s)
    else ok c.ref 0 (sizesAsked ds g s) := by
  have room : ds.any (fun d => (s.die? d).all fun x => decide (3 * ddrGib x / 8 < g)) = false := by
    rw [List.any_eq_false]
    intro d hd
    obtain ⟨x, hx, hle⟩ := hx d hd
    simpa [hx] using hle
  have good : ¬ (ds.isEmpty || g == 0 || ds.any fun d => (s.die? d).all fun x => decide (3 * ddrGib x / 8 < g)) = true := by
    rw [room]
    simp [hne, show g ≠ 0 by omega]
  simp only [setProtected, hg, hds]
  exact if_neg good

end Sys2Proof.Machine
end

section
/-! PROOF. SET FEATURE sets the feature it names (R160, R183, R366, R377, R418, R478, R484 to R486). -/

namespace Sys2Proof.Machine

/-! ### Values that wait for a tick or a window (R418, R484) -/

theorem setFeats_eq {s u : State} (h : u.feat = s.feat) (g : Feats → Feats) :
    setFeats g u = { u with feat := { s.feat with next := some (g (s.feat.next.getD s.feat.now)) } } := by
  rw [setFeats, h]

theorem setLater_eq {s u : State} (h : u.feat = s.feat) (f : Later) :
    setLater f u = { u with feat := { s.feat with later := s.feat.later ++ [f] } } := by
  rw [setLater, h]

/-- R484: several values wait. -/
theorem setLaters_eq (u : State) (g : Nat → Later) (ds : List Nat) :
    ds.foldl (fun s d => setLater (g d) s) u = { u with feat := { u.feat with later := u.feat.later ++ ds.map g } } := by
  induction ds generalizing u with
  | nil => simp
  | cons d ds ih =>
    rw [List.foldl_cons, ih]
    simp [setLater]

/-- R418: with a limit set, those in force stay as they are in the window. -/
theorem setLimit_now {u t : State} {code l : Nat} (hf : t.feat = (setLimit code l u).feat) (hc : t.clk = u.clk) :
    limitsNow t = limitsNow u := by
  rw [limitsNow, hf, hc]
  exact if_pos (le_max_left ..)

/-- R418: the limit is in force from the next window on. -/
theorem setLimit_later {u t : State} {code l : Nat} (hf : t.feat = (setLimit code l u).feat) (hn : unlimited code = false)
    (hw : max (windowAt u.clk.optime) u.feat.limitsAt < windowAt t.clk.optime) : limitOf t code = l := by
  have h : limitsNow t = (code, l) :: ((limitsDue u).filter fun p => p.1 != code) ++ (limitsNow u).filter fun p =>
      !((code, l) :: (limitsDue u).filter fun p => p.1 != code).any fun q => q.1 == p.1 := by
    rw [limitsNow, hf]
    exact if_neg (Nat.not_le.2 hw)
  rw [limitOf, h, hn]
  simp

/-! ### Vaults and the witness (R183, R377) -/

theorem findNs_congr {s t : State} (h : t.nss = s.nss) (d : Bytes) : findNs t d = findNs s d := by simp only [findNs, h]

theorem nsUse_congr {s t : State} (hp : t.pools = s.pools) (hd : t.dies = s.dies) (hw : t.pair = s.pair) (ds : List Nat)
    (role : Nat)
    (n : Option Ns) : nsUse t ds role n = nsUse s ds role n := by
  have roles (k : Nat) : roleOf t k = roleOf s k := by simp only [roleOf, hp, hd, hw]
  simp only [nsUse, roles]

/-- R183: a die in vault mode. -/
def vaulting (ids : List Nat) (h : Nat) (x : DieSt) : DieSt :=
    { x with vault := true, vaultNs := ids, holdUp := h, rateV := 0, rateVr := 0 }

/-- R183: die d is in vault mode. -/
def Vaults (ids : List Nat) (h d : Nat) (t : State) : Prop :=
  ∃ y, t.die? d = some y ∧ y.vault = true ∧ y.vaultNs = ids ∧ y.holdUp = h ∧ y.rateV = 0

theorem vaultings_vault {ids : List Nat} {h d : Nat} {ds : List Nat} {s : State} (hd : d ∈ ds) (hx : (s.die? d).isSome) :
    Vaults ids h d (ds.foldl (fun s d => s.updDie d (vaulting ids h)) s) := by
  refine foldl_attains (E := fun s => (s.die? d).isSome) hd (fun t b hb => ?_) (fun t b hb => ?_) (fun t ht => ?_) hx
  · rw [updDie_die?]
    split <;> simpa using hb
  · obtain ⟨y, hy, hv⟩ := hb
    rw [Vaults, updDie_die?, hy]
    split
    · exact ⟨_, rfl, rfl, rfl, rfl, rfl⟩
    · exact ⟨y, rfl, hv⟩
  · obtain ⟨x, hx⟩ := Option.isSome_iff_exists.1 ht
    exact ⟨_, updDie_die?_self _ hx, rfl, rfl, rfl, rfl⟩

theorem vaultings_changes (ids : List Nat) (h : Nat) (ds : List Nat) (s : State) :
    Changes s (ds.foldl (fun s d => s.updDie d (vaulting ids h)) s) [.health] :=
  foldl_changes _ (fun s d => updDie_changes s d (vaulting ids h) fun _ => ⟨rfl, rfl, rfl, rfl, rfl, rfl, rfl⟩) ..

theorem dropLater_changes (f : Later → Bool) (s : State) : Changes s (dropLater f s) [.feat] := feat_changes ..

/-- R485: the descriptors that a value of feature 05h names. -/
def vaultDescs (b : Bytes) : List Bytes := ((List.range 4).map fun i => slice b (32 * i) 32).filter fun d => fieldAt d 16 1 != 0

theorem setVault_clears {c : Cmd} {s : State} {sel : Nat} {ds : List Nat} (hds : selDies s sel = ds) (hne : ds ≠ [])
    (hlen : c.dataLen = 128)
    (hm : valueByte c 0 = 0) (hcnt : valueByte c 1 = 0) (hb : vaultDescs c.buf = []) :
    setVault c sel s = ok c.ref 0 (ds.foldl (fun s d => setLater (.hold d (c.entry.param 52 4)) s) s) := by
  have descs : (((List.range 4).map fun i => slice c.buf (32 * i) 32).filter fun d => fieldAt d 16 1 != 0) = [] := hb
  simp only [setVault, hds, hm, hcnt, hlen, descs]
  simp [hne]

theorem setVault_vaults {c : Cmd} {s : State} {sel : Nat} {ds : List Nat} {ns : List Ns} (hds : selDies s sel = ds) (hne : ds ≠ [])
    (hlen : c.dataLen = 128) (hm : valueByte c 0 = 1) (hcnt : (vaultDescs c.buf).length = valueByte c 1)
    (hl : vaultDescs c.buf ≠ [])
    (hh : 64 < c.entry.param 52 4) (hb : ∀ b ∈ vaultDescs c.buf, fieldAt b 16 1 ≤ 2)
    (hns : (vaultDescs c.buf).map (findNs s) = ns.map some)
    (hgood : ∀ d ∈ ds, ∀ n ∈ ns, nsUse s (vaultReach s d) 3 (some n) = none ∧
      ((s.die? d).map fun x => x.protGib * 2 ^ 30 + 2 ^ 25).getD 0 ≤ nsBytes n) :
    setVault c sel s = waitFeature c 5 sel (ds.foldl (fun s d => s.updDie d (vaulting (ns.map (·.id)) (c.entry.param 52 4)))
      (dropLater (holdsOf ds) s)) := by
  have four : valueByte c 1 ≤ 4 := by
    rw [← hcnt]
    exact (List.length_filter_le _ _).trans (by simp)
  have named : valueByte c 1 ≠ 0 := by
    rw [← hcnt]
    simpa using hl
  have types : (vaultDescs c.buf).any (fun d => decide (2 < fieldAt d 16 1)) = false := by
    rw [List.any_eq_false]
    exact fun b k => by simpa using hb b k
  have fine : firstStatus (ds.flatMap fun d => (ns.map some).map fun n => (nsUse s (vaultReach s d) 3 n).orElse fun _ =>
      if n.all fun n => nsBytes n < ((s.die? d).map fun x => x.protGib * 2 ^ 30 + 2 ^ 25).getD 0 then some 0x0401 else none)
        = none := by
    rw [firstStatus, List.findSome?_eq_none_iff]
    intro o ho
    obtain ⟨d, hd, ho⟩ := List.mem_flatMap.1 ho
    obtain ⟨o', ho', rfl⟩ := List.mem_map.1 ho
    obtain ⟨n, hn, rfl⟩ := List.mem_map.1 ho'
    obtain ⟨huse, hroom⟩ := hgood d hd n hn
    rw [huse]
    exact if_neg (by simpa using hroom)
  have ids : ((ns.map some).filterMap id).map (·.id) = ns.map (·.id) := by
    rw [List.filterMap_map]
    simp
  rw [vaultDescs] at hcnt hns types
  simp only [setVault, hds, hm, hlen, hns, fine, ids, types, hcnt]
  rw [if_neg (by simp [hne, named, four, hh]), if_neg (by simp), if_neg (by simp)]
  rfl

theorem setWitness_drops {c : Cmd} {s : State} (hlen : c.dataLen = 32) (h0 : fieldAt c.buf 16 1 = 0) :
    setWitness c s = ok c.ref 0 (setLater .noWitness s) := by
  rw [setWitness, if_neg (by simp [hlen]), if_pos h0]

section
variable {c : Cmd} {s : State} {n : Ns} (hlen : c.dataLen = 32) (h1 : 1 ≤ fieldAt c.buf 16 1) (h2 : fieldAt c.buf 16 1 ≤ 2)
  (hn : findNs s c.buf = some n) (hu : nsUse s [] 4 (some n) = none)
include hlen h1 h2 hn hu

theorem setWitness_eq : setWitness c s = if (s.dieIdx.filter n.reaches).length < 2 then fail c.ref 0x0157 s
    else waitFeature c 7 0 (dropLater (· == .noWitness)
      { s with pair := { s.pair with witness := some n.id, witnessSlow := false } }) := by
  rw [setWitness, if_neg (by simp [hlen]), if_neg (by omega), if_neg (by omega)]
  simp only [hn, hu]

end

/-! ### The clauses -/

section
variable {p : Post} {r : Ring} {s : State}

theorem started_feat (p : Post) (r : Ring) (s : State) : (startOf .setFeature p r s).feat = s.feat := by simp

theorem started_selDies (p : Post) (r : Ring) (s : State) (sel : Nat) :
    selDies (startOf .setFeature p r s) sel = selDies s sel := by
  simp [selDies, State.dieIdx]

theorem started_nsUse (p : Post) (r : Ring) (s : State) (ds : List Nat) (role : Nat) (n : Option Ns) :
    nsUse (startOf .setFeature p r s) ds role n = nsUse s ds role n := nsUse_congr (by simp) (by simp) (by simp) ..

theorem started_vaultReach (p : Post) (r : Ring) (s : State) (d : Nat) :
    vaultReach (startOf .setFeature p r s) d = vaultReach s d := by simp [vaultReach]

theorem selDies_one {s : State} {d : Nat} (hd : d ≠ 0xFFFF) (hx : (s.die? d).isSome) : selDies s d = [d] := by
  simp [selDies, hd, hx]

theorem setFeature_protected (hk : arg p 44 1 = 4) {ds : List Nat} (hds : selDies s (arg p 46 2) = ds) (hne : ds ≠ [])
    (h0 : 1 ≤ arg p 48 2)
    (hx : ∀ d ∈ ds, ∃ x, s.die? d = some x ∧ arg p 48 2 ≤ 3 * ddrGib x / 8) :
    setFeature (cmdOf .setFeature p r s) (startOf .setFeature p r s) =
      if (sizesAsked ds (arg p 48 2) (startOf .setFeature p r s)).feat.protNext.any fun e => ds.contains e.1 then
        waitFeature (cmdOf .setFeature p r s) 4 (arg p 46 2) (sizesAsked ds (arg p 48 2) (startOf .setFeature p r s))
      else ok r.ref 0 (sizesAsked ds (arg p 48 2) (startOf .setFeature p r s)) := by
  have e : setFeature (cmdOf .setFeature p r s) (startOf .setFeature p r s) =
      setProtected (cmdOf .setFeature p r s) (arg p 46 2) (startOf .setFeature p r s) := by
    simp only [setFeature, show (cmdOf .setFeature p r s).entry.param 44 1 = 4 from hk]
    rfl
  rw [e]
  exact setProtected_eq rfl ((started_selDies p r s _).trans hds) hne h0 fun d hd => by simpa using hx d hd

/-- R183: feature 05h. -/
theorem vault_eq (hk : arg p 44 1 = 5) : setFeature (cmdOf .setFeature p r s) (startOf .setFeature p r s) =
    setVault (cmdOf .setFeature p r s) (arg p 46 2) (startOf .setFeature p r s) := by
  simp only [setFeature, show (cmdOf .setFeature p r s).entry.param 44 1 = 5 from hk]
  rfl

/-- R377: feature 07h. -/
theorem witness_eq (hk : arg p 44 1 = 7) (hs : arg p 46 2 = 0) : setFeature (cmdOf .setFeature p r s) (startOf .setFeature p r s) =
    setWitness (cmdOf .setFeature p r s) (startOf .setFeature p r s) := by
  simp only [setFeature, show (cmdOf .setFeature p r s).entry.param 44 1 = 7 from hk]
  exact if_pos hs

/-- R486: feature 0Bh. -/
theorem secret_eq (hk : arg p 44 1 = 11) (hs : arg p 46 2 = 0) : setFeature (cmdOf .setFeature p r s) (startOf .setFeature p r s) =
    setSecret (cmdOf .setFeature p r s) (startOf .setFeature p r s) := by
  simp only [setFeature, show (cmdOf .setFeature p r s).entry.param 44 1 = 11 from hk]
  exact if_pos hs

variable (h : Permitted .setFeature p r s)
include h

theorem started_dataLen : (cmdOf .setFeature p r s).dataLen = p.entry.dlen.toNat := by
  rw [Cmd.dataLen, if_neg (by rw [show (cmdOf .setFeature p r s).entry.ind = false from h.direct]; simp)]
  rfl

/-- R484, R485: features 01h to 03h. -/
theorem admission_sets {f : Feats} (hf : s.feat.next.getD s.feat.now = f) :
    (arg p 44 1 = 1 → arg p 46 2 < 13 → arg p 48 1 ≤ 25 → Does .setFeature p r s 0 [.feat] fun t =>
      t.feat = { s.feat with next := some { f with resv := f.resv.set (arg p 46 2) (arg p 48 1) } }) ∧
    (arg p 44 1 = 1 → arg p 46 2 = 0xFFFF → arg p 48 1 ≤ 25 → Does .setFeature p r s 0 [.feat] fun t =>
      t.feat = { s.feat with next := some { f with resv := f.resv.map fun _ => arg p 48 1 } }) ∧
    (arg p 44 1 = 2 → arg p 46 2 = 0 → 1 ≤ arg p 48 1 → 1 ≤ arg p 49 1 → 1 ≤ arg p 50 1 →
      Does .setFeature p r s 0 [.feat] fun t =>
      t.feat = { s.feat with next := some { f with weights := [arg p 48 1, arg p 49 1, arg p 50 1] } }) ∧
    (arg p 44 1 = 3 → arg p 46 2 = 0 → arg p 48 1 ≤ 100 → 1 ≤ arg p 49 1 → arg p 49 1 ≤ 25 →
      Does .setFeature p r s 0 [.feat] fun t =>
      t.feat = { s.feat with next := some { f with share := arg p 48 1, floor := arg p 49 1 } }) := by
  subst hf
  have sets (g : Feats → Feats) := congrArg (Except.ok (ε := W16)) (setFeats_eq (started_feat p r s) g)
  have resv {l m : List Nat} (e : l = m) : ({ s.feat with next := some { s.feat.next.getD s.feat.now with resv := l } } : FeatSt) =
      { s.feat with next := some { s.feat.next.getD s.feat.now with resv := m } } := by rw [e]
  refine ⟨fun hk hs hb => ?_, fun hk hs hb => ?_, fun hk hs h0 h1 h2 => ?_, fun hk hs h0 h1 h2 => ?_⟩
  · have valid : ¬ ((13 ≤ arg p 46 2 ∧ arg p 46 2 ≠ 0xFFFF) ∨ 25 < arg p 48 1) := by omega
    exact setFeature_sets h (setFeature_ok hk (by decide) ((if_neg valid).trans (sets _))) fun t ht _ =>
      ht.trans (resv (if_neg (show arg p 46 2 ≠ 0xFFFF by omega)))
  · have valid : ¬ ((13 ≤ arg p 46 2 ∧ arg p 46 2 ≠ 0xFFFF) ∨ 25 < arg p 48 1) := by omega
    exact setFeature_sets h (setFeature_ok hk (by decide) ((if_neg valid).trans (sets _))) fun t ht _ => ht.trans (resv (if_pos hs))
  · have valid : ¬ (arg p 46 2 ≠ 0 ∨ arg p 48 1 = 0 ∨ arg p 49 1 = 0 ∨ arg p 50 1 = 0) := by omega
    exact setFeature_sets h (setFeature_ok hk (by decide) ((if_neg valid).trans (sets _))) fun t ht _ => ht
  · have valid : ¬ (arg p 46 2 ≠ 0 ∨ 100 < arg p 48 1 ∨ arg p 49 1 = 0 ∨ 25 < arg p 49 1) := by omega
    exact setFeature_sets h (setFeature_ok hk (by decide) ((if_neg valid).trans (sets _))) fun t ht _ => ht

/-- R160: sizes that the dirty data fits are taken at once. -/
theorem protected_does (hk : arg p 44 1 = 4) {ds : List Nat} (hds : selDies s (arg p 46 2) = ds) (hne : ds ≠ [])
    (h0 : 1 ≤ arg p 48 2)
    (hx : ∀ d ∈ ds, ∃ x, s.die? d = some x ∧ arg p 48 2 ≤ 3 * ddrGib x / 8)
    (hfit : ∀ d ∈ ds, dirtyBytes s d ≤ arg p 48 2 * 2 ^ 30) :
    Does .setFeature p r s 0 [.feat, .health] fun t => ∀ d ∈ ds, ∃ y, t.die? d = some y ∧ y.protGib = arg p 48 2 := by
  generalize hu : sizesAsked ds (arg p 48 2) (startOf .setFeature p r s) = u
  have fit : ∀ d ∈ ds, dirtyBytes (startOf .setFeature p r s) d ≤ arg p 48 2 * 2 ^ 30 := fun d hd => by
    rw [dispatched_dirtyBytes]; exact hfit d hd
  have taken : ∀ d ∈ ds, SizeTaken d (arg p 48 2) u := fun d hd => by
    obtain ⟨x, hx, -⟩ := hx d hd
    exact hu ▸ sizesAsked_take hd (by simp [hx]) (fit d hd)
  have none_left : ¬ (u.feat.protNext.any fun e => ds.contains e.1) = true := by
    rw [Bool.not_eq_true, List.any_eq_false]
    exact fun e he hc => (taken e.1 (by simpa using hc)).2 e he rfl
  have e := setFeature_protected (r := r) hk hds hne h0 hx
  rw [hu, if_neg none_left] at e
  have links : u.dies.map (·.linkUp) = s.dies.map (·.linkUp) := by
    rw [← hu, sizesAsked_links, dispatched_dies]
  refine setFeature_does h e (hu ▸ sizesAsked_fit fit) (by decide) links (by decide) (by decide) fun d hd => ?_
  obtain ⟨⟨y, hy, hg⟩, -⟩ := taken d hd
  have ends := (complete_changes r.ref 0 { result := BitVec.ofNat 64 0 } u).frame
  obtain ⟨z, hz⟩ := ends.die_exists (.inl (by decide)) hy
  exact ⟨z, hz, (congrArg DieSt.protGib (ends.die_core (by decide) hy hz) : z.core.protGib = _).trans hg⟩

/-- R160: a size that the dirty data does not fit waits. -/
theorem protected_waits {x : DieSt} (hk : arg p 44 1 = 4) (hs : arg p 46 2 ≠ 0xFFFF) (hx : s.die? (arg p 46 2) = some x)
    (h0 : 1 ≤ arg p 48 2)
    (hg : arg p 48 2 ≤ 3 * ddrGib x / 8) (hd : arg p 48 2 * 2 ^ 30 < dirtyBytes s (arg p 46 2)) :
    Waits .setFeature p r s [.feat, .health, .pools] fun t =>
      (∃ y, t.die? (arg p 46 2) = some y ∧ y.protGib = x.protGib) ∧ (arg p 46 2, arg p 48 2) ∈ t.feat.protNext ∧
        (r.ref, 4, arg p 46 2) ∈ t.feat.waiters := by
  have changes := sizesAsked_changes [arg p 46 2] (arg p 48 2) (startOf .setFeature p r s)
  have waits : SizeWaits (arg p 46 2) (arg p 48 2) x.protGib (sizesAsked [arg p 46 2] (arg p 48 2) (startOf .setFeature p r s)) :=
    sizesAsked_wait (List.mem_singleton.2 rfl) (by rw [dispatched_die?]; exact hx) (by rw [dispatched_dirtyBytes]; exact hd)
  have e := setFeature_protected (r := r) hk (selDies_one hs (by simp [hx])) (List.cons_ne_nil _ _) h0
    fun d hd => ⟨x, List.mem_singleton.1 hd ▸ hx, hg⟩
  rw [if_pos (List.any_eq_true.2 ⟨(arg p 46 2, arg p 48 2), waits.2.1, by simp⟩)] at e
  generalize sizesAsked [arg p 46 2] (arg p 48 2) (startOf .setFeature p r s) = u at e changes waits
  exact setFeature_waits h e changes (by decide) (by decide) (by decide)
    ⟨waits.1, waits.2.1, List.mem_append_right _ (List.mem_singleton.2 rfl)⟩

/-- R183: feature 05h in hold mode. -/
theorem vault_holds {ds : List Nat} (hk : arg p 44 1 = 5) (hds : selDies s (arg p 46 2) = ds) (hne : ds ≠ [])
    (hlen : p.entry.dlen.toNat = 128)
    (hm : arg p 48 1 = 0) (hcnt : arg p 49 1 = 0) (hb : ∀ i, i < 4 → fieldAt (slice p.buf (32 * i) 32) 16 1 = 0) :
    Does .setFeature p r s 0 [.feat] fun t =>
      t.feat = { s.feat with later := s.feat.later ++ ds.map fun d => .hold d (arg p 52 4) } := by
  have descs : vaultDescs p.buf = [] := by
    rw [vaultDescs, List.filter_eq_nil_iff]
    intro b hmem
    obtain ⟨i, hi, rfl⟩ := List.mem_map.1 hmem
    simp [hb i (List.mem_range.1 hi)]
  have e := (vault_eq hk).trans (setVault_clears (c := cmdOf .setFeature p r s) ((started_selDies p r s _).trans hds) hne
    ((started_dataLen h).trans hlen) hm hcnt descs)
  have laters := setLaters_eq (startOf .setFeature p r s) (fun d => .hold d (arg p 52 4)) ds
  exact setFeature_sets h (e.trans (congrArg (ok r.ref 0) laters)) fun t ht _ => ht.trans (by rw [started_feat])

/-- R183: feature 05h in vault mode. -/
theorem vault_vaults {ds : List Nat} {l : List Bytes} {ns : List Ns} (hk : arg p 44 1 = 5) (hds : selDies s (arg p 46 2) = ds)
    (hne : ds ≠ []) (hx : ∀ d ∈ ds, (s.die? d).isSome) (hlen : p.entry.dlen.toNat = 128) (hm : arg p 48 1 = 1)
    (hh : 64 < arg p 52 4)
    (hl : vaultDescs p.buf = l) (hn : l ≠ []) (hcnt : l.length = arg p 49 1) (hb : ∀ b ∈ l, fieldAt b 16 1 ≤ 2)
    (hns : l.map (findNs s) = ns.map some) (hgood : ∀ d ∈ ds, ∀ n ∈ ns, nsUse s (vaultReach s d) 3 (some n) = none ∧
      ((s.die? d).map fun x => x.protGib * 2 ^ 30 + 2 ^ 25).getD 0 ≤ nsBytes n) :
    Waits .setFeature p r s [.feat, .health] fun t => (r.ref, 5, arg p 46 2) ∈ t.feat.waiters ∧
      ∀ d ∈ ds, Vaults (ns.map (·.id)) (arg p 52 4) d t := by
  subst hl
  have found : (vaultDescs p.buf).map (findNs (startOf .setFeature p r s)) = ns.map some := by
    rw [← hns]
    exact List.map_congr_left fun b _ => findNs_congr (by simp) b
  have good : ∀ d ∈ ds, ∀ n ∈ ns, nsUse (startOf .setFeature p r s) (vaultReach (startOf .setFeature p r s) d) 3 (some n) = none ∧
      (((startOf .setFeature p r s).die? d).map fun x => x.protGib * 2 ^ 30 + 2 ^ 25).getD 0 ≤ nsBytes n := fun d hd n hn => by
    rw [started_nsUse, started_vaultReach, dispatched_die?]
    exact hgood d hd n hn
  have e := (vault_eq hk).trans (setVault_vaults (c := cmdOf .setFeature p r s) ((started_selDies p r s _).trans hds) hne
    ((started_dataLen h).trans hlen) hm hcnt hn hh hb found good)
  have drops := dropLater_changes (holdsOf ds) (startOf .setFeature p r s)
  refine setFeature_waits h e ((drops.mono (m := [.feat, .health]) (by decide)).step (vaultings_changes ..) (by decide))
    (by decide) (by decide)
    (by decide) ⟨List.mem_append_right _ (List.mem_singleton.2 rfl), fun d hd => ?_⟩
  exact vaultings_vault (s := dropLater (holdsOf ds) (startOf .setFeature p r s)) hd (by
    show ((startOf .setFeature p r s).die? d).isSome
    rw [dispatched_die?]
    exact hx d hd)

/-- R485: feature 06h. -/
theorem health_sets (hk : arg p 44 1 = 6) (hs : arg p 46 2 = 0) (ha : arg p 48 8 % 4096 = 0) :
    Does .setFeature p r s 0 [.feat] fun t =>
    t.feat = { s.feat with later := s.feat.later ++ [.health (BitVec.ofNat 64 (arg p 48 8))] } := by
  have valid : ¬ (arg p 46 2 ≠ 0 ∨ arg p 48 8 % 4096 ≠ 0) := by omega
  exact setFeature_sets h (setFeature_ok hk (by decide) ((if_neg valid).trans
    (congrArg Except.ok (setLater_eq (started_feat p r s) _))))
    fun t ht _ => ht

/-- R377: feature 07h without a witness. -/
theorem witness_drops (hk : arg p 44 1 = 7) (hs : arg p 46 2 = 0) (hlen : p.entry.dlen.toNat = 32) (h0 : fieldAt p.buf 16 1 = 0) :
    Does .setFeature p r s 0 [.feat] fun t => t.feat = { s.feat with later := s.feat.later ++ [.noWitness] } := by
  have e := (witness_eq hk hs).trans (setWitness_drops (c := cmdOf .setFeature p r s) ((started_dataLen h).trans hlen) h0)
  rw [setLater_eq (started_feat p r s)] at e
  exact setFeature_sets h e fun t ht _ => ht

theorem witness_step {n : Ns} (hk : arg p 44 1 = 7) (hs : arg p 46 2 = 0) (hlen : p.entry.dlen.toNat = 32)
    (h1 : 1 ≤ fieldAt p.buf 16 1)
    (h2 : fieldAt p.buf 16 1 ≤ 2) (hn : findNs s p.buf = some n) (hu : nsUse s [] 4 (some n) = none) :
    setFeature (cmdOf .setFeature p r s) (startOf .setFeature p r s) = if (s.dieIdx.filter n.reaches).length < 2 then
      fail r.ref 0x0157 (startOf .setFeature p r s) else waitFeature (cmdOf .setFeature p r s) 7 0 (dropLater (· == .noWitness)
        { startOf .setFeature p r s with pair := { s.pair with witness := some n.id, witnessSlow := false } }) := by
  have e := (witness_eq hk hs).trans (setWitness_eq (c := cmdOf .setFeature p r s) (s := startOf .setFeature p r s)
    ((started_dataLen h).trans hlen) h1 h2 ((findNs_congr (by simp) _).trans hn) ((started_nsUse ..).trans hu))
  have idx : (startOf .setFeature p r s).dieIdx = s.dieIdx := by simp [State.dieIdx]
  rwa [idx, dispatched_pair] at e

/-- R377: feature 07h with a witness that two dies reach. -/
theorem witness_waits {n : Ns} (hk : arg p 44 1 = 7) (hs : arg p 46 2 = 0) (hlen : p.entry.dlen.toNat = 32)
    (h1 : 1 ≤ fieldAt p.buf 16 1)
    (h2 : fieldAt p.buf 16 1 ≤ 2) (hn : findNs s p.buf = some n) (hu : nsUse s [] 4 (some n) = none)
    (ht : 2 ≤ (s.dieIdx.filter n.reaches).length) : Waits .setFeature p r s [.feat, .pair] fun t =>
      t.pair = { s.pair with witness := some n.id, witnessSlow := false } ∧ (r.ref, 7, 0) ∈ t.feat.waiters := by
  have e := witness_step h hk hs hlen h1 h2 hn hu
  rw [if_neg (by omega)] at e
  exact setFeature_waits h e (((pair_changes ..).mono (m := [.feat, .pair]) (by decide)).step (dropLater_changes ..) (by decide))
    (by decide)
    (by decide) (by decide) ⟨rfl, List.mem_append_right _ (List.mem_singleton.2 rfl)⟩

/-- R418: feature 08h. -/
theorem limit_sets (hk : arg p 44 1 = 8) (hn : unlimited (arg p 46 2) = false) : Does .setFeature p r s 0 [.feat] fun t =>
    (∀ k, limitOf t k = limitOf s k) ∧ ∀ o, max (windowAt s.clk.optime) s.feat.limitsAt < windowAt o →
      limitOf { t with clk := { t.clk with optime := o } } (arg p 46 2) = arg p 48 1 := by
  have same : limitsNow (startOf .setFeature p r s) = limitsNow s := by simp [limitsNow]
  refine setFeature_sets h (setFeature_ok hk (by decide) (if_neg (show ¬ unlimited (arg p 46 2) = true by simp [hn])))
    fun t ht hc => ⟨fun k => ?_, fun o ho => ?_⟩
  · rw [limitOf, limitOf, setLimit_now ht (hc.trans (by simp)), same]
  · exact setLimit_later (t := { t with clk := { t.clk with optime := o } }) ht hn (by simpa using ho)

/-- R366, R478: feature 09h. -/
theorem policy_makes {v : Vol} (hk : arg p 44 1 = 9) (hv : s.vol? (arg p 46 2) = some v)
    (hp : permits (cmdOf .setFeature p r s) v = true)
    (hb : arg p 48 1 ≤ 1) : Makes .setFeature p r s 0 [.feat] fun t =>
      t.feat = { s.feat with later := s.feat.later ++ [.policy (arg p 46 2) (arg p 48 1 == 1)] } := by
  have hv' : (startOf .setFeature p r s).vol? (arg p 46 2) = some v := by simpa using hv
  refine setFeature_makes h (setFeature_changed hk (.inl rfl) ?_)
  simp only [setSimple, show (cmdOf .setFeature p r s).entry.param 46 2 = arg p 46 2 from rfl, hv', hp]
  refine (if_neg (by simp)).trans ((if_neg (Nat.not_lt.2 hb)).trans (congrArg Except.ok (setLater_eq (started_feat p r s) _)))

/-- R480: another tenant's volume. -/
theorem policy_refuses {v : Vol} (hk : arg p 44 1 = 9) (hv : s.vol? (arg p 46 2) = some v)
    (hp : permits (cmdOf .setFeature p r s) v = false) :
    Refuses .setFeature p r s 0x0302 false := by
  have hv' : (startOf .setFeature p r s).vol? (arg p 46 2) = some v := by simpa using hv
  refine setFeature_refuses h (setFeature_error hk (by decide) ?_)
  simp only [setSimple, show (cmdOf .setFeature p r s).entry.param 46 2 = arg p 46 2 from rfl, hv', hp]
  exact if_pos rfl

/-- R366, R478: feature 0Ah. -/
theorem age_makes (hk : arg p 44 1 = 10) (hq : (s.pool? (arg p 46 2)).isSome) (hb : 1 ≤ arg p 48 2) :
    Makes .setFeature p r s 0 [.feat] fun t =>
    t.feat = { s.feat with later := s.feat.later ++ [.age (arg p 46 2) (arg p 48 2)] } := by
  obtain ⟨q, hq⟩ := Option.isSome_iff_exists.1 hq
  have hq' : (startOf .setFeature p r s).pool? (arg p 46 2) = some q := by simpa using hq
  refine setFeature_makes h (setFeature_changed hk (.inr rfl) ?_)
  simp only [setSimple, show (cmdOf .setFeature p r s).entry.param 46 2 = arg p 46 2 from rfl, hq']
  exact (if_neg (show ¬ arg p 48 2 = 0 by omega)).trans (congrArg Except.ok (setLater_eq (started_feat p r s) _))

/-- R486: the MAC that a new secret needs. -/
def provesSecret (p : Post) (r : Ring) (s : State) : Bool :=
  match s.log.secret with
  | none => slice p.buf 32 32 == zeros 32 && s.isPf r.die r.fn && (s.ringTenant r).isNone
  | some k => slice p.buf 32 32 == Config.hmac k (slice p.buf 0 32)

theorem secret_step (hk : arg p 44 1 = 11) (hs : arg p 46 2 = 0) (hlen : p.entry.dlen.toNat = 64) :
    setFeature (cmdOf .setFeature p r s) (startOf .setFeature p r s) = if provesSecret p r s then
      ok r.ref 0 (setLater (.secret (slice p.buf 0 32)) (startOf .setFeature p r s))
      else fail r.ref 0x0304 (startOf .setFeature p r s) := by
  have pf : (startOf .setFeature p r s).isPf r.die r.fn = s.isPf r.die r.fn := by simp [State.isPf, State.split]
  rw [secret_eq hk hs, setSecret, if_neg (by simp [started_dataLen h, hlen]), dispatched_log]
  unfold provesSecret
  rw [← pf]
  rfl

end

/-! ### Values outside the limits -/

section
variable {p : Post} {r : Ring} {s : State} (h : Permitted .setFeature p r s)
include h

/-- R485: a value that the entry alone gives, and that is outside its limits. -/
theorem simple_refuses {k : Nat} (hk : arg p 44 1 = k) (hn : k ∉ [4, 5, 7, 11])
    (e : setSimple (cmdOf .setFeature p r s) k (arg p 46 2) (startOf .setFeature p r s) = .error 0x0103) :
    Refuses .setFeature p r s 0x0103 false := setFeature_refuses h (setFeature_error hk hn e)

theorem unknown_refuses (hk : arg p 44 1 = 0 ∨ 11 < arg p 44 1) : Refuses .setFeature p r s 0x0103 false := by
  generalize hf : arg p 44 1 = k at hk
  refine simple_refuses h hf (by simp; omega) ?_
  unfold setSimple
  split
  case h_8 => rfl
  all_goals omega

theorem protected_refuses (hk : arg p 44 1 = 4) (h0 : arg p 48 2 = 0) : Refuses .setFeature p r s 0x0103 false := by
  refine setFeature_refuses h ?_
  simp only [setFeature, show (cmdOf .setFeature p r s).entry.param 44 1 = 4 from hk]
  rw [setProtected]
  exact if_pos (by simp [show (cmdOf .setFeature p r s).entry.param 48 2 = 0 from h0])

/-- R485: the values outside the limits of features 01h to 03h. -/
theorem admission_refuses (hv : (arg p 44 1 = 1 ∧ ((13 ≤ arg p 46 2 ∧ arg p 46 2 ≠ 0xFFFF) ∨ 25 < arg p 48 1)) ∨
    (arg p 44 1 = 2 ∧ (arg p 46 2 ≠ 0 ∨ arg p 48 1 = 0 ∨ arg p 49 1 = 0 ∨ arg p 50 1 = 0)) ∨
    (arg p 44 1 = 3 ∧ (arg p 46 2 ≠ 0 ∨ 100 < arg p 48 1 ∨ arg p 49 1 = 0 ∨ 25 < arg p 49 1))) :
    Refuses .setFeature p r s 0x0103 false := by
  obtain ⟨hk, hv⟩ | ⟨hk, hv⟩ | ⟨hk, hv⟩ := hv
  · exact simple_refuses h hk (by decide) (if_pos hv)
  · exact simple_refuses h hk (by decide) (if_pos hv)
  · exact simple_refuses h hk (by decide) (if_pos hv)

theorem health_refuses (hk : arg p 44 1 = 6) (hv : arg p 46 2 ≠ 0 ∨ arg p 48 8 % 4096 ≠ 0) :
    Refuses .setFeature p r s 0x0103 false :=
  simple_refuses h hk (by decide) (if_pos hv)

theorem limit_refuses (hk : arg p 44 1 = 8) (hv : unlimited (arg p 46 2) = true) : Refuses .setFeature p r s 0x0103 false :=
  simple_refuses h hk (by decide) (if_pos hv)

theorem policy_unknown (hk : arg p 44 1 = 9) (hv : s.vol? (arg p 46 2) = none) : Refuses .setFeature p r s 0x0103 false := by
  have hv' : (startOf .setFeature p r s).vol? (arg p 46 2) = none := by simpa using hv
  exact simple_refuses h hk (by decide) (by simp only [setSimple, hv'])

theorem age_refuses (hk : arg p 44 1 = 10) (hv : s.pool? (arg p 46 2) = none ∨ arg p 48 2 = 0) :
    Refuses .setFeature p r s 0x0103 false := by
  refine simple_refuses h hk (by decide) ?_
  have same : (startOf .setFeature p r s).pool? (arg p 46 2) = s.pool? (arg p 46 2) := by simp
  simp only [setSimple, same]
  cases hq : s.pool? (arg p 46 2) with
  | none => rfl
  | some q => exact if_pos (hv.resolve_left (by simp [hq]))

end

/-- R485: one die, or all of them. -/
theorem selDies_eq {s : State} {sel : Nat} {ds : List Nat} (h : (if sel = 0xFFFF then s.dieIdx else [sel]) = ds)
    (hx : ∀ d ∈ ds, (s.die? d).isSome) :
    selDies s sel = ds := by
  unfold selDies
  by_cases hs : sel = 0xFFFF
  · rwa [if_pos hs] at h ⊢
  · rw [if_neg hs] at h ⊢
    subst h
    simpa using hx sel (List.mem_singleton.2 rfl)

/-- Settles O21, feature by feature: what `setFeature` comes to, and how its row ends then (`setFeature_sets`, `setFeature_makes`,
`setFeature_waits`, `setFeature_refuses`). -/
theorem featuresSet : Obligations.FeaturesSet := by
  unfold Obligations.FeaturesSet
  intro p r s h
  refine ⟨fun f hf => admission_sets h hf, fun x hk hs hx h0 hg => ⟨fun hd => ?_, fun hd => protected_waits h hk hs hx h0 hg hd⟩,
    fun hk hs hne h0 hx => ?_, fun ds hk hds hne hx hlen =>
      ⟨fun hm hcnt hb => vault_holds h hk (selDies_eq hds hx) hne hlen hm hcnt hb,
      fun l ns hm hh hl hn hcnt hb hns hgood => vault_vaults h hk (selDies_eq hds hx) hne hx hlen hm hh hl hn hcnt hb hns hgood⟩,
    fun hk hs ha => health_sets h hk hs ha,
    fun hk hs hlen => ⟨fun h0 => witness_drops h hk hs hlen h0,
      fun n h1 h2 hn hu => ⟨fun ht => witness_waits h hk hs hlen h1 h2 hn hu ht,
      fun ht => setFeature_refuses h ((witness_step h hk hs hlen h1 h2 hn hu).trans (if_pos ht))⟩⟩,
    fun hk hn => limit_sets h hk hn,
    fun v hk hv => ⟨fun hp hb => policy_makes h hk hv hp hb, fun hp => policy_refuses h hk hv hp⟩,
    fun hk hq hb => age_makes h hk hq hb, fun good hk hs hlen hgood => ⟨fun hg => ?_, fun hg => ?_⟩, fun hv => ?_⟩
  · obtain ⟨t, e, ans, ht, f⟩ := protected_does h hk (selDies_one hs (by simp [hx])) (by simp) h0 (by simpa using ⟨x, hx, hg⟩)
      (by simpa using hd)
    exact ⟨t, e, ans, ht _ (List.mem_singleton.2 rfl), f⟩
  · have all : selDies s (arg p 46 2) = s.dieIdx := if_pos hs
    have die (d : Nat) (hd : d ∈ s.dieIdx) : s.die? d = some (s.dies[d]'(List.mem_range.1 hd)) := List.getElem?_eq_getElem _
    obtain ⟨t, e, ans, ht, f⟩ := protected_does h hk all (by simpa [State.dieIdx] using hne) h0
      (fun d hd => ⟨_, die d hd, (hx d _ (die d hd)).1⟩)
      fun d hd => (hx d _ (die d hd)).2
    have len : t.dies.length = s.dies.length := by
      simpa using congrArg List.length (f.same .hw (by decide))
    refine ⟨t, e, ans, fun y hy => ?_, f⟩
    obtain ⟨d, hlt, rfl⟩ := List.getElem_of_mem hy
    obtain ⟨z, hz, hg⟩ := ht d (List.mem_range.2 (len ▸ hlt))
    rwa [← Option.some.inj ((List.getElem?_eq_getElem hlt).symm.trans hz)] at hg
  · have e := secret_step h hk hs hlen
    rw [if_pos (show provesSecret p r s = true from hgood.trans hg), setLater_eq (started_feat p r s)] at e
    exact setFeature_sets h e fun t ht _ => ht
  · have e := secret_step h hk hs hlen
    rw [if_neg (show ¬ provesSecret p r s = true by rw [show provesSecret p r s = good from hgood, hg]; simp)] at e
    exact setFeature_refuses h e
  · obtain hk | hv | hv | hv | ⟨hk, hv⟩ | ⟨hk, hv⟩ | ⟨hk, hv⟩ | ⟨hk, hv⟩ | ⟨hk, hv⟩ := hv
    · exact unknown_refuses h hk
    · exact admission_refuses h (.inl hv)
    · exact admission_refuses h (.inr (.inl hv))
    · exact admission_refuses h (.inr (.inr hv))
    · exact protected_refuses h hk hv
    · exact health_refuses h hk hv
    · exact limit_refuses h hk hv
    · exact policy_unknown h hk hv
    · exact age_refuses h hk hv

end Sys2Proof.Machine
end
